-- ==== Sys2Proof/Word.lean ====
section
/-!
DEFINITION. Sys2Proof/Word.lean: the word types of the module and their plainest arithmetic.
-/
namespace Sys2Proof

/-- A 32-bit register word (17 R319). -/
abbrev Word := BitVec 32

/-- A 64-bit data word of a cell (05 Table 5.1). -/
abbrev DWord := BitVec 64

/-- The 64 bytes of a memory line, byte 0 least significant (07 R129). -/
abbrev LineData := BitVec 512

/-- One bit for each byte of a line (07 R129). -/
abbrev ByteMask := BitVec 64

/-- A SHA-256 value (16, head of the chapter). -/
abbrev Digest := BitVec 256

/-- The bytes of a line that a mask selects, as a mask of bits. -/
def maskBits (m : ByteMask) : LineData :=
  (List.range 64).foldl (fun acc i => if m.getLsbD i then acc ||| (255#512 <<< (8 * i)) else acc) 0#512

/-- `new` over `old`, byte by byte where the mask has a 1 (07 R132). -/
def mergeLine (m : ByteMask) (new old : LineData) : LineData :=
  (new &&& maskBits m) ||| (old &&& ~~~ maskBits m)

/-- A mask of all 64 bytes. -/
def fullMask : ByteMask := BitVec.allOnes 64

/-- The data of a failed read (06 Table 6.4). -/
def allOnesLine : LineData := BitVec.allOnes 512

end Sys2Proof
end

