-- ==== Sys2Proof/Syntax.lean ====
section
/-!
DEFINITION. Sys2Proof/Syntax.lean: the commands of the module, one constructor for each row of the table of
steps, and the plain data their operands are made of.
Numbers that name a thing (a lead, a partition, an index) are Nat; WellFormed.lean bounds them.
-/
namespace Sys2Proof

/-- Where a queue command came from: endpoint (0 MGA, 1 MGB), queue, SEQ and ring position (11 Tables 11.2, 11.3), and how many
resets of the endpoint went before it, which tells a command apart from one dispatched before a reset (11 R217). -/
structure Ctx where
  ep    : Nat
  q     : Nat
  seq   : Nat
  sqidx : Nat
  gen   : Nat
deriving DecidableEq, Repr

/-- A Trail packet: the header fields of 01 Table 1.7 and its payload flits as numbers. -/
structure TPkt where
  typ     : Nat
  hops    : Nat
  route   : Nat
  src     : Nat
  len     : Nat
  tag     : Nat
  payload : List Nat
deriving DecidableEq, Repr

/-- A packet as it comes to a router: the input and the packet (01 R17). -/
structure TArr where
  inp : Nat
  pkt : TPkt
deriving DecidableEq, Repr

/-- What the output of a packet has seen by then: the tail of the packet before it has passed, and the flit credits of each level that
have come back (01 R18, R19). -/
structure TOutSt where
  free : Bool
  cred : List Nat
deriving DecidableEq, Repr

/-- Evaluation periods that have ended one after another with the same currents: how many, and the highest input current of each as the
main path and the ADC saw it, in units of 10 mA (15 R289, R291). -/
structure CurRun where
  n    : Nat
  main : Nat
  adc  : Nat
deriving DecidableEq, Repr

/-- What the main path measured in the slot just ended: PEAK_I, and the evaluation periods that have ended since they were last
named (15 R289, R291). -/
structure SlotCur where
  peak : Nat
  runs : List CurRun
deriving DecidableEq, Repr

/-- A point of the curve that trips, and the evaluation periods up to then that no row has named yet (15 R289). -/
structure CurveTrip where
  k    : Nat
  runs : List CurRun
deriving DecidableEq, Repr

/-- Counters whose stored value has been struck: those that fail their parity at the latch of an epoch boundary, and those whose next
increment or read fails (13 R254); each by its place among all counters of the snapshot record. -/
structure CtrStrikes where
  latch  : List Nat
  struck : List Nat
deriving DecidableEq, Repr

/-- Through what a register access comes, endpoint MGA or MGB or (2) the debug master over JTAG, and whether its page does not answer
(17 R321). -/
structure RegPort where
  src  : Nat
  lost : Bool
deriving DecidableEq, Repr

/-- The register that REG_READ or REG_WRITE names, and whether its page does not answer (17 R321). -/
structure RegAt where
  off  : Nat
  lost : Bool
deriving DecidableEq, Repr

/-- CXL MetaValue of a request (08 Table 8.2). -/
inductive MetaVal where
  | any | shared | invalid
deriving DecidableEq, Repr

/-- Kinds of request a host or device sends (06 R114, 08 Table 8.2, 08 R167): CXL.mem, memory reads and writes and AtomicOps of CXL.io,
configuration requests, and requests of CXL.io, non-posted and posted, that are in no subset the module supports (00 R4). -/
inductive ReqOp where
  | memRd | memInv | memWr | memWrPtl | memClnEvct
  | ioRead | ioWrite | fetchAdd | swap | cas
  | cfgRead | cfgWrite
  | otherNp | otherP
deriving DecidableEq, Repr

/-- Options of the standards, each advertised in the capability structure that its standard defines (00 R4, Table 0.4; 03 Table 3.4;
06 R110). `l1Exit`: an L1 exit latency of `us` to less than twice `us` microseconds; `retimer`, `hdmDecoder`, `dcRegion`: there is one of
that number; `hdmWays`: interleaving of as many ways. -/
inductive StdOpt where
  | cxlIo | cxlMem | cxlCache | hdmDb | dcd | mld | pbr | fmApi | flit256 | lopt | flit68At32
  | l0p | aspmL0s | aspmL1 | atomic32 | atomic64 | cas128 | atomicRequester | pasid | doe | slotHotplug | attnButton
  | powerController | indicators | cmdCompleted | dllReporting | mrlSensor | interlock | separateRefclk
  | acsSource | acsRequest | acsCompletion | acsUpstream | acsOther
  | rate50 | l1Substates | clkreq | upconfigure | crosslink | polarity | precoding | eqBypass | noEq | rxMargining
  | l1Exit (us : Nat) | retimer (n : Nat) | hdmDecoder (n : Nat) | hdmWays (n : Nat) | dcRegion (n : Nat) | staticCapacity
deriving DecidableEq, Repr

/-- Registers of a virtual port's bridge that the host programs (06 R125): bus numbers, memory window, prefetchable window, slot
control, ACS control; slot status and link status, which it reads. -/
inductive BridgeReg where
  | bus | mem | pref | slot | acs | slotSts | linkSts
deriving DecidableEq, Repr

/-- What `addr` of a request is: a host physical address, an offset in a BAR of the PMD, a memory address below the virtual switch, a
register of the function that a bus number names, a bit of a capability structure, a register of a virtual port's bridge, or the host
itself (a device's upstream request). -/
inductive Space where
  | mem | bar0 | bar2 | bar4
  | mmio
  | dev (bus : Nat)
  | cap (o : StdOpt)
  | bridge (n : Nat) (r : BridgeReg)
  | host
deriving DecidableEq, Repr

/-- One request as it arrives on a host or device link. -/
structure Req where
  op     : ReqOp
  space  : Space
  addr   : Nat
  size   : Nat
  data   : Nat
  cmp    : Nat
  mask   : ByteMask
  md     : MetaVal
  tag    : Nat
  reqId  : Nat
  pasid  : Option Nat
  pmode  : Bool
  exe    : Bool
  ro     : Bool
  poison : Bool
deriving DecidableEq, Repr

/-- Upsets of protected storage that this step finds: a cached binding entry, replica words (tile, word), WAB entries of the tile with the
number of their block, ALC lines of the tile (link, logical device, line) with the number of theirs, bits of an LOQ entry, predictor
counter. Those of the WAB and the ALC stay until something reads the line. -/
structure Upset where
  cache : Bool
  rep   : List (Nat × Nat)
  wab   : List (Nat × Nat)
  alc   : List ((Nat × Nat × Nat) × Nat)
  loq   : Nat
  pred  : Bool
deriving DecidableEq, Repr

/-- No upset. -/
def Upset.none : Upset := ⟨false, [], [], [], 0, false⟩

/-- The request for a target of this module that a trunk flit carries, if it carries one: logical device, device address, request;
the upsets that its lookup meets; and the core clock of the tick in which the flit comes (04 R79, 06 R118, 13 R259). -/
structure TrunkReq where
  req   : Option (Nat × Nat × Req)
  upset : Upset
  clk   : Nat
deriving DecidableEq, Repr

/-- A write of DBG_MEM_CTL, and the replica words (tile, word) that fail at the lookup of its access (16 R317, 06 R115). -/
structure DbgGo where
  v   : Word
  rep : List (Nat × Nat)
deriving DecidableEq, Repr

/-- What the far end of a link says of itself at training (03 R49-R51, 04 Table 4.1). Rates are encoded as
PHY_LINK_CFG.MAX_RATE, width as WIDTH. -/
inductive FarKind where
  | cxlIoMem | cxlOther | pcie | osoryr
deriving DecidableEq, Repr

structure FarEnd where
  kind  : FarKind
  rates : List Nat
  width : Nat
  revOk : Bool
  lopt  : Bool
  std   : Bool
  flit  : Bool
deriving DecidableEq, Repr

/-- One message of a received flit with the flow its lookup or routing gives it (05 R84, R101). `read`: it is a CXL.mem read (04
R79); `tag` of a response is the name of the request that it answers (05 Table 5.5). -/
structure RxMsg where
  out   : Nat
  part  : Nat
  tc    : Nat
  oc    : Nat
  ro    : Bool
  slots : Nat
  dmod  : Nat
  dport : Nat
  tag   : Nat
  words : List DWord
  read  : Bool
deriving DecidableEq, Repr

/-- A flit as it arrives: sequence number, CRC of each half, FEC, and its messages. `phase`: 0 the whole flit; 1 its first half
has arrived, its messages those whose header lies there; 2 its second half follows, with the other messages (04 R75). -/
structure Flit where
  phase   : Nat
  seq     : Nat
  crc1    : Bool
  crc2    : Bool
  fecCorr : Nat
  fecFail : Bool
  msgs    : List RxMsg
deriving DecidableEq, Repr

/-- What a read of a cell meets: words not read as written (index, value and parity bits read; 32 is the XOR word), header check
(0 good, 1 single, 2 double), and whether the first symbol of the flit has left. -/
structure CellRead where
  bad   : List (Nat × DWord × Nat)
  hdr   : Nat
  after : Bool
deriving DecidableEq, Repr

/-- No cell is read wrong. -/
def CellRead.clean : CellRead := ⟨[], 0, false⟩

/-- A request at its home: the core clock of the tick in which it comes, the upsets that its entry meets, and what the read of its cell
meets (08 R154; 05 R105, R106). -/
structure HomeArr where
  clk   : Nat
  upset : Upset
  read  : CellRead
deriving DecidableEq, Repr

/-- A replay request: sequence number; and what the reads of cells meet that the replay makes, by cell (04 R70, R74). -/
structure ReplayAsk where
  seq   : Nat
  reads : List (Nat × CellRead)
deriving DecidableEq, Repr

/-- A link that sends its unacknowledged flits again, and what the reads of their cells meet (04 R70, R74). -/
structure LinkReads where
  lead  : Nat
  reads : List (Nat × CellRead)
deriving DecidableEq, Repr

/-- One decision of a tile's scheduler, and what its reads of cells meet, by cell (05 R95, R105). -/
structure TileReads where
  tile  : Nat
  reads : List (Nat × CellRead)
deriving DecidableEq, Repr

/-- A command, its fields taken apart (11 Table 11.2); args are bytes 16 to 63. -/
structure SqEntry where
  opcode  : Nat
  replace : Bool
  atT     : Bool
  ord     : Bool
  seq     : Nat
  time    : Nat
  args    : List Nat
deriving DecidableEq, Repr

/-- A debug token (16 Table 16.3) with its key and signature. -/
structure Token where
  magic    : Nat
  version  : Nat
  serial   : Nat
  nonce    : Nat
  scope    : Nat
  lifetime : Nat
  rest     : List Nat
  pubkey   : Digest
  sig      : Nat
deriving DecidableEq, Repr

/-- A Guyline frame as received: the port on which it arrives (false IN, travelling D; true OUT, travelling U) and its bytes, header,
payload and CRC-32 (14 R270, R272). -/
structure GHdr where
  onOut : Bool
  bytes : List Nat
deriving DecidableEq, Repr

/-- Payload of a HEARTBEAT (14 Table 14.2). -/
structure Beat where
  mode    : Nat
  ftm     : Nat
  ember   : Bool
  inUp    : Bool
  outUp   : Bool
  tmaster : Bool
  serial  : Nat
deriving DecidableEq, Repr

/-- The consume doorbell of an event queue, and the endpoint through which it is written (11 R224, Table 11.8). -/
structure EvDoor where
  ep    : Nat
  queue : Nat
deriving DecidableEq, Repr

/-- The commands: one constructor for each row of the table of steps; those without operands stand last (a constructor with
operands must stand among the first 245 for the compiler). -/
inductive Instr where
  -- Trail network and port-group power domains (file 01, 15)
  | trailPacket (router : Nat) (p : TArr) (o : TOutSt)
  | packetAged (router out : Nat)
  | timeMessage (ni value inst : Nat) (check : Bool)
  | niRequestTimeout (ni tag : Nat)
  | niRtHiCommit (ni : Nat) (v : Word)
  | domainPowerDown (g : Nat)
  | powerDownComplete (g : Nat)
  | boundaryPacket (g : Nat) (p : TPkt)
  | wakeComplete (g : Nat)
  -- Fabric time (file 02)
  | refillSlotBoundary (cur : SlotCur) (vmin : Nat) (scrub : List (Nat × Nat))
  | epochBoundary (perr : CtrStrikes)
  | ftmCfgWrite (v : Word)
  | timeSet (c : Ctx) (e : Nat)
  | ftmSchedCancel (idx : Nat)
  | schedCancel (c : Ctx) (idx : Nat)
  | partitionRestart (part : Nat)
  | coreWatchdogExpire (core : Nat)
  | fltWdogFeed (core : Nat)
  -- Ports and lanes (file 03)
  | phyLinkCfgWrite (p : Nat) (v : Word)
  | portCfg (c : Ctx) (lead : Nat) (v : Word)
  | portState (c : Ctx) (inst : Option Nat) (lead run : Nat)
  | portCtl (c : Ctx) (lead : Nat) (v : Word)
  | portPm (c : Ctx) (inst : Option Nat) (lead : Nat) (v : Word)
  | linkQuiesced (lead : Nat)
  | linkOff (lead : Nat) (off : Bool)
  | laneClr (lead : Nat)
  | retrain (lead : Nat)
  | perst (lead : Nat) (on : Bool)
  | linkTrained (lead : Nat) (far : FarEnd)
  | linkRetryTimer (lead : Nat)
  | linkDown (lead : Nat)
  | prsntChange (group : Nat) (present : Bool)
  | laneLos (lane : Nat)
  | laneLol (lane : Nat)
  | laneFailTimeout (lane : Nat)
  | laneSignalRestored (lane : Nat) (los lol : Bool)
  | linkRecoveryDone (x : LinkReads)
  | narrowEntry (lead : Nat)
  | l0pRequest (lead width : Nat)
  | dozeEntry (lead : Nat) (rx : Bool)
  | dozeExit (lead : Nat) (rx : Bool)
  | l1Entry (lead : Nat) (agree : Bool)
  | l1Exit (lead : Nat)
  | powerStateExitDone (lead : Nat) (rx : Bool)
  | marginStart (p : Nat) (v : Word)
  | margin (c : Ctx) (p : Nat) (v : Word)
  | marginStepDone (p errs : Nat)
  | laneMarginCommand (p lane cmd : Nat)
  -- Link layer (file 04)
  | flitReceive (lead : Nat) (f : Flit) (draw : Nat)
  | flitAcknowledge (lead seq : Nat) (credits : List Nat)
  | replayRequest (lead : Nat) (x : ReplayAsk)
  | replayTimerExpire (x : LinkReads)
  | egressSelect (lead : Nat) (rd : CellRead)
  | trunkFlitReceive (lead : Nat) (h : DWord) (f : Flit) (q : TrunkReq)
  | lnkInjArm (lead : Nat) (v : Word)
  | inject (c : Ctx) (target lead : Nat) (v : Word)
  -- Canopy core (file 05)
  | schedDecision (d : TileReads)
  | cellTransferDone (id : Nat) (rx : List (Nat × DWord × Nat))
  | bundleArrival (tile peer : Nat)
  | openCellIdleClose (lead : Nat)
  -- Bindings and devices (file 06)
  | hostRequest (lead : Nat) (r : Req) (u : Upset)
  | targetResponse (lead id : Nat) (ok : Bool) (data : LineData) (poison : Bool)
  | bindTc (idx : Nat)
  | bindAdd (c : Ctx) (replace : Bool) (idx : Nat) (q0 q1 q2 q3 : DWord)
  | bindDel (c : Ctx) (idx tmo : Nat)
  | bindDelTimeout (idx : Nat)
  | bindStop (c : Ctx) (inst : Option Nat) (idx : Nat)
  | bindStopped (idx : Nat)
  | bindStart (c : Ctx) (inst : Option Nat) (idx : Nat)
  | holdTimeout (id : Nat)
  | dcResponse (idx : Nat) (accept : Bool)
  | releaseDynamicCapacity (part offset length : Nat)
  | decoderCommit (part base size ways : Nat)
  | hpAdd (c : Ctx) (part vp lead : Nat)
  | hpRemove (c : Ctx) (part vp tmo : Nat)
  | hpRemoveTimeout (part vp : Nat)
  | slotPower (part vp : Nat) (on : Bool)
  -- Write acceptance (file 07)
  | wabTargetAck (tile id : Nat) (ok : Bool)
  | wabAckTimeout (tile id : Nat)
  | wabReissue (lead : Nat)
  | wabDiscard (c : Ctx) (part idx : Nat)
  | drainComplete (id : Nat)
  | fenceRead (lead offset size tag : Nat)
  -- Coherence (file 08)
  | sgCommit (c : Ctx) (group : Nat) (mem : BitVec 128)
  | homeSgMem3Commit (v : Word)
  | loqEntry (id : Nat) (a : HomeArr)
  | loqService (id : Nat) (u : Upset)
  | haloBcast (id : Nat) (bad : Option Nat)
  | haloResp (id : Nat) (bad : Option Nat)
  | wbAck (id : Nat) (bad : Option Nat)
  | haloFence (id : Nat) (bad : Option Nat)
  | birsp (lead snoop : Nat) (shared : Bool)
  | biconflict (lead snoop : Nat)
  | snoopTimeout (snoop : Nat)
  | atomicOp (id : Nat) (u : Upset)
  | nearMemoryCompletion (id : Nat) (ok : Bool) (data : LineData)
  | reserveRead (id : Nat) (u : Upset)
  | conditionalWrite (id : Nat)
  -- Egress scheduling (file 09)
  | shaperSet (c : Ctx) (inst : Option Nat) (lead part rate burst : Nat) (en : Bool)
  | quantumSet (c : Ctx) (inst : Option Nat) (lead part tc quantum : Nat)
  | schedShpCfgCommit (tile : Nat) (v : Word)
  -- Partitions (file 10)
  | partStop (c : Ctx) (part : Nat)
  | partBlkCtlWrite (part : Nat) (v : Word)
  | partQuiesced (part : Nat)
  | quiesceTimeout (part : Nat)
  | partRestartAt (c : Ctx) (inst : Option Nat) (part : Nat)
  | partReset (c : Ctx) (part : Nat)
  | partCtlReset (part : Nat)
  | hotReset (lead : Nat)
  | partResetDone (part : Nat)
  -- Management (file 11)
  | sqTailDoorbell (ep q v : Nat)
  | cqHeadDoorbell (ep q v : Nat)
  | qinvDoorbell (ep q : Nat)
  | commandDispatch (ep : Nat) (es : List (BitVec 512)) (fetchErr : Bool) (cplErr : Option Nat)
  | queueBlkCtlWrite (src ep q : Nat) (v : Word)
  | functionLevelReset (ep : Nat)
  | mgmtLinkLoss (ep : Nat)
  | mgmtLinkUp (ep : Nat)
  | nop (c : Ctx)
  | identify (c : Ctx)
  | modeSet (c : Ctx) (mode : Nat)
  | regRead (c : Ctx) (offset : RegAt)
  | regWrite (c : Ctx) (inst : Option Nat) (offset : RegAt) (v mask : Word)
  | snapshot (c : Ctx) (buf len : Nat) (good : Bool)
  | evqReset (c : Ctx) (queue : Nat)
  | tableRead (c : Ctx) (table first count buf : Nat) (good : Bool)
  | evqConsumeDoorbell (d : EvDoor) (seqNo : Nat)
  | evqIdleTimeout (queue : Nat)
  | evqWindowRead (ep queue : Nat)
  -- Fault collection (file 12)
  | faultAssertion (src part link : Nat) (named : Bool)
  | wireBroken (src : Nat)
  | wireRestored (src : Nat)
  | errInject (addr : Nat) (v : Word)
  | errStickyClear (addr : Nat) (v : Word)
  | errMaskWrite (addr : Nat) (v : Word)
  | fltSrcReactWrite (v : Word)
  | fltDsegCfgWrite (v : Word)
  | dumpBufSet (c : Ctx) (buf len : Nat)
  | dumpFetch (c : Ctx) (num buf len : Nat) (good : Bool)
  | fwStage (c : Ctx) (off : Nat) (bytes : List Nat) (good : Bool)
  | fwActivate (c : Ctx)
  | flashWriteDone (result : Nat)
  -- Telemetry (file 13)
  | ctrBankClear (bank : Nat)
  | ctrLoRead (bank ctr : Nat) (perr : Bool)
  | ctrFilter (c : Ctx) (bank : Nat) (f0 f1 f2 : Word)
  | tagSet (c : Ctx) (n : Nat) (en : Bool)
  | snapshotCollected (ringOk : Bool)
  | skylightSet (c : Ctx) (base size : Nat)
  | telSkyHeadWrite (v : Word)
  -- Guyline (file 14)
  | lockLoss (outPort : Bool)
  | glrPortDown (outPort : Bool)
  | blockLockRegained (outPort : Bool)
  | bypassOpen (tapsLocked : Bool)
  | hello (h : GHdr) (modid : Nat)
  | dlyReq (h : GHdr) (num turnaround : Nat)
  | dlyRsp (h : GHdr) (num turnaround roundTrip : Nat)
  | heartbeat (h : GHdr) (b : Beat)
  | memberLapse (modid : Nat)
  | time (h : GHdr) (epoch dep corr arrival residence : Nat)
  | timeSend (dep : Nat)
  | rstReq (h : GHdr) (part slot t : Nat)
  | rstCancel (h : GHdr) (slot : Nat)
  | rstRsp (h : GHdr) (slot status : Nat) (final : Bool) (sidx : Nat)
  | ack (h : GHdr) (next : Nat) (nak resync : Bool)
  | glrAckTimeout (modid : Nat)
  | glrReplayTimeout (modid : Nat)
  | go (v : Word)
  | cancel (v : Word)
  | noFinal (slot : Nat)
  -- Power, modes and resets (file 15)
  | vinOn (mv : Nat)
  | railTimeout (rail : Nat)
  | curvePointTrip (x : CurveTrip)
  | selftestDone (failed : Bool)
  | pwrwarnAssert (mv : Nat)
  | pwrwarnDeassert (mv : Nat)
  | vinUv (mv : Nat)
  | vinOv (mv : Nat)
  | vinOvClear (mv : Nat)
  | vinBelowVstby (mv : Nat)
  | vinAboveVstby (mv : Nat)
  | reclosure (mv : Nat)
  | holdupFull (mv : Nat)
  | storeNotFull (mv : Nat)
  | phaseLost (rail phase : Nat)
  | regulationFault (rail : Nat)
  | tjTrip (die : Nat)
  | temperatureRead (die temp : Nat)
  | cold (key : Nat)
  -- I3C sideband (file 18)
  | i3cCcc (code arg : Nat)
  | i3cPrivateWrite (reg : Nat) (bytes : List Nat)
  | i3cPrivateRead (n : Nat)
  | sbLatchClr (v : Nat)
  -- Security (file 16)
  | secKeyRevoke (v : Word)
  | keyRevocationDone (slot : Nat)
  | svnCommit (v : Word)
  | getVersion (ep : Nat)
  | getCapabilities (ep : Nat)
  | negotiateAlgorithms (ep : Nat) (extSel : Bool)
  | getDigests (ep : Nat)
  | getCertificate (ep slot offset length : Nat)
  | challenge (ep slot nonce : Nat)
  | getMeasurements (ep index nonce : Nat) (signed : Bool)
  | spdmUnsupportedRequest (ep code : Nat)
  | dbgToken (c : Ctx) (len : Nat) (good : Bool) (t : Token)
  | jtagToken (t : Token)
  | jtagFlashProgram (copy : Nat) (bytes : List Nat)
  | dbgMemGo (g : DbgGo)
  | dbgMemDone (data : LineData) (down : Bool)
  -- Register pages (file 17)
  | blkCtlWrite (addr : Nat) (v : Word)
  | blockQuiesced (addr : Nat)
  | bindWindowRead (src : RegPort) (addr size : Nat)
  | registerWrite (src : RegPort) (addr size : Nat) (v : BitVec 64)
  -- Without operands: the files of the sections above
  | wakeStart
  | fsyncEdge
  | fsyncLost
  | ringLost
  | ftmRelock
  | ringTimeLoad
  | ftmTimeLoRead
  | timeSetLoad
  | timeSetExpire
  | scheduledCommandFire
  | moduleWatchdogExpire
  | wabWaitExpire
  | powerDrainWindowEnd
  | plrClear
  | fatalFreeze
  | dumpWritten
  | fwStandbyReady
  | fwStandbyTimeout
  | formerCoreStandby
  | bypassClose
  | dlyExchangeSend
  | heartbeatSend
  | prechargeDone
  | prechargeTimeout
  | pgIntAssert
  | fastTrip
  | backoffEnd
  | curveCommit
  | selftest
  | measPathFault
  | measPathRestore
  | retryCountClear
  | powerDown
  | reclosureDone
  | refclkLoss
  | refclkReturn
  | bootDone
  | coldResetStart
  | warm
  | resetNFall
  | resetNRise
  | warmReset
  | pwrEnergyLoRead
  | svnFuseDone
  | tokenVerified
  | jtagBootStatus
  | dbgLifetimeExpire
  | relock
deriving DecidableEq, Repr

end Sys2Proof
end

