-- ==== Sys2Proof/Decode.lean ====
section
/-!
DEFINITION. Sys2Proof/Decode.lean: the table of steps gives its rows no bits, so no word spells a command.
-/
namespace Sys2Proof

/-- The command that a word spells: the table of steps gives no row an encoding, so there is none. -/
def decodeTableWord (_nbits _w : Nat) : Option Instr := none

end Sys2Proof
end

