-- ==== Sys2Proof/Machine/Frames.lean ====
section
/-!
DEFINITION. Sys2Proof/Machine/Frames.lean: bits and bytes of numbers, and the frames of the Guyline ring as bytes (14 R270, Tables 14.1,
14.2).
-/
namespace Sys2Proof.Machine

/-- Bits `lo .. lo+w-1` of a number. -/
def bits (v lo w : Nat) : Nat := v / 2 ^ lo % 2 ^ w

/-- One bit of a number. -/
def bit (v i : Nat) : Bool := v / 2 ^ i % 2 == 1

/-- `n` bytes of a number, the least significant first. -/
def leBytes (n v : Nat) : List Nat := (List.range n).map fun k => bits v (8 * k) 8

/-- The number that bytes spell, the least significant first. -/
def leVal (l : List Nat) : Nat := l.foldr (fun b v => b + 256 * v) 0

/-- Types of frames (14 Table 14.2). -/
def G.hello : Nat := 0x01
def G.dlyReq : Nat := 0x02
def G.dlyRsp : Nat := 0x03
def G.heartbeat : Nat := 0x10
def G.timeT : Nat := 0x11
def G.rstReq : Nat := 0x20
def G.rstCancel : Nat := 0x21
def G.rstRsp : Nat := 0x22
def G.ack : Nat := 0x30

/-- Payload bytes of a frame (14 Table 14.2). -/
def gLen (typ : Nat) : Nat :=
  match typ with
  | 0x01 => 2 | 0x02 => 4 | 0x03 => 8 | 0x10 => 16 | 0x11 => 16 | 0x20 => 16 | 0x21 => 2 | 0x22 => 5 | _ => 3

/-- The payload bytes of a frame (14 Table 14.2). -/
def glrPayload (typ : Nat) (body : List Nat) : List Nat :=
  let a (i : Nat) : Nat := body.getD i 0
  match typ with
  | 0x01 => [a 0, a 1]
  | 0x02 => leBytes 4 (a 0)
  | 0x03 => leBytes 4 (a 0) ++ leBytes 4 (a 1)
  | 0x10 => [a 0, a 1, a 2, 0, 0, 0, 0, 0] ++ leBytes 8 (a 3)
  | 0x11 => leBytes 8 (a 0) ++ leBytes 4 (a 1) ++ leBytes 4 (a 2)
  | 0x20 => [a 0, a 1, 0, 0, 0, 0, 0, 0] ++ leBytes 8 (a 2)
  | 0x21 => [0, a 0]
  | 0x22 => [0, a 0, a 1, a 2, a 3]
  | _ => leBytes 2 (a 0) ++ [a 1 + 2 * a 2]

/-- The 16 bytes of a frame's header (14 Table 14.1). -/
def glrHeader (typ src dst hops turns seq : Nat) (sync cinv : Bool) : List Nat :=
  let seqd := typ == G.rstReq || typ == G.rstCancel || typ == G.rstRsp
  [typ, turns * 64 + seqd.toNat * 32 + sync.toNat * 16 + cinv.toNat * 8, src, dst, hops, 0] ++ leBytes 2 seq
    ++ leBytes 2 (gLen typ) ++ List.replicate 6 0

/-- The CRC-32 of IEEE 802.3 over bytes (14 R270). -/
def crc32 (l : List Nat) : BitVec 32 :=
  let bitStep (c : BitVec 32) (_ : Nat) : BitVec 32 := if c.getLsbD 0 then (c >>> 1) ^^^ 0xEDB88320#32 else c >>> 1
  l.foldl (fun c b => (List.range 8).foldl bitStep (c ^^^ BitVec.ofNat 32 b)) 0xFFFFFFFF#32 ^^^ 0xFFFFFFFF#32

/-- The bytes of a frame as `Out.frame` names it: header, payload, CRC-32 (14 R270). -/
def frameBytes (typ src dst hops turns seq : Nat) (sync cinv : Bool) (body : List Nat) : List Nat :=
  let l := glrHeader typ src dst hops turns seq sync cinv ++ glrPayload typ body
  l ++ leBytes 4 (crc32 l).toNat

/-- The values that a payload carries, in the order of `glrPayload`. -/
def glrBody (typ : Nat) (l : List Nat) : List Nat :=
  let b (i : Nat) : Nat := l.getD i 0
  let w (i n : Nat) : Nat := leVal ((l.drop i).take n)
  match typ with
  | 0x01 => [b 0, b 1]
  | 0x02 => [w 0 4]
  | 0x03 => [w 0 4, w 4 4]
  | 0x10 => [b 0, b 1, b 2, w 8 8]
  | 0x11 => [w 0 8, w 8 4, w 12 4]
  | 0x20 => [b 0, b 1, w 8 8]
  | 0x21 => [b 1]
  | 0x22 => [b 1, b 2, b 3 % 2, b 4]
  | _ => [w 0 2, b 2 % 2, b 2 / 2 % 2]

end Sys2Proof.Machine

namespace Sys2Proof

open Sys2Proof.Machine

/-- Fields of the header of a received frame (14 Table 14.1). -/
def GHdr.typ (h : GHdr) : Nat := h.bytes.getD 0 0
def GHdr.turns (h : GHdr) : Nat := bits (h.bytes.getD 1 0) 6 2
def GHdr.seqd (h : GHdr) : Bool := bit (h.bytes.getD 1 0) 5
def GHdr.sync (h : GHdr) : Bool := bit (h.bytes.getD 1 0) 4
def GHdr.cinv (h : GHdr) : Bool := bit (h.bytes.getD 1 0) 3
def GHdr.src (h : GHdr) : Nat := h.bytes.getD 2 0
def GHdr.dst (h : GHdr) : Nat := h.bytes.getD 3 0
def GHdr.hops (h : GHdr) : Nat := h.bytes.getD 4 0
def GHdr.seq (h : GHdr) : Nat := leVal ((h.bytes.drop 6).take 2)
def GHdr.len (h : GHdr) : Nat := leVal ((h.bytes.drop 8).take 2)

/-- A frame without its CRC, and its payload. -/
def GHdr.front (h : GHdr) : List Nat := h.bytes.take (h.bytes.length - 4)
def GHdr.payload (h : GHdr) : List Nat := h.front.drop 16

/-- The CRC of a received frame is good: it is that of the header and the payload (14 R270). -/
def GHdr.crcOk (h : GHdr) : Bool := leBytes 4 (crc32 h.front).toNat == h.bytes.drop (h.bytes.length - 4)

/-- A frame as it is forwarded: HOPS decremented, TURNS incremented where it is turned, `patch` applied to the rest (a TIME frame's
compensation), and the CRC made anew (14 R271, R272). -/
def GHdr.forwarded (h : GHdr) (turn : Bool) (patch : List Nat → List Nat) : List Nat :=
  let l := patch ((h.front.set 1 (h.bytes.getD 1 0 % 64 + (h.turns + turn.toNat) * 64)).set 4 (h.hops - 1))
  l ++ leBytes 4 (crc32 l).toNat

/-- Payload of a heartbeat. -/
def Beat.body (b : Beat) : List Nat :=
  [b.mode, b.ftm, b.ember.toNat + 2 * b.inUp.toNat + 4 * b.outUp.toNat + 8 * b.tmaster.toNat, b.serial]

/-- A received frame is one of a type, with the length of that type, and its payload carries the values (14 Tables 14.1, 14.2). -/
def GHdr.carries (h : GHdr) (typ : Nat) (body : List Nat) : Bool :=
  h.typ == typ && h.len == gLen typ && h.bytes.length == 20 + gLen typ && h.bytes.all (fun b => decide (b < 256)) &&
    glrBody typ h.payload == body

end Sys2Proof
end

