-- ==== Sys2Proof/Machine/Fields.lean ====
section
/-!
DEFINITION. Sys2Proof/Machine/Fields.lean: every register field of the register tables of files 01 to 17: place in its
page, width, reset value, access type (17 Table 17.12a) and what a write outside its range does (17 R330).
Each definition's comment names the table it is taken from.
-/
namespace Sys2Proof.Machine

/-- Access types (17 Table 17.12a); RWE fields name the boundary at which they take effect. -/
inductive Acc where
  | ro | rw | rwq | rweSlot | rweEpoch | w1c | w1s | rws | wo
deriving DecidableEq, Repr

/-- One register field: offset in the page, lowest bit, width, reset value, access, range, and whether a
value below or above the range is stored as the nearer limit (`clampLo`, `clampHi`) or discarded (17 R330). -/
structure Fld where
  off     : Nat
  lo      : Nat
  width   : Nat
  reset   : Nat
  acc     : Acc
  min     : Nat
  max     : Nat
  clampLo : Bool
  clampHi : Bool
deriving DecidableEq, Repr

-- Table 1.9
def F.NI_RT_IDX_IDX : Fld := ⟨0x040, 0, 8, 0, .rw, 0, 255, false, false⟩
-- Table 1.10
def F.NI_RT_LO_ROUTE_LO : Fld := ⟨0x044, 0, 32, 0, .rwq, 0, 4294967295, false, false⟩
-- Table 1.11
def F.NI_RT_HI_VALID : Fld := ⟨0x048, 8, 1, 0, .rwq, 0, 1, false, false⟩
def F.NI_RT_HI_HOPS : Fld := ⟨0x048, 4, 4, 0, .rwq, 0, 15, false, false⟩
def F.NI_RT_HI_ROUTE_HI : Fld := ⟨0x048, 0, 4, 0, .rwq, 0, 15, false, false⟩
-- Table 1.12
def F.NI_TMO_TMO : Fld := ⟨0x04C, 0, 20, 0x4e20, .rw, 1000, 1000000, true, true⟩
-- Table 1.13
def F.NI_STS_BND_FULL : Fld := ⟨0x020, 5, 1, 0, .ro, 0, 1, false, false⟩
def F.NI_STS_ASLEEP : Fld := ⟨0x020, 4, 1, 0, .ro, 0, 1, false, false⟩
def F.NI_STS_NO_ROUTE : Fld := ⟨0x020, 3, 1, 0, .w1c, 0, 1, false, false⟩
def F.NI_STS_TMO : Fld := ⟨0x020, 2, 1, 0, .w1c, 0, 1, false, false⟩
def F.NI_STS_ROUTE_ERR : Fld := ⟨0x020, 1, 1, 0, .w1c, 0, 1, false, false⟩
-- Table 1.14
def F.NI_PD_CNT_ABORTS : Fld := ⟨0x050, 16, 16, 0, .ro, 0, 65535, false, false⟩
def F.NI_PD_CNT_HELD_WAKES : Fld := ⟨0x050, 0, 16, 0, .ro, 0, 65535, false, false⟩
-- Table 2.6
def F.FTM_STS_EMBER_RUN : Fld := ⟨0x020, 5, 1, 0, .ro, 0, 1, false, false⟩
def F.FTM_STS_RING_OK : Fld := ⟨0x020, 4, 1, 0, .ro, 0, 1, false, false⟩
def F.FTM_STS_FSYNC_OK : Fld := ⟨0x020, 3, 1, 0, .ro, 0, 1, false, false⟩
def F.FTM_STS_HOLDOVER : Fld := ⟨0x020, 2, 1, 0, .ro, 0, 1, false, false⟩
def F.FTM_STS_STATE : Fld := ⟨0x020, 0, 2, 0, .ro, 0, 3, false, false⟩
-- Table 2.7
def F.FTM_OFFSET_OFFSET : Fld := ⟨0x024, 0, 32, 0, .ro, 0, 4294967295, false, false⟩
-- Table 2.8
def F.FTM_TIME_LO_TIME_LO : Fld := ⟨0x040, 0, 32, 0, .ro, 0, 4294967295, false, false⟩
-- Table 2.9
def F.FTM_TIME_HI_TIME_HI : Fld := ⟨0x044, 0, 32, 0, .ro, 0, 4294967295, false, false⟩
-- Table 2.10
def F.FTM_CFG_MISS_LIM : Fld := ⟨0x048, 4, 4, 3, .rw, 1, 15, true, true⟩
def F.FTM_CFG_SRC : Fld := ⟨0x048, 0, 2, 0, .rwq, 0, 3, false, false⟩
-- Table 2.11
def F.FTM_SRC_CNT_FSYNC_MISS : Fld := ⟨0x04C, 24, 8, 0, .ro, 0, 255, false, false⟩
def F.FTM_SRC_CNT_FSYNC_MISMATCH : Fld := ⟨0x04C, 16, 8, 0, .ro, 0, 255, false, false⟩
def F.FTM_SRC_CNT_RING_MISMATCH : Fld := ⟨0x04C, 8, 8, 0, .ro, 0, 255, false, false⟩
def F.FTM_SRC_CNT_HOLDOVER_CNT : Fld := ⟨0x04C, 0, 8, 0, .ro, 0, 255, false, false⟩
-- Table 2.12
def F.FTM_SCHED_STS_CANCEL_LATE : Fld := ⟨0x050, 24, 1, 0, .w1c, 0, 1, false, false⟩
def F.FTM_SCHED_STS_LATE_CNT : Fld := ⟨0x050, 16, 8, 0, .ro, 0, 255, false, false⟩
def F.FTM_SCHED_STS_USED : Fld := ⟨0x050, 0, 9, 0, .ro, 0, 511, false, false⟩
-- Table 2.13
def F.FTM_SCHED_CANCEL_IDX : Fld := ⟨0x054, 0, 8, 0, .wo, 0, 255, false, false⟩
-- Table 3.5
def F.PHY_LINK_STS_NOT_LEAD : Fld := ⟨0x020, 31, 1, 0, .ro, 0, 1, false, false⟩
def F.PHY_LINK_STS_LEAD : Fld := ⟨0x020, 22, 9, 0, .ro, 0, 511, false, false⟩
def F.PHY_LINK_STS_CFG_ERR : Fld := ⟨0x020, 20, 2, 0, .ro, 0, 3, false, false⟩
def F.PHY_LINK_STS_PROTO_MISMATCH : Fld := ⟨0x020, 19, 1, 0, .ro, 0, 1, false, false⟩
def F.PHY_LINK_STS_DEGRADED : Fld := ⟨0x020, 18, 1, 0, .ro, 0, 1, false, false⟩
def F.PHY_LINK_STS_CUR_RATE : Fld := ⟨0x020, 15, 3, 0, .ro, 0, 7, false, false⟩
def F.PHY_LINK_STS_CUR_WIDTH : Fld := ⟨0x020, 12, 3, 0, .ro, 0, 7, false, false⟩
def F.PHY_LINK_STS_TX_STATE : Fld := ⟨0x020, 9, 3, 4, .ro, 0, 7, false, false⟩
def F.PHY_LINK_STS_RX_STATE : Fld := ⟨0x020, 6, 3, 4, .ro, 0, 7, false, false⟩
def F.PHY_LINK_STS_UP : Fld := ⟨0x020, 5, 1, 0, .ro, 0, 1, false, false⟩
def F.PHY_LINK_STS_PRSNT : Fld := ⟨0x020, 4, 1, 0, .ro, 0, 1, false, false⟩
def F.PHY_LINK_STS_RATE_ERR : Fld := ⟨0x020, 3, 1, 0, .ro, 0, 1, false, false⟩
-- Table 3.6
def F.PHY_LINK_CFG_HPART : Fld := ⟨0x040, 17, 7, 0, .rwq, 0, 127, false, false⟩
def F.PHY_LINK_CFG_LANE_REV_EN : Fld := ⟨0x040, 16, 1, 1, .rwq, 0, 1, false, false⟩
def F.PHY_LINK_CFG_MAX_RATE : Fld := ⟨0x040, 13, 3, 4, .rwq, 0, 7, false, false⟩
def F.PHY_LINK_CFG_WIDTH : Fld := ⟨0x040, 8, 3, 0, .rwq, 0, 7, false, false⟩
def F.PHY_LINK_CFG_ROLE : Fld := ⟨0x040, 0, 2, 0, .rwq, 0, 3, false, false⟩
-- Table 3.7
def F.PHY_LINK_CTL_OFF : Fld := ⟨0x044, 3, 1, 1, .rw, 0, 1, false, false⟩
def F.PHY_LINK_CTL_LANE_CLR : Fld := ⟨0x044, 2, 1, 0, .w1s, 0, 1, false, false⟩
def F.PHY_LINK_CTL_RETRAIN : Fld := ⟨0x044, 1, 1, 0, .w1s, 0, 1, false, false⟩
def F.PHY_LINK_CTL_PERST : Fld := ⟨0x044, 0, 1, 1, .rw, 0, 1, false, false⟩
-- Table 3.8
def F.PHY_PM_CFG_DOZE_EN : Fld := ⟨0x048, 31, 1, 0, .rweSlot, 0, 1, false, false⟩
def F.PHY_PM_CFG_L1_EN : Fld := ⟨0x048, 30, 1, 0, .rweSlot, 0, 1, false, false⟩
def F.PHY_PM_CFG_NARROW_EN : Fld := ⟨0x048, 29, 1, 0, .rweSlot, 0, 1, false, false⟩
def F.PHY_PM_CFG_NARROW_WIDTH : Fld := ⟨0x048, 26, 3, 0, .rweSlot, 0, 7, false, false⟩
def F.PHY_PM_CFG_NARROW_IDLE : Fld := ⟨0x048, 16, 10, 8, .rweSlot, 1, 1023, true, true⟩
def F.PHY_PM_CFG_DOZE_IDLE : Fld := ⟨0x048, 8, 8, 4, .rweSlot, 1, 255, true, true⟩
def F.PHY_PM_CFG_L1_IDLE : Fld := ⟨0x048, 0, 8, 0x40, .rweSlot, 1, 255, true, true⟩
-- Table 3.9
def F.PHY_LANE_FAIL_LOL_LIM : Fld := ⟨0x04C, 24, 8, 0x10, .rw, 0, 255, false, false⟩
def F.PHY_LANE_FAIL_TMO : Fld := ⟨0x04C, 0, 14, 0xc8, .rw, 10, 10000, true, true⟩
-- Table 3.10
def F.PHY_LANE_CNT0_LOS_CNT : Fld := ⟨0x050, 16, 16, 0, .ro, 0, 65535, false, false⟩
def F.PHY_LANE_CNT0_LOL_CNT : Fld := ⟨0x050, 0, 16, 0, .ro, 0, 65535, false, false⟩
def F.PHY_LANE_CNT1_LOS_CNT : Fld := ⟨0x054, 16, 16, 0, .ro, 0, 65535, false, false⟩
def F.PHY_LANE_CNT1_LOL_CNT : Fld := ⟨0x054, 0, 16, 0, .ro, 0, 65535, false, false⟩
-- Table 3.11
def F.PHY_LANE_SLOT_LANE1_FAILED : Fld := ⟨0x058, 7, 1, 0, .ro, 0, 1, false, false⟩
def F.PHY_LANE_SLOT_LANE1_LOL : Fld := ⟨0x058, 6, 1, 0, .ro, 0, 1, false, false⟩
def F.PHY_LANE_SLOT_LANE1_LOS : Fld := ⟨0x058, 5, 1, 0, .ro, 0, 1, false, false⟩
def F.PHY_LANE_SLOT_LANE1_ACT : Fld := ⟨0x058, 4, 1, 0, .ro, 0, 1, false, false⟩
def F.PHY_LANE_SLOT_LANE0_FAILED : Fld := ⟨0x058, 3, 1, 0, .ro, 0, 1, false, false⟩
def F.PHY_LANE_SLOT_LANE0_LOL : Fld := ⟨0x058, 2, 1, 0, .ro, 0, 1, false, false⟩
def F.PHY_LANE_SLOT_LANE0_LOS : Fld := ⟨0x058, 1, 1, 0, .ro, 0, 1, false, false⟩
def F.PHY_LANE_SLOT_LANE0_ACT : Fld := ⟨0x058, 0, 1, 0, .ro, 0, 1, false, false⟩
-- Table 3.12
def F.PHY_TXEQ0_PRESET : Fld := ⟨0x060, 28, 4, 0, .ro, 0, 15, false, false⟩
def F.PHY_TXEQ0_C_M2 : Fld := ⟨0x060, 22, 6, 0, .ro, 0, 63, false, false⟩
def F.PHY_TXEQ0_C_M1 : Fld := ⟨0x060, 16, 6, 0, .ro, 0, 63, false, false⟩
def F.PHY_TXEQ0_C_0 : Fld := ⟨0x060, 10, 6, 0, .ro, 0, 63, false, false⟩
def F.PHY_TXEQ0_C_P1 : Fld := ⟨0x060, 4, 6, 0, .ro, 0, 63, false, false⟩
def F.PHY_TXEQ1_PRESET : Fld := ⟨0x064, 28, 4, 0, .ro, 0, 15, false, false⟩
def F.PHY_TXEQ1_C_M2 : Fld := ⟨0x064, 22, 6, 0, .ro, 0, 63, false, false⟩
def F.PHY_TXEQ1_C_M1 : Fld := ⟨0x064, 16, 6, 0, .ro, 0, 63, false, false⟩
def F.PHY_TXEQ1_C_0 : Fld := ⟨0x064, 10, 6, 0, .ro, 0, 63, false, false⟩
def F.PHY_TXEQ1_C_P1 : Fld := ⟨0x064, 4, 6, 0, .ro, 0, 63, false, false⟩
-- Table 3.13
def F.PHY_RXEQ0_ADAPT_DONE : Fld := ⟨0x068, 31, 1, 0, .ro, 0, 1, false, false⟩
def F.PHY_RXEQ0_CTLE : Fld := ⟨0x068, 26, 5, 0, .ro, 0, 31, false, false⟩
def F.PHY_RXEQ0_DFE1 : Fld := ⟨0x068, 20, 6, 0, .ro, 0, 63, false, false⟩
def F.PHY_RXEQ0_DFE2 : Fld := ⟨0x068, 14, 6, 0, .ro, 0, 63, false, false⟩
def F.PHY_RXEQ0_DFE3 : Fld := ⟨0x068, 8, 6, 0, .ro, 0, 63, false, false⟩
def F.PHY_RXEQ0_EYE_H : Fld := ⟨0x068, 0, 8, 0, .ro, 0, 255, false, false⟩
def F.PHY_RXEQ1_ADAPT_DONE : Fld := ⟨0x06C, 31, 1, 0, .ro, 0, 1, false, false⟩
def F.PHY_RXEQ1_CTLE : Fld := ⟨0x06C, 26, 5, 0, .ro, 0, 31, false, false⟩
def F.PHY_RXEQ1_DFE1 : Fld := ⟨0x06C, 20, 6, 0, .ro, 0, 63, false, false⟩
def F.PHY_RXEQ1_DFE2 : Fld := ⟨0x06C, 14, 6, 0, .ro, 0, 63, false, false⟩
def F.PHY_RXEQ1_DFE3 : Fld := ⟨0x06C, 8, 6, 0, .ro, 0, 63, false, false⟩
def F.PHY_RXEQ1_EYE_H : Fld := ⟨0x06C, 0, 8, 0, .ro, 0, 255, false, false⟩
-- Table 3.14
def F.PHY_MARGIN_CTL_START : Fld := ⟨0x070, 31, 1, 0, .w1s, 0, 1, false, false⟩
def F.PHY_MARGIN_CTL_LANE : Fld := ⟨0x070, 28, 1, 0, .rw, 0, 1, false, false⟩
def F.PHY_MARGIN_CTL_AXIS : Fld := ⟨0x070, 26, 2, 0, .rw, 0, 3, false, false⟩
def F.PHY_MARGIN_CTL_DIR : Fld := ⟨0x070, 24, 2, 0, .rw, 0, 3, false, false⟩
def F.PHY_MARGIN_CTL_STEPS : Fld := ⟨0x070, 16, 8, 0x20, .rw, 1, 127, true, false⟩
def F.PHY_MARGIN_CTL_DWELL : Fld := ⟨0x070, 0, 16, 0x2710, .rw, 1, 65535, false, false⟩
-- Table 3.15
def F.PHY_MARGIN_STS_BUSY : Fld := ⟨0x074, 31, 1, 0, .ro, 0, 1, false, false⟩
def F.PHY_MARGIN_STS_RESULT : Fld := ⟨0x074, 29, 2, 0, .ro, 0, 3, false, false⟩
def F.PHY_MARGIN_STS_LAST_CLEAN : Fld := ⟨0x074, 16, 8, 0, .ro, 0, 255, false, false⟩
def F.PHY_MARGIN_STS_ERR_CNT : Fld := ⟨0x074, 0, 16, 0, .ro, 0, 65535, false, false⟩
-- Table 4.7
def F.LNK_STS_MODE : Fld := ⟨0x020, 30, 2, 0, .ro, 0, 3, false, false⟩
def F.LNK_STS_REPLAYING : Fld := ⟨0x020, 29, 1, 0, .ro, 0, 1, false, false⟩
-- Table 4.8
def F.LNK_SEQ_STS_NEXT_TX : Fld := ⟨0x024, 20, 10, 0, .ro, 0, 1023, false, false⟩
def F.LNK_SEQ_STS_OUTSTANDING : Fld := ⟨0x024, 10, 10, 0, .ro, 0, 1023, false, false⟩
def F.LNK_SEQ_STS_NEXT_RX : Fld := ⟨0x024, 0, 10, 0, .ro, 0, 1023, false, false⟩
-- Table 4.9
def F.LNK_CFG_LOPT_EN : Fld := ⟨0x040, 0, 1, 1, .rwq, 0, 1, false, false⟩
-- Table 4.10
def F.LNK_REPLAY_CFG_LIM : Fld := ⟨0x044, 16, 4, 3, .rw, 1, 15, true, true⟩
def F.LNK_REPLAY_CFG_TMO : Fld := ⟨0x044, 0, 16, 0x64, .rw, 20, 10000, true, true⟩
-- Table 4.11
def F.LNK_REPLAY_CNT_REPLAYS : Fld := ⟨0x048, 16, 16, 0, .ro, 0, 65535, false, false⟩
def F.LNK_REPLAY_CNT_LIM_HITS : Fld := ⟨0x048, 0, 16, 0, .ro, 0, 65535, false, false⟩
-- Table 4.12
def F.LNK_RX_CNT_CRC_ERR : Fld := ⟨0x04C, 16, 16, 0, .ro, 0, 65535, false, false⟩
def F.LNK_RX_CNT_DUP_DISC : Fld := ⟨0x04C, 0, 16, 0, .ro, 0, 65535, false, false⟩
-- Table 4.13
def F.LNK_FEC_CNT_FEC_CORR : Fld := ⟨0x050, 16, 16, 0, .ro, 0, 65535, false, false⟩
def F.LNK_FEC_CNT_FEC_UNCORR : Fld := ⟨0x050, 0, 16, 0, .ro, 0, 65535, false, false⟩
-- Table 4.14
def F.LNK_STOMP_CNT_STOMP_TX : Fld := ⟨0x054, 16, 16, 0, .ro, 0, 65535, false, false⟩
def F.LNK_STOMP_CNT_LATE_MARK : Fld := ⟨0x054, 8, 8, 0, .ro, 0, 255, false, false⟩
def F.LNK_STOMP_CNT_REBUILD_FAIL : Fld := ⟨0x054, 0, 8, 0, .ro, 0, 255, false, false⟩
-- Table 4.15
def F.LNK_INJ_CTL_ARM : Fld := ⟨0x060, 31, 1, 0, .w1s, 0, 1, false, false⟩
def F.LNK_INJ_CTL_KIND : Fld := ⟨0x060, 26, 2, 0, .rw, 0, 3, false, false⟩
def F.LNK_INJ_CTL_N : Fld := ⟨0x060, 16, 4, 1, .rw, 1, 15, true, true⟩
def F.LNK_INJ_CTL_BYTE : Fld := ⟨0x060, 8, 8, 0, .rw, 0, 255, false, false⟩
-- Table 4.16
def F.LNK_INJ_STS_DONE : Fld := ⟨0x064, 31, 1, 0, .w1c, 0, 1, false, false⟩
def F.LNK_INJ_STS_REFUSED : Fld := ⟨0x064, 30, 1, 0, .w1c, 0, 1, false, false⟩
-- Table 4.17
def F.TRNK_MOD_CFG_HOPS_INIT : Fld := ⟨0x040, 8, 4, 4, .rwq, 1, 15, true, true⟩
def F.TRNK_MOD_CFG_MODID : Fld := ⟨0x040, 0, 8, 0xff, .rwq, 0, 255, false, false⟩
-- Table 4.18
def F.TRNK_RT_IDX_IDX : Fld := ⟨0x044, 0, 8, 0, .rw, 0, 255, false, false⟩
-- Table 4.19
def F.TRNK_RT_DATA_VALID : Fld := ⟨0x048, 31, 1, 0, .rwq, 0, 1, false, false⟩
def F.TRNK_RT_DATA_LEAD : Fld := ⟨0x048, 0, 9, 0, .rwq, 0, 511, false, false⟩
-- Table 4.20
def F.TRNK_RX_ERR_BAD_HDR : Fld := ⟨0x04C, 24, 8, 0, .ro, 0, 255, false, false⟩
def F.TRNK_RX_ERR_NO_DEST : Fld := ⟨0x04C, 16, 8, 0, .ro, 0, 255, false, false⟩
def F.TRNK_RX_ERR_HOP_EXP : Fld := ⟨0x04C, 8, 8, 0, .ro, 0, 255, false, false⟩
def F.TRNK_RX_ERR_NO_ROUTE : Fld := ⟨0x04C, 0, 8, 0, .ro, 0, 255, false, false⟩
-- Table 5.10
def F.ING_STS_USED : Fld := ⟨0x020, 0, 17, 0, .ro, 0, 131071, false, false⟩
-- Table 5.11
def F.ING_CELL_CFG_MAX : Fld := ⟨0x040, 16, 16, 0, .rwq, 0, 65535, false, false⟩
def F.ING_CELL_CFG_GUAR : Fld := ⟨0x040, 0, 12, 0x80, .rwq, 0, 4095, false, false⟩
-- Table 5.12
def F.ING_ORD_CFG_RO_EN : Fld := ⟨0x044, 1, 1, 1, .rwq, 0, 1, false, false⟩
-- Table 5.13
def F.ING_CNT_SPLIT : Fld := ⟨0x048, 16, 16, 0, .ro, 0, 65535, false, false⟩
def F.ING_CNT_CREDIT_WAIT : Fld := ⟨0x048, 0, 16, 0, .ro, 0, 65535, false, false⟩
-- Table 5.14
def F.CELL_STS_FREE : Fld := ⟨0x020, 0, 17, 0x10000, .ro, 0, 131071, false, false⟩
-- Table 5.15
def F.CELL_POOL_CFG_TC3_RSV : Fld := ⟨0x040, 0, 12, 0x400, .rwq, 0, 4095, false, false⟩
-- Table 5.16
def F.CELL_FREE_MIN_CLR : Fld := ⟨0x044, 31, 1, 0, .w1s, 0, 1, false, false⟩
def F.CELL_FREE_MIN_MIN : Fld := ⟨0x044, 0, 17, 0x10000, .ro, 0, 131071, false, false⟩
-- Table 5.17
def F.CELL_PAR_CNT_DATA_CORR : Fld := ⟨0x048, 16, 16, 0, .ro, 0, 65535, false, false⟩
def F.CELL_PAR_CNT_DATA_UNCORR : Fld := ⟨0x048, 8, 8, 0, .ro, 0, 255, false, false⟩
def F.CELL_PAR_CNT_HDR_CORR : Fld := ⟨0x048, 0, 8, 0, .ro, 0, 255, false, false⟩
-- Table 5.18
def F.CELL_GUAR_STS_GUAR_SUM : Fld := ⟨0x04C, 0, 16, 0x1600, .ro, 0, 65535, false, false⟩
-- Table 5.19
def F.CNP_STS_PAIR_DEG : Fld := ⟨0x020, 0, 8, 0, .ro, 0, 255, false, false⟩
-- Table 5.20
def F.CNP_CH_STS_ACT : Fld := ⟨0x024, 0, 32, 0x88888888, .ro, 0, 4294967295, false, false⟩
-- Table 5.21
def F.CNP_SCHED_CFG_AGENT_STARVE : Fld := ⟨0x040, 16, 8, 0x20, .rweSlot, 1, 255, true, true⟩
def F.CNP_SCHED_CFG_LOCAL_STARVE : Fld := ⟨0x040, 8, 8, 0x10, .rweSlot, 1, 255, true, true⟩
def F.CNP_SCHED_CFG_ITER : Fld := ⟨0x040, 0, 2, 3, .ro, 0, 3, false, false⟩
-- Table 5.22
def F.CNP_XFER_CFG_XFER_LIM : Fld := ⟨0x044, 0, 4, 3, .rw, 1, 15, true, true⟩
-- Table 5.23
def F.CNP_XFER_CNT_RETRY : Fld := ⟨0x048, 16, 16, 0, .ro, 0, 65535, false, false⟩
def F.CNP_XFER_CNT_PATH_RETIRED : Fld := ⟨0x048, 8, 8, 0, .ro, 0, 255, false, false⟩
def F.CNP_XFER_CNT_CH_RETIRED : Fld := ⟨0x048, 0, 8, 0, .ro, 0, 255, false, false⟩
-- Table 5.24
def F.CNP_BND_CFG_OUT_MAX : Fld := ⟨0x04C, 16, 9, 0x40, .rwq, 1, 511, true, true⟩
def F.CNP_BND_CFG_GUAR : Fld := ⟨0x04C, 0, 10, 0x200, .rwq, 64, 1023, true, true⟩
-- Table 6.6
def F.BIND_STS_USED : Fld := ⟨0x020, 0, 19, 0, .ro, 0, 524287, false, false⟩
-- Table 6.7
def F.BIND_CFG_HOLD : Fld := ⟨0x040, 0, 20, 0x7d0, .rw, 100, 100000, true, true⟩
-- Table 6.8
def F.BIND_RPL_CNT_CORR : Fld := ⟨0x040, 16, 16, 0, .ro, 0, 65535, false, false⟩
def F.BIND_RPL_CNT_UNCORR : Fld := ⟨0x040, 8, 8, 0, .ro, 0, 255, false, false⟩
-- Table 6.9
def F.BIND_HOLD_CNT_OVF : Fld := ⟨0x044, 16, 16, 0, .ro, 0, 65535, false, false⟩
def F.BIND_HOLD_CNT_USED : Fld := ⟨0x044, 0, 10, 0, .ro, 0, 1023, false, false⟩
-- Table 6.10
def F.ING_BIND_CNT_MISS : Fld := ⟨0x04C, 8, 24, 0, .ro, 0, 16777215, false, false⟩
def F.ING_BIND_CNT_PAR_DROP : Fld := ⟨0x04C, 0, 8, 0, .ro, 0, 255, false, false⟩
-- Table 6.11
def F.PMD_STS_DEC_ERR : Fld := ⟨0x020, 2, 1, 0, .w1c, 0, 1, false, false⟩
def F.PMD_STS_DEC_COMMIT : Fld := ⟨0x020, 1, 1, 0, .ro, 0, 1, false, false⟩
-- Table 6.12
def F.PMD_BASE_LO_BASE : Fld := ⟨0x024, 0, 32, 0, .ro, 0, 4294967295, false, false⟩
def F.PMD_BASE_HI_BASE : Fld := ⟨0x028, 0, 32, 0, .ro, 0, 4294967295, false, false⟩
-- Table 6.13
def F.PMD_CFG_CAP : Fld := ⟨0x040, 0, 26, 0, .rwq, 0, 33554432, true, true⟩
-- Table 6.14
def F.PMD_FAULT_CNT0_NOBIND : Fld := ⟨0x044, 16, 16, 0, .ro, 0, 65535, false, false⟩
def F.PMD_FAULT_CNT0_RIGHTS : Fld := ⟨0x044, 0, 16, 0, .ro, 0, 65535, false, false⟩
-- Table 6.15
def F.PMD_FAULT_CNT1_HOLD : Fld := ⟨0x048, 16, 16, 0, .ro, 0, 65535, false, false⟩
def F.PMD_FAULT_CNT1_TGT_DOWN : Fld := ⟨0x048, 0, 16, 0, .ro, 0, 65535, false, false⟩
-- Table 6.16
def F.PMD_VP_IDX_VP : Fld := ⟨0x04C, 0, 6, 0, .rw, 0, 63, false, false⟩
-- Table 6.17
def F.PMD_VP_STS_BOUND : Fld := ⟨0x050, 31, 1, 0, .ro, 0, 1, false, false⟩
def F.PMD_VP_STS_PRSNT : Fld := ⟨0x050, 30, 1, 0, .ro, 0, 1, false, false⟩
def F.PMD_VP_STS_DLL_ACT : Fld := ⟨0x050, 29, 1, 0, .ro, 0, 1, false, false⟩
def F.PMD_VP_STS_SLOT_PWR : Fld := ⟨0x050, 28, 1, 0, .ro, 0, 1, false, false⟩
def F.PMD_VP_STS_RM_PEND : Fld := ⟨0x050, 27, 1, 0, .ro, 0, 1, false, false⟩
def F.PMD_VP_STS_LEAD : Fld := ⟨0x050, 0, 9, 0, .ro, 0, 511, false, false⟩
-- Table 7.8
def F.WAB_MOD_STS_PWR_DRAIN : Fld := ⟨0x020, 1, 1, 0, .ro, 0, 1, false, false⟩
def F.WAB_MOD_STS_EA_OFF : Fld := ⟨0x020, 0, 1, 0, .ro, 0, 1, false, false⟩
-- Table 7.9
def F.WAB_CFG_TGT_LIM : Fld := ⟨0x040, 16, 12, 0x100, .rw, 16, 4095, true, true⟩
def F.WAB_CFG_ACK_TMO : Fld := ⟨0x040, 0, 16, 0x7d0, .rw, 500, 5000, true, true⟩
-- Table 7.10
def F.WAB_PLR_STS_VALID : Fld := ⟨0x044, 31, 1, 0, .w1c, 0, 1, false, false⟩
def F.WAB_PLR_STS_ENTRIES : Fld := ⟨0x044, 24, 7, 0, .ro, 0, 127, false, false⟩
def F.WAB_PLR_STS_TRUNC : Fld := ⟨0x044, 16, 8, 0, .ro, 0, 255, false, false⟩
-- Table 7.11
def F.WAB_PLR_IDX_IDX : Fld := ⟨0x048, 0, 6, 0, .rw, 0, 63, false, false⟩
-- Table 7.12
def F.WAB_PLR_DATA_PART : Fld := ⟨0x04C, 25, 7, 0, .ro, 0, 127, false, false⟩
def F.WAB_PLR_DATA_BIND : Fld := ⟨0x04C, 7, 18, 0, .ro, 0, 262143, false, false⟩
-- Table 7.13
def F.WAB_PLR_LINES_LINES : Fld := ⟨0x050, 0, 19, 0, .ro, 0, 524287, false, false⟩
-- Table 7.14
def F.WAB_STS_USED : Fld := ⟨0x020, 0, 17, 0, .ro, 0, 131071, false, false⟩
-- Table 7.15
def F.WAB_STRAND_STS_STRANDED : Fld := ⟨0x024, 0, 17, 0, .ro, 0, 131071, false, false⟩
-- Table 7.16
def F.WAB_CNT_FALLBACK : Fld := ⟨0x040, 16, 16, 0, .ro, 0, 65535, false, false⟩
def F.WAB_CNT_REISSUE : Fld := ⟨0x040, 8, 8, 0, .ro, 0, 255, false, false⟩
def F.WAB_CNT_DEV_DRAINS : Fld := ⟨0x040, 0, 8, 0, .ro, 0, 255, false, false⟩
-- Table 7.17
def F.WAB_PAR_CNT_CORR : Fld := ⟨0x044, 16, 16, 0, .ro, 0, 65535, false, false⟩
def F.WAB_PAR_CNT_UNCORR : Fld := ⟨0x044, 8, 8, 0, .ro, 0, 255, false, false⟩
-- Table 7.18
def F.PMD_WAB_CFG_LIMIT : Fld := ⟨0x054, 0, 17, 0x2000, .rw, 0, 65536, false, false⟩
-- Table 7.19
def F.PMD_WAB_STS_WRITE_LOSS : Fld := ⟨0x058, 31, 1, 0, .ro, 0, 1, false, false⟩
def F.PMD_WAB_STS_EA_WITHHELD : Fld := ⟨0x058, 30, 1, 0, .ro, 0, 1, false, false⟩
def F.PMD_WAB_STS_STRANDED : Fld := ⟨0x058, 0, 19, 0, .ro, 0, 524287, false, false⟩
-- Table 8.8
def F.HOME_CFG_SNP_TMO : Fld := ⟨0x040, 0, 20, 0x7d0, .rw, 200, 200000, true, true⟩
-- Table 8.9
def F.HOME_PRED_CFG_THRESH : Fld := ⟨0x044, 8, 3, 4, .rweEpoch, 1, 7, true, true⟩
def F.HOME_PRED_CFG_DECAY : Fld := ⟨0x044, 0, 8, 1, .rweEpoch, 1, 255, true, true⟩
-- Table 8.10
def F.HOME_SG_IDX_GRP : Fld := ⟨0x048, 0, 12, 0, .rw, 0, 4095, false, false⟩
-- Table 8.11
def F.HOME_SG_MEM0_MEM : Fld := ⟨0x04C, 0, 32, 0, .rw, 0, 4294967295, false, false⟩
def F.HOME_SG_MEM1_MEM : Fld := ⟨0x050, 0, 32, 0, .rw, 0, 4294967295, false, false⟩
def F.HOME_SG_MEM2_MEM : Fld := ⟨0x054, 0, 32, 0, .rw, 0, 4294967295, false, false⟩
def F.HOME_SG_MEM3_MEM : Fld := ⟨0x058, 0, 32, 0, .rw, 0, 4294967295, false, false⟩
-- Table 8.12
def F.HOME_SG_FENCED0_FENCED : Fld := ⟨0x05C, 0, 32, 0, .ro, 0, 4294967295, false, false⟩
def F.HOME_SG_FENCED1_FENCED : Fld := ⟨0x060, 0, 32, 0, .ro, 0, 4294967295, false, false⟩
def F.HOME_SG_FENCED2_FENCED : Fld := ⟨0x064, 0, 32, 0, .ro, 0, 4294967295, false, false⟩
def F.HOME_SG_FENCED3_FENCED : Fld := ⟨0x068, 0, 32, 0, .ro, 0, 4294967295, false, false⟩
-- Table 8.13
def F.HOME_NMA_IDX_LEAD : Fld := ⟨0x06C, 0, 9, 0, .rw, 0, 511, false, false⟩
-- Table 8.14
def F.HOME_NMA_LO_BASE_LO : Fld := ⟨0x070, 21, 11, 0, .rwq, 0, 2047, false, false⟩
def F.HOME_NMA_LO_EN : Fld := ⟨0x070, 0, 1, 0, .rwq, 0, 1, false, false⟩
-- Table 8.15
def F.HOME_NMA_HI_BASE_HI : Fld := ⟨0x074, 0, 32, 0, .rwq, 0, 4294967295, false, false⟩
-- Table 8.16
def F.HOME_TSTS_LOQ_USED : Fld := ⟨0x020, 16, 13, 0, .ro, 0, 8191, false, false⟩
def F.HOME_TSTS_INSVC : Fld := ⟨0x020, 0, 9, 0, .ro, 0, 511, false, false⟩
-- Table 8.17
def F.HOME_ALC_STS_VALID : Fld := ⟨0x024, 0, 17, 0, .ro, 0, 131071, false, false⟩
-- Table 8.18
def F.HOME_BC_CNT_BCAST : Fld := ⟨0x040, 0, 32, 0, .ro, 0, 4294967295, false, false⟩
-- Table 8.19
def F.HOME_RACE_CNT_WB_MERGE : Fld := ⟨0x044, 16, 16, 0, .ro, 0, 65535, false, false⟩
def F.HOME_RACE_CNT_CONFLICT : Fld := ⟨0x044, 0, 16, 0, .ro, 0, 65535, false, false⟩
-- Table 8.20
def F.HOME_FENCE_CNT_FENCEOUT : Fld := ⟨0x048, 24, 8, 0, .ro, 0, 255, false, false⟩
def F.HOME_FENCE_CNT_LATE_RSP : Fld := ⟨0x048, 16, 8, 0, .ro, 0, 255, false, false⟩
def F.HOME_FENCE_CNT_POISONED : Fld := ⟨0x048, 0, 16, 0, .ro, 0, 65535, false, false⟩
-- Table 8.21
def F.HOME_ALC_CNT_FILLS : Fld := ⟨0x04C, 16, 16, 0, .ro, 0, 65535, false, false⟩
def F.HOME_ALC_CNT_EVICTS : Fld := ⟨0x04C, 0, 16, 0, .ro, 0, 65535, false, false⟩
-- Table 8.22
def F.HOME_ALC_PAR_CORR : Fld := ⟨0x050, 16, 16, 0, .ro, 0, 65535, false, false⟩
def F.HOME_ALC_PAR_UNCORR : Fld := ⟨0x050, 8, 8, 0, .ro, 0, 255, false, false⟩
def F.HOME_ALC_PAR_PRED_PAR : Fld := ⟨0x050, 0, 8, 0, .ro, 0, 255, false, false⟩
-- Table 8.23
def F.HOME_ATOM_CNT_NEAR : Fld := ⟨0x054, 16, 16, 0, .ro, 0, 65535, false, false⟩
def F.HOME_ATOM_CNT_ALC : Fld := ⟨0x054, 8, 8, 0, .ro, 0, 255, false, false⟩
def F.HOME_ATOM_CNT_NMA_ERR : Fld := ⟨0x054, 0, 8, 0, .ro, 0, 255, false, false⟩
-- Table 8.24
def F.HOME_RESV_STS_RECORDS : Fld := ⟨0x058, 0, 14, 0, .ro, 0, 16383, false, false⟩
-- Table 8.25
def F.HOME_RESV_CNT_CW_OK : Fld := ⟨0x05C, 16, 16, 0, .ro, 0, 65535, false, false⟩
def F.HOME_RESV_CNT_CW_FAIL : Fld := ⟨0x05C, 0, 16, 0, .ro, 0, 65535, false, false⟩
-- Table 8.26
def F.HALO_STS_UP_OK : Fld := ⟨0x020, 1, 1, 1, .ro, 0, 1, false, false⟩
def F.HALO_STS_DN_OK : Fld := ⟨0x020, 0, 1, 1, .ro, 0, 1, false, false⟩
-- Table 8.27
def F.HALO_CFG_LIM : Fld := ⟨0x040, 0, 4, 3, .rw, 1, 15, true, true⟩
-- Table 8.28
def F.HALO_CNT_RETRY : Fld := ⟨0x044, 16, 16, 0, .ro, 0, 65535, false, false⟩
-- Table 9.4
def F.EGR_STS_USED : Fld := ⟨0x020, 0, 17, 0, .ro, 0, 131071, false, false⟩
-- Table 9.5
def F.EGR_CELL_CFG_GUAR : Fld := ⟨0x040, 0, 12, 0x40, .rwq, 0, 4095, false, false⟩
-- Table 9.6
def F.EGR_SMP_DEPTH_TOTAL : Fld := ⟨0x044, 0, 17, 0, .ro, 0, 131071, false, false⟩
-- Table 9.7
def F.EGR_SMP_MAX_MAX_DLY : Fld := ⟨0x048, 2, 15, 0, .ro, 0, 32767, false, false⟩
-- Table 9.8
def F.EGR_SMP_MAXQ_TC : Fld := ⟨0x04C, 7, 2, 0, .ro, 0, 3, false, false⟩
def F.EGR_SMP_MAXQ_PART : Fld := ⟨0x04C, 0, 7, 0, .ro, 0, 127, false, false⟩
-- Table 9.9
def F.SCHED_IDX_LPORT : Fld := ⟨0x040, 9, 6, 0, .rw, 0, 63, false, false⟩
def F.SCHED_IDX_TC : Fld := ⟨0x040, 7, 2, 0, .rw, 0, 3, false, false⟩
def F.SCHED_IDX_PART : Fld := ⟨0x040, 0, 7, 0, .rw, 0, 127, false, false⟩
-- Table 9.10
def F.SCHED_QUANTUM_QUANTUM : Fld := ⟨0x044, 0, 16, 0x400, .rweSlot, 256, 65535, true, true⟩
-- Table 9.11
def F.SCHED_DEFICIT_DEFICIT : Fld := ⟨0x048, 0, 17, 0, .ro, 0, 131071, false, false⟩
-- Table 9.12
def F.SCHED_SHP_RATE_RATE : Fld := ⟨0x04C, 0, 20, 0, .rweSlot, 0, 1048575, false, false⟩
-- Table 9.13
def F.SCHED_SHP_CFG_EN : Fld := ⟨0x050, 31, 1, 0, .rweSlot, 0, 1, false, false⟩
def F.SCHED_SHP_CFG_BURST : Fld := ⟨0x050, 0, 13, 0x1000, .rweSlot, 1, 4096, true, true⟩
-- Table 9.14
def F.SCHED_SHP_TOK_TOKENS : Fld := ⟨0x054, 0, 21, 0, .ro, 0, 2097151, false, false⟩
-- Table 9.15
def F.SCHED_Q_SMP_DEPTH : Fld := ⟨0x058, 15, 17, 0, .ro, 0, 131071, false, false⟩
def F.SCHED_Q_SMP_HEAD_DLY : Fld := ⟨0x058, 0, 15, 0, .ro, 0, 32767, false, false⟩
-- Table 10.10
def F.PART_STS_RST_CAUSE : Fld := ⟨0x020, 8, 4, 0, .ro, 0, 15, false, false⟩
def F.PART_STS_HOST_UP : Fld := ⟨0x020, 7, 1, 0, .ro, 0, 1, false, false⟩
def F.PART_STS_QTMO_HIT : Fld := ⟨0x020, 5, 1, 0, .w1c, 0, 1, false, false⟩
def F.PART_STS_ARMED : Fld := ⟨0x020, 4, 1, 0, .ro, 0, 1, false, false⟩
def F.PART_STS_RESETTING : Fld := ⟨0x020, 3, 1, 0, .ro, 0, 1, false, false⟩
def F.PART_STS_STATE : Fld := ⟨0x020, 0, 2, 2, .ro, 0, 3, false, false⟩
-- Table 10.11
def F.PART_CTL_RESET : Fld := ⟨0x040, 0, 1, 0, .w1s, 0, 1, false, false⟩
-- Table 10.12
def F.PART_CFG_QTMO : Fld := ⟨0x044, 0, 20, 0x186a0, .rw, 1000, 1000000, true, true⟩
-- Table 10.13
def F.PART_ARM_VALID : Fld := ⟨0x048, 8, 1, 0, .ro, 0, 1, false, false⟩
def F.PART_ARM_IDX : Fld := ⟨0x048, 0, 8, 0, .ro, 0, 255, false, false⟩
-- Table 10.14
def F.PART_RST_CNT_MGR : Fld := ⟨0x04C, 24, 8, 0, .ro, 0, 255, false, false⟩
def F.PART_RST_CNT_HOT : Fld := ⟨0x04C, 16, 8, 0, .ro, 0, 255, false, false⟩
def F.PART_RST_CNT_LOST : Fld := ⟨0x04C, 8, 8, 0, .ro, 0, 255, false, false⟩
-- Table 10.15
def F.PART_HELD_HELD : Fld := ⟨0x050, 0, 13, 0, .ro, 0, 8191, false, false⟩
-- Table 11.9
def F.MQ_Q_STS_DMA_ERR : Fld := ⟨0x020, 31, 1, 0, .ro, 0, 1, false, false⟩
def F.MQ_Q_STS_DB_ERR : Fld := ⟨0x020, 30, 1, 0, .w1c, 0, 1, false, false⟩
def F.MQ_Q_STS_CQ_PAUSED : Fld := ⟨0x020, 29, 1, 0, .ro, 0, 1, false, false⟩
def F.MQ_Q_STS_HELD : Fld := ⟨0x020, 20, 9, 0, .ro, 0, 511, false, false⟩
def F.MQ_Q_STS_INFLIGHT : Fld := ⟨0x020, 15, 5, 0, .ro, 0, 31, false, false⟩
def F.MQ_Q_STS_CACHED : Fld := ⟨0x020, 0, 4, 0, .ro, 0, 15, false, false⟩
-- Table 11.10
def F.MQ_Q_SQ_TAIL : Fld := ⟨0x024, 16, 13, 0, .ro, 0, 8191, false, false⟩
def F.MQ_Q_SQ_HEAD : Fld := ⟨0x024, 0, 13, 0, .ro, 0, 8191, false, false⟩
-- Table 11.11
def F.MQ_Q_CQ_TAIL : Fld := ⟨0x028, 16, 13, 0, .ro, 0, 8191, false, false⟩
def F.MQ_Q_CQ_HEAD : Fld := ⟨0x028, 0, 13, 0, .ro, 0, 8191, false, false⟩
-- Table 11.12
def F.MQ_QSEQ_CMD_EXP : Fld := ⟨0x02C, 16, 16, 0, .ro, 0, 65535, false, false⟩
def F.MQ_QSEQ_CPL_LAST : Fld := ⟨0x02C, 0, 16, 0, .ro, 0, 65535, false, false⟩
-- Table 11.13
def F.MQ_Q_SQB_LO_BASE_LO : Fld := ⟨0x040, 6, 26, 0, .rwq, 0, 67108863, false, false⟩
def F.MQ_Q_SQB_HI_BASE_HI : Fld := ⟨0x044, 0, 32, 0, .rwq, 0, 4294967295, false, false⟩
def F.MQ_Q_CQB_LO_BASE_LO : Fld := ⟨0x048, 6, 26, 0, .rwq, 0, 67108863, false, false⟩
def F.MQ_Q_CQB_HI_BASE_HI : Fld := ⟨0x04C, 0, 32, 0, .rwq, 0, 4294967295, false, false⟩
-- Table 11.14
def F.MQ_Q_CFG_SEQ_CHK : Fld := ⟨0x050, 25, 1, 1, .rwq, 0, 1, false, false⟩
def F.MQ_Q_CFG_SCOPE_MOD : Fld := ⟨0x050, 24, 1, 0, .rwq, 0, 1, false, false⟩
def F.MQ_Q_CFG_CQ_LOG2 : Fld := ⟨0x050, 16, 4, 4, .rwq, 0, 15, false, false⟩
def F.MQ_Q_CFG_SQ_LOG2 : Fld := ⟨0x050, 8, 4, 4, .rwq, 0, 15, false, false⟩
-- Table 11.15
def F.MQ_Q_VEC_INT_EN : Fld := ⟨0x054, 31, 1, 0, .rwq, 0, 1, false, false⟩
def F.MQ_Q_VEC_VEC : Fld := ⟨0x054, 0, 11, 0, .rwq, 0, 2047, false, false⟩
-- Table 11.16
def F.MQ_Q_ARB_BURST : Fld := ⟨0x058, 8, 6, 7, .rw, 0, 63, false, false⟩
def F.MQ_Q_ARB_WEIGHT : Fld := ⟨0x058, 0, 8, 0x10, .rw, 1, 255, true, true⟩
-- Table 11.17
def F.MQ_Q_SCOPE0_PARTS : Fld := ⟨0x05C, 0, 32, 0, .rwq, 0, 4294967295, false, false⟩
def F.MQ_Q_SCOPE1_PARTS : Fld := ⟨0x060, 0, 32, 0, .rwq, 0, 4294967295, false, false⟩
def F.MQ_Q_SCOPE2_PARTS : Fld := ⟨0x064, 0, 32, 0, .rwq, 0, 4294967295, false, false⟩
def F.MQ_Q_SCOPE3_PARTS : Fld := ⟨0x068, 0, 32, 0, .rwq, 0, 4294967295, false, false⟩
-- Table 11.18
def F.MQ_EVQ_STS_DB_ERR : Fld := ⟨0x020, 16, 1, 0, .w1c, 0, 1, false, false⟩
def F.MQ_EVQ_STS_COUNT : Fld := ⟨0x020, 0, 16, 0, .ro, 0, 65535, false, false⟩
-- Table 11.19
def F.MQ_EVQ_NEXT_SEQ : Fld := ⟨0x024, 0, 32, 0, .ro, 0, 4294967295, false, false⟩
def F.MQ_EVQ_HEAD_SEQ : Fld := ⟨0x028, 0, 32, 0, .ro, 0, 4294967295, false, false⟩
-- Table 11.20
def F.MQ_EVQ_CFG_INT_FIRST : Fld := ⟨0x040, 31, 1, 1, .rw, 0, 1, false, false⟩
def F.MQ_EVQ_CFG_FAILOVER : Fld := ⟨0x040, 30, 1, 1, .rw, 0, 1, false, false⟩
def F.MQ_EVQ_CFG_EP : Fld := ⟨0x040, 29, 1, 0, .rw, 0, 1, false, false⟩
def F.MQ_EVQ_CFG_CAP : Fld := ⟨0x040, 0, 16, 0xe0, .rw, 1, 32768, true, false⟩
-- Table 11.21
def F.MQ_EVQ_VEC_INT_EN : Fld := ⟨0x044, 31, 1, 0, .rw, 0, 1, false, false⟩
def F.MQ_EVQ_VEC_VEC : Fld := ⟨0x044, 0, 11, 0, .rw, 0, 2047, false, false⟩
-- Table 11.22
def F.MQ_EVQ_TMO_TMO : Fld := ⟨0x048, 0, 16, 0x3e8, .rw, 0, 65535, false, false⟩
-- Table 11.23
def F.MQ_EVQ_LOST_EVQ_LOST : Fld := ⟨0x04C, 0, 32, 0, .ro, 0, 4294967295, false, false⟩
-- Table 12.12
def F.ERR_PART0_PARTS : Fld := ⟨0x030, 0, 32, 0, .ro, 0, 4294967295, false, false⟩
def F.ERR_PART1_PARTS : Fld := ⟨0x034, 0, 32, 0, .ro, 0, 4294967295, false, false⟩
def F.ERR_PART2_PARTS : Fld := ⟨0x038, 0, 32, 0, .ro, 0, 4294967295, false, false⟩
def F.ERR_PART3_PARTS : Fld := ⟨0x03C, 0, 32, 0, .ro, 0, 4294967295, false, false⟩
-- Table 12.13
def F.FLT_STS_MODE : Fld := ⟨0x020, 5, 3, 0, .ro, 0, 7, false, false⟩
def F.FLT_STS_DEG_COND : Fld := ⟨0x020, 4, 1, 0, .ro, 0, 1, false, false⟩
def F.FLT_STS_WIRE_ANY : Fld := ⟨0x020, 3, 1, 0, .ro, 0, 1, false, false⟩
def F.FLT_STS_FATAL : Fld := ⟨0x020, 2, 1, 0, .ro, 0, 1, false, false⟩
-- Table 12.14
def F.FLT_SUM0_SUM : Fld := ⟨0x024, 0, 32, 0, .ro, 0, 4294967295, false, false⟩
def F.FLT_SUM1_SUM : Fld := ⟨0x028, 0, 32, 0, .ro, 0, 4294967295, false, false⟩
def F.FLT_SUM2_SUM : Fld := ⟨0x02C, 0, 32, 0, .ro, 0, 4294967295, false, false⟩
-- Table 12.15
def F.FLT_CFG_FATAL_INJ : Fld := ⟨0x040, 1, 1, 0, .rw, 0, 1, false, false⟩
def F.FLT_CFG_AUTOCLR : Fld := ⟨0x040, 0, 1, 1, .rw, 0, 1, false, false⟩
-- Table 12.16
def F.FLT_SRC_IDX_SRC : Fld := ⟨0x044, 0, 12, 0, .rw, 0, 4095, false, false⟩
-- Table 12.17
def F.FLT_SRC_STICKY : Fld := ⟨0x048, 31, 1, 0, .w1c, 0, 1, false, false⟩
def F.FLT_SRC_OPEN : Fld := ⟨0x048, 30, 1, 0, .ro, 0, 1, false, false⟩
def F.FLT_SRC_PAIR : Fld := ⟨0x048, 28, 2, 0, .ro, 0, 3, false, false⟩
def F.FLT_SRC_ALLOWED : Fld := ⟨0x048, 8, 5, 0, .ro, 0, 31, false, false⟩
def F.FLT_SRC_REACT : Fld := ⟨0x048, 0, 3, 0, .rws, 0, 7, false, false⟩
-- Table 12.18
def F.FLT_SRC_CNT_CNT : Fld := ⟨0x04C, 0, 32, 0, .ro, 0, 4294967295, false, false⟩
-- Table 12.19
def F.FLT_STK_IDX_WORD : Fld := ⟨0x050, 0, 7, 0, .rw, 0, 79, false, false⟩
-- Table 12.20
def F.FLT_STK_DATA_STICKY : Fld := ⟨0x054, 0, 32, 0, .w1c, 0, 4294967295, false, false⟩
-- Table 12.21
def F.FLT_WDOG_CORE_TMO : Fld := ⟨0x058, 0, 20, 0xc350, .rw, 10000, 500000, true, true⟩
-- Table 12.22
def F.FLT_WDOG_MOD_TMO : Fld := ⟨0x05C, 0, 20, 0x40000, .rw, 100000, 1048575, true, true⟩
-- Table 12.23
def F.FLT_WDOG_FEED_CORE : Fld := ⟨0x060, 0, 1, 0, .wo, 0, 1, false, false⟩
-- Table 12.24
def F.FLT_MC_STS_TAKEOVERS : Fld := ⟨0x064, 16, 16, 0, .ro, 0, 65535, false, false⟩
def F.FLT_MC_STS_MC1_OK : Fld := ⟨0x064, 2, 1, 0, .ro, 0, 1, false, false⟩
def F.FLT_MC_STS_MC0_OK : Fld := ⟨0x064, 1, 1, 0, .ro, 0, 1, false, false⟩
def F.FLT_MC_STS_ACTIVE : Fld := ⟨0x064, 0, 1, 0, .ro, 0, 1, false, false⟩
-- Table 12.25
def F.FLT_DSEG_CFG_EN : Fld := ⟨0x068, 31, 1, 0, .rw, 0, 1, false, false⟩
def F.FLT_DSEG_CFG_LEAD : Fld := ⟨0x068, 16, 9, 0, .rw, 0, 511, false, false⟩
def F.FLT_DSEG_CFG_LD : Fld := ⟨0x068, 8, 4, 0, .rw, 0, 15, false, false⟩
def F.FLT_DSEG_CFG_SIZE : Fld := ⟨0x068, 0, 5, 0, .rw, 0, 19, true, true⟩
-- Table 12.26
def F.FLT_DSEG_DPA_LO_DPA_LO : Fld := ⟨0x06C, 21, 11, 0, .rw, 0, 2047, false, false⟩
def F.FLT_DSEG_DPA_HI_DPA_HI : Fld := ⟨0x070, 0, 20, 0, .rw, 0, 1048575, false, false⟩
-- Table 12.27
def F.FLT_DUMP_SEQ_LAST : Fld := ⟨0x074, 0, 32, 0, .ro, 0, 4294967295, false, false⟩
-- Table 12.28
def F.FLT_DUMP_STS_DEST : Fld := ⟨0x078, 6, 2, 0, .rws, 0, 3, false, false⟩
def F.FLT_DUMP_STS_TRUNC : Fld := ⟨0x078, 5, 1, 0, .rws, 0, 1, false, false⟩
def F.FLT_DUMP_STS_BUSY : Fld := ⟨0x078, 4, 1, 0, .ro, 0, 1, false, false⟩
def F.FLT_DUMP_STS_DONE : Fld := ⟨0x078, 3, 1, 0, .w1c, 0, 1, false, false⟩
-- Table 12.29
def F.FLT_FW_STS_STEP : Fld := ⟨0x07C, 4, 4, 0, .ro, 0, 15, false, false⟩
def F.FLT_FW_STS_LAST : Fld := ⟨0x07C, 1, 3, 0, .ro, 0, 7, false, false⟩
def F.FLT_FW_STS_STAGED : Fld := ⟨0x07C, 0, 1, 0, .ro, 0, 1, false, false⟩
-- Table 13.8
def F.CTR_BANK_CTL_CLR : Fld := ⟨0x800, 31, 1, 0, .w1s, 0, 1, false, false⟩
def F.CTR_BANK_CTL_IGNORED : Fld := ⟨0x800, 0, 8, 0, .ro, 0, 255, false, false⟩
-- Table 13.9
def F.CTR_FILT0_OC_MASK : Fld := ⟨0x804, 24, 8, 0xff, .rweEpoch, 0, 255, false, false⟩
def F.CTR_FILT0_TC_MASK : Fld := ⟨0x804, 20, 4, 0xf, .rweEpoch, 0, 15, false, false⟩
def F.CTR_FILT0_PRIV_MASK : Fld := ⟨0x804, 17, 3, 7, .rweEpoch, 0, 7, false, false⟩
def F.CTR_FILT0_PART_EN : Fld := ⟨0x804, 16, 1, 0, .rweEpoch, 0, 1, false, false⟩
def F.CTR_FILT0_PART : Fld := ⟨0x804, 9, 7, 0, .rweEpoch, 0, 127, false, false⟩
def F.CTR_FILT0_PORT : Fld := ⟨0x804, 0, 9, 0, .rweEpoch, 0, 511, false, false⟩
-- Table 13.10
def F.CTR_FILT1_ADDR_EN : Fld := ⟨0x808, 31, 1, 0, .rweEpoch, 0, 1, false, false⟩
def F.CTR_FILT1_ADDR_BASE : Fld := ⟨0x808, 0, 25, 0, .rweEpoch, 0, 33554431, false, false⟩
def F.CTR_FILT2_PORT_EN : Fld := ⟨0x80C, 31, 1, 0, .rweEpoch, 0, 1, false, false⟩
def F.CTR_FILT2_ADDR_LIM : Fld := ⟨0x80C, 0, 25, 0x1ffffff, .rweEpoch, 0, 33554431, false, false⟩
-- Table 13.11
def F.CTR_SEL0_SEL3 : Fld := ⟨0x810, 24, 8, 0, .rweEpoch, 0, 255, false, false⟩
def F.CTR_SEL0_SEL2 : Fld := ⟨0x810, 16, 8, 0, .rweEpoch, 0, 255, false, false⟩
def F.CTR_SEL0_SEL1 : Fld := ⟨0x810, 8, 8, 0, .rweEpoch, 0, 255, false, false⟩
def F.CTR_SEL0_SEL0 : Fld := ⟨0x810, 0, 8, 0, .rweEpoch, 0, 255, false, false⟩
def F.CTR_SEL1_SEL7 : Fld := ⟨0x814, 24, 8, 0, .rweEpoch, 0, 255, false, false⟩
def F.CTR_SEL1_SEL6 : Fld := ⟨0x814, 16, 8, 0, .rweEpoch, 0, 255, false, false⟩
def F.CTR_SEL1_SEL5 : Fld := ⟨0x814, 8, 8, 0, .rweEpoch, 0, 255, false, false⟩
def F.CTR_SEL1_SEL4 : Fld := ⟨0x814, 0, 8, 0, .rweEpoch, 0, 255, false, false⟩
-- Table 13.13
def F.TEL_STS_SKY_DMA : Fld := ⟨0x020, 2, 1, 0, .w1c, 0, 1, false, false⟩
def F.TEL_STS_SNAP_DMA : Fld := ⟨0x020, 1, 1, 0, .w1c, 0, 1, false, false⟩
def F.TEL_STS_COLLECTING : Fld := ⟨0x020, 0, 1, 0, .ro, 0, 1, false, false⟩
-- Table 13.14
def F.TEL_SNAP_STS_LAST : Fld := ⟨0x024, 0, 32, 0xffffffff, .ro, 0, 4294967295, false, false⟩
-- Table 13.15
def F.TEL_SNAP_CFG_EN : Fld := ⟨0x040, 31, 1, 0, .rweEpoch, 0, 1, false, false⟩
def F.TEL_SNAP_CFG_EP : Fld := ⟨0x040, 30, 1, 0, .rweEpoch, 0, 1, false, false⟩
def F.TEL_SNAP_CFG_LOG2 : Fld := ⟨0x040, 0, 4, 0, .rweEpoch, 0, 8, true, true⟩
-- Table 13.16
def F.TEL_SNAP_BASE_LO_BASE_LO : Fld := ⟨0x044, 12, 20, 0, .rweEpoch, 0, 1048575, false, false⟩
def F.TEL_SNAP_BASE_HI_BASE_HI : Fld := ⟨0x048, 0, 32, 0, .rweEpoch, 0, 4294967295, false, false⟩
def F.TEL_SKY_BASE_LO_BASE_LO : Fld := ⟨0x054, 12, 20, 0, .rweSlot, 0, 1048575, false, false⟩
def F.TEL_SKY_BASE_HI_BASE_HI : Fld := ⟨0x058, 0, 32, 0, .rweSlot, 0, 4294967295, false, false⟩
-- Table 13.17
def F.TEL_SNAP_SKIP_SKIPPED : Fld := ⟨0x04C, 0, 32, 0, .ro, 0, 4294967295, false, false⟩
-- Table 13.18
def F.TEL_TAG_CFG_EN : Fld := ⟨0x050, 31, 1, 0, .rweSlot, 0, 1, false, false⟩
def F.TEL_TAG_CFG_N : Fld := ⟨0x050, 24, 5, 0x10, .rweSlot, 8, 24, true, true⟩
def F.TEL_TAG_CFG_SEED : Fld := ⟨0x050, 0, 24, 1, .rweSlot, 1, 16777215, true, true⟩
-- Table 13.19
def F.TEL_SKY_CFG_EN : Fld := ⟨0x05C, 31, 1, 0, .rweSlot, 0, 1, false, false⟩
def F.TEL_SKY_CFG_EP : Fld := ⟨0x05C, 30, 1, 0, .rweSlot, 0, 1, false, false⟩
def F.TEL_SKY_CFG_MIR_EN : Fld := ⟨0x05C, 29, 1, 0, .rweSlot, 0, 1, false, false⟩
def F.TEL_SKY_CFG_POINT : Fld := ⟨0x05C, 28, 1, 0, .rweSlot, 0, 1, false, false⟩
def F.TEL_SKY_CFG_LOG2 : Fld := ⟨0x05C, 24, 4, 0xc, .rweSlot, 6, 20, true, true⟩
def F.TEL_SKY_CFG_MAX : Fld := ⟨0x05C, 0, 16, 0x40, .rweSlot, 1, 65535, true, true⟩
-- Table 13.20
def F.TEL_SKY_HEAD_IDX : Fld := ⟨0x060, 0, 21, 0, .rw, 0, 2097151, false, false⟩
def F.TEL_SKY_TAIL_IDX : Fld := ⟨0x064, 0, 21, 0, .ro, 0, 2097151, false, false⟩
-- Table 13.21
def F.TEL_SKY_FILT0_FILT : Fld := ⟨0x068, 0, 32, 0xfffe0000, .rweSlot, 0, 4294967295, false, false⟩
def F.TEL_SKY_FILT1_FILT : Fld := ⟨0x06C, 0, 32, 0, .rweSlot, 0, 4294967295, false, false⟩
def F.TEL_SKY_FILT2_FILT : Fld := ⟨0x070, 0, 32, 0x1ffffff, .rweSlot, 0, 4294967295, false, false⟩
-- Table 13.22
def F.TEL_SKY_DROP_FULL : Fld := ⟨0x074, 16, 16, 0, .ro, 0, 65535, false, false⟩
def F.TEL_SKY_DROP_RATE : Fld := ⟨0x074, 0, 16, 0, .ro, 0, 65535, false, false⟩
-- Table 14.4
def F.GLR_STS_BREAKS : Fld := ⟨0x020, 16, 4, 0, .ro, 0, 15, false, false⟩
def F.GLR_STS_MEMBERS : Fld := ⟨0x020, 8, 6, 0, .ro, 0, 63, false, false⟩
def F.GLR_STS_MEMB_CHG : Fld := ⟨0x020, 6, 1, 0, .w1c, 0, 1, false, false⟩
def F.GLR_STS_YIELD : Fld := ⟨0x020, 5, 1, 0, .ro, 0, 1, false, false⟩
def F.GLR_STS_MASTER_ACT : Fld := ⟨0x020, 4, 1, 0, .ro, 0, 1, false, false⟩
def F.GLR_STS_BYPASS : Fld := ⟨0x020, 3, 1, 1, .ro, 0, 1, false, false⟩
def F.GLR_STS_STATE : Fld := ⟨0x020, 0, 2, 3, .ro, 0, 3, false, false⟩
-- Table 14.5
def F.GLR_PORT_STS_OUT_NBR : Fld := ⟨0x024, 16, 8, 0xff, .ro, 0, 255, false, false⟩
def F.GLR_PORT_STS_IN_NBR : Fld := ⟨0x024, 8, 8, 0xff, .ro, 0, 255, false, false⟩
def F.GLR_PORT_STS_OUT_DLY_OK : Fld := ⟨0x024, 5, 1, 0, .ro, 0, 1, false, false⟩
def F.GLR_PORT_STS_IN_DLY_OK : Fld := ⟨0x024, 4, 1, 0, .ro, 0, 1, false, false⟩
def F.GLR_PORT_STS_OUT_STATE : Fld := ⟨0x024, 2, 2, 0, .ro, 0, 3, false, false⟩
def F.GLR_PORT_STS_IN_STATE : Fld := ⟨0x024, 0, 2, 0, .ro, 0, 3, false, false⟩
-- Table 14.6
def F.GLR_CFG_HB_MISS : Fld := ⟨0x040, 4, 4, 3, .rw, 2, 15, true, true⟩
def F.GLR_CFG_RST_RX_EN : Fld := ⟨0x040, 1, 1, 0, .rw, 0, 1, false, false⟩
def F.GLR_CFG_TMASTER : Fld := ⟨0x040, 0, 1, 0, .rwq, 0, 1, false, false⟩
-- Table 14.7
def F.GLR_CTL_BYP_REQ : Fld := ⟨0x044, 0, 1, 0, .rw, 0, 1, false, false⟩
-- Table 14.8
def F.GLR_LOCK_TMO_TMO : Fld := ⟨0x048, 0, 24, 0x186a0, .rw, 1000, 10000000, true, true⟩
-- Table 14.9
def F.GLR_SEQ_CFG_ACK_TMO : Fld := ⟨0x04C, 16, 12, 0xc8, .rw, 20, 1000, true, true⟩
def F.GLR_SEQ_CFG_RPL_TMO : Fld := ⟨0x04C, 0, 16, 0x7d0, .rw, 500, 50000, true, true⟩
-- Table 14.10
def F.GLR_DLY_IN_VALID : Fld := ⟨0x050, 31, 1, 0, .ro, 0, 1, false, false⟩
def F.GLR_DLY_IN_DELAY : Fld := ⟨0x050, 0, 24, 0, .ro, 0, 16777215, false, false⟩
def F.GLR_DLY_OUT_VALID : Fld := ⟨0x054, 31, 1, 0, .ro, 0, 1, false, false⟩
def F.GLR_DLY_OUT_DELAY : Fld := ⟨0x054, 0, 24, 0, .ro, 0, 16777215, false, false⟩
-- Table 14.11
def F.GLR_MEM_IDX_SLOT : Fld := ⟨0x058, 0, 5, 0, .rw, 0, 31, false, false⟩
-- Table 14.12
def F.GLR_MEM_DATA_VALID : Fld := ⟨0x05C, 31, 1, 0, .ro, 0, 1, false, false⟩
def F.GLR_MEM_DATA_MODID : Fld := ⟨0x05C, 23, 8, 0, .ro, 0, 255, false, false⟩
def F.GLR_MEM_DATA_MODE : Fld := ⟨0x05C, 20, 3, 0, .ro, 0, 7, false, false⟩
def F.GLR_MEM_DATA_FTM : Fld := ⟨0x05C, 18, 2, 0, .ro, 0, 3, false, false⟩
def F.GLR_MEM_DATA_EMBER : Fld := ⟨0x05C, 17, 1, 0, .ro, 0, 1, false, false⟩
def F.GLR_MEM_DATA_IN_UP : Fld := ⟨0x05C, 16, 1, 0, .ro, 0, 1, false, false⟩
def F.GLR_MEM_DATA_OUT_UP : Fld := ⟨0x05C, 15, 1, 0, .ro, 0, 1, false, false⟩
def F.GLR_MEM_DATA_TMASTER : Fld := ⟨0x05C, 14, 1, 0, .ro, 0, 1, false, false⟩
def F.GLR_MEM_DATA_AGE : Fld := ⟨0x05C, 10, 4, 0, .ro, 0, 15, false, false⟩
def F.GLR_MEM_DATA_SELF : Fld := ⟨0x05C, 9, 1, 0, .ro, 0, 1, false, false⟩
-- Table 14.13
def F.GLR_CNT_CRC_ERR : Fld := ⟨0x060, 24, 8, 0, .ro, 0, 255, false, false⟩
def F.GLR_CNT_FWD_DISC : Fld := ⟨0x060, 16, 8, 0, .ro, 0, 255, false, false⟩
def F.GLR_CNT_MEM_OVF : Fld := ⟨0x060, 8, 8, 0, .ro, 0, 255, false, false⟩
def F.GLR_CNT_LOCK_LOSS : Fld := ⟨0x060, 0, 8, 0, .ro, 0, 255, false, false⟩
-- Table 14.14
def F.GLR_RPL_CNT_REPLAYS : Fld := ⟨0x064, 16, 16, 0, .ro, 0, 65535, false, false⟩
def F.GLR_RPL_CNT_UNREACH : Fld := ⟨0x064, 0, 16, 0, .ro, 0, 65535, false, false⟩
-- Table 14.15
def F.GLR_RST_IDX_SLOT : Fld := ⟨0x068, 0, 3, 0, .rw, 0, 7, false, false⟩
-- Table 14.16
def F.GLR_RST_REQ_GO : Fld := ⟨0x06C, 31, 1, 0, .w1s, 0, 1, false, false⟩
def F.GLR_RST_REQ_CANCEL : Fld := ⟨0x06C, 30, 1, 0, .w1s, 0, 1, false, false⟩
def F.GLR_RST_REQ_DST : Fld := ⟨0x06C, 16, 8, 0, .rw, 0, 255, false, false⟩
def F.GLR_RST_REQ_PART : Fld := ⟨0x06C, 0, 7, 0, .rw, 0, 127, false, false⟩
-- Table 14.17
def F.GLR_RST_T_LO_T : Fld := ⟨0x070, 0, 32, 0, .rw, 0, 4294967295, false, false⟩
def F.GLR_RST_T_HI_T : Fld := ⟨0x074, 0, 32, 0, .rw, 0, 4294967295, false, false⟩
-- Table 14.18
def F.GLR_RST_RES_STATE : Fld := ⟨0x078, 28, 4, 0, .ro, 0, 15, false, false⟩
def F.GLR_RST_RES_STATUS : Fld := ⟨0x078, 16, 8, 0, .ro, 0, 255, false, false⟩
def F.GLR_RST_RES_SIDX : Fld := ⟨0x078, 0, 8, 0, .ro, 0, 255, false, false⟩
-- Table 15.12
def F.PWR_STS_PG_INT : Fld := ⟨0x020, 15, 1, 0, .ro, 0, 1, false, false⟩
def F.PWR_STS_PWRWARN : Fld := ⟨0x020, 14, 1, 0, .ro, 0, 1, false, false⟩
def F.PWR_STS_HOLDUP_FULL : Fld := ⟨0x020, 13, 1, 0, .ro, 0, 1, false, false⟩
def F.PWR_STS_MEAS_FB : Fld := ⟨0x020, 12, 1, 0, .ro, 0, 1, false, false⟩
def F.PWR_STS_BRK_MODE : Fld := ⟨0x020, 10, 2, 0, .ro, 0, 3, false, false⟩
def F.PWR_STS_RETRY : Fld := ⟨0x020, 8, 2, 0, .ro, 0, 3, false, false⟩
def F.PWR_STS_LATCHED : Fld := ⟨0x020, 7, 1, 0, .ro, 0, 1, false, false⟩
def F.PWR_STS_OV : Fld := ⟨0x020, 6, 1, 0, .ro, 0, 1, false, false⟩
def F.PWR_STS_PATH : Fld := ⟨0x020, 0, 3, 0, .ro, 0, 7, false, false⟩
-- Table 15.13
def F.PWR_TRIP_STS_TRIPS : Fld := ⟨0x024, 24, 8, 0, .ro, 0, 255, false, false⟩
def F.PWR_TRIP_STS_POINT : Fld := ⟨0x024, 4, 3, 0, .ro, 0, 7, false, false⟩
def F.PWR_TRIP_STS_CAUSE : Fld := ⟨0x024, 0, 4, 0, .ro, 0, 15, false, false⟩
-- Table 15.14
def F.PWR_WARN_CFG_WARN : Fld := ⟨0x040, 0, 9, 0x56, .rw, 80, 340, true, true⟩
-- Table 15.15
def F.PWR_CURVE0_EN : Fld := ⟨0x044, 31, 1, 1, .rw, 0, 1, false, false⟩
def F.PWR_CURVE0_I_TRIP : Fld := ⟨0x044, 16, 10, 0x208, .rw, 0, 1023, false, false⟩
def F.PWR_CURVE0_T_EXP : Fld := ⟨0x044, 8, 4, 0xa, .rw, 0, 15, false, false⟩
def F.PWR_CURVE0_T_MAN : Fld := ⟨0x044, 0, 8, 0x64, .rw, 1, 255, false, false⟩
def F.PWR_CURVE1_EN : Fld := ⟨0x048, 31, 1, 1, .rw, 0, 1, false, false⟩
def F.PWR_CURVE1_I_TRIP : Fld := ⟨0x048, 16, 10, 0x230, .rw, 0, 1023, false, false⟩
def F.PWR_CURVE1_T_EXP : Fld := ⟨0x048, 8, 4, 7, .rw, 0, 15, false, false⟩
def F.PWR_CURVE1_T_MAN : Fld := ⟨0x048, 0, 8, 0xa0, .rw, 1, 255, false, false⟩
def F.PWR_CURVE2_EN : Fld := ⟨0x04C, 31, 1, 1, .rw, 0, 1, false, false⟩
def F.PWR_CURVE2_I_TRIP : Fld := ⟨0x04C, 16, 10, 0x258, .rw, 0, 1023, false, false⟩
def F.PWR_CURVE2_T_EXP : Fld := ⟨0x04C, 8, 4, 5, .rw, 0, 15, false, false⟩
def F.PWR_CURVE2_T_MAN : Fld := ⟨0x04C, 0, 8, 0xa0, .rw, 1, 255, false, false⟩
def F.PWR_CURVE3_EN : Fld := ⟨0x050, 31, 1, 1, .rw, 0, 1, false, false⟩
def F.PWR_CURVE3_I_TRIP : Fld := ⟨0x050, 16, 10, 0x294, .rw, 0, 1023, false, false⟩
def F.PWR_CURVE3_T_EXP : Fld := ⟨0x050, 8, 4, 2, .rw, 0, 15, false, false⟩
def F.PWR_CURVE3_T_MAN : Fld := ⟨0x050, 0, 8, 0xfa, .rw, 1, 255, false, false⟩
def F.PWR_CURVE4_EN : Fld := ⟨0x054, 31, 1, 1, .rw, 0, 1, false, false⟩
def F.PWR_CURVE4_I_TRIP : Fld := ⟨0x054, 16, 10, 0x2d0, .rw, 0, 1023, false, false⟩
def F.PWR_CURVE4_T_EXP : Fld := ⟨0x054, 8, 4, 0, .rw, 0, 15, false, false⟩
def F.PWR_CURVE4_T_MAN : Fld := ⟨0x054, 0, 8, 0xc8, .rw, 1, 255, false, false⟩
def F.PWR_CURVE5_EN : Fld := ⟨0x058, 31, 1, 1, .rw, 0, 1, false, false⟩
def F.PWR_CURVE5_I_TRIP : Fld := ⟨0x058, 16, 10, 0x320, .rw, 0, 1023, false, false⟩
def F.PWR_CURVE5_T_EXP : Fld := ⟨0x058, 8, 4, 0, .rw, 0, 15, false, false⟩
def F.PWR_CURVE5_T_MAN : Fld := ⟨0x058, 0, 8, 0x32, .rw, 1, 255, false, false⟩
def F.PWR_CURVE6_EN : Fld := ⟨0x05C, 31, 1, 1, .rw, 0, 1, false, false⟩
def F.PWR_CURVE6_I_TRIP : Fld := ⟨0x05C, 16, 10, 0x370, .rw, 0, 1023, false, false⟩
def F.PWR_CURVE6_T_EXP : Fld := ⟨0x05C, 8, 4, 0, .rw, 0, 15, false, false⟩
def F.PWR_CURVE6_T_MAN : Fld := ⟨0x05C, 0, 8, 0xa, .rw, 1, 255, false, false⟩
def F.PWR_CURVE7_EN : Fld := ⟨0x060, 31, 1, 1, .rw, 0, 1, false, false⟩
def F.PWR_CURVE7_I_TRIP : Fld := ⟨0x060, 16, 10, 0x3c0, .rw, 0, 1023, false, false⟩
def F.PWR_CURVE7_T_EXP : Fld := ⟨0x060, 8, 4, 0, .rw, 0, 15, false, false⟩
def F.PWR_CURVE7_T_MAN : Fld := ⟨0x060, 0, 8, 2, .rw, 1, 255, false, false⟩
-- Table 15.16
def F.PWR_CURVE_CTL_COMMIT : Fld := ⟨0x064, 31, 1, 0, .w1s, 0, 1, false, false⟩
def F.PWR_CURVE_CTL_CURVE_ERR : Fld := ⟨0x064, 30, 1, 0, .w1c, 0, 1, false, false⟩
-- Table 15.17
def F.PWR_BRK_CTL_SELFTEST : Fld := ⟨0x068, 31, 1, 0, .w1s, 0, 1, false, false⟩
def F.PWR_BRK_CTL_ST_FAIL : Fld := ⟨0x068, 30, 1, 0, .ro, 0, 1, false, false⟩
-- Table 15.18
def F.PWR_TOK_CFG_COST : Fld := ⟨0x06C, 8, 8, 8, .rweSlot, 1, 255, true, true⟩
def F.PWR_TOK_CFG_BUDGET : Fld := ⟨0x06C, 0, 8, 0x10, .rweSlot, 0, 255, false, false⟩
-- Table 15.19
def F.PWR_TOK_STS_MAX_WAIT : Fld := ⟨0x070, 16, 16, 0, .ro, 0, 65535, false, false⟩
def F.PWR_TOK_STS_WAITING : Fld := ⟨0x070, 0, 7, 0, .ro, 0, 127, false, false⟩
-- Table 15.20
def F.PWR_SLOT_MEAS_PEAK_I : Fld := ⟨0x074, 22, 10, 0, .ro, 0, 1023, false, false⟩
def F.PWR_SLOT_MEAS_VMIN : Fld := ⟨0x074, 0, 11, 0, .ro, 0, 2047, false, false⟩
-- Table 15.21
def F.PWR_ADC_IV_I : Fld := ⟨0x078, 16, 16, 0, .ro, 0, 65535, false, false⟩
def F.PWR_ADC_IV_V : Fld := ⟨0x078, 0, 16, 0, .ro, 0, 65535, false, false⟩
-- Table 15.22
def F.PWR_ADC_P_P : Fld := ⟨0x07C, 0, 16, 0, .ro, 0, 65535, false, false⟩
-- Table 15.23
def F.PWR_ENERGY_LO_E_LO : Fld := ⟨0x080, 0, 32, 0, .ro, 0, 4294967295, false, false⟩
def F.PWR_ENERGY_HI_E_HI : Fld := ⟨0x084, 0, 16, 0, .ro, 0, 65535, false, false⟩
-- Table 15.24
def F.PWR_HOLDUP_FULL : Fld := ⟨0x088, 31, 1, 0, .ro, 0, 1, false, false⟩
def F.PWR_HOLDUP_VSTORE : Fld := ⟨0x088, 0, 16, 0, .ro, 0, 65535, false, false⟩
-- Table 15.25
def F.PWR_RAIL_IDX_RAIL : Fld := ⟨0x08C, 0, 4, 0, .rw, 0, 15, false, false⟩
-- Table 15.26
def F.PWR_RAIL_STS_IN_REG : Fld := ⟨0x090, 31, 1, 0, .ro, 0, 1, false, false⟩
def F.PWR_RAIL_STS_FAILED : Fld := ⟨0x090, 16, 14, 0, .ro, 0, 16383, false, false⟩
def F.PWR_RAIL_STS_PHASES : Fld := ⟨0x090, 4, 4, 0, .ro, 0, 15, false, false⟩
def F.PWR_RAIL_STS_NEEDED : Fld := ⟨0x090, 0, 4, 0, .ro, 0, 15, false, false⟩
-- Table 15.27
def F.MOD_STS_RST_CAUSE : Fld := ⟨0x020, 12, 4, 0, .ro, 0, 15, false, false⟩
def F.MOD_STS_REFCLK_OK : Fld := ⟨0x020, 11, 1, 0, .ro, 0, 1, false, false⟩
def F.MOD_STS_MODE : Fld := ⟨0x020, 0, 3, 2, .ro, 0, 7, false, false⟩
-- Table 15.28
def F.MOD_RESET_COLD : Fld := ⟨0x040, 31, 1, 0, .w1s, 0, 1, false, false⟩
def F.MOD_RESET_WARM : Fld := ⟨0x040, 30, 1, 0, .w1s, 0, 1, false, false⟩
def F.MOD_RESET_KEY : Fld := ⟨0x040, 8, 8, 0, .wo, 0, 255, false, false⟩
-- Table 15.29
def F.MOD_BOOT_TIME_MS : Fld := ⟨0x044, 0, 16, 0, .ro, 0, 65535, false, false⟩
-- Table 16.5
def F.SEC_BOOT_STS_FAIL1 : Fld := ⟨0x020, 8, 4, 0, .ro, 0, 15, false, false⟩
def F.SEC_BOOT_STS_FAIL0 : Fld := ⟨0x020, 4, 4, 0, .ro, 0, 15, false, false⟩
def F.SEC_BOOT_STS_PREF : Fld := ⟨0x020, 3, 1, 0, .ro, 0, 1, false, false⟩
def F.SEC_BOOT_STS_NONE : Fld := ⟨0x020, 2, 1, 0, .ro, 0, 1, false, false⟩
def F.SEC_BOOT_STS_BOOTED : Fld := ⟨0x020, 0, 1, 0, .ro, 0, 1, false, false⟩
-- Table 16.6
def F.SEC_FLASH_STS_RESULT : Fld := ⟨0x024, 2, 2, 0, .ro, 0, 3, false, false⟩
def F.SEC_FLASH_STS_COPY : Fld := ⟨0x024, 1, 1, 0, .ro, 0, 1, false, false⟩
def F.SEC_FLASH_STS_BUSY : Fld := ⟨0x024, 0, 1, 0, .ro, 0, 1, false, false⟩
-- Table 16.7
def F.SEC_KEY_STS_RUN_SLOT : Fld := ⟨0x040, 8, 2, 0, .ro, 0, 3, false, false⟩
def F.SEC_KEY_STS_STATE : Fld := ⟨0x040, 0, 8, 0, .ro, 0, 255, false, false⟩
-- Table 16.8
def F.SEC_KEY_REVOKE_KEY : Fld := ⟨0x044, 8, 8, 0, .wo, 0, 255, false, false⟩
def F.SEC_KEY_REVOKE_SLOT : Fld := ⟨0x044, 0, 2, 0, .wo, 0, 3, false, false⟩
-- Table 16.9
def F.SEC_SVN_RUN : Fld := ⟨0x048, 8, 8, 0, .ro, 0, 255, false, false⟩
def F.SEC_SVN_MIN : Fld := ⟨0x048, 0, 8, 0, .ro, 0, 255, false, false⟩
-- Table 16.10
def F.SEC_SVN_CTL_COMMIT : Fld := ⟨0x04C, 31, 1, 0, .w1s, 0, 1, false, false⟩
def F.SEC_SVN_CTL_KEY : Fld := ⟨0x04C, 0, 8, 0, .wo, 0, 255, false, false⟩
-- Table 16.11
def F.SEC_SERIAL_LO_SERIAL : Fld := ⟨0x050, 0, 32, 0, .ro, 0, 4294967295, false, false⟩
def F.SEC_SERIAL_HI_SERIAL : Fld := ⟨0x054, 0, 32, 0, .ro, 0, 4294967295, false, false⟩
-- Table 16.12
def F.DBG_STS_DBG_DENY : Fld := ⟨0x020, 7, 1, 0, .w1c, 0, 1, false, false⟩
def F.DBG_STS_DISABLED : Fld := ⟨0x020, 6, 1, 0, .ro, 0, 1, false, false⟩
def F.DBG_STS_SCOPE : Fld := ⟨0x020, 3, 3, 0, .ro, 0, 7, false, false⟩
def F.DBG_STS_UNLOCKED : Fld := ⟨0x020, 0, 1, 0, .ro, 0, 1, false, false⟩
-- Table 16.13
def F.DBG_NONCE0_NONCE : Fld := ⟨0x040, 0, 32, 0, .ro, 0, 4294967295, false, false⟩
def F.DBG_NONCE1_NONCE : Fld := ⟨0x044, 0, 32, 0, .ro, 0, 4294967295, false, false⟩
def F.DBG_NONCE2_NONCE : Fld := ⟨0x048, 0, 32, 0, .ro, 0, 4294967295, false, false⟩
def F.DBG_NONCE3_NONCE : Fld := ⟨0x04C, 0, 32, 0, .ro, 0, 4294967295, false, false⟩
-- Table 16.14
def F.DBG_CTL_RELOCK : Fld := ⟨0x050, 0, 1, 0, .w1s, 0, 1, false, false⟩
-- Table 16.15
def F.DBG_MEM_CTL_GO : Fld := ⟨0x054, 31, 1, 0, .w1s, 0, 1, false, false⟩
def F.DBG_MEM_CTL_BUSY : Fld := ⟨0x054, 30, 1, 0, .ro, 0, 1, false, false⟩
def F.DBG_MEM_CTL_STATUS : Fld := ⟨0x054, 27, 3, 0, .ro, 0, 7, false, false⟩
def F.DBG_MEM_CTL_WRITE : Fld := ⟨0x054, 9, 1, 0, .rw, 0, 1, false, false⟩
def F.DBG_MEM_CTL_SIZE8 : Fld := ⟨0x054, 8, 1, 0, .rw, 0, 1, false, false⟩
def F.DBG_MEM_CTL_PART : Fld := ⟨0x054, 0, 7, 0, .rw, 0, 127, false, false⟩
-- Table 16.16
def F.DBG_MEM_ADDR_LO_ADDR : Fld := ⟨0x058, 2, 30, 0, .rw, 0, 1073741823, false, false⟩
def F.DBG_MEM_ADDR_HI_ADDR : Fld := ⟨0x05C, 0, 32, 0, .rw, 0, 4294967295, false, false⟩
-- Table 16.17
def F.DBG_MEM_DATA_LO_DATA : Fld := ⟨0x060, 0, 32, 0, .rw, 0, 4294967295, false, false⟩
def F.DBG_MEM_DATA_HI_DATA : Fld := ⟨0x064, 0, 32, 0, .rw, 0, 4294967295, false, false⟩
-- Table 16.18
def F.DBG_DENY_CNT_DENIED : Fld := ⟨0x068, 0, 16, 0, .ro, 0, 65535, false, false⟩
-- Table 17.4
def F.BLK_ID_TYPE : Fld := ⟨0x000, 24, 8, 0, .ro, 0, 255, false, false⟩
def F.BLK_ID_SCOPE : Fld := ⟨0x000, 20, 4, 0, .ro, 0, 15, false, false⟩
def F.BLK_ID_INST : Fld := ⟨0x000, 8, 12, 0, .ro, 0, 4095, false, false⟩
def F.BLK_ID_VER : Fld := ⟨0x000, 0, 8, 1, .ro, 0, 255, false, false⟩
-- Table 17.5
def F.BLK_CAP_SRCS : Fld := ⟨0x004, 16, 8, 0, .ro, 0, 255, false, false⟩
def F.BLK_CAP_EVWIN : Fld := ⟨0x004, 5, 1, 0, .ro, 0, 1, false, false⟩
def F.BLK_CAP_ERRPART : Fld := ⟨0x004, 4, 1, 0, .ro, 0, 1, false, false⟩
def F.BLK_CAP_BANK : Fld := ⟨0x004, 3, 1, 0, .ro, 0, 1, false, false⟩
def F.BLK_CAP_FOLLOW : Fld := ⟨0x004, 2, 1, 0, .ro, 0, 1, false, false⟩
def F.BLK_CAP_RUNCTL : Fld := ⟨0x004, 1, 1, 0, .ro, 0, 1, false, false⟩
-- Table 17.6
def F.BLK_CTL_RUN : Fld := ⟨0x008, 0, 2, 0, .rw, 0, 3, false, false⟩
-- Table 17.7
def F.BLK_STS_CFG_REJECT_CNT : Fld := ⟨0x00C, 16, 16, 0, .ro, 0, 65535, false, false⟩
def F.BLK_STS_RWE_PEND : Fld := ⟨0x00C, 3, 1, 0, .ro, 0, 1, false, false⟩
def F.BLK_STS_ERR_ANY : Fld := ⟨0x00C, 2, 1, 0, .ro, 0, 1, false, false⟩
def F.BLK_STS_CFG_REJECT : Fld := ⟨0x00C, 1, 1, 0, .w1c, 0, 1, false, false⟩
-- Table 17.8
def F.ERR_STICKY_STICKY : Fld := ⟨0x010, 0, 32, 0, .w1c, 0, 4294967295, false, false⟩
-- Table 17.9
def F.ERR_MASK_MASK : Fld := ⟨0x014, 0, 32, 0, .rw, 0, 4294967295, false, false⟩
-- Table 17.10
def F.ERR_INJECT_INJECT : Fld := ⟨0x018, 0, 32, 0, .w1s, 0, 4294967295, false, false⟩
def F.ERR_MERGE_CNT_MERGES : Fld := ⟨0x01C, 0, 32, 0, .ro, 0, 4294967295, false, false⟩

end Sys2Proof.Machine
end

