-- ==== Sys2Proof/Machine/Pages.lean ====
section
/-!
DEFINITION. Sys2Proof/Machine/Pages.lean: the block pages of BAR0 and where they lie (17 R333-R336, R341).
-/
namespace Sys2Proof.Machine

/-- Every block page (17 Table 17.12). -/
inductive Page where
  | mod | pwr | ftm | flt | glr | sec | dbg | tel | trnk | bindM | wabM | homeM
  | evq (q : Nat)
  | ni (d : Nat)
  | mq (ep q : Nat)
  | lnk (p : Nat) | phy (p : Nat) | ing (p : Nat) | egr (p : Nat)
  | cnp (t : Nat) | cell (t : Nat) | bindT (t : Nat) | wabT (t : Nat) | homeT (t : Nat) | halo (t : Nat) | sched (t : Nat)
  | part (p : Nat) | pmd (p : Nat)
deriving DecidableEq, Repr

/-- Base of a tile's pages (17 R335). -/
def tileBase (t : Nat) : Nat := 0x01000000 + t * 0x00200000

/-- Base of the tile pages proper (17 Table 17.15). -/
def tilePage (t : Nat) : Nat := tileBase t + 0x00100000

/-- Base of controller `p`'s four pages (17 R335). -/
def portBase (p : Nat) : Nat := tileBase (p / 64) + (p % 64) * 0x4000

/-- Base of an NI page by destination number (17 Tables 17.14, 17.15; 01 Table 1.6). -/
def niBase (d : Nat) : Nat :=
  if d < 0x10 then 0x00010000 + d * 0x1000
  else if d < 0x90 then tilePage ((d - 0x10) / 16) + 0x10000 + ((d - 0x10) % 16) * 0x1000
  else tilePage ((d - 0x90) / 8) + 0x20000 + ((d - 0x90) % 8) * 0x1000

/-- The BAR0 offset of a page (17 R334-R336). -/
def Page.base : Page → Nat
  | .mod => 0x0000 | .pwr => 0x1000 | .ftm => 0x2000 | .flt => 0x3000 | .glr => 0x4000 | .sec => 0x5000
  | .dbg => 0x6000 | .tel => 0x7000 | .trnk => 0x8000 | .bindM => 0x9000 | .wabM => 0xA000 | .homeM => 0xB000
  | .evq q => if q = 128 then 0xC000 else 0x02000000 + q * 0x10000 + 0x2000
  | .ni d => niBase d
  | .mq e q => 0x00100000 + (64 * e + q) * 0x1000
  | .lnk p => portBase p | .phy p => portBase p + 0x1000 | .ing p => portBase p + 0x2000 | .egr p => portBase p + 0x3000
  | .cnp t => tilePage t | .cell t => tilePage t + 0x1000 | .bindT t => tilePage t + 0x2000
  | .wabT t => tilePage t + 0x3000 | .homeT t => tilePage t + 0x4000 | .halo t => tilePage t + 0x5000
  | .sched t => tilePage t + 0x6000
  | .part p => 0x02000000 + p * 0x10000 | .pmd p => 0x02000000 + p * 0x10000 + 0x1000

/-- The page at a 4 KiB page number of BAR0, none for reserved space (17 R333-R336, R340). -/
def pageAt (n : Nat) : Option Page :=
  if n < 0xD then
    [Page.mod, .pwr, .ftm, .flt, .glr, .sec, .dbg, .tel, .trnk, .bindM, .wabM, .homeM, .evq 128][n]?
  else if 0x10 ≤ n ∧ n ≤ 0x1A then some (.ni (n - 0x10))
  else if 0x100 ≤ n ∧ n < 0x180 then some (.mq ((n - 0x100) / 64) ((n - 0x100) % 64))
  else if 0x1000 ≤ n ∧ n < 0x2000 then
    let t := (n - 0x1000) / 0x200
    let r := (n - 0x1000) % 0x200
    if r < 0x100 then
      let p := 64 * t + r / 4
      some (match r % 4 with | 0 => .lnk p | 1 => .phy p | 2 => .ing p | _ => .egr p)
    else
      let k := r - 0x100
      if k < 7 then [Page.cnp t, .cell t, .bindT t, .wabT t, .homeT t, .halo t, .sched t][k]?
      else if 0x10 ≤ k ∧ k < 0x20 then some (.ni (0x10 + 16 * t + (k - 0x10)))
      else if 0x20 ≤ k ∧ k < 0x28 then some (.ni (0x90 + 8 * t + (k - 0x20)))
      else none
  else if 0x2000 ≤ n ∧ n < 0x2800 then
    let p := (n - 0x2000) / 16
    match (n - 0x2000) % 16 with | 0 => some (.part p) | 1 => some (.pmd p) | 2 => some (.evq p) | _ => none
  else none

/-- TYPE of a page (17 Table 17.12). -/
def Page.typ : Page → Nat
  | .mod => 0x01 | .pwr => 0x02 | .ftm => 0x03 | .flt => 0x04 | .glr => 0x05 | .sec => 0x06 | .dbg => 0x07
  | .tel => 0x08 | .trnk => 0x09 | .bindM => 0x0A | .bindT _ => 0x0A | .wabM => 0x0B | .wabT _ => 0x0B
  | .homeM => 0x0C | .homeT _ => 0x0C | .mq _ _ => 0x0D | .evq _ => 0x0E | .ni _ => 0x0F | .lnk _ => 0x10
  | .phy _ => 0x11 | .ing _ => 0x12 | .egr _ => 0x13 | .cnp _ => 0x14 | .cell _ => 0x15 | .halo _ => 0x16
  | .sched _ => 0x17 | .part _ => 0x18 | .pmd _ => 0x19

/-- SCOPE of a page: the BAR0 range that holds it (17 Table 17.4). -/
def Page.scope : Page → Nat
  | .evq q => if q = 128 then 0 else 3
  | .ni d => if d < 0x10 then 0 else 1
  | .lnk _ | .phy _ | .ing _ | .egr _ => 2
  | .cnp _ | .cell _ | .bindT _ | .wabT _ | .homeT _ | .halo _ | .sched _ => 1
  | .part _ | .pmd _ => 3
  | _ => 0

/-- INST of a page (17 Table 17.4). -/
def Page.inst : Page → Nat
  | .evq q => q | .ni d => d | .mq e q => 64 * e + q
  | .lnk p | .phy p | .ing p | .egr p => p
  | .cnp t | .cell t | .bindT t | .wabT t | .homeT t | .halo t | .sched t => t
  | .part p | .pmd p => p
  | _ => 0

/-- RUNCTL: the page has a run state of its own (17 Table 17.12). -/
def Page.runctl : Page → Bool
  | .ftm | .glr | .trnk | .mq _ _ | .ni _ | .phy _ | .cnp _ | .part _ => true
  | _ => false

/-- FOLLOW: BLK_CTL.RUN reads another owner's run state (17 Table 17.12). -/
def Page.follow : Page → Bool
  | .lnk _ | .ing _ | .egr _ | .cell _ | .pmd _ => true
  | _ => false

/-- The page has a counter bank (13 Table 13.1). -/
def Page.bank : Page → Bool
  | .ing _ | .egr _ | .cnp _ | .bindT _ | .wabT _ | .homeT _ => true
  | _ => false

/-- The page holds ERR_PART0-3 (12 R232). -/
def Page.errPart : Page → Bool
  | .cell _ | .bindT _ | .wabT _ | .homeT _ => true
  | _ => false

/-- Fault sources whose sticky bits lie in the page, as bit numbers (17 Table 17.11). -/
def Page.srcBits : Page → List Nat
  | .flt => [0, 3, 4, 5, 6, 15] | .ftm => [1, 2] | .pwr => [7, 8, 9] | .glr => [10, 11] | .mod => [12, 13]
  | .tel => [14] | .cell _ => [0, 1, 2] | .cnp _ => [3, 4, 5, 6, 17, 18] | .bindT _ => [7, 8] | .wabT _ => [9, 10]
  | .homeT _ => [11, 12, 13] | .halo _ => [14, 15, 16] | .phy _ => [0] | .lnk _ => [1, 2, 3]
  | _ => []

/-- The source number of bit `k` of a page (12 Table 12.1). -/
def Page.srcNum (pg : Page) (k : Nat) : Nat :=
  match pg with
  | .cell t | .cnp t | .bindT t | .wabT t | .homeT t | .halo t => 0x020 + 32 * t + k
  | .phy p | .lnk p => 0x200 + 4 * p + k
  | _ => k

/-- The page and bit that hold the sticky bit of a source (17 Table 17.11); none for a reserved number. -/
def srcPage (n : Nat) : Option (Page × Nat) :=
  if n < 0x20 then
    if n ∈ [0, 3, 4, 5, 6, 15] then some (.flt, n)
    else if n ∈ [1, 2] then some (.ftm, n)
    else if n ∈ [7, 8, 9] then some (.pwr, n)
    else if n ∈ [10, 11] then some (.glr, n)
    else if n ∈ [12, 13] then some (.mod, n)
    else if n = 14 then some (.tel, n)
    else none
  else if n < 0x120 then
    let t := (n - 0x20) / 32
    let k := (n - 0x20) % 32
    if k < 3 then some (.cell t, k)
    else if k < 7 ∨ k = 17 ∨ k = 18 then some (.cnp t, k)
    else if k < 9 then some (.bindT t, k)
    else if k < 11 then some (.wabT t, k)
    else if k < 14 then some (.homeT t, k)
    else if k < 17 then some (.halo t, k)
    else none
  else if 0x200 ≤ n ∧ n < 0xA00 then
    let p := (n - 0x200) / 4
    let k := (n - 0x200) % 4
    some (if k = 0 then .phy p else .lnk p, k)
  else none

/-- The reset value of a field in a page (17 R331, R332; 11 Table 11.20 for queue 128). -/
def resetVal (pg : Page) (f : Fld) : Nat :=
  if f = F.BLK_CTL_RUN then (if pg.runctl then 2 else 0)
  else if f = F.MQ_EVQ_CFG_CAP ∧ pg = .evq 128 then 0x1000
  else f.reset

/-- The key of a field's cell: one for each bit position of BAR0. -/
def fkey (pg : Page) (f : Fld) : Nat := (pg.base + f.off) * 8 + f.lo

end Sys2Proof.Machine
end

