-- ==== Sys2Proof/Machine/RegTable.lean ====
section
/-!
DEFINITION. Sys2Proof/Machine/RegTable.lean: which fields lie in which page (files 01 to 17, the register tables), for reads
and for writes to registers that have no step of their own.
-/
namespace Sys2Proof.Machine

/-- The fields of the ni registers. -/
def fieldsNi : List Fld :=
  [F.NI_STS_BND_FULL, F.NI_STS_ASLEEP, F.NI_STS_NO_ROUTE, F.NI_STS_TMO, F.NI_STS_ROUTE_ERR, F.NI_RT_IDX_IDX, F.NI_RT_LO_ROUTE_LO, F.NI_RT_HI_VALID] ++
  [F.NI_RT_HI_HOPS, F.NI_RT_HI_ROUTE_HI, F.NI_TMO_TMO, F.NI_PD_CNT_ABORTS, F.NI_PD_CNT_HELD_WAKES]

/-- The fields of the ftm registers. -/
def fieldsFtm : List Fld :=
  [F.FTM_STS_EMBER_RUN, F.FTM_STS_RING_OK, F.FTM_STS_FSYNC_OK, F.FTM_STS_HOLDOVER, F.FTM_STS_STATE, F.FTM_OFFSET_OFFSET, F.FTM_TIME_LO_TIME_LO, F.FTM_TIME_HI_TIME_HI] ++
  [F.FTM_CFG_MISS_LIM, F.FTM_CFG_SRC, F.FTM_SRC_CNT_FSYNC_MISS, F.FTM_SRC_CNT_FSYNC_MISMATCH, F.FTM_SRC_CNT_RING_MISMATCH, F.FTM_SRC_CNT_HOLDOVER_CNT, F.FTM_SCHED_STS_CANCEL_LATE, F.FTM_SCHED_STS_LATE_CNT] ++
  [F.FTM_SCHED_STS_USED, F.FTM_SCHED_CANCEL_IDX]

/-- The fields of the phy registers. -/
def fieldsPhy : List Fld :=
  [F.PHY_LINK_STS_NOT_LEAD, F.PHY_LINK_STS_LEAD, F.PHY_LINK_STS_CFG_ERR, F.PHY_LINK_STS_PROTO_MISMATCH, F.PHY_LINK_STS_DEGRADED, F.PHY_LINK_STS_CUR_RATE, F.PHY_LINK_STS_CUR_WIDTH, F.PHY_LINK_STS_TX_STATE] ++
  [F.PHY_LINK_STS_RX_STATE, F.PHY_LINK_STS_UP, F.PHY_LINK_STS_PRSNT, F.PHY_LINK_STS_RATE_ERR, F.PHY_LINK_CFG_HPART, F.PHY_LINK_CFG_LANE_REV_EN, F.PHY_LINK_CFG_MAX_RATE, F.PHY_LINK_CFG_WIDTH] ++
  [F.PHY_LINK_CFG_ROLE, F.PHY_LINK_CTL_OFF, F.PHY_LINK_CTL_LANE_CLR, F.PHY_LINK_CTL_RETRAIN, F.PHY_LINK_CTL_PERST, F.PHY_PM_CFG_DOZE_EN, F.PHY_PM_CFG_L1_EN, F.PHY_PM_CFG_NARROW_EN] ++
  [F.PHY_PM_CFG_NARROW_WIDTH, F.PHY_PM_CFG_NARROW_IDLE, F.PHY_PM_CFG_DOZE_IDLE, F.PHY_PM_CFG_L1_IDLE, F.PHY_LANE_FAIL_LOL_LIM, F.PHY_LANE_FAIL_TMO, F.PHY_LANE_CNT0_LOS_CNT, F.PHY_LANE_CNT0_LOL_CNT] ++
  [F.PHY_LANE_CNT1_LOS_CNT, F.PHY_LANE_CNT1_LOL_CNT, F.PHY_LANE_SLOT_LANE1_FAILED, F.PHY_LANE_SLOT_LANE1_LOL, F.PHY_LANE_SLOT_LANE1_LOS, F.PHY_LANE_SLOT_LANE1_ACT, F.PHY_LANE_SLOT_LANE0_FAILED, F.PHY_LANE_SLOT_LANE0_LOL] ++
  [F.PHY_LANE_SLOT_LANE0_LOS, F.PHY_LANE_SLOT_LANE0_ACT, F.PHY_TXEQ0_PRESET, F.PHY_TXEQ0_C_M2, F.PHY_TXEQ0_C_M1, F.PHY_TXEQ0_C_0, F.PHY_TXEQ0_C_P1, F.PHY_TXEQ1_PRESET] ++
  [F.PHY_TXEQ1_C_M2, F.PHY_TXEQ1_C_M1, F.PHY_TXEQ1_C_0, F.PHY_TXEQ1_C_P1, F.PHY_RXEQ0_ADAPT_DONE, F.PHY_RXEQ0_CTLE, F.PHY_RXEQ0_DFE1, F.PHY_RXEQ0_DFE2] ++
  [F.PHY_RXEQ0_DFE3, F.PHY_RXEQ0_EYE_H, F.PHY_RXEQ1_ADAPT_DONE, F.PHY_RXEQ1_CTLE, F.PHY_RXEQ1_DFE1, F.PHY_RXEQ1_DFE2, F.PHY_RXEQ1_DFE3, F.PHY_RXEQ1_EYE_H] ++
  [F.PHY_MARGIN_CTL_START, F.PHY_MARGIN_CTL_LANE, F.PHY_MARGIN_CTL_AXIS, F.PHY_MARGIN_CTL_DIR, F.PHY_MARGIN_CTL_STEPS, F.PHY_MARGIN_CTL_DWELL, F.PHY_MARGIN_STS_BUSY, F.PHY_MARGIN_STS_RESULT] ++
  [F.PHY_MARGIN_STS_LAST_CLEAN, F.PHY_MARGIN_STS_ERR_CNT]

/-- The fields of the lnk registers. -/
def fieldsLnk : List Fld :=
  [F.LNK_STS_MODE, F.LNK_STS_REPLAYING, F.LNK_SEQ_STS_NEXT_TX, F.LNK_SEQ_STS_OUTSTANDING, F.LNK_SEQ_STS_NEXT_RX, F.LNK_CFG_LOPT_EN, F.LNK_REPLAY_CFG_LIM, F.LNK_REPLAY_CFG_TMO] ++
  [F.LNK_REPLAY_CNT_REPLAYS, F.LNK_REPLAY_CNT_LIM_HITS, F.LNK_RX_CNT_CRC_ERR, F.LNK_RX_CNT_DUP_DISC, F.LNK_FEC_CNT_FEC_CORR, F.LNK_FEC_CNT_FEC_UNCORR, F.LNK_STOMP_CNT_STOMP_TX, F.LNK_STOMP_CNT_LATE_MARK] ++
  [F.LNK_STOMP_CNT_REBUILD_FAIL, F.LNK_INJ_CTL_ARM, F.LNK_INJ_CTL_KIND, F.LNK_INJ_CTL_N, F.LNK_INJ_CTL_BYTE, F.LNK_INJ_STS_DONE, F.LNK_INJ_STS_REFUSED]

/-- The fields of the trnk registers. -/
def fieldsTrnk : List Fld :=
  [F.TRNK_MOD_CFG_HOPS_INIT, F.TRNK_MOD_CFG_MODID, F.TRNK_RT_IDX_IDX, F.TRNK_RT_DATA_VALID, F.TRNK_RT_DATA_LEAD, F.TRNK_RX_ERR_BAD_HDR, F.TRNK_RX_ERR_NO_DEST, F.TRNK_RX_ERR_HOP_EXP] ++
  [F.TRNK_RX_ERR_NO_ROUTE]

/-- The fields of the ing registers. -/
def fieldsIng : List Fld :=
  [F.ING_STS_USED, F.ING_CELL_CFG_MAX, F.ING_CELL_CFG_GUAR, F.ING_ORD_CFG_RO_EN, F.ING_CNT_SPLIT, F.ING_CNT_CREDIT_WAIT, F.ING_BIND_CNT_MISS, F.ING_BIND_CNT_PAR_DROP]

/-- The fields of the cell registers. -/
def fieldsCell : List Fld :=
  [F.CELL_STS_FREE, F.CELL_POOL_CFG_TC3_RSV, F.CELL_FREE_MIN_CLR, F.CELL_FREE_MIN_MIN, F.CELL_PAR_CNT_DATA_CORR, F.CELL_PAR_CNT_DATA_UNCORR, F.CELL_PAR_CNT_HDR_CORR, F.CELL_GUAR_STS_GUAR_SUM]

/-- The fields of the cnp registers. -/
def fieldsCnp : List Fld :=
  [F.CNP_STS_PAIR_DEG, F.CNP_CH_STS_ACT, F.CNP_SCHED_CFG_AGENT_STARVE, F.CNP_SCHED_CFG_LOCAL_STARVE, F.CNP_SCHED_CFG_ITER, F.CNP_XFER_CFG_XFER_LIM, F.CNP_XFER_CNT_RETRY, F.CNP_XFER_CNT_PATH_RETIRED] ++
  [F.CNP_XFER_CNT_CH_RETIRED, F.CNP_BND_CFG_OUT_MAX, F.CNP_BND_CFG_GUAR]

/-- The fields of the bindM registers. -/
def fieldsBindM : List Fld :=
  [F.BIND_STS_USED, F.BIND_CFG_HOLD]

/-- The fields of the bindT registers. -/
def fieldsBindT : List Fld :=
  [F.BIND_RPL_CNT_CORR, F.BIND_RPL_CNT_UNCORR, F.BIND_HOLD_CNT_OVF, F.BIND_HOLD_CNT_USED]

/-- The fields of the pmd registers. -/
def fieldsPmd : List Fld :=
  [F.PMD_STS_DEC_ERR, F.PMD_STS_DEC_COMMIT, F.PMD_BASE_LO_BASE, F.PMD_BASE_HI_BASE, F.PMD_CFG_CAP, F.PMD_FAULT_CNT0_NOBIND, F.PMD_FAULT_CNT0_RIGHTS, F.PMD_FAULT_CNT1_HOLD] ++
  [F.PMD_FAULT_CNT1_TGT_DOWN, F.PMD_VP_IDX_VP, F.PMD_VP_STS_BOUND, F.PMD_VP_STS_PRSNT, F.PMD_VP_STS_DLL_ACT, F.PMD_VP_STS_SLOT_PWR, F.PMD_VP_STS_RM_PEND, F.PMD_VP_STS_LEAD] ++
  [F.PMD_WAB_CFG_LIMIT, F.PMD_WAB_STS_WRITE_LOSS, F.PMD_WAB_STS_EA_WITHHELD, F.PMD_WAB_STS_STRANDED]

/-- The fields of the wabM registers. -/
def fieldsWabM : List Fld :=
  [F.WAB_MOD_STS_PWR_DRAIN, F.WAB_MOD_STS_EA_OFF, F.WAB_CFG_TGT_LIM, F.WAB_CFG_ACK_TMO, F.WAB_PLR_STS_VALID, F.WAB_PLR_STS_ENTRIES, F.WAB_PLR_STS_TRUNC, F.WAB_PLR_IDX_IDX] ++
  [F.WAB_PLR_DATA_PART, F.WAB_PLR_DATA_BIND, F.WAB_PLR_LINES_LINES]

/-- The fields of the wabT registers. -/
def fieldsWabT : List Fld :=
  [F.WAB_STS_USED, F.WAB_STRAND_STS_STRANDED, F.WAB_CNT_FALLBACK, F.WAB_CNT_REISSUE, F.WAB_CNT_DEV_DRAINS, F.WAB_PAR_CNT_CORR, F.WAB_PAR_CNT_UNCORR]

/-- The fields of the homeM registers. -/
def fieldsHomeM : List Fld :=
  [F.HOME_CFG_SNP_TMO, F.HOME_PRED_CFG_THRESH, F.HOME_PRED_CFG_DECAY, F.HOME_SG_IDX_GRP, F.HOME_SG_MEM0_MEM, F.HOME_SG_MEM1_MEM, F.HOME_SG_MEM2_MEM, F.HOME_SG_MEM3_MEM] ++
  [F.HOME_SG_FENCED0_FENCED, F.HOME_SG_FENCED1_FENCED, F.HOME_SG_FENCED2_FENCED, F.HOME_SG_FENCED3_FENCED, F.HOME_NMA_IDX_LEAD, F.HOME_NMA_LO_BASE_LO, F.HOME_NMA_LO_EN, F.HOME_NMA_HI_BASE_HI]

/-- The fields of the homeT registers. -/
def fieldsHomeT : List Fld :=
  [F.HOME_TSTS_LOQ_USED, F.HOME_TSTS_INSVC, F.HOME_ALC_STS_VALID, F.HOME_BC_CNT_BCAST, F.HOME_RACE_CNT_WB_MERGE, F.HOME_RACE_CNT_CONFLICT, F.HOME_FENCE_CNT_FENCEOUT, F.HOME_FENCE_CNT_LATE_RSP] ++
  [F.HOME_FENCE_CNT_POISONED, F.HOME_ALC_CNT_FILLS, F.HOME_ALC_CNT_EVICTS, F.HOME_ALC_PAR_CORR, F.HOME_ALC_PAR_UNCORR, F.HOME_ALC_PAR_PRED_PAR, F.HOME_ATOM_CNT_NEAR, F.HOME_ATOM_CNT_ALC] ++
  [F.HOME_ATOM_CNT_NMA_ERR, F.HOME_RESV_STS_RECORDS, F.HOME_RESV_CNT_CW_OK, F.HOME_RESV_CNT_CW_FAIL]

/-- The fields of the halo registers. -/
def fieldsHalo : List Fld :=
  [F.HALO_STS_UP_OK, F.HALO_STS_DN_OK, F.HALO_CFG_LIM, F.HALO_CNT_RETRY]

/-- The fields of the egr registers. -/
def fieldsEgr : List Fld :=
  [F.EGR_STS_USED, F.EGR_CELL_CFG_GUAR, F.EGR_SMP_DEPTH_TOTAL, F.EGR_SMP_MAX_MAX_DLY, F.EGR_SMP_MAXQ_TC, F.EGR_SMP_MAXQ_PART]

/-- The fields of the sched registers. -/
def fieldsSched : List Fld :=
  [F.SCHED_IDX_LPORT, F.SCHED_IDX_TC, F.SCHED_IDX_PART, F.SCHED_QUANTUM_QUANTUM, F.SCHED_DEFICIT_DEFICIT, F.SCHED_SHP_RATE_RATE, F.SCHED_SHP_CFG_EN, F.SCHED_SHP_CFG_BURST] ++
  [F.SCHED_SHP_TOK_TOKENS, F.SCHED_Q_SMP_DEPTH, F.SCHED_Q_SMP_HEAD_DLY]

/-- The fields of the part registers. -/
def fieldsPart : List Fld :=
  [F.PART_STS_RST_CAUSE, F.PART_STS_HOST_UP, F.PART_STS_QTMO_HIT, F.PART_STS_ARMED, F.PART_STS_RESETTING, F.PART_STS_STATE, F.PART_CTL_RESET, F.PART_CFG_QTMO] ++
  [F.PART_ARM_VALID, F.PART_ARM_IDX, F.PART_RST_CNT_MGR, F.PART_RST_CNT_HOT, F.PART_RST_CNT_LOST, F.PART_HELD_HELD]

/-- The fields of the mq registers. -/
def fieldsMq : List Fld :=
  [F.MQ_Q_STS_DMA_ERR, F.MQ_Q_STS_DB_ERR, F.MQ_Q_STS_CQ_PAUSED, F.MQ_Q_STS_HELD, F.MQ_Q_STS_INFLIGHT, F.MQ_Q_STS_CACHED, F.MQ_Q_SQ_TAIL, F.MQ_Q_SQ_HEAD] ++
  [F.MQ_Q_CQ_TAIL, F.MQ_Q_CQ_HEAD, F.MQ_QSEQ_CMD_EXP, F.MQ_QSEQ_CPL_LAST, F.MQ_Q_SQB_LO_BASE_LO, F.MQ_Q_SQB_HI_BASE_HI, F.MQ_Q_CQB_LO_BASE_LO, F.MQ_Q_CQB_HI_BASE_HI] ++
  [F.MQ_Q_CFG_SEQ_CHK, F.MQ_Q_CFG_SCOPE_MOD, F.MQ_Q_CFG_CQ_LOG2, F.MQ_Q_CFG_SQ_LOG2, F.MQ_Q_VEC_INT_EN, F.MQ_Q_VEC_VEC, F.MQ_Q_ARB_BURST, F.MQ_Q_ARB_WEIGHT] ++
  [F.MQ_Q_SCOPE0_PARTS, F.MQ_Q_SCOPE1_PARTS, F.MQ_Q_SCOPE2_PARTS, F.MQ_Q_SCOPE3_PARTS]

/-- The fields of the evq registers. -/
def fieldsEvq : List Fld :=
  [F.MQ_EVQ_STS_DB_ERR, F.MQ_EVQ_STS_COUNT, F.MQ_EVQ_NEXT_SEQ, F.MQ_EVQ_HEAD_SEQ, F.MQ_EVQ_CFG_INT_FIRST, F.MQ_EVQ_CFG_FAILOVER, F.MQ_EVQ_CFG_EP, F.MQ_EVQ_CFG_CAP] ++
  [F.MQ_EVQ_VEC_INT_EN, F.MQ_EVQ_VEC_VEC, F.MQ_EVQ_TMO_TMO, F.MQ_EVQ_LOST_EVQ_LOST]

/-- The fields of the errpart registers. -/
def fieldsErrpart : List Fld :=
  [F.ERR_PART0_PARTS, F.ERR_PART1_PARTS, F.ERR_PART2_PARTS, F.ERR_PART3_PARTS]

/-- The fields of the flt registers. -/
def fieldsFlt : List Fld :=
  [F.FLT_STS_MODE, F.FLT_STS_DEG_COND, F.FLT_STS_WIRE_ANY, F.FLT_STS_FATAL, F.FLT_SUM0_SUM, F.FLT_SUM1_SUM, F.FLT_SUM2_SUM, F.FLT_CFG_FATAL_INJ] ++
  [F.FLT_CFG_AUTOCLR, F.FLT_SRC_IDX_SRC, F.FLT_SRC_STICKY, F.FLT_SRC_OPEN, F.FLT_SRC_PAIR, F.FLT_SRC_ALLOWED, F.FLT_SRC_REACT, F.FLT_SRC_CNT_CNT] ++
  [F.FLT_STK_IDX_WORD, F.FLT_STK_DATA_STICKY, F.FLT_WDOG_CORE_TMO, F.FLT_WDOG_MOD_TMO, F.FLT_WDOG_FEED_CORE, F.FLT_MC_STS_TAKEOVERS, F.FLT_MC_STS_MC1_OK, F.FLT_MC_STS_MC0_OK] ++
  [F.FLT_MC_STS_ACTIVE, F.FLT_DSEG_CFG_EN, F.FLT_DSEG_CFG_LEAD, F.FLT_DSEG_CFG_LD, F.FLT_DSEG_CFG_SIZE, F.FLT_DSEG_DPA_LO_DPA_LO, F.FLT_DSEG_DPA_HI_DPA_HI, F.FLT_DUMP_SEQ_LAST] ++
  [F.FLT_DUMP_STS_DEST, F.FLT_DUMP_STS_TRUNC, F.FLT_DUMP_STS_BUSY, F.FLT_DUMP_STS_DONE, F.FLT_FW_STS_STEP, F.FLT_FW_STS_LAST, F.FLT_FW_STS_STAGED]

/-- The fields of the ctr registers. -/
def fieldsCtr : List Fld :=
  [F.CTR_BANK_CTL_CLR, F.CTR_BANK_CTL_IGNORED, F.CTR_FILT0_OC_MASK, F.CTR_FILT0_TC_MASK, F.CTR_FILT0_PRIV_MASK, F.CTR_FILT0_PART_EN, F.CTR_FILT0_PART, F.CTR_FILT0_PORT] ++
  [F.CTR_FILT1_ADDR_EN, F.CTR_FILT1_ADDR_BASE, F.CTR_FILT2_PORT_EN, F.CTR_FILT2_ADDR_LIM, F.CTR_SEL0_SEL3, F.CTR_SEL0_SEL2, F.CTR_SEL0_SEL1, F.CTR_SEL0_SEL0] ++
  [F.CTR_SEL1_SEL7, F.CTR_SEL1_SEL6, F.CTR_SEL1_SEL5, F.CTR_SEL1_SEL4]

/-- The fields of the tel registers. -/
def fieldsTel : List Fld :=
  [F.TEL_STS_SKY_DMA, F.TEL_STS_SNAP_DMA, F.TEL_STS_COLLECTING, F.TEL_SNAP_STS_LAST, F.TEL_SNAP_CFG_EN, F.TEL_SNAP_CFG_EP, F.TEL_SNAP_CFG_LOG2, F.TEL_SNAP_BASE_LO_BASE_LO] ++
  [F.TEL_SNAP_BASE_HI_BASE_HI, F.TEL_SNAP_SKIP_SKIPPED, F.TEL_TAG_CFG_EN, F.TEL_TAG_CFG_N, F.TEL_TAG_CFG_SEED, F.TEL_SKY_BASE_LO_BASE_LO, F.TEL_SKY_BASE_HI_BASE_HI, F.TEL_SKY_CFG_EN] ++
  [F.TEL_SKY_CFG_EP, F.TEL_SKY_CFG_MIR_EN, F.TEL_SKY_CFG_POINT, F.TEL_SKY_CFG_LOG2, F.TEL_SKY_CFG_MAX, F.TEL_SKY_HEAD_IDX, F.TEL_SKY_TAIL_IDX, F.TEL_SKY_FILT0_FILT] ++
  [F.TEL_SKY_FILT1_FILT, F.TEL_SKY_FILT2_FILT, F.TEL_SKY_DROP_FULL, F.TEL_SKY_DROP_RATE]

/-- The fields of the glr registers. -/
def fieldsGlr : List Fld :=
  [F.GLR_STS_BREAKS, F.GLR_STS_MEMBERS, F.GLR_STS_MEMB_CHG, F.GLR_STS_YIELD, F.GLR_STS_MASTER_ACT, F.GLR_STS_BYPASS, F.GLR_STS_STATE, F.GLR_PORT_STS_OUT_NBR] ++
  [F.GLR_PORT_STS_IN_NBR, F.GLR_PORT_STS_OUT_DLY_OK, F.GLR_PORT_STS_IN_DLY_OK, F.GLR_PORT_STS_OUT_STATE, F.GLR_PORT_STS_IN_STATE, F.GLR_CFG_HB_MISS, F.GLR_CFG_RST_RX_EN, F.GLR_CFG_TMASTER] ++
  [F.GLR_CTL_BYP_REQ, F.GLR_LOCK_TMO_TMO, F.GLR_SEQ_CFG_ACK_TMO, F.GLR_SEQ_CFG_RPL_TMO, F.GLR_DLY_IN_VALID, F.GLR_DLY_IN_DELAY, F.GLR_DLY_OUT_VALID, F.GLR_DLY_OUT_DELAY] ++
  [F.GLR_MEM_IDX_SLOT, F.GLR_MEM_DATA_VALID, F.GLR_MEM_DATA_MODID, F.GLR_MEM_DATA_MODE, F.GLR_MEM_DATA_FTM, F.GLR_MEM_DATA_EMBER, F.GLR_MEM_DATA_IN_UP, F.GLR_MEM_DATA_OUT_UP] ++
  [F.GLR_MEM_DATA_TMASTER, F.GLR_MEM_DATA_AGE, F.GLR_MEM_DATA_SELF, F.GLR_CNT_CRC_ERR, F.GLR_CNT_FWD_DISC, F.GLR_CNT_MEM_OVF, F.GLR_CNT_LOCK_LOSS, F.GLR_RPL_CNT_REPLAYS] ++
  [F.GLR_RPL_CNT_UNREACH, F.GLR_RST_IDX_SLOT, F.GLR_RST_REQ_GO, F.GLR_RST_REQ_CANCEL, F.GLR_RST_REQ_DST, F.GLR_RST_REQ_PART, F.GLR_RST_T_LO_T, F.GLR_RST_T_HI_T] ++
  [F.GLR_RST_RES_STATE, F.GLR_RST_RES_STATUS, F.GLR_RST_RES_SIDX]

/-- The fields of the pwr registers. -/
def fieldsPwr : List Fld :=
  [F.PWR_STS_PG_INT, F.PWR_STS_PWRWARN, F.PWR_STS_HOLDUP_FULL, F.PWR_STS_MEAS_FB, F.PWR_STS_BRK_MODE, F.PWR_STS_RETRY, F.PWR_STS_LATCHED, F.PWR_STS_OV] ++
  [F.PWR_STS_PATH, F.PWR_TRIP_STS_TRIPS, F.PWR_TRIP_STS_POINT, F.PWR_TRIP_STS_CAUSE, F.PWR_WARN_CFG_WARN, F.PWR_CURVE0_EN, F.PWR_CURVE0_I_TRIP, F.PWR_CURVE0_T_EXP] ++
  [F.PWR_CURVE0_T_MAN, F.PWR_CURVE1_EN, F.PWR_CURVE1_I_TRIP, F.PWR_CURVE1_T_EXP, F.PWR_CURVE1_T_MAN, F.PWR_CURVE2_EN, F.PWR_CURVE2_I_TRIP, F.PWR_CURVE2_T_EXP] ++
  [F.PWR_CURVE2_T_MAN, F.PWR_CURVE3_EN, F.PWR_CURVE3_I_TRIP, F.PWR_CURVE3_T_EXP, F.PWR_CURVE3_T_MAN, F.PWR_CURVE4_EN, F.PWR_CURVE4_I_TRIP, F.PWR_CURVE4_T_EXP] ++
  [F.PWR_CURVE4_T_MAN, F.PWR_CURVE5_EN, F.PWR_CURVE5_I_TRIP, F.PWR_CURVE5_T_EXP, F.PWR_CURVE5_T_MAN, F.PWR_CURVE6_EN, F.PWR_CURVE6_I_TRIP, F.PWR_CURVE6_T_EXP] ++
  [F.PWR_CURVE6_T_MAN, F.PWR_CURVE7_EN, F.PWR_CURVE7_I_TRIP, F.PWR_CURVE7_T_EXP, F.PWR_CURVE7_T_MAN, F.PWR_CURVE_CTL_COMMIT, F.PWR_CURVE_CTL_CURVE_ERR, F.PWR_BRK_CTL_SELFTEST] ++
  [F.PWR_BRK_CTL_ST_FAIL, F.PWR_TOK_CFG_COST, F.PWR_TOK_CFG_BUDGET, F.PWR_TOK_STS_MAX_WAIT, F.PWR_TOK_STS_WAITING, F.PWR_SLOT_MEAS_PEAK_I, F.PWR_SLOT_MEAS_VMIN, F.PWR_ADC_IV_I] ++
  [F.PWR_ADC_IV_V, F.PWR_ADC_P_P, F.PWR_ENERGY_LO_E_LO, F.PWR_ENERGY_HI_E_HI, F.PWR_HOLDUP_FULL, F.PWR_HOLDUP_VSTORE, F.PWR_RAIL_IDX_RAIL, F.PWR_RAIL_STS_IN_REG] ++
  [F.PWR_RAIL_STS_FAILED, F.PWR_RAIL_STS_PHASES, F.PWR_RAIL_STS_NEEDED]

/-- The fields of the mod registers. -/
def fieldsMod : List Fld :=
  [F.MOD_STS_RST_CAUSE, F.MOD_STS_REFCLK_OK, F.MOD_STS_MODE, F.MOD_RESET_COLD, F.MOD_RESET_WARM, F.MOD_RESET_KEY, F.MOD_BOOT_TIME_MS]

/-- The fields of the sec registers. -/
def fieldsSec : List Fld :=
  [F.SEC_BOOT_STS_FAIL1, F.SEC_BOOT_STS_FAIL0, F.SEC_BOOT_STS_PREF, F.SEC_BOOT_STS_NONE, F.SEC_BOOT_STS_BOOTED, F.SEC_FLASH_STS_RESULT, F.SEC_FLASH_STS_COPY, F.SEC_FLASH_STS_BUSY] ++
  [F.SEC_KEY_STS_RUN_SLOT, F.SEC_KEY_STS_STATE, F.SEC_KEY_REVOKE_KEY, F.SEC_KEY_REVOKE_SLOT, F.SEC_SVN_RUN, F.SEC_SVN_MIN, F.SEC_SVN_CTL_COMMIT, F.SEC_SVN_CTL_KEY] ++
  [F.SEC_SERIAL_LO_SERIAL, F.SEC_SERIAL_HI_SERIAL]

/-- The fields of the dbg registers. -/
def fieldsDbg : List Fld :=
  [F.DBG_STS_DBG_DENY, F.DBG_STS_DISABLED, F.DBG_STS_SCOPE, F.DBG_STS_UNLOCKED, F.DBG_NONCE0_NONCE, F.DBG_NONCE1_NONCE, F.DBG_NONCE2_NONCE, F.DBG_NONCE3_NONCE] ++
  [F.DBG_CTL_RELOCK, F.DBG_MEM_CTL_GO, F.DBG_MEM_CTL_BUSY, F.DBG_MEM_CTL_STATUS, F.DBG_MEM_CTL_WRITE, F.DBG_MEM_CTL_SIZE8, F.DBG_MEM_CTL_PART, F.DBG_MEM_ADDR_LO_ADDR] ++
  [F.DBG_MEM_ADDR_HI_ADDR, F.DBG_MEM_DATA_LO_DATA, F.DBG_MEM_DATA_HI_DATA, F.DBG_DENY_CNT_DENIED]

/-- The fields of the hdr registers. -/
def fieldsHdr : List Fld :=
  [F.BLK_ID_TYPE, F.BLK_ID_SCOPE, F.BLK_ID_INST, F.BLK_ID_VER, F.BLK_CAP_SRCS, F.BLK_CAP_EVWIN, F.BLK_CAP_ERRPART, F.BLK_CAP_BANK] ++
  [F.BLK_CAP_FOLLOW, F.BLK_CAP_RUNCTL, F.BLK_CTL_RUN, F.BLK_STS_CFG_REJECT_CNT, F.BLK_STS_RWE_PEND, F.BLK_STS_ERR_ANY, F.BLK_STS_CFG_REJECT, F.ERR_STICKY_STICKY] ++
  [F.ERR_MASK_MASK, F.ERR_INJECT_INJECT, F.ERR_MERGE_CNT_MERGES]

/-- The fields of a page: the common header (17 Table 17.3), its own registers, ERR_PART0-3 where it holds a tile
partition source (17 Table 17.2) and its counter bank (13 Table 13.1). -/
def Page.fields : Page → List Fld
  | .mod => fieldsHdr ++ fieldsMod
  | .pwr => fieldsHdr ++ fieldsPwr
  | .ftm => fieldsHdr ++ fieldsFtm
  | .flt => fieldsHdr ++ fieldsFlt
  | .glr => fieldsHdr ++ fieldsGlr
  | .sec => fieldsHdr ++ fieldsSec
  | .dbg => fieldsHdr ++ fieldsDbg
  | .tel => fieldsHdr ++ fieldsTel
  | .trnk => fieldsHdr ++ fieldsTrnk
  | .bindM => fieldsHdr ++ fieldsBindM
  | .wabM => fieldsHdr ++ fieldsWabM
  | .homeM => fieldsHdr ++ fieldsHomeM
  | .evq _ => fieldsHdr ++ fieldsEvq
  | .ni _ => fieldsHdr ++ fieldsNi
  | .mq _ _ => fieldsHdr ++ fieldsMq
  | .lnk _ => fieldsHdr ++ fieldsLnk
  | .phy _ => fieldsHdr ++ fieldsPhy
  | .ing _ => fieldsHdr ++ fieldsIng ++ fieldsCtr
  | .egr _ => fieldsHdr ++ fieldsEgr ++ fieldsCtr
  | .cnp _ => fieldsHdr ++ fieldsCnp ++ fieldsCtr
  | .cell _ => fieldsHdr ++ fieldsCell ++ fieldsErrpart
  | .bindT _ => fieldsHdr ++ fieldsBindT ++ fieldsErrpart ++ fieldsCtr
  | .wabT _ => fieldsHdr ++ fieldsWabT ++ fieldsErrpart ++ fieldsCtr
  | .homeT _ => fieldsHdr ++ fieldsHomeT ++ fieldsErrpart ++ fieldsCtr
  | .halo _ => fieldsHdr ++ fieldsHalo
  | .sched _ => fieldsHdr ++ fieldsSched
  | .part _ => fieldsHdr ++ fieldsPart
  | .pmd _ => fieldsHdr ++ fieldsPmd

end Sys2Proof.Machine
end

