-- ==== Sys2Proof/Config.lean ====
section
/-!
DEFINITION. Sys2Proof/Config.lean: what one module fixes and the manual does not: fuses, stored contents, keys, and the
free values of the assumption log. None has a body that a proof can see.
-/
namespace Sys2Proof

/-- Module serial, fused (16 Table 16.11). -/
opaque Config.serial : BitVec 64

/-- State of key-hash slots 0-3 at manufacture: 0 BLANK, 1 ACTIVE, 2 REVOKED (16, Fused state). -/
opaque Config.keyState : Nat → Nat

/-- SHA-256 of the signing key of slot s (16, Fused state). -/
opaque Config.keyHash : Nat → Digest

/-- Fused SVN minimum at manufacture (16, Fused state). -/
opaque Config.svnMin : Nat

/-- SHA-256 of the debug authority's key (16, Fused state). -/
opaque Config.authHash : Digest

/-- DBG_DISABLE fuse (16, Fused state). -/
opaque Config.dbgDisable : Bool

/-- Contents of flash copy 0 and 1 before any write of this run (16 R305). -/
opaque Config.flash : Nat → List Host.Cell

/-- Preferred copy before any write of this run (16 R305). -/
opaque Config.prefCopy : Nat

/-- Last DUMPSEQ of the non-volatile store (12 Table 12.27). -/
opaque Config.dumpSeq : Nat

/-- The power-loss record of the non-volatile store: (partition, binding, lines) rows and TRUNC (07 R146). -/
opaque Config.plrRows : List (Nat × Nat × Nat)
opaque Config.plrValid : Bool
opaque Config.plrTrunc : Nat

/-- SHA-256 of a list of bytes (FIPS 180-4, outside the manual: left free). -/
opaque Config.sha256 : List Nat → Digest

/-- Verification of a signature over a digest under a public key (FIPS 205, outside the manual: left free). -/
opaque Config.slhVerify : Digest → Digest → Nat → Bool

/-- Signature of a private key over a digest (FIPS 205, outside the manual: left free). -/
opaque Config.slhSign : Nat → Digest → Nat

/-- The identity seed, and the private key that is derived from a seed: 0 identity, 1 dump sealing (16 R310). -/
opaque Config.identitySeed : Nat
opaque Config.deriveKey : Nat → Nat → Nat

/-- DER bytes of the certificate chain from Birnan's root over the device CA to the identity key's leaf, and of the dump-sealing leaf that
the identity key signed (16 R310). -/
opaque Config.certBase : List Nat
opaque Config.sealLeaf : List Nat

/-- FREE VALUE: ticks in which a request that asks for a signature is processed (16 R313 gives none). -/
opaque Config.signTicks : Nat

/-- SHA-256 of the Zhory ROM (16 Table 16.2). -/
opaque Config.romHash : Digest

/-- FREE VALUE: where the search for a free table index starts (06 R113, 02 R39). -/
opaque Config.freeIndex : Nat → Nat

/-- FREE VALUE: a fresh nonce (16 R315). -/
opaque Config.freeNonce : Nat → BitVec 128

/-- FREE VALUE: any other value that the manual leaves open, by draw. -/
opaque Config.freeNat : Nat → Nat

/-- FREE VALUE: the tag generator of a link: SEED, lead and draw number give the draw (13 R258). -/
opaque Config.tagDraw : Nat → Nat → Nat → Nat

/-- FREE VALUE: the NI that a router's output selector leads to, none for a link (01 R17 gives no numbering). -/
opaque Config.localNi : Nat → Nat → Option Nat

/-- FREE VALUE: the route table that Harcen loads, by NI and destination (01 R21 gives no contents). -/
opaque Config.bootRoute : Nat → Nat → Nat

/-- FREE VALUE: the block NI of a tile that serves one of its blocks: 0 SCHED, 1 BIND, 2 the partition blocks, 3 CNP, 4 CELL, 5 WAB,
6 HOME, 7 HALO (01 Table 1.6 numbers no block). -/
opaque Config.blockNi : Nat → Nat

/-- FREE VALUE: the check code of a flit's data, by what it covers: half 0 or 1, the flit, the TLP (05 R83; CXL 3.1 and PCI Express,
outside the manual). -/
opaque Config.linkCrc : Nat → List DWord → Nat

/-- FREE VALUE: the FEC bytes of a flit's data (05 R83; outside the manual). -/
opaque Config.linkFec : List DWord → Nat

/-- FREE VALUE: the half whose CRC an injected corruption makes wrong in the latency-optimized layout (04 Table 4.6). -/
opaque Config.injHalf : Nat

/-- FREE VALUE: the check bits of a cell header (05 Table 5.2 names no code). -/
opaque Config.hecc : Nat → Nat

/-- FREE VALUE: the type of the event that a discarded trunk flit posts (04 R79 names none). -/
opaque Config.trunkEvent : Nat

/-- Requester identifiers as the module rewrites them: a host's toward the link of a device, and a device's toward its host (06 R125):
free values. -/
opaque Config.devId : Nat → Nat → Nat
opaque Config.hostId : Nat → Nat → Nat → Nat

/-- The completer identifier of the device behind a link, in that link's numbering: a free value (06 R125). -/
opaque Config.devCpl : Nat → Nat

/-- FREE VALUE: priority level of a packet of a reserved type (01 Table 1.8). -/
opaque Config.trailPrio : Nat → Nat

/-- FREE VALUE: what a register reads of which the manual names no contents: what the referenced standard gives for an agent that has the
options of a list and no others (00 R4), by offset and size. -/
opaque Config.stdResponse : List StdOpt → Nat → Nat → Nat

/-- FREE VALUE: answer of the I3C target to a common command whose contents the bus standard gives, by code and bytes (18 R351). -/
opaque Config.i3cResponse : Nat → Nat → Nat

/-- MIPI manufacturer ID of Birnan (18 R351), a value the manual does not print. -/
opaque Config.mipiId : BitVec 15

/-- Vendor ID of Birnan (16 R312), a value the manual does not print. -/
opaque Config.vendorId : Nat

/-- How many words of a dump are written at a tick, while it is being written (12 R245; log 38). -/
opaque Config.dumpWritten : Nat → Nat → Nat

end Sys2Proof
end

