-- ==== Sys2Proof/Machine/Table.lean ====
section
/-!
DEFINITION. Sys2Proof/Machine/Table.lean: sparse tables: lists of (key, value) pairs in one canonical form, keys strictly
rising and no value equal to what an unlisted key reads as.
-/
namespace Sys2Proof.Machine

/-- A sparse table. -/
abbrev Tbl (α : Type) := List (Nat × α)

/-- The value at key `i`; `d` where the table lists none. -/
def tget {α : Type} (d : α) (m : Tbl α) (i : Nat) : α :=
  ((m.find? (fun e => e.1 == i)).map (·.2)).getD d

/-- A pair put in before the first greater key. -/
def tins {α : Type} (i : Nat) (v : α) : Tbl α → Tbl α
  | [] => [(i, v)]
  | e :: t => if i < e.1 then (i, v) :: e :: t else e :: tins i v t

/-- Write `v` at key `i`; writing `d` removes the entry. -/
def tput {α : Type} [DecidableEq α] (d : α) (m : Tbl α) (i : Nat) (v : α) : Tbl α :=
  let r := m.filter (fun e => !(e.1 == i))
  if v = d then r else tins i v r

/-- The canonical form: keys strictly rising, no value equal to `d`. -/
def twf {α : Type} [DecidableEq α] (d : α) (m : Tbl α) : Bool :=
  decide (m.Pairwise (fun a b => a.1 < b.1)) && m.all (fun e => !(decide (e.2 = d)))

/-- Change the value at key `i`. -/
def tmod {α : Type} [DecidableEq α] (d : α) (m : Tbl α) (i : Nat) (f : α → α) : Tbl α :=
  tput d m i (f (tget d m i))

/-- Change the first element that satisfies `p`. -/
def modFirst {α : Type} (p : α → Bool) (f : α → α) : List α → List α
  | [] => []
  | x :: t => if p x then f x :: t else x :: modFirst p f t

/-- Remove the first element that satisfies `p`. -/
def dropFirst {α : Type} (p : α → Bool) : List α → List α
  | [] => []
  | x :: t => if p x then t else x :: dropFirst p t

end Sys2Proof.Machine
end

