-- ==== Sys2Proof/Machine/State.lean ====
section
/-!
DEFINITION. Sys2Proof/Machine/State.lean: everything the manual gives the module, as plain data. Registers are held as one
sparse table of fields (key: BAR0 bit position); what lies behind them is held in the parts below. Reset is the state after
a cold reset with no input power.
-/
namespace Sys2Proof.Machine

/-- Modes (15 Table 15.7). -/
inductive Mode where
  | off | precharge | boot | standby | run | degraded | maintenance | fatalHold
deriving DecidableEq, Repr

/-! ### Fabric time and the schedule table (file 02) -/

/-- A TIME_SET in flight: its command, epoch number, tick and fabric time of acceptance (R30). -/
structure TSet where
  ctx : Ctx
  e   : Nat
  tick : Nat
  time : Nat
deriving DecidableEq, Repr

/-- What the FTM keeps behind its registers (R28-R36): fabric times of the last boundaries acted on; the pending ring load (value,
tick); epoch boundaries in a row that no edge confirmed, the next one already confirmed, and the last one while an edge may still
confirm it; epochs in a row without a time message; since when each source agrees
in HOLDOVER, and the tick of its last agreeing comparison. -/
structure Ftm where
  slotDone  : Nat
  epochDone : Nat
  ringPend  : Option (Nat × Nat)
  tset      : Option TSet
  fsRun     : Nat
  fsConf    : Bool
  prov      : Option Nat
  ringRun   : Nat
  ringSeen  : Bool
  agreeFs   : Option Nat
  agreeRing : Option Nat
  lastFs    : Nat
  lastRing  : Nat
  order     : Nat
deriving DecidableEq, Repr

/-- Actions of the schedule table: the commands that take AT (11 Table 11.5). -/
inductive SchedAct where
  | restart (part : Nat)
  | bindStop (idx : Nat)
  | bindStart (idx : Nat)
  | regWrite (offset value mask : Nat)
  | portState (lead run : Nat)
  | portPm (lead value : Nat)
  | shaper (lead part rate burst : Nat) (en : Bool)
  | quantum (lead part tc quantum : Nat)
deriving DecidableEq, Repr

/-- Who is told the outcome of a schedule entry: a queue command, a ring request (14 R284), or nobody. -/
inductive SchedOwner where
  | cmd (c : Ctx) (opcode : Nat)
  | ring (src slot : Nat)
  | none
deriving DecidableEq, Repr

/-- A schedule entry (R39, R40). -/
structure SchedEnt where
  idx   : Nat
  inst  : Nat
  order : Nat
  act   : SchedAct
  owner : SchedOwner
deriving DecidableEq, Repr

/-! ### Trail network (file 01, 15 R298) -/

structure RouteEnt where
  valid : Bool
  hops  : Nat
  route : Nat
deriving DecidableEq, Repr

/-- Power of a port-group domain (01 R22-R24). -/
inductive Dom where
  | on
  | down (since : Nat)
  | asleep
  | waking (since : Nat)
deriving DecidableEq, Repr

/-- A packet waiting at a router output, in the buffer of its input and level, or behind it (01 R18, R19): the tick at which its header
came into the buffer; `aged` holds the order of ageing. -/
structure RWait where
  router : Nat
  out    : Nat
  inp    : Nat
  pkt    : TPkt
  since  : Nat
  aged   : Option Nat
deriving DecidableEq, Repr

structure NiReq where
  ni : Nat
  tag : Nat
  typ : Nat
  deadline : Nat
deriving DecidableEq, Repr

/-- A wake that waits for its token (15 R298): the refill slot and the tick in which it asked. -/
structure Wake where
  g : Nat
  prio : Nat
  since : Nat
  asked : Nat
deriving DecidableEq, Repr

/-- The Trail network and the port-group domains (file 01). `routes`: entries written since Harcen loaded the tables, and
`loaded`: it has; `delta`, `base`: what each NI's copy of fabric time, and all of them, are ahead of the tick; `used`: flits of the
packets sent for which no credit has come back, by output and level; `passed`: the tick by which the last packet of an output can have
passed it; `saved`: the counters a domain saved at its power-down. -/
structure Trail where
  routes   : Tbl (Option RouteEnt)
  loaded   : Bool
  stage    : Tbl Nat
  delta    : Tbl Nat
  base     : Nat
  used     : Tbl Nat
  passed   : Tbl Nat
  saved    : Tbl (List Nat)
  reqs     : List NiReq
  wait     : List RWait
  agedLast : List (Nat × Nat)
  agedSeq  : Nat
  doms     : Tbl Dom
  buf      : Tbl (List TPkt)
  withheld : Tbl (List TPkt)
  wakes    : List Wake
  tokUsed  : Nat
deriving DecidableEq, Repr

/-! ### Links and lanes (files 03, 04) -/

/-- Where a link stands (03 R360): OFF, Detect and the training from it, Recovery, L0. -/
inductive Phase where
  | off | detect | recovery | l0
deriving DecidableEq, Repr

/-- The check code that a flit carries wrong (04 R73): of the halves named in the latency-optimized layout, of the flit, or of the TLP. -/
inductive WrongCrc where
  | halves (first second : Bool)
  | flit
  | lcrc
deriving DecidableEq, Repr

/-- An entry of a link's replay buffer (04 R66, R68, R73, R81; 13 R256): sequence, cell, number of the wire flit or TLP within its
cell, kept back by an injection, sent with known-bad transmissions only so far, sent poisoned, `lost`: poisoned because its rebuild
failed. -/
structure REnt where
  seq     : Nat
  cell    : Nat
  piece   : Nat
  held    : Bool
  stomped : Bool
  poison  : Bool
  lost    : Bool
deriving DecidableEq, Repr

/-- A link, at its lead (03, 04). `fullW`: lanes trained before any degrade; `exTx`, `exRx`: an exit to ACTIVE is under way;
`rxW`, `txW`: lanes of a narrowed direction; `recAt`, `recW`: tick of the last entry into Recovery, and the lanes that its receive
direction used until then; `credit`: what the far end grants, by class; `owed`: credits owed to it, by class; `cells`: cells held
for credits that it has (05 R89), and `flit`: those whose credits the flit that comes in has used, and no message of it yet; `resume`:
where a replay stopped at a marked cell (04 R75); `sending`: the flits on the wire, and the tick at which each has left; `rxHalf`: received
flit whose second half has not come; `rxAgain`: one sent again by halves, whose first has come (04 R75). -/
structure LinkS where
  phase    : Phase
  far      : Option FarEnd
  rev      : Bool
  fullW    : Nat
  retryAt  : Option Nat
  exTx     : Bool
  noPath   : Bool
  replay   : List REnt
  replays  : Nat
  ackFrom  : Option Nat
  credit   : Tbl Nat
  inj      : Option (Nat × Nat × Nat)
  swapHeld : Option (Nat × Option WrongCrc)
  idleTx   : Nat
  idleRx   : Nat
  busyTx   : Bool
  busyRx   : Bool
  exRx     : Bool
  draws    : Nat
  creditWait : Bool
  owed     : Tbl Nat
  cells    : Nat
  flit     : Nat
  rxW      : Nat
  txW      : Nat
  recAt    : Nat
  recW     : Nat
  resume   : Option Nat
  sending  : List (Nat × Nat)
  rxHalf   : Option Nat
  rxAgain  : Option (Nat × List RxMsg)
deriving DecidableEq, Repr

/-- A lane's detectors (03 R54, R55): `since` is the first tick of the run; of the slot so far: LOL assertions, LOS and LOL seen,
failure declared, a tick at which the lane was not expected active. `failed`: declared failed and not re-admitted. -/
structure LaneS where
  los : Bool
  lol : Bool
  since : Option Nat
  lolSlot : Nat
  sLos : Bool
  sLol : Bool
  sFail : Bool
  sIdle : Bool
  failed : Bool
deriving DecidableEq, Repr

/-- A running margining scan (03 R63). -/
structure MarginS where
  ctl  : Nat
  ctx  : Option Ctx
  step : Nat
  due  : Nat
deriving DecidableEq, Repr

/-- The links, lanes and scans; groups with PRSNT_N asserted; the route table of trunks; PORT_STATE commands that wait for
their link to stop. -/
structure Ports where
  links  : Tbl LinkS
  lanes  : Tbl LaneS
  scans  : List MarginS
  prsnt  : List Nat
  trnkRt : Tbl (Bool × Nat)
  waits  : List (Nat × Ctx)
deriving DecidableEq, Repr

/-! ### Canopy core (file 05) -/

/-- How a forwarded request ends: with data (poisoned or not), with an error status, or as though its target were unreachable
(04 R71). -/
inductive FwdEnd where
  | ok (data : Nat) (poison : Bool)
  | err
  | down
deriving DecidableEq, Repr

/-- An input of a tile (05 R91). -/
inductive Inp where
  | link (lead : Nat)
  | bundle (peer : Nat)
  | agent (kind : Nat)
deriving DecidableEq, Repr

/-- The allowance a cell counts against (05 Table 5.3). -/
inductive Allow where
  | ing (lead : Nat)
  | egr (lead : Nat)
  | arr (peer : Nat)
  | agent (kind : Nat)
deriving DecidableEq, Repr

/-- Where a cell stands (05 R84, R91-R98). `waiting`: messages for which no cell can be allocated yet (05 R87, R104; log 125);
`kept`: transferred, but its flit is not verified (05 R90). -/
inductive Stage where
  | opened
  | waiting
  | kept
  | voq
  | moving (dst : Nat)
  | copy (src : Nat)
  | unlinked
  | egress
  | sent
deriving DecidableEq, Repr

/-- A received flit whose cells are in use (05 R90; 04 R72, R75): link, sequence number, classes of the credits it used, whether
both halves are verified, T0 if it is tagged. -/
structure RxGrp where
  id   : Nat
  lead : Nat
  seq  : Nat
  classes : List Nat
  sure : Bool
  t0   : Option Nat
deriving DecidableEq, Repr

/-- How a request ends at its requester (06 Table 6.4, 08 Table 8.2). -/
inductive Rsp where
  | drs | ndr | cplOk | cplUr | cplCa
deriving DecidableEq, Repr

/-- A response as it leaves on the link of its requester. -/
structure RspRec where
  lead   : Nat
  tag    : Nat
  kind   : Rsp
  data   : Nat
  poison : Bool
  md     : MetaVal
deriving DecidableEq, Repr

/-- A cell in use: the header of Table 5.2, the data words and XOR word of Table 5.1, and where it stands. `grp`: the received flit
it came from; `orig`: the ingress cell of which it is a copy; `late`: its units that lie in its flit's second half; `isOpen`:
further messages may join; `homes`: the requests that it carries to a home (08 R154); `rsps`: the responses of the module's own that
it carries to the egress of their requester's link; `hdrBad`: its header was read with a double error; `sizes`: units of its
messages; `reads`: tags of those that are CXL.mem reads. -/
structure Cell where
  id    : Nat
  tile  : Nat
  bad   : Bool
  pois  : Bool
  srck  : Bool
  src   : Nat
  out   : Nat
  part  : Nat
  tc    : Nat
  oc    : Nat
  ro    : Bool
  bseq  : Nat
  pseq  : Nat
  slots : Nat
  arr   : Nat
  tagged : Bool
  dmod  : Nat
  dport : Nat
  words : List DWord
  xor   : DWord
  inp   : Inp
  allow : Allow
  tc3r  : Bool
  stage : Stage
  grp   : Option Nat
  orig  : Nat
  late  : List Nat
  isOpen : Bool
  hdrBad : Bool
  sizes : List Nat
  tags  : List Nat
  reads : List Nat
  fwds  : List Nat
  homes : List Nat
  rsps  : List RspRec
  fails : Nat
  stamps : List Nat
deriving DecidableEq, Repr

/-- The cells in use and what the schedulers keep: bundle numbers, grant and accept pointers, unmatched decisions, transfers
to repeat, retired paths and channels, posted cells linked and gone, subclass rotation, good transfers held behind a repeat,
received flits in use, responses in the agents' reorder buffers (05 R104). -/
structure Core where
  cells  : List Cell
  nextId : Nat
  bseqTx : Tbl Nat
  bseqRx : Tbl Nat
  gptr   : Tbl Nat
  aptr   : Tbl Nat
  starve : Tbl Nat
  repeats : List Nat
  paths  : Tbl Nat
  chans  : Tbl Nat
  posted : Tbl Nat
  postedGone : Tbl Nat
  rot    : Tbl Nat
  doneHeld : List Nat
  grps   : List RxGrp
  nextGrp : Nat
  rob    : List (Nat × FwdEnd)
deriving DecidableEq, Repr

/-! ### Bindings, requests, devices (file 06) -/

/-- A binding entry, field by field (06 Table 6.1). `qstop` is QSTATE. -/
structure Binding where
  valid    : Bool
  kind     : Nat
  stopped  : Bool
  shared   : Bool
  earlyAck : Bool
  locked   : Bool
  errmode  : Bool
  tc       : Nat
  part     : Nat
  size     : Nat
  rights   : Nat
  sgrp     : Nat
  ld       : Nat
  ldv      : Bool
  gen      : Nat
  hoff     : Nat
  dpa      : Nat
  out      : Nat
  dmod     : Nat
  dport    : Nat
  dpart    : Nat
  qstop    : Bool
deriving DecidableEq, Repr

/-- What a change of a binding entry does at its Tc (06 R117, R121-R123). -/
inductive BChange where
  | place (b : Binding)
  | stop
  | start
  | remove
  | kill
deriving DecidableEq, Repr

/-- A change dispatched at tick `since` and not yet visible (06 R117): command, its opcode, and what `drain` says of a removal: the
entry's requests and WAB entries are waited for (06 R122). -/
structure BPend where
  idx    : Nat
  what   : BChange
  ctx    : Option Ctx
  opcode : Nat
  drain  : Bool
  since  : Nat
deriving DecidableEq, Repr

/-- A BIND_DEL or BIND_STOP that waits: on the host until `deadline`, or (none) for completion of requests since `tc`;
`posted`: the host released the extent of its own, and DC_RELEASED ends the wait. -/
structure BWait where
  idx      : Nat
  del      : Bool
  ctx      : Option Ctx
  deadline : Option Nat
  posted   : Bool
  tc       : Nat
  entry    : Binding
deriving DecidableEq, Repr

/-- How a request came over a trunk: target link, logical device and traffic class of its delivery (06 R118, 04 Table 4.5), its routing
header (05 R83), and T0 of a tagged flit (13 R258). -/
structure Via where
  out : Nat
  ld  : Nat
  tc  : Nat
  hdr : DWord
  t0  : Option Nat
deriving DecidableEq, Repr

/-- A request at its lookup, or held (06 R124): name, tile, link, partition, virtual port it came from, binding if that holds
it, deadline of its hold, whether it only waits behind an earlier CXL.io request, and how it came over a trunk. -/
structure Held where
  id       : Nat
  tile     : Nat
  lead     : Nat
  part     : Nat
  fromVp   : Option Nat
  bind     : Option Nat
  req      : Req
  deadline : Option Nat
  behind   : Bool
  via      : Option Via
deriving DecidableEq, Repr

/-- Why a CXL.io or memory request waits at its ingress (07 R133, R140; 06 R124). -/
inductive IoWhy where
  | drain (ids : List Nat)
  | wabLine (out ld dpa : Nat)
  | order
deriving DecidableEq, Repr

structure IoWait where
  id     : Nat
  lead   : Nat
  part   : Nat
  fromVp : Option Nat
  req    : Req
  why    : IoWhy
  fence  : Bool
deriving DecidableEq, Repr

/-- Who awaits a forwarded request's response (05 Table 5.5). -/
inductive Agent where
  | host | wab (tile id : Nat) | alc (tile loq : Nat) | atomic (tile loq : Nat) | dma | home (tile loq : Nat)
deriving DecidableEq, Repr

/-- A request forwarded to a target and not completed (06 R123, 10 R190). `late`, `lateB`: it arrived after the Tc of a stop of its
partition, of its binding, that still lasts; `dropped`: its response is discarded; `own`: an agent of the module sent it, and it is
not the host's own cell; `tc`: its traffic class, which its response has too (05 Table 5.5); `via`: how it came over a trunk. -/
structure Fwd where
  id     : Nat
  agent  : Agent
  part   : Nat
  bind   : Option Nat
  lead   : Nat
  fromVp : Option Nat
  req    : Req
  out    : Nat
  ld     : Nat
  dpa    : Nat
  posted : Bool
  own    : Bool
  late   : Bool
  lateB  : Bool
  dropped : Bool
  job    : Option Nat
  tc     : Nat
  via    : Option Via
deriving DecidableEq, Repr

/-- A CXL.io request to BAR2 that became several requests (06 R361): parts still out, bytes gathered so far, outcome. -/
structure IoJob where
  id     : Nat
  part   : Nat
  lead   : Nat
  fromVp : Option Nat
  req    : Req
  left   : Nat
  data   : Nat
  fail   : Bool
  poison : Bool
deriving DecidableEq, Repr

/-- A virtual port (06 R125, R126): bound link, slot power, HP_REMOVE that waits with its deadline, device lost, Unsupported
Requests logged; HP_ADD that waits for presence; what its host programs: secondary and subordinate bus numbers, first and last
address of the memory and of the prefetchable window, slot control, ACS control; the change bits of slot status. -/
structure Vp where
  lead  : Option Nat
  pwr   : Bool
  rm    : Option (Ctx × Nat)
  lost  : Bool
  ur    : Nat
  add   : Option Ctx
  bus   : Nat × Nat
  mem   : Nat × Nat
  pref  : Nat × Nat
  slot  : Nat
  acs   : Nat
  sts   : Nat
deriving DecidableEq, Repr

structure Maps where
  binds    : Tbl Binding
  pend     : List BPend
  waits    : List BWait
  cache    : Tbl (List Nat)
  scrub    : Nat
  held     : List Held
  ioWait   : List IoWait
  fwds     : List Fwd
  jobs     : List IoJob
  offers   : List Nat
  extents  : List Nat
  vps      : Tbl Vp
  faultSlot : List (Nat × Nat)
  urLog    : Tbl Nat
  caLog    : Tbl Nat
  decFail  : Tbl Nat
  nextId   : Nat
  window   : List (Nat × Nat × Binding)
deriving DecidableEq, Repr

/-! ### Partitions (file 10) -/

/-- A partition behind its registers (10 R188-R202): tick of the stop (its Tc), QTMO deadline, PART_STOP commands that wait,
reset in progress since, reset commands that wait, BIND commands that wait for the stop, whether the reset ends STOPPED, and
the snoops that were open toward its host when the reset began. -/
structure PartS where
  stopAt   : Option Nat
  qDue     : Option Nat
  stopCtx  : List Ctx
  resetAt  : Option Nat
  resetCtx : List Ctx
  later    : List BPend
  laterDel : List (Ctx × Nat × Nat)
  intoStop : Bool
  snoops   : List Nat
deriving DecidableEq, Repr

/-! ### Write acceptance (file 07) -/

/-- A line: target link, logical device, DPA[51:6] (08 R150). -/
structure LineId where
  out  : Nat
  ld   : Nat
  line : Nat
deriving DecidableEq, Repr

/-- A WAB entry (07 R129-R136). `outs` forwards and `re` reissues outstanding; `lost`: the data is lost (R148); `det`: its link has
passed through Detect since its last forward or reissue (R136). -/
structure WabE where
  id       : Nat
  tile     : Nat
  part     : Nat
  bind     : Nat
  out      : Nat
  ld       : Nat
  dpa      : Nat
  mask     : ByteMask
  data     : LineData
  stranded : Bool
  outs     : Nat
  re       : Nat
  deadline : Nat
  err      : Bool
  lost     : Bool
  born     : Nat
  det      : Bool
deriving DecidableEq, Repr

/-- What a drain is for (07 Table 7.1, 10 R190, R200). -/
inductive DrainFor where
  | fence | device | error | reset | stop
deriving DecidableEq, Repr

/-- A drain of a partition that began at tick `start` (07 R139). Its cut: the WAB entries of the partition allocated by then, and the
lines of the ALC that were DIRTY under it, by tile (08 R165). -/
structure Drain where
  id    : Nat
  part  : Nat
  start : Nat
  lines : List (Nat × LineId)
  why   : DrainFor
deriving DecidableEq, Repr

/-- WRITE_LOSS bookkeeping of a binding (07 R135). -/
structure LossNote where
  noted : Bool
  clean : Bool
  recov : Nat
deriving DecidableEq, Repr

/-- The WAB (07). `bad`: entries that hold an upset which no read has found, by tile, with the number of their block (R148). -/
structure Wab where
  ents     : List WabE
  nextId   : Nat
  drains   : List Drain
  notes    : Tbl LossNote
  wait     : Option Nat
  pwrDrain : Option Nat
  plr      : List (Nat × Nat × Nat)
  plrValid : Bool
  plrTrunc : Nat
  fseq     : Tbl Nat
  lastFence : Tbl Nat
  bad      : List (Nat × Nat × Nat)
deriving DecidableEq, Repr

/-! ### Coherence (file 08) -/

inductive SnoopKind where
  | inv | data | cur
deriving DecidableEq, Repr

/-- Kinds of LOQ request (08 Table 8.2, R159, R167, R317). -/
inductive LoqKind where
  | mem | io | atomic | reserve | cond
deriving DecidableEq, Repr

/-- Stages of a request at its home (08 R154-R172). -/
inductive LoqStage where
  | travel | queued | snooping | waitWab | reading | filling | near | poisoning
deriving DecidableEq, Repr

/-- A request at, or on its way to, its home (08 R154). -/
structure LoqE where
  id      : Nat
  tile    : Nat
  part    : Nat
  lead    : Nat
  fromVp  : Option Nat
  line    : LineId
  bind    : Nat
  group   : Nat
  kind    : LoqKind
  req     : Req
  order   : Nat
  stage   : LoqStage
  stations : List Nat
  localDone : Bool
  snooped : List Nat
  mergedMask : ByteMask
  mergedData : LineData
  timedOut : List Nat
  dropRsp : Bool
  late    : Bool
  lateB   : Bool
  job     : Option Nat
  plan    : Nat
deriving DecidableEq, Repr

/-- How a snoop ended (08 Table 8.1). -/
inductive HRsp where
  | inv | shared | timeout
deriving DecidableEq, Repr

/-- A BISnp (08 R152): station, member partition and its link, LOQ entry, deadline, conflict, BIRsp held, WB_ACKs that it waits for, and
how it ended. -/
structure Snoop where
  id       : Nat
  tile     : Nat
  part     : Nat
  lead     : Nat
  loq      : Nat
  line     : LineId
  kind     : SnoopKind
  deadline : Nat
  conflict : Bool
  heldRsp  : Option HRsp
  wbLeft   : Nat
  wbMerged : Bool
  got      : Option HRsp
deriving DecidableEq, Repr

/-- A Halo message under way (08 Table 8.1). -/
inductive HaloMsg where
  | bcast (loq : Nat) (line : LineId) (group : Nat) (kind : SnoopKind) (excl : Option Nat)
  | resp (loq station : Nat) (members : List (Nat × HRsp))
  | wback (lead : Nat) (line : LineId)
  | fence (part group : Nat)
deriving DecidableEq, Repr

/-- A message, at the station that holds it; `fails`: in a row on the link in direction `up` (true: ascending). -/
structure HaloE where
  id    : Nat
  src   : Nat
  dst   : Nat
  msg   : HaloMsg
  fails : Nat
  up    : Bool
deriving DecidableEq, Repr

/-- An ALC line (08 R162). `wback`: it is being written back; `drop`: it leaves the cache with that writeback (R164). -/
structure AlcL where
  tile   : Nat
  line   : LineId
  excl   : Bool
  dirty  : Bool
  resv   : Bool
  pois   : Bool
  fill   : Nat
  bind   : Nat
  data   : LineData
  used   : Nat
  wback  : Bool
  drop   : Bool
deriving DecidableEq, Repr

/-- State of a reservation (08 Table 8.6). -/
inductive ResvSt where
  | valid | lostStore | lostEvict | lostError | lostBind
deriving DecidableEq, Repr

/-- A reservation slot and its record at the home (08 R171). -/
structure Resv where
  part  : Nat
  reqId : Nat
  pasid : Option Nat
  tile  : Nat
  line  : LineId
  bind  : Nat
  st    : ResvSt
  order : Nat
deriving DecidableEq, Repr

/-- The homes and stations (08). `haloDown`: retired links, by station and direction; `alcBad`: ALC lines that hold an upset which no
read has found, with the number of their block; `found`: upsets that writebacks have found and that are still to be raised, with the
partition where the line is lost. -/
structure Home where
  sgMem    : Tbl Nat
  sgStage  : Tbl (Option Nat)
  sgFenced : Tbl Nat
  nma      : Tbl (Bool × Nat)
  loq      : List LoqE
  snoops   : List Snoop
  halo     : List HaloE
  haloDown : List (Nat × Bool)
  wbs      : List (Nat × LineId)
  alc      : List AlcL
  pred     : Tbl Nat
  predEpochs : Nat
  slots    : List Resv
  nextId   : Nat
  useSeq   : Nat
  alcBad   : List (Nat × LineId × Nat)
  found    : List (Nat × Option Nat)
deriving DecidableEq, Repr

/-! ### Egress scheduling (file 09) -/

structure Shaper where
  en    : Bool
  rate  : Nat
  burst : Nat
  tokens : Nat
  stage : Nat
deriving DecidableEq, Repr

/-- Egress queues and shapers: quanta and settings that wait carry the fabric time of their commit. -/
structure Egr where
  quanta   : Tbl Nat
  deficits : Tbl Nat
  quantaNew : Tbl (Option (Nat × Nat))
  shapers  : Tbl Shaper
  shpNew   : Tbl (Option (Bool × Nat × Nat × Nat))
  visit    : Tbl (Option Nat)
  last     : Tbl Nat
  rot      : Tbl Nat
  smp      : Tbl (Nat × Nat)
deriving DecidableEq, Repr

/-! ### Management (file 11) -/

/-- A completion (11 Table 11.3). -/
structure Cpl where
  ctx     : Ctx
  opcode  : Nat
  status  : Nat
  interim : Bool
  r0      : Nat
  r1      : Nat
  time    : Nat
deriving DecidableEq, Repr

/-- A dispatched command without its final completion: in flight, or scheduled (its interim done), ORD wait, orphan. -/
structure Flying where
  ctx    : Ctx
  opcode : Nat
  sched  : Bool
  orphan : Bool
deriving DecidableEq, Repr

/-- Round-robin place of an endpoint (11 R210): credits left and burst of the round, by queue; queue visited; burst left. -/
structure Rr where
  credit : List (Nat × Nat × Nat)
  pos    : Nat
  burst  : Nat
deriving DecidableEq, Repr

/-- An event (11 Table 11.7): payload as (byte offset, value) pairs. -/
structure Event where
  seq  : Nat
  typ  : Nat
  queue : Nat
  copy : Bool
  time : Nat
  payload : List (Nat × Nat)
deriving DecidableEq, Repr

/-- A command whose effect waits for a boundary (17 Table 17.12a, 11 R221): epoch or refill slot, fabric time of the write. -/
structure Due where
  epoch  : Bool
  time   : Nat
  ctx    : Ctx
  opcode : Nat
deriving DecidableEq, Repr

/-- What posts to a full event queue have overwritten in tick `tick`: `gone`, oldest first; `next` and `lost` are MQ_EVQ_NEXT and
MQ_EVQ_LOST before the first of them (11 R223). -/
structure EvOver where
  tick : Nat
  gone : List Event
  next : Nat
  lost : Nat
deriving DecidableEq, Repr

/-- What the queue engine keeps. `mgmtUp`: endpoints whose link is in L0; `lost`: endpoints whose link was lost and has not come
back (12 R233); `cplErr`: by queue, how many writes of completions succeed before the one that meets an error; `ordWait`: queues whose
next command was found waiting under ORD; `parked`: commands dispatched while no core is active, which the new one executes (12 R238);
`cache`: by queue, the commands fetched and not dispatched, oldest first (11 R211); `gens`: by endpoint, its resets (11 R217);
`msixTab`, `pba`: MSI-X table entries and pending bits, by endpoint and vector (11 R203). -/
structure Mq where
  ovw     : Tbl (Option EvOver)
  flying  : List Flying
  heldCpl : Tbl (List Cpl)
  rr      : Tbl Rr
  lost    : List Nat
  evqs    : Tbl (List Event)
  timers  : Tbl (Option Nat)
  mgmtUp  : List Nat
  cplErr  : Tbl (Option Nat)
  dumpBuf : Tbl (Option (Nat × Nat))
  due     : List Due
  ordWait : List (Nat × Nat)
  parked  : List (Ctx × SqEntry)
  cache   : Tbl (List (BitVec 512))
  gens    : Tbl Nat
  msixTab : Tbl (BitVec 128)
  pba     : List Nat
deriving DecidableEq, Repr

/-! ### Fault collection (file 12) -/

/-- Handling of a source that is open (12 R230): reaction, link and partition concerned, tick. -/
structure Handling where
  react : Nat
  link  : Option Nat
  part  : Option Nat
  tick  : Nat
deriving DecidableEq, Repr

/-- A fault source (12 R227-R235; 17 R329). PAIR: 0 idle, 1 asserted, 2 broken. `opens`: its handling that is open; `asTick`: tick of its
last assertions, `asOpen`: one of them opened handling, `merged`: those of them that merged on the sticky bit, as (partition, link,
broken pair). `drive`: the tick until which an injection drives both rails of the pair (12 R241). -/
structure SrcS where
  sticky : Bool
  opens  : List Handling
  pair   : Nat
  react  : Option Nat
  cnt    : Nat
  asTick : Option Nat
  asOpen : Bool
  merged : List (Option Nat × Option Nat × Nat)
  drive  : Option Nat
deriving DecidableEq, Repr

/-- FATAL handling (12 R242): tick, fabric time and source of the assertion, mode before, frozen at. -/
structure Fatal where
  tick   : Nat
  time   : Nat
  src    : Nat
  mode   : Nat
  frozen : Option Nat
  ranOut : Bool
deriving DecidableEq, Repr

/-- One item of a dump's WAB section (12 Table 12.10). -/
structure DumpItem where
  part : Nat
  kind : Nat
  out  : Nat
  bind : Nat
  ld   : Nat
  dpa  : Nat
  mask : ByteMask
  data : LineData
deriving DecidableEq, Repr

/-- A section of a dump (12 Tables 12.7, 12.8): its words that the manual lays out, and after them the words whose layout it
leaves open, of which `seed` names the free values; `fixed`: the words among these that it does lay out, by position. -/
structure DumpSect where
  typ   : Nat
  inst  : Nat
  trunc : Bool
  offset : Nat
  items : Nat
  itemLen : Nat
  known : List Nat
  rest  : Nat
  seed  : Nat
  fixed : List (Nat × Nat)
deriving DecidableEq, Repr

/-- A Bivouac dump (12 R246): `limit` is the length of its destination, none for the staging copy only; `lead`, `ld`: the device of a
dump that goes to the segment. -/
structure Dump where
  seq     : Nat
  trigger : Nat
  dest    : Nat
  addr    : Nat
  lead    : Nat
  ld      : Nat
  limit   : Option Nat
  mode    : Nat
  ranOut  : Bool
  tFault  : Nat
  tFreeze : Nat
  fwver   : Nat
  items   : List (Nat × DumpItem)
  sects   : List DumpSect
  done    : Bool
deriving DecidableEq, Repr

/-- A management core (12 R237, R238). -/
structure Core1 where
  alive : Bool
  fed   : Nat
deriving DecidableEq, Repr

/-- The header fields of an image that the manual reports (16 R310-R313). -/
structure RunImg where
  version : Nat
  svn     : Nat
  slot    : Nat
  digest  : Digest
deriving DecidableEq, Repr

/-- A live firmware activation (12 R239): command, step of R239, tick of the start of step 3, the image before, the new one. -/
structure FwJob where
  ctx   : Ctx
  step  : Nat
  since : Nat
  old   : Nat
  img   : RunImg
deriving DecidableEq, Repr

/-- What the collector and the cores keep. `takeover`: the standby core has yet to make its first feed as active core;
`seqs`: dumps started, counted in the non-volatile store. -/
structure Flt where
  srcs    : Tbl SrcS
  fatal   : Option Fatal
  cores   : Tbl Core1
  active  : Nat
  takeover : Bool
  wdogFed : Nat
  wdogOut : Bool
  dump    : Option Dump
  stagingWin : Option Dump
  segDumps : List Dump
  seqs    : Nat
  ember   : Bool
  emberHeld : Bool
  staging : List Host.Cell
  fw      : Option FwJob
deriving DecidableEq, Repr

/-! ### Telemetry (file 13) -/

/-- A snapshot record (13 R253): the values of the banks that are not all 0, by bank entry and counter. -/
structure Snap where
  seq     : Nat
  epoch   : Nat
  skipped : Nat
  flags   : Nat
  vals    : Tbl Nat
  perr    : List Nat
  asleep  : List Nat
deriving DecidableEq, Repr

/-- A Skylight record that found the ring full: it waits for the end of its tick, since a head write of the tick comes first
(13 R261). -/
structure SkyHeld where
  tick  : Nat
  time  : Nat
  bytes : List Nat
deriving DecidableEq, Repr

/-- Telemetry behind its registers. `perr`: counters that restarted since their last snapshot word; `skyPend`: fabric time of a
SKYLIGHT_SET whose ring starts at the next refill slot; `early`: what counters have counted in the tick of an epoch boundary before the
boundary was acted on (R252); `struck`: counters whose stored value no longer fits its parity; `parErr`: one of them has failed on an
increment, and the source is still to be raised (R254). -/
structure Tel where
  ctrs    : Tbl Nat
  early   : Tbl Nat
  perr    : List Nat
  latchHi : Tbl Nat
  snapNow : Option Snap
  snapWin : Option Snap
  snapSeq : Nat
  skips   : Nat
  rseq    : Nat
  skySlot : Tbl Nat
  dropRun : Bool
  skyPend : Option Nat
  skyWait : List SkyHeld
  struck  : List Nat
  parErr  : Bool
deriving DecidableEq, Repr

/-! ### Guyline (file 14) -/

/-- A ring port (14 R266, R279): 0 DOWN, 1 LOCKING, 2 UP; lock lost since; samples of the delay. -/
structure GPort where
  st      : Nat
  lostAt  : Option Nat
  nbr     : Nat
  delays  : List Nat
  dlyOk   : Bool
deriving DecidableEq, Repr

/-- A member of the ring (14 R277). -/
structure Member where
  modid  : Nat
  beat   : Beat
  missed : Nat
  heard  : Bool
deriving DecidableEq, Repr

/-- A sequenced frame kept for replay (14 R276). -/
structure GFrame where
  dst  : Nat
  seq  : Nat
  sync : Bool
  typ  : Nat
  body : List Nat
deriving DecidableEq, Repr

/-- A request slot (14 R283). -/
structure GSlot where
  dst    : Nat
  part   : Nat
  inst   : Nat
  st     : Nat
  status : Nat
  sidx   : Nat
deriving DecidableEq, Repr

/-- The ring interface. `taps`: tick at which the opening of the bypass began; `bytes`: sent in the epoch; `lowMaster`, `lowAge`:
the lowest master heard, and whether an epoch boundary has passed since; `hbAt`, `dlyAt`: fabric time of the last heartbeat and
delay exchange; `sentEpoch`: epoch of the last TIME frame sent; `timeSeen`: a TIME frame of this epoch has been used; `lowHeard`: a
master with a lower MODID has been heard in this epoch. -/
structure Glr where
  inP     : GPort
  outP    : GPort
  bypass  : Bool
  taps    : Option Nat
  members : List Member
  rxExp   : Tbl (Option Nat)
  txSeq   : Tbl (Option Nat)
  ackDue  : Tbl (Option (Nat × Nat))
  nakAt   : Tbl (Option Nat)
  frames  : List GFrame
  rplFrom : Tbl (Option Nat)
  slots   : Tbl GSlot
  bytes   : Nat
  lowMaster : Option Nat
  lowAge  : Nat
  dlyNum  : Nat
  dlyAt   : Nat
  hbAt    : Nat
  sentEpoch : Option Nat
  queue   : List GFrame
  waitSeq : List (Nat × Nat × List Nat)
  timeSeen : Bool
  lowHeard : Bool
deriving DecidableEq, Repr

/-! ### Power, resets, pins, I3C (files 15, 18) -/

/-- State of the input path (15 Table 15.12 PATH). -/
inductive PathSt where
  | opened | precharge | ramp | closed | holdup | backoff
deriving DecidableEq, Repr

/-- The power controller. `pathFrom`: tick at which the path's state began; `ov`: an opening at VIN_OV whose VIN_OV_CLEAR has
not come; `why` of a hold-up: 0 VIN_UV, 1 trip, 2 VIN_OV; `lowAt`: VIN is below VSTBY since; `drops`: lost phases by rail;
`unreg`: rails out of ±5 %; `reclose`: a reclosure ramp runs; `brk`: 0 START, 1 SERVICE; `stFrom`: tick at which the self-test
began; `timers`: the point timers, in evaluation periods; `ran`: the fault timer has run in the last period; `diffFor`, `sameFor`: periods
in a row in which the check of the main path has failed, and has passed; `rails`: rails that have come up, in the order of R286. -/
structure Pwr where
  vin     : Nat
  path    : PathSt
  pathFrom : Nat
  ov      : Bool
  fails   : Nat
  trips   : Nat
  cause   : Nat
  point   : Nat
  latched : Bool
  why     : Nat
  lowAt   : Option Nat
  brk     : Nat
  stTest  : Bool
  stFail  : Bool
  warn    : Bool
  full    : Bool
  vstore  : Nat
  measFb  : Bool
  pgInt   : Bool
  pgFrom  : Nat
  reclose : Bool
  drops   : List (Nat × Nat)
  unreg   : List Nat
  curve   : List (Bool × Nat × Nat)
  curveNew : Option (Nat × List (Bool × Nat × Nat))
  energy  : Nat
  adcI    : Nat
  adcP    : Nat
  stFrom  : Nat
  timers  : List Nat
  ran     : Bool
  diffFor : Nat
  sameFor : Nat
  rails   : Nat
deriving DecidableEq, Repr

/-- Resets: last cause, the pins RESET_N (true: high) and REFCLK (true: runs), REFCLK_OK, REFCLK outputs on; cause of a warm
reset that is held; tick at which the one in progress was taken; tick of a cold reset by MOD_RESET or REFCLK loss whose start has
not begun; tick from which MOD_BOOT_TIME counts. -/
structure Rst where
  cause     : Nat
  resetN    : Bool
  refclk    : Bool
  refOk     : Bool
  refOut    : Bool
  warmHeld  : Option Nat
  warmAt    : Option Nat
  inReset   : Bool
  coldAt    : Option Nat
  bootFrom  : Nat
deriving DecidableEq, Repr

/-- The I3C target and the temperature record: dynamic address, selected register, latched high bytes by their address, in-band
interrupt enabled, dies at or above 105 °C, TJ_TRIP, last reading of each die (a byte), LATCH_ERR. -/
structure I3c where
  addr    : Option Nat
  sel     : Nat
  hi      : Tbl Nat
  ibi     : Bool
  tjWarn  : List Nat
  tjTrip  : Bool
  tj      : Tbl (Option Nat)
  latchErr : Bool
deriving DecidableEq, Repr

/-! ### Security (file 16) -/

/-- A token under verification: path (0 command, 1 JTAG), command, token, tick of its arrival (16 R314). -/
structure TokJob where
  path  : Nat
  ctx   : Option Ctx
  tok   : Token
  since : Nat
deriving DecidableEq, Repr

/-- A request of an SPDM endpoint whose signature is being made: since when, and the response with the values of that clock (16 R313). -/
structure SpdmProc where
  since : Nat
  code  : Nat
  data  : List Nat
deriving DecidableEq, Repr

structure Sec where
  keys     : Tbl Nat
  keysSet  : Bool
  revoking : List Nat
  svnMin   : Option Nat
  svnNew   : Option Nat
  flash0   : Option (List Host.Cell)
  flash1   : Option (List Host.Cell)
  pref     : Option Nat
  running  : Option RunImg
  booted   : Nat
  noImage  : Bool
  fail0    : Nat
  fail1    : Nat
  flashBusy : Bool
  flashCopy : Nat
  flashRes : Nat
  spdm     : Tbl Nat
  spdmProc : Tbl (Option SpdmProc)
deriving DecidableEq, Repr

/-- What an access of the debug master has been answered: the target could not be reached, or the line (16 R317). -/
structure DbgAns where
  down : Bool
  line : LineData
deriving DecidableEq, Repr

/-- The debug block: tokens that wait, the access in progress: flags (bit 0 write, bit 1 of 8 bytes) and PMD offset, and what an access
that waits on a WAB entry was looked up as: partition, index and entry; the answer that has come for it. -/
structure Dbg where
  unlocked : Bool
  scope    : Nat
  serial   : Nat
  expires  : Option Nat
  nonce    : Option (BitVec 128)
  jobs     : List TokJob
  busy     : Bool
  access   : Option (Nat × Nat)
  denySlot : Bool
  waiting  : Option (Nat × Nat × Binding)
  answer   : Option DbgAns
deriving DecidableEq, Repr

/-! ### What the module says to the outside (the model's own record, in order) -/

/-- What the module sends. `sentFlit`: a flit with its check code that is wrong, if any, and the right check codes and FEC of its
data (04 R73, 05 R83); `stompFlit`: a flit on the wire ends with a wrong check code. `vpNotice` codes: 1 link lost, 2 link active, 3
presence, 4 attention button, 5 command completed, 6 presence lost. `aer`: an error logged by the PMD, signalled as its host has set
it; `upCpl`: a completion redirected to the host; `cplFrom`: the completer identifier, as rewritten, of the completion that follows
(06 R125). -/
inductive Out where
  | trailHop (router out : Nat) (p : TPkt)
  | trailDeliver (router sel : Nat) (p : TPkt)
  | trailCredit (router inp level flits : Nat)
  | niReply (dst typ tag : Nat) (vals : List Nat)
  | boundary (g : Nat) (p : TPkt)
  | rsp (lead tag : Nat) (kind : Rsp) (data : Nat) (poison : Bool) (md : MetaVal)
  | fenceWord (lead tag word size : Nat)
  | bisnp (lead snoop : Nat) (kind : SnoopKind) (line : LineId)
  | bicAck (lead snoop : Nat)
  | sentFlit (lead seq cell piece : Nat) (wrong : Option WrongCrc) (poison : Bool) (check : List Nat)
  | stompFlit (lead seq : Nat) (wrong : WrongCrc)
  | replayReq (lead seq : Nat)
  | creditRet (lead cls n : Nat)
  | trunkErr (smod tag : Nat) (kind : Rsp) (data : Nat) (poison : Bool)
  | upstream (lead vp : Nat) (r : Req)
  | upCpl (part tag id : Nat) (data : Option Nat)
  | cplFrom (lead tag id : Nat)
  | aer (part : Nat) (ca : Bool)
  | cpl (ep q index : Nat) (ph : Bool) (sqhead : Nat) (c : Cpl) (addr : Nat) (image : List Nat)
  | msix (ep vec : Nat)
  | dma (ep addr bytes : Nat) (words : List Nat)
  | segWrite (lead ld dpa bytes : Nat) (words : List Nat)
  | regData (src addr value : Nat)
  | urLog (src addr : Nat)
  | urRead (src addr : Nat)
  | hotReset (lead : Nat)
  | vpNotice (part vp code : Nat)
  | dcOffer (part idx : Nat)
  | dcAsk (part idx : Nat)
  | dcRefuse (part offset : Nat)
  | order (kind dst : Nat)
  | armed (idx inst : Nat) (nis : List Nat)
  | frameErr (outPort : Bool)
  | frame (outPort : Bool) (bytes : List Nat)
  | i3c (bytes : List Nat)
  | i3cAck (ok : Bool)
  | ibi (byte : Nat)
  | spdm (ep code : Nat) (data : List Nat)
  | jtag (data : Nat)
  | rails (up : Bool) (order : List Nat)
  | marginRsp (p lane : Nat) (ready : Bool)
  | linkMsg (lead code arg : Nat)
  | skyRec (ep addr : Nat) (bytes : List Nat)
  | timeCheck (value tick : Nat)
  | timeMsg (value tick : Nat)
deriving DecidableEq, Repr

/-- Levels of the output pins (15 Table 15.11): PG high; PWRWARN_N pulled low; EMBER (none: high impedance); bypass switches
closed; REFCLK outputs on; the x8 groups whose PERST_N is low; the cable lanes and the management ports: 0 high impedance, 1 electrical
idle, 2 as their links have them; the I3C target answers; PRES_N tied low; TDO driven. -/
structure Pins where
  pg     : Bool
  warn   : Bool
  ember  : Option Bool
  bypass : Bool
  refclk : Bool
  perst  : List Nat
  lanes  : Nat
  mg     : Nat
  i3c    : Bool
  presLow : Bool
  tdo    : Bool
deriving DecidableEq, Repr

/-! ### The state -/

/-- All that the module holds. `w1cNow`: write-1-to-clear bits that an event has set, and write-1-to-set bits written while their action
ran, each with the tick (17 R329). -/
structure State where
  time    : Nat
  tick    : Nat
  mode    : Mode
  regs    : Tbl Nat
  w1cNow  : List (Nat × Nat)
  rwe     : Tbl (Option (Nat × Nat))
  ftm     : Ftm
  sched   : List SchedEnt
  trail   : Trail
  ports   : Ports
  core    : Core
  maps    : Maps
  parts   : Tbl PartS
  wab     : Wab
  home    : Home
  egr     : Egr
  mq      : Mq
  flt     : Flt
  tel     : Tel
  glr     : Glr
  pwr     : Pwr
  rst     : Rst
  i3c     : I3c
  sec     : Sec
  dbg     : Dbg
  pins    : Pins
  free    : Nat
  out     : List Out
  pending : List Instr
deriving DecidableEq, Repr

/-- The module never answers a command with a fault of the model: every fault the manual describes is an effect on State.
The one constructor is kept for a command whose operands no step can have; nothing raises it today (safe). -/
inductive Fault where
  | impossibleOperand
deriving DecidableEq, Repr

/-- Why a command has no meaning. `notModelled`: raised by a dispatch arm whose command has no meaning yet (safe: it stops). -/
inductive Refusal where
  | notModelled (mnemonic : String)
deriving DecidableEq, Repr

/-! ### Reset values of the parts -/

def Binding.empty : Binding :=
  ⟨false, 0, false, false, false, false, false, 0, 0, 0, 0, 0, 0, false, 0, 0, 0, 0, 0, 0, 0, false⟩
def LinkS.reset : LinkS :=
  ⟨.off, none, false, 0, none, false, false, [], 0, none, [], none, none, 0, 0, false, false, false, 0,
    false, [], 0, 0, 0, 0, 0, 0, none, [], none, none⟩
def LaneS.reset : LaneS := ⟨false, false, none, 0, false, false, false, false, false⟩
def Vp.reset : Vp := ⟨none, true, none, false, 0, none, (0, 0), (1, 0), (1, 0), 0, 0, 0⟩
def PartS.reset : PartS := ⟨none, none, [], none, [], [], [], false, []⟩
def Shaper.reset : Shaper := ⟨false, 0, 4096, 0, 0⟩
def RouteEnt.reset : RouteEnt := ⟨false, 0, 0⟩
def SrcS.reset : SrcS := ⟨false, [], 0, none, 0, none, false, [], none⟩
def GPort.reset : GPort := ⟨0, none, 0xFF, [], false⟩
def GSlot.reset : GSlot := ⟨0, 0, 0, 0, 0, 0⟩
def Rr.reset : Rr := ⟨[], 63, 0⟩
def Core1.reset : Core1 := ⟨false, 0⟩
def LossNote.reset : LossNote := ⟨false, false, 0⟩

def Ftm.reset : Ftm := ⟨2 ^ 64, 2 ^ 64, none, none, 0, false, none, 0, false, none, none, 0, 0, 0⟩
def Trail.reset : Trail := ⟨[], false, [], [], 0, [], [], [], [], [], [], 0, [], [], [], [], 0⟩
def Ports.reset : Ports := ⟨[], [], [], [], [], []⟩
def Core.reset : Core := ⟨[], 0, [], [], [], [], [], [], [], [], [], [], [], [], [], 0, []⟩
def Maps.reset : Maps := ⟨[], [], [], [], 0, [], [], [], [], [], [], [], [], [], [], [], 0, []⟩
def Wab.reset : Wab := ⟨[], 0, [], [], none, none, Config.plrRows, Config.plrValid, Config.plrTrunc, [], [], []⟩
def Home.reset : Home := ⟨[], [], [], [], [], [], [], [], [], [], [], 0, [], 0, 0, [], []⟩
def Egr.reset : Egr := ⟨[], [], [], [], [], [], [], [], []⟩
def Mq.reset : Mq := ⟨[], [], [], [], [], [], [], [], [], [], [], [], [], [], [], [], []⟩
def Flt.reset : Flt :=
  ⟨[], none, [], 0, false, 0, false, none, none, [], 0, false, false, [], none⟩
def Tel.reset : Tel := ⟨[], [], [], [], none, none, 0, 0, 0, [], false, none, [], [], false⟩
def Glr.reset : Glr :=
  ⟨GPort.reset, GPort.reset, true, none, [], [], [], [], [], [], [], [], 0, none, 0, 0, 2 ^ 64, 2 ^ 64, none, [], [], false, false⟩

/-- The time-current curve at reset: (enabled, I_TRIP in 0.25 A, T in µs) (15 Table 15.4). -/
def curveReset : List (Bool × Nat × Nat) :=
  [(true, 0x208, 102400), (true, 0x230, 20480), (true, 0x258, 5120), (true, 0x294, 1000),
   (true, 0x2D0, 200), (true, 0x320, 50), (true, 0x370, 10), (true, 0x3C0, 2)]

def Pwr.reset : Pwr :=
  ⟨0, .opened, 0, false, 0, 0, 0, 0, false, 0, some 0, 0, false, false, false, false, 0, false, false, 0, false, [], [],
    curveReset, none, 0, 0, 0, 0, List.replicate 8 0, false, 0, 0, 0⟩
def Rst.reset : Rst := ⟨0, true, true, false, false, none, none, false, none, 0⟩
def I3c.reset : I3c := ⟨none, 0, [], false, [], false, [], false⟩
def Sec.reset : Sec :=
  ⟨[], false, [], none, none, none, none, none, none, 0, false, 0, 0, false, 0, 0, [], []⟩
def Dbg.reset : Dbg := ⟨false, 0, 0, none, none, [], false, none, false, none, none⟩

def Pins.reset : Pins := ⟨false, false, none, true, false, List.range 128, 0, 0, false, true, false⟩

/-- The module after a cold reset, with no input power (15 R301, 17 R331, R332; log 7); its debug nonce is a free value (log 162). -/
def State.reset : State where
  time    := 0
  tick    := 0
  mode    := .off
  regs    := []
  w1cNow  := []
  rwe     := []
  ftm     := Ftm.reset
  sched   := []
  trail   := Trail.reset
  ports   := Ports.reset
  core    := Core.reset
  maps    := Maps.reset
  parts   := []
  wab     := Wab.reset
  home    := Home.reset
  egr     := Egr.reset
  mq      := Mq.reset
  flt     := Flt.reset
  tel     := Tel.reset
  glr     := Glr.reset
  pwr     := Pwr.reset
  rst     := Rst.reset
  i3c     := I3c.reset
  sec     := Sec.reset
  dbg     := { Dbg.reset with nonce := some (Config.freeNonce 0) }
  pins    := Pins.reset
  free    := 1
  out     := []
  pending := []

end Sys2Proof.Machine
end

