-- ==== Sys2Proof/Machine/Ops.lean ====
section
/-!
DEFINITION. Sys2Proof/Machine/Ops.lean: the named operations that the meanings share: registers, time, events,
completions, the record of what the module sends.
-/
namespace Sys2Proof.Machine

/-- What a command answers. -/
abbrev Ans := Host.Outcome State Fault Refusal

/-- An update that depends on a condition. -/
def State.when (c : Bool) (f : State → State) (s : State) : State := if c then f s else s

/-- Apply an update for each element of a list, first to last. -/
def State.each {α : Type} (l : List α) (f : α → State → State) (s : State) : State := l.foldl (fun t a => f a t) s

/-- Something the module says to the outside. -/
def State.say (o : Out) (s : State) : State := { s with out := s.out ++ [o] }

/-- A value that the manual leaves open, and the state after it is drawn (log 1). -/
def State.draw (s : State) : Nat × State := (Config.freeNat s.free, { s with free := s.free + 1 })

/-! ### Registers -/

/-- The value of a field as last written (17 Table 17.12a). -/
def rd (s : State) (pg : Page) (f : Fld) : Nat := tget (resetVal pg f) s.regs (fkey pg f)

/-- A one-bit field. -/
def rdb (s : State) (pg : Page) (f : Fld) : Bool := rd s pg f != 0

/-- Set a field, cut to its width; the setting of a write-1-to-clear bit is noted with its tick (17 R329). -/
def wr (pg : Page) (f : Fld) (v : Nat) (s : State) : State :=
  { s with
    regs := tput (resetVal pg f) s.regs (fkey pg f) (v % 2 ^ f.width)
    w1cNow := if f.acc = .w1c ∧ v % 2 ^ f.width ≠ 0
      then (fkey pg f, s.tick) :: s.w1cNow.filter (fun e => e.2 == s.tick) else s.w1cNow }

/-- A write-1-to-set bit is written while its action runs: an end of the action in the same tick starts it anew (17 R329). -/
def noteAgain (pg : Page) (f : Fld) (s : State) : State :=
  { s with w1cNow := (fkey pg f, s.tick) :: s.w1cNow.filter fun e => e.2 == s.tick }

def againNow (s : State) (pg : Page) (f : Fld) : Bool := s.w1cNow.contains (fkey pg f, s.tick)

/-- Set a one-bit field. -/
def wrb (pg : Page) (f : Fld) (b : Bool) (s : State) : State := wr pg f b.toNat s

/-- Add to a counter that saturates at the limit of its field. -/
def bumpBy (pg : Page) (f : Fld) (n : Nat) (s : State) : State :=
  wr pg f (min (rd s pg f + n) (2 ^ f.width - 1)) s

/-- Count one in a saturating counter. -/
def bump (pg : Page) (f : Fld) (s : State) : State := bumpBy pg f 1 s

/-- The key of a staged RWE field: even for refill-slot effect, odd for epoch effect. -/
def rweKey (pg : Page) (f : Fld) : Nat := 2 * fkey pg f + (if f.acc = .rweEpoch then 1 else 0)

/-- The value of a field that is in force: for an RWE field whose write waits, the value before it (17 Table 17.12a). -/
def rdf (s : State) (pg : Page) (f : Fld) : Nat :=
  match tget none s.rwe (rweKey pg f) with
  | some (v, _) => v
  | none => rd s pg f

/-- A boundary of the field's kind falls in the present tick and has not been acted on. -/
def boundaryDue (s : State) (f : Fld) : Bool :=
  if f.acc = .rweEpoch then s.time % 2 ^ 17 == 0 && s.ftm.epochDone != s.time
  else s.time % 2 ^ 7 == 0 && s.ftm.slotDone != s.time

/-- A refill-slot boundary falls in this tick and has not been acted on. -/
def slotDue (s : State) : Bool := s.time % 128 == 0 && s.ftm.slotDone != s.time

/-- The value of an RWE field that holds for what comes in this tick: what was staged before it is in force once its boundary has come,
acted on or not. -/
def rdAt (s : State) (pg : Page) (f : Fld) : Nat :=
  match tget none s.rwe (rweKey pg f) with
  | some (v, t) => if boundaryDue s f && t != s.time then rd s pg f else v
  | none => rd s pg f

/-- Stage a write of an RWE field: it waits for the boundary; a write in the boundary tick waits for the following one, and
an earlier write that is due in this tick takes effect first (17 Table 17.12a). -/
def stage (pg : Page) (f : Fld) (v : Nat) (s : State) : State :=
  let k := rweKey pg f
  let old : Nat := match tget none s.rwe k with
    | some (o, t) => if boundaryDue s f && t != s.time then rd s pg f else o
    | none => rd s pg f
  { wr pg f v s with rwe := tput none s.rwe k (some (old, s.time)) }

/-- RWE_PEND of a page (17 Table 17.7). -/
def rwePend (s : State) (pg : Page) : Bool :=
  s.rwe.any fun e => e.1 / 2 / 8 / 0x1000 == pg.base / 0x1000

/-- A discarded write: CFG_REJECT and CFG_REJECT_CNT of the page (17 R325). -/
def reject (pg : Page) (s : State) : State :=
  s |> wr pg F.BLK_STS_CFG_REJECT 1 |> bump pg F.BLK_STS_CFG_REJECT_CNT

/-- Every field of a page back at its reset value, but for those kept. -/
def resetPage (pg : Page) (s : State) : State :=
  { s with
    regs := s.regs.filter fun e => e.1 / 8 / 0x1000 != pg.base / 0x1000
    rwe := s.rwe.filter fun e => e.1 / 2 / 8 / 0x1000 != pg.base / 0x1000 }

/-- A field's bits in a 32-bit value written to its register. -/
def Fld.of (f : Fld) (v : Nat) : Nat := bits v f.lo f.width

/-- Two's complement of an integer in `w` bits. -/
def toTwos (w : Nat) (i : Int) : Nat := (i % (2 ^ w : Nat)).toNat

/-- The signed value of `w` bits. -/
def ofTwos (w v : Nat) : Int := if v % 2 ^ w < 2 ^ (w - 1) then (v % 2 ^ w : Nat) else (v % 2 ^ w : Nat) - (2 ^ w : Nat)

/-- A field with its clamping applied to a value to be stored (17 R330). -/
def Fld.clamp (f : Fld) (v : Nat) : Nat :=
  if v < f.min ∧ f.clampLo then f.min else if f.max < v ∧ f.clampHi then f.max else v

/-- A value that a field refuses: outside its range with no treatment named (17 R330). -/
def Fld.bad (f : Fld) (v : Nat) : Bool := f.clamp v < f.min || f.max < f.clamp v

/-! ### Time -/

/-- REFCLK reaches the module, so ticks pass (18 R348). -/
def clockRuns (s : State) : Bool := s.rst.refclk

/-- `n` ticks pass (02 R27). -/
def passTicks (n : Nat) (s : State) : State :=
  if clockRuns s then { s with time := (s.time + n) % 2 ^ 64, tick := s.tick + n } else s

/-- The count moves on to tick `t`, when that lies ahead (02 R37; log 3). -/
def advanceTo (t : Nat) (s : State) : State := if s.tick < t then passTicks (t - s.tick) s else s

/-- A timer that expires at tick `t`: time moves on to it, then its action follows; nothing when the clock has stopped. -/
def atTick (t : Nat) (f : State → State) (s : State) : State :=
  if s.tick < t ∧ ¬ clockRuns s then s else f (advanceTo t s)

/-- The count moves on to the next fabric-time instant that is a multiple of `p` (the present one, when not yet acted on). -/
def advanceToMultiple (p done : Nat) (s : State) : State :=
  if s.time % p = 0 ∧ done ≠ s.time then s else passTicks (p - s.time % p) s

/-- Epoch number of the count (02 Table 2.1). -/
def epochOf (t : Nat) : Nat := t / 2 ^ 17

/-! ### Modes -/

/-- FLT_STS.MODE encoding (12 Table 12.13). -/
def Mode.code : Mode → Nat
  | .off => 0 | .precharge => 1 | .boot => 2 | .standby => 3 | .run => 4 | .degraded => 5 | .maintenance => 6
  | .fatalHold => 7

/-- STANDBY or later. -/
def Mode.isUp : Mode → Bool
  | .standby | .run | .degraded | .maintenance | .fatalHold => true
  | _ => false

/-- Traffic may run (15 Table 15.7). -/
def Mode.isLive : Mode → Bool
  | .run | .degraded | .maintenance => true
  | _ => false

/-- FATAL_HOLD: the tiles are frozen and every link is in electrical idle (12 R242). -/
def frozen (s : State) : Bool := s.mode == .fatalHold

/-- A tile, port or partition state machine runs: it is not frozen (12 R242). -/
def unfrozen (f : State → State) (s : State) : State := if frozen s then s else f s

/-- Pages that answer before STANDBY (15, after Table 15.10). -/
def earlyPage : Page → Bool
  | .mod | .pwr | .flt => true
  | _ => false

/-- FATAL_HOLD: writes to tile, port and partition pages are discarded (17 R322). -/
def holdsWrites (s : State) (pg : Page) : Bool := frozen s && pg.scope != 0

/-- The staged fields of one kind take effect, but for those written in this tick before the boundary was acted on, and those of pages
that are frozen (17 R322). -/
def rweApply (epoch : Bool) (s : State) : State :=
  let held (n : Nat) : Bool := match pageAt n with | some pg => holdsWrites s pg | none => false
  { s with rwe := s.rwe.filter fun e =>
      (e.1 % 2 == 1) != epoch || (match e.2 with | some (_, t) => t == s.time | none => false) || held (e.1 / 2 / 8 / 0x1000) }

/-- A register write reaches its page: dropped before STANDBY, rejected by a frozen page (15, after Table 15.10; 17 R322). -/
def regGate (pg : Page) (f : State → State) (s : State) : State :=
  if !s.mode.isUp && !earlyPage pg then s else if holdsWrites s pg then reject pg s else f s

/-! ### Events (11 R223, R225, R226) -/

/-- Events held by a queue. -/
def evList (s : State) (q : Nat) : List Event := tget [] s.mq.evqs q

/-- Set the events held by a queue. -/
def setEv (q : Nat) (l : List Event) (s : State) : State := { s with mq := { s.mq with evqs := tput [] s.mq.evqs q l } }

/-- Start or stop the idle-tail timer of an event queue. -/
def setEvTimer (q : Nat) (t : Option Nat) (s : State) : State :=
  { s with mq := { s.mq with timers := tput none s.mq.timers q t } }

/-- The link of a management endpoint is in L0. -/
def mgUp (s : State) (ep : Nat) : Bool := s.mq.mgmtUp.contains ep

/-- A vector of an endpoint in tables. -/
def vecKey (ep vec : Nat) : Nat := 2048 * ep + vec

/-- An MSI-X table entry at reset: masked (11 R203; log 8). -/
def msixReset : BitVec 128 := BitVec.ofNat 128 (2 ^ 96)

/-- An MSI-X table entry (11 Table 11.1): Message Address, Message Data and, in its bit 96, the Mask bit. -/
def msixOf (s : State) (ep vec : Nat) : BitVec 128 := tget msixReset s.mq.msixTab (vecKey ep vec)

def msixMasked (s : State) (ep vec : Nat) : Bool := (msixOf s ep vec).getLsbD 96

/-- Raise a vector: a message, or its pending bit while it is masked (11 R225; log 8). -/
def raiseVec (ep vec : Nat) (s : State) : State :=
  if !msixMasked s ep vec then State.say (.msix ep vec) s
  else if s.mq.pba.contains (vecKey ep vec) then s
  else { s with mq := { s.mq with pba := s.mq.pba ++ [vecKey ep vec] } }

/-- Raise the vector of an event queue, on the other endpoint under FAILOVER (11 R225; log 8). -/
def evInterrupt (q : Nat) (s : State) : State :=
  let pg := Page.evq q
  let ep := rd s pg F.MQ_EVQ_CFG_EP
  let dst := if rdb s pg F.MQ_EVQ_CFG_FAILOVER && !mgUp s ep then 1 - ep else ep
  s.when (rdb s pg F.MQ_EVQ_VEC_INT_EN && mgUp s dst) (raiseVec dst (rd s pg F.MQ_EVQ_VEC_VEC))

/-- Drop the oldest events until at most `cap` are left, counted as lost (11 R223). -/
def evTrim (q cap : Nat) (s : State) : State :=
  let l := evList s q
  if l.length ≤ cap then s
  else s |> setEv q (l.drop (l.length - cap)) |> bumpBy (.evq q) F.MQ_EVQ_LOST_EVQ_LOST (l.length - cap)

def setOver (q : Nat) (o : Option EvOver) (s : State) : State := { s with mq := { s.mq with ovw := tput none s.mq.ovw q o } }

/-- A post to a full queue overwrites the oldest events, and a consume of the same tick can still come before it (11 R223). -/
def evOverwrite (q cap : Nat) (s : State) : State :=
  let l := evList s q
  if l.length ≤ cap then s
  else
    let o : EvOver := match tget none s.mq.ovw q with
      | some o => if o.tick = s.tick then o else ⟨s.tick, [], rd s (.evq q) F.MQ_EVQ_NEXT_SEQ, rd s (.evq q) F.MQ_EVQ_LOST_EVQ_LOST⟩
      | none => ⟨s.tick, [], rd s (.evq q) F.MQ_EVQ_NEXT_SEQ, rd s (.evq q) F.MQ_EVQ_LOST_EVQ_LOST⟩
    s |> setOver q (some { o with gone := o.gone ++ l.take (l.length - cap) }) |> evTrim q cap

/-- Post an event; `copy`: another queue gets it too (11 R223, R225, Table 11.7). -/
def postC (copy : Bool) (q typ : Nat) (payload : List (Nat × Nat)) (s : State) : State :=
  let pg := Page.evq q
  let seq := rd s pg F.MQ_EVQ_NEXT_SEQ
  let was := evList s q
  let s := evOverwrite q (rd s pg F.MQ_EVQ_CFG_CAP - 1) s
  let s := s |> setEv q (evList s q ++ [⟨seq, typ, q, copy, s.time, payload⟩]) |> wr pg F.MQ_EVQ_NEXT_SEQ (seq + 1)
  if was.isEmpty then
    (s |> setEvTimer q (some s.tick)).when (rdb s pg F.MQ_EVQ_CFG_INT_FIRST) (evInterrupt q)
  else s

/-- Post an event that no other queue gets. -/
def post (q typ : Nat) (payload : List (Nat × Nat)) (s : State) : State := postC false q typ payload s

/-- Armed link injections are disarmed (04 R80, 15 Table 15.8). -/
def disarmAll (s : State) : State :=
  s.each (s.ports.links.filter fun e => e.2.inj.isSome) fun e s =>
    let l := { tget LinkS.reset s.ports.links e.1 with inj := none, swapHeld := none }
    { s with ports := { s.ports with links := tput LinkS.reset s.ports.links e.1 l } } |> wr (.lnk e.1) F.LNK_INJ_CTL_ARM 0

/-- Change the module's mode; MODE_CHANGE but for a change into or out of OFF, PRECHARGE or BOOT (15 R299, 12 Table 12.11). Leaving
MAINTENANCE disarms every link injection (04 R80). -/
def setMode (m : Mode) (s : State) : State :=
  if s.mode = m then s
  else
    let s := s.when (s.mode == .maintenance) disarmAll
    ({ s with mode := m }).when (m.isUp && s.mode.isUp) (post 128 0x11 [(16, s.mode.code), (17, m.code)])

/-! ### Completions (11 R209, R213, R214, R217, R218) -/

/-- Status values (11 Table 11.6). -/
def St.ok : Nat := 0x00
def St.badOpcode : Nat := 0x01
def St.badArg : Nat := 0x02
def St.scope : Nat := 0x03
def St.seqErr : Nat := 0x04
def St.busy : Nat := 0x05
def St.notStopped : Nat := 0x06
def St.partRunning : Nat := 0x07
def St.align : Nat := 0x08
def St.range : Nat := 0x09
def St.overlap : Nat := 0x0A
def St.badTarget : Nat := 0x0B
def St.tableFull : Nat := 0x0C
def St.hostHeld : Nat := 0x0D
def St.inUse : Nat := 0x0E
def St.noPart : Nat := 0x0F
def St.armed : Nat := 0x10
def St.qtmo : Nat := 0x11
def St.notSet : Nat := 0x12
def St.tooLate : Nat := 0x13
def St.tooFar : Nat := 0x14
def St.schedFull : Nat := 0x15
def St.schedBusy : Nat := 0x16
def St.cancelled : Nat := 0x17
def St.timeLocked : Nat := 0x18
def St.cfgInvalid : Nat := 0x19
def St.notMaint : Nat := 0x1A
def St.refused : Nat := 0x1B
def St.dmaErr : Nat := 0x1C
def St.authFail : Nat := 0x1D
def St.noEntry : Nat := 0x1E

/-- Name of a queue in tables. -/
def qkey (ep q : Nat) : Nat := 64 * ep + q

/-- A queue is in RUN. -/
def qRun (s : State) (ep q : Nat) : Bool := rd s (.mq ep q) F.BLK_CTL_RUN == 0

/-- Ring sizes (11 R207). -/
def sqN (s : State) (ep q : Nat) : Nat := 2 ^ rd s (.mq ep q) F.MQ_Q_CFG_SQ_LOG2
def cqN (s : State) (ep q : Nat) : Nat := 2 ^ rd s (.mq ep q) F.MQ_Q_CFG_CQ_LOG2

/-- Difference of two ring indices (11 R207). -/
def ringDiff (n a b : Nat) : Nat := (a + 2 * n - b) % (2 * n)

/-- The completion ring is full (11 R207). -/
def cqFull (s : State) (ep q : Nat) : Bool :=
  let n := cqN s ep q
  ringDiff n (rd s (.mq ep q) F.MQ_Q_CQ_TAIL) (rd s (.mq ep q) F.MQ_Q_CQ_HEAD) ≥ n

/-- Completions held for a queue. -/
def heldOf (s : State) (ep q : Nat) : List Cpl := tget [] s.mq.heldCpl (qkey ep q)

def setHeld (ep q : Nat) (l : List Cpl) (s : State) : State :=
  { s with mq := { s.mq with heldCpl := tput [] s.mq.heldCpl (qkey ep q) l } }

/-- Entries of a queue's entry cache (11 R211). -/
def cacheOf (s : State) (ep q : Nat) : List (BitVec 512) := tget [] s.mq.cache (qkey ep q)

def setCache (ep q : Nat) (l : List (BitVec 512)) (s : State) : State :=
  { s with mq := { s.mq with cache := tput [] s.mq.cache (qkey ep q) l } }

/-- The 32 bytes of a completion, as words of 4 bytes, the lowest first (11 Table 11.3). -/
def Cpl.image (c : Cpl) (ph : Bool) (sqhead : Nat) : List Nat :=
  [c.ctx.seq % 2 ^ 16 + sqhead % 2 ^ 16 * 2 ^ 16,
   c.opcode % 2 ^ 8 + c.status % 2 ^ 8 * 2 ^ 8 + (c.ctx.sqidx % 2 ^ 12 + c.interim.toNat * 2 ^ 14 + ph.toNat * 2 ^ 15) * 2 ^ 16,
   c.r0 % 2 ^ 32, bits c.r0 32 32, c.r1 % 2 ^ 32, bits c.r1 32 32, c.time % 2 ^ 32, bits c.time 32 32]

/-- Where completion `i` of a ring lies in the manager's memory (11 R207, Table 11.13). -/
def cplAddr (s : State) (ep q i : Nat) : Nat :=
  let pg := Page.mq ep q
  2 ^ 32 * rd s pg F.MQ_Q_CQB_HI_BASE_HI + 64 * rd s pg F.MQ_Q_CQB_LO_BASE_LO + 32 * (i % cqN s ep q)

/-- Write a completion into the ring and raise the queue's vector (11 R209, R225). -/
def cqPut (c : Cpl) (s : State) : State :=
  let ep := c.ctx.ep
  let q := c.ctx.q
  let pg := Page.mq ep q
  let n := cqN s ep q
  let i := rd s pg F.MQ_Q_CQ_TAIL
  let ph := decide (i < n)
  let h := rd s pg F.MQ_Q_SQ_HEAD
  let s := s |> State.say (.cpl ep q i ph h c (cplAddr s ep q i) (c.image ph h))
    |> wr pg F.MQ_Q_CQ_TAIL ((i + 1) % (2 * n)) |> wr pg F.MQ_QSEQ_CPL_LAST c.ctx.seq
  s.when (rdb s pg F.MQ_Q_VEC_INT_EN) (raiseVec ep (rd s pg F.MQ_Q_VEC_VEC))

/-- A queue halts on an error of its link: kind 1 fetch, 2 completion write (11 R218). -/
def qHalt (ep q kind : Nat) (s : State) : State :=
  s |> wr (.mq ep q) F.MQ_Q_STS_DMA_ERR 1 |> post 128 0x0D [(16, ep), (17, q), (18, kind)]

/-- A completion is written, ahead of `rest`, the ones held; the write may meet an error, and then it is held and the queue halts (11
R218; log 140). -/
def cqWrite (c : Cpl) (rest : List Cpl) (s : State) : State :=
  let ep := c.ctx.ep
  let q := c.ctx.q
  let k := tget none s.mq.cplErr (qkey ep q)
  let s := { s with mq := { s.mq with cplErr := tput none s.mq.cplErr (qkey ep q) (k.bind fun n => if n = 0 then none else some (n - 1)) } }
  if k = some 0 then s |> setHeld ep q (c :: rest) |> qHalt ep q 2 else s |> setHeld ep q rest |> cqPut c

/-- A completion that is generated: written, or held when the ring is full or the queue halted (11 R213, R218). -/
def cplOut (c : Cpl) (s : State) : State :=
  let ep := c.ctx.ep
  let q := c.ctx.q
  let pg := Page.mq ep q
  let h := heldOf s ep q
  if rdb s pg F.MQ_Q_STS_DMA_ERR then setHeld ep q (h ++ [c]) s
  else if !h.isEmpty || cqFull s ep q then
    let s := setHeld ep q (h ++ [c]) s
    if rdb s pg F.MQ_Q_STS_CQ_PAUSED then s
    else s |> wr pg F.MQ_Q_STS_CQ_PAUSED 1 |> post 128 0x0B [(16, ep), (17, q), (18, h.length + 1)]
  else cqWrite c [] s

/-- Held completions are written as far as room allows, and until a write meets an error (11 R213, R218). -/
def cqDrain (ep q : Nat) : Nat → State → State
  | 0, s => s
  | n + 1, s =>
    match heldOf s ep q with
    | [] => s
    | c :: rest =>
      if cqFull s ep q || rdb s (.mq ep q) F.MQ_Q_STS_DMA_ERR then s else cqDrain ep q n (cqWrite c rest s)

/-- Reservation of a queue command in the list of commands dispatched. -/
def flyingOf (s : State) (c : Ctx) : Option Flying := s.mq.flying.find? fun f => f.ctx = c

/-- How many resets of an endpoint there were (11 R217). -/
def genOf (s : State) (ep : Nat) : Nat := tget 0 s.mq.gens ep

/-- The queue of a command was reset since its dispatch: its outcome goes to the module event queue (11 R217). -/
def isOrphan (s : State) (c : Ctx) : Bool :=
  match flyingOf s c with
  | some f => f.orphan
  | none => !qRun s c.ep c.q || c.gen != genOf s c.ep

/-- The final completion of a command: written to its ring, or ORPHAN_DONE when its queue was reset meanwhile (11 R217). -/
def complete (c : Ctx) (opcode status r0 r1 : Nat) (s : State) : State :=
  let orphan := isOrphan s c
  let s := { s with mq := { s.mq with flying := dropFirst (fun f => f.ctx = c) s.mq.flying } }
  if orphan then
    post 128 0x0C [(16, c.ep), (17, c.q), (18, opcode), (19, status), (20, c.seq), (24, r0)] s
  else cplOut ⟨c, opcode, status, false, r0, r1, s.time⟩ s

/-- A final completion with no result. -/
def finish (c : Ctx) (opcode status : Nat) (s : State) : State := complete c opcode status 0 0 s

/-- The interim completion of an accepted scheduled command; it leaves the in-flight count (11 R214). -/
def completeInterim (c : Ctx) (opcode idx : Nat) (s : State) : State :=
  let orphan := isOrphan s c
  let fl := s.mq.flying
  let fl' :=
    if fl.any (fun f => f.ctx = c) then modFirst (fun f => f.ctx = c) (fun f => { f with sched := true }) fl
    else fl ++ [⟨c, opcode, true, orphan⟩]
  let s := { s with mq := { s.mq with flying := fl' } }
  if orphan then s else cplOut ⟨c, opcode, St.ok, true, idx, 0, s.time⟩ s

/-- Commands of a queue in flight (11 R210). -/
def inflight (s : State) (ep q : Nat) : Nat :=
  (s.mq.flying.filter fun f => f.ctx.ep == ep && f.ctx.q == q && !f.sched && !f.orphan).length

/-- An optional completion. -/
def completeO (c : Option Ctx) (opcode status r0 : Nat) (s : State) : State :=
  match c with
  | some c => complete c opcode status r0 0 s
  | none => s

/-- A command that mirrors a register write (11 R221): a frozen page discards it. `ok`: its arguments name a page. -/
def mirrorGate (ok : Bool) (pg : Page) (c : Ctx) (op : Nat) (f : State → State) (s : State) : State :=
  if ok && holdsWrites s pg then s |> reject pg |> finish c op St.cfgInvalid else f s

/-! ### Small views used everywhere -/

def linkOf (s : State) (lead : Nat) : LinkS := tget LinkS.reset s.ports.links lead
def setLink (lead : Nat) (l : LinkS) (s : State) : State :=
  { s with ports := { s.ports with links := tput LinkS.reset s.ports.links lead l } }
def modLink (lead : Nat) (f : LinkS → LinkS) (s : State) : State := setLink lead (f (linkOf s lead)) s

def laneOf (s : State) (n : Nat) : LaneS := tget LaneS.reset s.ports.lanes n
def setLane (n : Nat) (l : LaneS) (s : State) : State :=
  { s with ports := { s.ports with lanes := tput LaneS.reset s.ports.lanes n l } }

/-- A link is in L0. -/
def linkUp (s : State) (lead : Nat) : Bool := (linkOf s lead).phase = .l0

def bindOf (s : State) (idx : Nat) : Binding := tget Binding.empty s.maps.binds idx
def setBind (idx : Nat) (b : Binding) (s : State) : State :=
  { s with maps := { s.maps with binds := tput Binding.empty s.maps.binds idx b } }

def partOf (s : State) (p : Nat) : PartS := tget PartS.reset s.parts p
def setPart (p : Nat) (x : PartS) (s : State) : State := { s with parts := tput PartS.reset s.parts p x }
def modPart (p : Nat) (f : PartS → PartS) (s : State) : State := setPart p (f (partOf s p)) s

def vpKey (part vp : Nat) : Nat := 64 * part + vp
def vpOf (s : State) (part vp : Nat) : Vp := tget Vp.reset s.maps.vps (vpKey part vp)
def setVp (part vp : Nat) (v : Vp) (s : State) : State :=
  { s with maps := { s.maps with vps := tput Vp.reset s.maps.vps (vpKey part vp) v } }

/-- The change bit of slot status that a notice sets (PRESUMED: the places of PCI Express; log 128). -/
def vpNoteBit (code : Nat) : Nat :=
  if code = 3 ∨ code = 6 then 3 else if code = 4 then 0 else if code = 5 then 4 else 8

/-- A slot reports a change to its host, and its status holds it (06 R125). -/
def vpNote (part vp code : Nat) (s : State) : State :=
  let p := vpOf s part vp
  s |> setVp part vp { p with sts := p.sts ||| 2 ^ vpNoteBit code } |> State.say (.vpNotice part vp code)

/-- Handling of the source is open (12 Table 12.17). -/
def SrcS.opened (x : SrcS) : Bool := !x.opens.isEmpty

/-- A management core is left (12 R238). -/
def coreLeft (s : State) : Bool := s.flt.cores.any fun e => e.2.alive

/-- What the active core executes. A command whose core is lost waits until another is active, which then executes it: its step comes
again (12 R238; log 151). -/
def byCore (f : State → State) (s : State) : State := if s.flt.takeover || !coreLeft s then s else f s

def srcOf (s : State) (n : Nat) : SrcS := tget SrcS.reset s.flt.srcs n
def setSrc (n : Nat) (x : SrcS) (s : State) : State := { s with flt := { s.flt with srcs := tput SrcS.reset s.flt.srcs n x } }
def modSrc (n : Nat) (f : SrcS → SrcS) (s : State) : State := setSrc n (f (srcOf s n)) s

/-- The tile of a controller (01). -/
def tileOf (lead : Nat) : Nat := if lead < 512 then lead / 64 else (lead - 512) % 8

/-- The output that stands for the home of a tile, for writes (`store`) or for other requests (08 R155; log 130). -/
def homeOut (store : Bool) (t : Nat) : Nat := 512 + 8 * store.toNat + t

end Sys2Proof.Machine
end

