-- ==== Sys2Proof/Machine/Operands.lean ====
section
/-!
DEFINITION. Sys2Proof/Machine/Operands.lean: what the operands of commands name: links, partitions, bindings, lines,
requests, fault sources.
-/
namespace Sys2Proof.Machine

/-! ### Links (03 R44-R49, R360) -/

/-- ROLE of a controller: 0 UNUSED, 1 HOST, 2 DEVICE, 3 TRUNK. -/
def roleOf (s : State) (p : Nat) : Nat := rd s (.phy p) F.PHY_LINK_CFG_ROLE

/-- Number of controllers of the link that `p` heads. -/
def ctrlsOf (s : State) (p : Nat) : Nat := 2 ^ rd s (.phy p) F.PHY_LINK_CFG_WIDTH

/-- The link whose controllers hold `p` as a member, if any. -/
def memberOf (s : State) (p : Nat) : Option Nat :=
  [p - p % 2, p - p % 4, p - p % 8].find? fun l => l != p && roleOf s l != 0 && decide (p < l + ctrlsOf s l)

/-- The lead of controller `p` (03 Table 3.5). -/
def leadOf (s : State) (p : Nat) : Nat := (memberOf s p).getD p

/-- `p` is the lead of a link whose ROLE is not UNUSED. -/
def isLead (s : State) (p : Nat) : Bool := roleOf s p != 0 && (memberOf s p).isNone

/-- Every lead of a link. -/
def leads (s : State) : List Nat := (List.range 512).filter (isLead s)

/-- The link with lead `p` is in RUN (03 R48). -/
def linkRun (s : State) (p : Nat) : Bool := rd s (.phy (leadOf s p)) F.BLK_CTL_RUN == 0

/-- The link is down (03 R360). -/
def linkDown (s : State) (p : Nat) : Bool :=
  roleOf s p == 0 || (linkOf s p).phase == .off || (linkOf s p).phase == .detect

/-- The target link can take a request: not down and in RUN (06 Table 6.4). -/
def usable (s : State) (out : Nat) : Bool := !linkDown s out && linkRun s out

/-- HPART of a link. -/
def hpartOf (s : State) (p : Nat) : Nat := rd s (.phy p) F.PHY_LINK_CFG_HPART

/-- The lead of a partition's HOST link. -/
def hostLead (s : State) (part : Nat) : Option Nat :=
  (List.range 512).find? fun p => roleOf s p == 1 && hpartOf s p == part && isLead s p

/-- The tile of a partition's host link; 0 when it has none. -/
def hostTile (s : State) (part : Nat) : Nat := tileOf ((hostLead s part).getD 0)

/-- Lanes of the link that a controller heads. -/
def lanesAt (s : State) (lead : Nat) : List Nat := List.range' (2 * lead) (2 * ctrlsOf s lead)

/-- Its lanes that are declared failed and not re-admitted (03 R55, R57). -/
def failedLanes (s : State) (lead : Nat) : List Nat := (lanesAt s lead).filter fun n => (laneOf s n).failed

/-- PRSNT_N of the group that holds controller `p` (03 R53). -/
def present (s : State) (p : Nat) : Bool := s.ports.prsnt.contains (p / 4)

/-- The virtual port that a DEVICE link is bound to (06 R125). -/
def vpOfLead (s : State) (lead : Nat) : Option (Nat × Nat) :=
  (s.maps.vps.find? fun e => decide (e.2.lead = some lead)).map fun e => (e.1 / 64, e.1 % 64)

/-! ### Network interfaces (01 R20, R21) -/

/-- An NI's copy of fabric time (01 R20): counted from the REFCLK tree, as the tick is. -/
def niTime (s : State) (ni : Nat) : Nat := (s.tick + s.trail.base + tget 0 s.trail.delta ni) % 2 ^ 64

/-- The entry of a route table that Harcen has loaded (01 R21): its contents are free values (log 117). -/
def bootRoute (ni dst : Nat) : RouteEnt :=
  let w := Config.bootRoute ni dst
  ⟨w % 2 == 1, w / 2 % 12 + 1, w / 24 % 2 ^ 36⟩

/-- An entry of an NI's route table. -/
def routeOf (s : State) (ni dst : Nat) : RouteEnt :=
  match tget none s.trail.routes (256 * ni + dst) with
  | some e => e
  | none => if s.trail.loaded then bootRoute ni dst else RouteEnt.reset

/-! ### The count (02 R27-R31) -/

def setFtm (f : Ftm) (s : State) : State := { s with ftm := f }

/-- Ticks of an epoch. -/
def epochTicks : Nat := 2 ^ 17

/-- No edge can confirm the last epoch boundary any more: more than one tick has passed since (02 R31). -/
def missOver (s : State) : Bool := s.ftm.prov.any fun b => decide (b + 1 < s.time)

/-- A boundary that no edge has confirmed is counted (02 R31). -/
def settleMiss (s : State) : State :=
  s.when (missOver s) fun s =>
    s |> bump .ftm F.FTM_SRC_CNT_FSYNC_MISS |> setFtm { s.ftm with prov := none, fsRun := s.ftm.fsRun + 1 }

/-! ### Partitions (10 R188) -/

/-- PART_STS.STATE: 0 RUN, 1 QUIESCING, 2 STOPPED. -/
def partSt (s : State) (p : Nat) : Nat := rd s (.part p) F.PART_STS_STATE

def setPartSt (p v : Nat) (s : State) : State := wr (.part p) F.PART_STS_STATE v s

/-- A reset of the partition is in progress. -/
def resetting (s : State) (p : Nat) : Bool := (partOf s p).resetAt.isSome

/-- A restart of the partition is armed: its entry (10 R194). -/
def restartEnt (s : State) (p : Nat) : Option SchedEnt := s.sched.find? fun e => decide (e.act = .restart p)

/-! ### Messages (05 R85; log 30) -/

/-- 16-byte units of a request on its link: one, and one for each 16 bytes of data it carries (log 30). -/
def reqUnits (r : Req) : Nat :=
  1 + match r.op with
    | .memWr | .memWrPtl | .ioWrite | .fetchAdd | .swap | .cas => (r.size + 15) / 16
    | _ => 0

/-- Units of the response to it. -/
def rspUnits (r : Req) : Rsp → Nat
  | .drs => 5
  | .cplOk => 1 + match r.op with | .ioRead => (r.size + 15) / 16 | .fetchAdd | .swap | .cas | .cfgRead => 1 | _ => 0
  | _ => 1

/-- Ordering subclass of a response (05 Table 5.6). -/
def Rsp.oc : Rsp → Nat
  | .drs => 6
  | .ndr => 5
  | _ => 2

/-! ### Bindings (06 R112, R113) -/

/-- Bytes of the segment. -/
def Binding.bytes (b : Binding) : Nat := 2 ^ (21 + b.size)

/-- PMD offset of the segment base. -/
def Binding.base (b : Binding) : Nat := b.hoff * 2 ^ 21

/-- Device address of the segment base. -/
def Binding.dpaBase (b : Binding) : Nat := b.dpa * 2 ^ 21

/-- In RUN. -/
def Binding.running (b : Binding) : Bool := !b.stopped

/-- A local or remote entry: it has a PMD offset. -/
def Binding.hasOff (b : Binding) : Bool := b.kind == 0 || b.kind == 1

/-- Two segments of PMD space overlap. -/
def Binding.offOverlap (a b : Binding) : Bool :=
  decide (a.base < b.base + b.bytes) && decide (b.base < a.base + a.bytes)

/-- Two target ranges on one target overlap (06 R113). -/
def Binding.tgtOverlap (a b : Binding) : Bool :=
  let same := if a.kind == 1 || b.kind == 1 then a.kind == 1 && b.kind == 1 && a.dmod == b.dmod && a.dport == b.dport
    else a.out == b.out
  same && a.ld == b.ld && decide (a.dpaBase < b.dpaBase + b.bytes) && decide (b.dpaBase < a.dpaBase + a.bytes)

/-- The entry that the words Q0 to Q3 of a command spell (06 Table 6.1; GEN, STOPPED and QSTATE ignored). DMOD is 00h but
for KIND 01b. -/
def Binding.ofWords (q0 q1 q2 q3 : Nat) : Binding where
  valid    := true
  kind     := bits q0 61 2
  stopped  := false
  shared   := bit q0 59
  earlyAck := bit q0 58
  locked   := bit q0 57
  errmode  := bit q0 56
  tc       := bits q0 54 2
  part     := bits q0 47 7
  size     := bits q0 42 5
  rights   := bits q0 33 9
  sgrp     := bits q0 21 12
  ld       := bits q0 17 4
  ldv      := bit q0 16
  gen      := 0
  hoff     := bits q1 21 25
  dpa      := bits q2 21 31
  out      := bits q3 55 9
  dmod     := if bits q0 61 2 = 1 then bits q3 47 8 else 0
  dport    := bits q3 38 9
  dpart    := bits q3 31 7
  qstop    := false

/-- The four words of an entry as the manager reads it (06 Table 6.1). -/
def Binding.toWords (b : Binding) : List Nat :=
  if b.valid then
    [2 ^ 63 + b.kind * 2 ^ 61 + b.stopped.toNat * 2 ^ 60 + b.shared.toNat * 2 ^ 59 + b.earlyAck.toNat * 2 ^ 58
      + b.locked.toNat * 2 ^ 57 + b.errmode.toNat * 2 ^ 56 + b.tc * 2 ^ 54 + b.part * 2 ^ 47 + b.size * 2 ^ 42
      + b.rights * 2 ^ 33 + b.sgrp * 2 ^ 21 + b.ld * 2 ^ 17 + b.ldv.toNat * 2 ^ 16 + b.gen,
     b.hoff * 2 ^ 21, b.dpa * 2 ^ 21,
     b.out * 2 ^ 55 + b.dmod * 2 ^ 47 + b.dport * 2 ^ 38 + b.dpart * 2 ^ 31 + b.qstop.toNat]
  else [0, 0, 0, 0]

/-- The valid local or remote entry of a partition that holds a PMD offset (06 R114). -/
def lookupOff (s : State) (part off : Nat) : Option (Nat × Binding) :=
  s.maps.binds.find? fun e =>
    e.2.valid && e.2.hasOff && e.2.part == part && decide (e.2.base ≤ off) && decide (off < e.2.base + e.2.bytes)

/-- The entry that exports a device range of a target link (06 R118). -/
def lookupExport (s : State) (lead part ld dpa bytes : Nat) : Option (Nat × Binding) :=
  s.maps.binds.find? fun e =>
    e.2.valid && e.2.kind == 2 && e.2.out == lead && e.2.part == part && e.2.ld == ld &&
      decide (e.2.dpaBase ≤ dpa) && decide (dpa + bytes ≤ e.2.dpaBase + e.2.bytes)

/-- Device address of a PMD offset under an entry. -/
def Binding.dpaOf (b : Binding) (off : Nat) : Nat := b.dpaBase + (off - b.base)

/-- PMD offset of a device address under an entry. -/
def Binding.offOf (b : Binding) (dpa : Nat) : Nat := b.base + (dpa - b.dpaBase)

/-- The module holds a piece of the partition (10 R188). -/
def holdsPiece (s : State) (part : Nat) : Bool :=
  (hostLead s part).isSome || s.maps.binds.any fun e => e.2.valid && e.2.kind != 3 && e.2.part == part

/-- Rights of an entry at a level 0 to 2, as (R, W, X) (06 Table 6.1). -/
def Binding.right (b : Binding) (level which : Nat) : Bool := bit b.rights (8 - 3 * level - which)

/-! ### Lines (08 R150, R162, R166) -/

/-- The line that holds a device address. -/
def lineAt (out ld dpa : Nat) : LineId := ⟨out, ld, dpa / 64⟩

/-- Exclusive or of numbers. -/
def xorAll (l : List Nat) : Nat := l.foldl (· ^^^ ·) 0

/-- Home tile of a line of a SHARED segment (08 R150). -/
def homeHash (l : LineId) : Nat :=
  xorAll ((List.range 15).map fun k => bits l.line (3 * k) 3) ^^^ (l.ld % 8) ^^^ (l.out % 8)

/-- Set of the ALC that a line lies in (08 R162). -/
def alcSet (l : LineId) : Nat := bits l.line 0 12 ^^^ (l.ld * 256 + l.out % 256)

/-- Index of a line's predictor counter (08 R166). -/
def predIdx (l : LineId) : Nat :=
  bits l.line 0 14 ^^^ bits l.line 14 14 ^^^ bits l.line 28 14 ^^^
    (bits l.line 42 4 * 1024 + l.ld * 64 + l.out % 64)

end Sys2Proof.Machine

namespace Sys2Proof

/-! ### Requests (06 R114, R119, R120) -/

/-- The request is CXL.io. -/
def ReqOp.isIo : ReqOp → Bool
  | .ioRead | .ioWrite | .fetchAdd | .swap | .cas | .cfgRead | .cfgWrite | .otherNp | .otherP => true
  | _ => false

def ReqOp.isAtomic : ReqOp → Bool
  | .fetchAdd | .swap | .cas => true
  | _ => false

/-- A CXL.io posted request. -/
def ReqOp.isPosted : ReqOp → Bool
  | .ioWrite | .otherP => true
  | _ => false

/-- A CXL.mem write with data. -/
def ReqOp.isMemWrite : ReqOp → Bool
  | .memWr | .memWrPtl => true
  | _ => false

/-- It needs the right R; AtomicOps need R and W. MemInv counts as a read and MemClnEvct as a write, as ACCESS_FAULT reports them
(06 R119, R120; log 127). -/
def ReqOp.needsR : ReqOp → Bool
  | .memRd | .memInv | .ioRead | .fetchAdd | .swap | .cas => true
  | _ => false

def ReqOp.needsW : ReqOp → Bool
  | .memWr | .memWrPtl | .memClnEvct | .ioWrite | .fetchAdd | .swap | .cas => true
  | _ => false

/-- The request kind that ACCESS_FAULT reports (11 Table 11.8, 06 R120). -/
def ReqOp.eventKind : ReqOp → Nat
  | .ioRead | .fetchAdd | .swap | .cas | .cfgRead | .cfgWrite | .otherNp => 0
  | .ioWrite | .otherP => 1
  | .memRd | .memInv => 2
  | .memWr | .memWrPtl | .memClnEvct => 3

/-- Privilege level of a request (06 Table 6.3). -/
def Req.level (r : Req) : Nat := if r.op.isIo && r.pasid.isSome && !r.pmode then 2 else 1

/-- The request holds every right it needs (06 R119). -/
def Req.allowed (r : Req) (b : Machine.Binding) : Bool :=
  (!r.op.needsR || b.right r.level 0) && (!r.op.needsW || b.right r.level 1) &&
    (!(r.op.isIo && r.pasid.isSome && r.exe) || b.right r.level 2)

/-- The bytes of a write within its line. -/
def Req.wmask (r : Req) : ByteMask := if r.op = .memWr then fullMask else r.mask

/-- Ordering subclass of a request (05 Table 5.6). -/
def Req.oc (r : Req) : Nat :=
  match r.op with
  | .ioWrite | .otherP => 0
  | .ioRead | .fetchAdd | .swap | .cas | .cfgRead | .cfgWrite | .otherNp => 1
  | .memRd | .memInv | .memClnEvct => 3
  | .memWr | .memWrPtl => 4

end Sys2Proof

namespace Sys2Proof.Machine

/-! ### Fault sources (12 Tables 12.1 and 12.2) -/

/-- Reactions. -/
def React.corrected : Nat := 0
def React.recovered : Nat := 1
def React.port : Nat := 2
def React.partition : Nat := 3
def React.fatal : Nat := 4

/-- Default reaction, allowed reactions (bit v for value v), domain (0 source, 1 link, 2 partition, 3 module) and the
mark D of a source. -/
structure SrcInfo where
  react   : Nat
  allowed : Nat
  domain  : Nat
  deg     : Bool
deriving DecidableEq, Repr

/-- Module sources by k. -/
def moduleSrc (k : Nat) : Option SrcInfo :=
  match k with
  | 0x00 => some ⟨0, 0b10001, 0, false⟩
  | 0x01 | 0x02 => some ⟨0, 0b00001, 0, false⟩
  | 0x03 | 0x04 | 0x05 | 0x06 => some ⟨1, 0b00010, 0, true⟩
  | 0x07 => some ⟨1, 0b10010, 0, true⟩
  | 0x08 => some ⟨4, 0b10000, 3, false⟩
  | 0x09 => some ⟨0, 0b10001, 0, false⟩
  | 0x0A => some ⟨1, 0b00011, 0, true⟩
  | 0x0B => some ⟨1, 0b00011, 0, false⟩
  | 0x0C => some ⟨0, 0b00001, 0, false⟩
  | 0x0D => some ⟨4, 0b10000, 3, false⟩
  | 0x0E | 0x0F => some ⟨0, 0b00001, 0, false⟩
  | _ => none

/-- Tile sources by k. -/
def tileSrc (k : Nat) : Option SrcInfo :=
  match k with
  | 0 => some ⟨0, 0b00001, 0, false⟩
  | 1 => some ⟨3, 0b11000, 2, false⟩
  | 2 => some ⟨4, 0b10000, 3, false⟩
  | 3 => some ⟨1, 0b00010, 0, false⟩
  | 4 => some ⟨2, 0b10100, 0, true⟩
  | 5 => some ⟨1, 0b10010, 0, true⟩
  | 6 => some ⟨4, 0b10000, 3, false⟩
  | 7 => some ⟨0, 0b00001, 0, false⟩
  | 8 => some ⟨4, 0b11000, 2, false⟩
  | 9 => some ⟨0, 0b00001, 0, false⟩
  | 10 => some ⟨3, 0b11000, 2, false⟩
  | 11 => some ⟨0, 0b00001, 0, false⟩
  | 12 => some ⟨3, 0b11000, 2, false⟩
  | 13 => some ⟨4, 0b10000, 3, false⟩
  | 14 => some ⟨1, 0b00010, 0, false⟩
  | 15 => some ⟨1, 0b10010, 0, true⟩
  | 16 => some ⟨4, 0b10000, 3, false⟩
  | 17 => some ⟨0, 0b00001, 0, false⟩
  | 18 => some ⟨0, 0b10001, 0, false⟩
  | _ => none

/-- Port sources by k. -/
def portSrc (k : Nat) : Option SrcInfo :=
  match k with
  | 0 => some ⟨2, 0b10100, 1, true⟩
  | 1 => some ⟨1, 0b00011, 0, false⟩
  | 2 => some ⟨2, 0b10100, 1, false⟩
  | 3 => some ⟨2, 0b00101, 1, false⟩
  | _ => none

/-- What the tables say of a source number; none for a reserved one. -/
def srcInfo (n : Nat) : Option SrcInfo :=
  if n < 0x20 then moduleSrc n
  else if n < 0x120 then tileSrc ((n - 0x20) % 32)
  else if 0x200 ≤ n ∧ n < 0xA00 then portSrc ((n - 0x200) % 4)
  else none

/-- Number of tile `t`'s source k, and of lead `p`'s source k. -/
def tileSrcNo (t k : Nat) : Nat := 0x20 + 32 * t + k
def portSrcNo (p k : Nat) : Nat := 0x200 + 4 * p + k

/-- Present reaction of a source (12 R229). -/
def reactOf (s : State) (n : Nat) : Nat := (srcOf s n).react.getD ((srcInfo n).map (·.react) |>.getD 0)

/-- The source's mask bit is set (17 R326). -/
def srcMasked (s : State) (n : Nat) : Bool :=
  match srcPage n with
  | some (pg, k) => bit (rd s pg F.ERR_MASK_MASK) k
  | none => false

/-- ERR_PARTi fields in order. -/
def errPartFld (i : Nat) : Fld :=
  match i with | 0 => F.ERR_PART0_PARTS | 1 => F.ERR_PART1_PARTS | 2 => F.ERR_PART2_PARTS | _ => F.ERR_PART3_PARTS

/-- Bit of a partition in ERR_PART of a page (12 R232). -/
def errPartBit (s : State) (pg : Page) (j : Nat) : Bool := bit (rd s pg (errPartFld (j / 32))) (j % 32)

def setErrPart (pg : Page) (j : Nat) (b : Bool) (s : State) : State :=
  let f := errPartFld (j / 32)
  let v := rd s pg f
  let c := if bit v (j % 32) then v - 2 ^ (j % 32) else v
  wr pg f (if b then c + 2 ^ (j % 32) else c) s

/-- No ERR_PART bit of the page is set. -/
def errPartNone (s : State) (pg : Page) : Bool := (List.range 4).all fun i => rd s pg (errPartFld i) == 0

end Sys2Proof.Machine
end

