-- ==== Sys2Proof/Machine/Pins.lean ====
section
/-!
DEFINITION. Sys2Proof/Machine/Pins.lean: the levels that the module drives on its pins (15 R303, Table 15.11; 02 R43; 03 R53),
and the end of every command: the pins follow the state, and the queue of commands is left as it was.
-/
namespace Sys2Proof.Machine

/-- VIN is at or above VSTBY, so the always-on island drives its pins. -/
def islandOn (s : State) : Bool := s.pwr.lowAt.isNone

/-- EMBER runs (02 R43, Table 2.5). -/
def emberRuns (s : State) : Bool :=
  s.mode.isUp && !s.rst.inReset && rd s .ftm F.FTM_STS_STATE != 0 && !s.flt.emberHeld

/-- Level of EMBER once the module drives it: bit 15 of fabric time while it runs, its last level while it is held, else low. -/
def emberLevel (s : State) : Bool :=
  s.mode.isUp && !s.rst.inReset && rd s .ftm F.FTM_STS_STATE != 0 &&
    (if s.flt.emberHeld then s.flt.ember else bit s.time 15)

/-- Level of PG: PG_INT is 1 and no reset is in progress or held by RESET_N (15 R292). -/
def pgPin (s : State) : Bool := s.pwr.pgInt && !s.rst.inReset && (s.mode.isUp || s.rst.resetN)

/-- PERST_N of an x8 group is asserted: outside STANDBY, RUN, DEGRADED and MAINTENANCE, and while a link with a lane in the
group has PERST set (03 R53). A controller whose ROLE is UNUSED has no link and does not count, whatever its PERST bit holds (log
121). -/
def perstN (s : State) (group : Nat) : Bool :=
  !(s.mode == .standby || s.mode.isLive) ||
    (List.range' (4 * group) 4).any fun p => roleOf s (leadOf s p) != 0 && rdb s (.phy (leadOf s p)) F.PHY_LINK_CTL_PERST

/-- The levels that the pins show. Below VSTBY they are those of the first column of Table 15.11, also while the store holds the module
up (log 72). TDO is driven during an access only, and none lasts beyond its command (log 153). -/
def pinsOf (s : State) : Pins where
  pg := islandOn s && pgPin s
  warn := islandOn s && s.pwr.warn
  ember := if islandOn s then some (emberLevel s) else none
  bypass := !islandOn s || !s.mode.isUp || s.glr.bypass
  refclk := islandOn s && s.rst.refOut
  perst := (List.range 128).filter fun g => !islandOn s || perstN s g
  lanes := if !islandOn s then 0 else if !s.mode.isUp || s.mode == .fatalHold then 1 else 2
  mg := if !islandOn s then 0 else if s.mode == .off || s.mode == .precharge || !s.rst.refOut then 1 else 2
  i3c := islandOn s
  presLow := true
  tdo := false

/-- Pins after a change of state, the queue of commands being `q`. -/
def settled (q : List Instr) (t : State) : State := { t with pins := pinsOf t, pending := q }

/-- A command ends in state `t`, which it reached from `s`: the queue is as before it, and the pins follow the state. -/
def done (s t : State) : Ans := .next (settled s.pending t)

end Sys2Proof.Machine
end

