-- ==== Sys2Proof/Machine/Count.lean ====
section
/-!
DEFINITION. Sys2Proof/Machine/Count.lean: the counter banks (13 R248-R251): which event a counter counts and under which
filter.
-/
namespace Sys2Proof.Machine

/-- Place of a bank in the snapshot record (13 Table 13.1); none for a page without one. -/
def bankSlot : Page → Option Nat
  | .ing p => some p
  | .egr p => some (512 + p)
  | .cnp t => some (1024 + 4 * t)
  | .bindT t => some (1025 + 4 * t)
  | .wabT t => some (1026 + 4 * t)
  | .homeT t => some (1027 + 4 * t)
  | _ => none

/-- The page behind a bank number: its BAR0 offset shifted right by 12 bits (13 R249). -/
def bankPage (n : Nat) : Option Page := (pageAt n).filter Page.bank

/-- A bank with filters and selects of its own. -/
def Page.general (pg : Page) : Bool := match pg with | .egr _ => false | _ => pg.bank

/-- Key of a counter. -/
def ctrKey (slot i : Nat) : Nat := 8 * slot + i

/-- A counter's value. -/
def ctrVal (s : State) (k : Nat) : Nat := tget 0 s.tel.ctrs k

def setCtr (k v : Nat) (s : State) : State := { s with tel := { s.tel with ctrs := tput 0 s.tel.ctrs k v } }

/-- A counter restarts from 0, and its next snapshot word says so (13 R254). -/
def ctrRestart (k : Nat) (s : State) : State :=
  let s := setCtr k 0 s
  { s with tel := { s.tel with
    perr := (s.tel.perr.filter (· != k)) ++ [k], struck := s.tel.struck.filter (· != k), early := tput 0 s.tel.early k 0 } }

/-- A counter whose value was struck fails its parity on an increment; its source is raised with what is due next in the tick (13 R254;
log 157). -/
def ctrStrike (k : Nat) (s : State) : State :=
  if s.tel.struck.contains k then
    let s := ctrRestart k s
    { s with tel := { s.tel with parErr := true } }
  else s

/-- Add to a counter, modulo 2^48; in the tick of an epoch boundary that has not been acted on, the sum is held apart too, as the
snapshot has the values of the end of the previous tick (13 R248, R252). -/
def addCtr (k n : Nat) (s : State) : State :=
  let s := ctrStrike k s
  let s := setCtr k ((ctrVal s k + n) % 2 ^ 48) s
  if s.time % 2 ^ 17 = 0 ∧ s.ftm.epochDone ≠ s.time then
    { s with tel := { s.tel with early := tput 0 s.tel.early k ((tget 0 s.tel.early k + n) % 2 ^ 48) } }
  else s

/-- Attributes of a counted event (13 Table 13.2): partition, lead, TC, subclass, privilege level, PMD offset. -/
structure Attr where
  pa : Option Nat
  po : Option Nat
  t  : Option Nat
  o  : Option Nat
  v  : Option Nat
  a  : Option Nat
deriving DecidableEq, Repr

/-- No attribute. -/
def Attr.none : Attr := ⟨.none, .none, .none, .none, .none, .none⟩

/-- Attributes that an event code carries, in the order of `Attr`; none for a code that the kind of bank does not list
(13 Table 13.2). -/
def codeAttrs (pg : Page) (code : Nat) : Option (List Bool) :=
  match pg, code with
  | .ing _, 0x01 | .ing _, 0x02 => some [true, true, true, true, true, true]
  | .ing _, 0x03 | .ing _, 0x05 => some [true, true, false, false, true, true]
  | .ing _, 0x04 | .ing _, 0x06 => some [true, true, false, false, false, true]
  | .cnp _, 0x10 | .cnp _, 0x11 => some [true, true, true, true, false, false]
  | .cnp _, 0x12 => some [false, false, false, false, false, false]
  | .cnp _, 0x13 => some [false, true, false, false, false, false]
  | .bindT _, 0x18 => some [false, false, false, false, false, false]
  | .bindT _, 0x19 => some [true, false, false, false, false, false]
  | .wabT _, 0x20 | .wabT _, 0x21 | .wabT _, 0x22 => some [true, true, false, false, false, true]
  | .wabT _, 0x23 => some [true, true, false, false, false, false]
  | .homeT _, 0x28 | .homeT _, 0x29 | .homeT _, 0x2A | .homeT _, 0x2B => some [true, false, false, false, false, false]
  | _, _ => .none

/-- Select field of counter `i`. -/
def selFld (i : Nat) : Fld :=
  match i with
  | 0 => F.CTR_SEL0_SEL0 | 1 => F.CTR_SEL0_SEL1 | 2 => F.CTR_SEL0_SEL2 | 3 => F.CTR_SEL0_SEL3
  | 4 => F.CTR_SEL1_SEL4 | 5 => F.CTR_SEL1_SEL5 | 6 => F.CTR_SEL1_SEL6 | _ => F.CTR_SEL1_SEL7

/-- A filter: the three words of CTR_FILT0-2 (13 Tables 13.9, 13.10). -/
structure Filt where
  oc : Nat
  tc : Nat
  priv : Nat
  partEn : Bool
  part : Nat
  port : Nat
  addrEn : Bool
  base : Nat
  portEn : Bool
  lim : Nat
deriving DecidableEq, Repr

/-- The filter that three words spell. -/
def Filt.ofWords (f0 f1 f2 : Nat) : Filt :=
  ⟨bits f0 24 8, bits f0 20 4, bits f0 17 3, bit f0 16, bits f0 9 7, bits f0 0 9, bit f1 31, bits f1 0 25, bit f2 31,
    bits f2 0 25⟩

/-- The filter of a bank that is in force. -/
def bankFilt (s : State) (pg : Page) : Filt :=
  ⟨rdf s pg F.CTR_FILT0_OC_MASK, rdf s pg F.CTR_FILT0_TC_MASK, rdf s pg F.CTR_FILT0_PRIV_MASK,
    rdf s pg F.CTR_FILT0_PART_EN != 0, rdf s pg F.CTR_FILT0_PART, rdf s pg F.CTR_FILT0_PORT,
    rdf s pg F.CTR_FILT1_ADDR_EN != 0, rdf s pg F.CTR_FILT1_ADDR_BASE, rdf s pg F.CTR_FILT2_PORT_EN != 0,
    rdf s pg F.CTR_FILT2_ADDR_LIM⟩

/-- Every enabled condition on an attribute that the event carries holds (13 R251). -/
def Filt.passes (f : Filt) (e : Attr) : Bool :=
  (e.o.all fun o => bit f.oc o) && (e.t.all fun t => bit f.tc t) && (e.v.all fun v => bit f.priv v) &&
    (!f.partEn || e.pa.all (· == f.part)) && (!f.portEn || e.po.all (· == f.port)) &&
    (!f.addrEn || e.a.all fun a => decide (f.base ≤ a / 2 ^ 21) && decide (a / 2 ^ 21 ≤ f.lim))

/-- IGNORED of a bank: the counters whose event lacks an attribute that an enabled condition names. A mask of all ones is no
condition (log 21). -/
def ignoredBits (s : State) (pg : Page) : Nat :=
  let f := bankFilt s pg
  let need := [f.partEn, f.portEn, f.tc != 15, f.oc != 255, f.priv != 7, f.addrEn]
  ((List.range 8).filter fun i =>
    match codeAttrs pg (rdf s pg (selFld i)) with
    | some has => (List.zipWith (fun n h => n && !h) need has).any id
    | .none => false).foldl (fun v i => v + 2 ^ i) 0

/-- Count `n` events of a code in a general bank (13 R248-R251). -/
def count (pg : Page) (code n : Nat) (e : Attr) (s : State) : State :=
  match bankSlot pg with
  | .none => s
  | some slot =>
    let member := match pg with | .ing p => (memberOf s p).isSome | _ => false
    if member || !(bankFilt s pg).passes e then s
    else
      let hit := (List.range 8).filter fun i => rdf s pg (selFld i) == code
      s.each hit fun i => addCtr (ctrKey slot i) n

/-- Count one slot of an egress in its class, 41h to 47h, and in the counter of every slot (13 R255). -/
def countSlot (lead cls : Nat) (s : State) : State :=
  s |> addCtr (ctrKey (512 + lead) 0) 1 |> addCtr (ctrKey (512 + lead) (cls - 0x40)) 1

end Sys2Proof.Machine
end

