-- ==== Sys2Proof/Machine/Cells.lean ====
section
/-!
DEFINITION. Sys2Proof/Machine/Cells.lean: the cell pool of a tile (05): allowances, allocation, freeing, credit return.
-/
namespace Sys2Proof.Machine

def cellOf (s : State) (id : Nat) : Option Cell := s.core.cells.find? fun c => c.id == id

def modCell (id : Nat) (f : Cell → Cell) (s : State) : State :=
  { s with core := { s.core with cells := modFirst (fun c => c.id == id) f s.core.cells } }

/-- Leads of links on a tile. -/
def tileLeads (s : State) (t : Nat) : List Nat := ((List.range 64).map (64 * t + ·)).filter (isLead s)

/-- The allowances of a tile (05 Table 5.3), but for the TC3 reserve. -/
def allowances (s : State) (t : Nat) : List Allow :=
  ((tileLeads s t).flatMap fun l => [Allow.ing l, Allow.egr l]) ++
    ((List.range 8).filter (· != t)).map Allow.arr ++ (List.range 4).map Allow.agent

/-- Guarantee of an allowance. -/
def guarOf (s : State) (t : Nat) : Allow → Nat
  | .ing l => rd s (.ing l) F.ING_CELL_CFG_GUAR
  | .egr l => rd s (.egr l) F.EGR_CELL_CFG_GUAR
  | .arr _ => rd s (.cnp t) F.CNP_BND_CFG_GUAR
  | .agent _ => 256

/-- Maximum of an allowance, where one is set (05 R87). -/
def maxOf (s : State) (t : Nat) : Allow → Option Nat
  | .ing l => let m := rd s (.ing l) F.ING_CELL_CFG_MAX
    if m = 0 then none else some (max m (guarOf s t (.ing l)))
  | .egr _ => none
  | .arr p => some (guarOf s t (.arr p))
  | .agent _ => some 256

/-- A cell is in use: it is more than messages that wait for one. -/
def Cell.inUse (c : Cell) : Bool := c.stage != .waiting

/-- Cells counted against an allowance; those held for credits that the far end has (05 R89) and requests that are held (06 R124)
or wait at the ingress (07 R133, R140) count against their link's ingress allowance. -/
def usedOf (s : State) (t : Nat) (a : Allow) : Nat :=
  (s.core.cells.filter fun c => c.tile == t && c.inUse && !c.tc3r && decide (c.allow = a)).length +
    (match a with
      | .ing l => (linkOf s l).cells + (linkOf s l).flit + (s.maps.held.filter fun h => h.lead == l).length +
          (s.maps.ioWait.filter fun w => w.lead == l).length
      | _ => 0)

/-- Cells of the TC3 reserve in use. -/
def tc3Used (s : State) (t : Nat) : Nat := (s.core.cells.filter fun c => c.tile == t && c.inUse && c.tc3r).length

/-- Cells of a tile that are held for credits. -/
def creditCells (s : State) (t : Nat) : Nat := ((s.ports.links.filter fun e => tileOf e.1 == t).map fun e => e.2.cells + e.2.flit).sum

/-- Free cells of a tile. -/
def freeCells (s : State) (t : Nat) : Nat :=
  65536 - (s.core.cells.filter fun c => c.tile == t && c.inUse).length - creditCells s t

/-- Guarantee sum of a tile (05 R88). -/
def guarSum (s : State) (t : Nat) : Nat :=
  ((allowances s t).map (guarOf s t)).sum + rd s (.cell t) F.CELL_POOL_CFG_TC3_RSV

/-- The test of 05 R87: none refused, some b accepted, b when the cell counts in the TC3 reserve. A reserve that was set below the cells
in use of it keeps no further ones (log 146). -/
def canAllocate (s : State) (t : Nat) (a : Allow) (tc : Nat) : Option Bool :=
  let used := usedOf s t a
  if used < guarOf s t a then some false
  else if (match maxOf s t a with | some m => decide (m ≤ used) | none => false) then none
  else
    let held := ((allowances s t).map fun b => guarOf s t b - usedOf s t b).sum
    let rsv := rd s (.cell t) F.CELL_POOL_CFG_TC3_RSV
    if held + (rsv - tc3Used s t) < freeCells s t then some false
    else if tc = 3 ∧ tc3Used s t < rsv then some true
    else none

/-- Cells that pass the test of R87 for TC0 to TC2, one after another: what is left of the guarantee, then what the maximum and the
shared pool let it take. -/
def grantable (s : State) (t : Nat) (a : Allow) : Nat :=
  let used := usedOf s t a
  let guar := guarOf s t a
  let held := ((allowances s t).map fun b => guarOf s t b - usedOf s t b).sum
  let shared := freeCells s t - held - (rd s (.cell t) F.CELL_POOL_CFG_TC3_RSV - tc3Used s t)
  (guar - used) + (match maxOf s t a with | some m => min (m - max used guar) shared | none => shared)

/-- HOST links return no ingress credit: FATAL handling, PWRWARN_N asserted, a wait for a warm reset (12 R242, 07 R144, R145). -/
def hostCreditOff (s : State) : Bool := s.flt.fatal.isSome || s.pwr.warn || s.wab.wait.isSome

/-- Credit classes of a link: the ordering subclasses of Table 5.6, of which PCIe has those of CXL.io (log 10). -/
def creditClasses (role : Nat) (far : FarEnd) : List Nat :=
  if role = 2 && decide (far.kind = .pcie) then List.range 3 else List.range 8

/-- Credits owed to a far end, of all classes. -/
def LinkS.owes (l : LinkS) : Nat := (l.owed.map (·.2)).sum

/-- Credits of the classes in turn, `n` in all: what is left to owe, and what is returned. -/
def payOut : Nat → Tbl Nat → Tbl Nat × List (Nat × Nat)
  | _, [] => ([], [])
  | 0, t => (t, [])
  | n + 1, (c, k) :: t =>
    let m := min (n + 1) k
    let (rest, paid) := payOut (n + 1 - m) t
    (if m < k then (c, k - m) :: rest else rest, (c, m) :: paid)

/-- Credit owed to the far end is returned as far as cells can be allocated, each credit's cell being held until a message uses it
(05 R89), while the link is in RUN (03 R48) and its role lets it; lower classes go first (log 10). -/
def returnCredits (lead : Nat) (s : State) : State :=
  let l := linkOf s lead
  let n := l.owes
  if n = 0 ∨ !linkRun s lead ∨ !linkUp s lead ∨ (roleOf s lead = 1 ∧ hostCreditOff s) then s
  else
    let g := min n (grantable s (tileOf lead) (.ing lead))
    let (owed, paid) := payOut g l.owed
    s |> setLink lead { l with owed := owed, cells := l.cells + g, creditWait := l.creditWait || decide (g < n) }
      |> State.each paid fun p => State.say (.creditRet lead p.1 p.2)

/-- Credits that the links of a tile owe are returned as far as cells allow. -/
def returnOwed (t : Nat) (s : State) : State :=
  s.each ((s.ports.links.filter fun e => e.2.owes != 0 && tileOf e.1 == t).map (·.1)) returnCredits

/-- Credits of classes are owed to the far end of a link: the buffer space of a flit of its is free (04 R72). -/
def owe (lead : Nat) (classes : List Nat) (s : State) : State :=
  modLink lead (fun k => { k with owed := classes.foldl (fun t c => tput 0 t c (tget 0 t c + 1)) k.owed }) s

/-- The received flit of a name. -/
def grpOf (s : State) (g : Nat) : Option RxGrp := s.core.grps.find? fun x => x.id == g

/-- A verified flit none of whose ingress cells is left has its buffer space free: its credits are owed (04 R72, 05 R90). -/
def grpDone (g : Nat) (s : State) : State :=
  match grpOf s g with
  | none => s
  | some x =>
    if !x.sure || s.core.cells.any (fun c => decide (c.grp = some g) && decide (c.allow = .ing x.lead)) then s
    else { s with core := { s.core with grps := s.core.grps.filter fun y => y.id != g } } |> owe x.lead x.classes

/-- Bitwise exclusive or of the data words (05 Table 5.1). -/
def xorWord (w : List DWord) : DWord := w.foldl (· ^^^ ·) 0

/-- Bytes of the data area that hold message content, in 15 slots of two words each: all but the flit header, the routing header of bytes
2 to 9, and the CRC and FEC bytes of the latency-optimized layout, whose slots are shorter for it (05 R83; log 31). -/
def contentMask (i : Nat) : DWord :=
  if i = 0 ∨ 30 ≤ i then 0
  else if i = 1 then 0xFFFFFFFFFFFF0000
  else if i = 15 then 0xFFFF
  else 0xFFFFFFFFFFFFFFFF

/-- A data area with nothing but message content: the other bytes are written as 0 (05 R83). -/
def blankRest (w : List DWord) : List DWord := List.zipWith (fun i x => x &&& contentMask i) (List.range w.length) w

/-- Message content that the manual gives no layout for: free values (log 1). -/
def freeWords (s : State) : List DWord := blankRest (List.replicate 32 (BitVec.ofNat 64 (Config.freeNat s.free)))

/-- Even parity of the 8 bytes of a word, a bit for each (05 Table 5.1). -/
def wordParity (w : DWord) : Nat :=
  ((List.range 8).map fun j =>
    (((List.range 8).filter fun k => w.toNat.testBit (8 * j + k)).length % 2) * 2 ^ j).sum

/-- What an allocation counts: the pool's minimum, and the event of a cell allocated (05 Table 5.16; 13 Table 13.2). -/
def noteAlloc (c : Cell) (s : State) : State :=
  let pg := Page.cell c.tile
  let e : Attr := { Attr.none with pa := some c.part, po := if c.srck then none else some c.src, t := some c.tc, o := some c.oc }
  s |> wr pg F.CELL_FREE_MIN_MIN (min (rd s pg F.CELL_FREE_MIN_MIN) (freeCells s c.tile)) |> count (.cnp c.tile) 0x10 1 e

/-- A cell is allocated: its name, ARR (bits [15:0] of `arr`) and the pool's minimum (05 R85, Table 5.16). The name of the cell is
`nextId`. -/
def allocCell (c : Cell) (s : State) : State :=
  let c := { c with id := s.core.nextId, arr := s.time }
  { s with core := { s.core with cells := s.core.cells ++ [c], nextId := s.core.nextId + 1 } } |> noteAlloc c

/-- A cell with nothing in it. -/
def Cell.blank : Cell where
  id := 0
  tile := 0
  bad := false
  pois := false
  srck := false
  src := 0
  out := 0
  part := 0
  tc := 0
  oc := 0
  ro := false
  bseq := 0
  pseq := 0
  slots := 1
  arr := 0
  tagged := false
  dmod := 0
  dport := 0
  words := []
  xor := 0
  inp := .agent 0
  allow := .agent 0
  tc3r := false
  stage := .opened
  grp := none
  orig := 0
  late := []
  isOpen := false
  hdrBad := false
  sizes := [1]
  tags := []
  reads := []
  fwds := []
  homes := []
  rsps := []
  fails := 0
  stamps := []

/-- Name of a group of the posted barrier (05 Table 5.6) at a stage: 0 first tile, 1 arrival tile, 2 egress. -/
def grpKey (stage : Nat) (c : Cell) : Nat :=
  (((stage * 2 + c.srck.toNat) * 1024 + c.src) * 1024 + c.out) * 4 + c.tc

/-- Stage of the posted barrier at which a cell stands: 0 first tile, 1 arrival tile, 2 egress. -/
def Cell.barrierStage (c : Cell) : Nat :=
  match c.allow, c.inp with
  | .egr _, _ => 2
  | _, .bundle _ => 1
  | _, _ => 0

/-- A posted cell leaves a stage of the barrier. -/
def postedGo (stage : Nat) (c : Cell) (s : State) : State :=
  if c.oc ≠ 0 then s
  else
    let k := grpKey stage c
    { s with core := { s.core with postedGone := tput 0 s.core.postedGone k ((tget 0 s.core.postedGone k + 1) % 4096) } }

/-- The posted barrier lets a cell leave a stage (05 R102). -/
def barrierOk (s : State) (stage : Nat) (c : Cell) : Bool :=
  if c.oc == 1 || (c.oc == 2 && !c.ro) then
    decide ((tget 0 s.core.postedGone (grpKey stage c) + 4096 - c.pseq) % 4096 < 2048)
  else true

/-- A cell becomes the tail of the queue that it joins (05 R91). -/
def toTail (id : Nat) (f : Cell → Cell) (s : State) : State :=
  match cellOf s id with
  | none => s
  | some c => { s with core := { s.core with cells := (dropFirst (fun c => c.id == id) s.core.cells) ++ [f c] } }

/-- A cell is linked at the tail of its VOQ in its first tile: posted cells are counted, non-posted ones and completions take the
count (05 R91, R102). -/
def linkVoq (id : Nat) (s : State) : State :=
  match cellOf s id with
  | none => s
  | some c =>
    let k := grpKey 0 c
    let n := tget 0 s.core.posted k
    let s := if c.oc = 0 then { s with core := { s.core with posted := tput 0 s.core.posted k ((n + 1) % 4096) } } else s
    toTail id (fun c => { c with stage := .voq, pseq := if c.oc = 0 then c.pseq else n }) s

/-- The unit of the module that an agent's forward belongs to, as its tile and agent kind (05 Table 5.5). -/
def Agent.unit : Agent → Option (Nat × Nat)
  | .wab t _ => some (t, 0)
  | .alc t _ => some (t, 1)
  | .atomic t _ => some (t, 2)
  | .dma => some (0, 3)
  | .home .. | .host => none

/-- Requests of an agent that are outstanding; those that wait for a cell, and those of the cell asked for, have not been issued (05
R104). -/
def agentOut (s : State) (t k : Nat) (c : Cell) : Nat :=
  (s.maps.fwds.filter fun f => f.own && decide (f.agent.unit = some (t, k)) && !c.fwds.contains f.id &&
    !(s.core.cells.any fun x => !x.inUse && x.fwds.contains f.id)).length

/-- Cells of one flow: input and partition, output, class (05 R101). -/
def Cell.sameFlow (a b : Cell) : Bool :=
  decide (a.inp = b.inp) && a.tile == b.tile && a.part == b.part && a.out == b.out && a.tc == b.tc && a.oc == b.oc

/-- Earlier messages of the flow wait for a cell: none overtakes them (05 R101). -/
def waitsBefore (s : State) (c : Cell) : Bool := s.core.cells.any fun x => !x.inUse && decide (x.id < c.id) && x.sameFlow c

/-- Messages of an input find a cell: one held for a credit that their flit used, or one that the test of R87 gives; an agent has at most
256 requests outstanding (05 R87, R89, R104). -/
def cellFor (s : State) (c : Cell) : Option Bool :=
  if waitsBefore s c then none
  else match c.inp, c.allow with
    | _, .ing l => if (linkOf s l).flit ≠ 0 then some false else canAllocate s c.tile c.allow c.tc
    | .agent k, _ => if 256 ≤ agentOut s c.tile k c then none else canAllocate s c.tile c.allow c.tc
    | _, _ => canAllocate s c.tile c.allow c.tc

/-- A flit that comes in has used `n` credits of its link: the cells held for them are its messages' (05 R89). -/
def spend (lead n : Nat) (s : State) : State :=
  modLink lead (fun k => { k with cells := k.cells - n, flit := k.flit + min n k.cells }) s

/-- A cell held for a credit of its link is used by messages that arrive (05 R89). -/
def useCredit (c : Cell) (s : State) : State :=
  match c.allow with
  | .ing l => modLink l (fun k => { k with flit := k.flit - 1 }) s
  | _ => s

/-- Messages take a cell, or wait for one: no allocation goes against the test of R87, and nothing is dropped (05 R87, R89; log 125).
The cell takes the name `nextId` at once. -/
def takeCell (c : Cell) (s : State) : State :=
  match cellFor s { c with id := s.core.nextId } with
  | some r => s |> useCredit c |> allocCell { c with tc3r := r }
  | none =>
    let c := { c with id := s.core.nextId, arr := s.time, stage := .waiting }
    { s with core := { s.core with cells := s.core.cells ++ [c], nextId := s.core.nextId + 1 } }

/-! ### What cell memory holds (05 R82, R85) -/

/-- Two cells stand in one linked list: of a VOQ, or of a subclass in an egress queue. -/
def Cell.sameList (a b : Cell) : Bool :=
  a.tile == b.tile && decide (a.stage = b.stage) && a.out == b.out && a.tc == b.tc && a.oc == b.oc &&
    (if a.stage = .egress then a.tc == 3 || a.part == b.part else decide (a.inp = b.inp))

/-- NEXT of a cell, when NVAL is 1: the next cell in its list. A cell's index is its name here (log 126). -/
def cellNext (s : State) (c : Cell) : Option Nat :=
  if c.stage = .voq ∨ c.stage = .egress then
    (((s.core.cells.dropWhile fun x => x.id != c.id).drop 1).find? c.sameList).map (·.id % 65536)
  else none

/-- The header of a cell as it is stored (05 Table 5.2). -/
def cellHeader (s : State) (c : Cell) : Nat :=
  let next := cellNext s c
  let top : Nat := next.getD 0 * 2 ^ 112 + next.isSome.toNat * 2 ^ 111 + c.bad.toNat * 2 ^ 110 + c.pois.toNat * 2 ^ 109
    + c.srck.toNat * 2 ^ 108 + c.src % 512 * 2 ^ 99 + c.out % 512 * 2 ^ 90 + c.part % 128 * 2 ^ 83 + c.tc % 4 * 2 ^ 81
    + c.oc % 8 * 2 ^ 78 + c.ro.toNat * 2 ^ 77 + c.bseq % 1024 * 2 ^ 67 + c.pseq % 4096 * 2 ^ 55 + c.slots % 32 * 2 ^ 50
    + c.arr % 2 ^ 16 * 2 ^ 34 + c.tagged.toNat * 2 ^ 33 + c.dmod % 256 * 2 ^ 25 + c.dport % 512 * 2 ^ 16
  top + Config.hecc (top / 256) % 256

/-- The bytes of a number, lowest first. -/
def bytesOf (n v : Nat) : List Nat := (List.range n).map fun i => v / 2 ^ (8 * i) % 256

/-- The sideband of a cell: word parity, XOR word, its parity, header, and bytes written as 0 (05 Table 5.1). -/
def cellSideband (s : State) (c : Cell) : List Nat :=
  c.words.map wordParity ++ bytesOf 8 c.xor.toNat ++ [wordParity c.xor] ++ bytesOf 16 (cellHeader s c) ++ List.replicate 7 0

end Sys2Proof.Machine
end

