-- ==== Sys2Proof/Machine/Sky.lean ====
section
/-!
DEFINITION. Sys2Proof/Machine/Sky.lean: flit tagging and Skylight (13 R258-R263).
-/
namespace Sys2Proof.Machine

/-- The tag draw of a received flit: the draw's outcome is a free value (13 R258; log 1). A flit of the boundary tick is drawn under
the new setting. -/
def tagDraw (lead : Nat) (s : State) : Bool × State :=
  if rdAt s .tel F.TEL_TAG_CFG_EN = 0 then (false, s)
  else
    let l := linkOf s lead
    let n := rdAt s .tel F.TEL_TAG_CFG_N
    (Config.tagDraw (rdAt s .tel F.TEL_TAG_CFG_SEED) lead l.draws % 2 ^ n == 0, setLink lead { l with draws := l.draws + 1 } s)

/-- Core clocks after T0, 25 for each two ticks: which clock of the present tick it is, the model's time does not show, but it lies
after the stamps before (13 R259; log 29). -/
def clocksSince (s : State) (stamps : List Nat) (clk : Nat) : Nat :=
  let t0 := stamps.headD 0
  let n := 25 * ((s.time + 2 ^ 64 - t0 / 16) % 2 ^ 64) / 2 + clk - t0 % 16
  stamps.tail.foldl max n % 2 ^ 32

/-- A stamp of a tagged cell. -/
def stamp (id : Nat) (s : State) : State :=
  let (v, s) := s.draw
  modCell id (fun c => if c.tagged then { c with stamps := c.stamps ++ [clocksSince s c.stamps (v % 13)] } else c) s

/-- A stamp of the bundle crossing that a cell did not take. -/
def stampZero (id : Nat) (s : State) : State :=
  modCell id (fun c => if c.tagged then { c with stamps := c.stamps ++ [0] } else c) s

/-- TEL_SKY_DROP as it reads. -/
def skyDropVal (s : State) : Nat := rd s .tel F.TEL_SKY_DROP_FULL * 2 ^ 16 + rd s .tel F.TEL_SKY_DROP_RATE

/-- A record is dropped: 0 full, 1 over the rate; SKY_DROP once for a run of drops (13 R260, R261). -/
def skyDrop (reason : Nat) (s : State) : State :=
  let s := bump .tel (if reason = 0 then F.TEL_SKY_DROP_FULL else F.TEL_SKY_DROP_RATE) s
  if s.tel.dropRun then s
  else { s with tel := { s.tel with dropRun := true } } |> post 128 0x0031 [(16, reason), (20, skyDropVal s)]

/-- Bytes 10 to 49 of a cell's data area. -/
def cellBytes (c : Cell) : List Nat :=
  (List.range' 10 40).map fun i => ((c.words.getD (i / 8) 0).toNat / 2 ^ (8 * (i % 8))) % 256

/-- A Skylight record of a cell (13 Table 13.6) but for RSEQ, its last 4 bytes: KIND, FLAGS, SRC, OUT, PART, CLASS, TIME, BODY. -/
def skyBytes (s : State) (kind : Nat) (wasted discarded : Bool) (c : Cell) : List Nat :=
  let onTrunk (l : Nat) : Bool := roleOf s l == 3
  let flags := wasted.toNat + 2 * discarded.toNat + 4 * (!c.srck && onTrunk c.src).toNat + 8 * (onTrunk c.out).toNat
    + 16 * c.pois.toNat
  let t := if kind = 2 then c.stamps.headD 0 else s.time % 2 ^ 60 * 16 + Config.freeNat s.free % 13
  let bind := (c.fwds.findSome? fun f => (s.maps.fwds.find? fun x => x.id == f).bind (·.bind)).getD 0x3FFFF
  let body := if kind = 2 then
      (((c.stamps.tail ++ [0, 0, 0, 0, 0]).take 5) ++ [bind]).flatMap (leBytes 4) ++ List.replicate 16 0
    else cellBytes c
  [kind, flags] ++ leBytes 2 (c.srck.toNat * 2 ^ 15 + c.src) ++ leBytes 2 c.out ++ [c.part, c.tc * 64 + c.oc] ++ leBytes 8 t
    ++ body ++ leBytes 4 0

/-- The ring has room for a record (13 R261). -/
def skyRoom (s : State) : Bool :=
  let size := 2 ^ rdf s .tel F.TEL_SKY_CFG_LOG2
  decide (ringDiff size (rd s .tel F.TEL_SKY_TAIL_IDX) (rd s .tel F.TEL_SKY_HEAD_IDX) < size)

/-- A record is written into the ring, with the next RSEQ, when its endpoint's link can take the write. -/
def skyIssue (bytes : List Nat) (s : State) : State :=
  let ep := rdf s .tel F.TEL_SKY_CFG_EP
  if rdb s .tel F.TEL_STS_SKY_DMA then s
  else if !mgUp s ep then
    s |> wr .tel F.TEL_STS_SKY_DMA 1 |> post 128 0x0032 [(16, 1), (17, ep)]
  else
    let size := 2 ^ rdf s .tel F.TEL_SKY_CFG_LOG2
    let tail := rd s .tel F.TEL_SKY_TAIL_IDX
    let base := rdf s .tel F.TEL_SKY_BASE_LO_BASE_LO * 2 ^ 12 + rdf s .tel F.TEL_SKY_BASE_HI_BASE_HI * 2 ^ 32
    let s := s.say (.skyRec ep (base + 64 * (tail % size)) (bytes ++ leBytes 4 s.tel.rseq))
    { s with tel := { s.tel with rseq := (s.tel.rseq + 1) % 2 ^ 32, dropRun := false } }
      |> wr .tel F.TEL_SKY_TAIL_IDX ((tail + 1) % (2 * size))

/-- The tick of records that waited for room has ended: they are dropped (13 R261). -/
def skySettle (s : State) : State :=
  let old := s.tel.skyWait.filter fun w => w.tick != s.tick
  if old.isEmpty then s
  else
    { s with tel := { s.tel with skyWait := s.tel.skyWait.filter fun w => w.tick == s.tick } }.each old fun w s =>
      { skyDrop 0 { s with time := w.time } with time := s.time }

/-- A head write makes room: records of its tick that found none are issued, oldest first. -/
def skyRelease (s : State) : State :=
  s.each s.tel.skyWait fun w s =>
    if skyRoom s then { s with tel := { s.tel with skyWait := s.tel.skyWait.drop 1 } } |> skyIssue w.bytes else s

/-- Issue a record from a tile (13 R260, R261): within MAX for the slot, into the ring when it has room; when it has none, the record
waits for a head write of its tick. -/
def skyRecord (tile kind : Nat) (wasted discarded : Bool) (c : Cell) (s : State) : State :=
  let s := skySettle s
  if rdf s .tel F.TEL_SKY_CFG_EN = 0 || rdb s .tel F.TEL_STS_SKY_DMA then s
  else
    let n := tget 0 s.tel.skySlot tile
    if rdf s .tel F.TEL_SKY_CFG_MAX ≤ n then skyDrop 1 s
    else
      let s := { s with tel := { s.tel with skySlot := tput 0 s.tel.skySlot tile (n + 1) } }
      let bytes := skyBytes s kind wasted discarded c
      let s := { s with free := s.free + 1 }
      if skyRoom s && s.tel.skyWait.isEmpty then skyIssue bytes s
      else { s with tel := { s.tel with skyWait := s.tel.skyWait ++ [⟨s.tick, s.time, bytes⟩] } }

/-- The mirror filter in force. -/
def mirFilt (s : State) : Filt :=
  Filt.ofWords (rdf s .tel F.TEL_SKY_FILT0_FILT) (rdf s .tel F.TEL_SKY_FILT1_FILT) (rdf s .tel F.TEL_SKY_FILT2_FILT)

/-- Attributes of a cell. -/
def Cell.attr (c : Cell) : Attr :=
  { Attr.none with pa := some c.part, po := if c.srck then none else some c.src, t := some c.tc, o := some c.oc }

/-- A cell passes a mirror point: 0 ingress after lookup, 1 egress enqueue (13 R260). -/
def mirror (point id : Nat) (s : State) : State :=
  match cellOf s id with
  | none => s
  | some c =>
    if rdf s .tel F.TEL_SKY_CFG_MIR_EN = 1 ∧ rdf s .tel F.TEL_SKY_CFG_POINT = point ∧ (mirFilt s).passes c.attr then
      skyRecord c.tile point false false c s
    else s

end Sys2Proof.Machine
end

