-- ==== Sys2Proof/Machine/Pool.lean ====
section
/-!
DEFINITION. Sys2Proof/Machine/Pool.lean: cells are linked, freed and discarded (05 R87-R92, R101; 13 R259, R260).
-/
namespace Sys2Proof.Machine

/-- A waiting cell that is found one is linked to its VOQ (13 R259, R260). -/
def takeWaiting (c : Cell) (s : State) : State :=
  match cellFor s c with
  | some r =>
    s |> useCredit c |> modCell c.id (fun c => { c with tc3r := r, arr := s.time, stage := .opened, isOpen := false }) |> noteAlloc c
      |> stamp c.id |> linkVoq c.id |> mirror 0 c.id
  | none => s

/-- The flit that came in has ended: cells held for its credits that no message of it has used are free (05 R89). -/
def endFlit (lead : Nat) (s : State) : State :=
  if (linkOf s lead).flit = 0 then s else s |> modLink lead (fun k => { k with flit := 0 }) |> returnOwed (tileOf lead)

/-- A cell is freed; the credits of an ingress cell's flit are owed to the far end of its link with the flit's last cell, those of a
message that came alone with its own (04 R72, 05 R90). Messages that wait, and credits owed, take what is free. -/
def freeCell (id : Nat) (s : State) : State :=
  match cellOf s id with
  | none => s
  | some c =>
    let s := { s with core := { s.core with cells := dropFirst (fun c => c.id == id) s.core.cells } }
    let s := match c.allow, c.grp with
      | .ing _, some g => grpDone g s
      | .ing l, none => owe l [c.oc] s
      | _, _ => s
    s |> State.each (s.core.cells.filter fun x => !x.inUse && x.tile == c.tile) takeWaiting |> returnOwed c.tile

/-- Byte `j` of a routing header, most significant first. -/
def hdrByte (h : DWord) (j : Nat) : DWord := (h >>> (56 - 8 * j)) &&& 0xFF

/-- Bytes 2 to 9 of the data area hold a routing header (04 R76, 05 R83). -/
def putHdr (h : DWord) (w : List DWord) : List DWord :=
  let w0 := (w.getD 0 0 &&& 0xFFFF) ||| ((List.range 6).foldl (fun a j => a ||| (hdrByte h j <<< (16 + 8 * j))) 0)
  let w1 := (w.getD 1 0 &&& ~~~(0xFFFF : DWord)) ||| hdrByte h 6 ||| (hdrByte h 7 <<< 8)
  w0 :: w1 :: w.drop 2

/-- One message toward an output: its flow, the units that it takes, its routing header if it came over a trunk, T0 of a tagged flit, and
what goes with it: a forward, a request on its way to its home, a response of the module's own. -/
structure LMsg where
  part  : Nat
  tc    : Nat
  oc    : Nat
  out   : Nat
  dmod  : Nat
  dport : Nat
  tag   : Nat
  units : Nat
  hdr   : Option DWord
  t0    : Option Nat
  fwd   : Option Nat
  home  : Option Nat
  rsp   : Option RspRec
deriving DecidableEq, Repr

/-- Where messages come in: the input, its tile, the allowance of their cells, and SRCK and SRC of Table 5.2. -/
structure Entry where
  inp   : Inp
  tile  : Nat
  allow : Allow
  srck  : Bool
  src   : Nat
deriving DecidableEq, Repr

/-- The ingress of a link. -/
def Entry.link (lead : Nat) : Entry := ⟨.link lead, tileOf lead, .ing lead, false, lead⟩

/-- An agent of a tile (05 Table 5.5). -/
def Entry.agent (t k : Nat) : Entry := ⟨.agent k, t, .agent k, true, 4 * t + k⟩

/-- The cell of a message, of `units` units, its content free but for the routing header. -/
def LMsg.cell (e : Entry) (m : LMsg) (units : Nat) (last : Bool) (s : State) : Cell :=
  let w := (freeWords s).zipIdx.map fun x => if x.2 < 2 * units then x.1 else 0
  let w := match m.hdr with | some h => putHdr h w | none => w
  { Cell.blank with
    tile := e.tile, srck := e.srck, src := e.src, out := m.out, part := m.part, tc := m.tc, oc := m.oc, dmod := m.dmod, dport := m.dport
    slots := units, sizes := [units], words := w, xor := xorWord w, inp := e.inp, allow := e.allow, orig := s.core.nextId
    tagged := m.t0.isSome, stamps := m.t0.toList, tags := [m.tag]
    fwds := if last then m.fwd.toList else [], homes := if last then m.home.toList else []
    rsps := if last then m.rsp.toList else [] }

/-- A message takes cells of its own, each of up to 15 units, linked to its VOQ; what ends with it is in the last (05 R84, R91, R92). -/
def ownCells (e : Entry) (m : LMsg) : Nat → Nat → State → State
  | 0, _, s => s
  | n + 1, units, s =>
    let id := s.core.nextId
    let c := m.cell e (min 15 units) (decide (units ≤ 15)) s
    let s := { s with free := s.free + 1 } |> takeCell c
    let s := if (cellOf s id).any (·.inUse) then s |> stamp id |> linkVoq id |> mirror 0 id else s
    if units ≤ 15 then s else ownCells e m n (units - 15) s

/-- A cell that waits with a message, to which what goes with it can be added: not one that has been copied on. -/
def Cell.holds (e : Entry) (m : LMsg) (c : Cell) : Bool :=
  c.srck == e.srck && c.src == e.src && c.tags.contains m.tag && c.out == m.out && c.part == m.part && c.oc == m.oc &&
    match c.stage with | .kept | .copy _ => false | _ => true

/-- A response is said on the link of its requester. -/
def sayRsp (x : RspRec) (s : State) : State := s.say (.rsp x.lead x.tag x.kind x.data x.poison x.md)

/-- The cells that a request or a response of one message takes: the cell of its flit when FLIT_RECEIVE packed it (named by
its tag), else cells of its own. A message of a link that came with no flit has used one credit (05 R89; log 32). -/
def linkMessage (e : Entry) (m : LMsg) (s : State) : State :=
  match s.core.cells.find? (Cell.holds e m) with
  | some c =>
    let s := s.when (c.stage == .sent) (State.each m.rsp.toList sayRsp)
    let more := if c.stage = .sent then [] else m.rsp.toList
    modCell c.id (fun c => { c with
      fwds := c.fwds ++ m.fwd.toList, homes := c.homes ++ m.home.toList, rsps := c.rsps ++ more }) s
  | none =>
    let n := m.units / 15 + 1
    match e.allow with
    | .ing l =>
      if (linkOf s l).flit = 0 then s |> spend l 1 |> ownCells e m n m.units |> endFlit l else ownCells e m n m.units s
    | _ => ownCells e m n m.units s

/-- Stages of the posted barrier that a cell has not left. -/
def Cell.stagesLeft (c : Cell) : List Nat :=
  match c.stage with
  | .opened | .waiting | .kept | .moving _ | .sent => []
  | _ => (List.range 3).filter (c.barrierStage ≤ ·)

/-- A cell is freed before it has left the module: it counts as gone at every stage it has not left, and a tagged one gives
the record of the stamps taken so far (05 R102, 13 R259). -/
def discardCell (id : Nat) (s : State) : State :=
  match cellOf s id with
  | none => s
  | some c =>
    let s := s.each c.stagesLeft fun st => postedGo st c
    let told := c.tagged && decide (c.stage ≠ .sent)
    (s.when told (skyRecord c.tile 2 false true c)) |> freeCell id

end Sys2Proof.Machine
end

