-- ==== Sys2Proof/Machine/RingOps.lean ====
section
/-!
DEFINITION. Sys2Proof/Machine/RingOps.lean: sending frames on the Guyline ring (14 R272-R276).
-/
namespace Sys2Proof.Machine

/-- MODID of the module (04 Table 4.17). -/
def modid (s : State) : Nat := rd s .trnk F.TRNK_MOD_CFG_MODID

/-- The module has a MODID. -/
def hasModid (s : State) : Bool := decide (modid s < 0xFE)

def setGlr (g : Glr) (s : State) : State := { s with glr := g }

/-- The port on which the module originates: OUT, direction D, or IN with TURNS 1 when OUT is DOWN; none when both are, or the bypass
is closed (14 R267, R272). -/
def ownPort (s : State) : Option Bool :=
  if s.glr.bypass then none else if s.glr.outP.st ≠ 0 then some true else if s.glr.inP.st ≠ 0 then some false else none

/-- Put one frame of the module's own on the ring (14 R272). -/
def glrEmit (f : GFrame) (s : State) : State :=
  match ownPort s with
  | some p => s.say (.frame p (frameBytes f.typ (modid s) f.dst 64 (!p).toNat f.seq f.sync false f.body))
  | none => s

/-- Originate a frame within the budget of 32 KiB for an epoch; over it, the frame waits (14 R273). A module without a MODID or a port
originates nothing. -/
def glrPut (f : GFrame) (s : State) : State :=
  if !hasModid s || (ownPort s).isNone then s
  else
    let n := 20 + gLen f.typ
    if !s.glr.queue.isEmpty || decide (32768 < s.glr.bytes + n) then
      s |> setGlr { s.glr with queue := s.glr.queue ++ [f] }
    else s |> setGlr { s.glr with bytes := s.glr.bytes + n } |> glrEmit f

/-- Frames that waited for the budget go in a new epoch (14 R273). -/
def glrFlush (s : State) : State :=
  let q := s.glr.queue
  s |> setGlr { s.glr with queue := [], bytes := 0 } |> State.each q glrPut

/-- Send a sequenced frame: kept for replay, the first to a destination with SYNC (14 R274, R276). -/
def glrSend (dst typ : Nat) (body : List Nat) (s : State) : State :=
  if !hasModid s then s
  else if s.glr.frames.length ≥ 1024 then
    s |> setGlr { s.glr with waitSeq := s.glr.waitSeq ++ [(dst, typ, body)] }
  else
    let g := s.glr
    let (seq, sync) := match tget none g.txSeq dst with | some n => (n, false) | none => (0, true)
    let f : GFrame := ⟨dst, seq, sync, typ, body⟩
    let run := (tget none g.rplFrom dst).getD s.tick
    s |> setGlr { g with
        txSeq := tput none g.txSeq dst (some ((seq + 1) % 65536)), frames := g.frames ++ [f]
        rplFrom := tput none g.rplFrom dst (some run) } |> glrPut f

/-- Sequenced frames that waited for room in the replay buffer. -/
def glrUnwait (s : State) : State :=
  let w := s.glr.waitSeq
  s |> setGlr { s.glr with waitSeq := [] } |> State.each w fun f => glrSend f.1 f.2.1 f.2.2

/-- An ACK naming the number expected from an originator (14 R275). -/
def glrAck (src : Nat) (nak resync : Bool) (s : State) : State :=
  let e := (tget none s.glr.rxExp src).getD 0
  let g := s.glr
  s |> setGlr { g with ackDue := tput none g.ackDue src none }
    |> glrPut ⟨src, 0, false, G.ack, [e, nak.toNat, resync.toNat]⟩

/-- An RST_RSP to the originator of a restart request (14 R284). -/
def glrRstRsp (src slot status : Nat) (final : Bool) (sidx : Nat) (s : State) : State :=
  glrSend src G.rstRsp [slot, status, final.toNat, sidx] s

/-- The outcome of a schedule entry goes to whoever asked for it (02 R40, 11 R214, 14 R284). -/
def ownerDone (e : SchedEnt) (status r0 : Nat) (s : State) : State :=
  match e.owner with
  | .cmd c op => complete c op status r0 0 s
  | .ring src slot => glrRstRsp src slot status true e.idx s
  | .none => s

end Sys2Proof.Machine
end

