-- ==== Sys2Proof/Machine/Reactions.lean ====
section
/-!
DEFINITION. Sys2Proof/Machine/Reactions.lean: what several blocks do alike: forwarding a request, drains, the outcome of a
failed access, entering Recovery, the start of a partition reset, FATAL handling and the raising of a fault source.
-/
namespace Sys2Proof.Machine

/-! ### Forwarding (05 R91, R104; 06 R118) -/

/-- The trunk toward a module: the route entry's lead, when VALID (04 R78). -/
def routeLead (s : State) (dmod : Nat) : Option Nat :=
  let e := tget (false, 0) s.ports.trnkRt dmod
  if e.1 then some e.2 else none

/-- Send a request on: recorded until its response, and linked as a cell to the VOQ of its target. `own`: an agent of the
module sends it; otherwise it is the cell of the link it came from. `dpart`: partition of the cell, which on a trunk is the DPART of
the header (04 R78, 09 R176). -/
def forwardTo (own : Bool) (tc dmod dport dpart : Nat) (f : Fwd) (s : State) : State :=
  let id := s.maps.nextId
  let f := { f with id := id, own := own, tc := tc }
  let s := { s with maps := { s.maps with fwds := s.maps.fwds ++ [f], nextId := id + 1 } }
  let m (tag : Nat) : LMsg := {
    part := dpart, tc := tc, oc := f.req.oc, out := f.out, dmod := dmod, dport := dport, tag := tag, units := reqUnits f.req
    hdr := f.via.map (·.hdr), t0 := f.via.bind (·.t0), fwd := some id, home := none, rsp := none }
  if own then
    match f.agent with
    | .wab t _ => linkMessage (.agent t 0) (m id) s
    | .alc t _ | .home t _ => linkMessage (.agent t 1) (m id) s
    | .atomic t _ => linkMessage (.agent t 2) (m id) s
    | .dma => linkMessage (.agent 0 3) (m id) s
    | .host => s
  else linkMessage (.link f.lead) (m f.req.tag) s

/-- Send a request on under the partition that it came from. -/
def forward (own : Bool) (tc dmod dport : Nat) (f : Fwd) (s : State) : State := forwardTo own tc dmod dport f.part f s

/-- A request of the module's own for a line. -/
def lineReq (op : ReqOp) (l : LineId) (data : Nat) (mask : ByteMask) (poison : Bool) : Req where
  op := op
  space := .mem
  addr := l.line * 64
  size := 64
  data := data
  cmp := 0
  mask := mask
  md := .any
  tag := 0
  reqId := 0
  pasid := none
  pmode := false
  exe := false
  ro := false
  poison := poison

/-- A forward of the module's own on a line. -/
def lineFwd (agent : Agent) (part : Nat) (bind : Option Nat) (l : LineId) (r : Req) : Fwd where
  id := 0
  agent := agent
  part := part
  bind := bind
  lead := 0
  fromVp := none
  req := r
  out := l.out
  ld := l.ld
  dpa := l.line * 64
  posted := false
  own := false
  late := false
  lateB := false
  dropped := false
  job := none
  tc := 0
  via := none

/-! ### Reservations (08 R173) -/

/-- Reservations that satisfy `p` are lost (08 R173). -/
def loseResvIf (p : Resv → Bool) (st : ResvSt) (s : State) : State :=
  let slots := s.home.slots.map fun r => if r.st == .valid && p r then { r with st := st } else r
  { s with home := { s.home with slots := slots } }

/-- Reservations on a line are lost, but for one key (08 R173). -/
def loseResv (l : LineId) (st : ResvSt) (keep : Resv → Bool) (s : State) : State :=
  loseResvIf (fun r => decide (r.line = l) && !keep r) st s

/-! ### ALC writebacks (08 R162-R165) -/

/-- A read of a line of the ALC meets the upsets of its block: one is rebuilt; with two, the lines become POIS and their reservations
are lost (08 R162). What is to be raised stands in `found`. -/
def alcFound (t : Nat) (l : LineId) (part : Nat) (s : State) : State :=
  match s.home.alcBad.find? fun x => x.1 == t && decide (x.2.1 = l) with
  | none => s
  | some x =>
    let live (y : Nat × LineId × Nat) : Bool :=
      y.1 == t && y.2.2 == x.2.2 && s.home.alc.any fun a => a.tile == t && decide (a.line = y.2.1)
    let hit := ((s.home.alcBad.filter live).map (·.2.1)).dedup
    let rest := s.home.alcBad.filter fun y => !(y.1 == t && y.2.2 == x.2.2)
    let two := decide (2 ≤ hit.length)
    let spoil (a : AlcL) : AlcL := if two && a.tile == t && hit.contains a.line then { a with pois := true } else a
    let s := { s with home := { s.home with
      alcBad := rest, alc := s.home.alc.map spoil, found := s.home.found ++ [(t, if two then some part else none)] } }
    let s := s.when two (State.each hit fun y => loseResv y .lostError fun _ => false)
    if two then bumpBy (.homeT t) F.HOME_ALC_PAR_UNCORR hit.length s else bump (.homeT t) F.HOME_ALC_PAR_CORR s

/-- Start the writeback of a DIRTY line of the ALC, read for it. -/
def alcWriteback (t : Nat) (l : LineId) (s : State) : State :=
  match s.home.alc.find? fun a => a.tile == t && decide (a.line = l) with
  | none => s
  | some a =>
    if !a.dirty || a.wback then s
    else
      let s := alcFound t l a.fill s
      let pois := s.home.alc.any fun x => x.tile == t && decide (x.line = l) && x.pois
      let alc := modFirst (fun a => a.tile == t && decide (a.line = l)) (fun a => { a with wback := true }) s.home.alc
      let s := { s with home := { s.home with alc := alc } }
      forward true 3 0 0 (lineFwd (.alc t 0) a.fill (some a.bind) l (lineReq .memWr l a.data.toNat fullMask pois)) s

/-- Every DIRTY line is written back (08 R165). -/
def alcFlush (s : State) : State := s.each s.home.alc fun a => alcWriteback a.tile a.line

/-! ### Drains (07 R139, R140) -/

/-- Start a drain of a partition at the present tick. The DIRTY lines of the ALC that it filled are written back as its entries are
(08 R165); one whose target takes no request stands for a STRANDED entry. -/
def startDrain (part : Nat) (why : DrainFor) (s : State) : State :=
  let ls := s.home.alc.filter fun a => a.fill == part && a.dirty
  let s := s.each (ls.filter fun a => usable s a.line.out) fun a => alcWriteback a.tile a.line
  { s with wab := { s.wab with
      drains := s.wab.drains ++ [⟨s.wab.nextId, part, s.tick, ls.map fun a => (a.tile, a.line), why⟩]
      nextId := s.wab.nextId + 1 } }

/-- Names of the drains of a partition that run. -/
def drainsOf (s : State) (part : Nat) : List Nat := (s.wab.drains.filter fun d => d.part == part).map (·.id)

/-- Every entry of the cut of a drain, all those allocated by its tick, is retired or STRANDED, and so is every line, which counts as
STRANDED after ACK_TMO at the latest (07 R139; 08 R165). -/
def cutDone (s : State) (d : Drain) : Bool :=
  !(s.wab.ents.any fun e => e.part == d.part && decide (e.born ≤ d.start) && !e.stranded) &&
    (decide (d.start + rd s .wabM F.WAB_CFG_ACK_TMO ≤ s.tick) ||
      !(d.lines.any fun x => s.home.alc.any fun a => a.tile == x.1 && decide (a.line = x.2) && a.wback))

/-- Early acknowledgement is withheld for a partition by an error drain, or for the module by a power drain (07 R130). -/
def eaWithheld (s : State) (part : Nat) : Bool :=
  rdb s .wabM F.WAB_MOD_STS_EA_OFF || s.wab.drains.any fun d => d.part == part && decide (d.why = .error)

/-- Post an error event of a partition: it starts an error drain (07 Table 7.1). -/
def postError (part typ : Nat) (payload : List (Nat × Nat)) (s : State) : State :=
  s |> post part typ payload |> startDrain part .error

/-! ### Outcomes of failed accesses (06 R120, Table 6.4) -/

/-- Fault kinds, numbered as ACCESS_FAULT numbers them. -/
def FK.nobind : Nat := 0
def FK.rights : Nat := 1
def FK.hold : Nat := 2
def FK.tgtDown : Nat := 3
def FK.remote : Nat := 4

/-- The index that names no binding. -/
def noIdx : Nat := 0x3FFFF

/-- The offset of a request that has none. -/
def noOff : Nat := 0xFFFFFFFFFFFFFFFF

/-- Count a fault and post ACCESS_FAULT, once for each kind in a refill slot. -/
def accessFault (part kind reqKind level idx off : Nat) (s : State) : State :=
  let pg := Page.pmd part
  let s := match kind with
    | 1 => bump pg F.PMD_FAULT_CNT0_RIGHTS s
    | 2 => bump pg F.PMD_FAULT_CNT1_HOLD s
    | 3 => bump pg F.PMD_FAULT_CNT1_TGT_DOWN s
    | _ => bump pg F.PMD_FAULT_CNT0_NOBIND s
  let k := 8 * part + kind
  let slot := s.time / 128
  if s.maps.faultSlot.contains (k, slot) then s
  else { s with maps := { s.maps with faultSlot := (s.maps.faultSlot.filter fun e => e.2 == slot) ++ [(k, slot)] } }
    |> postError part 0x0001 [(16, kind), (17, reqKind), (18, level), (20, idx), (24, off)]

/-- The responses to a requester while its partition is reset are discarded at the host link (10 Table 10.6). -/
def respond (part lead : Nat) (fromVp : Option Nat) (tag : Nat) (k : Rsp) (data : Nat) (poison : Bool) (md : MetaVal)
    (s : State) : State :=
  if resetting s part && fromVp.isNone then s else s.say (.rsp lead tag k data poison md)

/-- Record an unsupported request or a completer abort in the PMD's error registers, and signal it to the host as those registers are
set (06 R120). -/
def logUr (part : Nat) (s : State) : State :=
  { s with maps := { s.maps with urLog := tput 0 s.maps.urLog part 1 } } |> State.say (.aer part false)
def logCa (part : Nat) (s : State) : State :=
  { s with maps := { s.maps with caLog := tput 0 s.maps.caLog part 1 } } |> State.say (.aer part true)

/-- What the requester gets of a failed request (06 Table 6.4). `errmode`: ERRMODE of the binding. -/
def failReply (part lead : Nat) (fromVp : Option Nat) (kind : Nat) (errmode : Bool) (r : Req) (s : State) : State :=
  let go := respond part lead fromVp r.tag
  match r.op with
  | .memRd => go .drs allOnesLine.toNat (kind == FK.nobind || kind == FK.remote || !errmode) r.md s
  | .memInv | .memClnEvct | .memWr | .memWrPtl => go .ndr 0 false r.md s
  | .ioWrite | .otherP => if kind = FK.rights then logCa part s else logUr part s
  | .ioRead | .fetchAdd | .swap | .cas | .cfgRead | .cfgWrite | .otherNp => go (if kind = FK.rights then .cplCa else .cplUr) 0 false r.md s

/-- Attributes of an ING event of a request (13 Table 13.2); `off` is `noOff` where it has no PMD offset. -/
def reqAttr (part lead off : Nat) (r : Req) : Attr :=
  { Attr.none with pa := some part, po := some lead, v := some r.level, a := if off = noOff then none else some off }

/-- A request that does not proceed: counted, reported and answered. `off`: its PMD offset. -/
def failReq (part lead : Nat) (fromVp : Option Nat) (kind idx : Nat) (errmode : Bool) (off : Nat) (r : Req) (s : State) :
    State :=
  s |> accessFault part kind r.op.eventKind r.level idx off |> count (.ing lead) 0x05 1 (reqAttr part lead off r)
    |> failReply part lead fromVp kind errmode r

/-- Size S of the atomic aperture: the region length rounded up to a power of two (06 R110, 08 R167). -/
def apertureSize (s : State) (part : Nat) : Nat := 2 ^ Nat.clog 2 (rd s (.pmd part) F.PMD_CFG_CAP * 2 ^ 21)

/-- PMD offset of a request (06 R110); `noOff` where it has none. BAR4 holds the aperture, and after it the reservation window (08
Table 8.5). -/
def pmdOff (s : State) (part : Nat) (r : Req) : Nat :=
  match r.space with
  | .mem =>
    let b := rd s (.pmd part) F.PMD_BASE_HI_BASE * 2 ^ 32
    if rdb s (.pmd part) F.PMD_STS_DEC_COMMIT && decide (b ≤ r.addr) then r.addr - b else noOff
  | .bar2 => r.addr
  | .bar4 => let n := apertureSize s part; if r.addr < n ∨ 2 * n ≤ r.addr then r.addr else r.addr - n
  | _ => noOff

/-! ### Links (03, 04) -/

/-- End a margining scan with a result (03 Table 3.15), and complete the MARGIN command that started it. -/
def endScan (p result : Nat) (s : State) : State :=
  match s.ports.scans.find? fun m => m.ctl == p with
  | none => s
  | some m =>
    let s := { s with ports := { s.ports with scans := s.ports.scans.filter fun m => m.ctl != p } }
    let s := s |> wr (.phy p) F.PHY_MARGIN_STS_BUSY 0 |> wr (.phy p) F.PHY_MARGIN_STS_RESULT result
      |> wr (.phy p) F.PHY_MARGIN_CTL_START 0
    completeO m.ctx 0x44 St.ok (result * 2 ^ 29 + rd s (.phy p) F.PHY_MARGIN_STS_LAST_CLEAN * 2 ^ 16
      + rd s (.phy p) F.PHY_MARGIN_STS_ERR_CNT) s

/-- Lanes of a width code (03 Table 3.5). The codes 100b to 111b, which PHY_PM_CFG.NARROW_WIDTH may hold, are read as PHY_LINK_STS
has them: 100b is one lane, the others are wider than any link (log 121). -/
def lanesOf (code : Nat) : Nat := if code = 4 then 1 else 2 * 2 ^ code

/-- Lanes of the active set of the receive direction. -/
def rxLanes (s : State) (lead : Nat) : Nat :=
  match rd s (.phy lead) F.PHY_LINK_STS_RX_STATE with
  | 0 => lanesOf (rd s (.phy lead) F.PHY_LINK_STS_CUR_WIDTH)
  | 1 => (linkOf s lead).rxW
  | _ => 0

/-- Lanes of the active set of the transmit direction (03 R59). -/
def txLanes (s : State) (lead : Nat) : Nat :=
  let w := (linkOf s lead).txW
  if w = 0 then lanesOf (rd s (.phy lead) F.PHY_LINK_STS_CUR_WIDTH) else w

/-- Move a link to a phase, with UP and the states of both directions; leaving L0 aborts its scans and loses the
reservations on its lines (03 Tables 3.5, 3.15; 08 R173). -/
def setPhase (lead : Nat) (ph : Phase) (s : State) : State :=
  let st := match ph with | .off => 4 | .l0 => 0 | _ => 5
  let was := (linkOf s lead).phase
  let s := s |> modLink lead (fun l => { l with phase := ph }) |> wrb (.phy lead) F.PHY_LINK_STS_UP (ph == .l0)
    |> wr (.phy lead) F.PHY_LINK_STS_TX_STATE st |> wr (.phy lead) F.PHY_LINK_STS_RX_STATE st
  let s := s.when (was == .l0 && ph != .l0) (loseResvIf (fun r => r.line.out == lead) .lostError)
  if ph = .l0 then s else s.each (List.range' lead (ctrlsOf s lead)) fun p => endScan p 3

/-- Failed lanes are re-admitted when LANE_CLR waits for a retrain (03 R57, Table 3.7). Every entry into Recovery or Detect is such
a retrain, whether a RETRAIN caused it or not (log 121). -/
def laneReadmit (lead : Nat) (s : State) : State :=
  if rd s (.phy lead) F.PHY_LINK_CTL_LANE_CLR = 0 then s
  else s |> wrb (.phy lead) F.PHY_LINK_CTL_LANE_CLR (againNow s (.phy lead) F.PHY_LINK_CTL_LANE_CLR) |> wr (.phy lead) F.PHY_LINK_STS_DEGRADED 0
    |> State.each (failedLanes s lead) fun n s => setLane n { laneOf s n with failed := false } s

/-- A link in L0 enters Recovery (03 R56, R57; 04 R70). -/
def enterRecovery (lead : Nat) (s : State) : State :=
  if linkUp s lead then
    s |> setPhase lead .recovery |> laneReadmit lead |> wr (.phy lead) F.PHY_LINK_CTL_RETRAIN 0
      |> modLink lead (fun l => { l with
          recAt := s.tick, recW := rxLanes s lead, exTx := false, exRx := false, rxW := 0, txW := 0, sending := [] })
  else s

/-! ### Start of a partition reset (10 R199, R200) -/

/-- Remove the reservations of a partition; a line that none names loses RESV (08 R173). -/
def dropReservations (part : Nat) (s : State) : State :=
  let keep := s.home.slots.filter fun r => r.part != part
  { s with home := { s.home with
      slots := keep
      alc := s.home.alc.map fun a => { a with resv := a.resv && keep.any fun r => decide (r.line = a.line) } } }

/-- PART_RST_CNT counts a reset by its cause. -/
def countReset (part cause : Nat) (s : State) : State :=
  let pg := Page.part part
  let s := wr pg F.PART_STS_RST_CAUSE cause s
  match cause with
  | 1 => bump pg F.PART_RST_CNT_MGR s
  | 2 => bump pg F.PART_RST_CNT_HOT s
  | _ => bump pg F.PART_RST_CNT_LOST s

/-- A restart whose instant is the present tick comes before a reset requested in it (10 Table 10.8): the partition is in RUN. -/
def restartFirst (part : Nat) (s : State) : State :=
  match restartEnt s part with
  | some e =>
    if e.inst ≤ s.time then
      { s with sched := s.sched.filter fun x => x.idx != e.idx } |> setPartSt part 0 |> ownerDone e St.ok 0
    else s
  | none => s

/-- Steps 1 to 5 of a partition reset; a request while one runs joins it. -/
def partResetStart (part cause : Nat) (ctx : Option Ctx) (s : State) : State :=
  let s := s |> restartFirst part |> countReset part cause
  let s := s.when (cause == 1) (wr (.part part) F.PART_CTL_RESET 1)
  if resetting s part then modPart part (fun p => { p with resetCtx := p.resetCtx ++ ctx.toList }) s
  else
    let host := (hostLead s part).getD 512
    let quiescing := partSt s part == 1
    let ent := restartEnt s part
    let s := s |> wr (.part part) F.PART_STS_RESETTING 1
      |> modPart part (fun p => { p with
          resetAt := some s.tick, resetCtx := ctx.toList, intoStop := p.intoStop || quiescing
          snoops := (s.home.snoops.filter fun n => n.part == part && n.got.isNone).map (·.id) })
      |> dropReservations part
    let m := s.maps
    let s := { s with
      maps := { m with
        held := m.held.filter fun h => h.part != part
        ioWait := m.ioWait.filter fun w => w.part != part
        fwds := m.fwds.map fun f => if f.part == part && decide (f.agent = .host) then { f with dropped := true } else f }
      home := { s.home with loq := s.home.loq.map fun e => if e.part == part && e.lead < 512 then { e with dropRsp := true } else e }
      sched := s.sched.filter fun e => decide (e.act ≠ .restart part) }
    let s := match ent with
      | some e => ownerDone e St.cancelled 0 s
      | none => s
    let s := startDrain part .reset s
    let gone := (s.core.cells.filter fun c => c.out == host && c.part == part && decide (c.stage = .egress)).map (·.id)
    let s := s.each gone discardCell
    let devs := (List.range' 1 63).filterMap fun v => let w := vpOf s part v; if w.pwr then w.lead else none
    s.each devs fun l => State.say (.hotReset l)

/-! ### FATAL handling (12 R242) and the raising of a source (12 R229-R236) -/

/-- EMBER is held at its level. -/
def holdEmber (s : State) : State := { s with flt := { s.flt with emberHeld := true, ember := emberLevel s } }

/-- The module relocks: reason 0 lifetime, 1 RELOCK, 2 FATAL (16 R315, R316). -/
def relockNow (reason : Nat) (s : State) : State :=
  if !s.dbg.unlocked then s
  else { s with
      dbg := { s.dbg with unlocked := false, scope := 0, serial := 0, expires := none, nonce := some (Config.freeNonce s.free) }
      free := s.free + 1 }
    |> post 128 0x0022 [(16, reason)]

/-- Step 1 and the start of step 2 of FATAL handling; PORT and PARTITION handling that is open is abandoned. -/
def fatalStart (n : Nat) (s : State) : State :=
  let s := holdEmber s
  let s := { s with
    flt := { s.flt with
      fatal := some ⟨s.tick, s.time, n, s.mode.code, none, false⟩
      srcs := s.flt.srcs.map fun e =>
        (e.1, { e.2 with opens := e.2.opens.filter fun h => h.react != React.port && h.react != React.partition }) }
    wab := { s.wab with wait := some s.tick } }
  s |> relockNow 2 |> State.say (.order 1 n) |> alcFlush

/-- The page counts a merged assertion (12 R234). -/
def countMerge (n : Nat) (s : State) : State :=
  match srcPage n with
  | some (pg, _) => bump pg F.ERR_MERGE_CNT_MERGES s
  | none => s

/-- What the collector orders for a reaction, beside counting and FAULT (12 Table 12.3). -/
def react (r n : Nat) (part link : Option Nat) (s : State) : State :=
  if r = React.port then
    match link with
    | some l => enterRecovery l s
    | none => s
  else if r = React.partition then
    match part with
    | some p => s |> startDrain p .error |> partResetStart p 1 none
    | none => s
  else if r = React.fatal then fatalStart n s
  else s

/-- A source asserts: `part` is the partition it is raised against, `link` the link concerned, `wire` the source whose pair is
broken, `force` a reaction that stands in for REACT (06 R116). -/
def raiseAs (force : Option Nat) (n : Nat) (part link : Option Nat) (wire : Nat) (s : State) : State :=
  match srcInfo n, srcPage n with
  | some info, some (pg, _) =>
    let lead := (n - 0x200) / 4
    if 0x200 ≤ n ∧ !isLead s lead then s
    else
      let link := if 0x200 ≤ n then some lead else link
      let r := force.getD (reactOf s n)
      let x := srcOf s n
      let inPart := info.domain == 2 && part.isSome
      let j := part.getD 0
      let had := errPartBit s pg j
      let s := s.when inPart (setErrPart pg j true)
      let x := if x.asTick = some s.tick then x else { x with asTick := some s.tick, asOpen := false, merged := [] }
      if srcMasked s n || x.pair == 2 || s.mode == .off || s.mode == .precharge then s
      else if s.flt.fatal.isSome then s |> setSrc n { x with sticky := true, asOpen := true } |> countMerge n
      else if r != React.fatal && (if inPart then had else x.sticky) then
        (s.when (!inPart) (setSrc n { x with merged := x.merged ++ [(part, link, wire)] })) |> countMerge n
      else
        let cnt := min (x.cnt + 1) 0xFFFFFFFF
        let dom := if r = React.fatal then 3 else if inPart then 2 else if info.domain = 1 then 1 else 0
        let who := if dom = 2 then j else if dom = 1 then lead else 0
        let ap := if (r = React.partition ∧ !inPart) ∨ (r = React.port ∧ link = none) then React.corrected else r
        let h : Handling := ⟨ap, link, if dom = 2 then part else none, s.tick⟩
        let s := s |> setSrc n { x with sticky := true, cnt := cnt, asOpen := true, opens := x.opens ++ [h] }
          |> post 128 0x10 [(16, n), (18, r), (19, dom), (20, who), (22, wire), (24, cnt)]
        let s := s.when (info.deg && r != React.fatal && decide (s.mode = .run)) (setMode .degraded)
        react r n part link s
  | _, _ => s

/-- A source asserts with its own reaction. -/
def raise (n : Nat) (part link : Option Nat) (s : State) : State := raiseAs none n part link 0 s

/-- An assertion: source, partition, link, a reaction that stands in for REACT (06 R116). -/
structure Assertion where
  src   : Nat
  part  : Option Nat
  link  : Option Nat
  force : Option Nat
deriving DecidableEq, Repr

/-- The collector hears a source. -/
def heard (s : State) (n : Nat) : Bool :=
  (srcInfo n).isSome && (srcPage n).isSome && !(decide (0x200 ≤ n) && !isLead s ((n - 0x200) / 4)) && !srcMasked s n
    && (srcOf s n).pair != 2 && s.mode != .off && s.mode != .precharge

/-- Assertions that fall in one core clock, in ascending source number: when one of them opens FATAL handling, the others merge
(12 R236). -/
def raiseSame (l : List Assertion) (s : State) : State :=
  let go (a : Assertion) : State → State := raiseAs a.force a.src a.part a.link 0
  match (if s.flt.fatal.isSome then none else l.find? fun a => a.force.getD (reactOf s a.src) == React.fatal && heard s a.src) with
  | some a => s |> go a |> State.each (l.erase a) go
  | none => s.each l go

/-- What writebacks have found of upsets in the ALC is raised (08 R162). -/
def alcReport (s : State) : State :=
  let l := s.home.found
  s.each l (fun x => match x.2 with
    | some p => raise (tileSrcNo x.1 12) (some p) none
    | none => raise (tileSrcNo x.1 11) none none) |> fun s =>
      { s with home := { s.home with found := s.home.found.drop l.length } }

/-- With AUTOCLR the sticky bit of a source clears once none of its handling is open, for a partition source once the last ERR_PART bit
of its page has cleared (12 R235; log 150). -/
def autoClear (n : Nat) (s : State) : State :=
  let last := match srcInfo n, srcPage n with
    | some i, some (pg, _) => i.domain != 2 || errPartNone s pg
    | _, _ => true
  if rdb s .flt F.FLT_CFG_AUTOCLR && last && !(srcOf s n).opened then modSrc n (fun x => { x with sticky := false }) s else s

/-- Handling of a source that satisfies `p` closes. -/
def closeHandling (p : Handling → Bool) (n : Nat) (s : State) : State :=
  if (srcOf s n).opens.any p then
    s |> modSrc n (fun x => { x with opens := x.opens.filter fun h => !p h }) |> autoClear n
  else s

/-- Sources with open handling that satisfies `p`. -/
def openWith (s : State) (p : Handling → Bool) : List Nat := (s.flt.srcs.filter fun e => e.2.opens.any p).map (·.1)

/-- Handling that satisfies `p` closes, whichever its source. -/
def closeAll (p : Handling → Bool) (s : State) : State := s.each (openWith s p) (closeHandling p)

/-- PORT handling of a link closes: it has reached L0, or it has gone down for good (12 Table 12.3). -/
def closePort (lead : Nat) (s : State) : State :=
  closeAll (fun h => h.react == React.port && decide (h.link = some lead)) s

/-- A link goes down for good. -/
def setOff (lead : Nat) (s : State) : State := s |> setPhase lead .off |> closePort lead

end Sys2Proof.Machine
end

