-- ==== Sys2Proof/Machine/WabOps.lean ====
section
/-!
DEFINITION. Sys2Proof/Machine/WabOps.lean: the Write Acceptance Buffer (07): allocation, merging, stranding, retirement.
-/
namespace Sys2Proof.Machine

/-- Ten times the trained rate of a link, in GT/s (03 Table 3.6). -/
def rate10 (code : Nat) : Nat := [25, 80, 160, 320, 640, 1280].getD code 0

/-- Target limit of a link (07 R130). -/
def tgtLimit (s : State) (out : Nat) : Nat :=
  let r := if linkDown s out then 0 else rate10 (rd s (.phy out) F.PHY_LINK_STS_CUR_RATE)
  max 16 (rd s .wabM F.WAB_CFG_TGT_LIM * ctrlsOf s out * r / 640)

/-- The entry of a partition for a line in a tile. -/
def wabAt (s : State) (t part : Nat) (l : LineId) : Option WabE :=
  s.wab.ents.find? fun e => e.tile == t && e.part == part && decide (lineAt e.out e.ld e.dpa = l)

def modWab (t id : Nat) (f : WabE → WabE) (s : State) : State :=
  { s with wab := { s.wab with ents := modFirst (fun e => e.tile == t && e.id == id) f s.wab.ents } }

def wabEnt (s : State) (t id : Nat) : Option WabE := s.wab.ents.find? fun e => e.tile == t && e.id == id

/-- STRANDED lines of a binding. -/
def strandedOf (s : State) (idx : Nat) : Nat := (s.wab.ents.filter fun e => e.bind == idx && e.stranded).length

/-- STRANDED lines of a partition in all tiles (07 Table 7.19). -/
def strandedPart (s : State) (p : Nat) : Nat := (s.wab.ents.filter fun e => e.part == p && e.stranded).length

def noteOf (s : State) (idx : Nat) : LossNote := tget LossNote.reset s.wab.notes idx
def setNote (idx : Nat) (n : LossNote) (s : State) : State :=
  { s with wab := { s.wab with notes := tput LossNote.reset s.wab.notes idx n } }

/-- WRITE_LOSS of a binding, once until it has had a whole epoch without a STRANDED entry (07 R135). -/
def noteLoss (part idx : Nat) (s : State) : State :=
  let n := noteOf s idx
  let s := setNote idx { n with noted := true, clean := false } s
  if n.noted then s else postError part 0x0004 [(20, idx), (24, strandedOf s idx)] s

/-- Attributes of a WAB event (13 Table 13.2). -/
def wabAttr (part out off : Nat) : Attr := { Attr.none with pa := some part, po := some out, a := some off }

/-- A cell of the module still waits to leave with the request. -/
def cellWaits (s : State) (f : Fwd) : Bool :=
  s.core.cells.any fun c => c.fwds.contains f.id && c.stage != .sent

/-- Forwards of an entry that still wait in the module, or its reissues. -/
def wabWaiting (s : State) (e : WabE) (own : Bool) : Nat :=
  (s.maps.fwds.filter fun f => decide (f.agent = .wab e.tile e.id) && f.own == own && cellWaits s f).length

/-- Entries become STRANDED; one WRITE_LOSS for each binding concerned (07 R134, R135). `drop`: their link leaves L0 for Detect, and the
forwards that have left the module are discarded. -/
def strand (drop : Bool) (p : WabE → Bool) (s : State) : State :=
  let hit := s.wab.ents.filter fun e => p e && !e.stranded
  let f (e : WabE) : WabE :=
    if !p e then e
    else if drop then { e with stranded := true, outs := wabWaiting s e false, re := wabWaiting s e true, det := true }
    else { e with stranded := true }
  let s := { s with wab := { s.wab with ents := s.wab.ents.map f } }
  let s := s.each hit fun e => count (.wabT e.tile) 0x23 1 { Attr.none with pa := some e.part, po := some e.out }
  s.each ((hit.map fun e => (e.part, e.bind)).dedup) fun b => noteLoss b.1 b.2

/-- An entry retires: WRITE_RECOVERED when it was the last STRANDED one of its binding (07 R132, R135). -/
def wabRetire (t id : Nat) (s : State) : State :=
  match wabEnt s t id with
  | none => s
  | some e =>
    let s := { s with wab := { s.wab with ents := s.wab.ents.filter fun x => !(x.tile == t && x.id == id) } }
    if !e.stranded then s
    else
      let n := noteOf s e.bind
      let s := setNote e.bind { n with recov := n.recov + 1 } s
      if strandedOf s e.bind = 0 then
        s |> setNote e.bind { n with recov := 0 } |> post e.part 0x0005 [(20, e.bind), (24, n.recov + 1)]
      else s

/-- A write is eligible for early acknowledgement (07 R128). -/
def eaEligible (b : Binding) (r : Req) : Bool := r.op.isMemWrite && b.running && b.earlyAck && b.kind == 0

/-- A write that is not acknowledged early overwrites the bytes of its line's entry all the same, so that the later write's bytes
prevail in the WAB too (07 R132, Table 7.5; log 148). -/
def wabPatch (t part : Nat) (l : LineId) (r : Req) (s : State) : State :=
  match wabAt s t part l with
  | some e => modWab t e.id (fun e => { e with
      data := mergeLine r.wmask (BitVec.ofNat 512 r.data) e.data, mask := e.mask ||| r.wmask }) s
  | none => s

/-- An eligible write of a line receives or merges into an entry of a tile (07 R130-R132); none: it falls back. An entry toward a target
that is down or not in RUN is STRANDED at once (log 161). `f`: the forward without its name. -/
def wabTake (t : Nat) (b : Binding) (l : LineId) (f : Fwd) (s : State) : Option State :=
  let data : LineData := BitVec.ofNat 512 f.req.data
  let mask := f.req.wmask
  match wabAt s t f.part l with
  | some e =>
    let s := s |> modWab t e.id (fun e => { e with data := mergeLine mask data e.data, mask := e.mask ||| mask })
      |> count (.wabT t) 0x21 1 (wabAttr f.part l.out (b.offOf f.dpa))
    if e.stranded || e.re != 0 then some s
    else some (s |> modWab t e.id (fun e => { e with outs := e.outs + 1 })
      |> forward false b.tc 0 0 { f with agent := .wab t e.id })
  | none =>
    let inTile := s.wab.ents.filter fun e => e.tile == t
    if decide (65536 ≤ inTile.length) ||
        decide (rd s (.pmd f.part) F.PMD_WAB_CFG_LIMIT ≤ (inTile.filter fun e => e.part == f.part).length) ||
        decide (tgtLimit s l.out ≤ (inTile.filter fun e => e.out == l.out).length) || eaWithheld s f.part
    then none
    else
      let id := s.wab.nextId
      let up := usable s l.out
      let e : WabE :=
        { id := id, tile := t, part := f.part, bind := f.bind.getD 0, out := l.out, ld := l.ld, dpa := l.line * 64
          mask := mask, data := data, stranded := false, outs := if up then 1 else 0, re := 0
          deadline := s.tick + rd s .wabM F.WAB_CFG_ACK_TMO, err := false, lost := false, born := s.tick, det := false }
      let s := { s with wab := { s.wab with ents := s.wab.ents ++ [e], nextId := id + 1 } }
      let s := count (.wabT t) 0x20 1 (wabAttr f.part l.out (b.offOf f.dpa)) s
      if up then some (forward false b.tc 0 0 { f with agent := .wab t id } s)
      else some (strand true (fun x => x.tile == t && x.id == id) s)

/-- Count an eligible write that fell back (07 R130). -/
def countFallback (t part out off : Nat) (s : State) : State :=
  s |> bump (.wabT t) F.WAB_CNT_FALLBACK |> count (.wabT t) 0x22 1 (wabAttr part out off)

/-- Upsets strike lines of a tile's WAB and ALC; the next read finds them. -/
def strike (t : Nat) (u : Upset) (s : State) : State :=
  { s with
    wab := { s.wab with bad := s.wab.bad ++ u.wab.map fun x => (t, x.1, x.2) }
    home := { s.home with alcBad := s.home.alcBad ++ u.alc.map fun x => (t, ⟨x.1.1, x.1.2.1, x.1.2.2⟩, x.2) } }

/-- A read of a WAB line meets the upsets of its block: one bad line is rebuilt; two or more lose their data (07 R148). -/
def wabRead (t id : Nat) (s : State) : State :=
  match s.wab.bad.find? fun x => x.1 == t && x.2.1 == id with
  | none => s
  | some x =>
    let hit := s.wab.ents.filter fun e => e.tile == t && s.wab.bad.contains (t, e.id, x.2.2)
    let s := { s with wab := { s.wab with bad := s.wab.bad.filter fun y => !(y.1 == t && y.2.2 == x.2.2) } }
    if hit.length ≤ 1 then s |> bump (.wabT t) F.WAB_PAR_CNT_CORR |> raise (tileSrcNo t 9) none none
    else
      s |> State.each hit (fun e => modWab t e.id fun e => { e with lost := true }) |> bumpBy (.wabT t) F.WAB_PAR_CNT_UNCORR hit.length
        |> State.each (hit.map (·.part)).dedup fun p => raise (tileSrcNo t 10) (some p) none

/-- Reissue an entry, read for it, by the WAB drain agent; an entry whose data is lost goes with poison and WRITE_LOSS (07 R136, R148). -/
def wabSend (t id : Nat) (s : State) : State :=
  let s := wabRead t id s
  match wabEnt s t id with
  | none => s
  | some e =>
    let l := lineAt e.out e.ld e.dpa
    let op := if e.mask = fullMask then ReqOp.memWr else .memWrPtl
    let s := s |> modWab t id (fun e => { e with
        re := e.re + 1, err := false, det := false, deadline := s.tick + rd s .wabM F.WAB_CFG_ACK_TMO })
      |> bump (.wabT t) F.WAB_CNT_REISSUE
      |> forward true (bindOf s e.bind).tc 0 0
        (lineFwd (.wab t id) e.part (some e.bind) l (lineReq op l e.data.toNat e.mask e.lost))
    if e.lost then postError e.part 0x0004 [(20, e.bind), (24, max 1 (strandedOf s e.bind))] s else s

/-- A forward, or a reissue (`own`), of an entry is freed before it left: the entry is STRANDED, and is reissued as after Detect (07 R132,
R136; log 149). -/
def wabFreed (t id : Nat) (own : Bool) (s : State) : State :=
  s |> modWab t id (fun e => if own then { e with re := e.re - 1, det := true } else { e with outs := e.outs - 1, det := true })
    |> strand false fun x => x.tile == t && x.id == id

/-- A target acknowledges a forward, or a reissue (`own`): the entry retires when nothing of it is outstanding, and nothing was
discarded since its last reissue; an error strands it (07 R132, R134, R136). -/
def wabAcked (t id : Nat) (own ok : Bool) (s : State) : State :=
  match wabEnt s t id with
  | none => s
  | some e =>
    let g (e : WabE) : WabE := if own then { e with re := e.re - 1 } else { e with outs := e.outs - 1 }
    let s := modWab t id (fun e => { g e with err := e.err || !ok }) s
    if ok && !e.err && !e.det && (g e).outs == 0 && (g e).re == 0 then wabRetire t id s
    else if ok then s
    else strand false (fun x => x.tile == t && x.id == id) s

end Sys2Proof.Machine
end

