-- ==== Sys2Proof/Machine/HomeOps.lean ====
section
/-!
DEFINITION. Sys2Proof/Machine/HomeOps.lean: the coherence home (08): requests on their way to it, snoops, the Halo ring, the
Atomic Line Cache, reservations, and the answers it gives.
-/
namespace Sys2Proof.Machine

/-! ### Parts of a CXL.io request (06 R361) -/

def jobOf (s : State) (id : Nat) : Option IoJob := s.maps.jobs.find? fun j => j.id == id

/-- One part of a CXL.io request is done; the last one completes the request. -/
def jobPart (id : Nat) (r : Req) (line : Nat) (ok poison : Bool) (s : State) : State :=
  match jobOf s id with
  | none => s
  | some j =>
    let got := if ok then bits line (8 * (r.addr % 64)) (8 * r.size) * 2 ^ (8 * (r.addr - j.req.addr)) else 0
    let j' := { j with left := j.left - 1, data := j.data + got, fail := j.fail || !ok, poison := j.poison || poison }
    if j'.left ≠ 0 then
      { s with maps := { s.maps with jobs := modFirst (fun x => x.id == id) (fun _ => j') s.maps.jobs } }
    else
      let s := { s with maps := { s.maps with jobs := s.maps.jobs.filter fun x => x.id != id } }
      if j.req.op.isPosted then (if j'.fail then logUr j.part s else s)
      else if j'.fail then respond j.part j.lead j.fromVp j.req.tag .cplUr 0 false j.req.md s
      else respond j.part j.lead j.fromVp j.req.tag .cplOk j'.data j'.poison j.req.md s

/-- The good answer to a request or a part: `line` is the 64-byte line. -/
def answer (part lead : Nat) (fromVp : Option Nat) (job : Option Nat) (r : Req) (line : Nat) (poison : Bool) (s : State) :
    State :=
  match job with
  | some j => jobPart j r line true poison s
  | none =>
    match r.op with
    | .memRd => respond part lead fromVp r.tag .drs line poison r.md s
    | .memInv | .memWr | .memWrPtl | .memClnEvct => respond part lead fromVp r.tag .ndr 0 false r.md s
    | .ioWrite | .otherP => s
    | _ => respond part lead fromVp r.tag .cplOk line poison r.md s

/-- The outcome of a request or a part that does not proceed. -/
def refuse (part lead : Nat) (fromVp : Option Nat) (job : Option Nat) (kind idx : Nat) (errmode : Bool) (r : Req) (s : State) :
    State :=
  match job with
  | some j =>
    match jobOf s j with
    | none => s
    | some x =>
      let off := pmdOff s part x.req
      let s := s.when (!x.fail) (fun s => s |> accessFault part kind x.req.op.eventKind x.req.level idx off
        |> count (.ing lead) 0x05 1 (reqAttr part lead off x.req))
      jobPart j r 0 false false s
  | none => failReq part lead fromVp kind idx errmode (pmdOff s part r) r s

/-! ### Requests to a home (08 R150, R154) -/

/-- The group that stands for a segment that is not SHARED. -/
def noGroup : Nat := 4096

/-- A CXL.mem write, which may be a writeback (08 R153). -/
def LoqE.isWb (e : LoqE) : Bool := e.req.op.isMemWrite && decide (e.kind = .mem)

/-- A write that may use the entries kept for writes (08 R155). -/
def LoqE.isStore (e : LoqE) : Bool := e.isWb && decide (e.group < noGroup)

/-- Send a request toward its home, in the cell of the link that it came from or in one of the debug master (08 R154). -/
def sendHome (e : LoqE) (s : State) : State :=
  let id := s.home.nextId
  let s := { s with home := { s.home with loq := s.home.loq ++ [{ e with id := id }], nextId := id + 1 } }
  let m (tag tc : Nat) : LMsg := {
    part := e.part, tc := tc, oc := e.req.oc, out := homeOut e.isStore e.tile, dmod := 0, dport := 0, tag := tag
    units := reqUnits e.req, hdr := none, t0 := none, fwd := none, home := some id, rsp := none }
  if e.lead < 512 then linkMessage (.link e.lead) (m e.req.tag (bindOf s e.bind).tc) s
  else linkMessage (.agent 0 3) (m id 3) s

/-- A request at the start of its way to a home. -/
def LoqE.start (t part lead : Nat) (fromVp : Option Nat) (l : LineId) (bind group : Nat) (kind : LoqKind) (r : Req)
    (late lateB : Bool) (job : Option Nat) : LoqE where
  id := 0
  tile := t
  part := part
  lead := lead
  fromVp := fromVp
  line := l
  bind := bind
  group := group
  kind := kind
  req := r
  order := 0
  stage := .travel
  stations := []
  localDone := false
  snooped := []
  mergedMask := 0
  mergedData := 0
  timedOut := []
  dropRsp := false
  late := late
  lateB := lateB
  job := job
  plan := 0

def loqOf (s : State) (id : Nat) : Option LoqE := s.home.loq.find? fun e => e.id == id
def modLoq (id : Nat) (f : LoqE → LoqE) (s : State) : State :=
  { s with home := { s.home with loq := modFirst (fun e => e.id == id) f s.home.loq } }

/-- A request leaves the LOQ. -/
def loqDone (id : Nat) (s : State) : State :=
  { s with home := { s.home with loq := s.home.loq.filter fun e => e.id != id } }

/-! ### Responses to a link of another tile (01 R11; 05 R91, R104) -/

/-- The responses on a link among what is said, and the rest. -/
def splitRsps (lead : Nat) : List Out → List RspRec × List Out
  | [] => ([], [])
  | o :: t =>
    let (a, b) := splitRsps lead t
    match o with
    | .rsp l tag kind data poison md => if l = lead then (⟨l, tag, kind, data, poison, md⟩ :: a, b) else (a, o :: b)
    | _ => (a, o :: b)

/-- Where a response starts, and what it answers: input, partition, traffic class, tag, link of the requester, request. -/
structure RspWay where
  ent  : Entry
  part : Nat
  tc   : Nat
  tag  : Nat
  lead : Nat
  req  : Req
deriving DecidableEq, Repr

/-- A response takes the cell of its flit, or one of its own, to the egress of the requester's link. -/
def rspCell (w : RspWay) (x : RspRec) (s : State) : State :=
  linkMessage w.ent {
    part := w.part, tc := w.tc, oc := x.kind.oc, out := w.lead, dmod := 0, dport := 0, tag := w.tag, units := rspUnits w.req x.kind
    hdr := none, t0 := none, fwd := none, home := none, rsp := some x } s

/-- Responses that `g` gives on a link of another tile cross the bundle in cells, and are said when they leave (01 R11); in the tile
itself they are said at once (log 147). -/
def carried (w : RspWay) (g : State → State) (s : State) : State :=
  let t := g s
  if 512 ≤ w.lead ∨ tileOf w.lead = w.ent.tile then t
  else
    let (mine, rest) := splitRsps w.lead (t.out.drop s.out.length)
    { t with out := s.out ++ rest } |> State.each mine (rspCell w)

/-- The way of the answer to a request in the LOQ. -/
def LoqE.way (s : State) (e : LoqE) : RspWay :=
  ⟨.agent e.tile 1, e.part, (bindOf s e.bind).tc, s.home.nextId, e.lead, ((e.job.bind (jobOf s)).map (·.req)).getD e.req⟩

/-- The request is the debug master's, which has no link (16 R317). -/
def LoqE.isDbg (e : LoqE) : Bool := e.lead == 512

/-- The debug master's access has its answer, which DBG_MEM_DONE takes. -/
def dbgAnswer (down : Bool) (line : Nat) (s : State) : State :=
  { s with dbg := { s.dbg with answer := some ⟨down, BitVec.ofNat 512 line⟩ } }

/-- The answer of a request in the LOQ, unless it is to be discarded. -/
def loqAnswer (e : LoqE) (line : Nat) (poison : Bool) (s : State) : State :=
  if e.isDbg then dbgAnswer false line s else if e.dropRsp then s else carried (e.way s) (answer e.part e.lead e.fromVp e.job e.req line poison) s

/-- The outcome of a request in the LOQ that fails. -/
def loqRefuse (e : LoqE) (kind : Nat) (s : State) : State :=
  if e.isDbg then dbgAnswer true 0 s
  else if e.dropRsp then s
  else carried (e.way s) (refuse e.part e.lead e.fromVp e.job kind e.bind (bindOf s e.bind).errmode e.req) s

/-- A completer abort to a request of the LOQ (08 R168). -/
def loqAbort (e : LoqE) (s : State) : State :=
  if e.dropRsp then s else carried (e.way s) (respond e.part e.lead e.fromVp e.req.tag .cplCa 0 false e.req.md) s

/-- A line of the ALC is being written back: its LOQ order is closed (08 R164). -/
def wbackOut (s : State) (t : Nat) (l : LineId) : Bool := s.home.alc.any fun a => a.tile == t && decide (a.line = l) && a.wback

/-- A request is at the head of its line, none of which is in service, and the home has room to serve it (08 R154, R164). -/
def atHead (s : State) (e : LoqE) : Bool :=
  e.stage == .queued &&
    !(s.home.loq.any fun x => x.tile == e.tile && x.stage != .travel && decide (x.line = e.line) &&
      (decide (x.order < e.order) || x.stage != .queued)) &&
    !wbackOut s e.tile e.line &&
    decide ((s.home.loq.filter fun x => x.tile == e.tile && x.stage != .travel && x.stage != .queued).length < 256)

/-- Count an event of a home (13 Table 13.2). -/
def countHome (t code part : Nat) (s : State) : State := count (.homeT t) code 1 { Attr.none with pa := some part } s

/-! ### Halo (08 R151, R152, R174) -/

def haloPut (src dst : Nat) (m : HaloMsg) (s : State) : State :=
  { s with home := { s.home with halo := s.home.halo ++ [⟨s.home.nextId, src, dst, m, 0, true⟩], nextId := s.home.nextId + 1 } }

/-- A message from one station to all others. -/
def haloAll (src : Nat) (m : HaloMsg) (s : State) : State :=
  s.each ((List.range 8).filter (· != src)) fun d => haloPut src d m

/-- Members of a group. -/
def sgMembers (s : State) (g : Nat) : List Nat := (List.range 128).filter fun p => bit (tget 0 s.home.sgMem g) p

/-- A partition is fenced out of a group (08 R160). -/
def fencedOut (s : State) (g p : Nat) : Bool := decide (g < noGroup) && bit (tget 0 s.home.sgFenced g) p

/-- Members that a station snoops: host link on its tile, not excluded, not fenced out. For a line of no group it is the
partition whose segment holds it. -/
def membersAt (s : State) (t group : Nat) (excl : Option Nat) (own : Nat) : List (Nat × Nat) :=
  let ms := if group < noGroup then sgMembers s group else [own]
  ms.filterMap fun p =>
    match hostLead s p with
    | some l => if tileOf l = t ∧ excl ≠ some p ∧ !fencedOut s group p then some (p, l) else none
    | none => none

/-- Send the BISnp of a broadcast on the host links of a tile (08 R152, R160). -/
def snoopTile (t loq : Nat) (line : LineId) (kind : SnoopKind) (ms : List (Nat × Nat)) (s : State) : State :=
  s.each ms fun m s =>
    let id := s.home.nextId
    let sn : Snoop :=
      { id := id, tile := t, part := m.1, lead := m.2, loq := loq, line := line, kind := kind
        deadline := s.tick + rd s .homeM F.HOME_CFG_SNP_TMO, conflict := false, heldRsp := none, wbMerged := false
        wbLeft := 0, got := none }
    { s with home := { s.home with snoops := s.home.snoops ++ [sn], nextId := id + 1 } } |> State.say (.bisnp m.2 id kind line)

/-- Snoops of a request that a tile still waits for. -/
def openAt (s : State) (t loq : Nat) : List Snoop := s.home.snoops.filter fun n => n.tile == t && n.loq == loq && n.got.isNone

/-- A request broadcasts its snoop: BCAST to the seven other stations, BISnp on the home's own tile. -/
def broadcast (id : Nat) (kind : SnoopKind) (excl : Option Nat) (s : State) : State :=
  match loqOf s id with
  | none => s
  | some e =>
    let ms := membersAt s e.tile e.group excl e.part
    let s := s |> bump (.homeT e.tile) F.HOME_BC_CNT_BCAST |> countHome e.tile 0x29 e.part |> haloAll e.tile (.bcast id e.line e.group kind excl)
      |> snoopTile e.tile id e.line kind ms
    modLoq id (fun e => { e with
      stage := .snooping, stations := (List.range 8).filter (· != e.tile), localDone := ms.isEmpty
      snooped := ms.map (·.1) }) s

/-- Links of the ring from a station to another in a direction (true: ascending), each named by the station that sends on it (08
R151). -/
def ringWay (src dst : Nat) (up : Bool) : List (Nat × Bool) :=
  if up then (List.range ((dst + 8 - src) % 8)).map fun i => ((src + i) % 8, true)
  else (List.range ((src + 8 - dst) % 8)).map fun i => ((src + 8 - i) % 8, false)

/-- The way of a message: the shorter direction, the ascending one at a distance of 4; the other one when a link of it is retired;
none when the ring is split between the two (08 R151, R174). -/
def haloWay (s : State) (src dst : Nat) : Option (List (Nat × Bool)) :=
  let first := decide ((dst + 8 - src) % 8 ≤ 4)
  let free (w : List (Nat × Bool)) : Bool := w.all fun x => !s.home.haloDown.contains x
  if free (ringWay src dst first) then some (ringWay src dst first)
  else if free (ringWay src dst !first) then some (ringWay src dst !first)
  else none

/-- A message that is being repeated stands ahead of a later one on a link of that one's way (08 R174). -/
def haloBehind (s : State) (m : HaloE) (way : List (Nat × Bool)) : Bool :=
  s.home.halo.any fun x => decide (x.id < m.id) && x.fails != 0 && match haloWay s x.src x.dst with
    | some (l :: _) => way.contains l
    | _ => false

/-- A message fails its check on a link of its way, which it has reached: the sending station holds it and repeats it. After LIM
failures in a row the link is retired, and the message goes the other way (08 R174). -/
def haloFail (m : HaloE) (link : Nat × Bool) (s : State) : State :=
  let (t, up) := link
  let n := if t = m.src ∧ up = m.up then m.fails + 1 else 1
  let hold (k : Nat) (s : State) : State := { s with home := { s.home with
    halo := modFirst (fun x => x.id == m.id) (fun x => { x with src := t, fails := k, up := up }) s.home.halo } }
  let raised (ks : List Nat) : State → State := raiseSame (ks.map fun k => ⟨tileSrcNo t k, none, none, none⟩)
  let s := s |> bump (.halo t) F.HALO_CNT_RETRY
  if n < rd s (.halo t) F.HALO_CFG_LIM then s |> raised [14] |> hold n
  else
    let second := !s.home.haloDown.isEmpty
    let s := hold 0 s
    let s := { s with home := { s.home with haloDown := s.home.haloDown ++ [(t, up)] } }
    let s := wr (.halo t) (if up then F.HALO_STS_UP_OK else F.HALO_STS_DN_OK) 0 s
    raised (if second then [14, 15, 16] else [14, 15]) s

def haloDrop (id : Nat) (s : State) : State :=
  { s with home := { s.home with halo := s.home.halo.filter fun m => m.id != id } }

/-! ### The Atomic Line Cache (08 R162-R164) -/

def alcAt (s : State) (t : Nat) (l : LineId) : Option AlcL :=
  s.home.alc.find? fun a => a.tile == t && decide (a.line = l) && !a.wback

def modAlc (t : Nat) (l : LineId) (f : AlcL → AlcL) (s : State) : State :=
  { s with home := { s.home with alc := modFirst (fun a => a.tile == t && decide (a.line = l)) f s.home.alc } }

/-- A line is used: it becomes the most recently used. -/
def alcTouch (t : Nat) (l : LineId) (s : State) : State :=
  let s := modAlc t l (fun a => { a with used := s.home.useSeq }) s
  { s with home := { s.home with useSeq := s.home.useSeq + 1 } }

/-- A line leaves the cache: written back when DIRTY, dropped at once otherwise (08 R163, R164). One that a drain is writing back leaves
with that writeback. -/
def alcDrop (t : Nat) (l : LineId) (s : State) : State :=
  match s.home.alc.find? fun a => a.tile == t && decide (a.line = l) && !a.drop with
  | none => s
  | some a =>
    let s := bump (.homeT t) F.HOME_ALC_CNT_EVICTS s
    if a.wback then modAlc t l (fun a => { a with drop := true }) s
    else if a.dirty then s |> modAlc t l (fun a => { a with drop := true }) |> alcWriteback t l
    else { s with home := { s.home with alc := s.home.alc.filter fun x => !(x.tile == t && decide (x.line = l)) } }

/-- The way that a fill replaces: the least recently used line of the set without RESV, else the least recently used. -/
def alcVictim (s : State) (t : Nat) (l : LineId) : Option AlcL :=
  let inSet := s.home.alc.filter fun a => a.tile == t && !a.drop && alcSet a.line == alcSet l
  if inSet.length < 16 then none
  else
    let c := if inSet.any (fun a => !a.resv) then inSet.filter (fun a => !a.resv) else inSet
    c.foldl (fun b a => match b with | some x => if a.used < x.used then some a else some x | none => some a) none

/-- A line is filled (08 R164). -/
def alcFill (t : Nat) (l : LineId) (part bind : Nat) (data : LineData) (s : State) : State :=
  let s := match alcVictim s t l with
    | some v => s |> State.when v.resv (loseResv v.line .lostEvict fun _ => false) |> alcDrop t v.line
    | none => s
  let a : AlcL :=
    { tile := t, line := l, excl := true, dirty := false, resv := false, pois := false, fill := part, bind := bind
      data := data, used := s.home.useSeq, wback := false, drop := false }
  { s with home := { s.home with alc := s.home.alc ++ [a], useSeq := s.home.useSeq + 1 } }
    |> bump (.homeT t) F.HOME_ALC_CNT_FILLS

/-- A request reads a line of the ALC: the upsets of its block are found and raised against its partition (08 R162). -/
def alcRead (t : Nat) (l : LineId) (part : Nat) (s : State) : State := s |> alcFound t l part |> alcReport

/-- Bytes of an AtomicOp's operand at a byte of a line, and the line after it (08 R167, R169). -/
def atomicRun (r : Req) (line : LineData) : Nat × LineData :=
  let sh := 8 * (r.addr % 64)
  let w := 8 * r.size
  let old := bits line.toNat sh w
  let new := match r.op with
    | .fetchAdd => (old + r.data) % 2 ^ w
    | .cas => if old = r.cmp % 2 ^ w then r.data % 2 ^ w else old
    | _ => r.data % 2 ^ w
  (old, BitVec.ofNat 512 (line.toNat - old * 2 ^ sh + new * 2 ^ sh))

/-! ### What follows when a request's snoops are complete (08 R156-R172) -/

/-- WAB entries of a line in a tile, whichever partition wrote them. -/
def wabLine (s : State) (t : Nat) (l : LineId) : List WabE :=
  s.wab.ents.filter fun e => e.tile == t && decide (lineAt e.out e.ld e.dpa = l)

/-- A forward of the home's own for a request of the LOQ. -/
def loqFwd (agent : Agent) (e : LoqE) (r : Req) : Fwd :=
  { lineFwd agent e.part (some e.bind) e.line r with lead := e.lead, fromVp := e.fromVp, late := e.late, lateB := e.lateB }

/-- A write of the line is under way to its target, as a cell or as an entry of the tile's WAB, or as a writeback of the ALC. -/
def writesOut (s : State) (e : LoqE) : Bool :=
  !(wabLine s e.tile e.line).isEmpty || wbackOut s e.tile e.line ||
    s.maps.fwds.any fun f => f.req.op.isMemWrite && decide (lineAt f.out f.ld f.dpa = e.line)

/-- A request waits at the home, and is looked at again whenever something has ended. -/
def loqWait (id : Nat) (s : State) : State := modLoq id (fun e => { e with stage := .waitWab }) s

/-- The poisoned line is written to the target, last of all writes of the line; the request has its answer, and the line stays closed
until the target has taken the poison (08 R160). -/
def poisonLine (id : Nat) (s : State) : State :=
  match loqOf s id with
  | none => s
  | some e =>
    if writesOut s e || !usable s e.line.out then loqWait id s
    else
      s |> modLoq id (fun e => { e with stage := .poisoning })
        |> forward true 3 0 0 (loqFwd (.home e.tile id) e (lineReq .memWr e.line 0 fullMask true))

/-- A reservation is of the key of a request (08 R171). -/
def Resv.isKey (e : LoqE) (r : Resv) : Bool := r.part == e.part && r.reqId == e.req.reqId && decide (r.pasid = e.req.pasid)

/-- The slot of a key is freed (08 R172). -/
def dropSlot (e : LoqE) (s : State) : State :=
  let keep := s.home.slots.filter fun r => !r.isKey e
  { s with home := { s.home with
      slots := keep, alc := s.home.alc.map fun x => { x with resv := keep.any fun r => decide (r.line = x.line) } } }

/-- The answer of a request whose snoop timed out. -/
def poisonAnswer (e : LoqE) (s : State) : State :=
  match e.kind with
  | .mem | .io => loqAnswer e allOnesLine.toNat e.req.op.needsR s
  | .atomic | .reserve => loqAbort e s
  | .cond => s |> dropSlot e |> bump (.homeT e.tile) F.HOME_RESV_CNT_CW_FAIL |> loqAnswer e 4 false

/-- A request with a timed-out snoop: answered as poisoned, and the line is poisoned at its target. -/
def timedOutServe (id : Nat) (s : State) : State :=
  match loqOf s id with
  | none => s
  | some e =>
    let s := s |> poisonAnswer e |> loseResv e.line .lostError (fun _ => false)
    let s := { s with home := { s.home with alc := s.home.alc.filter fun a => !(a.tile == e.tile && decide (a.line = e.line) && !a.wback) } }
    s |> modLoq id (fun e => { e with dropRsp := true }) |> poisonLine id

/-- Read the line at its target for the home, or fill it into the ALC. -/
def targetRead (id : Nat) (fill : Bool) (s : State) : State :=
  match loqOf s id with
  | none => s
  | some e =>
    if !usable s e.line.out then s |> loqRefuse e FK.tgtDown |> loqDone id
    else
      let ag := if fill then Agent.alc e.tile id else .home e.tile id
      s |> modLoq id (fun e => { e with stage := if fill then .filling else .reading })
        |> forward true 3 0 0 (loqFwd ag e (lineReq .memRd e.line 0 0 false))

/-- A read of a shared line, after its snoops (08 R156). Bytes merged into it stand above what an older entry holds (08 R158). -/
def serveRead (id : Nat) (s : State) : State :=
  match loqOf s id with
  | none => s
  | some e =>
    let own := e.req.op == .memInv || (e.req.op == .memRd && e.req.md == .any)
    let s := s.when own (loseResv e.line .lostStore fun _ => false)
    if e.req.op = .memInv then s |> loqAnswer e 0 false |> loqDone id
    else
      match wabLine s e.tile e.line with
      | [] => targetRead id false s
      | x :: rest =>
        let all := x :: rest
        if all.any fun w => w.stranded && w.mask != fullMask && !w.lost then s |> loqRefuse e FK.tgtDown |> loqDone id
        else if all.any fun w => w.mask != fullMask || w.lost then loqWait id s
        else
          let last := rest.foldl (fun b w => if b.id < w.id then w else b) x
          let s := wabRead e.tile last.id s
          if (wabEnt s e.tile last.id).any (·.lost) then loqWait id s
          else s |> loqAnswer e (mergeLine e.mergedMask e.mergedData last.data).toNat false |> loqDone id

/-- A write to a shared line takes its WAB entry or is forwarded (08 R157). One of CXL.io waits until no entry holds its line (07
R133). The debug master's is never acknowledged early, and travels as management DMA in TC3 (16 R317). -/
def serveWrite (id : Nat) (s : State) : State :=
  match loqOf s id with
  | none => s
  | some e =>
    if e.kind = .io ∧ !(wabLine s e.tile e.line).isEmpty then loqWait id s
    else
    let b := bindOf s e.bind
    let s := loseResv e.line .lostStore (fun _ => false) s
    let f : Fwd := { loqFwd (if e.isDbg then .dma else .host) e e.req with job := e.job, dropped := e.dropRsp }
    let fall (s : State) : State :=
      if usable s e.line.out then s |> wabPatch e.tile e.part e.line e.req |> forward e.isDbg (if e.isDbg then 3 else b.tc) 0 0 f |> loqDone id
      else s |> loqRefuse e FK.tgtDown |> loqDone id
    if eaEligible b e.req && e.job.isNone && !e.isDbg then
      match wabTake e.tile b e.line f s with
      | some s => s |> loqAnswer e 0 false |> loqDone id
      | none => s |> countFallback e.tile e.part e.line.out (b.offOf (e.line.line * 64)) |> fall
    else fall s

/-- A slot of reservations for a key (08 R171): the key's own, else a free one, else the oldest is displaced. -/
def takeSlot (e : LoqE) (s : State) : State :=
  let mine (r : Resv) : Bool := r.part == e.part && r.reqId == e.req.reqId && decide (r.pasid = e.req.pasid)
  let l := s.home.slots.filter fun r => !mine r
  let l := if (l.filter fun r => r.part == e.part).length < 64 then l else dropFirst (fun r => r.part == e.part) l
  let r : Resv :=
    { part := e.part, reqId := e.req.reqId, pasid := e.req.pasid, tile := e.tile, line := e.line, bind := e.bind
      st := .valid, order := s.home.useSeq }
  let l := l ++ [r]
  { s with home := { s.home with
      slots := l
      alc := s.home.alc.map fun a => { a with resv := l.any fun r => decide (r.line = a.line) } } }

/-- Status of a conditional write as its key's reservation stands (08 Table 8.6). -/
def condStatus (s : State) (e : LoqE) : Nat :=
  match s.home.slots.find? fun r => r.isKey e && decide (r.line = e.line) with
  | none => 1
  | some r => match r.st with
    | .valid => 0 | .lostStore => 2 | .lostEvict => 3 | .lostError => 4 | .lostBind => 5

/-- A conditional write that stores nothing. -/
def condFail (st : Nat) (e : LoqE) (s : State) : State :=
  s |> dropSlot e |> bump (.homeT e.tile) F.HOME_RESV_CNT_CW_FAIL |> loqAnswer e st false |> loqDone e.id

/-- Run an AtomicOp, a reserve read or a conditional write on the line that the ALC holds. -/
def runInAlc (id : Nat) (s : State) : State :=
  match loqOf s id with
  | none => s
  | some e =>
    let s := alcRead e.tile e.line e.part s
    match alcAt s e.tile e.line with
    | none => if e.kind = .cond then condFail (max 1 (condStatus s e)) e s else loqDone id s
    | some a =>
      let s := alcTouch e.tile e.line s
      match e.kind with
      | .atomic =>
        if a.pois then s |> loqAbort e |> loqDone id
        else
          let (old, new) := atomicRun e.req a.data
          let s := s |> modAlc e.tile e.line (fun a => { a with data := new, dirty := true, excl := true })
            |> loseResv e.line .lostStore (fun _ => false) |> bump (.homeT e.tile) F.HOME_ATOM_CNT_ALC
            |> countHome e.tile 0x2A e.part
            |> loqAnswer e old false |> loqDone id
          if e.plan = 3 then alcDrop e.tile e.line s else s
      | .reserve =>
        if a.pois then s |> loqAbort e |> loqDone id
        else s |> State.when (!e.dropRsp) (takeSlot e) |> loqAnswer e (bits a.data.toNat (8 * (e.req.addr % 64)) (8 * e.req.size)) false |> loqDone id
      | .cond =>
        match condStatus s e with
        | 0 =>
          let (_, new) := atomicRun { e.req with op := .swap } a.data
          s |> modAlc e.tile e.line (fun a => { a with data := new, dirty := true, excl := true })
            |> loseResv e.line .lostStore (Resv.isKey e) |> dropSlot e
            |> bump (.homeT e.tile) F.HOME_RESV_CNT_CW_OK |> countHome e.tile 0x2B e.part |> loqAnswer e 0 false |> loqDone id
        | st => condFail st e s
      | _ => loqDone id s

/-- Serve a CXL.mem or BAR2 request from the ALC (08 R163). -/
def serveFromAlc (id : Nat) (s : State) : State :=
  match loqOf s id with
  | none => s
  | some e =>
    let s := alcRead e.tile e.line e.part s
    match alcAt s e.tile e.line with
    | none => loqDone id s
    | some a =>
      let s := alcTouch e.tile e.line s
      if e.req.op.isMemWrite then
        let d : LineData := BitVec.ofNat 512 e.req.data
        s |> modAlc e.tile e.line (fun a => { a with data := mergeLine e.req.wmask d a.data, dirty := true, excl := true })
          |> loseResv e.line .lostStore (fun _ => false) |> loqAnswer e 0 false |> loqDone id
      else if e.req.op = .memInv ∨ (e.req.op = .memRd ∧ e.req.md = .any ∧ e.kind = .mem) then
        s |> loseResv e.line .lostStore (fun _ => false) |> loqAnswer e a.data.toNat a.pois |> loqDone id
          |> alcDrop e.tile e.line
      else
        s |> State.when (decide (e.req.md = .shared)) (modAlc e.tile e.line fun a => { a with excl := false })
          |> loqAnswer e a.data.toNat a.pois |> loqDone id

/-- Fill a line into the ALC for an AtomicOp or a reserve read; it waits for a WAB entry of the line (08 R164). -/
def fillLine (id : Nat) (s : State) : State :=
  match loqOf s id with
  | none => s
  | some e =>
    let w := wabLine s e.tile e.line
    if w.any (·.stranded) then s |> loqRefuse e FK.tgtDown |> loqDone id
    else if !w.isEmpty then loqWait id s
    else targetRead id true s

/-- A near-memory forward (08 R170): the target completes the AtomicOp at the window's base + DPA. As a fill does, it waits for the
writes of the line that are under way, and meets TGT_DOWN where one is STRANDED (log 131). -/
def nearForward (id : Nat) (s : State) : State :=
  match loqOf s id with
  | none => s
  | some e =>
    if !usable s e.line.out || (wabLine s e.tile e.line).any (·.stranded) then s |> loqRefuse e FK.tgtDown |> loqDone id
    else if writesOut s e then loqWait id s
    else
      let base := (tget (false, 0) s.home.nma e.line.out).2
      let dpa := e.line.line * 64 + e.req.addr % 64
      s |> modLoq id (fun e => { e with stage := .near }) |> bump (.homeT e.tile) F.HOME_ATOM_CNT_NEAR
        |> countHome e.tile 0x2A e.part
        |> loseResv e.line .lostStore (fun _ => false)
        |> forward true 3 0 0 (loqFwd (.atomic e.tile id) e { e.req with addr := base + dpa })

/-- A request whose snoops are complete is served; it waits while its line is being written back (08 R164). -/
def afterSnoops (id : Nat) (s : State) : State :=
  match loqOf s id with
  | none => s
  | some e =>
    if !e.timedOut.isEmpty then timedOutServe id s
    else if wbackOut s e.tile e.line then loqWait id s
    else
      match e.kind with
      | .mem | .io =>
        if (alcAt s e.tile e.line).isSome then serveFromAlc id s
        else if e.req.op.isMemWrite then serveWrite id s else serveRead id s
      | .atomic =>
        if (alcAt s e.tile e.line).isSome then runInAlc id s
        else if e.plan = 2 then nearForward id s else fillLine id s
      | .reserve => if (alcAt s e.tile e.line).isSome then runInAlc id s else fillLine id s
      | .cond => runInAlc id s

/-- The home holds every response: the request is served (08 R152). -/
def checkSnoops (id : Nat) (s : State) : State :=
  match loqOf s id with
  | none => s
  | some e =>
    if e.stage = .snooping ∧ e.stations.isEmpty ∧ e.localDone then afterSnoops id s else s

/-- Members whose snoop timed out. -/
def timeouts (l : List (Nat × HRsp)) : List Nat := (l.filter fun x => decide (x.2 = .timeout)).map (·.1)

/-- A station that waits for no snoop of a broadcast sends its RESP; the home's own tile counts as answered. -/
def stationDone (t loq : Nat) (s : State) : State :=
  match loqOf s loq with
  | none => s
  | some e =>
    if !(openAt s t loq).isEmpty then s
    else
      let got := (s.home.snoops.filter fun n => n.tile == t && n.loq == loq).filterMap fun n => n.got.map fun r => (n.part, r)
      let s := { s with home := { s.home with snoops := s.home.snoops.filter fun n => !(n.tile == t && n.loq == loq) } }
      if t = e.tile then
        s |> modLoq loq (fun e => { e with localDone := true, timedOut := e.timedOut ++ timeouts got }) |> checkSnoops loq
      else haloPut t e.tile (.resp loq t got) s

/-- Requests that wait at a home are looked at again (08 R156, R160, R164). -/
def wakeLoq (s : State) : State :=
  s.each ((s.home.loq.filter fun e => e.stage == .waitWab).map (·.id)) fun id s =>
    match loqOf s id with
    | none => s
    | some e => if e.timedOut.isEmpty then afterSnoops id s else poisonLine id s

/-- A writeback has been taken by the home: WB_ACK to the station of its host link (08 R153). -/
def wbTaken (t lead : Nat) (l : LineId) (s : State) : State :=
  haloPut t (tileOf lead) (.wback lead l) s

/-- A writeback meets an open snoop of its partition for the line: it merges into the open request and is written like any write, into
the ALC where that holds the line (08 R158, R163). None: it does not merge. -/
def tryMerge (e : LoqE) (s : State) : Option State :=
  match s.home.snoops.find? fun n => n.part == e.part && decide (n.line = e.line) && n.got.isNone with
  | none => none
  | some n =>
    if !e.isWb then none
    else
      let d : LineData := BitVec.ofNat 512 e.req.data
      let m := e.req.wmask
      let s := modLoq n.loq (fun q => { q with
          mergedMask := q.mergedMask ||| m, mergedData := mergeLine m d q.mergedData }) s
      let s := { s with home := { s.home with
          snoops := modFirst (fun x => x.id == n.id) (fun x => { x with wbMerged := true }) s.home.snoops } }
      let b := bindOf s e.bind
      let f : Fwd := { loqFwd .host e e.req with dropped := e.dropRsp }
      let s := s |> bump (.homeT e.tile) F.HOME_RACE_CNT_WB_MERGE |> wbTaken e.tile e.lead e.line
        |> loseResv e.line .lostStore fun _ => false
      let fall (s : State) : State :=
        if usable s e.line.out then s |> wabPatch e.tile e.part e.line e.req |> forward false b.tc 0 0 f
        else loqRefuse e FK.tgtDown s
      some <|
        if (alcAt s e.tile e.line).isSome then
          s |> modAlc e.tile e.line (fun a => { a with data := mergeLine m d a.data, dirty := true, excl := true })
            |> loqAnswer e 0 false
        else if eaEligible b e.req then
          match wabTake e.tile b e.line f s with
          | some s => loqAnswer e 0 false s
          | none => s |> countFallback e.tile e.part e.line.out (b.offOf (e.line.line * 64)) |> fall
        else fall s

/-- The LOQ of the home has room for a request (08 R155). -/
def loqRoom (s : State) (e : LoqE) : Bool :=
  let l := s.home.loq.filter fun x => x.tile == e.tile && x.stage != .travel
  let w := (l.filter (·.isStore)).length
  if e.isStore then decide (l.length < 4096) else decide (l.length - w + (w - 256) < 3840)

end Sys2Proof.Machine
end

