-- ==== Sys2Proof/Machine/Access.lean ====
section
/-!
DEFINITION. Sys2Proof/Machine/Access.lean: what the ingress does with a request: its order, holds, lookup, checks and ways
(06 R110-R126, 07 R128-R141, 08 R156-R171, 10 R189-R191).
-/
namespace Sys2Proof.Machine

/-! ### Order and holds (06 R124, 07 R133, R140) -/

/-- Put a request back in arrival order. -/
def insHeld (h : Held) : List Held → List Held
  | [] => [h]
  | x :: t => if h.id < x.id then h :: x :: t else x :: insHeld h t

def insWait (w : IoWait) : List IoWait → List IoWait
  | [] => [w]
  | x :: t => if w.id < x.id then w :: x :: t else x :: insWait w t

/-- An earlier CXL.io request of the partition on the link is held. -/
def ioHeldBefore (s : State) (id lead part : Nat) : Bool :=
  s.maps.held.any fun h => h.req.op.isIo && h.lead == lead && h.part == part && decide (h.id < id)

/-- An earlier CXL.io request of the partition on the link waits, at its ingress, or at a home for a WAB entry of its line. -/
def ioWaitsBefore (s : State) (id lead part : Nat) : Bool :=
  (s.maps.ioWait.any fun w => w.req.op.isIo && w.lead == lead && w.part == part && decide (w.id < id)) ||
    s.home.loq.any fun e => e.stage == .waitWab && e.lead == lead && e.part == part && e.job.any (fun j => decide (j < id)) &&
      !(wabLine s e.tile e.line).isEmpty

/-- Requests held in a tile. -/
def heldIn (s : State) (t : Nat) : Nat := (s.maps.held.filter fun h => h.tile == t).length

/-- The entry that a request meets at the first byte of its offset, for reports. -/
def entryFor (s : State) (h : Held) : Option (Nat × Binding) :=
  match h.via with
  | some v => lookupExport s v.out h.part v.ld h.req.addr h.req.size
  | none => lookupOff s h.part (pmdOff s h.part h.req)

/-- A held or refused request ends with an outcome of Table 6.4; a request that came over a trunk is answered there. -/
def failHeld (kind : Nat) (h : Held) (s : State) : State :=
  let e := entryFor s h
  let idx := (e.map (·.1)).getD noIdx
  let mode := (e.map (·.2.errmode)).getD false
  let off := if h.via.isSome then noOff else pmdOff s h.part h.req
  failReq h.part h.lead h.fromVp kind idx mode off h.req s

/-- One request is held: with the timer of its first hold, or refused when the pool of its tile is full (06 R124). -/
def holdOne (bind : Option Nat) (behind : Bool) (h : Held) (s : State) : State :=
  if h.deadline.isNone && decide (512 ≤ heldIn s h.tile) then
    s |> bump (.bindT h.tile) F.BIND_HOLD_CNT_OVF |> failHeld FK.hold h
  else
    let h' : Held := { h with
      bind := bind, behind := behind, deadline := some (h.deadline.getD (s.tick + rd s .bindM F.BIND_CFG_HOLD)) }
    let s := s.when h.deadline.isNone (count (.ing h.lead) 0x06 1
      { reqAttr h.part h.lead (pmdOff s h.part h.req) h.req with v := none })
    { s with maps := { s.maps with held := insHeld h' s.maps.held } }

/-- The request that an ingress wait stands for. -/
def IoWait.held (w : IoWait) : Held where
  id := w.id
  tile := tileOf w.lead
  lead := w.lead
  part := w.part
  fromVp := w.fromVp
  bind := none
  req := w.req
  deadline := none
  behind := false
  via := none

/-- A request is held; with a CXL.io request, those of its partition that came after it on the link and only keep its order are held
behind it, each with a timer of its own (06 R124). -/
def holdReq (bind : Option Nat) (behind : Bool) (h : Held) (s : State) : State :=
  let s := holdOne bind behind h s
  if !h.req.op.isIo then s
  else
    let ws := s.maps.ioWait.filter fun w =>
      w.req.op.isIo && w.lead == h.lead && w.part == h.part && decide (h.id < w.id) && decide (w.why = .order)
    let s := { s with maps := { s.maps with ioWait := s.maps.ioWait.filter fun w => !ws.contains w } }
    s.each ws fun w => holdOne none true w.held

/-- A request waits at its ingress. -/
def waitReq (why : IoWhy) (fence : Bool) (h : Held) (s : State) : State :=
  { s with maps := { s.maps with ioWait := insWait ⟨h.id, h.lead, h.part, h.fromVp, h.req, why, fence⟩ s.maps.ioWait } }

/-! ### Lookup (06 R114-R116) -/

/-- Drop a binding from every cache (06 R117). -/
def uncache (idx : Nat) (s : State) : State :=
  { s with maps := { s.maps with cache := (s.maps.cache.map fun e => (e.1, e.2.filter (· != idx))).filter fun e => !e.2.isEmpty } }

/-- An entry becomes the most recently used of a link's cache; the least recently used leaves a full one. -/
def cacheTouch (lead idx : Nat) (s : State) : State :=
  let l := (tget [] s.maps.cache lead).filter (· != idx)
  { s with maps := { s.maps with cache := tput [] s.maps.cache lead ((idx :: l).take (128 * ctrlsOf s lead)) } }

/-- A word of a replica is repaired (06 R115). -/
def replicaFixed (t : Nat) (s : State) : State := s |> bump (.bindT t) F.BIND_RPL_CNT_CORR |> count (.bindT t) 0x18 1 Attr.none

/-- Words of a tile's replica that a read meets bad, apart from those bad at the peer too. -/
def badWords (t : Nat) (rep : List (Nat × Nat)) : List Nat := ((rep.filter fun x => x.1 == t).map (·.2)).dedup

/-- A word is bad in every replica. -/
def badEverywhere (rep : List (Nat × Nat)) (w : Nat) : Bool := (List.range 8).all fun t => rep.contains (t, w)

/-- The entry is invalidated in all replicas under R117. -/
def killEntry (idx : Nat) (s : State) : State :=
  { s with maps := { s.maps with pend := s.maps.pend ++ [⟨idx, .kill, none, 0, false, s.tick⟩] } }

/-- A read of an entry in a tile's replica with bad words: repaired from the peer, from the others, or lost. True when every
word was good or repaired from the peer. `part`: the request's partition, none for a scrub (06 R115, R116). -/
def readReplica (t idx : Nat) (part : Option Nat) (rep : List (Nat × Nat)) (s : State) : Bool × State :=
  let words := badWords t rep
  let peerBad (w : Nat) : Bool := rep.contains ((t + 1) % 8, w)
  let easy := words.filter fun w => !peerBad w
  let hard := words.filter peerBad
  let lost := hard.filter (badEverywhere rep)
  let found := hard.filter fun w => !badEverywhere rep w
  let s := s.each (easy ++ found) fun _ => replicaFixed t
  let s := s.each hard fun _ => bump (.bindT t) F.BIND_RPL_CNT_UNCORR
  let fixed := if part.isNone then easy ++ found else easy
  let bad : List Assertion := if hard.isEmpty then [] else match part with
    | some p => [⟨tileSrcNo t 8, some p, none, none⟩]
    | none =>
      if lost.isEmpty then []
      else if lost.contains 0 then [⟨tileSrcNo t 8, none, none, some React.fatal⟩]
      else [⟨tileSrcNo t 8, some (bindOf s idx).part, none, none⟩]
  let s := raiseSame ((fixed.map fun _ => ⟨tileSrcNo t 7, none, none, none⟩) ++ bad) s
  (hard.isEmpty, s.when (!lost.isEmpty) (killEntry idx))

/-- A cached entry whose parity failed on use is dropped (06 R114). -/
def dropCached (lead idx : Nat) (s : State) : State :=
  { s with maps := { s.maps with cache := tput [] s.maps.cache lead ((tget [] s.maps.cache lead).filter (· != idx)) } }
    |> bump (.ing lead) F.ING_BIND_CNT_PAR_DROP

/-- A lookup in the cache of a link, then in the replica of its tile, of a request that the table answers with `found`. -/
def lookupIn (u : Upset) (lead tile part off : Nat) (found : Option (Nat × Binding)) (r : Req) (s : State) :
    Option (Nat × Binding) × State :=
  let a := reqAttr part lead off r
  let s := count (.ing lead) 0x03 1 { a with t := none, o := none } s
  match found with
  | none => (none, s |> bump (.ing lead) F.ING_BIND_CNT_MISS |> count (.ing lead) 0x04 1 { a with v := none })
  | some (idx, b) =>
    let cached := (tget [] s.maps.cache lead).contains idx
    if cached && !u.cache then (some (idx, b), cacheTouch lead idx s)
    else
      let s := s.when cached (dropCached lead idx)
      let s := s |> bump (.ing lead) F.ING_BIND_CNT_MISS |> count (.ing lead) 0x04 1 { a with v := none }
      let (ok, s) := readReplica tile idx (some part) u.rep s
      if ok then (some (idx, b), cacheTouch lead idx s) else (none, s)

/-- The lookup of a request at one byte of its partition's space. -/
def lookup (u : Upset) (lead tile part off : Nat) (r : Req) (s : State) : Option (Nat × Binding) × State :=
  lookupIn u lead tile part off (lookupOff s part off) r s

/-! ### Ways of a request (06 R118-R120, 07 R128-R133, 08 R156, R163) -/

/-- The forward of a host's request, not yet named. -/
def hostFwd (h : Held) (idx : Nat) (job : Option Nat) (late lateB : Bool) (r : Req) (out ld dpa : Nat) : Fwd :=
  { id := 0, agent := .host, part := h.part, bind := some idx, lead := h.lead, fromVp := h.fromVp, req := r, out := out, ld := ld
    dpa := dpa, posted := false, own := false, late := late, lateB := lateB, dropped := false, job := job, tc := 0, via := h.via }

/-- The target of an entry: the lead on which a request leaves the module, none when a remote entry has no route. -/
def Binding.lead (s : State) (b : Binding) : Option Nat := if b.kind = 1 then routeLead s b.dmod else some b.out

/-- The target of an entry can take a request. -/
def targetUp (s : State) (b : Binding) : Bool :=
  match b.lead s with
  | some l => usable s l
  | none => false

/-- A writeback or any other write to a shared line is known at its host link until the home has taken it (08 R153). -/
def noteWb (lead : Nat) (l : LineId) (s : State) : State := { s with home := { s.home with wbs := s.home.wbs ++ [(lead, l)] } }

/-- The ALC of a tile holds a line, or its LOQ a request for it: requests for it go to the home (08 R163). -/
def atHome (s : State) (t : Nat) (l : LineId) : Bool :=
  s.home.alc.any (fun a => a.tile == t && decide (a.line = l)) || s.home.loq.any fun e => e.tile == t && decide (e.line = l)

/-- A request of the partition takes its way at a device address, its checks passed. A write that has been held is not acknowledged
early (07 R128). -/
def direct (u : Upset) (h : Held) (idx : Nat) (b : Binding) (job : Option Nat) (r : Req) (off : Nat) (s : State) : State :=
  let late := partSt s h.part != 0
  let dpa := b.dpaOf off
  let l := lineAt b.out b.ld dpa
  let t := hostTile s h.part
  let ans (line : Nat) (s : State) : State := answer h.part h.lead h.fromVp job r line false s
  let down (s : State) : State := refuse h.part h.lead h.fromVp job FK.tgtDown idx b.errmode r s
  let toHome (tile group : Nat) (s : State) : State :=
    sendHome (LoqE.start tile h.part h.lead h.fromVp l idx group (if job.isSome then .io else .mem) r late b.stopped job) s
  let fwd (s : State) : State :=
    match b.lead s with
    | some out =>
      if usable s out then
        let f := hostFwd h idx job late b.stopped r out b.ld dpa
        let s := s.when (r.op.isMemWrite && job.isNone && b.kind == 0) (wabPatch t h.part l r)
        if b.kind = 1 then forwardTo false b.tc b.dmod b.dport b.dpart f s else forward false b.tc 0 0 f s
      else down s
    | none => down s
  let s := strike t u s
  let cached := atHome s t l
  if b.kind = 1 then fwd s
  else if b.shared then
    if fencedOut s b.sgrp h.part then
      (if r.op = .memRd && job.isNone then
        respond h.part h.lead h.fromVp r.tag .drs allOnesLine.toNat true r.md s
      else match job with
        | some j => jobPart j r 0 false false s
        | none => ans 0 s)
    else if r.op = .memClnEvct then ans 0 s
    else if r.op.isMemWrite && job.isNone then
      let e := LoqE.start (homeHash l) h.part h.lead h.fromVp l idx b.sgrp .mem r late b.stopped job
      s |> noteWb h.lead l |> sendHome e
    else toHome (homeHash l) b.sgrp s
  else if cached then
    if r.op = .memClnEvct then ans 0 s
    else s |> State.when (r.op.isMemWrite && job.isNone) (noteWb h.lead l) |> toHome t noGroup
  else if r.op = .memRd ∨ r.op = .memInv then
    match (if job.isSome then none else wabAt s t h.part l) with
    | some e =>
      if e.mask = fullMask && !e.lost then
        let s := wabRead t e.id s
        if (wabEnt s t e.id).any (·.lost) then waitReq (.wabLine b.out b.ld (l.line * 64)) false h s else ans e.data.toNat s
      else if e.stranded && !e.lost then down s
      else waitReq (.wabLine b.out b.ld (l.line * 64)) false h s
    | none => fwd s
  else if eaEligible b r && job.isNone && h.deadline.isNone then
    match wabTake t b l (hostFwd h idx none late b.stopped r b.out b.ld dpa) s with
    | some s => ans 0 s
    | none => s |> countFallback t h.part b.out off |> fwd
  else fwd s

/-- A CXL.mem request (06 R111, R114, R119). -/
def memAccess (u : Upset) (h : Held) (s : State) : State :=
  let off := pmdOff s h.part h.req
  let cap := rd s (.pmd h.part) F.PMD_CFG_CAP * 2 ^ 21
  if off = noOff ∨ cap ≤ off then failReq h.part h.lead h.fromVp FK.nobind noIdx false off h.req s
  else
    let (e, s) := lookup u h.lead h.tile h.part off h.req s
    match e with
    | none => failReq h.part h.lead h.fromVp FK.nobind noIdx false off h.req s
    | some (idx, b) =>
      let sharedWr := b.shared && (h.req.op.isMemWrite || h.req.op == .memClnEvct)
      if b.stopped && !sharedWr then holdReq (some idx) false h s
      else if !h.req.allowed b then failReq h.part h.lead h.fromVp FK.rights idx b.errmode off h.req s
      else direct u h idx b none h.req off s

/-- The CXL.mem requests that a CXL.io request becomes: one for each 64-byte line that it touches (06 R361). -/
def linePieces (r : Req) : List Req :=
  let first := r.addr / 64
  let last := (r.addr + r.size - 1) / 64
  (List.range' first (last + 1 - first)).map fun l =>
    let lo := max r.addr (64 * l)
    let hi := min (r.addr + r.size) (64 * l + 64)
    let n := hi - lo
    let sh := lo - 64 * l
    let data := bits r.data (8 * (lo - r.addr)) (8 * n) * 2 ^ (8 * sh)
    { r with
      op := if r.op = .ioRead then .memRd else if n = 64 then .memWr else .memWrPtl
      addr := lo, size := n, data := if r.op = .ioRead then 0 else data
      mask := BitVec.ofNat 64 ((2 ^ n - 1) * 2 ^ sh), md := .invalid }

/-- A CXL.io request to BAR2 (06 R114, R119, R120, R361; 07 R133). -/
def bar2Access (u : Upset) (h : Held) (s : State) : State :=
  let r := h.req
  let lastOff := r.addr + r.size - 1
  let (e1, s) := lookup u h.lead h.tile h.part r.addr r s
  let same := decide ((lookupOff s h.part r.addr).map Prod.fst = (lookupOff s h.part lastOff).map Prod.fst)
  let (e2, s) := if same then (e1, s) else lookup u h.lead h.tile h.part lastOff r s
  let stop := match e1, e2 with
    | some (i, b), _ => if b.stopped then some i else match e2 with
      | some (j, c) => if c.stopped then some j else none
      | none => none
    | none, some (j, c) => if c.stopped then some j else none
    | none, none => none
  match stop with
  | some i => holdReq (some i) false h s
  | none =>
    let denied (e : Option (Nat × Binding)) : Bool := match e with | some (_, b) => !r.allowed b | none => false
    let go (k : Nat) (e : Option (Nat × Binding)) (s : State) : State :=
      failReq h.part h.lead h.fromVp k ((e.map (·.1)).getD noIdx) ((e.map (·.2.errmode)).getD false) r.addr r s
    if denied e1 then go FK.rights e1 s
    else if denied e2 then go FK.rights e2 s
    else
      match e1, e2 with
      | some (i, b), some (j, c) =>
        let ps := linePieces r
        let entry (p : Req) : Nat × Binding := if p.addr < b.base + b.bytes then (i, b) else (j, c)
        let inWab (p : Req) : Option LineId :=
          let (_, x) := entry p
          let l := lineAt x.out x.ld (x.dpaOf p.addr)
          if x.kind = 0 && !x.shared && (wabAt s (hostTile s h.part) h.part l).isSome then some l else none
        let away (p : Req) : Bool :=
          let (_, x) := entry p
          !x.shared && !targetUp s x && !(x.kind == 0 && atHome s (hostTile s h.part) (lineAt x.out x.ld (x.dpaOf p.addr)))
        let fenced (x : Binding) : Bool := x.kind == 0 && x.shared && fencedOut s x.sgrp h.part
        match ps.findSome? inWab with
        | some l => waitReq (.wabLine l.out l.ld (l.line * 64)) false h s
        | none =>
          if fenced b || fenced c then
            (if r.op.isPosted then logUr h.part s else respond h.part h.lead h.fromVp r.tag .cplUr 0 false r.md s)
          else if ps.any (fun p => (entry p).1 == i && away p) then go FK.tgtDown e1 s
          else if ps.any away then go FK.tgtDown e2 s
          else
            let job := s.maps.nextId
            let s := { s with maps := { s.maps with
              nextId := job + 1, jobs := s.maps.jobs ++ [(⟨job, h.part, h.lead, h.fromVp, r, ps.length, 0, false, false⟩ : IoJob)] } }
            s.each ps fun p => direct u h (entry p).1 (entry p).2 (some job) p p.addr
      | none, _ => go FK.nobind none s
      | _, none => go FK.nobind none s

/-- An unsupported request: UR, or dropped and logged. -/
def urReply (h : Held) (s : State) : State :=
  if h.req.op.isPosted then logUr h.part s else respond h.part h.lead h.fromVp h.req.tag .cplUr 0 false h.req.md s

/-- Sizes that an AtomicOp may have (08 Table 8.5, R168); naturally aligned. -/
def atomicFits (r : Req) : Bool :=
  r.addr % r.size == 0 && match r.op with
    | .fetchAdd | .swap => r.size == 4 || r.size == 8
    | .cas => r.size == 4 || r.size == 8 || r.size == 16
    | _ => false

/-- A request to BAR4 (08 R167, R168, Table 8.5). -/
def bar4Access (u : Upset) (h : Held) (s : State) : State :=
  let r := h.req
  let size := apertureSize s h.part
  let kind : Option LoqKind :=
    if r.addr < size then (if r.op.isAtomic && atomicFits r then some .atomic else none)
    else if r.addr < 2 * size then
      (if r.op = .ioRead && (r.size == 4 || r.size == 8) && r.addr % r.size == 0 then some .reserve
      else if r.op = .swap && atomicFits r then some .cond else none)
    else none
  match kind with
  | none => urReply h s
  | some k =>
    let off := if k = .atomic then r.addr else r.addr - size
    let (e, s) := lookup u h.lead h.tile h.part off r s
    match e with
    | none => failReq h.part h.lead h.fromVp FK.nobind noIdx false off r s
    | some (idx, b) =>
      if b.stopped then holdReq (some idx) false h s
      else if !r.allowed b then failReq h.part h.lead h.fromVp FK.rights idx b.errmode off r s
      else if b.kind = 1 then urReply h s
      else if b.shared && fencedOut s b.sgrp h.part then urReply h s
      else
        let l := lineAt b.out b.ld (b.dpaOf off)
        let t := if b.shared then homeHash l else hostTile s h.part
        sendHome (LoqE.start t h.part h.lead h.fromVp l idx (if b.shared then b.sgrp else noGroup) k { r with addr := off }
          false false none) s

/-! ### Devices and the fence (06 R125, R126; 07 R139-R142) -/

/-- A request routed to a virtual port without a usable device. -/
def vpUr (v : Nat) (h : Held) (s : State) : State :=
  let p := vpOf s h.part v
  let s := setVp h.part v { p with ur := p.ur + 1 } s
  if h.req.op.isPosted then s else respond h.part h.lead h.fromVp h.req.tag .cplUr 0 false h.req.md s

/-! ### Routing of the virtual switch (06 R125) -/

/-- An address lies in a window, given by its first and last address. -/
def inWindow (w : Nat × Nat) (a : Nat) : Bool := decide (w.1 ≤ a) && decide (a ≤ w.2)

/-- The virtual port whose bridge forwards a memory address, or a bus number. -/
def vpAtAddr (s : State) (part a : Nat) : Option Nat :=
  (List.range' 1 63).find? fun v => inWindow (vpOf s part v).mem a || inWindow (vpOf s part v).pref a
def vpAtBus (s : State) (part b : Nat) : Option Nat := (List.range' 1 63).find? fun v => inWindow (vpOf s part v).bus b

/-- The virtual port that a request below the virtual switch is routed to. -/
def Held.port (s : State) (h : Held) : Option Nat :=
  match h.req.space with
  | .mmio => vpAtAddr s h.part h.req.addr
  | .dev n => vpAtBus s h.part n
  | _ => none

/-- A request leaves for the device behind a virtual port, its requester identifier rewritten (06 R125). -/
def toDevice (v : Nat) (h : Held) (s : State) : State :=
  let p := vpOf s h.part v
  match p.lead with
  | none => vpUr v h s
  | some l =>
    if p.lost || !usable s l then vpUr v h s
    else
      let r := { h.req with reqId := Config.devId l h.req.reqId }
      forward false 0 0 0 { hostFwd h 0 none false false r l 0 0 with bind := none, posted := h.req.op.isPosted } s

/-- A request to a device starts a drain of the partition and waits for it, and for those that run; it counts in the tile of the host link,
whatever tiles the cut spans (07 R140; log 161). -/
def deviceAccess (v : Nat) (h : Held) (s : State) : State :=
  if v = 0 ∨ 64 ≤ v ∨ (vpOf s h.part v).lead.isNone then vpUr v h s
  else
    let busy := s.wab.ents.any (fun e => e.part == h.part && !e.stranded) ||
      s.home.alc.any fun a => a.fill == h.part && a.dirty && usable s a.line.out
    let s := startDrain h.part .device s
    let s := s.when busy (bump (.wabT (hostTile s h.part)) F.WAB_CNT_DEV_DRAINS)
    waitReq (.drain (drainsOf s h.part)) false h s

/-- The fence status word of a partition now (07 Table 7.2). -/
def fenceWord (s : State) (part fseq : Nat) : Nat :=
  let lost := min (strandedPart s part) 0x7FFFF
  fseq % 65536 * 2 ^ 48 + lost * 2 ^ 8 + 0xA0 + (if eaWithheld s part then 4 else 0) + (if lost = 0 then 0 else 2)

/-- The fence completes when its drains have: the status word describes the partition at that tick (07 R141). -/
def fenceDone (h : Held) (s : State) : State :=
  let n := (tget 0 s.wab.fseq h.part + 1) % 65536
  let w := fenceWord s h.part n
  let s := { s with wab := { s.wab with
    fseq := tput 0 s.wab.fseq h.part n, lastFence := tput 0 s.wab.lastFence h.part w } }
  if resetting s h.part then s else s.say (.fenceWord h.lead h.req.tag (if h.req.size = 4 then w % 2 ^ 32 else w) h.req.size)

/-- A request to the page of PMD_FENCE (07 R141). The upper half of a status word that no fence has written yet, or that a partition reset
has cleared, reads 0 (log 161). -/
def fenceAccess (h : Held) (s : State) : State :=
  let r := h.req
  let ok (v : Nat) : State := respond h.part h.lead h.fromVp r.tag .cplOk v false r.md s
  if r.op = .ioWrite then s
  else if r.op ≠ .ioRead then urReply h s
  else if r.addr = 0x1F000 ∧ (r.size = 8 ∨ r.size = 4) then
    let s := startDrain h.part .fence s
    waitReq (.drain (drainsOf s h.part)) true h s
  else if r.addr = 0x1F004 ∧ r.size = 4 then ok (tget 0 s.wab.lastFence h.part / 2 ^ 32)
  else if r.addr < 0x1F008 then urReply h s
  else ok 0

/-! ### The virtual switch (06 R125) -/

/-- ACS control bits (PRESUMED: those of PCI Express; log 128). -/
def acsSv : Nat := 0
def acsRr : Nat := 2
def acsCr : Nat := 3
def acsUf : Nat := 4

/-- A device's request goes up to the host, its requester identifier rewritten. -/
def toHost (v : Nat) (h : Held) (s : State) : State :=
  s.say (.upstream h.lead v { h.req with reqId := Config.hostId h.part v h.req.reqId })

/-- Source Validation: the bus of the requester is none of its port's. -/
def badSource (s : State) (h : Held) : Bool :=
  match h.fromVp with
  | some v => let p := vpOf s h.part v; bit p.acs acsSv && !inWindow p.bus (h.req.reqId / 256)
  | none => false

/-- P2P Request Redirect: a device's request to another function of the hierarchy goes up to the host instead. -/
def redirected (s : State) (h : Held) : Option Nat := h.fromVp.filter fun v => bit (vpOf s h.part v).acs acsRr

/-- A memory request below the virtual switch goes to the port whose window holds its address. A device's own port gives it back
upstream only with Upstream Forwarding. -/
def mmioAccess (h : Held) (s : State) : State :=
  match vpAtAddr s h.part h.req.addr with
  | none => (match h.fromVp with | some v => toHost v h s | none => urReply h s)
  | some v =>
    if h.fromVp = some v then (if bit (vpOf s h.part v).acs acsUf then toHost v h s else vpUr v h s)
    else deviceAccess v h s

/-- Value of a bridge register: Presence Detect State is bit 6 of slot status, Data Link Layer Link Active bit 13 of link status (06
R125; log 128). -/
def bridgeVal (s : State) (p : Vp) : BridgeReg → Nat
  | .bus => p.bus.1 + 256 * p.bus.2
  | .mem => p.mem.1 + 2 ^ 64 * p.mem.2
  | .pref => p.pref.1 + 2 ^ 64 * p.pref.2
  | .slot => p.slot
  | .acs => p.acs
  | .slotSts => p.sts % 2 ^ 16 ||| 2 ^ 6 * (p.lead.any (present s)).toNat
  | .linkSts => 2 ^ 13 * (p.pwr && p.lead.any (linkUp s)).toNat

/-- A bridge register is written: bus numbers as secondary + 256 × subordinate, windows as first + 2^64 × last address. A write of
slot control is reported as command completed; its power bit is the command SLOT_POWER. Changes in slot status clear where 1 is
written. -/
def bridgeWrite (part v : Nat) (r : BridgeReg) (d : Nat) (s : State) : State :=
  let p := vpOf s part v
  match r with
  | .bus => setVp part v { p with bus := (d % 256, d / 256 % 256) } s
  | .mem => setVp part v { p with mem := (d % 2 ^ 64, d / 2 ^ 64 % 2 ^ 64) } s
  | .pref => setVp part v { p with pref := (d % 2 ^ 64, d / 2 ^ 64 % 2 ^ 64) } s
  | .slot => s |> setVp part v { p with slot := d % 2 ^ 16 } |> vpNote part v 5
  | .acs => setVp part v { p with acs := d % 2 ^ 16 } s
  | .slotSts => setVp part v { p with sts := p.sts - (p.sts &&& d) } s
  | .linkSts => s

/-- A configuration request to the bridge of a virtual port. -/
def bridgeAccess (v : Nat) (r : BridgeReg) (h : Held) (s : State) : State :=
  let ok (d : Nat) (s : State) : State := respond h.part h.lead h.fromVp h.req.tag .cplOk d false h.req.md s
  if v = 0 ∨ 64 ≤ v ∨ h.fromVp.isSome then urReply h s
  else if h.req.op = .cfgWrite then s |> bridgeWrite h.part v r h.req.data |> ok 0
  else ok (bridgeVal s (vpOf s h.part v) r) s

/-- The options of the subset that the manual supports (00 R4, R6, Table 0.4; 03 R50, R61, Table 3.4; 06 R110, R125; 08 R168). -/
def supported : List StdOpt :=
  [.cxlIo, .cxlMem, .hdmDb, .dcd, .mld, .flit256, .lopt, .l0p, .aspmL1, .atomic32, .atomic64, .cas128, .pasid, .doe,
   .slotHotplug, .attnButton, .powerController, .indicators, .cmdCompleted, .dllReporting,
   .acsSource, .acsRequest, .acsCompletion, .acsUpstream] ++
  [.polarity, .precoding, .eqBypass, .noEq, .rxMargining, .l1Exit 8, .retimer 1, .retimer 2, .hdmDecoder 0, .hdmWays 1, .dcRegion 0]

/-- What the capability structures advertise: the subset, and every other option as absent (00 R4). -/
def advertised (o : StdOpt) : Bool := supported.contains o

/-- A configuration request to a capability structure: its bits are read only. -/
def capAccess (o : StdOpt) (h : Held) (s : State) : State :=
  respond h.part h.lead h.fromVp h.req.tag .cplOk (if h.req.op = .cfgRead then (advertised o).toNat else 0) false h.req.md s

/-- A request to BAR0 of the PMD (06 R110): the fence page here; the CXL component and device registers answer as the
standard has them for the options supported (00 R4; log 16). -/
def bar0Access (h : Held) (s : State) : State :=
  if 0x1F000 ≤ h.req.addr ∧ h.req.addr < 0x20000 then fenceAccess h s
  else if h.req.op = .ioWrite then s
  else if h.req.op = .ioRead then
    respond h.part h.lead h.fromVp h.req.tag .cplOk (Config.stdResponse supported h.req.addr h.req.size) false h.req.md s
  else urReply h s

/-! ### A request over a trunk (06 R118) -/

/-- A request delivered under Table 4.5 meets the entry that exports its range, looked up in the cache of its target link. -/
def exportAccess (u : Upset) (v : Via) (h : Held) (s : State) : State :=
  let out := v.out
  let found := lookupExport s out h.part v.ld h.req.addr h.req.size
  let (e, s) := lookupIn u out (tileOf out) h.part noOff found h.req s
  match e with
  | none => failReq h.part h.lead h.fromVp (if found.isSome then FK.nobind else FK.remote) noIdx false noOff h.req s
  | some (idx, b) =>
    let right (w : Nat) : Bool := [0, 1, 2].any fun lv => b.right lv w
    if b.stopped then holdReq (some idx) false h s
    else if (h.req.op.needsR && !right 0) || (h.req.op.needsW && !right 1) then
      failReq h.part h.lead h.fromVp FK.remote idx b.errmode noOff h.req s
    else if !usable s out then failReq h.part h.lead h.fromVp FK.tgtDown idx b.errmode noOff h.req s
    else forward false v.tc 0 0 (hostFwd h idx none false false h.req out v.ld h.req.addr) s

/-! ### A request arrives, or is looked up again -/

/-- It is a write or eviction under a SHARED binding, which is never held (06 R124). -/
def neverHeld (s : State) (h : Held) : Bool :=
  (h.req.op.isMemWrite || h.req.op == .memClnEvct) && decide (h.req.space = .mem) && h.via.isNone &&
    match entryFor s h with
    | some (_, b) => b.shared
    | none => false

/-- The request meets its order, its partition's state and its destination. A request over a trunk under no export entry meets no
partition's state (10 Table 10.2). -/
def takeIn (u : Upset) (h : Held) (s : State) : State :=
  if resetting s h.part then s
  else if h.req.op.isIo && ioHeldBefore s h.id h.lead h.part then holdReq none true h s
  else if partSt s h.part ≠ 0 && !neverHeld s h && !(h.via.isSome && (entryFor s h).isNone) then holdReq none false h s
  else if h.req.op.isIo && ioWaitsBefore s h.id h.lead h.part then waitReq .order false h s
  else match h.via with
    | some v => exportAccess u v h s
    | none =>
      if h.req.op = .otherNp ∨ h.req.op = .otherP then urReply h s
      else if badSource s h then vpUr (h.fromVp.getD 0) h s
      else match h.req.space, redirected s h with
      | .mem, _ => memAccess u h s
      | .cap o, _ => capAccess o h s
      | .bridge v r, _ => bridgeAccess v r h s
      | .dev n, _ => (match vpAtBus s h.part n with | some v => deviceAccess v h s | none => urReply h s)
      | .host, _ => (match h.fromVp with | some v => toHost v h s | none => urReply h s)
      | .bar2, none => if h.req.op.isAtomic then urReply h s else bar2Access u h s
      | .bar4, none => bar4Access u h s
      | .bar0, none => bar0Access h s
      | .mmio, none => mmioAccess h s
      | _, some v => toHost v h s

/-- A request on its arrival. -/
def Held.arrive (id lead part : Nat) (fromVp : Option Nat) (r : Req) (via : Option Via) : Held :=
  { id := id, tile := tileOf ((via.map (·.out)).getD lead), lead := lead, part := part, fromVp := fromVp, bind := none, req := r
    deadline := none, behind := false, via := via }

/-- Look at a request on its arrival: it takes the next name. -/
def arrive (u : Upset) (lead part : Nat) (fromVp : Option Nat) (r : Req) (via : Option Via) (s : State) : State :=
  let id := s.maps.nextId
  { s with maps := { s.maps with nextId := id + 1 } } |> takeIn u (Held.arrive id lead part fromVp r via)

/-! ### Release (06 R124, 07 R133, R140, 10 R195) -/

/-- What a waiting request waits for has come about. -/
def waitOver (s : State) (w : IoWait) : Bool :=
  let free := !w.req.op.isIo || !(ioHeldBefore s w.id w.lead w.part || ioWaitsBefore s w.id w.lead w.part)
  free && match w.why with
    | .drain ids => ids.all fun d => !s.wab.drains.any (·.id == d)
    | .wabLine out ld dpa =>
      match wabAt s (hostTile s w.part) w.part (lineAt out ld dpa) with
      | none => true
      | some e => !w.req.op.isIo && e.stranded && !e.lost
    | .order => true

/-- A waiting request goes on; one to a device is held first when its partition has left RUN meanwhile (10 R191). -/
def waitGo (w : IoWait) (s : State) : State :=
  let s := { s with maps := { s.maps with ioWait := s.maps.ioWait.filter (·.id != w.id) } }
  match w.why with
  | .drain _ => if w.fence then fenceDone w.held s else
    if partSt s w.part ≠ 0 then holdReq none false w.held s
    else match Held.port s w.held with
      | some v => toDevice v w.held s
      | none => urReply w.held s
  | _ => takeIn Upset.none w.held s

/-- A held request is looked up again. -/
def heldGo (h : Held) (s : State) : State :=
  { s with maps := { s.maps with held := s.maps.held.filter (·.id != h.id) } }
    |> takeIn Upset.none { h with bind := none, behind := false }

/-- Requests whose wait is over, and those held only behind others, go on in order of arrival; `n` bounds their number. -/
def settleN : Nat → State → State
  | 0, s => s
  | n + 1, s =>
    match s.maps.ioWait.find? (waitOver s) with
    | some w => settleN n (waitGo w s)
    | none =>
      match s.maps.held.find? fun h => h.behind && !ioHeldBefore s h.id h.lead h.part with
      | some h => settleN n (heldGo h s)
      | none => s

def settle (s : State) : State := settleN (2 * (s.maps.ioWait.length + s.maps.held.length)) s

/-- Held requests that satisfy `p` are looked up again in arrival order. -/
def release (p : Held → Bool) (s : State) : State :=
  settle (s.each (s.maps.held.filter p) heldGo)

/-! ### The debug master (16 R317) -/

/-- Data that the debug master reads, taken from a line. -/
def dbgData (eight : Bool) (off : Nat) (line : LineData) (s : State) : State :=
  let w (k : Nat) : Nat := bits line.toNat (8 * (off % 64) + 32 * k) 32
  let s := wr .dbg F.DBG_MEM_DATA_LO_DATA (w 0) s
  s.when eight (wr .dbg F.DBG_MEM_DATA_HI_DATA (w 1))

/-- STATUS of DBG_MEM_CTL. -/
def DbgSt.ok : Nat := 0
def DbgSt.nobind : Nat := 1
def DbgSt.rights : Nat := 2
def DbgSt.denied : Nat := 3
def DbgSt.locked : Nat := 4
def DbgSt.tgtDown : Nat := 5

/-- A read that does not proceed returns all-ones data. -/
def dbgOnes (write : Bool) (s : State) : State :=
  s.when (!write) fun s => s |> wr .dbg F.DBG_MEM_DATA_LO_DATA 0xFFFFFFFF |> wr .dbg F.DBG_MEM_DATA_HI_DATA 0xFFFFFFFF

/-- An access ends without reaching a target. -/
def dbgFail (st : Nat) (write : Bool) (s : State) : State := s |> dbgOnes write |> wr .dbg F.DBG_MEM_CTL_STATUS st

/-- The request of an access for its line. -/
def dbgReq (l : LineId) (write eight : Bool) (dpa : Nat) (s : State) : Req :=
  let n := if eight then 8 else 4
  let sh := dpa % 64
  let v := rd s .dbg F.DBG_MEM_DATA_LO_DATA + (if eight then rd s .dbg F.DBG_MEM_DATA_HI_DATA * 2 ^ 32 else 0)
  if write then lineReq .memWrPtl l (v * 2 ^ (8 * sh)) (BitVec.ofNat 64 ((2 ^ n - 1) * 2 ^ sh)) false
  else { lineReq .memRd l 0 0 false with md := .invalid }

/-- An access that passed its checks leaves for its target, for the home of its line, or is served from the WAB. -/
def dbgGo (part idx : Nat) (b : Binding) (write eight : Bool) (off : Nat) (s : State) : State :=
  let dpa := b.dpaOf off
  let l := lineAt b.out b.ld dpa
  let t := hostTile s part
  let r := dbgReq l write eight dpa s
  let busy (s : State) : State := { s with dbg := { s.dbg with busy := true, access := some (write.toNat + 2 * eight.toNat, off) } }
  let wait (s : State) : State := { busy s with dbg := { (busy s).dbg with waiting := some (part, idx, b) } }
  let home (tile group : Nat) (s : State) : State :=
    sendHome (LoqE.start tile part 512 none l idx group .io r false false none) s
  let go (s : State) : State :=
    match b.lead s with
    | some out =>
      if usable s out then
        let f : Fwd := { lineFwd .dma part (some idx) l r with out := out, ld := b.ld, dpa := dpa }
        s |> busy |> (if b.kind = 1 then forwardTo true 3 b.dmod b.dport b.dpart f else forward true 3 0 0 f)
      else dbgFail DbgSt.tgtDown write s
    | none => dbgFail DbgSt.tgtDown write s
  if b.kind = 1 then go s
  else if b.shared then s |> busy |> home (homeHash l) b.sgrp
  else if atHome s t l then s |> busy |> home t noGroup
  else match (if write then none else wabAt s t part l) with
    | some e =>
      if e.mask = fullMask && !e.lost then
        let s := wabRead t e.id s
        if (wabEnt s t e.id).any (·.lost) then wait s
        else s |> dbgData eight off e.data |> wr .dbg F.DBG_MEM_CTL_STATUS DbgSt.ok
      else if e.stranded && !e.lost then dbgFail DbgSt.tgtDown write s
      else wait s
    | none => go s

/-- An access of the debug master that waits on a WAB entry goes on when the entry has gone, is STRANDED or holds the line (16 R317, 07
R133). -/
def dbgWake (s : State) : State :=
  match s.dbg.waiting, s.dbg.access with
  | some (part, idx, b), some (k, off) =>
    let e := wabAt s (hostTile s part) part (lineAt b.out b.ld (b.dpaOf off))
    if e.any (fun e => e.lost || (e.mask != fullMask && !e.stranded)) then s
    else { s with dbg := { s.dbg with waiting := none, busy := false, access := none } } |> dbgGo part idx b (bit k 0) (bit k 1) off
  | _, _ => s

/-! ### Deletions that wait (06 R122, R138) -/

/-- Nothing of an entry is outstanding: forwarded requests, requests at a home, WAB entries. `before`: only what was
forwarded or allocated before that tick (06 R123). -/
def bindIdle (s : State) (idx : Nat) (before : Option Nat) : Bool :=
  let early (late : Bool) : Bool := before.isNone || !late
  let old (born : Nat) : Bool := match before with
    | none => true
    | some t => decide (born < t) || (born == t && !(bindOf s idx).shared)
  !(s.maps.fwds.any fun f => decide (f.bind = some idx) && early f.lateB && (decide (f.agent = .host) || decide (f.agent = .dma))) &&
    !(s.home.loq.any fun e => e.bind == idx && early e.lateB) &&
    !(s.wab.ents.any fun e => e.bind == idx && old e.born)

/-- A deletion whose requests and WAB entries are done completes. -/
def delDone (w : BWait) (s : State) : State :=
  if w.del && w.deadline.isNone && bindIdle s w.idx none then
    let s := { s with maps := { s.maps with waits := s.maps.waits.filter (· ≠ w) } }
    let s := completeO w.ctx 0x21 St.ok 0 s
    s.when w.posted (post w.entry.part 0x000E [(20, w.idx), (24, w.entry.base), (32, w.entry.bytes)])
  else s

/-- Deletions are looked at again. -/
def delCheck (s : State) : State := s.each s.maps.waits delDone

/-- Requests of the LOQ and of the ingress, and deletions that wait, look again after something that was outstanding has ended. -/
def afterRetire (s : State) : State := s |> alcReport |> wakeLoq |> settle |> dbgWake |> delCheck

end Sys2Proof.Machine
end

