-- ==== Sys2Proof/Machine/LinkOps.lean ====
section
/-!
DEFINITION. Sys2Proof/Machine/LinkOps.lean: how a forwarded request ends (05 R104, 06 Table 6.4, 08 R164-R170), and what a link
does when it leaves L0 for Detect, stops or starts (03 R46-R49, 04 R71, 06 R126, 07 R134, 10 R198).
-/
namespace Sys2Proof.Machine

/-! ### The end of a forwarded request -/

/-- ERRMODE of the binding of a forward. -/
def Fwd.errmode (s : State) (f : Fwd) : Bool := match f.bind with | some i => (bindOf s i).errmode | none => false

/-- The completer identifier of a device's completion, rewritten from the numbering of its link into its host's, and from there into
that of a device that requested (06 R125; log 128). -/
def cplId (s : State) (f : Fwd) : Option Nat :=
  if f.bind.isSome || f.req.op.isPosted then none
  else (vpOfLead s f.out).map fun v =>
    let up := Config.hostId v.1 v.2 (Config.devCpl f.out)
    if f.fromVp.isSome then Config.devId f.lead up else up

/-- A host's or device's request ends. A target's error status reaches the requester as UR, a read as poisoned data
(log 24). A completion from one device to another goes up to the host under P2P Completion Redirect of the port it comes in at (06
R125). -/
def hostEnd (f : Fwd) (e : FwdEnd) (s : State) : State :=
  let redirect := f.fromVp.isSome && (vpOfLead s f.out).any fun v => bit (vpOf s v.1 v.2).acs acsCr
  if f.dropped then s
  else if redirect && !f.req.op.isPosted && decide (e ≠ .down) then
    s.say (.upCpl f.part f.req.tag ((cplId s f).getD 0) (match e with | .ok d _ => some d | _ => none))
  else
    let s := match cplId s f with
      | some id => s.say (.cplFrom f.lead f.req.tag id)
      | none => s
    match e with
    | .ok d p => answer f.part f.lead f.fromVp f.job f.req d p s
    | .down => refuse f.part f.lead f.fromVp f.job FK.tgtDown (f.bind.getD noIdx) (f.errmode s) f.req s
    | .err =>
      match f.job with
      | some j => jobPart j f.req 0 false false s
      | none =>
        match f.req.op with
        | .memRd => respond f.part f.lead f.fromVp f.req.tag .drs allOnesLine.toNat true f.req.md s
        | .ioWrite => s
        | .ioRead | .fetchAdd | .swap | .cas => respond f.part f.lead f.fromVp f.req.tag .cplUr 0 false f.req.md s
        | _ => respond f.part f.lead f.fromVp f.req.tag .ndr 0 false f.req.md s

/-- A writeback of an ALC line ends: when the target has taken it, the line is clean, or leaves the cache when it is to be dropped (08
R164); otherwise it stays DIRTY and is written back again later (log 25). -/
def alcWbEnd (t : Nat) (l : LineId) (e : FwdEnd) (s : State) : State :=
  match e with
  | .ok _ _ =>
    let s := { s with home := { s.home with alc := s.home.alc.filter fun a => !(a.tile == t && decide (a.line = l) && a.drop) } }
    modAlc t l (fun a => { a with wback := false, dirty := false }) s
  | _ => modAlc t l (fun a => { a with wback := false, drop := false }) s

/-- Bytes of writebacks merged into a request, over the data of the target (08 R156, R158). -/
def LoqE.withMerged (q : LoqE) (d : Nat) : LineData := mergeLine q.mergedMask q.mergedData (BitVec.ofNat 512 d)

/-- A fill of the ALC ends: the request that needed it runs (08 R164, R168, R169). -/
def alcFillEnd (t id : Nat) (f : Fwd) (e : FwdEnd) (s : State) : State :=
  match loqOf s id with
  | none => s
  | some q =>
    match e with
    | .ok d false => s |> alcFill t q.line q.part q.bind (q.withMerged d) |> runInAlc id
    | .ok _ true | .err => s |> loseResv q.line .lostError (fun _ => false) |> loqAbort q |> loqDone id
    | .down => s |> loqRefuse { q with bind := f.bind.getD q.bind } FK.tgtDown |> loqDone id

/-- A read, or the poisoning, of a line by its home ends (08 R156, R160). -/
def homeEnd (id : Nat) (f : Fwd) (e : FwdEnd) (s : State) : State :=
  match loqOf s id with
  | none => s
  | some q =>
    if f.req.op.isMemWrite then (match e with
      | .ok _ _ => s |> bump (.homeT q.tile) F.HOME_FENCE_CNT_POISONED |> loqDone id
      | _ => modLoq id (fun q => { q with stage := .waitWab }) s)
    else
      let bad (s : State) : State := loseResv q.line .lostError (fun _ => false) s
      match e with
      | .ok d p =>
        let p := p && q.mergedMask != fullMask
        s |> State.when p bad |> loqAnswer q (q.withMerged d).toNat p |> loqDone id
      | .err => s |> bad |> loqAnswer q allOnesLine.toNat true |> loqDone id
      | .down => s |> loqRefuse q FK.tgtDown |> loqDone id

/-- A near-memory AtomicOp ends (08 R170). -/
def nearEnd (id : Nat) (e : FwdEnd) (s : State) : State :=
  match loqOf s id with
  | none => s
  | some q =>
    match e with
    | .ok d _ => s |> loqAnswer q d false |> loqDone id
    | .err => s |> bump (.homeT q.tile) F.HOME_ATOM_CNT_NMA_ERR |> loqAbort q |> loqDone id
    | .down => s |> loqRefuse q FK.tgtDown |> loqDone id

/-- A forward leaves the list; a request of its agent that waited may be issued (05 R104). -/
def dropFwd (id : Nat) (s : State) : State :=
  { s with maps := { s.maps with fwds := s.maps.fwds.filter fun f => f.id != id } }
    |> State.each (s.core.cells.filter fun x => !x.inUse && (match x.inp with | .agent _ => true | _ => false)) takeWaiting

/-- The access of the debug master ends: with the line, or with a STATUS of DBG_MEM_CTL, a read then returning all ones
(16 R317, R318). -/
def dbgEnd (st : Nat) (data : LineData) (s : State) : State :=
  match s.dbg.access with
  | none => s
  | some (k, off) =>
    let write := bit k 0
    let s := { s with
      dbg := { s.dbg with busy := false, access := none, waiting := none, answer := none }
      maps := { s.maps with fwds := s.maps.fwds.filter fun f => decide (f.agent ≠ Agent.dma) } }
    (s.when (!write) (if st = 0 then dbgData (bit k 1) off data else
      fun s => s |> wr .dbg F.DBG_MEM_DATA_LO_DATA 0xFFFFFFFF |> wr .dbg F.DBG_MEM_DATA_HI_DATA 0xFFFFFFFF))
      |> wr .dbg F.DBG_MEM_CTL_STATUS st

/-- A forwarded request ends: it leaves the list, and whoever sent it is told. -/
def fwdEndNow (f : Fwd) (e : FwdEnd) (s : State) : State :=
  let s := dropFwd f.id s
  match f.agent with
  | .host => if e = .down then hostEnd f e s else
      carried ⟨.link f.out, f.part, f.tc, f.id, f.lead, ((f.job.bind (jobOf s)).map (·.req)).getD f.req⟩ (hostEnd f e) s
  | .wab t id => (match e with
    | .ok _ _ => wabAcked t id f.own true s
    | .err => wabAcked t id f.own false s
    | .down => wabFreed t id f.own s)
  | .alc t id => if f.req.op.isMemWrite then alcWbEnd t (lineAt f.out f.ld f.dpa) e s else alcFillEnd t id f e s
  | .home _ id => homeEnd id f e s
  | .atomic _ id => nearEnd id e s
  | .dma => match e with | .down => dbgEnd 5 0 s | .err => dbgAnswer false allOnesLine.toNat s | .ok d _ => dbgAnswer false d s

/-- A forward of an agent is its oldest: its response need not wait in the reorder buffer. -/
def oldestOf (s : State) (f : Fwd) : Bool :=
  match (if f.own then f.agent.unit else none) with
  | none => true
  | some u => !(s.maps.fwds.any fun x => x.own && decide (x.agent.unit = some u) && decide (x.id < f.id))

/-- No response to a forward stands in a reorder buffer. -/
def unanswered (s : State) (f : Fwd) : Bool := !s.core.rob.any fun x => x.1 == f.id

/-- Responses that stand in the reorder buffers are taken while they are those of the oldest requests (05 R104). -/
def robDrain : Nat → State → State
  | 0, s => s
  | n + 1, s =>
    match s.core.rob.findSome? fun x =>
      ((s.maps.fwds.find? fun f => f.id == x.1).filter (oldestOf s)).map fun f => (f, x.2) with
    | none => s
    | some (f, e) => robDrain n
        (fwdEndNow f e { s with core := { s.core with rob := s.core.rob.filter fun x => x.1 != f.id } })

/-- A response reaches the module: an agent receives its responses in the order in which it issued the requests (05 R104). -/
def fwdEnd (f : Fwd) (e : FwdEnd) (s : State) : State :=
  if oldestOf s f then
    let s := fwdEndNow f e s
    robDrain s.core.rob.length s
  else if !unanswered s f then s
  else { s with core := { s.core with rob := s.core.rob ++ [(f.id, e)] } }

/-! ### A link leaves L0, stops or starts -/

/-- Messages of a cell that draw an error response toward their source module: requests of CXL.io draw UR, CXL.mem reads all-ones data
with poison (04 R79). -/
def trunkErrs (smod oc : Nat) (tags reads : List Nat) (s : State) : State :=
  if oc = 1 then s.each tags fun t => State.say (.trunkErr smod t .cplUr 0 false)
  else if oc = 3 then s.each (tags.filter reads.contains) fun t => State.say (.trunkErr smod t .drs allOnesLine.toNat true)
  else s

/-- The routing header that a cell carries in bytes 2 to 9 (04 R76). -/
def cellHdr (c : Cell) : DWord :=
  let byte (i : Nat) : DWord := (c.words.getD (i / 8) 0 >>> (8 * (i % 8))) &&& 0xFF
  (List.range 8).foldl (fun h j => (h <<< 8) ||| byte (2 + j)) 0

/-- Cells in transit over this module, from trunk to trunk. -/
def inTransit (s : State) (c : Cell) : Bool := !c.srck && roleOf s c.src == 3 && roleOf s c.out == 3 && c.dmod != modid s

/-- Requests in transit whose flits are discarded end as though their target were unreachable: toward their source module
(04 R71, R79). -/
def transitLost (cells : List Nat) (s : State) : State :=
  let lost := s.core.cells.filter fun c => cells.contains c.id && c.inUse && inTransit s c
  s.each lost fun c => trunkErrs (bits (cellHdr c).toNat 26 8) c.oc c.tags c.reads

/-- Cells of a link's replay buffer and of its ingress allowance (05 R90). -/
def downCells (s : State) (lead : Nat) : List Nat :=
  let rep := (linkOf s lead).replay.map (·.cell)
  (s.core.cells.filter fun c => rep.contains c.id || decide (c.allow = .ing lead)).map (·.id)

/-- Requests of the link whose cells are freed before they left go with them. -/
def dropLost (lead : Nat) (lost : List Nat) (s : State) : State :=
  let gone (f : Fwd) : Bool := decide (f.agent = .host) && f.lead == lead && lost.contains f.id && !cellWaits s f
  { s with maps := { s.maps with fwds := s.maps.fwds.filter fun f => !gone f } }

/-- Requests on their way to a home whose cells are freed go with them; no WB_ACK comes for a write that is lost so. -/
def dropHomes (lost : List Nat) (s : State) : State :=
  let gone (e : LoqE) : Bool := e.stage == .travel && lost.contains e.id && !(s.core.cells.any fun c => c.homes.contains e.id)
  let wbs := (s.home.loq.filter fun e => gone e && e.isWb).foldl (fun l e => l.erase (e.lead, e.line)) s.home.wbs
  { s with home := { s.home with loq := s.home.loq.filter fun e => !gone e, wbs := wbs } }

/-- Forwards that a link carries as queued cells fail as unreachable when those cells are freed (03 R48). -/
def freeQueued (lead : Nat) (s : State) : State :=
  let q := s.core.cells.filter fun c => c.out == lead && decide (c.stage = .egress)
  let ids := q.flatMap (·.fwds)
  let fs := s.maps.fwds.filter fun f => ids.contains f.id
  s |> transitLost (q.map (·.id)) |> State.each (q.map (·.id)) discardCell |> State.each fs fun f => fwdEnd f .down

/-- The link becomes STOPPED (03 R48); PORT_STATE commands that waited for it complete (11 R221). -/
def linkStopped (lead : Nat) (s : State) : State :=
  let w := s.ports.waits.filter fun x => x.1 == lead
  let s := { s with ports := { s.ports with waits := s.ports.waits.filter fun x => x.1 != lead } }
  s |> wr (.phy lead) F.BLK_CTL_RUN 2 |> State.each w fun x => finish x.2 0x41 St.ok

/-- A device's presence or link is lost without HP_REMOVE (06 R126): reported, and posted once until it is in L0 again. Without slot
power Data Link Layer Link Active has not been set. -/
def surprise (presence : Bool) (lead : Nat) (s : State) : State :=
  match vpOfLead s lead with
  | none => s
  | some (part, v) =>
    let p := vpOf s part v
    let s := if presence then vpNote part v 6 s else s.when p.pwr (vpNote part v 1)
    if p.rm.isSome || p.lost then s
    else s |> setVp part v { vpOf s part v with lost := true } |> postError part 0x0008 [(16, v), (18, lead)]

/-- The host of a partition is lost (10 R198): HOST_LOST for link or presence, and a partition reset. -/
def hostLost (lead reason : Nat) (s : State) : State :=
  let part := hpartOf s lead
  s |> post 128 0x000A [(16, part), (18, lead), (20, reason)] |> partResetStart part 3 none

/-- The link's own record is reinitialised; the lanes declared failed and the far end stay known. -/
def LinkS.fresh (l : LinkS) : LinkS :=
  { LinkS.reset with
    far := l.far, rev := l.rev, fullW := l.fullW, inj := l.inj, draws := l.draws, phase := l.phase, noPath := l.noPath }

/-- The ingress link of flits that are not verified is gone: no copy of their cells can be written again. Copies that carry a tail
mark go on poisoned (log 123). -/
def dropGrps (lead : Nat) (s : State) : State :=
  let mine := (s.core.grps.filter fun g => g.lead == lead).map (·.id)
  { s with core := { s.core with
      grps := s.core.grps.filter fun g => g.lead != lead
      cells := s.core.cells.map fun c =>
        if c.bad && (match c.grp with | some g => mine.contains g | none => false) then { c with bad := false, pois := true } else c } }

/-- A link leaves L0 or Recovery for OFF or Detect (04 R71, 05 R90, 06 R126, 07 R134, 10 R198). `planned`: the manager took a
STOPPED link down. -/
def goDown (lead : Nat) (planned : Bool) (ph : Phase) (s : State) : State :=
  if linkDown s lead then s
  else
    let cells := downCells s lead
    let cells := cells ++ (s.core.cells.filter fun c => match c.stage with | .copy src => cells.contains src | _ => false).map (·.id)
    let mine := s.core.cells.filter fun c => decide (c.allow = .ing lead) && decide (c.stage ≠ .sent)
    let lost := mine.flatMap (·.fwds)
    let homes := mine.flatMap (·.homes)
    let sent := s.maps.fwds.filter fun f => f.out == lead && !cellWaits s f
    let s := setPhase lead ph s
    let rep := (linkOf s lead).replay.map (·.cell)
    let s := s |> transitLost rep |> State.each cells discardCell
    let s := s |> dropLost lead lost |> dropHomes homes |> modLink lead LinkS.fresh |> dropGrps lead
      |> wr (.lnk lead) F.LNK_STS_REPLAYING 0 |> wr (.lnk lead) F.LNK_SEQ_STS_NEXT_TX 0 |> wr (.lnk lead) F.LNK_SEQ_STS_NEXT_RX 0
      |> strand true (fun e => e.out == lead)
      |> State.each sent (fun f => fwdEnd f .down)
    let s := if rd s (.phy lead) F.BLK_CTL_RUN = 1 then s |> freeQueued lead |> linkStopped lead else s
    let s := if roleOf s lead = 1 then (if planned then s else hostLost lead 0 s)
      else if roleOf s lead = 2 then surprise false lead s else s
    s |> State.when (ph == .off) (closePort lead) |> afterRetire

/-- A link begins training from Detect (03 R46, R54): its lane counters clear. -/
def toDetect (lead : Nat) (s : State) : State :=
  let s := setPhase lead .detect s
  let s := s |> laneReadmit lead |> modLink lead (fun l => { l with retryAt := none })
  s.each (List.range' lead (ctrlsOf s lead)) fun p s =>
    s |> wr (.phy p) F.PHY_LANE_CNT0_LOS_CNT 0 |> wr (.phy p) F.PHY_LANE_CNT0_LOL_CNT 0
      |> wr (.phy p) F.PHY_LANE_CNT1_LOS_CNT 0 |> wr (.phy p) F.PHY_LANE_CNT1_LOL_CNT 0

/-- Take a link down and train it from Detect. -/
def retrainDetect (lead : Nat) (planned : Bool) (s : State) : State := s |> goDown lead planned .detect |> toDetect lead

/-! ### Reading a cell (05 R105, R106) -/

/-- What the read of a cell found. -/
inductive ReadRes where
  | clean | rebuilt | lost | header
deriving DecidableEq, Repr

/-- Words of the cell that fail their parity as read; 32 is the XOR word. A word read wrong whose parity bits fit is not found. -/
def badWordsOf (r : CellRead) : List Nat :=
  ((r.bad.filter fun b => decide (b.1 ≤ 32) && wordParity b.2.1 != b.2.2).map (·.1)).dedup

/-- The outcome of a read by the words that fail. -/
def judgeData (r : CellRead) : ReadRes :=
  match badWordsOf r with
  | [] => .clean
  | [_] => .rebuilt
  | _ => .lost

def judgeRead (r : CellRead) : ReadRes := if 2 ≤ r.hdr then .header else judgeData r

/-- The rebuilt value of a word: the XOR word with the other words (05 R105). -/
def rebuildWord (c : Cell) (i : Nat) : DWord :=
  c.xor ^^^ xorWord ((List.range 32).map fun k => if k = i then 0 else c.words.getD k 0)

/-- The single bad word of a cell is rebuilt and written back; a bad XOR word is recomputed. -/
def Cell.repair (c : Cell) : List Nat → Cell
  | [i] => if i = 32 then { c with xor := xorWord c.words } else { c with words := c.words.set i (rebuildWord c i) }
  | _ => c

/-- Counts and reports of the data words read (05 R105). -/
def noteData (c : Cell) (r : CellRead) (s : State) : State :=
  let pg := Page.cell c.tile
  match judgeData r with
  | .rebuilt => s |> modCell c.id (fun c => c.repair (badWordsOf r)) |> bump pg F.CELL_PAR_CNT_DATA_CORR
      |> raise (tileSrcNo c.tile 0) none none
  | .lost => s |> modCell c.id (fun c => { c with pois := true }) |> bump pg F.CELL_PAR_CNT_DATA_UNCORR
      |> raise (tileSrcNo c.tile 1) (some c.part) none
  | _ => s

/-- Counts and reports of a read (05 R105, R106). A double error of the header stops the cell's queue. -/
def noteRead (c : Cell) (r : CellRead) (s : State) : State :=
  if 2 ≤ r.hdr then s |> modCell c.id (fun c => { c with hdrBad := true }) |> raise (tileSrcNo c.tile 2) none none
  else (s.when (r.hdr == 1) (bump (.cell c.tile) F.CELL_PAR_CNT_HDR_CORR)) |> noteData c r

/-! ### Wire flits (04 R66, R73-R75) -/

/-- The link sends a cell as one 256-byte flit. -/
def wholeFlits (s : State) (lead : Nat) : Bool := decide (2 ≤ rd s (.lnk lead) F.LNK_STS_MODE) || roleOf s lead == 3

/-- The wire flits or TLPs that a cell leaves as, by their units of content: one; in 68-byte mode one for each 64 bytes; in non-Flit
mode one for each message (04 R66). -/
def pieces (s : State) (lead : Nat) (c : Cell) : List Nat :=
  if wholeFlits s lead then [c.slots]
  else if rd s (.lnk lead) F.LNK_STS_MODE = 1 then (List.range ((c.slots + 3) / 4)).map fun k => min 4 (c.slots - 4 * k)
  else c.sizes

/-- Units of the cell before a wire flit of it, and its own. -/
def pieceUnits (s : State) (lead : Nat) (c : Cell) (k : Nat) : Nat × Nat :=
  let ps := pieces s lead c
  ((ps.take k).sum, ps.getD k 0)

/-- A data word is in a wire flit of a cell: a unit is two words (log 31). -/
def inPiece (s : State) (lead : Nat) (c : Cell) (k i : Nat) : Bool :=
  decide (i < 32) && (wholeFlits s lead || (let u := pieceUnits s lead c k; decide (u.1 ≤ i / 2) && decide (i / 2 < u.1 + u.2)))

/-- The data words of a wire flit of a cell. -/
def pieceData (s : State) (lead : Nat) (c : Cell) (k : Nat) : List DWord :=
  ((List.range 32).filter (inPiece s lead c k)).map fun i => c.words.getD i 0

/-- The right check codes, and FEC, of a wire flit of a cell, in the order of `Out.sentFlit` (05 R83). -/
def checkCodes (s : State) (lead : Nat) (c : Cell) (k : Nat) : List Nat :=
  let w := pieceData s lead c k
  match rd s (.lnk lead) F.LNK_STS_MODE with
  | 3 => [Config.linkCrc 0 (w.take 16), Config.linkCrc 1 (w.drop 16), Config.linkFec w]
  | 0 => [Config.linkCrc 3 w]
  | 1 => [Config.linkCrc 2 w]
  | _ => [Config.linkCrc 2 w, Config.linkFec w]

/-- The check code that a flit with bad words carries wrong (04 R73): in the latency-optimized layout those of the halves that hold
one. -/
def wrongCrc (s : State) (lead : Nat) (words : List Nat) : WrongCrc :=
  match rd s (.lnk lead) F.LNK_STS_MODE with
  | 3 => .halves (words.any fun i => decide (i < 16)) (words.any fun i => decide (16 ≤ i))
  | 0 => .lcrc
  | _ => .flit

/-- Ticks for which a wire flit of so many units is on the wire, rounded up, at the rate and width of the transmit direction. -/
def flitTicks (s : State) (lead units : Nat) : Nat :=
  let half := [5, 16, 32, 64, 128, 256].getD (rd s (.phy lead) F.PHY_LINK_STS_CUR_RATE) 5
  let per := 10 * half * txLanes s lead
  let bytes := if wholeFlits s lead then 256 else if rd s (.lnk lead) F.LNK_STS_MODE = 1 then 68 else 16 * units
  (16 * bytes + per - 1) / max 1 per

/-- Slots that a wire flit takes: one, or one for each 64 bytes where messages are unpacked (13, Slot accounting). -/
def slotUnits (s : State) (lead units : Nat) : Nat := if wholeFlits s lead then 1 else max 1 ((units + 3) / 4)

/-- Flits on the wire of a link, with one more that follows them. -/
def onWireAdd (s : State) (lead seq units : Nat) : List (Nat × Nat) :=
  let l := (linkOf s lead).sending.filter fun x => decide (s.tick < x.2)
  l ++ [(seq, (l.map (·.2)).foldl max s.tick + flitTicks s lead units)]

/-- A flit of a cell is sent. -/
def sayFlit (lead : Nat) (e : REnt) (wrong : Option WrongCrc) (poison : Bool) (s : State) : State :=
  s.say (.sentFlit lead e.seq e.cell e.piece wrong poison (((cellOf s e.cell).map fun c => checkCodes s lead c e.piece).getD []))

/-! ### Replay (04 R70, R72-R75) -/

/-- One entry of the replay buffer is sent again, read from its cell, poisoned if it was so before or its words cannot be rebuilt: it is
the flit's first good transmission when all before it were known bad, and a rebuilt-poison replay is wasted (04 R70, R73, R74; 13 R256).
`r`: what the read meets. -/
def resendOne (lead : Nat) (r : CellRead) (e : REnt) (s : State) : State :=
  match cellOf s e.cell with
  | none => s
  | some c =>
    let units := (pieceUnits s lead c e.piece).2
    let late := if r.after then (badWordsOf r).filter (inPiece s lead c e.piece) else []
    let lost := judgeData r == .lost
    let fails := lost && (e.stomped || !late.isEmpty)
    let e' : REnt := { e with
      held := false, stomped := e.stomped && !late.isEmpty, poison := e.poison || lost, lost := e.lost || fails }
    let wrong := if late.isEmpty then none else some (wrongCrc s lead late)
    let cls := if e.stomped && late.isEmpty && !e'.lost then 0x41 else 0x42
    let sending := onWireAdd s lead e.seq units
    s |> State.when fails (bump (.lnk lead) F.LNK_STOMP_CNT_REBUILD_FAIL)
      |> State.when (!late.isEmpty) (bump (.lnk lead) F.LNK_STOMP_CNT_STOMP_TX)
      |> sayFlit lead e' wrong (e.poison || (lost && late.isEmpty))
      |> State.each (List.range (slotUnits s lead units)) (fun _ => countSlot lead cls)
      |> modLink lead fun l => { l with
          busyTx := true, sending := sending, replay := l.replay.map fun x => if x.seq = e.seq then e' else x }

/-- Unacknowledged flits are sent again in their order, each as its cell holds it now; each cell is read once, and its words are
checked (05 R105). A cell marked bad holds the replay up, which goes on when the mark has cleared; until then it is in progress (04 R70,
R72, R74, R75, Table 4.7). `reads`: what the reads meet, by cell. -/
def resend (lead : Nat) (reads : List (Nat × CellRead)) : List Nat → List REnt → State → State
  | _, [], s => s |> modLink lead (fun l => { l with resume := none }) |> wr (.lnk lead) F.LNK_STS_REPLAYING 0
  | seen, e :: t, s =>
    match cellOf s e.cell with
    | none => resend lead reads seen t s
    | some c =>
      if c.bad then
        s |> modLink lead (fun l => { l with resume := some e.seq }) |> wr (.lnk lead) F.LNK_STS_REPLAYING 1
      else
        let r := ((reads.find? fun x => x.1 == e.cell).map (·.2)).getD CellRead.clean
        let s := s.when (!seen.contains e.cell && !r.after) (noteData c r)
        let s := resendOne lead r e s
        let s := s.when (!seen.contains e.cell && r.after) (noteData c r)
        resend lead reads (e.cell :: seen) t s

/-- The transmit direction is in DOZE or L1: a flit that becomes ready starts the exit, and waits (03 R60, R61). -/
def asleep (s : State) (lead : Nat) : Bool :=
  let tx := rd s (.phy lead) F.PHY_LINK_STS_TX_STATE
  decide (tx = 2) || decide (tx = 3)

/-- The exit from DOZE or L1 starts (03 R60, R61). -/
def startExit (lead : Nat) (s : State) : State :=
  let l1 := rd s (.phy lead) F.PHY_LINK_STS_TX_STATE == 3
  modLink lead (fun l => { l with exTx := true, exRx := l.exRx || l1 }) s

/-- A replay starts; in DOZE or L1 it waits for the exit, which it starts. -/
def startReplay (lead : Nat) (reads : List (Nat × CellRead)) (es : List REnt) (s : State) : State :=
  match es with
  | [] => s
  | e :: _ =>
    if asleep s lead then
      s |> modLink lead (fun l => { l with resume := some e.seq }) |> wr (.lnk lead) F.LNK_STS_REPLAYING 1 |> startExit lead
    else resend lead reads [] es s

/-- A replay that stopped at a marked cell, or waits for an exit, goes on. -/
def resumeReplay (lead : Nat) (s : State) : State :=
  match (linkOf s lead).resume with
  | none => s
  | some q =>
    if linkUp s lead && !asleep s lead then resend lead [] [] ((linkOf s lead).replay.dropWhile fun e => e.seq != q) s else s

/-- Both directions of the link hold no flits (03 R48): nothing waits at its egress or for acknowledgement, and no cell, held
request or request that waits at the ingress, of those that came over it, counts against its ingress allowance (06 R124). -/
def linkEmpty (s : State) (lead : Nat) : Bool :=
  (linkOf s lead).replay.isEmpty && !(s.maps.held.any fun h => h.lead == lead) && !(s.maps.ioWait.any fun w => w.lead == lead) &&
    !(s.core.cells.any fun c => (c.out == lead && decide (c.stage = .egress)) || decide (c.allow = .ing lead))

/-! ### Transfers confirmed (05 R107, R109) -/

/-- A cell's flit is not verified: its second half has not come, or failed (05 R90). -/
def unsure (s : State) (c : Cell) : Bool := match c.grp with | some g => (grpOf s g).any fun x => !x.sure | none => false

/-- An earlier cell of the input toward the output is not yet confirmed: confirmations keep the order of leaving the VOQs. -/
def heldBehind (s : State) (c : Cell) (dst : Nat) : Bool :=
  s.core.cells.any fun x => x.id != c.id && decide (x.inp = c.inp) && x.tile == c.tile && x.out == c.out &&
    match x.stage with | .moving d => decide (d < dst) | _ => false

/-- Queue number of a cell on its egress: 128 × TC + PART, 384 for TC3 (09 Table 9.1). -/
def Cell.queue (c : Cell) : Nat := if c.tc = 3 then 384 else 128 * c.tc + c.part

/-- Key of a queue, and of a shaper. -/
def queueKey (lead q : Nat) : Nat := 385 * lead + q
def shpKey (lead part : Nat) : Nat := 128 * lead + part

/-- A cell joins its egress queue. A queue that was empty starts with a deficit of 0 and with no visit (09 R179). -/
def joinQueue (id : Nat) (d : Cell) (s : State) : State :=
  let q := d.queue
  let t := toTail id (fun _ => { d with stage := .egress }) s
  if s.core.cells.any fun x => x.out == d.out && decide (x.stage = .egress) && x.queue == q then t
  else
    let visit := if tget none s.egr.visit d.out = some q then tput none s.egr.visit d.out none else s.egr.visit
    { t with egr := { t.egr with deficits := tput 0 t.egr.deficits (queueKey d.out q) 0, visit := visit } }

/-- A response to the host of a partition that is being reset: it is discarded at the host link's egress (10 Table 10.6). -/
def dropsAtHost (s : State) (d : Cell) : Bool :=
  resetting s d.part && decide (hostLead s d.part = some d.out) && [2, 5, 6].contains d.oc

/-- A copy is confirmed: an egress copy joins its queue, an arrival waits to be linked. The source cell is freed, but one whose flit
is not verified is kept, without its requests, which are the copy's now (05 R90). -/
def confirmMove (c : Cell) (dst : Nat) (s : State) : State :=
  let s := { s with core := { s.core with doneHeld := s.core.doneHeld.filter (· != c.id) } }
  let s := match cellOf s dst with
    | none => s
    | some d =>
      let d : Cell := { d with
        fwds := c.fwds, homes := c.homes, rsps := c.rsps, tags := c.tags, sizes := c.sizes, slots := c.slots
        words := c.words, xor := c.xor, pois := c.pois }
      match d.allow with
      | .egr _ => s |> joinQueue dst d |> stamp dst |> mirror 1 dst |> State.when (dropsAtHost s d) (discardCell dst)
      | _ => modCell dst (fun _ => { d with stage := .unlinked }) s
  if unsure s c then modCell c.id (fun c => { c with stage := .kept, fwds := [], homes := [], rsps := [] }) s else freeCell c.id s

/-- A good transfer is confirmed, or held behind a repeat or a tail mark. -/
def transferGood (id : Nat) (s : State) : State :=
  match cellOf s id with
  | none => s
  | some c =>
    match c.stage with
    | .moving d =>
      if c.bad || heldBehind s c d then
        if s.core.doneHeld.contains id then s else { s with core := { s.core with doneHeld := s.core.doneHeld ++ [id] } }
      else confirmMove c d s
    | _ => s

/-- Good transfers that were held are confirmed as far as they can be. -/
def confirmHeld (s : State) : State := s.each (s.core.doneHeld.flatMap fun _ => s.core.doneHeld) transferGood

/-! ### Tail marks (04 R75; 05 R109) -/

/-- Slots of a flit that are counted as RETIRED count as WASTED: the flit is still on the wire, and its slot has not passed (13 R256). -/
def slotWasted (lead n : Nat) (s : State) : State :=
  s |> addCtr (ctrKey (512 + lead) 1) (2 ^ 48 - n) |> addCtr (ctrKey (512 + lead) 2) n

/-- A flit on the wire that holds bytes of the half that a tail mark names ends with a wrong check code (04 R73, R75). At NARROW width
the slot in which it started has passed, and its class stays (13 Table 13.5, R256). -/
def stompEntry (lead : Nat) (e : REnt) (s : State) : State :=
  match cellOf s e.cell with
  | none => s
  | some c =>
    let words := (c.late.flatMap fun u => [2 * u, 2 * u + 1]).filter (inPiece s lead c e.piece)
    if !c.bad || words.isEmpty then s
    else
      let now := rd s (.phy lead) F.PHY_LINK_STS_TX_STATE == 0 && !e.stomped && !e.lost
      let n := slotUnits s lead (pieceUnits s lead c e.piece).2
      s |> State.say (.stompFlit lead e.seq (wrongCrc s lead words)) |> bump (.lnk lead) F.LNK_STOMP_CNT_STOMP_TX
        |> State.when now (slotWasted lead n)
        |> modLink lead fun l => { l with
            sending := l.sending.filter fun x => x.1 != e.seq
            replay := l.replay.map fun x => if x.seq = e.seq then { x with stomped := x.stomped || now } else x }

/-- The flits of a link that are on the wire and whose cells have a tail mark. -/
def stompSending (lead : Nat) (s : State) : State :=
  let l := linkOf s lead
  let on := (l.sending.filter fun x => decide (s.tick < x.2)).map (·.1)
  s.each (l.replay.filter fun e => on.contains e.seq) (stompEntry lead)

/-- The cells of a received flit that hold a byte of its second half get a tail mark, and with them every copy of theirs; a copy being
sent is stomped. LATE_MARK counts the cells of the ingress. -/
def markGrp (g : Nat) (s : State) : State :=
  let hit (c : Cell) : Bool := decide (c.grp = some g) && !c.late.isEmpty
  let n := ((s.core.cells.filter hit).filter fun c => match c.allow with | .ing _ => true | _ => false).length
  let outs := ((s.core.cells.filter fun c => hit c && decide (c.stage = .sent)).map (·.out)).dedup
  let lead := ((grpOf s g).map (·.lead)).getD 0
  { s with core := { s.core with cells := s.core.cells.map fun c => if hit c then { c with bad := true } else c } }
    |> bumpBy (.lnk lead) F.LNK_STOMP_CNT_LATE_MARK n |> State.each outs stompSending

/-- Both halves of a received flit are verified: kept cells are freed, transfers held by a mark are confirmed, and replays that stopped
at a mark go on (05 R90, R109; 04 R75). -/
def sureGrp (g : Nat) (s : State) : State :=
  let s := { s with core := { s.core with
    grps := s.core.grps.map fun x => if x.id = g then { x with sure := true } else x } }
  let kept := (s.core.cells.filter fun c => decide (c.grp = some g) && decide (c.stage = .kept)).map (·.id)
  s |> State.each kept freeCell |> grpDone g |> confirmHeld
    |> State.each ((s.ports.links.filter fun e => e.2.resume.isSome).map (·.1)) resumeReplay

/-- A write to BLK_CTL.RUN of a lead's PHY page (03 R48, 17 R324): false when it is to be discarded. -/
def setLinkRun (lead v : Nat) (s : State) : Bool × State :=
  let cur := rd s (.phy lead) F.BLK_CTL_RUN
  if v = 3 then (false, s)
  else if v = 0 then
    if cur = 1 then (false, s)
    else if cur = 2 then
      (true, s |> wr (.phy lead) F.BLK_CTL_RUN 0 |> returnCredits lead |> afterRetire)
    else (true, s)
  else if cur = 0 then
    let s := s |> wr (.phy lead) F.BLK_CTL_RUN 1 |> strand false (fun e => e.out == lead)
      |> loseResvIf (fun r => r.line.out == lead) .lostError
    (true, afterRetire (if linkDown s lead then s |> freeQueued lead |> linkStopped lead else s))
  else (true, s)

end Sys2Proof.Machine
end

