-- ==== Sys2Proof/Machine/SchedOps.lean ====
section
/-!
DEFINITION. Sys2Proof/Machine/SchedOps.lean: the schedule table of the FTM (02 R39-R41, 11 R214): acceptance, removal, and the
rules by which a restart is accepted (10 R194).
-/
namespace Sys2Proof.Machine

/-- A free index of the schedule table; where the search for it starts is a free value (log 1). -/
def schedFree (s : State) : Option Nat :=
  ((List.range 256).map fun k => (Config.freeIndex s.free + k) % 256).find? fun i => !s.sched.any (·.idx == i)

/-- The first row of Table 2.3 that turns an instant away, with its status; none: accepted. -/
def schedJudge (s : State) (inst : Nat) : Option Nat :=
  if rd s .ftm F.FTM_STS_STATE = 0 then some St.notSet
  else if inst < s.time + 512 then some St.tooLate
  else if s.time + 2 ^ 32 < inst then some St.tooFar
  else if 256 ≤ s.sched.length then some St.schedFull
  else none

/-- The block NI of a tile that serves a block (01 Table 1.6; log 120). -/
def blockNi (t kind : Nat) : Nat := 0x10 + 16 * t + Config.blockNi kind % 16

/-- The NI that serves a page; none for a page of the M-die that no destination of Table 1.6 names, or of a partition (01 Table 1.6,
17 R334, R335; log 120). -/
def pageNi : Page → Option Nat
  | .pwr => some 0x02 | .ftm => some 0x03 | .flt => some 0x04 | .tel => some 0x05 | .glr => some 0x08 | .sec => some 0x09
  | .dbg => some 0x0A | .mq ep _ => some (0x06 + ep) | .ni d => some d
  | .lnk p | .phy p | .ing p | .egr p => some (0x90 + p / 8)
  | .sched t => some (blockNi t 0) | .bindT t => some (blockNi t 1) | .cnp t => some (blockNi t 3) | .cell t => some (blockNi t 4)
  | .wabT t => some (blockNi t 5) | .homeT t => some (blockNi t 6) | .halo t => some (blockNi t 7)
  | _ => none

/-- The tiles that hold part of a partition: those of its host link, and of the links of its segments (02 R42). -/
def partTiles (s : State) (part : Nat) : List Nat :=
  (((hostLead s part).toList.map tileOf) ++
    s.maps.binds.filterMap fun e => if e.2.valid && e.2.kind != 3 && e.2.part == part then some (tileOf e.2.out) else none).dedup

/-- The NIs concerned by an action, to which the FTM sends the armed order (02 R39, R42; log 120). -/
def actNis (s : State) : SchedAct → List Nat
  | .portState lead _ | .portPm lead _ => [0x90 + lead / 8]
  | .shaper lead _ _ _ _ | .quantum lead _ _ _ => [blockNi (tileOf lead) 0]
  | .bindStop _ | .bindStart _ => (List.range 8).map fun t => blockNi t 1
  | .restart part => (partTiles s part).map fun t => blockNi t 2
  | .regWrite off _ _ => ((pageAt (off / 0x1000)).bind pageNi).toList

/-- The fabric time that all copies concerned by an entry have reached; the FTM's own where the entry concerns no NI (02 R39; log
120). -/
def entTime (s : State) (e : SchedEnt) : Nat :=
  match actNis s e.act with
  | [] => s.time
  | n :: l => l.foldl (fun t n => min t (niTime s n)) (niTime s n)

/-- Ticks left until an entry acts; none when the copies have been set past the instant (log 120). -/
def entLeft (s : State) (e : SchedEnt) : Nat := e.inst - entTime s e

/-- Put an action in the table: the index, or the status of the refusal (02 R39); a late one is counted. The armed order goes to
the NIs concerned. -/
def schedAdd (inst : Nat) (act : SchedAct) (owner : SchedOwner) (s : State) : Sum Nat Nat × State :=
  match schedJudge s inst with
  | some st => (.inr st, if st = St.tooLate then bump .ftm F.FTM_SCHED_STS_LATE_CNT s else s)
  | none =>
    match schedFree s with
    | none => (.inr St.schedFull, s)
    | some i =>
      (.inl i, { s with
        sched := s.sched ++ [⟨i, inst, s.ftm.order, act, owner⟩], free := s.free + 1
        ftm := { s.ftm with order := s.ftm.order + 1 }
        out := s.out ++ [.armed i inst (actNis s act)] })

/-- A command with AT 1 is passed to the FTM: interim completion, or the one completion of its refusal (11 R214). -/
def schedCmd (c : Ctx) (op inst : Nat) (act : SchedAct) (s : State) : State :=
  match schedAdd inst act (.cmd c op) s with
  | (.inl i, s) => completeInterim c op i s
  | (.inr st, s) => finish c op st s

/-- The entry of the table that an index names. -/
def schedEnt (s : State) (idx : Nat) : Option SchedEnt := s.sched.find? fun e => e.idx == idx

/-- Remove an entry. -/
def schedDrop (idx : Nat) (s : State) : State := { s with sched := s.sched.filter fun e => e.idx != idx }

/-- Cancel an entry: true when it was removed, its command then completing with CANCELLED (02 R41). -/
def schedCancelAt (idx : Nat) (s : State) : Bool × State :=
  match schedEnt s idx with
  | none => (false, s)
  | some e =>
    if e.inst < s.time + 512 then (false, wr .ftm F.FTM_SCHED_STS_CANCEL_LATE 1 s)
    else (true, s |> schedDrop idx |> ownerDone e St.cancelled 0)

/-- The conditions of Table 10.4, checked when the FTM would accept the restart (10 R194); a reset in progress answers BUSY
whatever the run state (Table 10.8). -/
def restartJudge (s : State) (part inst : Nat) : Option Nat :=
  match schedJudge s inst with
  | some st => some st
  | none =>
    if !holdsPiece s part then some St.noPart
    else if resetting s part then some St.busy
    else if partSt s part ≠ 2 then some St.notStopped
    else if (restartEnt s part).isSome then some St.busy
    else none

/-- Arm a restart: the index, or the status of the refusal (02 R39, 10 R194). -/
def restartAdd (part inst : Nat) (owner : SchedOwner) (s : State) : Sum Nat Nat × State :=
  match restartJudge s part inst with
  | some st => (.inr st, if st = St.tooLate then bump .ftm F.FTM_SCHED_STS_LATE_CNT s else s)
  | none => schedAdd inst (.restart part) owner s

/-- The first refill-slot boundary at least 512 ticks ahead (10 R188). -/
def restartBoundary (s : State) : Nat := (s.time + 512 + 127) / 128 * 128

/-- An armed entry whose instant has come; the earliest accepted comes first (02 R38, R40). -/
def schedDue (s : State) : Option SchedEnt :=
  (s.sched.filter fun e => decide (e.inst ≤ entTime s e)).foldl
    (fun b e => match b with | some x => if e.order < x.order then some e else some x | none => some e) none

/-- The entry that is next to fire, of those that satisfy `p`: the one with the fewest ticks left, then the earliest accepted. -/
def schedNext (p : SchedEnt → Bool) (s : State) : Option SchedEnt :=
  (s.sched.filter p).foldl
    (fun b e => match b with
      | some x =>
        if entLeft s e < entLeft s x ∨ (entLeft s e = entLeft s x ∧ e.order < x.order) then some e else some x
      | none => some e) none

end Sys2Proof.Machine
end

