-- ==== Sys2Proof/Machine/RegOps.lean ====
section
/-!
DEFINITION. Sys2Proof/Machine/RegOps.lean: writing the fields of a register by their access types (17 R328, R330; 10 R192).
-/
namespace Sys2Proof.Machine

/-- Run state of a page as BLK_CTL.RUN reads: 0 RUN, 1 QUIESCING, 2 STOPPED (17 R324, Table 17.12). -/
def pageRun (s : State) : Page → Nat
  | .lnk p | .ing p | .egr p | .phy p => rd s (.phy (leadOf s p)) F.BLK_CTL_RUN
  | .cell t | .cnp t => rd s (.cnp t) F.BLK_CTL_RUN
  | .pmd p | .part p => partSt s p
  | pg => rd s pg F.BLK_CTL_RUN

/-- The owner of an RWQ field is STOPPED (10 R192, Table 10.3). -/
def ownerStopped (s : State) (pg : Page) (f : Fld) : Bool :=
  if f = F.HOME_NMA_LO_BASE_LO ∨ f = F.HOME_NMA_LO_EN ∨ f = F.HOME_NMA_HI_BASE_HI then
    rd s (.phy (leadOf s (rd s .homeM F.HOME_NMA_IDX_LEAD))) F.BLK_CTL_RUN == 2
  else pageRun s pg == 2

/-- What a write through a mask leaves in a field. -/
def Fld.merge (f : Fld) (old v m : Nat) : Nat :=
  let fm := f.of m
  (old &&& (2 ^ f.width - 1 - fm)) ||| (f.of v &&& fm)

/-- Write one field: true when the write was discarded with CFG_REJECT. A field wholly outside the mask is not written. -/
def putField (pg : Page) (v m : Nat) (f : Fld) (s : State) : Bool × State :=
  if f.of m = 0 then (false, s)
  else
    let x := f.merge (rd s pg f) v m
    match f.acc with
    | .ro | .w1s | .wo => (false, s)
    | .w1c =>
      (false, if f.of v &&& f.of m = 0 ∨ s.w1cNow.contains (fkey pg f, s.tick) then s else wr pg f 0 s)
    | .rw | .rws => if f.bad x then (true, s) else (false, wr pg f (f.clamp x) s)
    | .rwq => if !ownerStopped s pg f || f.bad x then (true, s) else (false, wr pg f (f.clamp x) s)
    | .rweSlot | .rweEpoch => if f.bad x then (true, s) else (false, stage pg f (f.clamp x) s)

/-- Write fields in turn; true when any was discarded. -/
def putFields (pg : Page) (v m : Nat) : List Fld → State → Bool × State
  | [], s => (false, s)
  | f :: t, s =>
    let (a, s) := putField pg v m f s
    let (b, s) := putFields pg v m t s
    (a || b, s)

/-- The fields of a register. -/
def Page.regFields (pg : Page) (off : Nat) : List Fld := pg.fields.filter (·.off == off)

/-- Write some fields of a register, with CFG_REJECT once for the write. -/
def putSome (pg : Page) (fs : List Fld) (v m : Nat) (s : State) : State :=
  let (bad, s) := putFields pg v m fs s
  s.when bad (reject pg)

/-- Write a register that has no effect beyond its fields. -/
def putReg (pg : Page) (off v m : Nat) (s : State) : State := putSome pg (pg.regFields off) v m s

/-- A register write that a command mirrors: OK, or CFG_INVALID when any of it was discarded (11 R221). -/
def putStatus (pg : Page) (fs : List Fld) (v : Nat) (s : State) : Nat × State :=
  let (bad, s) := putFields pg v 0xFFFFFFFF fs s
  if bad then (St.cfgInvalid, reject pg s) else (St.ok, s)

/-- A command completes when the boundary at which its write takes effect has been acted on (11 R221). -/
def finishAt (epoch : Bool) (c : Ctx) (op : Nat) (s : State) : State :=
  { s with mq := { s.mq with due := s.mq.due ++ [⟨epoch, s.time, c, op⟩] } }

/-- A boundary of a kind has been acted on. -/
def dueDone (epoch : Bool) (s : State) : State :=
  let go (d : Due) : Bool := d.epoch == epoch && d.time != s.time
  { s with mq := { s.mq with due := s.mq.due.filter fun d => !go d } }
    |> State.each (s.mq.due.filter go) fun d => finish d.ctx d.opcode St.ok

/-- A mask of all 32 bits. -/
def allBits : Nat := 0xFFFFFFFF

/-- Reset of the PMD and of the virtual ports of a partition (10 R197, Table 10.7): the decoder uncommitted, configuration
space at reset values, FSEQ 0, DEC_ERR clear, slot power on; every valid local and remote entry is an accepted extent. -/
def pmdReset (part : Nat) (s : State) : State :=
  let pg := Page.pmd part
  let s := s |> wr pg F.PMD_STS_DEC_COMMIT 0 |> wr pg F.PMD_STS_DEC_ERR 0
  let s := { s with wab := { s.wab with
    fseq := tput 0 s.wab.fseq part 0, lastFence := tput 0 s.wab.lastFence part 0 } }
  let ext := (s.maps.binds.filter fun e => e.2.valid && e.2.hasOff && e.2.part == part).map (·.1)
  let mine (i : Nat) : Bool := (bindOf s i).part == part
  let s := { s with maps := { s.maps with
    urLog := tput 0 s.maps.urLog part 0, caLog := tput 0 s.maps.caLog part 0
    decFail := tput 0 s.maps.decFail part 0
    offers := s.maps.offers.filter fun i => !mine i
    extents := (s.maps.extents.filter fun i => !mine i) ++ ext } }
  s.each (List.range' 1 63) fun v s =>
    let p := vpOf s part v
    let s := setVp part v { Vp.reset with lead := p.lead, rm := p.rm, lost := p.lost, add := p.add } s
    match p.lead with
    | some l => s.when (!p.pwr) (wr (.phy l) F.PHY_LINK_CTL_PERST 0)
    | none => s

end Sys2Proof.Machine
end

