-- ==== Sys2Proof/Machine/Link.lean ====
section
/-!
DEFINITION. Sys2Proof/Machine/Link.lean: the receive side of the link layer, acknowledgement, replay, trunk flits and injection
(04), and the packing of messages into cells (05 R83, R84, R109).
-/
namespace Sys2Proof.Machine

/-! ### Packing (05 R83, R84) -/

/-- Two messages go to the same cells. -/
def sameFlow (a b : RxMsg) : Bool :=
  a.out == b.out && a.part == b.part && a.tc == b.tc && a.oc == b.oc && a.dmod == b.dmod && a.dport == b.dport

/-- A message, and the unit of its flit in which it starts. -/
structure Placed where
  start : Nat
  m     : RxMsg
deriving DecidableEq, Repr

/-- The messages of a flit in their places, from a unit on. -/
def placeFrom : Nat → List RxMsg → List Placed
  | _, [] => []
  | n, m :: t => ⟨n, m⟩ :: placeFrom (n + m.slots) t

/-- First unit, of the 15 of a flit, that lies in its second half (05 R83; log 31). -/
def halfUnit : Nat := 8

/-- Units of a list of messages. -/
def slotsOf (g : List Placed) : Nat := (g.map (·.m.slots)).sum

/-- Messages in their order, cut into cells: one ends when it is full or a message of another flow follows. -/
def packInto (g : List Placed) : List Placed → List (List Placed)
  | [] => if g.isEmpty then [] else [g]
  | p :: t =>
    match g with
    | [] => packInto [p] t
    | h :: _ => if sameFlow h.m p.m && decide (slotsOf g + p.m.slots ≤ 15) then packInto (g ++ [p]) t else g :: packInto [p] t

/-- The data words with the content of a message put in after `slots` units, two words each; the bytes that hold no content stay as
they are (05 R83; log 31). -/
def putContent (slots : Nat) (ws base : List DWord) : List DWord :=
  (ws.zip (List.range' (2 * slots) (30 - 2 * slots))).foldl (fun w x =>
    w.set x.2 ((w.getD x.2 0 &&& ~~~(contentMask x.2)) ||| (x.1 &&& contentMask x.2))) base

/-- A message joins a cell. -/
def Cell.addMsg (c : Cell) (p : Placed) : Cell :=
  let m := p.m
  let w := putContent c.slots m.words c.words
  { c with
    words := w, xor := xorWord w, slots := c.slots + m.slots, sizes := c.sizes ++ [m.slots], tags := c.tags ++ [m.tag]
    reads := c.reads ++ (if m.read then [m.tag] else []), ro := c.ro && m.ro
    late := c.late ++ ((List.range m.slots).filter fun k => decide (halfUnit ≤ p.start + k)).map (c.slots + ·) }

/-- A message of more units than a cell holds goes on in further cells (05 R84). -/
def cutMsg (p : Placed) : List Placed :=
  if p.m.slots ≤ 15 then [p]
  else (List.range ((p.m.slots + 14) / 15)).map fun k =>
    ⟨p.start + 15 * k, { p.m with slots := min 15 (p.m.slots - 15 * k), words := (p.m.words.drop (30 * k)).take 30 }⟩

/-- What the cells of one flit have in common: the received flit, the tag's T0, a routing header; and whether the flit ends here. -/
structure RxInfo where
  grp  : Nat
  t0   : Option Nat
  hdr  : Option DWord
  ends : Bool
deriving DecidableEq, Repr

/-- A cell for a group of messages, open. -/
def openCell (lead : Nat) (x : RxInfo) (g : List Placed) (s : State) : State :=
  match g with
  | [] => s
  | p :: _ =>
    let m := p.m
    let ro := m.oc == 2 && rdb s (.ing lead) F.ING_ORD_CFG_RO_EN
    let base : Cell := { Cell.blank with
      tile := tileOf lead, src := lead, out := m.out, part := m.part, tc := m.tc, oc := m.oc
      ro := ro, slots := 0, sizes := [], tagged := x.t0.isSome, stamps := x.t0.toList, dmod := m.dmod, dport := m.dport
      inp := .link lead, allow := .ing lead, words := List.replicate 32 0, grp := some x.grp, orig := s.core.nextId, isOpen := true }
    let c := g.foldl Cell.addMsg base
    let w := match x.hdr with | some h => putHdr h c.words | none => c.words
    takeCell { c with words := w, xor := xorWord w } s

/-- The open cell of a link. -/
def openedOf (s : State) (lead : Nat) : Option Cell :=
  s.core.cells.find? fun c => decide (c.inp = .link lead) && c.isOpen

/-- The lookup of a cell is complete: it is linked to its VOQ (05 R92; 13 R259, R260). Messages that wait for a cell are linked when
they have one. -/
def cellEligible (c : Cell) (s : State) : State :=
  if c.stage = .opened then s |> stamp c.id |> linkVoq c.id |> mirror 0 c.id else s

/-- The open cell of a link closes, and is linked if it is not yet (05 R84, R92). -/
def closeOpen (lead : Nat) (s : State) : State :=
  match openedOf s lead with
  | none => s
  | some c => s |> modCell c.id (fun c => { c with isOpen := false }) |> cellEligible c

/-- A cell keeps open across flits: 68-byte and non-Flit modes (05 R84; log 32). -/
def staysOpen (s : State) (lead : Nat) : Bool := decide (rd s (.lnk lead) F.LNK_STS_MODE ≤ 1)

/-- A link trained at 32 GT/s or above: its cells are eligible with their lookup, before they close (05 R92). -/
def cutThrough (s : State) (lead : Nat) : Bool := decide (3 ≤ rd s (.phy lead) F.PHY_LINK_STS_CUR_RATE)

/-- A message is of the flow of a cell. -/
def Cell.flowOf (c : Cell) (m : RxMsg) : Bool :=
  m.out == c.out && m.part == c.part && m.tc == c.tc && m.oc == c.oc && m.dmod == c.dmod && m.dport == c.dport

/-- Messages that still fit into the open cell of a link, and the rest. -/
def splitOpen (c : Cell) (slots : Nat) : List Placed → List Placed × List Placed
  | [] => ([], [])
  | p :: t =>
    if c.flowOf p.m && decide (slots + p.m.slots ≤ 15) then let (a, b) := splitOpen c (slots + p.m.slots) t; (p :: a, b)
    else ([], p :: t)

/-- The received flit that a cell came from has ended in that cell: it joins the flit whose messages go on in it. -/
def joinGrp (old new : Option Nat) (s : State) : State :=
  match old, new with
  | some g, some n =>
    if g = n then s
    else match grpOf s g with
      | none => s
      | some x =>
        let more (y : RxGrp) : RxGrp := if y.id = n then { y with classes := x.classes ++ y.classes } else y
        let move (c : Cell) : Cell := if c.grp = some g then { c with grp := some n } else c
        { s with core := { s.core with
          grps := (s.core.grps.filter fun y => y.id != g).map more, cells := s.core.cells.map move } }
  | _, _ => s

/-- A cell that messages of a tagged flit join is tagged (13 R258). -/
def tagJoin (id : Nat) (t0 : Option Nat) (s : State) : State :=
  match cellOf s id, t0 with
  | some c, some t =>
    if c.tagged then s
    else s |> modCell id (fun c => { c with tagged := true, stamps := [t] }) |> State.when (c.stage == .voq) (stamp id)
  | _, _ => s

/-- Messages go on in the open cell of their link as far as they fit; when others follow, or it is full, it closes. Its buffer space is
then that of both flits (05 R84; 04 R72). -/
def fillOpen (lead : Nat) (x : RxInfo) (msgs : List Placed) (s : State) : List Placed × State :=
  match openedOf s lead with
  | none => (msgs, s)
  | some c =>
    let (a, b) := splitOpen c c.slots msgs
    let s := (modCell c.id (fun c => a.foldl Cell.addMsg c) s).when (!a.isEmpty) fun s =>
      s |> joinGrp c.grp (some x.grp) |> tagJoin c.id x.t0
    (b, s.when (!b.isEmpty || decide (15 ≤ c.slots + slotsOf a)) (closeOpen lead))

/-- A flow needed more than one cell of one flit. -/
def needsSplit (gs : List (List Placed)) : Bool :=
  match gs with
  | [] => false
  | g :: t => (t.any fun h => match g, h with | a :: _, b :: _ => sameFlow a.m b.m | _, _ => false) || needsSplit t

/-- Two cells are of one flow of their input. -/
def oneFlow : List Cell → Bool
  | [] => false
  | c :: t => (t.any fun d => c.sameFlow d && c.dmod == d.dmod && c.dport == d.dport) || oneFlow t

/-- The messages of a received flit, or of one half, become cells (05 R84). SPLIT counts the flit when a flow of it comes to need a second
cell. -/
def buildCells (lead : Nat) (x : RxInfo) (msgs : List Placed) (s : State) : State :=
  let (rest, s) := fillOpen lead x (msgs.flatMap cutMsg) s
  let gs := packInto [] rest
  let had := s.core.cells.filter fun c => decide (c.grp = some x.grp) && decide (c.allow = .ing lead)
  let more := gs.any fun g => had.any fun c => match g with | p :: _ => c.flowOf p.m | [] => false
  let s := s.when (!oneFlow had && (needsSplit gs || more)) (bump (.ing lead) F.ING_CNT_SPLIT)
  let s := s.each gs fun g s => s |> closeOpen lead |> openCell lead x g
  let s := match openedOf s lead with
    | some c => if cutThrough s lead then cellEligible c s else s
    | none => s
  let full := match openedOf s lead with | some c => decide (15 ≤ c.slots) | none => false
  s.when ((x.ends && !staysOpen s lead) || full) (closeOpen lead)

/-! ### Received flits (04 R72, R75; 05 R90, R109) -/

/-- Classes of the credits that a flit of these messages used (log 10). -/
def classesOf (msgs : List RxMsg) : List Nat := (msgs.map (·.oc)).dedup

/-- A received flit begins: its name, and the state that knows it. -/
def newGrp (lead seq : Nat) (sure : Bool) (t0 : Option Nat) (s : State) : Nat × State :=
  let g := s.core.nextGrp
  (g, { s with core := { s.core with nextGrp := g + 1, grps := s.core.grps ++ [⟨g, lead, seq, [], sure, t0⟩] } })

/-- Messages of a received flit, used for the first time: the credits of their classes are used with them (05 R89), and cells are
built. -/
def useMsgs (lead : Nat) (x : RxInfo) (msgs : List Placed) (s : State) : State :=
  let had := ((grpOf s x.grp).map (·.classes)).getD []
  let cls := (classesOf (msgs.map (·.m))).filter fun c => !had.contains c
  { s with core := { s.core with grps := s.core.grps.map fun y =>
      if y.id = x.grp then { y with classes := y.classes ++ cls } else y } }
    |> spend lead cls.length |> buildCells lead x msgs

/-- Messages of a flit whose header lies in its first half, and the others (04 R75). -/
def firstHalf (l : List Placed) : List Placed := l.filter fun p => decide (p.start < halfUnit)
def secondHalf (l : List Placed) : List Placed := l.filter fun p => decide (halfUnit ≤ p.start)

/-- A received flit of a link with its sequence number that waits for its replay: some cell of it carries a tail mark. -/
def markedGrp (s : State) (lead seq : Nat) : Option RxGrp :=
  s.core.grps.find? fun g => g.lead == lead && g.seq == seq && !g.sure && decide ((linkOf s lead).rxHalf ≠ some g.id)

/-- The marked cells of a flit are rewritten from its replay, and with each its copies over the same stages; their marks clear (05
R109). -/
def refreshCells (g : Nat) (hdr : Option DWord) (msgs : List Placed) (s : State) : State :=
  let mine := s.core.cells.filter fun c => decide (c.grp = some g) && c.orig == c.id
  s.each (mine.zip (packInto [] (msgs.flatMap cutMsg))) fun p s =>
    if !p.1.bad then s
    else
      let c := p.2.foldl Cell.addMsg { p.1 with slots := 0, sizes := [], tags := [], reads := [], late := [], words := List.replicate 32 0 }
      let w := match hdr with | some h => putHdr h c.words | none => c.words
      let renew (k : Cell) : Cell :=
        if k.orig = p.1.id then { k with words := w, xor := xorWord w, bad := false, slots := c.slots, sizes := c.sizes } else k
      { s with core := { s.core with cells := s.core.cells.map renew } }

/-- What a receiver makes of what arrives: discarded; a good first half; a second half that completes its flit, or fails; a whole flit
whose second half failed; a whole good one; the good first half of one that is sent again. -/
inductive RxRes where
  | drop | first | rest | fails | late | good | again
deriving DecidableEq, Repr

/-- Classification of a whole flit by its sequence number (04 R69), good checks given. -/
def rxSeq (lead : Nat) (f : Flit) (s : State) : RxRes × State :=
  let pg := Page.lnk lead
  let e := rd s pg F.LNK_SEQ_STS_NEXT_RX
  let d := (e + 1024 - f.seq % 1024) % 1024
  if d = 0 then (.good, wr pg F.LNK_SEQ_STS_NEXT_RX ((e + 1) % 1024) s)
  else if d ≤ 512 then (.drop, bump pg F.LNK_RX_CNT_DUP_DISC s)
  else (.drop, s.say (.replayReq lead e))

/-- Classification of a received flit, or half of one, by CRC, FEC and sequence number, with its counts and replay requests. A half is
used before the other only in the latency-optimized layout at 32 GT/s or above (04 R65, 05 R92). -/
def rxJudge (lead : Nat) (f : Flit) (s : State) : RxRes × State :=
  let pg := Page.lnk lead
  let s := s |> bumpBy pg F.LNK_FEC_CNT_FEC_CORR f.fecCorr |> State.when f.fecFail (bump pg F.LNK_FEC_CNT_FEC_UNCORR)
    |> modLink lead fun l => { l with busyRx := true }
  let e := rd s pg F.LNK_SEQ_STS_NEXT_RX
  let next := decide (f.seq % 1024 = e)
  let lopt := rd s pg F.LNK_STS_MODE == 3
  let early := lopt && cutThrough s lead
  let bad (s : State) : State := bump pg F.LNK_RX_CNT_CRC_ERR (s.say (.replayReq lead e))
  let open1 := (linkOf s lead).rxHalf.isSome
  let again := (markedGrp s lead (f.seq % 1024)).isSome
  if f.phase = 1 then
    if !early || open1 then (.drop, s)
    else if !f.crc1 then (.drop, bad s)
    else (if !next then .drop else if again then .again else .first, s)
  else if f.phase = 2 && (open1 || (next && again && (linkOf s lead).rxAgain.isSome)) then
    if f.fecFail || !f.crc2 then (if open1 then .fails else .drop, bad s)
    else (if open1 then .rest else .good, wr pg F.LNK_SEQ_STS_NEXT_RX ((e + 1) % 1024) s)
  else if f.phase = 2 && next then (.drop, s)
  else if f.fecFail ∨ !f.crc1 then (.drop, bad s)
  else if lopt ∧ !f.crc2 then (if next && early then RxRes.late else .drop, bad s)
  else rxSeq lead f s

/-- A link can receive: it is in L0 and not STOPPED, where it forwards nothing (03 R48; log 121), the tile is not frozen, and a host
link is not kept from receiving by a wait for a warm reset (07 R144). -/
def canReceive (s : State) (lead : Nat) : Bool :=
  linkUp s lead && !frozen s && rd s (.phy lead) F.BLK_CTL_RUN != 2 && !(roleOf s lead == 1 && s.rst.warmAt.isSome)

/-- T0 of a flit that is drawn (13 R258, R259): fabric time and the core clock within the tick. -/
def rxT0 (tag : Bool) (draw : Nat) (s : State) : Option Nat := if tag then some (s.time * 16 + draw % 13) else none

/-- A half whose flit does not go on fails with it: its cells are marked, and the open one closes (04 R75, 05 R84). -/
def dropHalf (lead : Nat) (s : State) : State :=
  match (linkOf s lead).rxHalf with
  | none => s
  | some g => s |> modLink lead (fun l => { l with rxHalf := none }) |> closeOpen lead |> markGrp g |> endFlit lead

/-- The messages of what arrived, in their places: a second half starts with the first message whose header lies in it. -/
def placed (f : Flit) : List Placed := placeFrom (if f.phase = 2 then halfUnit else 0) f.msgs

/-- Cells of a flit, for its first half or whole: built once; a replay rewrites the cells that are marked, from the messages of its first
half, and brings the others, which were never used (04 R69, R75; 05 R109). A flit with no cell frees its buffer space at once. `keep`:
the first half of a replay that comes by halves. -/
def rxCells (res : RxRes) (lead seq : Nat) (t0 : Option Nat) (hdr : Option DWord) (keep : List RxMsg) (msgs : List Placed) (s : State) :
    State :=
  match res with
  | .drop => s
  | .again => modLink lead (fun l => { l with rxAgain := some (seq, msgs.map (·.m)) }) s
  | .first =>
    let (g, s) := newGrp lead seq false t0 s
    s |> modLink lead (fun l => { l with rxHalf := some g }) |> useMsgs lead ⟨g, t0, hdr, false⟩ msgs
  | .rest =>
    match (linkOf s lead).rxHalf with
    | none => s
    | some g =>
      let t0 := (grpOf s g).bind (·.t0)
      s |> modLink lead (fun l => { l with rxHalf := none }) |> useMsgs lead ⟨g, t0, hdr, true⟩ msgs |> endFlit lead |> sureGrp g
  | .fails => dropHalf lead s
  | .late =>
    if (markedGrp s lead seq).isSome then s
    else
      let (g, s) := newGrp lead seq false t0 s
      s |> useMsgs lead ⟨g, t0, hdr, true⟩ (firstHalf msgs) |> markGrp g |> endFlit lead
  | .good =>
    match markedGrp s lead seq with
    | some g =>
      let all := placeFrom 0 keep ++ msgs
      s |> refreshCells g.id hdr (firstHalf all) |> useMsgs lead ⟨g.id, t0, hdr, true⟩ (secondHalf all) |> endFlit lead |> sureGrp g.id
    | none =>
      let (g, s) := newGrp lead seq true t0 s
      s |> useMsgs lead ⟨g, t0, hdr, true⟩ msgs |> endFlit lead |> grpDone g |> returnOwed (tileOf lead)

/-- A message is counted at its ingress; requests of hosts and devices are counted when they are looked up (13 Table 13.2;
log 30). -/
def countMsg (lead : Nat) (m : RxMsg) (s : State) : State :=
  let a : Attr := { Attr.none with pa := some m.part, po := some lead, t := some m.tc, o := some m.oc }
  s |> count (.ing lead) 0x01 1 a |> count (.ing lead) 0x02 m.slots a

/-- Messages other than requests (05 Table 5.6). -/
def isRspMsg (m : RxMsg) : Bool := m.oc == 2 || decide (5 ≤ m.oc)

/-- The messages of what arrived that are used for the first time: a replay rewrites what its flit was used for before. -/
def newMsgs (s : State) (lead seq : Nat) (res : RxRes) (keep : List RxMsg) (msgs : List Placed) : List RxMsg :=
  let again := (markedGrp s lead seq).isSome
  (match res with
    | .drop | .fails | .again => []
    | .first | .rest => msgs
    | .late => if again then [] else firstHalf msgs
    | .good => if again then secondHalf (placeFrom 0 keep ++ msgs) else msgs : List Placed).map Placed.m

/-- The messages of a flit are accepted with it. -/
def RxRes.accepts : RxRes → Bool
  | .good | .rest => true
  | _ => false

/-- The traffic class of a response is that of the request it answers, whose tag it bears (05 Table 5.5). -/
def restoreTc (s : State) (lead : Nat) (m : RxMsg) : RxMsg :=
  if !isRspMsg m then m
  else match s.maps.fwds.find? fun f => f.id == m.tag && f.out == lead with
    | some f => { m with tc := f.tc }
    | none => m

/-- The first half of a replay that comes by halves, and the state without it (04 R75). -/
def takeAgain (lead seq : Nat) (f : Flit) (s : State) : List RxMsg × State :=
  match (linkOf s lead).rxAgain with
  | some (q, l) => (if f.phase = 2 ∧ q = seq then l else [], modLink lead (fun l => { l with rxAgain := none }) s)
  | none => ([], s)

/-- FLIT_RECEIVE (04 R69): `clk` is the core clock of the tick in which the first symbol arrived. A first half that never got its
second fails with what arrives in its place. -/
def flitReceive (lead : Nat) (f : Flit) (clk : Nat) (s : State) : State :=
  if !canReceive s lead then s
  else
    let s := s.when (f.phase != 2) (dropHalf lead)
    let (tag, s) := if f.phase = 2 then (false, s) else tagDraw lead s
    let t0 := rxT0 tag clk s
    let seq := f.seq % 1024
    let (res, s) := rxJudge lead f s
    let (keep, s) := takeAgain lead seq f s
    let msgs := placed { f with msgs := f.msgs.map (restoreTc s lead) }
    let s := s.each ((newMsgs s lead seq res keep msgs).filter isRspMsg) (countMsg lead)
    rxCells res lead seq t0 none keep msgs s

/-! ### Acknowledgement and replay (04 R70, R72; 05 R90) -/

/-- Posted requests whose flit has been acknowledged are done. -/
def postedDone (ids : List Nat) (s : State) : State :=
  { s with maps := { s.maps with fwds := s.maps.fwds.filter fun f => !(f.posted && ids.contains f.id) } }

/-- FLIT_ACKNOWLEDGE: `seq` is the last flit acknowledged, `credits` what the far end returns with it, by class. A cell is freed when
all its flits are acknowledged (04 R66). -/
def flitAcknowledge (lead seq : Nat) (credits : List Nat) (s : State) : State :=
  if !linkUp s lead then s
  else
    let l := linkOf s lead
    let acked (e : REnt) : Bool := decide ((seq + 1024 - e.seq) % 1024 < 512)
    let rest := l.replay.filter fun e => !acked e
    let cells := (((l.replay.filter acked).map (·.cell)).dedup).filter fun i => !(rest.any fun e => e.cell == i)
    let posted := (s.core.cells.filter fun c => cells.contains c.id).flatMap (·.fwds)
    let credit := ((List.range credits.length).zip credits).foldl (fun t x => tput 0 t x.1 (tget 0 t x.1 + x.2)) l.credit
    let l' := { l with credit := credit, replay := rest }
    let l' := if rest.length = l.replay.length then l' else
      { l' with replays := 0, ackFrom := if rest.isEmpty then none else some s.tick }
    s |> setLink lead l' |> State.each cells freeCell |> postedDone posted

/-- A replay is triggered: LIM replays in a row without progress send the link into Recovery instead (04 R70; log 33). -/
def replayFrom (lead : Nat) (reads : List (Nat × CellRead)) (es : List REnt) (s : State) : State :=
  let l := linkOf s lead
  let pg := Page.lnk lead
  if rd s pg F.LNK_REPLAY_CFG_LIM ≤ l.replays then
    s |> bump pg F.LNK_REPLAY_CNT_LIM_HITS |> enterRecovery lead |> raise (portSrcNo lead 2) none none
  else
    s |> bump pg F.LNK_REPLAY_CNT_REPLAYS |> modLink lead (fun l => { l with replays := l.replays + 1, swapHeld := none })
      |> startReplay lead reads es |> raise (portSrcNo lead 1) none none

/-- REPLAY_REQUEST (04 R70): from the named sequence number onward. -/
def replayRequest (lead : Nat) (x : ReplayAsk) (s : State) : State :=
  if !canReceive s lead then s
  else
    let es := (linkOf s lead).replay.filter fun e => decide ((e.seq + 1024 - x.seq % 1024) % 1024 < 512)
    if es.isEmpty then s else replayFrom lead x.reads es s

/-! ### Trunks (04 R76-R79) -/

def hdrVer (h : DWord) : Nat := bits h.toNat 60 4
def hdrDmod (h : DWord) : Nat := bits h.toNat 52 8
def hdrPort (h : DWord) : Nat := bits h.toNat 43 9
def hdrPart (h : DWord) : Nat := bits h.toNat 36 7
def hdrTc (h : DWord) : Nat := bits h.toNat 34 2
def hdrSmod (h : DWord) : Nat := bits h.toNat 26 8
def hdrHops (h : DWord) : Nat := bits h.toNat 22 4

/-- A routing header (04 Table 4.4). -/
def mkHdr (dmod dport part tc smod hops : Nat) : DWord :=
  BitVec.ofNat 64 (1 * 2 ^ 60 + dmod % 256 * 2 ^ 52 + dport % 512 * 2 ^ 43 + part % 128 * 2 ^ 36 + tc % 4 * 2 ^ 34
    + smod % 256 * 2 ^ 26 + hops % 16 * 2 ^ 22)

/-- The trunk on which a transit flit leaves, when its route entry is usable. -/
def transitLead (s : State) (dmod : Nat) : Option Nat :=
  (routeLead s dmod).filter fun l => isLead s l && roleOf s l == 3 && linkRun s l

/-- What Table 4.5 makes of a routing header. -/
inductive TrunkDo where
  | badHdr | noModid | hopExp | noRoute | noDest
  | transit (out : Nat)
  | deliver (out : Nat)
deriving DecidableEq, Repr

def trunkJudge (s : State) (h : DWord) : TrunkDo :=
  if hdrVer h ≠ 1 then .badHdr
  else if !hasModid s then .noModid
  else if hdrDmod h ≠ modid s then
    if hdrHops h = 0 then .hopExp
    else match transitLead s (hdrDmod h) with
      | none => .noRoute
      | some l => .transit l
  else if isLead s (hdrPort h) && (roleOf s (hdrPort h) == 1 || roleOf s (hdrPort h) == 2) && linkRun s (hdrPort h) then
    .deliver (hdrPort h)
  else .noDest

/-- A flit discarded under NO_ROUTE, NO_DEST or HOP_EXP: error responses toward its source module, and an event to the manager, of a
type that the manual does not give (04 R79; log 28). -/
def trunkRefuse (f : Fld) (h : DWord) (msgs : List RxMsg) (s : State) : State :=
  s |> bump .trnk f |> State.each msgs (fun m => trunkErrs (hdrSmod h) m.oc [m.tag] (if m.read then [m.tag] else []))
    |> post 128 Config.trunkEvent []

/-- A flit ends that has used its credits and leaves no cell: its buffer space is free (04 R72; 05 R89). -/
def freeFlit (lead : Nat) (f : Flit) (s : State) : State :=
  s |> endFlit lead |> owe lead (classesOf f.msgs) |> returnOwed (tileOf lead)

/-- A request delivered to a target of this module, on the traffic class of its header. When it ends without a cell, and is not held,
the buffer space of its flit is free (04 R72). -/
def trunkArrive (u : Upset) (lead : Nat) (v : Via) (dpa : Nat) (r : Req) (f : Flit) (s : State) : State :=
  let n := s.core.nextId
  let id := s.maps.nextId
  let s := s |> spend lead (classesOf f.msgs).length |> arrive u lead (hdrPart v.hdr) none { r with addr := dpa } (some v)
  if s.core.nextId ≠ n || s.maps.held.any (·.id == id) then endFlit lead s else freeFlit lead f s

/-- TRUNK_FLIT_RECEIVE: the flit is judged as on any link; one whose first half is good meets Table 4.5. `q` has the
request it carries, with logical device and device address, when it is one for a target of this module. -/
def trunkFlitReceive (lead : Nat) (h : DWord) (f : Flit) (q : TrunkReq) (s : State) : State :=
  if !canReceive s lead then s
  else
    let s := s.when (f.phase != 2) (dropHalf lead)
    let (tag, s) := if f.phase = 2 then (false, s) else tagDraw lead s
    let t0 := rxT0 tag q.clk s
    let seq := f.seq % 1024
    let (res, s) := rxJudge lead f s
    let (keep, s) := takeAgain lead seq f s
    if res = .drop then s
    else
      let act := trunkJudge s h
      let msgs := placed f
      let s := s.each (newMsgs s lead seq res keep msgs) (countMsg lead)
      let t1 := match (linkOf s lead).rxHalf with | some g => (grpOf s g).bind (·.t0) | none => t0
      let bare (s : State) : State := rxCells res lead seq t0 none [] [] s
      let free (s : State) : State := s |> spend lead (classesOf f.msgs).length |> freeFlit lead f
      let sent (out dmod dport : Nat) (m : RxMsg) : RxMsg :=
        { m with out := out, part := hdrPart h, tc := hdrTc h, dmod := dmod, dport := dport }
      let cells (hdr : DWord) (out dmod dport : Nat) (s : State) : State :=
        rxCells res lead seq t0 (some hdr) (keep.map (sent out dmod dport)) (msgs.map fun p => { p with m := sent out dmod dport p.m }) s
      match act with
      | .transit out =>
        let h' := mkHdr (hdrDmod h) (hdrPort h) (hdrPart h) (hdrTc h) (hdrSmod h) (hdrHops h - 1)
        cells h' out (hdrDmod h) (hdrPort h) s
      | .deliver out =>
        match q.req with
        | some (ld, dpa, r) => (bare s).when res.accepts (trunkArrive q.upset lead ⟨out, ld, hdrTc h, h, t1⟩ dpa r f)
        | none => cells h out 0 0 s
      | why =>
        let s := bare s
        if !res.accepts then s
        else match why with
          | .badHdr => s |> bump .trnk F.TRNK_RX_ERR_BAD_HDR |> free |> raise (portSrcNo lead 3) none none
          | .noModid => s |> bump .trnk F.TRNK_RX_ERR_NO_DEST |> free
          | .hopExp => s |> trunkRefuse F.TRNK_RX_ERR_HOP_EXP h f.msgs |> free
          | .noRoute => s |> trunkRefuse F.TRNK_RX_ERR_NO_ROUTE h f.msgs |> free
          | _ => s |> trunkRefuse F.TRNK_RX_ERR_NO_DEST h f.msgs |> free

/-! ### Injection (04 R80, R81) -/

/-- A write of LNK_INJ_CTL: the fields, then ARM. -/
def injWrite (lead v m : Nat) (s : State) : State :=
  let pg := Page.lnk lead
  if (memberOf s lead).isSome then s
  else
    let (_, s) := putFields pg v m [F.LNK_INJ_CTL_KIND, F.LNK_INJ_CTL_N, F.LNK_INJ_CTL_BYTE] s
    if F.LNK_INJ_CTL_ARM.of (v &&& m) = 0 then s
    else if s.mode ≠ .maintenance ∨ !linkUp s lead then wr pg F.LNK_INJ_STS_REFUSED 1 s
    else
      let inj := (rd s pg F.LNK_INJ_CTL_KIND, rd s pg F.LNK_INJ_CTL_N, rd s pg F.LNK_INJ_CTL_BYTE)
      s |> wr pg F.LNK_INJ_CTL_ARM 1 |> modLink lead fun l => { l with inj := some inj, swapHeld := none }

/-- LNK_INJ_ARM (04 R80). -/
def execLnkInjArm (lead : Nat) (v : Word) (s : State) : Ans := done s (regGate (.lnk lead) (injWrite lead v.toNat 0xFFFFFFFF) s)

end Sys2Proof.Machine
end

