-- ==== Sys2Proof/Machine/Canopy.lean ====
section
/-!
DEFINITION. Sys2Proof/Machine/Canopy.lean: the central scheduler of a tile, transfers over the crossbar and the bundles, and
arrivals (05 R91-R100, R105-R108).
-/
namespace Sys2Proof.Machine

/-! ### Virtual output queues (05 R91, R92, R97) -/

/-- Two cells wait in the same VOQ. -/
def Cell.sameVoq (a b : Cell) : Bool :=
  decide (a.inp = b.inp) && a.out == b.out && a.tc == b.tc && a.oc == b.oc

/-- The heads of the VOQs of a tile. -/
def voqHeads (s : State) (t : Nat) : List Cell :=
  (s.core.cells.filter fun c => c.tile == t && decide (c.stage = .voq)).foldl
    (fun acc c => if acc.any (·.sameVoq c) then acc else acc ++ [c]) []

/-- The heads that may leave: no tail mark, a header that can be read, and the posted barrier passed. A head whose header is lost keeps
its queue: it cannot be followed past it (05 R106). Requests to this tile's home leave by entering its LOQ (08 R154). -/
def eligHeads (s : State) (t : Nat) : List Cell :=
  (voqHeads s t).filter fun c => !(512 ≤ c.out && tileOf c.out == t) && !c.bad && !c.hdrBad && barrierOk s c.barrierStage c

/-- Number of an input within its tile: ports, bundles, agents. -/
def Inp.idx : Inp → Nat
  | .link l => l % 64
  | .bundle p => 64 + p
  | .agent k => 72 + k

/-! ### Capacities (05 R93, R95, R99, R100, R108) -/

/-- Controllers of a link whose crossbar path is not retired. -/
def linkPaths (s : State) (lead : Nat) : Nat := ctrlsOf s lead - tget 0 s.core.paths lead

/-- Channels in use from a tile to a peer. -/
def channels (s : State) (t p : Nat) : Nat := 8 - tget 0 s.core.chans (8 * t + p)

/-- Cells per decision of a bundle. -/
def bundleCap (s : State) (t p : Nat) : Nat := 10 * channels s t p / 8

def capIn (s : State) (t : Nat) : Inp → Nat
  | .link l => linkPaths s l
  | .bundle p => bundleCap s p t
  | .agent _ => 1

def capOut (s : State) (t out : Nat) : Nat :=
  if tileOf out = t then linkPaths s out else bundleCap s t (tileOf out)

/-- Endpoint of an output: the link itself, or the bundle toward its tile. -/
def outKey (t out : Nat) : Nat := if tileOf out = t then out else 768 + tileOf out

/-- Endpoint of an input. -/
def inKey (i : Inp) : Nat := 1024 + i.idx

/-- Arrival cells of a bundle at its receiving tile. -/
def arrivals (s : State) (src dst : Nat) : List Cell :=
  s.core.cells.filter fun c => c.tile == dst && decide (c.allow = .arr src)

/-- The output can take a cell of a class (05 R95, R99). An arrival cell whose egress copy is confirmed counts against the
arrival allowance until it is freed, and for its output no more. Of the arrival credits the general ones are used first, by every class: a
lower class is refused once the arrivals of all classes together reach GUAR - 64 (log 124). -/
def requestable (s : State) (t out tc : Nat) : Bool :=
  let p := tileOf out
  if p = t then (canAllocate s t (.egr out) tc).isSome
  else
    let arr := arrivals s t p
    let guar := rd s (.cnp p) F.CNP_BND_CFG_GUAR
    decide (arr.length < (if tc = 3 then guar else guar - 64)) &&
      decide ((arr.filter fun c => c.out == out && c.stage != .kept).length < rd s (.cnp p) F.CNP_BND_CFG_OUT_MAX) &&
      decide ((arr.filter fun c => match c.stage with | .copy _ => true | _ => false).length < 512)

/-! ### Moving a cell (05 R97, R98) -/

/-- Key of the subclass rotation of an input toward an output in a class. -/
def rotKey (t : Nat) (i : Inp) (out tc : Nat) : Nat := ((t * 80 + i.idx) * 1024 + out) * 4 + tc

/-- The cell that an input sends next toward an output: the highest TC, within it the subclasses in rotation. -/
def pickCell (s : State) (t : Nat) (i : Inp) (out : Nat) : Option Cell :=
  let hs := (eligHeads s t).filter fun c => decide (c.inp = i) && c.out == out && requestable s t out c.tc
  match [3, 2, 1, 0].find? fun tc => hs.any (·.tc == tc) with
  | none => none
  | some tc =>
    let from0 := tget 0 s.core.rot (rotKey t i out tc)
    ((List.range 8).map fun k => (from0 + k) % 8).findSome? fun oc => hs.find? fun c => c.tc == tc && c.oc == oc

/-- A cell leaves its VOQ: its copy is allocated, an egress cell here or an arrival cell in the tile of its output. -/
def moveCell (t : Nat) (c : Cell) (s : State) : State :=
  let dst := s.core.nextId
  let s := s.when (c.barrierStage == 0) (stamp c.id)
  let c := (cellOf s c.id).getD c
  let core := s.core
  let s := { s with core := { core with rot := tput 0 core.rot (rotKey t c.inp c.out c.tc) ((c.oc + 1) % 8) } }
  let s := s |> postedGo c.barrierStage c |> modCell c.id (fun k => { k with stage := .moving dst, isOpen := false })
  let c : Cell := { c with isOpen := false }
  let p := tileOf c.out
  if p = t then
    let r := (canAllocate s t (.egr c.out) c.tc).getD false
    let s := allocCell { c with allow := .egr c.out, tc3r := r, stage := .copy c.id } s
    s.when (c.barrierStage == 0) (stampZero dst)
  else
    let n := tget 0 s.core.bseqTx (8 * t + p)
    let core := s.core
    { s with core := { core with bseqTx := tput 0 core.bseqTx (8 * t + p) ((n + 1) % 1024) } }
      |> allocCell { c with tile := p, allow := .arr t, inp := .bundle t, tc3r := false, stage := .copy c.id, bseq := n }
      |> count (.cnp t) 0x11 1 c.attr

/-! ### A decision (05 R95, R96) -/

/-- A request of an input for an output: its class as a rank (three steps for each TC: port, bundle, starved port), and its
count. -/
structure MReq where
  inp  : Inp
  out  : Nat
  tc   : Nat
  rank : Nat
  n    : Nat
deriving DecidableEq, Repr

/-- A decision under way: the state, cells that each endpoint has moved, the pairs matched, read slices that agents use, and in
iteration 1 the requests accepted. -/
structure Match where
  s    : State
  used : Tbl Nat
  got  : List (Nat × Nat)
  slices : Nat
  acc  : List MReq
deriving DecidableEq, Repr

/-- Key of the count of decisions for which a request went unmatched. -/
def starveKey (t : Nat) (i : Inp) (out : Nat) : Nat := (t * 80 + i.idx) * 1024 + out

/-- The request of an input for an output has gone unmatched for the limit. -/
def starved (s : State) (t : Nat) (i : Inp) (out : Nat) : Bool :=
  let lim := match i with
    | .agent _ => rdf s (.cnp t) F.CNP_SCHED_CFG_AGENT_STARVE
    | _ => rdf s (.cnp t) F.CNP_SCHED_CFG_LOCAL_STARVE
  decide (lim ≤ tget 0 s.core.starve (starveKey t i out))

/-- The requests of a tile. -/
def requestsOf (s : State) (t : Nat) : List MReq :=
  let hs := (eligHeads s t).filter fun c => requestable s t c.out c.tc
  ((hs.map fun c => (c.inp, c.out)).dedup).map fun x =>
    let mine := hs.filter fun c => decide (c.inp = x.1) && c.out == x.2
    let tc := (mine.map (·.tc)).foldl max 0
    let hungry := starved s t x.1 x.2
    let waiting := (s.core.cells.filter fun c =>
      c.tile == t && decide (c.stage = .voq) && decide (c.inp = x.1) && c.out == x.2).length
    match x.1 with
    | .link _ => ⟨x.1, x.2, tc, 3 * tc + (if hungry then 2 else 0), if hungry then 1 else min waiting (capIn s t x.1)⟩
    | .bundle _ => ⟨x.1, x.2, tc, 3 * tc + 1, min waiting (capIn s t x.1)⟩
    | .agent _ => ⟨x.1, x.2, tc, 3 * tc, 1⟩

def Inp.isAgent : Inp → Bool
  | .agent _ => true
  | _ => false

/-- Put in by rising key. -/
def insKey {α : Type} (key : α → Nat) (x : α) : List α → List α
  | [] => [x]
  | y :: t => if key x < key y then x :: y :: t else y :: insKey key x t

/-- Sorted by rising key, equal keys in their order. -/
def sortKey {α : Type} (key : α → Nat) (l : List α) : List α := l.foldr (insKey key) []

/-- Move up to `n` cells of an input to an output, within both capacities: how many moved. -/
def moveN (t : Nat) (i : Inp) (out : Nat) : Nat → Match → Nat × Match
  | 0, m => (0, m)
  | n + 1, m =>
    let ui := tget 0 m.used (inKey i)
    let uo := tget 0 m.used (outKey t out)
    if capIn m.s t i ≤ ui ∨ capOut m.s t out ≤ uo then (0, m)
    else match pickCell m.s t i out with
      | none => (0, m)
      | some c =>
        let used := tput 0 (tput 0 m.used (inKey i) (ui + 1)) (outKey t out) (uo + 1)
        let got := if m.got.contains (i.idx, out) then m.got else m.got ++ [(i.idx, out)]
        let (k, m) := moveN t i out n { m with s := moveCell t c m.s, used := used, got := got }
        (k + 1, m)

/-- Key of a grant pointer and of an accept pointer. -/
def gKey (t out rank : Nat) : Nat := (t * 1024 + out) * 16 + rank
def aKey (t : Nat) (i : Inp) : Nat := t * 128 + i.idx

/-- Place of a request in the grant order of its output: highest class first, within a class from the grant pointer. -/
def grantOrder (s : State) (t : Nat) (r : MReq) : Nat :=
  (15 - r.rank) * 128 + (r.inp.idx + 128 - tget 0 s.core.gptr (gKey t r.out r.rank)) % 128

/-- Grants of the outputs of one iteration. Of several remote outputs behind one bundle, whose capacity they share, the one whose
request stands first in the list of requests is granted first; a request that was accepted before asks again for its whole count (log
124). -/
def grants (t : Nat) (reqs : List MReq) (m : Match) : List MReq :=
  let open1 (r : MReq) : Bool := decide (tget 0 m.used (inKey r.inp) < capIn m.s t r.inp) &&
    !(r.rank % 3 == 2 && m.got.contains (r.inp.idx, r.out))
  let order (r : MReq) : Nat := grantOrder m.s t r
  let outs := (reqs.map (·.out)).dedup
  let step (acc : List MReq × Tbl Nat) (r : MReq) : List MReq × Tbl Nat :=
    let left := capOut m.s t r.out - tget 0 acc.2 (outKey t r.out)
    let n := min r.n left
    if n = 0 then acc else (acc.1 ++ [{ r with n := n }], tput 0 acc.2 (outKey t r.out) (tget 0 acc.2 (outKey t r.out) + n))
  ((outs.flatMap fun o => sortKey order (reqs.filter fun r => r.out == o && open1 r)).foldl step ([], m.used)).1

/-- An input accepts its grants: highest class first, within a class from its accept pointer; in the first iteration the
pointers move. -/
def acceptOf (first : Bool) (t : Nat) (i : Inp) (gs : List MReq) (m : Match) : Match :=
  let p := tget 0 m.s.core.aptr (aKey t i)
  let order (r : MReq) : Nat := (15 - r.rank) * 1024 + (r.out + 1024 - p) % 1024
  (sortKey order (gs.filter fun r => decide (r.inp = i))).foldl (fun m r =>
    let (k, m) := moveN t i r.out r.n m
    if k = 0 then m
    else
      let s := m.s.when (r.rank % 3 == 2) (match i with
        | .link l => count (.cnp t) 0x13 1 { Attr.none with po := some l }
        | _ => id)
      let core := s.core
      let s := s.when first fun s => { s with core := { core with aptr := tput 0 core.aptr (aKey t i) ((r.out + 1) % 1024) } }
      { m with s := s, acc := if first then m.acc ++ [r] else m.acc }) m

/-- The grant pointer of an output for a class moves to one past the last input that accepted it, in the output's grant order (05
R95). -/
def movePtrs (s0 : State) (t : Nat) (acc : List MReq) (s : State) : State :=
  s.each (sortKey (grantOrder s0 t) acc) fun r s =>
    { s with core := { s.core with gptr := tput 0 s.core.gptr (gKey t r.out r.rank) ((r.inp.idx + 1) % 128) } }

/-- One iteration. -/
def iteration (first : Bool) (t : Nat) (reqs : List MReq) (m : Match) : Match :=
  let gs := grants t reqs m
  let m' := ((gs.map (·.inp)).dedup).foldl (fun m i => acceptOf first t i gs m) m
  if first then { m' with s := movePtrs m.s t m'.acc m'.s } else m'

/-- Read slices in use: those of the cells that port inputs have moved, and those that agents took (05 Table 5.4). -/
def slicesUsed (m : Match) : Nat :=
  ((m.used.filter fun e => 1024 ≤ e.1 ∧ e.1 < 1024 + 64).map (·.2)).sum + m.slices

/-- Port inputs with a request, lowest first. -/
def portsAsking (reqs : List MReq) : List Inp :=
  (sortKey Inp.idx ((reqs.map (·.inp)).dedup)).filter fun i => match i with | .link _ => true | _ => false

/-- Cells that a port input may move in the decision: all that it requests, or those of TC3, within its capacity. -/
def portWants (s : State) (t : Nat) (tc3 : Bool) (i : Inp) : Nat :=
  min (capIn s t i) (s.core.cells.filter fun c =>
    c.tile == t && decide (c.stage = .voq) && decide (c.inp = i) && (c.tc == 3 || !tc3)).length

/-- The port input whose read slice a starved agent takes: the lowest that has one to give, and none that a TC3 cell needs unless the
agent's own is TC3 (05 R96; the choice among them is the model's, log 124). -/
def victim (t : Nat) (reqs : List MReq) (tc : Nat) (m : Match) : Option Inp :=
  (portsAsking reqs).find? fun i =>
    decide (tget 0 m.used (inKey i) + (if tc = 3 then 0 else portWants m.s t true i) < capIn m.s t i)

/-- A read slice that no port input needs is there for an agent. -/
def spareSlice (t : Nat) (reqs : List MReq) (m : Match) : Bool :=
  decide (((portsAsking reqs).map fun i => max (tget 0 m.used (inKey i)) (portWants m.s t false i)).sum + m.slices < 64)

/-- TC3 cells of ports and bundles need all that is left of an output. -/
def tc3Fills (t : Nat) (out : Nat) (m : Match) : Bool :=
  let n := (m.s.core.cells.filter fun c =>
    c.tile == t && decide (c.stage = .voq) && c.tc == 3 && outKey t c.out == outKey t out && !c.inp.isAgent).length
  decide (capOut m.s t out ≤ tget 0 m.used (outKey t out) + n)

/-- Agents whose request has starved go first, in a spare read slice or in a port input's, ahead of the input that owns it; TC3 cells
are displaced by TC3 only (05 R96). -/
def agentsFirst (t : Nat) (reqs : List MReq) (m : Match) : Match :=
  (reqs.filter fun r => r.inp.isAgent && starved m.s t r.inp r.out).foldl (fun m r =>
    if r.tc < 3 && tc3Fills t r.out m then m
    else
      let spare := spareSlice t reqs m
      let v := if spare then none else victim t reqs r.tc m
      if !spare && v.isNone then m
      else
        let (k, m) := moveN t r.inp r.out 1 m
        if k = 0 then m
        else
          let m := { m with s := count (.cnp t) 0x13 1 Attr.none m.s }
          match v with
          | some i => { m with used := tput 0 m.used (inKey i) (tget 0 m.used (inKey i) + 1) }
          | none => { m with slices := m.slices + 1 }) m

/-- Each output with capacity left grants one agent, in rotation, while read slices are left. -/
def agentsLast (t : Nat) (reqs : List MReq) (m : Match) : Match :=
  (((reqs.filter (·.inp.isAgent)).map (·.out)).dedup).foldl (fun m out =>
    if 64 ≤ slicesUsed m then m
    else
      let p := tget 0 m.s.core.gptr (gKey t out 15)
      let ks := ((List.range 4).map fun k => (p + k) % 4).filter fun k =>
        (reqs.any fun r => decide (r.inp = .agent k) && r.out == out) && tget 0 m.used (inKey (.agent k)) == 0
      match ks with
      | [] => m
      | k :: _ =>
        let (n, m) := moveN t (.agent k) out 1 m
        if n = 0 then m
        else
          let core := m.s.core
          { m with
            slices := m.slices + 1
            s := { m.s with core := { core with gptr := tput 0 core.gptr (gKey t out 15) ((k + 1) % 4) } } }) m

/-- Transfers to be repeated go first (05 R107). -/
def repeatsFirst (t : Nat) (s : State) : Match :=
  let mine := s.core.repeats.filter fun i => (cellOf s i).any (·.tile == t)
  let add (u : Tbl Nat) (k : Nat) : Tbl Nat := tput 0 u k (tget 0 u k + 1)
  let used := mine.foldl (fun u i => match cellOf s i with
    | some c => add (add u (inKey c.inp)) (outKey t c.out)
    | none => u) []
  ⟨{ s with core := { s.core with repeats := s.core.repeats.filter fun i => !mine.contains i } }, used, [], 0, []⟩

/-- Requests that went unmatched count on; all others start again (05 R96). -/
def countStarved (t : Nat) (reqs : List MReq) (m : Match) : State :=
  let s := m.s
  let others := s.core.starve.filter fun e => e.1 / 1024 / 80 != t
  let missed := reqs.filter fun r => !m.got.contains (r.inp.idx, r.out) && (match r.inp with | .bundle _ => false | _ => true)
  let tbl := missed.foldl (fun u r =>
    tput 0 u (starveKey t r.inp r.out) (min 255 (tget 0 s.core.starve (starveKey t r.inp r.out) + 1))) others
  { s with core := { s.core with starve := tbl } }

/-- The headers of waiting cells that a decision would find lost. -/
def spoilHeads (t : Nat) (reads : List (Nat × CellRead)) (s : State) : State :=
  let lost (c : Cell) : Bool := c.tile == t && decide (c.stage = .voq) && reads.any fun x => x.1 == c.id && decide (2 ≤ x.2.hdr)
  { s with core := { s.core with cells := s.core.cells.map fun c => if lost c then { c with hdrBad := true } else c } }

/-- A header that the decision has read, as head of its VOQ before or after it or as it moved: a single error is corrected, a double one
is raised, and the queue stops at the cell; others have not been read (05 R106). `s0`: the state before it. -/
def noteHeader (t : Nat) (s0 : State) (x : Nat × CellRead) (s : State) : State :=
  match cellOf s0 x.1, cellOf s x.1 with
  | some c0, some c =>
    if c0.tile ≠ t ∨ c0.stage ≠ .voq ∨ c0.hdrBad = true then s
    else
      let head := (voqHeads s0 t ++ voqHeads s t).any (·.id == x.1)
      let moved := decide (c.stage ≠ .voq)
      if 2 ≤ x.2.hdr then
        (if head then raise (tileSrcNo t 2) none none s else modCell x.1 (fun c => { c with hdrBad := false }) s)
      else s.when (x.2.hdr == 1 && (head || moved)) (bump (.cell t) F.CELL_PAR_CNT_HDR_CORR)
  | _, _ => s

/-- The words of a cell that is sent over a path or channel are checked as they are read: a bad one is rebuilt before it is sent, two
or more mark the cell POIS (05 R105, R107). -/
def readForTransfer (t : Nat) (x : Nat × CellRead) (s : State) : State :=
  match cellOf s x.1 with
  | none => s
  | some c =>
    match c.stage with
    | .moving _ => if c.tile = t then noteData c x.2 s else s
    | _ => s

/-- SCHED_DECISION (05 R95): `reads` are the cells, by name, whose header or words are not read as they were written. -/
def schedDecision (t : Nat) (reads : List (Nat × CellRead)) (s : State) : State :=
  if frozen s || rd s (.cnp t) F.BLK_CTL_RUN != 0 then s
  else
    let s0 := s
    let s := spoilHeads t reads s
    let reqs := requestsOf s t
    let ports := reqs.filter fun r => !r.inp.isAgent
    let m := agentsFirst t reqs (repeatsFirst t s)
    let m := iteration false t ports (iteration false t ports (iteration true t ports m))
    countStarved t reqs (agentsLast t reqs m) |> State.each reads (noteHeader t s0) |> State.each reads (readForTransfer t)

/-! ### Transfers (05 R100, R107, R108) -/

/-- A crossbar path of an output link is retired, with the repeat that failed (05 R108; 12 R236). -/
def retirePath (c : Cell) (s : State) : State :=
  let o := c.out
  let s := { s with core := { s.core with paths := tput 0 s.core.paths o (tget 0 s.core.paths o + 1) } }
  let s := s |> bump (.cnp c.tile) F.CNP_XFER_CNT_PATH_RETIRED
    |> raiseSame [⟨tileSrcNo c.tile 3, none, none, none⟩, ⟨tileSrcNo c.tile 4, none, some o, none⟩]
  if linkPaths s o = 0 then s |> goDown o false .off |> setOff o |> modLink o fun l => { l with noPath := true } else s

/-- A channel of a bundle is retired, with the repeat that failed (05 R100; 12 R236). -/
def retireChannel (c : Cell) (s : State) : State :=
  let t := c.tile
  let p := tileOf c.out
  let pg := Page.cnp t
  let s := { s with core := { s.core with chans := tput 0 s.core.chans (8 * t + p) (tget 0 s.core.chans (8 * t + p) + 1) } }
  let deg := rd s pg F.CNP_STS_PAIR_DEG
  s |> bump pg F.CNP_XFER_CNT_CH_RETIRED |> wr pg F.CNP_STS_PAIR_DEG (deg ||| 2 ^ p)
    |> raiseSame (([3, 5] ++ if channels s t p = 0 then [6] else []).map fun k => ⟨tileSrcNo t k, none, none, none⟩)

/-- A failed transfer is repeated in the next decision; XFER_LIM failures in a row retire its path or channel. -/
def transferBad (id : Nat) (s : State) : State :=
  match cellOf s id with
  | none => s
  | some c =>
    match c.stage with
    | .moving _ =>
      let t := c.tile
      let pg := Page.cnp t
      let s := s |> modCell id (fun c => { c with fails := c.fails + 1 }) |> bump pg F.CNP_XFER_CNT_RETRY
        |> count pg 0x12 1 Attr.none
      let again := raise (tileSrcNo t 3) none none
      let s := { s with core := { s.core with repeats := s.core.repeats ++ [id] } }
      if rd s pg F.CNP_XFER_CFG_XFER_LIM ≤ c.fails + 1 then
        let s := modCell id (fun c => { c with fails := 0 }) s
        if tileOf c.out = t then (if linkPaths s c.out = 0 then again s else retirePath c s)
        else if channels s t (tileOf c.out) = 0 then again s else retireChannel c s
      else again s
    | _ => s

/-- What the receiving stage gets as word `i` (32 is the XOR word) and its parity bits. -/
def received (c : Cell) (rx : List (Nat × DWord × Nat)) (i : Nat) : DWord × Nat :=
  match rx.find? fun x => x.1 == i with
  | some (_, w, p) => (w, p)
  | none => let w := if i = 32 then c.xor else c.words.getD i 0; (w, wordParity w)

/-- The three checks of the receiving stage (05 R107). -/
def transferOk (c : Cell) (rx : List (Nat × DWord × Nat)) : Bool :=
  ((List.range 33).all fun i => wordParity (received c rx i).1 == (received c rx i).2) &&
    xorWord ((List.range 32).map fun i => (received c rx i).1) == (received c rx 32).1

/-- CELL_TRANSFER_DONE (05 R107): `rx` are the words that do not arrive as they were sent. A cell confirmed lets those held behind it
go. -/
def cellTransferDone (id : Nat) (rx : List (Nat × DWord × Nat)) (s : State) : State :=
  if frozen s then s
  else match cellOf s id with
    | none => s
    | some c => if transferOk c rx then s |> transferGood id |> confirmHeld else transferBad id s

/-! ### Arrivals (05 R98) -/

/-- Arrivals are linked in BSEQ order as far as they are confirmed; a number whose cell is gone is passed. -/
def linkArrivals (t p : Nat) : Nat → State → State
  | 0, s => s
  | n + 1, s =>
    let k := 8 * t + p
    let e := tget 0 s.core.bseqRx k
    let next (s : State) : State := { s with core := { s.core with bseqRx := tput 0 s.core.bseqRx k ((e + 1) % 1024) } }
    match (arrivals s p t).find? fun c => c.bseq == e && (match c.stage with | .copy _ | .unlinked => true | _ => false) with
    | none => linkArrivals t p n (next s)
    | some c =>
      if c.stage = .unlinked then
        linkArrivals t p n (s |> stamp c.id |> toTail c.id (fun c => { c with stage := .voq }) |> next)
      else s

/-- BUNDLE_ARRIVAL. -/
def bundleArrival (tile peer : Nat) (s : State) : State :=
  if frozen s then s
  else
    let n := (tget 0 s.core.bseqTx (8 * peer + tile) + 1024 - tget 0 s.core.bseqRx (8 * tile + peer)) % 1024
    linkArrivals tile peer n s

end Sys2Proof.Machine
end

