-- ==== Sys2Proof/Machine/Egress.lean ====
section
/-!
DEFINITION. Sys2Proof/Machine/Egress.lean: egress queues, deficit round robin and shapers (09), the sending of a flit (04 R68,
R73-R78, R81; 05 R105, R106) and slot accounting (13 R255, R256).
-/
namespace Sys2Proof.Machine

/-! ### Queues (09 R176, R177) -/

/-- Cells in the egress queues of a link, in order. -/
def egressCells (s : State) (lead : Nat) : List Cell :=
  s.core.cells.filter fun c => c.out == lead && decide (c.stage = .egress)

/-- The heads of the subclass lists. -/
def listHeads (l : List Cell) : List Cell :=
  l.foldl (fun acc c => if acc.any fun x => x.queue == c.queue && x.oc == c.oc then acc else acc ++ [c]) []

/-- Limit of unacknowledged flits (04 R68). -/
def replayLimit (s : State) (lead : Nat) : Nat := min 512 (64 * ctrlsOf s lead)

/-- Link credit of the cell's class for all the flits that it leaves as (04 R72, 09 R177; log 10). -/
def creditFor (s : State) (lead : Nat) (c : Cell) : Bool :=
  decide ((pieces s lead c).length ≤ tget 0 (linkOf s lead).credit c.oc)

/-- The head of a list may be sent: link credit of its class, no tail mark, a header that can be read, the posted barrier, and
replay entries; on a trunk the module has a MODID and the TRNK page is in RUN (04 R68, R78; 05 R103, R106; 17 Table 17.12). -/
def sendable (s : State) (lead : Nat) (c : Cell) : Bool :=
  creditFor s lead c && !c.bad && !c.hdrBad && barrierOk s 2 c &&
    decide ((linkOf s lead).replay.length + (pieces s lead c).length ≤ replayLimit s lead) &&
    (roleOf s lead != 3 || (hasModid s && rd s .trnk F.BLK_CTL_RUN == 0))

/-- The head of a queue that would be served: the lists in rotation after the one last served. -/
def queueHead (s : State) (lead q : Nat) (heads : List Cell) : Option Cell :=
  let r := tget 0 s.egr.rot (queueKey lead q)
  let mine := heads.filter fun c => c.queue == q && sendable s lead c
  ((List.range 8).map fun k => (r + k) % 8).findSome? fun oc => mine.find? fun c => c.oc == oc

/-! ### Cost and shapers (09 R179-R181) -/

def cost (s : State) (lead : Nat) (c : Cell) : Nat := if wholeFlits s lead then 256 else 16 * c.slots

def shaperOf (s : State) (k : Nat) : Shaper := tget Shaper.reset s.egr.shapers k
def setShaper (k : Nat) (x : Shaper) (s : State) : State :=
  { s with egr := { s.egr with shapers := tput Shaper.reset s.egr.shapers k x } }

/-- The shaper of a partition allows a cost. -/
def shaperAllows (s : State) (lead part n : Nat) : Bool :=
  let x := shaperOf s (shpKey lead part)
  !x.en || decide (n ≤ x.tokens)

/-- Bytes that a shaper may hold. -/
def Shaper.cap (x : Shaper) : Nat := x.burst * 256

/-- New settings replace the old ones; EN set anew starts the tokens at the cap. -/
def Shaper.renew (x : Shaper) (en : Bool) (rate burst : Nat) : Shaper :=
  { x with en := en, rate := rate, burst := burst
           tokens := if !en then 0 else if x.en then x.tokens else burst * 256 }

/-- The refill of a boundary: the tokens gain RATE, up to the cap. -/
def Shaper.refill (x : Shaper) : Shaper := if x.en then { x with tokens := min (x.tokens + x.rate) x.cap } else x

def quantumOf (s : State) (k : Nat) : Nat := tget 1024 s.egr.quanta k
def deficitOf (s : State) (k : Nat) : Nat := tget 0 s.egr.deficits k
def setDeficit (k v : Nat) (s : State) : State := { s with egr := { s.egr with deficits := tput 0 s.egr.deficits k v } }

/-- A staged quantum takes effect: when it changes the quantum, the deficit is clipped to it. -/
def quantumInForce (k v : Nat) (s : State) : State :=
  let clip := quantumOf s k != v
  { s with egr := { s.egr with
      quanta := tput 1024 s.egr.quanta k v, quantaNew := tput none s.egr.quantaNew k none } }
    |> fun s => s.when clip (setDeficit k (min (deficitOf s k) v))

/-- Staged shaper settings take effect. -/
def shaperInForce (k : Nat) (x : Bool × Nat × Nat × Nat) (s : State) : State :=
  { s with egr := { s.egr with shpNew := tput none s.egr.shpNew k none } }
    |> setShaper k ((shaperOf s k).renew x.1 x.2.1 x.2.2.1)

/-- Commit a quantum: an earlier one that is due in this tick takes effect first (09 R181). -/
def commitQuantum (lead tc part v : Nat) (s : State) : State :=
  let k := queueKey lead (128 * tc + part)
  let s := match tget none s.egr.quantaNew k with
    | some (old, t) => if slotDue s && t != s.time then quantumInForce k old s else s
    | none => s
  { s with egr := { s.egr with quantaNew := tput none s.egr.quantaNew k (some (max 256 v, s.time)) } }

/-- Commit a shaper's EN, RATE and BURST together (09 R181). -/
def commitShaper (lead part : Nat) (en : Bool) (rate burst : Nat) (s : State) : State :=
  let k := shpKey lead part
  let s := match tget none s.egr.shpNew k with
    | some x => if slotDue s && x.2.2.2 != s.time then shaperInForce k x s else s
    | none => s
  let b := max 1 (min burst 4096)
  { s with egr := { s.egr with shpNew := tput none s.egr.shpNew k (some (en, rate, b, s.time)) } }
    |> setShaper k { shaperOf s k with stage := rate }

/-- Step 2 of R38 for the egresses: new quanta and settings, deficits clipped, shapers refilled (09 R181). -/
def egressBoundary (s : State) : State :=
  let s := s.each s.egr.quantaNew fun e => match e.2 with
    | some (v, t) => fun s => if t = s.time then s else quantumInForce e.1 v s
    | none => id
  let s := s.each s.egr.shpNew fun e => match e.2 with
    | some x => fun s => if x.2.2.2 = s.time then s else shaperInForce e.1 x s
    | none => id
  s.each s.egr.shapers fun e s => setShaper e.1 (shaperOf s e.1).refill s

/-- SHAPER_SET at the moment it is committed. -/
def shaperDo (c : Ctx) (lead part rate burst : Nat) (en : Bool) (s : State) : State :=
  if !isLead s lead then finish c 0x45 St.cfgInvalid (reject (.sched (tileOf lead)) s)
  else s |> commitShaper lead part en rate burst |> finishAt false c 0x45

/-- SHAPER_SET (09 R181, 11 R214). -/
def shaperSet (c : Ctx) (inst : Option Nat) (lead part rate burst : Nat) (en : Bool) (s : State) : State :=
  if 512 ≤ lead ∨ 128 ≤ part ∨ 2 ^ 20 ≤ rate then finish c 0x45 St.badArg s
  else match inst with
    | some t => schedCmd c 0x45 t (.shaper lead part rate burst en) s
    | none => shaperDo c lead part rate burst en s

/-- SHAPER_SET as the active core executes it. -/
def shaperSetCmd (c : Ctx) (inst : Option Nat) (lead part rate burst : Nat) (en : Bool) : State → State :=
  mirrorGate (lead < 512) (.sched (tileOf lead)) c 0x45 (shaperSet c inst lead part rate burst en)

/-- QUANTUM_SET at the moment it is committed. -/
def quantumDo (c : Ctx) (lead part tc quantum : Nat) (s : State) : State :=
  if !isLead s lead then finish c 0x46 St.cfgInvalid (reject (.sched (tileOf lead)) s)
  else s |> commitQuantum lead tc part quantum |> finishAt false c 0x46

/-- QUANTUM_SET (09 R181, 11 R214). -/
def quantumSet (c : Ctx) (inst : Option Nat) (lead part tc quantum : Nat) (s : State) : State :=
  if 512 ≤ lead ∨ 128 ≤ part ∨ 3 ≤ tc ∨ 2 ^ 16 ≤ quantum then finish c 0x46 St.badArg s
  else match inst with
    | some t => schedCmd c 0x46 t (.quantum lead part tc quantum) s
    | none => quantumDo c lead part tc quantum s

/-- QUANTUM_SET as the active core executes it. -/
def quantumSetCmd (c : Ctx) (inst : Option Nat) (lead part tc quantum : Nat) : State → State :=
  mirrorGate (lead < 512) (.sched (tileOf lead)) c 0x46 (quantumSet c inst lead part tc quantum)

/-- The lead that SCHED_IDX names, when it is one of a link (09 R187). -/
def schedLead (s : State) (t : Nat) : Option Nat :=
  let l := 64 * t + rd s (.sched t) F.SCHED_IDX_LPORT
  if isLead s l then some l else none

/-- A write to SCHED_SHP_RATE stages the rate. -/
def shpRateWrite (t v m : Nat) (s : State) : State :=
  match schedLead s t with
  | none => reject (.sched t) s
  | some l =>
    let k := shpKey l (rd s (.sched t) F.SCHED_IDX_PART)
    let x := shaperOf s k
    setShaper k { x with stage := F.SCHED_SHP_RATE_RATE.merge x.stage v m } s

/-- Settings of a shaper as last written. -/
def shaperWritten (s : State) (k : Nat) : Bool × Nat :=
  match tget none s.egr.shpNew k with
  | some x => (x.1, x.2.2.1)
  | none => ((shaperOf s k).en, (shaperOf s k).burst)

/-- A write to SCHED_SHP_CFG commits EN, BURST and the staged RATE (09 R181). -/
def shpCfgWrite (t v m : Nat) (s : State) : State :=
  match schedLead s t with
  | none => reject (.sched t) s
  | some l =>
    let part := rd s (.sched t) F.SCHED_IDX_PART
    let k := shpKey l part
    let (en, burst) := shaperWritten s k
    let en' := F.SCHED_SHP_CFG_EN.merge en.toNat v m
    commitShaper l part (en' == 1) (shaperOf s k).stage (F.SCHED_SHP_CFG_BURST.merge burst v m) s

/-- A write to SCHED_QUANTUM. -/
def quantumWrite (t v m : Nat) (s : State) : State :=
  match schedLead s t with
  | none => reject (.sched t) s
  | some l =>
    let tc := rd s (.sched t) F.SCHED_IDX_TC
    let part := rd s (.sched t) F.SCHED_IDX_PART
    if tc = 3 then s
    else
      let k := queueKey l (128 * tc + part)
      let old := match tget none s.egr.quantaNew k with | some (x, _) => x | none => quantumOf s k
      commitQuantum l tc part (F.SCHED_QUANTUM_QUANTUM.merge old v m) s

/-! ### Selection (09 R178, R179) -/

/-- The head that the round robin would serve of a queue: sendable, and its shaper allows its cost. -/
def drrHead (s : State) (lead q : Nat) (heads : List Cell) : Option Cell :=
  (queueHead s lead q heads).filter fun c => shaperAllows s lead (q % 128) (cost s lead c)

def setVisit (lead : Nat) (q : Option Nat) (s : State) : State :=
  { s with egr := { s.egr with visit := tput none s.egr.visit lead q } }

/-- The deficit round robin: the cell to send, and the visit it belongs to. Three rounds are enough: an open visit that
closes, a new one, and its head. -/
def drr (lead : Nat) (heads : List Cell) : Nat → State → Option Cell × State
  | 0, s => (none, s)
  | n + 1, s =>
    match tget none s.egr.visit lead with
    | some q =>
      match drrHead s lead q heads with
      | some c =>
        if cost s lead c ≤ deficitOf s (queueKey lead q) then (some c, s) else drr lead heads n (setVisit lead none s)
      | none => drr lead heads n (setVisit lead none s)
    | none =>
      let last := tget 383 s.egr.last lead
      let qs := ((heads.map (·.queue)).filter (· < 384)).dedup
      let elig := qs.filter fun q => (drrHead s lead q heads).isSome
      let far (q : Nat) : Nat := (q + 384 - (last + 1)) % 384
      match elig.foldl (fun b q => match b with | some x => if far q < far x then some q else some x | none => some q) none with
      | none => (none, s)
      | some q =>
        let k := queueKey lead q
        let s := setDeficit k (min (deficitOf s k + quantumOf s k) (quantumOf s k + 255)) s
        let egr := s.egr
        drr lead heads n { s with egr := { egr with
          visit := tput none egr.visit lead (some q), last := tput 383 egr.last lead q } }

/-- The cell that the egress serves: TC3 first, then the round robin. -/
def selectCell (s : State) (lead : Nat) : Option Cell × State :=
  let heads := listHeads (egressCells s lead)
  match queueHead s lead 384 heads with
  | some c => (some c, s)
  | none => drr lead heads 3 s

/-- A cell served leaves its queue: rotation, deficit, tokens, and the visit, which closes when its queue is empty. -/
def served (lead : Nat) (c : Cell) (s : State) : State :=
  let q := c.queue
  let k := queueKey lead q
  let n := cost s lead c
  let s := { s with egr := { s.egr with rot := tput 0 s.egr.rot k ((c.oc + 1) % 8) } }
  if q = 384 then s
  else
    let x := shaperOf s (shpKey lead c.part)
    let s := s |> setDeficit k (deficitOf s k - n) |> State.when x.en (setShaper (shpKey lead c.part) { x with tokens := x.tokens - n })
    if (egressCells s lead).any fun y => y.queue == q && y.id != c.id then s
    else s |> setDeficit k 0 |> setVisit lead none

/-! ### One slot of an egress (13 Table 13.5) -/

/-- Row 4 of Table 13.5: the link is not in L0, STOPPED, in DOZE or L1 or leaving one, widening from NARROW, its replay buffer is
full. -/
def linkHolds (s : State) (lead : Nat) : Bool :=
  !linkUp s lead || rd s (.phy lead) F.BLK_CTL_RUN == 2 || decide (2 ≤ rd s (.phy lead) F.PHY_LINK_STS_TX_STATE) ||
    (linkOf s lead).exTx || decide (replayLimit s lead ≤ (linkOf s lead).replay.length)

/-- The egress may not select: for one of these causes, but that flits keep flowing while the direction widens (03 R59; log 122); or
while a replay is in progress (09 R184; 04 R68, R72). -/
def noSelect (s : State) (lead : Nat) : Bool :=
  !linkUp s lead || rd s (.phy lead) F.BLK_CTL_RUN == 2 || decide (2 ≤ rd s (.phy lead) F.PHY_LINK_STS_TX_STATE) ||
    (linkOf s lead).resume.isSome || decide (replayLimit s lead ≤ (linkOf s lead).replay.length)

/-- A flit started earlier is still on the wire, at NARROW width (13 Table 13.5). -/
def onWire (s : State) (lead : Nat) : Bool :=
  rd s (.phy lead) F.PHY_LINK_STS_TX_STATE == 1 && (linkOf s lead).sending.any fun x => decide (s.tick < x.2)

/-- Class of a slot in which no flit starts. -/
def idleClass (s : State) (lead : Nat) : Nat :=
  let cells := egressCells s lead
  let heads := listHeads cells
  let qs := ((heads.filter fun c => sendable s lead c).map (·.queue)).dedup
  if onWire s lead then 0x46
  else if cells.isEmpty then 0x43
  else if linkHolds s lead then 0x46
  else if heads.all (fun c => !creditFor s lead c) then 0x44
  else if !(heads.any fun c => c.tc == 3) && !qs.isEmpty && qs.all (fun q => (drrHead s lead q heads).isNone) then 0x45
  else 0x47

/-- A slot passes in which no flit starts. -/
def idleSlot (lead : Nat) (s : State) : State := countSlot lead (idleClass s lead) s

/-! ### Reading and sending a cell (04 R73-R75, R81; 05 R105, R106) -/

/-- The routing header of a cell that leaves on a trunk; a cell in transit keeps its own (04 R78, R79). -/
def trunkPatch (lead : Nat) (c : Cell) (s : State) : State :=
  if roleOf s lead ≠ 3 ∨ (!c.srck && roleOf s c.src == 3) then s
  else
    let h := mkHdr c.dmod c.dport c.part c.tc (modid s) (rd s .trnk F.TRNK_MOD_CFG_HOPS_INIT)
    modCell c.id (fun c => let w := putHdr h c.words; { c with words := w, xor := xorWord w }) s

/-- One flit of an injection is done; with the last, DONE sets and the injection is disarmed (04 R81). -/
def injNext (lead : Nat) (s : State) : State :=
  match (linkOf s lead).inj with
  | none => s
  | some (kind, n, b) =>
    if n ≤ 1 then
      s |> modLink lead (fun l => { l with inj := none }) |> wr (.lnk lead) F.LNK_INJ_STS_DONE 1
        |> wr (.lnk lead) F.LNK_INJ_CTL_ARM 0
    else modLink lead (fun l => { l with inj := some (kind, n - 1, b) }) s

/-- How a new flit is to leave: its cell and place in it, its units, the check code that a stomp makes wrong, and whether its data is
found lost after the first symbol. -/
structure TxFlit where
  cell  : Nat
  piece : Nat
  units : Nat
  stomp : Option WrongCrc
  lost  : Bool
deriving DecidableEq, Repr

/-- A new flit is entered for replay and goes on the wire, or is kept back by an injection (04 R68, R72, R73, R81). -/
def launch (lead : Nat) (x : TxFlit) (s : State) : State :=
  let pg := Page.lnk lead
  let seq := rd s pg F.LNK_SEQ_STS_NEXT_TX
  let l := linkOf s lead
  let kind := l.inj.map (·.1)
  let oc := ((cellOf s x.cell).map (·.oc)).getD 0
  let pois := (cellOf s x.cell).any (·.pois)
  let held := kind = some 0 ∨ (kind = some 3 ∧ l.swapHeld = none)
  let wrong := if kind = some 1 then some (wrongCrc s lead [16 * (Config.injHalf % 2)]) else x.stomp
  let e : REnt := ⟨seq, x.cell, x.piece, held, kind.isSome || wrong.isSome, pois || x.lost, x.lost⟩
  let l' := { l with
    replay := l.replay ++ [e], credit := tput 0 l.credit oc (tget 0 l.credit oc - 1), busyTx := true
    sending := if held then l.sending else onWireAdd s lead seq x.units
    ackFrom := if l.replay.isEmpty then some s.tick else l.ackFrom }
  let s := s |> setLink lead l' |> wr pg F.LNK_SEQ_STS_NEXT_TX ((seq + 1) % 1024)
    |> modCell x.cell (fun c => { c with stage := .sent })
  let s := s.each (List.range (slotUnits s lead x.units)) fun _ => countSlot lead (if e.stomped then 0x42 else 0x41)
  let s := s.when (!held) (sayFlit lead e wrong (pois && !x.lost))
  match kind with
  | none => s
  | some 2 => s |> State.say (.linkMsg lead 2 ((l.inj.map (·.2.2)).getD 0)) |> injNext lead
  | some 3 =>
    match l.swapHeld with
    | none => modLink lead (fun l => { l with swapHeld := some (seq, x.stomp) }) s
    | some (first, how) =>
      let s := s |> modLink lead fun l => { l with swapHeld := none, inj := some (3, 1, 0) }
      match l.replay.find? fun e => e.seq == first with
      | none => injNext lead s
      | some y => s |> sayFlit lead y how (y.poison && !y.lost)
          |> modLink lead (fun l => { l with
              replay := l.replay.map fun e => if e.seq = first then { e with held := false } else e })
          |> injNext lead
  | some _ => injNext lead s

/-- The record of a tagged cell that has been sent (13 R259, R261); its first transmission was wasted when its flit was stomped or
injected (13 R256, R262). -/
def tagRecord (lead id : Nat) (s : State) : State :=
  let s := stamp id s
  let wasted := (linkOf s lead).replay.any fun e => e.cell == id && e.stomped
  match cellOf s id with
  | none => s
  | some c => s.when c.tagged (skyRecord c.tile 2 wasted false c)

/-- The flits that a cell leaves as; `words`: those found bad after the first symbol, whose flit is stomped (04 R66, R73). -/
def flitsOf (s : State) (lead : Nat) (c : Cell) (words : List Nat) (lost : Bool) : List TxFlit :=
  let ps := pieces s lead c
  ((List.range ps.length).zip ps).map fun p =>
    let mine := words.filter (inPiece s lead c p.1)
    ⟨c.id, p.1, p.2, if mine.isEmpty then none else some (wrongCrc s lead mine), lost && !mine.isEmpty⟩

/-- Send a cell, and say the responses in it. Words found bad before the first symbol are rebuilt first; after it their flit is stomped
and its replay entry is rebuilt, or replayed poisoned (04 R73, R74; 05 R105, R106). A cell whose header is lost starts no flit. -/
def sendCell (lead : Nat) (c : Cell) (r : CellRead) (s : State) : State :=
  let res := judgeRead r
  if res = .header then s |> noteRead c r |> idleSlot lead
  else
    let words := (badWordsOf r).filter (· < 32)
    let late := if r.after then words else []
    let s := s |> served lead c |> trunkPatch lead c
    let fs := flitsOf s lead c late (res == .lost)
    let s := s |> bumpBy (.lnk lead) F.LNK_STOMP_CNT_STOMP_TX (fs.filter (·.stomp.isSome)).length
      |> bumpBy (.lnk lead) F.LNK_STOMP_CNT_REBUILD_FAIL (fs.filter (·.lost)).length
    let s := s.when (res == .lost && !r.after) (modCell c.id fun c => { c with pois := true })
    s |> postedGo 2 c |> State.each fs (launch lead) |> State.each c.rsps sayRsp |> tagRecord lead c.id |> noteRead c r

/-! ### A selection -/

/-- EGRESS_SELECT: one opportunity to start a flit. -/
def egressSelect (lead : Nat) (r : CellRead) (s : State) : State :=
  if frozen s || linkDown s lead || !isLead s lead then s
  else if noSelect s lead || onWire s lead then idleSlot lead s
  else match selectCell s lead with
    | (some c, s') => sendCell lead c r s'
    | (none, s') => idleSlot lead s'

/-! ### Samples (09 R185) -/

/-- Samples of one queue: depth, and head delay in ticks. -/
def sampleQueue (s : State) (l : List Cell) (q : Nat) : Nat × Nat :=
  let mine := l.filter fun c => c.queue == q
  let delay (c : Cell) : Nat := min 0x7FFF (s.time - 1 - c.arr)
  (mine.length, ((listHeads mine).map delay).foldl max 0)

/-- Every queue of a link records its samples at a refill-slot boundary. -/
def sampleLink (lead : Nat) (s : State) : State :=
  let cells := egressCells s lead
  let qs := (cells.map (·.queue)).dedup
  let vals := qs.map fun q => (q, sampleQueue s cells q)
  let keep := s.egr.smp.filter fun e => e.1 / 385 != lead
  let smp := vals.foldl (fun t v => tput (0, 0) t (queueKey lead v.1) v.2) keep
  let worst := (vals.map fun v => v.2.2).foldl max 0
  let who := ((vals.filter fun v => v.2.2 == worst).map (·.1)).foldl min 384
  let pg := Page.egr lead
  let s := { s with egr := { s.egr with smp := smp } }
  let q := if worst = 0 then 0 else who
  s |> wr pg F.EGR_SMP_DEPTH_TOTAL cells.length |> wr pg F.EGR_SMP_MAX_MAX_DLY worst
    |> wr pg F.EGR_SMP_MAXQ_TC (q / 128) |> wr pg F.EGR_SMP_MAXQ_PART (q % 128)

end Sys2Proof.Machine
end

