-- ==== Sys2Proof/Machine/Bind.lean ====
section
/-!
DEFINITION. Sys2Proof/Machine/Bind.lean: host requests and the answers of targets, changes of the binding table, dynamic
capacity, and hot plug (06 R110-R127).
-/
namespace Sys2Proof.Machine

/-! ### A request arrives (06 R114) -/

/-- The message of a request is counted at its ingress (13 Table 13.2). -/
def countReq (lead part : Nat) (r : Req) (s : State) : State :=
  let off := pmdOff s part r
  let e := if off = noOff then none else lookupOff s part off
  let a : Attr := { reqAttr part lead off r with
    t := e.map (·.2.tc), o := some r.oc, v := e.map fun _ => r.level, a := e.map fun _ => off }
  s |> count (.ing lead) 0x01 1 a |> count (.ing lead) 0x02 (reqUnits r) a

/-- HOST_REQUEST: a request on a HOST link, or from the device of a virtual port; a DEVICE link bound to none has no
partition, and what it requests is unsupported. -/
def hostRequest (lead : Nat) (r : Req) (u : Upset) (s : State) : State :=
  if !canReceive s lead then s
  else if roleOf s lead = 1 then
    let p := hpartOf s lead
    s |> countReq lead p r |> arrive u lead p none r none
  else if roleOf s lead = 2 then
    match vpOfLead s lead with
    | some (p, v) => s |> countReq lead p r |> arrive u lead p (some v) r none
    | none => if r.op.isPosted then s else s.say (.rsp lead r.tag (if r.op.isIo then .cplUr else .ndr) 0 false r.md)
  else s

/-! ### A target answers -/

/-- TARGET_RESPONSE: the response to a forwarded request, on the link that carried it. -/
def targetResponse (lead id : Nat) (ok : Bool) (data : LineData) (poison : Bool) (s : State) : State :=
  if !canReceive s lead then s
  else match s.maps.fwds.find? fun f => f.id == id && f.out == lead with
    | none => s
    | some f => s |> fwdEnd f (if ok then .ok data.toNat poison else .err) |> afterRetire

/-! ### Acceptance of an entry (06 R113, 08 R149) -/

/-- Valid entries, and those placed and not yet visible, apart from one index. -/
def otherBinds (s : State) (me : Option Nat) : List Binding :=
  ((s.maps.binds.filter fun e => e.2.valid && decide (some e.1 ≠ me)).map (·.2)) ++
    s.maps.pend.filterMap fun p => match p.what with
      | .place b => if some p.idx = me then none else some b
      | _ => none

/-- Indices in use, or still held by a change or a deletion. -/
def usedIdx (s : State) : List Nat :=
  (s.maps.binds.filter fun e => e.2.valid).map (·.1) ++ s.maps.pend.map (·.idx) ++ s.maps.waits.map (·.idx)

/-- A free index; where the search for it starts is a free value (log 1). -/
def freeIdx (s : State) : Option Nat :=
  let used := usedIdx s
  if 262144 ≤ (s.maps.binds.filter fun e => e.2.valid).length then none
  else ((List.range (used.length + 1)).map fun k => (Config.freeIndex s.free + k) % 262144).find? fun i => !used.contains i

/-- The first row of R113 (and of R149) that turns an entry away; none: accepted. -/
def bindJudge (s : State) (b : Binding) (me : Option Nat) : Option Nat :=
  let others := otherBinds s me
  if b.kind = 3 then some St.badArg
  else if 19 < b.size ∨ b.base % b.bytes ≠ 0 ∨ b.dpaBase % b.bytes ≠ 0 then some St.align
  else if b.hasOff ∧ rd s (.pmd b.part) F.PMD_CFG_CAP * 2 ^ 21 < b.base + b.bytes then some St.range
  else if b.hasOff && others.any (fun o => o.hasOff && o.part == b.part && b.offOverlap o) then some St.overlap
  else if others.any (fun o => o.part != b.part && b.tgtOverlap o && !(b.shared && o.shared && b.sgrp == o.sgrp)) then
    some St.overlap
  else if (b.kind = 0 ∨ b.kind = 2) ∧ (roleOf s b.out ≠ 2 ∨ !isLead s b.out ∨ (vpOfLead s b.out).isSome) then some St.badTarget
  else if b.kind = 1 ∧ (b.dmod = modid s ∨ (routeLead s b.dmod).isNone) then some St.badTarget
  else if !b.ldv ∧ b.ld ≠ 0 then some St.badTarget
  else if b.shared ∧ (b.kind ≠ 0 ∨ !bit (tget 0 s.home.sgMem b.sgrp) b.part) then some St.badTarget
  else none

/-- An earlier BIND command on the entry has not yet completed (06 R124). -/
def bindBusy (s : State) (idx : Nat) : Bool :=
  s.maps.pend.any (·.idx == idx) || s.maps.waits.any (·.idx == idx) ||
    s.parts.any fun p => p.2.laterDel.any fun d => d.2.1 == idx

/-- A change is dispatched; it becomes visible at its Tc (06 R117). -/
def bindPend (p : BPend) (s : State) : State :=
  { s with maps := { s.maps with pend := s.maps.pend ++ [{ p with since := s.tick }] } }

/-- BIND_ADD of a new entry. -/
def bindNew (c : Ctx) (b : Binding) (s : State) : State :=
  match bindJudge s b none with
  | some st => finish c 0x20 st s
  | none =>
    match freeIdx s with
    | none => finish c 0x20 St.tableFull s
    | some i => { s with free := s.free + 1 } |> bindPend ⟨i, .place b, some c, 0x20, false, 0⟩

/-- BIND_ADD with REPLACE (06 R123). -/
def bindReplace (c : Ctx) (idx : Nat) (b : Binding) (s : State) : State :=
  let o := bindOf s idx
  let sg (x : Binding) : Option Nat := if x.shared then some x.sgrp else none
  if !o.valid then finish c 0x20 St.noEntry s
  else if bindBusy s idx then finish c 0x20 St.busy s
  else if b.part ≠ o.part ∨ b.kind ≠ o.kind ∨ b.hoff ≠ o.hoff ∨ b.size ≠ o.size then finish c 0x20 St.badArg s
  else if !(o.stopped && o.qstop) then finish c 0x20 St.notStopped s
  else if sg b ≠ sg o ∧ partSt s o.part ≠ 2 then finish c 0x20 St.partRunning s
  else match bindJudge s b (some idx) with
    | some st => finish c 0x20 st s
    | none => bindPend ⟨idx, .place b, some c, 0x20, false, 0⟩ s

/-- BIND_ADD (06 R113, R121, R123). -/
def bindAdd (c : Ctx) (replace : Bool) (idx : Nat) (q0 q1 q2 q3 : DWord) (s : State) : State :=
  let b := Binding.ofWords q0.toNat q1.toNat q2.toNat q3.toNat
  if replace then bindReplace c idx b s
  else if partSt s b.part = 1 then
    modPart b.part (fun p => { p with later := p.later ++ [⟨0, .place b, some c, 0x20, false, 0⟩] }) s
  else bindNew c b s

/-- BIND_DEL, its entry valid and free of other commands (06 R122). -/
def bindDelDo (c : Ctx) (idx tmo : Nat) (s : State) : State :=
  let b := bindOf s idx
  if partSt s b.part = 2 then bindPend ⟨idx, .remove, some c, 0x21, false, 0⟩ s
  else if b.kind = 2 then bindPend ⟨idx, .remove, some c, 0x21, true, 0⟩ s
  else
    { s with maps := { s.maps with waits := s.maps.waits ++ [⟨idx, true, some c, some (s.tick + tmo), false, s.tick, b⟩] } }
      |> State.say (.dcAsk b.part idx)

/-- BIND_DEL (06 R121, R122). -/
def bindDel (c : Ctx) (idx tmo : Nat) (s : State) : State :=
  let b := bindOf s idx
  if tmo = 0 ∨ 2 ^ 32 ≤ tmo then finish c 0x21 St.badArg s
  else if !b.valid then finish c 0x21 St.noEntry s
  else if bindBusy s idx then finish c 0x21 St.busy s
  else if partSt s b.part = 1 then modPart b.part (fun p => { p with laterDel := p.laterDel ++ [(c, idx, tmo)] }) s
  else bindDelDo c idx tmo s

/-- BIND commands that waited for their partition to stop act as for a STOPPED partition (06 R121). -/
def bindLater (part : Nat) (s : State) : State :=
  let p := partOf s part
  let s := modPart part (fun p => { p with later := [], laterDel := [] }) s
  let s := s.each p.later fun x s => match x.what, x.ctx with
    | .place b, some c => bindNew c b s
    | _, _ => s
  s.each p.laterDel fun d s =>
    if (bindOf s d.2.1).valid then bindDelDo d.1 d.2.1 d.2.2 s else finish d.1 0x21 St.noEntry s

/-! ### Run state of an entry (06 R123) -/

/-- BIND_STOP or BIND_START: the status that turns it away, else the change is dispatched. -/
def bindRun (c : Ctx) (op idx : Nat) (what : BChange) (s : State) : State :=
  if !(bindOf s idx).valid then finish c op St.noEntry s
  else if bindBusy s idx then finish c op St.busy s
  else bindPend ⟨idx, what, some c, op, false, 0⟩ s

/-! ### A change becomes visible (06 R117) -/

/-- A held request is held for an entry: on its account, or on its partition's while it matches it (06 R122, R191). -/
def heldFor (s : State) (idx : Nat) (h : Held) : Bool :=
  decide (h.bind = some idx) || (h.bind.isNone && !h.behind && decide ((entryFor s h).map (·.1) = some idx))

/-- Requests held for a deleted entry complete with NOBIND (06 R122). -/
def failHeldOf (hs : List Held) (s : State) : State :=
  let s := { s with maps := { s.maps with held := s.maps.held.filter fun h => !hs.any (·.id == h.id) } }
  settle (s.each hs (failHeld FK.nobind))

/-- Entry changes made visible are counted in every tile's replica (13 Table 13.2). -/
def countTc (part : Nat) (s : State) : State :=
  s.each (List.range 8) fun t => count (.bindT t) 0x19 1 { Attr.none with pa := some part }

/-- Fields of an entry other than its run state and GEN. -/
def Binding.config (b : Binding) : Binding := { b with stopped := false, qstop := false, gen := 0 }

/-- An entry is placed, or replaced. -/
def placeTc (p : BPend) (b : Binding) (s : State) : State :=
  let o := bindOf s p.idx
  if o.valid then
    let n := { b with stopped := o.stopped, qstop := o.qstop, gen := o.gen }
    let n := if n.config = o.config then n else { n with gen := (o.gen + 1) % 65536 }
    s |> setBind p.idx n |> uncache p.idx |> loseResvIf (fun r => r.bind == p.idx) .lostBind
      |> completeO p.ctx p.opcode St.ok p.idx
  else
    let live := b.hasOff && partSt s b.part == 0
    let s := s |> setBind p.idx { b with gen := 0 } |> State.when live fun s =>
      { s with maps := { s.maps with offers := s.maps.offers ++ [p.idx] } } |> State.say (.dcOffer b.part p.idx)
    completeO p.ctx p.opcode St.ok p.idx s

/-- An entry is removed: steps 1 to 3 of R122. -/
def removeTc (p : BPend) (s : State) : State :=
  let b := bindOf s p.idx
  let hs := s.maps.held.filter (heldFor s p.idx)
  let posted := p.drain && p.ctx.isNone
  let m := s.maps
  let waits := m.waits.map fun w => if w.idx = p.idx && w.del then { w with deadline := none } else w
  let waits := if p.drain then waits ++ [(⟨p.idx, true, p.ctx, none, posted, s.tick, b⟩ : BWait)] else waits
  let s := { s with maps := { m with
    offers := m.offers.filter (· != p.idx), extents := m.extents.filter (· != p.idx), waits := waits } }
  let s := s |> setBind p.idx Binding.empty |> uncache p.idx |> loseResvIf (fun r => r.bind == p.idx) .lostBind
    |> failHeldOf hs
  let s := s.when (!p.drain) (completeO p.ctx p.opcode St.ok 0)
  delCheck s

/-- The entry leaves RUN: requests that match it are held from now on. -/
def stopTc (p : BPend) (s : State) : State :=
  let b := bindOf s p.idx
  if b.stopped && b.qstop then completeO p.ctx p.opcode St.ok 0 s
  else
    let s := s |> setBind p.idx { b with stopped := true, qstop := false } |> uncache p.idx
      |> loseResvIf (fun r => r.bind == p.idx) .lostBind
    { s with maps := { s.maps with waits := s.maps.waits ++ [(⟨p.idx, false, p.ctx, none, false, s.tick, b⟩ : BWait)] } }

/-- The entry is in RUN: its held requests are looked up again (06 R124). -/
def startTc (p : BPend) (s : State) : State :=
  let ended (f : Fwd) : Fwd := if f.bind = some p.idx then { f with lateB := false } else f
  let endedQ (q : LoqE) : LoqE := if q.bind = p.idx then { q with lateB := false } else q
  let s := { s with maps := { s.maps with fwds := s.maps.fwds.map ended }, home := { s.home with loq := s.home.loq.map endedQ } }
  s |> setBind p.idx { bindOf s p.idx with stopped := false, qstop := false } |> uncache p.idx
    |> completeO p.ctx p.opcode St.ok 0 |> release fun h => decide (h.bind = some p.idx)

/-- A change takes effect. -/
def bindChange (p : BPend) (s : State) : State :=
  let part := match p.what with | .place b => b.part | _ => (bindOf s p.idx).part
  let s := countTc part s
  match p.what with
  | .place b => placeTc p b s
  | .remove => removeTc p s
  | .kill => removeTc p s
  | .stop => stopTc p s
  | .start => startTc p s

/-- BIND_TC: the change of an entry dispatched first becomes visible. It does so within 32 ticks of its dispatch: what moves time on
past that tick, and every lookup after it, makes it visible first (`tcsBefore`). -/
def bindTc (idx : Nat) (s : State) : State :=
  match s.maps.pend.find? fun p => p.idx == idx with
  | none => s
  | some p =>
    let s := { s with maps := { s.maps with pend := dropFirst (fun p => p.idx == idx) s.maps.pend } }
    match p.what with
    | .place _ => bindChange p s
    | _ => if (bindOf s idx).valid then bindChange p s else completeO p.ctx p.opcode St.noEntry 0 s

/-- Changes whose last tick lies before a tick become visible at it (06 R117); `n` bounds their number. -/
def tcsBefore (t : Nat) : Nat → State → State
  | 0, s => s
  | n + 1, s =>
    match s.maps.pend.find? fun p => decide (p.since + 32 < t) with
    | none => s
    | some p => tcsBefore t n (s |> advanceTo (p.since + 32) |> bindTc p.idx)

/-- Changes that are overdue before tick `t` are made visible. -/
def tcsDue (t : Nat) (s : State) : State := unfrozen (fun s => tcsBefore t s.maps.pend.length s) s

/-- BIND_STOP and BIND_START scheduled act at their instant, which is their Tc (02 R40). -/
def bindRunAt (c : Ctx) (op idx : Nat) (what : BChange) (s : State) : State :=
  if !(bindOf s idx).valid then finish c op St.noEntry s
  else if bindBusy s idx then finish c op St.busy s
  else bindChange ⟨idx, what, some c, op, false, 0⟩ s

/-- BIND_STOP (06 R123, 11 R214). -/
def bindStop (c : Ctx) (inst : Option Nat) (idx : Nat) (s : State) : State :=
  match inst with
  | some t => schedCmd c 0x22 t (.bindStop idx) s
  | none => bindRun c 0x22 idx .stop s

/-- BIND_START (06 R123, 11 R214). -/
def bindStart (c : Ctx) (inst : Option Nat) (idx : Nat) (s : State) : State :=
  match inst with
  | some t => schedCmd c 0x23 t (.bindStart idx) s
  | none => bindRun c 0x23 idx .start s

/-- BIND_STOPPED: everything under the entry from before Tc is done; it is STOPPED (06 R123, R138). -/
def bindStopped (idx : Nat) (s : State) : State :=
  match s.maps.waits.find? fun w => w.idx == idx && !w.del with
  | none => s
  | some w =>
    if bindIdle s idx (some w.tc) then
      { s with maps := { s.maps with waits := s.maps.waits.filter (· ≠ w) } }
        |> setBind idx { bindOf s idx with qstop := true } |> completeO w.ctx 0x22 St.ok 0
    else s

/-! ### Dynamic capacity (06 R121, R122) -/

/-- The host accepts or rejects an extent that it was offered. -/
def dcResponse (idx : Nat) (accept : Bool) (s : State) : State :=
  if !s.maps.offers.contains idx then s
  else
    let b := bindOf s idx
    let m := s.maps
    let s := { s with maps := { m with
      offers := m.offers.filter (· != idx), extents := if accept then m.extents ++ [idx] else m.extents } }
    s |> post b.part (if accept then 0x0002 else 0x0003) [(20, idx), (24, b.base), (32, b.bytes)]
      |> State.when (!accept) (bindPend ⟨idx, .remove, none, 0, false, 0⟩)

/-- The host releases an extent: for a BIND_DEL that waits, of its own, or in vain. -/
def releaseDynamicCapacity (part offset length : Nat) (s : State) : State :=
  match s.maps.binds.find? fun e =>
      e.2.valid && e.2.hasOff && e.2.part == part && e.2.base == offset && e.2.bytes == length with
  | none => s.say (.dcRefuse part offset)
  | some (idx, _) =>
    match s.maps.waits.find? fun w => w.idx == idx && w.del && w.deadline.isSome with
    | some w => { s with maps := { s.maps with waits := s.maps.waits.filter (· ≠ w) } }
        |> bindPend ⟨idx, .remove, w.ctx, 0x21, true, 0⟩
    | none =>
      if s.maps.pend.any fun p => p.idx == idx && (decide (p.what = .remove) || decide (p.what = .kill)) then
        s.say (.dcRefuse part offset)
      else bindPend ⟨idx, .remove, none, 0, true, 0⟩ s

/-- The decoder's Error Not Committed bit. -/
def decFail (part v : Nat) (s : State) : State := { s with maps := { s.maps with decFail := tput 0 s.maps.decFail part v } }

/-- DECODER_COMMIT (06 R110). -/
def decoderCommit (part base size ways : Nat) (s : State) : State :=
  let pg := Page.pmd part
  if base % 2 ^ 40 ≠ 0 ∨ 2 ^ 64 ≤ base ∨ size ≠ rd s pg F.PMD_CFG_CAP * 2 ^ 21 ∨ ways ≠ 1 then
    s |> decFail part 1 |> wr pg F.PMD_STS_DEC_COMMIT 0 |> wr pg F.PMD_STS_DEC_ERR 1
  else s |> decFail part 0 |> wr pg F.PMD_STS_DEC_COMMIT 1 |> wr pg F.PMD_BASE_HI_BASE (base / 2 ^ 32)

/-! ### Hot plug (06 R125) -/

/-- A link is the target of an entry of the table, visible or not yet. -/
def isTarget (s : State) (lead : Nat) : Bool := (otherBinds s none).any fun b => b.kind != 1 && b.out == lead

/-- HP_ADD: it completes once presence is reported to the host, at once where the device is there. -/
def hpAdd (c : Ctx) (part vp lead : Nat) (s : State) : State :=
  if vp = 0 ∨ 64 ≤ vp ∨ 128 ≤ part ∨ 512 ≤ lead then finish c 0x30 St.badArg s
  else if roleOf s lead ≠ 2 ∨ !isLead s lead then finish c 0x30 St.badTarget s
  else if (vpOfLead s lead).isSome || isTarget s lead || (vpOf s part vp).lead.isSome then finish c 0x30 St.inUse s
  else
    let here := present s lead
    s |> setVp part vp { vpOf s part vp with lead := some lead, lost := false, rm := none, add := if here then none else some c }
      |> State.when here (vpNote part vp 3)
      |> State.when ((vpOf s part vp).pwr && linkUp s lead) (vpNote part vp 2)
      |> State.when here (finish c 0x30 St.ok)

/-- The port is unbound; an HP_ADD of it that still waits for presence is cancelled (log 129). -/
def unbindVp (part vp : Nat) (s : State) : State :=
  let p := vpOf s part vp
  s |> setVp part vp { p with lead := none, rm := none, lost := false, add := none }
    |> State.when (p.lead.any (present s)) (vpNote part vp 6) |> completeO p.add 0x30 St.cancelled 0

/-- HP_REMOVE. -/
def hpRemove (c : Ctx) (part vp tmo : Nat) (s : State) : State :=
  let p := vpOf s part vp
  if vp = 0 ∨ 64 ≤ vp ∨ 128 ≤ part ∨ p.lead.isNone then finish c 0x31 St.badArg s
  else if p.rm.isSome then finish c 0x31 St.busy s
  else if !p.pwr then s |> unbindVp part vp |> finish c 0x31 St.ok
  else s |> setVp part vp { p with rm := some (c, s.tick + tmo) } |> vpNote part vp 4

/-- SLOT_POWER: the host turns slot power on or off; off ends an HP_REMOVE that waits. -/
def slotPower (part vp : Nat) (on : Bool) (s : State) : State :=
  let p := vpOf s part vp
  if vp = 0 ∨ 64 ≤ vp then s
  else
    let s := s |> setVp part vp { p with pwr := on } |> vpNote part vp 5
    match p.lead with
    | none => s
    | some l =>
      let s := wr (.phy l) F.PHY_LINK_CTL_PERST (!on).toNat s
      match p.rm with
      | some (c, _) => if on then s.when (!p.pwr && linkUp s l) (vpNote part vp 2)
        else s |> State.when (p.pwr && linkUp s l) (vpNote part vp 1) |> unbindVp part vp |> finish c 0x31 St.ok
      | none => s.when (p.pwr != on && linkUp s l) (vpNote part vp (if on then 2 else 1))

end Sys2Proof.Machine
end

