-- ==== Sys2Proof/Machine/Wab.lean ====
section
/-!
DEFINITION. Sys2Proof/Machine/Wab.lean: acknowledgements, stranding, reissue and discarding of WAB entries, drains, the fence,
and the power-loss record (07 R132-R146).
-/
namespace Sys2Proof.Machine

/-- WAB_TARGET_ACK (07 R132, R134): the target acknowledges the oldest forward or reissue of an entry. -/
def wabTargetAck (tile id : Nat) (ok : Bool) (s : State) : State :=
  match s.maps.fwds.find? fun f => decide (f.agent = .wab tile id) && unanswered s f with
  | none => s
  | some f =>
    if !canReceive s f.out then s
    else s |> fwdEnd f (if ok then .ok 0 false else .err) |> afterRetire

/-- The link of a target takes reissues: in L0 and in RUN (07 R136). -/
def reissueOk (s : State) (lead : Nat) : Bool := linkUp s lead && linkRun s lead && !frozen s

/-- WAB_REISSUE: entries of a link that has passed through Detect since their last forward go again, in allocation order (07 R136). -/
def wabReissue (lead : Nat) (s : State) : State :=
  if !reissueOk s lead then s
  else
    let es := s.wab.ents.filter fun e => e.out == lead && e.stranded && e.det
    s.each es fun e => wabSend e.tile e.id

/-- At an epoch boundary: entries whose last forward or reissue was acknowledged with an error go again (07 R136). -/
def wabErrReissue (s : State) : State :=
  let es := s.wab.ents.filter fun e => e.err && !e.det && e.outs == 0 && e.re == 0 && reissueOk s e.out
  s.each es fun e => wabSend e.tile e.id

/-- At an epoch boundary: a binding that has had no STRANDED entry since the boundary before may post WRITE_LOSS again
(07 R135). -/
def lossRearm (s : State) : State :=
  s.each s.wab.notes fun x s =>
    let n := noteOf s x.1
    if strandedOf s x.1 ≠ 0 then setNote x.1 { n with clean := false } s
    else if n.clean then setNote x.1 { n with noted := false, clean := false } s
    else if n.noted then setNote x.1 { n with clean := true } s
    else s

/-- WAB_DISCARD (07 R137). -/
def wabDiscard (c : Ctx) (part idx : Nat) (s : State) : State :=
  if 128 ≤ part ∨ 0x40000 ≤ idx then finish c 0x24 St.badArg s
  else
    let go (e : WabE) : Bool := e.part == part && (idx == noIdx || e.bind == idx) && e.stranded && e.re == 0
    let hit := s.wab.ents.filter go
    let s := { s with wab := { s.wab with ents := s.wab.ents.filter fun e => !go e } }
    let s := s.each (hit.map (·.bind)).dedup fun b s =>
      let s := if strandedOf s b = 0 then setNote b { noteOf s b with recov := 0 } s else s
      post part 0x0006 [(20, b), (24, (hit.filter fun e => e.bind == b).length)] s
    s |> afterRetire |> complete c 0x24 St.ok hit.length 0

/-- DRAIN_COMPLETE (07 R139, R140): requests that waited for the drain go on. -/
def drainComplete (id : Nat) (s : State) : State :=
  match s.wab.drains.find? fun d => d.id == id with
  | none => s
  | some d =>
    if cutDone s d then settle { s with wab := { s.wab with drains := s.wab.drains.filter fun x => x.id != id } } else s

/-- Ticks that a warm reset or FATAL handling waits for the WAB (07 Table 7.4). -/
def wabWaitLimit : Nat := 10000

/-- Entries not yet retired or STRANDED, and DIRTY lines, that a wait still waits for: those of one tile may be left out
(12 R242, 08 R165). -/
def wabWaits (s : State) (except : Option Nat) : Bool :=
  (s.wab.ents.any fun e => !e.stranded && decide (some e.tile ≠ except)) ||
    s.home.alc.any fun a => a.dirty && decide (some a.tile ≠ except)

/-- Lines left under each binding, DIRTY lines of the ALC counted with their fill binding (08 R165). -/
def plrRows (s : State) : List (Nat × Nat × Nat) :=
  let l := (s.wab.ents.map fun e => (e.part, e.bind)) ++ (s.home.alc.filter (·.dirty)).map fun a => (a.fill, a.bind)
  l.dedup.map fun k => (k.1, k.2, l.count k)

/-- PLR_CLEAR: the power-loss record is erased (07 Table 7.10). -/
def plrClear (s : State) : State := { s with wab := { s.wab with plr := [], plrTrunc := 0, plrValid := false } }

def execPlrClear (s : State) : Ans := done s (regGate .wabM plrClear s)

end Sys2Proof.Machine
end

