-- ==== Sys2Proof/Machine/Coherence.lean ====
section
/-!
DEFINITION. Sys2Proof/Machine/Coherence.lean: sharing groups, the Line Order Queue, Halo messages, snoops, atomics and
reservations (08 R149-R174).
-/
namespace Sys2Proof.Machine

/-! ### Sharing groups (08 R149) -/

/-- Number of ones. -/
def ones (v : Nat) : Nat := ((List.range 128).filter (bit v)).length

/-- A membership mask may be committed. -/
def sgOk (s : State) (g mask : Nat) : Bool :=
  let old := tget 0 s.home.sgMem g
  let changed := (List.range 128).filter fun p => bit old p != bit mask p
  decide (ones mask ≤ 32) && changed.all (fun p => partSt s p == 2) &&
    !((otherBinds s none).any fun b => b.shared && b.sgrp == g && bit old b.part && !bit mask b.part)

/-- Commit a membership mask: true when it was accepted. The staged words are used up in either case (10 R192). -/
def sgCommitMask (g mask : Nat) (s : State) : Bool × State :=
  let s := { s with home := { s.home with sgStage := [] } }
  if sgOk s g mask then (true, { s with home := { s.home with sgMem := tput 0 s.home.sgMem g mask } })
  else (false, reject .homeM s)

/-- SG_COMMIT (11 Table 11.5). -/
def sgCommit (c : Ctx) (group : Nat) (mem : BitVec 128) (s : State) : State :=
  if 4096 ≤ group then finish c 0x13 St.badArg s
  else
    let (ok, s) := sgCommitMask group mem.toNat s
    finish c 0x13 (if ok then St.ok else St.cfgInvalid) s

/-- A word of the mask as staged, else as committed for the group. -/
def sgWord (s : State) (g i : Nat) : Nat :=
  match tget none s.home.sgStage i with
  | some v => v
  | none => bits (tget 0 s.home.sgMem g) (32 * i) 32

/-- A write of HOME_SG_MEM0 to MEM2 stages a word (log 34). -/
def sgStageWrite (i v m : Nat) (s : State) : State :=
  let g := rd s .homeM F.HOME_SG_IDX_GRP
  let x := (sgWord s g i &&& (0xFFFFFFFF - m)) ||| (v &&& m)
  { s with home := { s.home with sgStage := tput none s.home.sgStage i (some x) } }

/-- A write of HOME_SG_MEM3 commits the mask. -/
def sgMem3Write (v m : Nat) (s : State) : State :=
  let g := rd s .homeM F.HOME_SG_IDX_GRP
  let w3 := (sgWord s g 3 &&& (0xFFFFFFFF - m)) ||| (v &&& m)
  (sgCommitMask g (sgWord s g 0 + sgWord s g 1 * 2 ^ 32 + sgWord s g 2 * 2 ^ 64 + w3 * 2 ^ 96) s).2

/-! ### Entry and service (08 R154-R157, R163, R166) -/

/-- The predictor counter of a line after an entry of its home (08 R166). -/
def predictor (e : LoqE) (par : Bool) (s : State) : State :=
  let k := 16384 * e.tile + predIdx e.line
  let s := if par then s |> bump (.homeT e.tile) F.HOME_ALC_PAR_PRED_PAR
      |> fun s => { s with home := { s.home with pred := tput 0 s.home.pred k 0 } } else s
  let again := (alcAt s e.tile e.line).isSome ||
    s.home.loq.any fun x => x.tile == e.tile && x.id != e.id && x.stage != .travel && decide (x.line = e.line)
  if (e.kind = .atomic ∨ e.kind = .reserve ∨ e.kind = .cond) ∧ again then
    { s with home := { s.home with pred := tput 0 s.home.pred k (min 7 (tget 0 s.home.pred k + 1)) } }
  else s

/-- The cell that carries a request may give it to the home: it stands there at the head of its VOQ, and the posted barrier is passed
(05 R102, R106, R109). -/
def homeCell (s : State) (e : LoqE) : Option Cell :=
  (voqHeads s e.tile).find? fun c => c.homes.contains e.id && !c.bad && !c.hdrBad && barrierOk s c.barrierStage c

/-- A request has left its cell; the cell is freed with the last of its messages, once its flit is verified (05 R90). -/
def leaveCell (c : Cell) (id : Nat) (s : State) : State :=
  let rest := c.homes.erase id
  let s := modCell c.id (fun k => { k with homes := rest, isOpen := false }) s
  if !rest.isEmpty then s
  else
    let s := postedGo c.barrierStage c s
    if unsure s c then modCell c.id (fun k => { k with stage := .kept }) s else freeCell c.id s

/-- Place of a request in LOQ order: by core clock, then partition, then lead, then the order of entry (08 R154). -/
def loqOrder (s : State) (clk : Nat) (e : LoqE) : Nat :=
  (((s.tick * 16 + clk) * 128 + e.part) * 1024 + e.lead) * 2 ^ 40 + s.home.useSeq

/-- A request takes its entry in the LOQ in a core clock of the tick, and a write has its WB_ACK. -/
def loqTake (clk : Nat) (e : LoqE) (u : Upset) (s : State) : State :=
  let order := loqOrder s clk e
  let s := { s with home := { s.home with useSeq := s.home.useSeq + 1 } }
  s |> modLoq e.id (fun e => { e with stage := .queued, order := order }) |> countHome e.tile 0x28 e.part
    |> predictor e u.pred |> State.when (decide (2 ≤ u.loq)) (raise (tileSrcNo e.tile 13) none none)
    |> State.when e.isWb (wbTaken e.tile e.lead e.line)

/-- The home reads the cell of a request: a header that is lost stops the queue, and the request stays in its cell; bad words are
rebuilt, or mark it POIS (05 R105, R106). -/
def readHome (c : Option Cell) (r : CellRead) (s : State) : State := match c with | some c => noteRead c r s | none => s

/-- LOQ_ENTRY: a request that has come to its home enters the LOQ; a writeback that meets an open snoop of its partition merges
instead. A request for which there is no room stays in its cell (08 R154, R155, R158). -/
def loqEntry (id : Nat) (a : HomeArr) (s : State) : State :=
  match loqOf s id with
  | none => s
  | some e =>
    if frozen s || e.stage != .travel then s
    else
      let c := homeCell s e
      if c.isNone && s.core.cells.any (fun c => c.homes.contains id) then s
      else if c.isSome && judgeRead a.read == .header then readHome c a.read s
      else
        let poison := c.isSome && judgeRead a.read == .lost && e.req.op.isMemWrite
        let s := s |> readHome c a.read |> State.when poison (modLoq id fun e => { e with req := { e.req with poison := true } })
        let e := (loqOf s id).getD e
        let out (s : State) : State := match c with | some c => leaveCell c id s | none => s
        match tryMerge e s with
        | some s => s |> loqDone id |> out
        | none => if loqRoom s e then s |> loqTake a.clk e a.upset |> out else s

/-- Kind of snoop that a request of Table 8.2 broadcasts. -/
def snoopKindOf (r : Req) : SnoopKind :=
  if r.op = .memRd then (match r.md with | .any => .inv | .shared => .data | .invalid => .cur) else .inv

/-- A home reads an LOQ entry with a double error (08 R162). -/
def loqUpset (e : LoqE) (u : Upset) (s : State) : State :=
  s.when (decide (2 ≤ u.loq)) (raise (tileSrcNo e.tile 13) none none)

/-- A CXL.mem or BAR2 request at the head of its line. -/
def serveMem (e : LoqE) (s : State) : State :=
  let excl := if e.kind = .mem then some e.part else none
  match alcAt s e.tile e.line with
  | some a =>
    let quiet := e.req.op = .memRd ∧ e.req.md ≠ .any
    if quiet ∨ a.excl then serveFromAlc e.id s else broadcast e.id .inv excl s |> checkSnoops e.id
  | none =>
    if e.group = noGroup then afterSnoops e.id s
    else broadcast e.id (snoopKindOf e.req) excl s |> checkSnoops e.id

/-- LOQ_SERVICE: the request at the head of its line is served (08 R154, R156). -/
def loqService (id : Nat) (u : Upset) (s : State) : State :=
  match loqOf s id with
  | none => s
  | some e =>
    if frozen s || !atHead s e || !(decide (e.kind = .mem) || decide (e.kind = .io)) then s
    else s |> strike e.tile u |> loqUpset e u |> serveMem e

/-! ### Halo messages and snoops (08 R152, R153, R158-R160, R174) -/

/-- A message under way, by name. -/
def haloOf (s : State) (id : Nat) : Option HaloE := s.home.halo.find? fun m => m.id == id

/-- A message goes its way, unless one that is being repeated stands before it or the ring is split: it arrives and acts, or fails its
check on the link of its way with the number that `bad` names. -/
def haloStep (id : Nat) (bad : Option Nat) (act : HaloE → State → State) (s : State) : State :=
  match haloOf s id with
  | none => s
  | some m =>
    match haloWay s m.src m.dst with
    | none => s
    | some way =>
      if frozen s || haloBehind s m way then s
      else match bad with
        | none => act m (haloDrop id s)
        | some k => match way[k]? with
          | some l => haloFail m l s
          | none => s

/-- HALO_BCAST: a station snoops the local members, or answers at once. -/
def haloBcast (id : Nat) (bad : Option Nat) (s : State) : State :=
  match haloOf s id with
  | some ⟨_, _, _, .bcast .., _, _⟩ =>
    haloStep id bad (fun m s => match m.msg with
      | .bcast loq line group kind excl =>
        let own := ((loqOf s loq).map (·.part)).getD 0
        s |> snoopTile m.dst loq line kind (membersAt s m.dst group excl own) |> stationDone m.dst loq
      | _ => s) s
  | _ => s

/-- HALO_RESP: the home holds one more RESP. -/
def haloResp (id : Nat) (bad : Option Nat) (s : State) : State :=
  match haloOf s id with
  | some ⟨_, _, _, .resp .., _, _⟩ =>
    haloStep id bad (fun m s => match m.msg with
      | .resp loq station members =>
        s |> modLoq loq (fun e => { e with
            stations := e.stations.filter (· != station), timedOut := e.timedOut ++ timeouts members }) |> checkSnoops loq
      | _ => s) s
  | _ => s

/-- A snoop has ended: it no longer holds up its station. -/
def snoopEnd (n : Snoop) (r : HRsp) (s : State) : State :=
  { s with home := { s.home with snoops := modFirst (fun x => x.id == n.id) (fun x => { x with got := some r }) s.home.snoops } }
    |> stationDone n.tile n.loq

/-- A snoop is answered; after a writeback of its line merged, as BIRspI (08 R158). -/
def snoopDone (n : Snoop) (r : HRsp) (s : State) : State := snoopEnd n (if n.wbMerged then .inv else r) s

/-- A held BIRsp has all the acknowledgements that it waits for. -/
def heldGone (n : Snoop) (s : State) : State :=
  match n.heldRsp with
  | some r => snoopDone n r s
  | none => s

/-- WB_ACK: the home has taken a writeback; a BIRsp held for it counts now (08 R153). -/
def wbAck (id : Nat) (bad : Option Nat) (s : State) : State :=
  match haloOf s id with
  | some ⟨_, _, _, .wback .., _, _⟩ =>
    haloStep id bad (fun m s => match m.msg with
      | .wback lead line =>
        let held (n : Snoop) : Bool := n.lead == lead && decide (n.line = line) && n.heldRsp.isSome && n.got.isNone
        let snoops := s.home.snoops.map fun n => if held n then { n with wbLeft := n.wbLeft - 1 } else n
        let s := { s with home := { s.home with wbs := s.home.wbs.erase (lead, line), snoops := snoops } }
        s.each (s.home.snoops.filter fun n => held n && n.wbLeft == 0) heldGone
      | _ => s) s
  | _ => s

/-- HALO_FENCE: a station learns of a fence-out; HOME_SG_FENCED already shows it (log 35). -/
def haloFence (id : Nat) (bad : Option Nat) (s : State) : State :=
  match haloOf s id with
  | some ⟨_, _, _, .fence .., _, _⟩ => haloStep id bad (fun _ s => s) s
  | _ => s

/-- An open snoop on a host link. -/
def snoopOf (s : State) (lead id : Nat) : Option Snoop := s.home.snoops.find? fun n => n.id == id && n.lead == lead && n.got.isNone

/-- BIRSP: held until every writeback of the line that came before it is acknowledged, those after it not counted; after its timeout
it is counted and discarded (08 R153, R160). -/
def birsp (lead snoop : Nat) (shared : Bool) (s : State) : State :=
  if !canReceive s lead then s
  else match snoopOf s lead snoop with
    | none => bump (.homeT (tileOf lead)) F.HOME_FENCE_CNT_LATE_RSP s
    | some n =>
      let r := if shared then HRsp.shared else .inv
      let left := s.home.wbs.count (lead, n.line)
      if n.heldRsp.isSome then s
      else if left = 0 then snoopDone n r s
      else { s with home := { s.home with
          snoops := modFirst (fun x => x.id == snoop) (fun x => { x with heldRsp := some r, wbLeft := left }) s.home.snoops } }

/-- BICONFLICT (08 R159): the home acknowledges it; the host answers the snoop afterwards. It takes an entry of the LOQ for as long as
the home takes to do so; while all of them are in use it waits, without effect (08 R155). -/
def biconflict (lead snoop : Nat) (s : State) : State :=
  if !canReceive s lead then s
  else match snoopOf s lead snoop with
    | none => s
    | some n =>
      let home := ((loqOf s n.loq).map (·.tile)).getD n.tile
      if 4096 ≤ (s.home.loq.filter fun x => x.tile == home && x.stage != .travel).length then s
      else { s with home := { s.home with
          snoops := modFirst (fun x => x.id == snoop) (fun x => { x with conflict := true }) s.home.snoops } }
        |> bump (.homeT home) F.HOME_RACE_CNT_CONFLICT |> State.say (.bicAck lead snoop)

/-- A partition is fenced out of a sharing group (08 R160); each of the two queues gets an event that the other also gets
(11 Table 11.7). -/
def fenceOut (n : Snoop) (group : Nat) (s : State) : State :=
  let m := tget 0 s.home.sgFenced group
  let s := { s with home := { s.home with sgFenced := tput 0 s.home.sgFenced group (m ||| 2 ^ n.part) } }
  let pay := [(16, n.part), (18, group), (20, n.line.out), (22, n.line.ld), (24, n.line.line * 64)]
  s |> haloAll n.tile (.fence n.part group) |> postC true n.part 0x0007 pay |> postC true 128 0x0007 pay
    |> startDrain n.part .error

/-! ### Atomics and reservations (08 R167-R172) -/

/-- A request of a kind at the head of its line, its entry read. -/
def headOf (s : State) (id : Nat) (k : LoqKind) : Option LoqE :=
  (loqOf s id).filter fun e => decide (e.kind = k) && atHead s e && !frozen s

/-- The line is predicted hot (08 R166). -/
def predHot (s : State) (e : LoqE) : Bool :=
  decide (rdf s .homeM F.HOME_PRED_CFG_THRESH ≤ tget 0 s.home.pred (16384 * e.tile + predIdx e.line))

/-- How an AtomicOp runs when the ALC does not hold its line (08 R169): 1 keep the line, 2 near memory, 3 write back. -/
def atomicPlan (s : State) (e : LoqE) : Nat :=
  if predHot s e then 1 else if (tget (false, 0) s.home.nma e.line.out).1 then 2 else 3

/-- ATOMIC_OP (08 R169). -/
def atomicOp (id : Nat) (u : Upset) (s : State) : State :=
  match headOf s id .atomic with
  | none => s
  | some e =>
    let s := s |> strike e.tile u |> loqUpset e u
    match alcAt s e.tile e.line with
    | some a => if a.excl then runInAlc id s else broadcast id .inv none s |> checkSnoops id
    | none => s |> modLoq id (fun q => { q with plan := atomicPlan s e }) |> broadcast id .inv none |> checkSnoops id

/-- NEAR_MEMORY_COMPLETION (08 R170). -/
def nearMemoryCompletion (id : Nat) (ok : Bool) (data : LineData) (s : State) : State :=
  match s.maps.fwds.find? fun f => (match f.agent with | .atomic _ q => q == id | _ => false) && unanswered s f with
  | none => s
  | some f =>
    if !canReceive s f.out then s
    else s |> fwdEnd f (if ok then .ok data.toNat false else .err) |> afterRetire

/-- RESERVE_READ (08 R171). -/
def reserveRead (id : Nat) (u : Upset) (s : State) : State :=
  match headOf s id .reserve with
  | none => s
  | some e =>
    let s := s |> strike e.tile u |> loqUpset e u
    if (alcAt s e.tile e.line).isSome then runInAlc id s else broadcast id .inv none s |> checkSnoops id

/-- CONDITIONAL_WRITE (08 R172). -/
def conditionalWrite (id : Nat) (s : State) : State :=
  match headOf s id .cond with
  | none => s
  | some e =>
    match condStatus s e with
    | 0 =>
      match alcAt s e.tile e.line with
      | some a => if a.excl then runInAlc id s else broadcast id .inv none s |> checkSnoops id
      | none => condFail 1 e s
    | st => condFail st e s

/-! ### At an epoch boundary (08 R164, R166) -/

/-- Every DECAY epochs, every predictor counter above 0 falls by 1. -/
def predDecay (s : State) : State :=
  let n := s.home.predEpochs + 1
  if n < rdf s .homeM F.HOME_PRED_CFG_DECAY then { s with home := { s.home with predEpochs := n } }
  else
    let pred := (s.home.pred.map fun e => (e.1, e.2 - 1)).filter fun e => e.2 != 0
    { s with home := { s.home with predEpochs := 0, pred := pred } }

/-- Cold lines without RESV leave the cache. -/
def coldDrop (s : State) : State :=
  let th := rdf s .homeM F.HOME_PRED_CFG_THRESH
  s.each (s.home.alc.filter fun a =>
      !a.resv && decide (tget 0 s.home.pred (16384 * a.tile + predIdx a.line) < th)) fun a => alcDrop a.tile a.line

end Sys2Proof.Machine
end

