-- ==== Sys2Proof/Machine/Partition.lean ====
section
/-!
DEFINITION. Sys2Proof/Machine/Partition.lean: stop, quiescence, restart and reset of partitions (10 R188-R202).
-/
namespace Sys2Proof.Machine

/-! ### Stopping (10 R188, R190) -/

/-- The stop of a partition takes effect: Tc is the present tick. -/
def stopAtTc (part : Nat) (s : State) : State :=
  s |> setPartSt part 1
    |> modPart part (fun p => { p with
        stopAt := some s.tick, qDue := some (s.tick + rd s (.part part) F.PART_CFG_QTMO) })
    |> startDrain part .stop

/-- A stop is requested; a command that must wait is kept. During a reset the partition leaves RUN in the same way, and the stop ends
with the reset (10 Tables 10.1, 10.8). -/
def partStopReq (part : Nat) (c : Option Ctx) (s : State) : State :=
  if resetting s part then
    (s.when (partSt s part == 0) (stopAtTc part))
      |> modPart part fun p => { p with stopCtx := p.stopCtx ++ c.toList, intoStop := true }
  else match partSt s part with
    | 0 => s |> stopAtTc part |> modPart part fun p => { p with stopCtx := p.stopCtx ++ c.toList }
    | 1 => modPart part (fun p => { p with stopCtx := p.stopCtx ++ c.toList }) s
    | _ => completeO c 0x10 St.ok 0 s

/-- PART_STOP (10 R188, R194). -/
def partStop (c : Ctx) (part : Nat) (s : State) : State :=
  if 128 ≤ part then finish c 0x10 St.badArg s
  else if (restartEnt s part).isSome then finish c 0x10 St.armed s
  else partStopReq part (some c) s

/-- PART_STOP as it reaches the partition's page. -/
def partStopCmd (c : Ctx) (part : Nat) (s : State) : State :=
  mirrorGate (part < 128) (.part part) c 0x10 (partStop c part) s

/-- A write of BLK_CTL of a PART page (10 R188, R194). -/
def partRunWrite (part v m : Nat) (s : State) : State :=
  if F.BLK_CTL_RUN.of m = 0 then s
  else
    let run := F.BLK_CTL_RUN.merge (partSt s part) v m
    if run = 3 ∨ (restartEnt s part).isSome then reject (.part part) s
    else if run ≠ 0 then partStopReq part none s
    else match restartAdd part (restartBoundary s) .none s with
      | (.inl _, s) => s
      | (.inr _, s) => reject (.part part) s

/-- A QUIESCING partition becomes STOPPED: PART_STOP commands complete, and BIND commands that waited for it act. -/
def partStopped (part status : Nat) (s : State) : State :=
  let w := (partOf s part).stopCtx
  s |> setPartSt part 2 |> modPart part (fun p => { p with stopAt := none, qDue := none, stopCtx := [] })
    |> State.each w (fun c => finish c 0x10 status) |> bindLater part

/-- The conditions of R190: what was forwarded before Tc has completed, the drain of Tc is done, no LOQ holds a request, no
atomic forward is outstanding. What a SHARED binding let proceed after Tc is not waited for. -/
def quiesced (s : State) (part : Nat) : Bool :=
  let tc := (partOf s part).stopAt
  !(s.maps.fwds.any fun f => f.part == part && !f.late &&
      (match f.agent with | .host | .atomic _ _ => true | _ => false)) &&
    !(s.wab.drains.any fun d => d.part == part && decide (d.why = .stop) && decide (some d.start = tc)) &&
    !(s.home.loq.any fun e => e.part == part && !e.late)

/-- PART_QUIESCED (10 R190). -/
def partQuiesced (part : Nat) (s : State) : State :=
  if partSt s part = 1 ∧ !resetting s part ∧ quiesced s part then partStopped part St.ok s else s

/-- Requests of a partition that are outstanding fail toward their requesters: those forwarded, and those in a LOQ, which are
still served, their responses discarded (10 R190). -/
def failOutstanding (part : Nat) (s : State) : State :=
  let fs := s.maps.fwds.filter fun f => f.part == part && decide (f.agent = .host) && !f.late && !f.dropped
  let qs := s.home.loq.filter fun e => e.part == part && !e.late && !e.dropRsp && !e.isDbg
  let s := s.each fs fun f s =>
    refuse f.part f.lead f.fromVp f.job FK.tgtDown (f.bind.getD noIdx) (f.errmode s) f.req s
  let s := s.each qs fun e => loqRefuse e FK.tgtDown
  { s with
    maps := { s.maps with
      fwds := s.maps.fwds.map fun f => if fs.any (·.id == f.id) then { f with dropped := true } else f }
    home := { s.home with
      loq := s.home.loq.map fun e => if qs.any (·.id == e.id) then { e with dropRsp := true } else e } }

/-! ### Restart (10 R194, R195) -/

/-- PART_RESTART_AT (10 R194, 11 R214). -/
def partRestartAt (c : Ctx) (inst : Option Nat) (part : Nat) (s : State) : State :=
  match inst with
  | none => finish c 0x11 St.badArg s
  | some t =>
    if 128 ≤ part then finish c 0x11 St.badArg s
    else match restartAdd part t (.cmd c 0x11) s with
      | (.inl i, s) => completeInterim c 0x11 i s
      | (.inr st, s) => finish c 0x11 st s

/-- The restart of a partition at its instant, its entry having left the table (10 R195). -/
def restartNow (part : Nat) (e : SchedEnt) (s : State) : State :=
  let mine (i : Nat) : Bool := (bindOf s i).part == part
  let ext := (s.maps.binds.filter fun e => e.2.valid && e.2.hasOff && e.2.part == part).map (·.1)
  let s := { s with
    maps := { s.maps with
      fwds := s.maps.fwds.map fun f => if f.part == part then { f with late := false } else f
      offers := s.maps.offers.filter fun i => !mine i
      extents := (s.maps.extents.filter fun i => !mine i) ++ ext }
    home := { s.home with loq := s.home.loq.map fun q => if q.part == part then { q with late := false } else q } }
  s |> setPartSt part 0 |> modPart part (fun p => { p with stopAt := none, qDue := none })
    |> release (fun h => h.part == part) |> ownerDone e St.ok 0

/-! ### Reset (10 R198-R202) -/

/-- PART_RESET (10 R199): it completes at step 6. -/
def partReset (c : Ctx) (part : Nat) (s : State) : State :=
  if 128 ≤ part then finish c 0x12 St.badArg s else partResetStart part 1 (some c) s

/-- PART_RESET as it reaches the partition's page. -/
def partResetCmd (c : Ctx) (part : Nat) (s : State) : State :=
  mirrorGate (part < 128) (.part part) c 0x12 (partReset c part) s

/-- A write of PART_CTL (10 R199). -/
def partCtlWrite (part v m : Nat) (s : State) : State :=
  if F.PART_CTL_RESET.of v &&& F.PART_CTL_RESET.of m = 0 then s else partResetStart part 1 none s

/-- HOT_RESET (10 R198): received on a HOST link in L0, also a STOPPED one; the run state governs forwarding alone (03 R48). -/
def hotReset (lead : Nat) (s : State) : State :=
  if roleOf s lead = 1 ∧ linkUp s lead ∧ ¬ frozen s ∧ s.rst.warmAt = none then partResetStart (hpartOf s lead) 2 none s else s

/-- Steps 2 to 5 of a reset are complete (10 Table 10.6). -/
def resetDone (s : State) (part : Nat) : Bool :=
  !(s.wab.drains.any fun d => d.part == part && decide (d.why = .reset)) &&
    !(s.home.loq.any fun e => e.part == part) &&
    !(s.home.snoops.any fun n => (partOf s part).snoops.contains n.id && n.got.isNone)

/-- Fence-outs of a partition clear (10 R201). -/
def clearFences (part : Nat) (s : State) : State :=
  let f := (s.home.sgFenced.map fun e => (e.1, if bit e.2 part then e.2 - 2 ^ part else e.2)).filter fun e => e.2 != 0
  { s with home := { s.home with sgFenced := f } }

/-- The partition sources of the tiles, by tile: the source number and its page (12 R232). -/
def partSources : List (Nat × Page) :=
  (List.range 8).flatMap fun t =>
    [(tileSrcNo t 1, .cell t), (tileSrcNo t 8, .bindT t), (tileSrcNo t 10, .wabT t), (tileSrcNo t 12, .homeT t)]

/-- The partition's ERR_PART bits clear, and PARTITION handling closes (12 R230, R232, R235). -/
def closePartition (part : Nat) (s : State) : State :=
  s.each partSources fun x s =>
    if errPartBit s x.2 part then
      s |> setErrPart x.2 part false |> closeHandling (fun h => h.react == React.partition && decide (h.part = some part)) x.1
        |> autoClear x.1
    else s

/-- PART_RESET_DONE: step 6 of a reset (10 R200-R202). -/
def partResetDone (part : Nat) (s : State) : State :=
  if !resetting s part || !resetDone s part then s
  else
    let p := partOf s part
    let cause := rd s (.part part) F.PART_STS_RST_CAUSE
    let s := s |> clearFences part |> pmdReset part |> wr (.part part) F.PART_STS_RESETTING 0
      |> wr (.part part) F.PART_CTL_RESET 0
      |> modPart part (fun p => { p with resetAt := none, resetCtx := [], intoStop := false, snoops := [] })
      |> closePartition part |> post part 0x0009 [(16, cause)]
      |> State.each p.resetCtx fun c => finish c 0x12 St.ok
    s.when (p.intoStop || partSt s part == 1) (partStopped part St.ok)

end Sys2Proof.Machine
end

