-- ==== Sys2Proof/Machine/Flags.lean ====
section
/-!
DEFINITION. Sys2Proof/Machine/Flags.lean: what the status fields of the pages read: every field that the manual derives from
other state rather than keeping it (the register tables of files 01 to 17; 17 R323-R328).
-/
namespace Sys2Proof.Machine

/-! ### The common header (17 Tables 17.4-17.10) -/

/-- ERR_STICKY of a page. -/
def stickyOf (s : State) (pg : Page) : Nat :=
  ((pg.srcBits.filter fun k => (srcOf s (pg.srcNum k)).sticky).map (2 ^ ·)).sum

/-- A write to a SCHED page waits for the boundary (17 Table 17.7). -/
def schedPend (s : State) (t : Nat) : Bool :=
  s.egr.quantaNew.any (fun e => e.2.isSome && e.1 / (64 * 385) == t) ||
    s.egr.shpNew.any (fun e => e.2.isSome && e.1 / (64 * 128) == t)

def viewHdr (s : State) (pg : Page) (f : Fld) : Nat :=
  if f = F.BLK_ID_TYPE then pg.typ
  else if f = F.BLK_ID_SCOPE then pg.scope
  else if f = F.BLK_ID_INST then pg.inst
  else if f = F.BLK_ID_VER then 1
  else if f = F.BLK_CAP_SRCS then pg.srcBits.length
  else if f = F.BLK_CAP_EVWIN then (match pg with | .evq _ => 1 | _ => 0)
  else if f = F.BLK_CAP_ERRPART then pg.errPart.toNat
  else if f = F.BLK_CAP_BANK then pg.bank.toNat
  else if f = F.BLK_CAP_FOLLOW then pg.follow.toNat
  else if f = F.BLK_CAP_RUNCTL then pg.runctl.toNat
  else if f = F.BLK_CTL_RUN then (if pg.runctl || pg.follow then pageRun s pg else 0)
  else if f = F.BLK_STS_RWE_PEND then
    (rwePend s pg || (match pg with | .sched t => schedPend s t | _ => false)).toNat
  else if f = F.BLK_STS_ERR_ANY then (stickyOf s pg != 0).toNat
  else if f = F.ERR_STICKY_STICKY then stickyOf s pg
  else if f = F.ERR_INJECT_INJECT then 0
  else rd s pg f

/-! ### Module pages -/

/-- A condition of 12 R233 persists. -/
def degCond (s : State) : Bool :=
  (s.mode.isUp && (List.range 2).any fun c => !(tget Core1.reset s.flt.cores c).alive) || !s.mq.lost.isEmpty ||
    !s.pwr.drops.isEmpty || (!s.glr.bypass && (s.glr.inP.st == 0 || s.glr.outP.st == 0)) ||
    !s.core.paths.isEmpty || !s.core.chans.isEmpty || !s.home.haloDown.isEmpty ||
    (leads s).any fun p => rdb s (.phy p) F.PHY_LINK_STS_DEGRADED

/-- Phases needed on a rail (15 Table 15.6); 0 for a number that names none. -/
def railNeeds (r : Nat) : Nat :=
  match r with
  | 8 => 12 | 9 => 4 | 10 => 2 | 11 => 1
  | r => if r < 8 then 2 else 0

/-- PWR_STS.PATH (15 Table 15.12). -/
def PathSt.code : PathSt → Nat
  | .opened => 0 | .precharge => 1 | .ramp => 2 | .closed => 3 | .holdup => 4 | .backoff => 5

/-- The rails in the order in which they come up: VAUX, VMD, VT0 to VT7, VSA, VSH (15 R286, Table 15.25). -/
def railOrder : List Nat := [11, 10, 0, 1, 2, 3, 4, 5, 6, 7, 8, 9]

def viewPwr (s : State) (f : Fld) : Nat :=
  let p := s.pwr
  let rail := rd s .pwr F.PWR_RAIL_IDX_RAIL
  let known : Bool := rail < 12
  if f = F.PWR_STS_PG_INT then p.pgInt.toNat
  else if f = F.PWR_STS_PWRWARN then p.warn.toNat
  else if f = F.PWR_STS_HOLDUP_FULL ∨ f = F.PWR_HOLDUP_FULL then p.full.toNat
  else if f = F.PWR_STS_MEAS_FB then p.measFb.toNat
  else if f = F.PWR_STS_BRK_MODE then (if p.stTest then 2 else p.brk)
  else if f = F.PWR_STS_RETRY then min 3 p.fails
  else if f = F.PWR_STS_LATCHED then p.latched.toNat
  else if f = F.PWR_STS_OV then (decide (19000 ≤ p.vin)).toNat
  else if f = F.PWR_STS_PATH then p.path.code
  else if f = F.PWR_TRIP_STS_TRIPS then min 255 p.trips
  else if f = F.PWR_TRIP_STS_POINT then p.point
  else if f = F.PWR_TRIP_STS_CAUSE then p.cause
  else if f = F.PWR_BRK_CTL_SELFTEST then p.stTest.toNat
  else if f = F.PWR_BRK_CTL_ST_FAIL then p.stFail.toNat
  else if f = F.PWR_ADC_IV_I then p.adcI
  else if f = F.PWR_ADC_IV_V then min p.vin 0xFFFF
  else if f = F.PWR_ADC_P_P then p.adcP
  else if f = F.PWR_ENERGY_LO_E_LO then p.energy % 2 ^ 32
  else if f = F.PWR_HOLDUP_VSTORE then p.vstore
  else if f = F.PWR_RAIL_STS_IN_REG then (known && decide (railOrder.idxOf rail < p.rails) && !p.unreg.contains rail).toNat
  else if f = F.PWR_RAIL_STS_FAILED then
    if known then ((p.drops.filter fun d => d.1 == rail).map fun d => 2 ^ d.2).sum else 0
  else if f = F.PWR_RAIL_STS_PHASES then (if known then railNeeds rail + 2 else 0)
  else if f = F.PWR_RAIL_STS_NEEDED then railNeeds rail
  else if f = F.PWR_CURVE_CTL_COMMIT then 0
  else rd s .pwr f

def viewMod (s : State) (f : Fld) : Nat :=
  if f = F.MOD_STS_MODE then s.mode.code
  else if f = F.MOD_STS_RST_CAUSE then s.rst.cause
  else if f = F.MOD_STS_REFCLK_OK then s.rst.refOk.toNat
  else if f = F.MOD_RESET_COLD ∨ f = F.MOD_RESET_WARM ∨ f = F.MOD_RESET_KEY then 0
  else rd s .mod f

/-- FSYNC is selected; the ring is selected (02 Table 2.10). -/
def fsSel (s : State) : Bool := rd s .ftm F.FTM_CFG_SRC == 0 || rd s .ftm F.FTM_CFG_SRC == 2
def ringSel (s : State) : Bool := rd s .ftm F.FTM_CFG_SRC == 0 || rd s .ftm F.FTM_CFG_SRC == 1

/-- The FTM is in UNSET, where the OK bit of each selected source is 1 (02 R359). -/
def ftmUnset (s : State) : Bool := rd s .ftm F.FTM_STS_STATE == 0

def viewFtm (s : State) (f : Fld) : Nat :=
  if f = F.FTM_SRC_CNT_FSYNC_MISS then min (rd s .ftm f + (missOver s).toNat) 0xFF else
  if f = F.FTM_STS_FSYNC_OK then (fsSel s && (ftmUnset s || rdb s .ftm f)).toNat
  else if f = F.FTM_STS_RING_OK then (ringSel s && (ftmUnset s || rdb s .ftm f)).toNat
  else if f = F.FTM_TIME_LO_TIME_LO then s.time % 2 ^ 32
  else if f = F.FTM_STS_EMBER_RUN then (emberRuns s).toNat
  else if f = F.FTM_STS_HOLDOVER then (rd s .ftm F.FTM_STS_STATE == 2).toNat
  else if f = F.FTM_SCHED_STS_USED then s.sched.length
  else if f = F.FTM_SCHED_CANCEL_IDX then 0
  else rd s .ftm f

/-- Sticky word `w` of the source list (12 Tables 12.14, 12.21). -/
def stickyWord (s : State) (w : Nat) : Nat :=
  ((List.range 32).filter fun j => (srcOf s (32 * w + j)).sticky).map (2 ^ ·) |>.sum

/-- FLT_SUMi. -/
def sumWord (s : State) (i : Nat) : Nat :=
  ((List.range 32).filter fun j => (stickyWord s (32 * i + j) != 0 : Bool)).map (2 ^ ·) |>.sum

/-- FLT_DUMP_STS.BUSY: a dump is being written. -/
def dumpBusy (s : State) : Bool := s.flt.dump.any fun d => !d.done

def viewFlt (s : State) (f : Fld) : Nat :=
  let n := rd s .flt F.FLT_SRC_IDX_SRC
  let x := srcOf s n
  let i := srcInfo n
  if f = F.FLT_STS_MODE then s.mode.code
  else if f = F.FLT_STS_DEG_COND then (degCond s).toNat
  else if f = F.FLT_STS_WIRE_ANY then (s.flt.srcs.any fun e => e.2.pair == 2).toNat
  else if f = F.FLT_STS_FATAL then s.flt.fatal.isSome.toNat
  else if f = F.FLT_SUM0_SUM then sumWord s 0
  else if f = F.FLT_SUM1_SUM then sumWord s 1
  else if f = F.FLT_SUM2_SUM then bits (sumWord s 2) 0 16
  else if f = F.FLT_SRC_STICKY then x.sticky.toNat
  else if f = F.FLT_SRC_OPEN then x.opened.toNat
  else if f = F.FLT_SRC_PAIR then (if i.isSome then x.pair else 3)
  else if f = F.FLT_SRC_ALLOWED then (i.map (·.allowed)).getD 0
  else if f = F.FLT_SRC_REACT then reactOf s n
  else if f = F.FLT_SRC_CNT_CNT then x.cnt
  else if f = F.FLT_STK_DATA_STICKY then stickyWord s (rd s .flt F.FLT_STK_IDX_WORD)
  else if f = F.FLT_WDOG_FEED_CORE then 0
  else if f = F.FLT_MC_STS_ACTIVE then s.flt.active
  else if f = F.FLT_MC_STS_MC0_OK then (tget Core1.reset s.flt.cores 0).alive.toNat
  else if f = F.FLT_MC_STS_MC1_OK then (tget Core1.reset s.flt.cores 1).alive.toNat
  else if f = F.FLT_DUMP_SEQ_LAST then Config.dumpSeq + s.flt.seqs
  else if f = F.FLT_DUMP_STS_BUSY then (dumpBusy s).toNat
  else rd s .flt f

/-- Ring state (14 R278): 0 WHOLE, 1 WRAPPED, 2 SPLIT, 3 ALONE; and BREAKS. -/
def glrBreaks (s : State) : Nat := (s.glr.members.filter fun m => !m.beat.outUp).length
def glrState (s : State) : Nat :=
  if s.glr.bypass ∨ (s.glr.inP.st = 0 ∧ s.glr.outP.st = 0) then 3
  else match glrBreaks s with | 0 => 0 | 1 => 1 | _ => 2

/-- GLR_DLY of a port: the mean of its last 16 exchanges (14 R279). -/
def GPort.delay (p : GPort) : Nat := if p.dlyOk then p.delays.sum / 16 else 0

def viewGlr (s : State) (f : Fld) : Nat :=
  let g := s.glr
  let m := g.members[rd s .glr F.GLR_MEM_IDX_SLOT]?
  let slot := tget GSlot.reset g.slots (rd s .glr F.GLR_RST_IDX_SLOT)
  let mem (k : Member → Nat) : Nat := (m.map k).getD 0
  if f = F.GLR_STS_BREAKS then min 15 (glrBreaks s)
  else if f = F.GLR_STS_MEMBERS then g.members.length
  else if f = F.GLR_STS_BYPASS then g.bypass.toNat
  else if f = F.GLR_STS_STATE then glrState s
  else if f = F.GLR_PORT_STS_OUT_NBR then g.outP.nbr
  else if f = F.GLR_PORT_STS_IN_NBR then g.inP.nbr
  else if f = F.GLR_PORT_STS_OUT_DLY_OK ∨ f = F.GLR_DLY_OUT_VALID then g.outP.dlyOk.toNat
  else if f = F.GLR_PORT_STS_IN_DLY_OK ∨ f = F.GLR_DLY_IN_VALID then g.inP.dlyOk.toNat
  else if f = F.GLR_PORT_STS_OUT_STATE then g.outP.st
  else if f = F.GLR_PORT_STS_IN_STATE then g.inP.st
  else if f = F.GLR_DLY_OUT_DELAY then g.outP.delay
  else if f = F.GLR_DLY_IN_DELAY then g.inP.delay
  else if f = F.GLR_MEM_DATA_VALID then m.isSome.toNat
  else if f = F.GLR_MEM_DATA_MODID then mem (·.modid)
  else if f = F.GLR_MEM_DATA_MODE then mem (·.beat.mode)
  else if f = F.GLR_MEM_DATA_FTM then mem (·.beat.ftm)
  else if f = F.GLR_MEM_DATA_EMBER then mem (·.beat.ember.toNat)
  else if f = F.GLR_MEM_DATA_IN_UP then mem (·.beat.inUp.toNat)
  else if f = F.GLR_MEM_DATA_OUT_UP then mem (·.beat.outUp.toNat)
  else if f = F.GLR_MEM_DATA_TMASTER then mem (·.beat.tmaster.toNat)
  else if f = F.GLR_MEM_DATA_AGE then mem fun m => if m.heard then 0 else min 15 (m.missed + 1)
  else if f = F.GLR_MEM_DATA_SELF then mem fun m => (m.modid == modid s).toNat
  else if f = F.GLR_RST_REQ_GO ∨ f = F.GLR_RST_REQ_CANCEL then 0
  else if f = F.GLR_RST_REQ_DST then slot.dst
  else if f = F.GLR_RST_REQ_PART then slot.part
  else if f = F.GLR_RST_T_LO_T then slot.inst % 2 ^ 32
  else if f = F.GLR_RST_T_HI_T then slot.inst / 2 ^ 32
  else if f = F.GLR_RST_RES_STATE then slot.st
  else if f = F.GLR_RST_RES_STATUS then slot.status
  else if f = F.GLR_RST_RES_SIDX then slot.sidx
  else rd s .glr f

/-- State of a key-hash slot as it reads (16 Table 16.7). -/
def keySt (s : State) (slot : Nat) : Nat := if s.sec.keysSet then tget 0 s.sec.keys slot else Config.keyState slot

/-- The fused SVN minimum (16 R309). -/
def svnMinNow (s : State) : Nat := s.sec.svnMin.getD Config.svnMin

def viewSec (s : State) (f : Fld) : Nat :=
  if f = F.SEC_BOOT_STS_FAIL1 then s.sec.fail1
  else if f = F.SEC_BOOT_STS_FAIL0 then s.sec.fail0
  else if f = F.SEC_BOOT_STS_PREF then s.sec.pref.getD (Config.prefCopy % 2)
  else if f = F.SEC_BOOT_STS_NONE then s.sec.noImage.toNat
  else if f = F.SEC_BOOT_STS_BOOTED then s.sec.booted
  else if f = F.SEC_FLASH_STS_RESULT then s.sec.flashRes
  else if f = F.SEC_FLASH_STS_COPY then s.sec.flashCopy
  else if f = F.SEC_FLASH_STS_BUSY then s.sec.flashBusy.toNat
  else if f = F.SEC_KEY_STS_RUN_SLOT then (s.sec.running.map (·.slot)).getD 0
  else if f = F.SEC_KEY_STS_STATE then ((List.range 4).map fun i => (keySt s i % 4) * 4 ^ i).sum
  else if f = F.SEC_SVN_RUN then (s.sec.running.map (·.svn)).getD 0
  else if f = F.SEC_SVN_MIN then svnMinNow s
  else if f = F.SEC_SERIAL_LO_SERIAL then Config.serial.toNat % 2 ^ 32
  else if f = F.SEC_SERIAL_HI_SERIAL then Config.serial.toNat / 2 ^ 32
  else if f = F.SEC_KEY_REVOKE_KEY ∨ f = F.SEC_KEY_REVOKE_SLOT ∨ f = F.SEC_SVN_CTL_COMMIT ∨ f = F.SEC_SVN_CTL_KEY then 0
  else rd s .sec f

/-- The nonce that is shown (16 R315). -/
def nonceNow (s : State) : Nat := (s.dbg.nonce.getD 0).toNat

def viewDbg (s : State) (f : Fld) : Nat :=
  if f = F.DBG_STS_DISABLED then Config.dbgDisable.toNat
  else if f = F.DBG_STS_SCOPE then s.dbg.scope
  else if f = F.DBG_STS_UNLOCKED then s.dbg.unlocked.toNat
  else if f = F.DBG_NONCE0_NONCE then bits (nonceNow s) 0 32
  else if f = F.DBG_NONCE1_NONCE then bits (nonceNow s) 32 32
  else if f = F.DBG_NONCE2_NONCE then bits (nonceNow s) 64 32
  else if f = F.DBG_NONCE3_NONCE then bits (nonceNow s) 96 32
  else if f = F.DBG_MEM_CTL_BUSY then s.dbg.busy.toNat
  else if f = F.DBG_CTL_RELOCK ∨ f = F.DBG_MEM_CTL_GO then 0
  else rd s .dbg f

def viewTrnk (s : State) (f : Fld) : Nat :=
  let e := tget (false, 0) s.ports.trnkRt (rd s .trnk F.TRNK_RT_IDX_IDX)
  if f = F.TRNK_RT_DATA_VALID then e.1.toNat else if f = F.TRNK_RT_DATA_LEAD then e.2 else rd s .trnk f

def viewBindM (s : State) (f : Fld) : Nat :=
  if f = F.BIND_STS_USED then (s.maps.binds.filter fun e => e.2.valid).length else rd s .bindM f

def viewWabM (s : State) (f : Fld) : Nat :=
  let row := s.wab.plr[rd s .wabM F.WAB_PLR_IDX_IDX]?
  if f = F.WAB_PLR_STS_VALID then s.wab.plrValid.toNat
  else if f = F.WAB_PLR_STS_ENTRIES then s.wab.plr.length
  else if f = F.WAB_PLR_STS_TRUNC then s.wab.plrTrunc
  else if f = F.WAB_PLR_DATA_PART then (row.map (·.1)).getD 0
  else if f = F.WAB_PLR_DATA_BIND then (row.map (·.2.1)).getD 0
  else if f = F.WAB_PLR_LINES_LINES then (row.map (·.2.2)).getD 0
  else rd s .wabM f

def viewHomeM (s : State) (f : Fld) : Nat :=
  let g := rd s .homeM F.HOME_SG_IDX_GRP
  let mem (i : Nat) : Nat := bits (tget 0 s.home.sgMem g) (32 * i) 32
  let fen (i : Nat) : Nat := bits (tget 0 s.home.sgFenced g) (32 * i) 32
  let n := tget (false, 0) s.home.nma (rd s .homeM F.HOME_NMA_IDX_LEAD)
  if f = F.HOME_SG_MEM0_MEM then mem 0 else if f = F.HOME_SG_MEM1_MEM then mem 1
  else if f = F.HOME_SG_MEM2_MEM then mem 2 else if f = F.HOME_SG_MEM3_MEM then mem 3
  else if f = F.HOME_SG_FENCED0_FENCED then fen 0 else if f = F.HOME_SG_FENCED1_FENCED then fen 1
  else if f = F.HOME_SG_FENCED2_FENCED then fen 2 else if f = F.HOME_SG_FENCED3_FENCED then fen 3
  else if f = F.HOME_NMA_LO_BASE_LO then bits n.2 21 11
  else if f = F.HOME_NMA_LO_EN then n.1.toNat
  else if f = F.HOME_NMA_HI_BASE_HI then n.2 / 2 ^ 32
  else rd s .homeM f

def viewEvq (s : State) (q : Nat) (f : Fld) : Nat :=
  if f = F.MQ_EVQ_STS_COUNT then (evList s q).length
  else if f = F.MQ_EVQ_HEAD_SEQ then
    match evList s q with | e :: _ => e.seq | [] => rd s (.evq q) F.MQ_EVQ_NEXT_SEQ
  else rd s (.evq q) f

def viewMq (s : State) (ep q : Nat) (f : Fld) : Nat :=
  if f = F.MQ_Q_STS_HELD then (heldOf s ep q).length
  else if f = F.MQ_Q_STS_INFLIGHT then inflight s ep q
  else if f = F.MQ_Q_STS_CACHED then (cacheOf s ep q).length
  else rd s (.mq ep q) f

def viewNi (s : State) (d : Nat) (f : Fld) : Nat :=
  let e := routeOf s d (rd s (.ni d) F.NI_RT_IDX_IDX)
  if f = F.NI_RT_LO_ROUTE_LO then e.route % 2 ^ 32
  else if f = F.NI_RT_HI_VALID then e.valid.toNat
  else if f = F.NI_RT_HI_HOPS then e.hops
  else if f = F.NI_RT_HI_ROUTE_HI then e.route / 2 ^ 32
  else rd s (.ni d) f

/-! ### Port pages -/

/-- Registers that a member controller does not have (03 R47, 04 R67, 05, 09): all but the lane registers of its PHY page. -/
def memberHides (pg : Page) (f : Fld) : Bool :=
  match pg with
  | .phy _ => decide (0x20 ≤ f.off) && decide (f.off < 0x50)
  | .lnk _ | .ing _ | .egr _ => decide (0x20 ≤ f.off)
  | _ => false

def viewPhy (s : State) (p : Nat) (f : Fld) : Nat :=
  match memberOf s p with
  | some l =>
    if f = F.PHY_LINK_STS_NOT_LEAD then 1 else if f = F.PHY_LINK_STS_LEAD then l
    else if memberHides (.phy p) f then 0 else rd s (.phy p) f
  | none =>
    if f = F.PHY_LINK_STS_NOT_LEAD then 0 else if f = F.PHY_LINK_STS_LEAD then p
    else if f = F.PHY_LINK_STS_PRSNT then (present s p).toNat else rd s (.phy p) f

def viewLnk (s : State) (p : Nat) (f : Fld) : Nat :=
  if (memberOf s p).isSome then 0
  else if f = F.LNK_SEQ_STS_OUTSTANDING then (linkOf s p).replay.length
  else rd s (.lnk p) f

def viewIng (s : State) (p : Nat) (f : Fld) : Nat :=
  if (memberOf s p).isSome then 0
  else if f = F.ING_STS_USED then usedOf s (tileOf p) (.ing p)
  else rd s (.ing p) f

def viewEgr (s : State) (p : Nat) (f : Fld) : Nat :=
  if (memberOf s p).isSome then 0
  else if f = F.EGR_STS_USED then usedOf s (tileOf p) (.egr p)
  else rd s (.egr p) f

/-! ### Tile pages -/

def viewCell (s : State) (t : Nat) (f : Fld) : Nat :=
  if f = F.CELL_STS_FREE then freeCells s t
  else if f = F.CELL_FREE_MIN_CLR then 0
  else if f = F.CELL_GUAR_STS_GUAR_SUM then guarSum s t
  else rd s (.cell t) f

def viewCnp (s : State) (t : Nat) (f : Fld) : Nat :=
  if f = F.CNP_CH_STS_ACT then
    ((List.range 8).map fun p => if p = t then 0 else (8 - tget 0 s.core.chans (8 * t + p)) * 16 ^ p).sum
  else rd s (.cnp t) f

def viewBindT (s : State) (t : Nat) (f : Fld) : Nat :=
  if f = F.BIND_HOLD_CNT_USED then heldIn s t else rd s (.bindT t) f

def viewWabT (s : State) (t : Nat) (f : Fld) : Nat :=
  if f = F.WAB_STS_USED then (s.wab.ents.filter (·.tile == t)).length
  else if f = F.WAB_STRAND_STS_STRANDED then (s.wab.ents.filter fun e => e.tile == t && e.stranded).length
  else rd s (.wabT t) f

def viewHomeT (s : State) (t : Nat) (f : Fld) : Nat :=
  let at_ := s.home.loq.filter fun e => e.tile == t && e.stage != .travel
  if f = F.HOME_TSTS_LOQ_USED then at_.length
  else if f = F.HOME_TSTS_INSVC then ((at_.filter fun e => e.stage != .queued).map (·.line)).dedup.length
  else if f = F.HOME_ALC_STS_VALID then (s.home.alc.filter (·.tile == t)).length
  else if f = F.HOME_RESV_STS_RECORDS then (s.home.slots.filter fun r => r.tile == t).length
  else rd s (.homeT t) f

def viewSched (s : State) (t : Nat) (f : Fld) : Nat :=
  let lead := 64 * t + rd s (.sched t) F.SCHED_IDX_LPORT
  let tc := rd s (.sched t) F.SCHED_IDX_TC
  let part := rd s (.sched t) F.SCHED_IDX_PART
  let q := if tc = 3 then 384 else 128 * tc + part
  let k := queueKey lead q
  let sk := shpKey lead part
  if !isLead s lead && decide (0x44 ≤ f.off) then 0
  else if f = F.SCHED_QUANTUM_QUANTUM then
    if tc = 3 then 0 else match tget none s.egr.quantaNew k with | some (x, _) => x | none => quantumOf s k
  else if f = F.SCHED_DEFICIT_DEFICIT then (if tc = 3 then 0 else deficitOf s k)
  else if f = F.SCHED_SHP_RATE_RATE then (shaperOf s sk).stage
  else if f = F.SCHED_SHP_CFG_EN then (shaperWritten s sk).1.toNat
  else if f = F.SCHED_SHP_CFG_BURST then (shaperWritten s sk).2
  else if f = F.SCHED_SHP_TOK_TOKENS then (shaperOf s sk).tokens
  else if f = F.SCHED_Q_SMP_DEPTH then (tget (0, 0) s.egr.smp k).1
  else if f = F.SCHED_Q_SMP_HEAD_DLY then (tget (0, 0) s.egr.smp k).2
  else rd s (.sched t) f

/-! ### Partition pages -/

def viewPart (s : State) (p : Nat) (f : Fld) : Nat :=
  if f = F.PART_STS_HOST_UP then ((hostLead s p).any (linkUp s)).toNat
  else if f = F.PART_STS_ARMED ∨ f = F.PART_ARM_VALID then (restartEnt s p).isSome.toNat
  else if f = F.PART_STS_RESETTING then (resetting s p).toNat
  else if f = F.PART_ARM_IDX then ((restartEnt s p).map (·.idx)).getD 0
  else if f = F.PART_HELD_HELD then (s.maps.held.filter fun h => h.part == p).length
  else rd s (.part p) f

def viewPmd (s : State) (p : Nat) (f : Fld) : Nat :=
  let n := rd s (.pmd p) F.PMD_VP_IDX_VP
  let v := vpOf s p n
  let b := decide (n ≠ 0) && v.lead.isSome
  if f = F.PMD_VP_STS_BOUND then (n == 0 || b).toNat
  else if f = F.PMD_VP_STS_PRSNT then (b && v.lead.any (present s)).toNat
  else if f = F.PMD_VP_STS_DLL_ACT then (b && v.pwr && v.lead.any (linkUp s)).toNat
  else if f = F.PMD_VP_STS_SLOT_PWR then (n != 0 && v.pwr).toNat
  else if f = F.PMD_VP_STS_RM_PEND then (b && v.rm.isSome).toNat
  else if f = F.PMD_VP_STS_LEAD then (if b then v.lead.getD 0 else 0)
  else if f = F.PMD_WAB_STS_STRANDED then min 0x7FFFF (strandedPart s p)
  else if f = F.PMD_WAB_STS_WRITE_LOSS then (strandedPart s p != 0).toNat
  else if f = F.PMD_WAB_STS_EA_WITHHELD then (eaWithheld s p).toNat
  else rd s (.pmd p) f

/-! ### Counter banks (13 Tables 13.8-13.11) -/

def viewCtr (s : State) (pg : Page) (f : Fld) : Nat :=
  match pg with
  | .egr p =>
    if (memberOf s p).isSome then 0
    else if f.off = 0x810 ∨ f.off = 0x814 then 0x40 + (f.off - 0x810) + f.lo / 8
    else if f.off = 0x800 ∧ f ≠ F.CTR_BANK_CTL_IGNORED then rd s pg f
    else 0
  | .ing p =>
    if (memberOf s p).isSome then 0 else if f = F.CTR_BANK_CTL_IGNORED then ignoredBits s pg else rd s pg f
  | _ => if f = F.CTR_BANK_CTL_IGNORED then ignoredBits s pg else rd s pg f

/-- What a field of a page reads. -/
def viewField (s : State) (pg : Page) (f : Fld) : Nat :=
  if f.off < 0x20 then viewHdr s pg f
  else if 0x800 ≤ f.off then viewCtr s pg f
  else match pg with
    | .mod => viewMod s f | .pwr => viewPwr s f | .ftm => viewFtm s f | .flt => viewFlt s f | .glr => viewGlr s f
    | .sec => viewSec s f | .dbg => viewDbg s f | .tel => rd s .tel f | .trnk => viewTrnk s f
    | .bindM => viewBindM s f | .wabM => viewWabM s f | .homeM => viewHomeM s f
    | .evq q => viewEvq s q f | .ni d => viewNi s d f | .mq e q => viewMq s e q f
    | .lnk p => viewLnk s p f | .phy p => viewPhy s p f | .ing p => viewIng s p f | .egr p => viewEgr s p f
    | .cnp t => viewCnp s t f | .cell t => viewCell s t f | .bindT t => viewBindT s t f | .wabT t => viewWabT s t f
    | .homeT t => viewHomeT s t f | .halo t => rd s (.halo t) f | .sched t => viewSched s t f
    | .part p => viewPart s p f | .pmd p => viewPmd s p f

/-- Low half of a counter, or the half latched by its last read (13 Table 13.12). -/
def ctrWord (s : State) (slot off : Nat) : Nat :=
  let i := (off - 0x840) / 8
  if off % 8 = 0 then ctrVal s (ctrKey slot i) % 2 ^ 32 else tget 0 s.tel.latchHi (ctrKey slot i)

/-- The controller of a port page that is a member of a link has no bank (13 R249). -/
def bankHidden (s : State) : Page → Bool
  | .ing p | .egr p => (memberOf s p).isSome
  | _ => false

/-- The value of the register at an offset of a page, before the effects of the read; a field of access WO reads 0. -/
def viewWord (s : State) (pg : Page) (off : Nat) : Nat :=
  if 0x840 ≤ off ∧ off < 0x880 then
    match bankSlot pg with
    | some slot => if bankHidden s pg then 0 else ctrWord s slot off
    | none => 0
  else ((pg.regFields off).map fun f => if f.acc = .wo then 0 else (viewField s pg f % 2 ^ f.width) * 2 ^ f.lo).sum

end Sys2Proof.Machine
end

