-- ==== Sys2Proof/Machine/Image.lean ====
section
/-!
DEFINITION. Sys2Proof/Machine/Image.lean: Harcen images, their validation and the boot search (16 R304-R306), and the layout of
a Bivouac dump (12 R246).
-/
namespace Sys2Proof.Machine

/-! ### Bytes of a store -/

/-- A byte; one that nothing has written reads 0 (log 37). -/
def byteAt (m : List Host.Cell) (i : Nat) : Nat := (tget (0 : BitVec 8) m i).toNat

/-- `n` bytes, least significant first. -/
def leAt (m : List Host.Cell) (i n : Nat) : Nat := ((List.range n).map fun k => byteAt m (i + k) * 256 ^ k).sum

def bytesAt (m : List Host.Cell) (i n : Nat) : List Nat := (List.range' i n).map (byteAt m)

/-- Bytes written into a store from an offset. -/
def putBytes (off : Nat) (bs : List Nat) (m : List Host.Cell) : List Host.Cell :=
  (bs.zipIdx off).foldl (fun m e => tput (0 : BitVec 8) m e.2 (BitVec.ofNat 8 e.1)) m

/-- A SHA-256 value as 32 bytes of a store spell it. -/
def digestAt (m : List Host.Cell) (i : Nat) : Digest := BitVec.ofNat 256 (leAt m i 32)

/-- The canonical form of a store: addresses strictly rising, no byte listed that reads 0 anyway. -/
def Memory.wf (m : List Host.Cell) : Bool := twf (0 : BitVec 8) m

/-! ### Images (16 R304, R305) -/

/-- The header fields of an image that the manual reports (16 Table 16.1). -/
def imageHdr (m : List Host.Cell) : RunImg := ⟨leAt m 12 4, byteAt m 16, byteAt m 17, digestAt m 64⟩

/-- The first check of R304 that an image fails; 0 when it is valid. -/
def imageCheck (s : State) (m : List Host.Cell) : Nat :=
  let len := leAt m 8 4
  let h := imageHdr m
  let key := digestAt m 32
  if leAt m 0 4 ≠ 0x48524E31 ∨ leAt m 4 2 ≠ 0x0080 ∨ len < 1 ∨ 16769232 < len then 1
  else if 64 < h.svn ∨ h.svn < svnMinNow s then 2
  else if 4 ≤ h.slot ∨ keySt s h.slot ≠ 1 then 3
  else if Config.sha256 (bytesAt m 32 32) ≠ Config.keyHash h.slot then 4
  else if Config.slhVerify key (Config.sha256 (bytesAt m 0 128)) (leAt m 128 7856) = false then 5
  else if Config.sha256 (bytesAt m 7984 len) ≠ h.digest then 6
  else 0

/-- A flash copy. -/
def flashOf (s : State) (copy : Nat) : List Host.Cell :=
  if copy = 0 then s.sec.flash0.getD (Config.flash 0) else s.sec.flash1.getD (Config.flash 1)

def setFlash (copy : Nat) (m : List Host.Cell) (s : State) : State :=
  if copy = 0 then { s with sec := { s.sec with flash0 := some m } } else { s with sec := { s.sec with flash1 := some m } }

/-- The preferred copy. -/
def prefNow (s : State) : Nat := s.sec.pref.getD (Config.prefCopy % 2) % 2

/-- IMAGE_VALIDATE: the preferred copy is validated, and the other one when it fails; the first valid copy runs (16 R305). -/
def imageValidate (s : State) : State :=
  let p := prefNow s
  let a := imageCheck s (flashOf s p)
  let b := if a = 0 then 0 else imageCheck s (flashOf s (1 - p))
  let sec := { s.sec with fail0 := if p = 0 then a else b, fail1 := if p = 0 then b else a }
  if a = 0 then { s with sec := { sec with noImage := false, booted := p, running := some (imageHdr (flashOf s p)) } }
  else if b = 0 then
    { s with sec := { sec with noImage := false, booted := 1 - p, running := some (imageHdr (flashOf s (1 - p))) } }
  else { s with sec := { sec with noImage := true, running := none } }

/-- Version of the running image. -/
def runVersion (s : State) : Nat := (s.sec.running.map (·.version)).getD 0

/-! ### Dumps (12 R246, Tables 12.6 to 12.10) -/

/-- Two 32-bit words of a number. -/
def words2 (v : Nat) : List Nat := [v % 2 ^ 32, v / 2 ^ 32 % 2 ^ 32]

/-- The offsets of a page's registers, in order. -/
def pageOffs (pg : Page) : List Nat :=
  ((List.range 1024).map (4 * ·)).filter fun o =>
    !(pg.regFields o).isEmpty || (pg.bank && decide (0x840 ≤ o) && decide (o < 0x880))

/-- Every register of a page. -/
def pageWords (s : State) (pg : Page) : List Nat := (pageOffs pg).map (viewWord s pg)

/-- FLT_SRC and FLT_SRC_CNT of a source number. -/
def srcWords (s : State) (n : Nat) : List Nat :=
  let x := srcOf s n
  let i := srcInfo n
  [x.sticky.toNat * 2 ^ 31 + x.opened.toNat * 2 ^ 30 + (if i.isSome then x.pair else 3) * 2 ^ 28
    + ((i.map (·.allowed)).getD 0) * 2 ^ 8 + reactOf s n, x.cnt]

/-- An item of a WAB section (12 Table 12.10). -/
def DumpItem.words (d : DumpItem) : List Nat :=
  [d.part + d.kind * 2 ^ 8 + d.out * 2 ^ 16, d.bind, d.ld, 0] ++ words2 d.dpa ++ words2 d.mask.toNat
    ++ (List.range 16).map fun k => bits d.data.toNat (32 * k) 32

/-- What a dump lists of the WAB and of DIRTY lines, by tile. -/
def dumpItems (s : State) : List (Nat × DumpItem) :=
  (s.wab.ents.map fun e => (e.tile, ⟨e.part, e.stranded.toNat, e.out, e.bind, e.ld, e.dpa, e.mask, e.data⟩)) ++
    (s.home.alc.filter (·.dirty)).map fun a =>
      (a.tile, ⟨a.fill, 2, a.line.out, a.bind, a.line.ld, a.line.line * 64, fullMask, a.data⟩)

/-- The four words of the header of each cell in use in a tile, by their position among the tile's 65,536 headers (05 Table 5.2,
12 Table 12.9; log 126). -/
def cellHeads (s : State) (t : Nat) : List (Nat × Nat) :=
  (s.core.cells.filter fun c => c.tile == t && c.inUse).flatMap fun c =>
    (List.range 4).map fun j => (c.id % 65536 * 4 + j, bits (cellHeader s c) (32 * j) 32)

/-- A section before it is placed: type, instance, items, bytes of an item, known words, further words (12 Table 12.9; log 38). -/
def dumpSections (s : State) (items : List (Nat × DumpItem)) : List DumpSect :=
  let sect (typ inst items len : Nat) (known : List Nat) (rest : Nat) : DumpSect :=
    ⟨typ, inst, false, 0, items, len, known, rest, 0, []⟩
  let regs (typ inst : Nat) (w : List Nat) (rest : Nat) : DumpSect := sect typ inst (w.length + rest) 4 w rest
  let tiles (f : Nat → DumpSect) : List DumpSect := (List.range 8).map f
  let held := (List.range 128).filter (holdsPiece s)
  [sect 1 0 2560 8 ((List.range 2560).flatMap (srcWords s)) 0, regs 2 0 (pageWords s .mod ++ pageWords s .pwr) 0,
   regs 3 0 (pageWords s .ftm) (256 * 20),
   regs 4 0 (((List.range 128).flatMap fun k => pageWords s (.mq (k / 64) (k % 64))) ++
     (List.range 129).map fun q => (evList s q).length) 0]
  ++ tiles (fun t =>
      { regs 5 t (pageWords s (.cell t) ++ pageWords s (.cnp t)) (65536 * 4) with fixed := cellHeads s t })
  ++ tiles (fun t => regs 6 t (pageWords s (.bindT t)) (512 * 8))
  ++ tiles (fun t =>
      let l := (items.filter fun e => e.1 == t).map (·.2)
      sect 7 t l.length 96 (l.flatMap DumpItem.words) 0)
  ++ tiles (fun t => regs 8 t (pageWords s (.homeT t)) (4096 * 8))
  ++ tiles (fun t => regs 9 t (pageWords s (.halo t)) (8 * (s.home.halo.filter fun h => h.src == t).length))
  ++ (leads s).map (fun p =>
      regs 10 p (pageWords s (.phy p) ++ pageWords s (.lnk p) ++ pageWords s (.ing p) ++ pageWords s (.egr p)) 0)
  ++ held.map fun p => regs 11 p (pageWords s (.part p) ++ pageWords s (.pmd p)) 0

/-- Bytes of a section, its header included. -/
def DumpSect.length (x : DumpSect) : Nat := 32 + 4 * (x.known.length + x.rest)

/-- A word of those that the manual does not lay out as a whole: as it lays it out, else a free value. -/
def DumpSect.restWord (x : DumpSect) (j : Nat) : Nat :=
  ((x.fixed.find? fun e => e.1 == j).map (·.2)).getD (Config.freeNat (x.seed + j) % 2 ^ 32)

/-- A multiple of 64 not below. -/
def align64 (n : Nat) : Nat := (n + 63) / 64 * 64

/-- Bytes of the digest and the signature (12 R246). -/
def sealLen : Nat := 32 + 7856

/-- Bytes of a dump with no section: its header, its section table, its digest and signature (12 R243, R246). -/
def dumpLeast (s : State) : Nat := 128 + 32 * (dumpSections s []).length + sealLen

/-- Sections placed one after another while they fit; the rest is marked TRUNC (12 R243). -/
def placeSects (limit : Option Nat) : Nat → Bool → Nat → List DumpSect → List DumpSect
  | _, _, _, [] => []
  | pos, full, seed, x :: t =>
    let off := align64 pos
    let fits := !full && limit.all fun l => decide (off + x.length + sealLen ≤ l)
    if fits then { x with offset := off, seed := seed } :: placeSects limit (off + x.length) false (seed + x.rest) t
    else { x with trunc := true } :: placeSects limit pos true seed t

/-- A dump's section table and sections, made from the state it records. -/
def dumpFill (s : State) (d : Dump) : Dump :=
  let l := dumpSections s d.items
  { d with sects := placeSects d.limit (128 + 32 * l.length) false s.free l }

/-- Bytes up to the digest. -/
def Dump.bodyLen (d : Dump) : Nat :=
  d.sects.foldl (fun n x => if x.trunc then n else x.offset + x.length) (128 + 32 * d.sects.length)

/-- TOTAL_LEN. -/
def Dump.total (d : Dump) : Nat := d.bodyLen + sealLen

/-- FLAGS: bit 0 a section is TRUNC, bit 1 the drain window ran out. -/
def Dump.flags (d : Dump) : Nat := (d.sects.any (·.trunc)).toNat + 2 * d.ranOut.toNat

/-- The header (12 Table 12.6). -/
def Dump.header (d : Dump) : List Nat :=
  [0x43415642, 1 + 0x80 * 2 ^ 16, d.seq, d.sects.length] ++ words2 Config.serial.toNat ++ words2 d.tFault ++ words2 d.tFreeze
    ++ [d.fwver, d.trigger + d.dest * 2 ^ 8 + d.mode * 2 ^ 16 + d.flags * 2 ^ 24] ++ words2 d.total ++ List.replicate 18 0

/-- A section's entry in the table (12 Table 12.7). -/
def DumpSect.entry (seq pos : Nat) (x : DumpSect) : List Nat :=
  [x.typ + x.inst * 2 ^ 16, seq, pos, x.trunc.toNat] ++ words2 x.offset ++ words2 (if x.trunc then 0 else x.length)

/-- A section with its header (12 Table 12.8). -/
def DumpSect.words (seq pos : Nat) (x : DumpSect) : List Nat :=
  [x.typ + x.inst * 2 ^ 16, seq, pos, x.items, x.itemLen, 0, 0, 0] ++ x.known
    ++ (List.range x.rest).map x.restWord

/-- A list of words filled up with zeros. -/
def padTo (n : Nat) (l : List Nat) : List Nat := l ++ List.replicate (n - l.length) 0

/-- The words of a dump up to its digest. -/
def Dump.body (d : Dump) : List Nat :=
  let table := d.sects.zipIdx.flatMap fun e => e.1.entry d.seq e.2
  d.sects.zipIdx.foldl (fun l e => if e.1.trunc then l else padTo (e.1.offset / 4) l ++ e.1.words d.seq e.2)
    (d.header ++ table)

/-- The bytes of words, least significant first. -/
def wordBytes (l : List Nat) : List Nat := l.flatMap fun w => (List.range 4).map fun k => bits w (8 * k) 8

/-- The two keys: derived at every cold reset, from the one identity seed, so always the same (16 R310). -/
def identityKey : Nat := Config.deriveKey Config.identitySeed 0
def sealingKey : Nat := Config.deriveKey Config.identitySeed 1

/-- Every word of a dump: the body, the digest over it and the signature over the digest. -/
def Dump.words (d : Dump) : List Nat :=
  let dig := Config.sha256 (wordBytes d.body)
  d.body ++ (List.range 8).map (fun k => bits dig.toNat (32 * k) 32)
    ++ (List.range 1964).map fun k => bits (Config.slhSign sealingKey dig) (32 * k) 32

/-- A word of the dump staging window (12 R245; 17 R339): while a dump is being written, its words so far, whose number at a time the
manual does not give (log 38); those that are not written yet read 0. -/
def stagingWord (s : State) (i : Nat) : Nat :=
  if dumpBusy s then
    match s.flt.dump with
    | some d => if i < 0x4000 ∧ i < Config.dumpWritten d.seq s.tick then (dumpFill s d).words.getD i 0 else 0
    | none => 0
  else match s.flt.stagingWin with
    | none => 0
    | some d => if i < 0x4000 then d.words.getD i 0 else 0

end Sys2Proof.Machine
end

