-- ==== Sys2Proof/Machine/Fault.lean ====
section
/-!
DEFINITION. Sys2Proof/Machine/Fault.lean: the fault collector, injection, FATAL handling, the Bivouac dump, the watchdogs and
live firmware activation (12 R227-R247; 16 R306, R307).
-/
namespace Sys2Proof.Machine

/-! ### Assertions and wires (12 R227, R234) -/

/-- FAULT_ASSERTION: a source asserts; `named`: against a partition, or for the output link of a CNP path. -/
def faultAssertion (src part link : Nat) (named : Bool) (s : State) : State :=
  raise src (if named then some part else none) (some link) s

def execFaultAssertion (src part link : Nat) (named : Bool) (s : State) : Ans :=
  done s (faultAssertion src part link named s)

/-- The WIRE source of the die that holds a source's pair. -/
def wireSource (n : Nat) : Nat :=
  if n < 0x20 then 0x00
  else tileSrcNo (if n < 0x120 then (n - 0x20) / 32 else (n - 0x200) / 4 / 64) 18

/-- WIRE_BROKEN. -/
def wireBroken (n : Nat) (s : State) : State :=
  if (srcInfo n).isNone || (srcOf s n).pair == 2 then s
  else s |> modSrc n (fun x => { x with pair := 2 }) |> raiseAs none (wireSource n) none none n

def execWireBroken (src : Nat) (s : State) : Ans := done s (wireBroken src s)

/-- WIRE_RESTORED: the pair reads idle again, not before an injection that drives it has ended. -/
def wireRestored (n : Nat) (s : State) : State :=
  let idle := modSrc n fun x => { x with pair := 0, drive := none }
  if (srcOf s n).pair = 2 then
    match (srcOf s n).drive with
    | none => idle s
    | some t => atTick t idle s
  else s

def execWireRestored (src : Nat) (s : State) : Ans := done s (wireRestored src s)

/-! ### Sticky bits, masks, reactions (12 R229, R235; 17 R326, R329) -/

/-- One sticky bit is cleared; an assertion of the same tick is judged after the clear. -/
def clearSticky (n : Nat) (s : State) : State :=
  let x := srcOf s n
  if x.asTick = some s.tick ∧ x.asOpen then s
  else if x.asTick = some s.tick ∧ !x.merged.isEmpty then
    let s := setSrc n { x with sticky := false, asTick := none, merged := [] } s
    let s := match srcPage n with
      | some (pg, _) => wr pg F.ERR_MERGE_CNT_MERGES (rd s pg F.ERR_MERGE_CNT_MERGES - x.merged.length) s
      | none => s
    s.each x.merged fun m => raiseAs none n m.1 m.2.1 m.2.2
  else setSrc n { x with sticky := false } s

/-- A write of ERR_STICKY of a page. -/
def stickyWrite (pg : Page) (v m : Nat) (s : State) : State :=
  s.each (pg.srcBits.filter fun k => bit (v &&& m) k) fun k => clearSticky (pg.srcNum k)

/-- A write of FLT_STK_DATA. -/
def stkDataWrite (v m : Nat) (s : State) : State :=
  let w := rd s .flt F.FLT_STK_IDX_WORD
  s.each ((List.range 32).filter fun j => bit (v &&& m) j) fun j => clearSticky (32 * w + j)

/-- ERR_STICKY_CLEAR: the address is that of ERR_STICKY of a page, or of FLT_STK_DATA. -/
def errStickyClear (addr v m : Nat) (s : State) : State :=
  match pageAt (addr / 0x1000) with
  | none => s
  | some pg =>
    regGate pg (fun s =>
      if addr % 0x1000 = F.ERR_STICKY_STICKY.off then stickyWrite pg v m s
      else if pg = .flt ∧ addr % 0x1000 = F.FLT_STK_DATA_STICKY.off then stkDataWrite v m s
      else s) s

/-- A write of ERR_MASK of a page: a bit that would mask a source with REACT FATAL discards the write. -/
def maskWrite (pg : Page) (v m : Nat) (s : State) : State :=
  let own := (pg.srcBits.map (2 ^ ·)).sum
  let new := (F.ERR_MASK_MASK.merge (rd s pg F.ERR_MASK_MASK) v m) &&& own
  if pg.srcBits.any fun k => bit (v &&& m) k && reactOf s (pg.srcNum k) == React.fatal then reject pg s
  else wr pg F.ERR_MASK_MASK new s

def errMaskWrite (addr v m : Nat) (s : State) : State :=
  match pageAt (addr / 0x1000) with
  | none => s
  | some pg => regGate pg (fun s => if addr % 0x1000 = F.ERR_MASK_MASK.off then maskWrite pg v m s else s) s

/-- A write of REACT of the source that FLT_SRC_IDX names. -/
def reactWrite (r : Nat) (s : State) : State :=
  let n := rd s .flt F.FLT_SRC_IDX_SRC
  match srcInfo n with
  | none => reject .flt s
  | some i =>
    if !bit i.allowed r then reject .flt s
    else
      let s := modSrc n (fun x => { x with react := if r = i.react then none else some r }) s
      match srcPage n with
      | some (pg, k) =>
        let old := rd s pg F.ERR_MASK_MASK
        s.when (r == React.fatal && bit old k) (wr pg F.ERR_MASK_MASK (old - 2 ^ k))
      | none => s

/-- A write of FLT_SRC. -/
def fltSrcWrite (v m : Nat) (s : State) : State :=
  let n := rd s .flt F.FLT_SRC_IDX_SRC
  let s := s.when (bit (v &&& m) 31) (clearSticky n)
  if F.FLT_SRC_REACT.of m = 0 then s else reactWrite (F.FLT_SRC_REACT.merge (reactOf s n) v m) s

def execFltSrcReactWrite (v : Word) (s : State) : Ans := done s (regGate .flt (fltSrcWrite v.toNat allBits) s)

def execErrStickyClear (addr : Nat) (v : Word) (s : State) : Ans := done s (errStickyClear addr v.toNat allBits s)

def execErrMaskWrite (addr : Nat) (v : Word) (s : State) : Ans := done s (errMaskWrite addr v.toNat allBits s)

/-! ### Injection (12 R241) -/

/-- 1,000 core clocks at 1.25 GHz, in ticks (01 R12). -/
def pulseTicks : Nat := 80

/-- A pair is driven to 1 on both rails for 1,000 core clocks: it reads broken and WIRE is raised; it reads idle when the drive has
ended. -/
def wirePulse (n : Nat) (s : State) : State :=
  if (srcOf s n).pair = 2 then s
  else s |> wireBroken n |> modSrc n fun x => { x with drive := some (s.tick + pulseTicks) }

/-- An injection into a fault source: none when it was done, else the status of its refusal. -/
def injectSource (n : Nat) (wire : Bool) (s : State) : Option Nat × State :=
  match srcInfo n with
  | none => (some St.badArg, s)
  | some _ =>
    if s.mode ≠ .maintenance then (some St.notMaint, s)
    else if reactOf s n = React.fatal ∧ rd s .flt F.FLT_CFG_FATAL_INJ = 0 then (some St.refused, s)
    else if wire then (none, wirePulse n s)
    else (none, raise n none none s)

/-- INJECT (11 Table 11.5, 12 R241, 04 R80). -/
def inject (c : Ctx) (target lead : Nat) (v : Word) (s : State) : State :=
  if target = 0 then
    if 512 ≤ lead ∨ (memberOf s lead).isSome then finish c 0x47 St.badArg s
    else
      let st := if (s.mode ≠ .maintenance ∨ !linkUp s lead) ∧ F.LNK_INJ_CTL_ARM.of v.toNat = 1 then St.refused else St.ok
      mirrorGate true (.lnk lead) c 0x47 (fun s => s |> injWrite lead v.toNat allBits |> finish c 0x47 st) s
  else if target = 1 then
    let (r, s) := injectSource lead (bit v.toNat 0) s
    finish c 0x47 (r.getD St.ok) s
  else finish c 0x47 St.badArg s

def execInject (c : Ctx) (target lead : Nat) (v : Word) (s : State) : Ans := done s (byCore (inject c target lead v) s)

/-- A write of ERR_INJECT of a page. -/
def injectWrite (pg : Page) (v m : Nat) (s : State) : State :=
  let ks := pg.srcBits.filter fun k => bit (v &&& m) k
  let bad := ks.any fun k => (injectSource (pg.srcNum k) false s).1.isSome
  (s.each ks fun k s => (injectSource (pg.srcNum k) false s).2).when bad (reject pg)

/-- ERR_INJECT: a write outside MAINTENANCE is discarded whatever bits it names. -/
def errInject (addr v m : Nat) (s : State) : State :=
  match pageAt (addr / 0x1000) with
  | none => s
  | some pg =>
    regGate pg (fun s =>
      if addr % 0x1000 ≠ F.ERR_INJECT_INJECT.off then s
      else if s.mode ≠ .maintenance then reject pg s
      else injectWrite pg v m s) s

def execErrInject (addr : Nat) (v : Word) (s : State) : Ans := done s (errInject addr v.toNat allBits s)

/-! ### Dumps (12 R242-R246) -/

/-- The tile of a tile source. -/
def sourceTile (n : Nat) : Option Nat := if 0x20 ≤ n ∧ n < 0x120 then some ((n - 0x20) / 32) else none

/-- The base of the dump segment. -/
def dsegBase (s : State) : Nat := rd s .flt F.FLT_DSEG_DPA_LO_DPA_LO * 2 ^ 21 + rd s .flt F.FLT_DSEG_DPA_HI_DPA_HI * 2 ^ 32

/-- The first usable destination: its code, address and length (12 R243); a buffer too short for what every dump has takes none
(log 54). -/
def dumpDest (s : State) (except : Option Nat) : Nat × Nat × Option Nat :=
  let buf (ep : Nat) : Option (Nat × Nat) :=
    if mgUp s ep then (tget none s.mq.dumpBuf ep).filter fun b => decide (dumpLeast s ≤ b.2) else none
  match buf 0, buf 1 with
  | some b, _ => (0, b.1, some b.2)
  | none, some b => (1, b.1, some b.2)
  | none, none =>
    let lead := rd s .flt F.FLT_DSEG_CFG_LEAD
    if rd s .flt F.FLT_DSEG_CFG_EN = 1 ∧ linkUp s lead ∧ some (tileOf lead) ≠ except then
      (2, dsegBase s, some (2 ^ (21 + rd s .flt F.FLT_DSEG_CFG_SIZE)))
    else (3, 0, none)

/-- A dump starts: the next DUMPSEQ, BUSY (12 R243, R246). -/
def dumpStart (trigger mode tFault : Nat) (ranOut : Bool) (except : Option Nat) (s : State) : State :=
  if !coreLeft s then s
  else
    let (dest, addr, limit) := dumpDest s except
    let seq := (Config.dumpSeq + s.flt.seqs + 1) % 2 ^ 32
    let d : Dump := ⟨seq, trigger, dest, addr, rd s .flt F.FLT_DSEG_CFG_LEAD, rd s .flt F.FLT_DSEG_CFG_LD, limit, mode, ranOut,
      tFault, s.time, runVersion s, dumpItems s, [], false⟩
    { s with flt := { s.flt with dump := some d, seqs := s.flt.seqs + 1 } } |> wr .flt F.FLT_DUMP_STS_DONE 0

/-- The drain of FATAL handling has ended (12 R242, 07 Table 7.4). -/
def fatalDrained (s : State) (f : Fatal) : Bool := f.ranOut || !wabWaits s (sourceTile f.src)

/-- FATAL_FREEZE. -/
def fatalFreeze (s : State) : State :=
  match s.flt.fatal with
  | none => s
  | some f =>
    if f.frozen.isSome || !s.mode.isUp || !fatalDrained s f then s
    else { s with
        flt := { s.flt with fatal := some { f with frozen := some s.time } }
        wab := { s.wab with wait := none } }
      |> State.say (.order 2 f.src) |> setMode .fatalHold |> dumpStart 0 f.mode f.time f.ranOut (sourceTile f.src)

def execFatalFreeze (s : State) : Ans := done s (fatalFreeze s)

/-- Two dumps to one device share bytes. -/
def Dump.meets (a b : Dump) : Bool :=
  a.lead == b.lead && a.ld == b.ld && decide (a.addr < b.addr + b.total) && decide (b.addr < a.addr + a.total)

/-- The dump is complete at its destination with its digest and signature. One in the segment is written over what the device held
there, the bytes of a binding and of an earlier dump among them (12 R244). -/
def dumpDone (s : State) : State :=
  match s.flt.dump with
  | none => s
  | some d =>
    if d.done then s
    else
      let d := { dumpFill s d with done := true }
      let segs := if d.dest = 2 then s.flt.segDumps.filter (fun x => !Dump.meets x d) ++ [d] else s.flt.segDumps
      let s := { s with
        flt := { s.flt with
          dump := some d, stagingWin := some d, segDumps := segs }
        free := s.free + (d.sects.map DumpSect.rest).sum }
      let s := s.when (decide (d.dest < 2)) (State.say (.dma d.dest d.addr d.total d.words))
      let s := s.when (d.dest == 2) (State.say (.segWrite d.lead d.ld d.addr d.total d.words))
      s |> wr .flt F.FLT_DUMP_STS_DEST d.dest |> wr .flt F.FLT_DUMP_STS_TRUNC (d.flags % 2) |> wr .flt F.FLT_DUMP_STS_DONE 1
        |> post 128 0x14 [(16, d.seq), (20, d.dest), (21, d.flags), (24, d.total)]

/-- DUMP_BUF_SET. -/
def dumpBufSet (c : Ctx) (buf len : Nat) (s : State) : State :=
  { s with mq := { s.mq with dumpBuf := tput none s.mq.dumpBuf c.ep (some (buf, len)) } } |> finish c 0x52 St.ok

def execDumpBufSet (c : Ctx) (buf len : Nat) (s : State) : Ans := done s (byCore (dumpBufSet c buf len) s)

/-- The management DMA reaches the segment: its link is in L0, and in FATAL_HOLD, where every lane is idle, the dump went there, so
that the path stayed running (12 R242). -/
def dsegReach (s : State) (d : Dump) : Bool :=
  linkUp s d.lead && (!frozen s || s.flt.dump.any fun x => x.dest == 2 && x.lead == d.lead)

/-- The dump that the segment, as it is set, holds under a number (12 R245): at its base, and where it can be read (log 152). -/
def segDump (s : State) (num : Nat) : Option Dump :=
  if rd s .flt F.FLT_DSEG_CFG_EN = 0 then none
  else s.flt.segDumps.find? fun d =>
    d.seq == num && d.lead == rd s .flt F.FLT_DSEG_CFG_LEAD && d.ld == rd s .flt F.FLT_DSEG_CFG_LD && d.addr == dsegBase s
      && decide (d.total ≤ 2 ^ (21 + rd s .flt F.FLT_DSEG_CFG_SIZE)) && dsegReach s d

/-- DUMP_FETCH (12 R245). While the drain of FATAL handling runs, the management DMA, which acts for no partition, starts nothing new:
the command waits (12 R242; log 151). -/
def dumpFetch (c : Ctx) (num buf len : Nat) (good : Bool) (s : State) : State :=
  if s.flt.fatal.any fun f => f.frozen.isNone then s
  else match segDump s num with
  | none => finish c 0x53 St.noEntry s
  | some d =>
    if !good || !mgUp s c.ep then finish c 0x53 St.dmaErr s
    else
      let n := min len d.total
      s |> State.say (.dma c.ep buf n (d.words.take ((n + 3) / 4))) |> complete c 0x53 St.ok n 0

def execDumpFetch (c : Ctx) (num buf len : Nat) (good : Bool) (s : State) : Ans := done s (byCore (dumpFetch c num buf len good) s)

/-- The range of the dump segment overlaps the target range of a valid binding (12 R244). -/
def dsegOverlaps (s : State) (lead ld size : Nat) : Bool :=
  let lo := dsegBase s
  s.maps.binds.any fun e =>
    e.2.valid && (e.2.kind == 0 || e.2.kind == 2) && e.2.out == lead && e.2.ld == ld &&
      decide (e.2.dpaBase < lo + 2 ^ (21 + size)) && decide (lo < e.2.dpaBase + e.2.bytes)

/-- A write of FLT_DSEG_CFG. -/
def dsegWrite (v m : Nat) (s : State) : State :=
  let g (f : Fld) : Nat := f.merge (rd s .flt f) v m
  let size := F.FLT_DSEG_CFG_SIZE.clamp (g F.FLT_DSEG_CFG_SIZE)
  if g F.FLT_DSEG_CFG_EN = 1 ∧ dsegOverlaps s (g F.FLT_DSEG_CFG_LEAD) (g F.FLT_DSEG_CFG_LD) size then reject .flt s
  else putReg .flt F.FLT_DSEG_CFG_EN.off v m s

def execFltDsegCfgWrite (v : Word) (s : State) : Ans := done s (regGate .flt (dsegWrite v.toNat allBits) s)

/-! ### Watchdogs and takeover (12 R237, R238) -/

def coreOf (s : State) (c : Nat) : Core1 := tget Core1.reset s.flt.cores c
def setCore (c : Nat) (x : Core1) (s : State) : State := { s with flt := { s.flt with cores := tput Core1.reset s.flt.cores c x } }

/-- A core that boots under a live activation does not feed: the standby in step 3, the former active core in step 5. -/
def coreBoots (s : State) (c : Nat) : Bool := s.flt.fw.isSome && c != s.flt.active

/-- Code of an SPDM ERROR: Busy (DSP0274; log 42). -/
def spdmBusy : Nat := 0x03

/-- Every SPDM connection returns to the state before GET_VERSION; 4: a later request is answered RequestResynch (16
R313); a request being processed is answered Busy. -/
def spdmResync (s : State) : State :=
  let s := s.each ((List.range 2).filter fun ep => (tget none s.sec.spdmProc ep).isSome) fun ep =>
    State.say (.spdm ep 0x7F [spdmBusy])
  { s with sec := { s.sec with spdm := tput 0 (tput 0 s.sec.spdm 0 4) 1 4, spdmProc := [] } }

/-- Another core becomes active and feeds: reason 0 core lost, 1 firmware activation. -/
def takeOver (core reason : Nat) (s : State) : State :=
  let s := setCore core { coreOf s core with fed := s.tick } s
  { s with flt := { s.flt with active := core, takeover := false, wdogFed := s.tick, wdogOut := false } }
    |> bump .flt F.FLT_MC_STS_TAKEOVERS |> spdmResync |> post 128 0x12 [(16, core), (17, reason)]

/-- End FW_ACTIVATE with an outcome: LAST 1 OK, 2 AUTH_FAIL, 3 REFUSED. -/
def fwEnd (last status r0 : Nat) (c : Ctx) (s : State) : State :=
  { s with flt := { s.flt with fw := none } } |> wr .flt F.FLT_FW_STS_STEP 0 |> wr .flt F.FLT_FW_STS_LAST last
    |> complete c 0x51 status r0 0

/-- A core is declared lost: the module enters DEGRADED while the other core is healthy, and when the active core was lost, the other
takes over, in step 3 of a live activation when it has booted; one that has come to step 5 cannot be completed (12 R238, R239). -/
def coreLost (c : Nat) (s : State) : State :=
  let s := setCore c { coreOf s c with alive := false } s
  let other := (coreOf s (1 - c)).alive
  let s := raise (3 + c) none none s
  let s := s.when (other && s.mode == .run) (setMode .degraded)
  let next (s : State) : State := { s with flt := { s.flt with takeover := other } }
  if c ≠ s.flt.active then s
  else match s.flt.fw with
    | some j => s |> State.when (j.step == 5) (fwEnd 3 St.refused 0 j.ctx) |> next
    | none => next s

/-- CORE_WATCHDOG_EXPIRE. -/
def coreWatchdogExpire (c : Nat) (s : State) : State :=
  let x := coreOf s c
  if !x.alive || coreBoots s c || !s.mode.isUp then s
  else atTick (x.fed + rd s .flt F.FLT_WDOG_CORE_TMO) (coreLost c) s

def execCoreWatchdogExpire (core : Nat) (s : State) : Ans := done s (coreWatchdogExpire core s)

/-- MODULE_WATCHDOG_EXPIRE: EMBER is held at its level. -/
def moduleWatchdogExpire (s : State) : State :=
  if s.flt.wdogOut || !s.mode.isUp then s
  else atTick (s.flt.wdogFed + rd s .flt F.FLT_WDOG_MOD_TMO)
    (fun s => let s := holdEmber s; { s with flt := { s.flt with wdogOut := true } }) s

def execModuleWatchdogExpire (s : State) : Ans := done s (moduleWatchdogExpire s)

/-- FLT_WDOG_FEED: the first feed of the standby after the active core is lost makes it active. -/
def wdogFeed (core : Nat) (s : State) : State :=
  let x := coreOf s core
  if !x.alive || coreBoots s core then s
  else if s.flt.takeover && core != s.flt.active then takeOver core 0 s
  else
    let s := setCore core { x with fed := s.tick } s
    if core = s.flt.active then { s with flt := { s.flt with wdogFed := s.tick, wdogOut := false } } else s

/-- A write of FLT_WDOG_CORE or FLT_WDOG_MOD: it keeps the margin of R237. -/
def wdogTmoWrite (f : Fld) (v m : Nat) (s : State) : State :=
  if f.of m = 0 then s
  else
    let x := f.clamp (f.merge (rd s .flt f) v m)
    let core := if f = F.FLT_WDOG_CORE_TMO then x else rd s .flt F.FLT_WDOG_CORE_TMO
    let mod := if f = F.FLT_WDOG_MOD_TMO then x else rd s .flt F.FLT_WDOG_MOD_TMO
    if mod ≤ core + 20000 then reject .flt s else wr .flt f x s

/-! ### Live firmware activation (12 R239; 16 R306, R307) -/

/-- FW_STAGE: bytes of the manager's buffer go to the staging store. -/
def fwStage (c : Ctx) (off : Nat) (bytes : List Nat) (good : Bool) (s : State) : State :=
  if 2 ^ 24 < off + bytes.length then finish c 0x50 St.badArg s
  else if s.sec.flashBusy then finish c 0x50 St.refused s
  else if !good || !mgUp s c.ep then finish c 0x50 St.dmaErr s
  else { s with flt := { s.flt with staging := putBytes off bytes s.flt.staging } }
    |> wr .flt F.FLT_FW_STS_STAGED 1 |> finish c 0x50 St.ok

def execFwStage (c : Ctx) (off : Nat) (bytes : List Nat) (good : Bool) (s : State) : Ans :=
  done s (byCore (fwStage c off bytes good) s)

/-- Both cores are healthy and none is booting or taking over. -/
def coresHealthy (s : State) : Bool :=
  (coreOf s 0).alive && (coreOf s 1).alive && s.flt.fw.isNone && !s.flt.takeover

/-- FW_ACTIVATE, steps 1 to 3. -/
def fwActivate (c : Ctx) (s : State) : State :=
  if !coresHealthy s || !(s.mode == .run || s.mode == .maintenance) || s.sec.flashBusy then
    let s := s.when s.flt.fw.isNone (wr .flt F.FLT_FW_STS_LAST 3)
    finish c 0x51 St.refused s
  else if imageCheck s s.flt.staging ≠ 0 then s |> wr .flt F.FLT_FW_STS_LAST 2 |> finish c 0x51 St.authFail
  else { s with flt := { s.flt with fw := some ⟨c, 3, s.tick, runVersion s, imageHdr s.flt.staging⟩ } }
    |> wr .flt F.FLT_FW_STS_STEP 3

def execFwActivate (c : Ctx) (s : State) : Ans := done s (byCore (fwActivate c) s)

/-- FW_STANDBY_READY: step 4; the activation cannot be completed when the former active core is lost. -/
def fwStandbyReady (s : State) : State :=
  match s.flt.fw with
  | none => s
  | some j =>
    if j.step ≠ 3 ∨ j.since + 50000000 ≤ s.tick then s
    else
      let former := s.flt.active
      let s := { s with sec := { s.sec with running := some j.img } } |> takeOver (1 - former) (coreOf s former).alive.toNat
      if (coreOf s former).alive then
        { s with flt := { s.flt with fw := some { j with step := 5 } } } |> wr .flt F.FLT_FW_STS_STEP 5
      else fwEnd 3 St.refused 0 j.ctx s

/-- FW_STANDBY_TIMEOUT: the standby boots the running image again. -/
def fwStandbyTimeout (s : State) : State :=
  match s.flt.fw with
  | none => s
  | some j =>
    if j.step ≠ 3 then s
    else atTick (j.since + 50000000) (fun s =>
      let stand := 1 - s.flt.active
      let s := setCore stand { coreOf s stand with fed := s.tick } s
      let s := fwEnd 3 St.refused 0 j.ctx s
      { s with flt := { s.flt with takeover := !(coreOf s s.flt.active).alive } }) s

def execFwStandbyTimeout (s : State) : Ans := done s (fwStandbyTimeout s)

/-- FORMER_CORE_STANDBY: step 6; the image then goes to the copy that is not preferred (16 R307). -/
def formerCoreStandby (s : State) : State :=
  match s.flt.fw with
  | none => s
  | some j =>
    if j.step ≠ 5 then s
    else
      let former := 1 - s.flt.active
      let s := setCore former { coreOf s former with fed := s.tick } s
      { s with sec := { s.sec with flashBusy := true, flashCopy := 1 - prefNow s } }
        |> wr .flt F.FLT_FW_STS_STAGED 0 |> fwEnd 1 St.ok j.img.version j.ctx
        |> post 128 0x13 [(16, j.old), (20, j.img.version)]

def execFormerCoreStandby (s : State) : Ans := done s (formerCoreStandby s)

/-- FLASH_WRITE_DONE (16 R307): result 1 written and read back, 2 write failed, 3 readback invalid. The copy read back is validated, and
one that fails is not made preferred. What a failed write leaves in the copy is open. -/
def flashWriteDone (result : Nat) (s : State) : State :=
  if !s.sec.flashBusy then s
  else
    let copy := s.sec.flashCopy
    let result := if result = 1 ∧ imageCheck s s.flt.staging ≠ 0 then 3 else result
    let s := { s with sec := { s.sec with flashBusy := false, flashRes := result } }
    if result = 1 then
      let s := setFlash copy s.flt.staging s
      { s with sec := { s.sec with pref := some copy } }
    else
      let s := setFlash copy (Config.flash (2 + s.free)) s
      { s with free := s.free + 1 } |> post 128 0x25 [(16, copy), (17, result)]

def execFlashWriteDone (result : Nat) (s : State) : Ans := done s (flashWriteDone result s)

end Sys2Proof.Machine
end

