-- ==== Sys2Proof/Machine/Trail.lean ====
section
/-!
DEFINITION. Sys2Proof/Machine/Trail.lean: the Trail network and the port-group power domains (01 R16-R26, 15 R298).
-/
namespace Sys2Proof.Machine

def setTrail (t : Trail) (s : State) : State := { s with trail := t }

/-! ### Routers -/

/-- Priority level of a packet type (01 Table 1.8). -/
def typPrio (typ : Nat) : Nat :=
  match typ with
  | 0x0 | 0x1 | 0x2 | 0x3 | 0x4 => 2
  | 0x5 | 0x6 => 1
  | 0x7 | 0x8 | 0x9 => 3
  | 0xA => 0
  | t => Config.trailPrio t % 4

/-- A packet that waits at an output, best first: whether `a` is granted before `b`, neither being aged (01 R18). -/
def prioBefore (a b : RWait) : Bool := decide (typPrio b.pkt.typ < typPrio a.pkt.typ)

/-- The packet that an output grants next (01 R18, R19): after an aged grant one waiting level-3 packet, then aged packets in
the order in which they aged, then the others by priority and in order of arrival. -/
def trailPick (last : Bool) (w : List RWait) : Option RWait :=
  let lvl3 := w.find? fun x => typPrio x.pkt.typ == 3
  let aged := w.foldl (fun b x => match x.aged, b with
    | some n, some (m, y) => if n < m then some (n, x) else some (m, y)
    | some n, none => some (n, x)
    | none, b => b) (none : Option (Nat × RWait))
  match last, lvl3, aged with
  | true, some x, _ => some x
  | _, _, some (_, x) => some x
  | _, _, none => w.foldl (fun b x => match b with | some y => if prioBefore x y then some x else b | none => some x) none

/-- Flits of a packet: the header and LEN + 1 of payload (01 Table 1.7). -/
def pktFlits (p : TPkt) : Nat := p.len + 2

/-- Key of an output's credit count of a level. -/
def credKey (router out lvl : Nat) : Nat := (8 * router + out) * 4 + lvl

/-- Power and boundary buffer of a domain (01 R22, R26). -/
def domOf (s : State) (g : Nat) : Dom := tget Dom.on s.trail.doms g
def bufOf (s : State) (g : Nat) : List TPkt := tget [] s.trail.buf g
def heldBack (s : State) (g : Nat) : List TPkt := tget [] s.trail.withheld g

/-- The boundary buffer has a place for a packet of a level: the 16th takes only level 3 (01 R26). -/
def bufTakes (s : State) (g lvl : Nat) : Bool :=
  decide ((bufOf s g).length < 15) || (decide ((bufOf s g).length = 15) && lvl == 3)

/-- A boundary NI gives credit of a level on its router input: its domain is on, or its buffer can take a packet of the level (01 R26). -/
def niCred (s : State) (n lvl : Nat) : Bool :=
  n < 0x90 || 0xD0 ≤ n || domOf s (n - 0x90) == .on || bufTakes s (n - 0x90) lvl

/-- An output has credit of a level: the 4-flit buffer behind it has room (01 R18), and the boundary NI that it leads to withholds
none (R26). -/
def trailCred (s : State) (router out lvl : Nat) : Bool :=
  decide (tget 0 s.trail.used (credKey router out lvl) < 4) &&
    match Config.localNi router out with
    | some n => niCred s n lvl
    | none => true

/-- Two packets come by the same buffer of a router: that of an input and level. -/
def RWait.sameBuf (x y : RWait) : Bool :=
  x.router == y.router && x.inp == y.inp && typPrio x.pkt.typ == typPrio y.pkt.typ

/-- Flits that stand before a packet in the buffer of its input and level. -/
def ahead (w : List RWait) (x : RWait) : Nat :=
  ((w.takeWhile fun y => y != x).filter x.sameBuf |>.map (pktFlits ·.pkt)).sum

/-- A packet whose header has come into its buffer of 4 flits; the others wait behind it, in the router before (01 R18). -/
def inBuf (w : List RWait) (x : RWait) : Bool := decide (ahead w x < 4)

/-- A packet at the head of its buffer, which alone asks for an output. -/
def atFront (w : List RWait) (x : RWait) : Bool := decide (ahead w x = 0)

/-- Flit credits of the levels come back for an output. -/
def credBack (router out : Nat) (cred : List Nat) (s : State) : State :=
  s.each (List.range 4) fun l s =>
    let k := credKey router out l
    setTrail { s.trail with used := tput 0 s.trail.used k (tget 0 s.trail.used k - cred.getD l 0) } s

/-- The packets that a place given back lets into their buffer begin to wait at their output (01 R19). -/
def enterBuf (tick : Nat) (old new : List RWait) : List RWait :=
  new.map fun x => if inBuf new x && !inBuf old x then { x with since := tick } else x

/-- Ticks in which a packet that is granted now can have passed its output, one flit a clock (01 R16; log 117). -/
def passTime (p : TPkt) : Nat := (2 * pktFlits p + 24) / 25

/-- The router acts on a granted packet: it leaves for the next router, or for the local NI when its hops are used up; each of its flits
takes credit of its level, and its input gives back what it held. -/
def trailGrant (x : RWait) (s : State) : State :=
  let t := s.trail
  let key := (x.router, x.out)
  let last := t.agedLast.filter (· != key)
  let lvl := typPrio x.pkt.typ
  let k := credKey x.router x.out lvl
  let s := setTrail { t with
    wait := enterBuf s.tick t.wait (t.wait.erase x), agedLast := if x.aged.isSome then last ++ [key] else last
    used := tput 0 t.used k (tget 0 t.used k + pktFlits x.pkt)
    passed := tput 0 t.passed (8 * x.router + x.out) (s.tick + passTime x.pkt) } s
  let s := s.say (.trailCredit x.router x.inp lvl (pktFlits x.pkt))
  if x.pkt.hops = 0 then
    let s := s.say (.trailDeliver x.router x.out x.pkt)
    match Config.localNi x.router x.out with
    | some n =>
      if x.pkt.typ = 2 ∨ x.pkt.typ = 3 ∨ x.pkt.typ = 6 then
        setTrail { s.trail with reqs := dropFirst (fun r => r.ni == n && r.tag == x.pkt.tag) s.trail.reqs } s
      else s
    | none => s
  else s.say (.trailHop x.router x.out x.pkt)

/-- An output that is free grants one of the packets at the heads of their buffers; a level without credit holds up no other. -/
def trailServe (router out : Nat) (s : State) : State :=
  let w := s.trail.wait.filter fun x =>
    x.router == router && x.out == out && atFront s.trail.wait x && trailCred s router out (typPrio x.pkt.typ)
  match trailPick (s.trail.agedLast.contains (router, out)) w with
  | none => s
  | some x => trailGrant x s

/-- The tail of an output's last packet has passed: its time is over, and of the flits sent no more are out than the buffers behind
the output hold (01 R18). -/
def outFree (s : State) (router out : Nat) : Bool :=
  decide (tget 0 s.trail.passed (8 * router + out) ≤ s.tick) &&
    (List.range 4).all fun l => decide (tget 0 s.trail.used (credKey router out l) ≤ 4)

/-- Every output whose last packet has passed grants the next one: what the routers do as time goes on (log 142). -/
def trailTick (s : State) : State :=
  s.each ((s.trail.wait.map fun x => (x.router, x.out)).dedup) fun k s =>
    if outFree s k.1 k.2 then trailServe k.1 k.2 s else s

/-- A request that a router takes from its sending NI runs under that NI's completion timeout (01 Table 1.12; log 22). -/
def noteRequest (p : TPkt) (s : State) : State :=
  let isReq := p.typ == 0 || p.typ == 1 || p.typ == 4 || p.typ == 5
  if !isReq || s.trail.reqs.any (fun r => r.ni == p.src && r.tag == p.tag) then s
  else setTrail { s.trail with
    reqs := s.trail.reqs ++ [⟨p.src, p.tag, p.typ, s.tick + rd s (.ni p.src) F.NI_TMO_TMO⟩] } s

/-- Destination number of a router's management NI (17 R335); routers M0 to M3 first, then t.0 to t.3 of each tile. -/
def routerNi (r : Nat) : Nat := if r < 4 then 3 * r else 0x10 + 16 * ((r - 4) / 4) + 4 * ((r - 4) % 4)

/-- A STOPPED NI passes nothing into its router but the replies to accesses of its own page (17 Table 17.12). -/
def niHolds (s : State) (router inp : Nat) (p : TPkt) : Bool :=
  match Config.localNi router inp with
  | some n => rd s (.ni n) F.BLK_CTL_RUN == 2 && p.typ != 2 && p.typ != 3
  | none => false

/-- TRAIL_PACKET (01 R17, R18): a packet has come to an input of a router, and `cred` flit credits of the levels have come back
for its output; `free`: the tail of the packet before it has passed there, and the output grants one packet. -/
def trailPacket (router inp : Nat) (p : TPkt) (free : Bool) (cred : List Nat) (s : State) : State :=
  if niHolds s router inp p then s
  else if p.hops = 0 ∨ 12 < p.hops then
    s |> wr (.ni (routerNi router)) F.NI_STS_ROUTE_ERR 1 |> State.say (.trailCredit router inp (typPrio p.typ) (pktFlits p))
      |> raise 0x0F none none
  else
    let out := p.route % 8
    let q : TPkt := { p with route := p.route / 8, hops := p.hops - 1 }
    let s := s |> credBack router out cred |> noteRequest p
    let s := setTrail { s.trail with wait := s.trail.wait ++ [⟨router, out, inp, q, s.tick, none⟩] } s
    if free then trailServe router out s else s

def execTrailPacket (router : Nat) (p : TArr) (o : TOutSt) (s : State) : Ans :=
  done s (trailPacket router p.inp p.pkt o.free o.cred s)

/-- Ticks in which 1,024 clocks have passed (01 R19): 81.92, the last one begun (log 117). -/
def ageTicks : Nat := 82

/-- A packet of level 0 to 2 waits at an output and has not aged. -/
def RWait.young (router out : Nat) (w : List RWait) (x : RWait) : Bool :=
  x.router == router && x.out == out && x.aged.isNone && typPrio x.pkt.typ != 3 && inBuf w x

/-- PACKET_AGED (01 R19): the packet of level 0 to 2 that has waited longest at the output has waited 1,024 clocks. -/
def packetAged (router out : Nat) (s : State) : State :=
  match s.trail.wait.find? (RWait.young router out s.trail.wait) with
  | none => s
  | some x => atTick (x.since + ageTicks) (fun s =>
      let t := s.trail
      setTrail { t with
        wait := modFirst (RWait.young router out t.wait) (fun x => { x with aged := some t.agedSeq }) t.wait
        agedSeq := t.agedSeq + 1 } s) s

def execPacketAged (router out : Nat) (s : State) : Ans := done s (packetAged router out s)

/-! ### Fabric time and timeouts of network interfaces -/

/-- Set an NI's copy. -/
def setNiTime (ni value : Nat) (s : State) : State :=
  setTrail { s.trail with
    delta := tput 0 s.trail.delta ni ((value + 2 ^ 64 - (s.tick + s.trail.base) % 2 ^ 64) % 2 ^ 64) } s

/-- The FTM time check source of an NI (12 Tables 12.1, 12.2): the M-die's, or its tile's. -/
def niSource (ni : Nat) : Nat :=
  if ni < 0x10 then 0x02 else if ni < 0x90 then tileSrcNo ((ni - 0x10) / 16) 17 else tileSrcNo ((ni - 0x90) / 8) 17

/-- TIME_MESSAGE (01 R20): `inst` is the tick at which the value applies. -/
def timeMessage (ni value inst : Nat) (check : Bool) (s : State) : State :=
  atTick inst (fun s =>
    if check then
      if niTime s ni = value then s else s |> raise (niSource ni) none none |> setNiTime ni value
    else setNiTime ni value s) s

def execTimeMessage (ni value inst : Nat) (check : Bool) (s : State) : Ans := done s (timeMessage ni value inst check s)

/-- NI_REQUEST_TIMEOUT (02 R37, 01 Table 1.12, 17 R321): a read completes with all ones, anything else is lost. -/
def niRequestTimeout (ni tag : Nat) (s : State) : State :=
  match s.trail.reqs.find? fun r => r.ni == ni && r.tag == tag with
  | none => s
  | some r => atTick r.deadline (fun s =>
      setTrail { s.trail with reqs := dropFirst (fun r => r.ni == ni && r.tag == tag) s.trail.reqs } s
        |> wr (.ni ni) F.NI_STS_TMO 1 |> State.say (.niReply ni r.typ tag (if r.typ = 0 then [0xFFFFFFFF] else []))) s

def execNiRequestTimeout (ni tag : Nat) (s : State) : Ans := done s (niRequestTimeout ni tag s)

/-- NI_RT_HI_COMMIT (01 R21, Table 1.11). -/
def niRtHiWrite (ni w : Nat) (s : State) : State :=
  let pg := Page.ni ni
  if rd s pg F.BLK_CTL_RUN ≠ 2 then setTrail { s.trail with stage := tput 0 s.trail.stage ni 0 } s |> reject pg
  else
    let hops := F.NI_RT_HI_HOPS.of w
    let e : RouteEnt := ⟨F.NI_RT_HI_VALID.of w == 1 && decide (1 ≤ hops) && decide (hops ≤ 12), hops,
      F.NI_RT_HI_ROUTE_HI.of w * 2 ^ 32 + tget 0 s.trail.stage ni⟩
    setTrail { s.trail with routes := tput none s.trail.routes (256 * ni + rd s pg F.NI_RT_IDX_IDX) (some e) } s

/-! ### Port-group power domains (01 R22-R26) -/

/-- A domain's power changes; ASLEEP shows from the end of a power-down to the end of the wake (log 118). -/
def setDom (g : Nat) (d : Dom) (s : State) : State :=
  setTrail { s.trail with doms := tput Dom.on s.trail.doms g d } s
    |> wrb (.ni (0x90 + g)) F.NI_STS_ASLEEP (match d with | .asleep | .waking _ => true | _ => false)

/-- Every controller of a domain is in OFF or assigned to no link (01 R22). -/
def domIdle (s : State) (g : Nat) : Bool :=
  (List.range' (8 * g) 8).all fun p => roleOf s (leadOf s p) == 0 || (linkOf s (leadOf s p)).phase == .off

/-- Values of the banks of a domain's controllers (01 R25). -/
def domainCounters (s : State) (g : Nat) : List Nat :=
  (List.range' (8 * g) 8).flatMap fun p =>
    ((List.range 8).map fun i => ctrVal s (ctrKey p i)) ++ (List.range 8).map fun i => ctrVal s (ctrKey (512 + p) i)

/-- Step 2 of Table 1.15: the counter banks are saved to the always-on boundary. -/
def saveCounters (g : Nat) (s : State) : State :=
  setTrail { s.trail with saved := tput [] s.trail.saved g (domainCounters s g) } s

/-- DOMAIN_POWER_DOWN (01 R22). -/
def domainPowerDown (g : Nat) (s : State) : State :=
  if domOf s g = .on ∧ domIdle s g then s |> setDom g (.down s.tick) |> saveCounters g else s

def execDomainPowerDown (g : Nat) (s : State) : Ans := done s (domainPowerDown g s)

/-- Set the boundary buffer of a domain, with BND_FULL (01 R26, Table 1.13). -/
def setBuf (g : Nat) (l : List TPkt) (s : State) : State :=
  setTrail { s.trail with buf := tput [] s.trail.buf g l } s |> wrb (.ni (0x90 + g)) F.NI_STS_BND_FULL (decide (16 ≤ l.length))

/-- Types that wake a sleeping domain (01 Table 1.8). -/
def wakingTyp (typ : Nat) : Bool := [0x0, 0x1, 0x4, 0x9, 0xA].contains typ

/-- A packet waits in the boundary buffer. One that it cannot take stands in the NI's 4-flit input buffer of its level, whose credit is
withheld (01 R26, R18); with that full too it has not left the router yet, and nothing happens (log 143). -/
def bufPut (g : Nat) (p : TPkt) (s : State) : State :=
  let lvl := typPrio p.typ
  let l := heldBack s g
  if bufTakes s g lvl then setBuf g (bufOf s g ++ [p]) s
  else if 4 ≤ ((l.filter fun q => typPrio q.typ == lvl).map pktFlits).sum then s
  else setTrail { s.trail with withheld := tput [] s.trail.withheld g (l ++ [p]) } s

/-- WAITING of PWR_TOK_STS (15 Table 15.19). -/
def showWaiting (s : State) : State := wr .pwr F.PWR_TOK_STS_WAITING s.trail.wakes.length s

/-- A wake request of a packet held in the boundary buffer goes to the power controller (01 R23, 15 R298). -/
def wakeRequest (g prio : Nat) (s : State) : State :=
  if s.trail.wakes.any (·.g == g) then s
  else setTrail { s.trail with wakes := s.trail.wakes ++ [⟨g, prio, s.time / 128, s.tick⟩] } s
    |> bump (.ni (0x90 + g)) F.NI_PD_CNT_HELD_WAKES |> showWaiting

/-- A boundary NI answers a packet that wakes nothing (01 R25): counters from the values saved at the power-down; a time message
(value, instant, 1 for a check: log 117) acts on its own copy; a fault-handling order is answered as complete, by a write
acknowledgement without payload (log 118). Types that neither wake nor are answered wait in the buffer (log 118). -/
def boundaryAnswer (g : Nat) (p : TPkt) (s : State) : State :=
  match p.typ with
  | 5 => s.say (.niReply p.src 6 p.tag (tget [] s.trail.saved g))
  | 7 => timeMessage (0x90 + g) (p.payload.getD 0 0) (p.payload.getD 1 0) (p.payload.getD 2 0 == 1) s
  | 8 => s.say (.niReply p.src 3 p.tag [])
  | _ => bufPut g p s

/-- The boundary buffer delivers its packets in order of arrival, and then those withheld behind it (01 R24, R26; log 143). -/
def deliverBuf (g : Nat) (s : State) : State :=
  let l := bufOf s g ++ heldBack s g
  s |> setBuf g [] |> (fun s => setTrail { s.trail with withheld := tput [] s.trail.withheld g [] } s)
    |> State.each l fun p => State.say (.boundary g p)

/-- BOUNDARY_PACKET (01 R23, R25, R26). Non-waking packets that wait in the buffer when a power-down is aborted are delivered with the
packet that aborts it, and a domain that wakes is answered for like one asleep (log 143). -/
def boundaryPacket (g : Nat) (p : TPkt) (s : State) : State :=
  match domOf s g with
  | .on => s.say (.boundary g p)
  | .down since =>
    if !wakingTyp p.typ then boundaryAnswer g p s
    else if s.tick < since + 41 then
      s |> setDom g .on |> bump (.ni (0x90 + g)) F.NI_PD_CNT_ABORTS |> deliverBuf g |> State.say (.boundary g p)
    else bufPut g p s
  | .asleep =>
    if !wakingTyp p.typ then boundaryAnswer g p s
    else s |> bufPut g p |> wakeRequest g (typPrio p.typ)
  | .waking _ => if !wakingTyp p.typ then boundaryAnswer g p s else bufPut g p s

def execBoundaryPacket (g : Nat) (p : TPkt) (s : State) : Ans := done s (boundaryPacket g p s)

/-- POWER_DOWN_COMPLETE (01 Table 1.15, R23): 300 ticks after the request. -/
def powerDownComplete (g : Nat) (s : State) : State :=
  match domOf s g with
  | .down since => atTick (since + 300) (fun s =>
      let s := setDom g .asleep s
      match (bufOf s g).find? fun p => wakingTyp p.typ with
      | some p => wakeRequest g (typPrio p.typ) s
      | none => s) s
  | _ => s

def execPowerDownComplete (g : Nat) (s : State) : Ans := done s (powerDownComplete g s)

/-- Tokens of a refill slot and the cost of a wake, in force (15 R298). -/
def tokCost (s : State) : Nat := rdf s .pwr F.PWR_TOK_CFG_COST
def tokBudget (s : State) : Nat := max (rdf s .pwr F.PWR_TOK_CFG_BUDGET) (tokCost s)

/-- The wake that draws first: highest PRIO, then the earlier request, then the lower port group (15 R298). -/
def wakeFirst (l : List Wake) : Option Wake :=
  l.foldl (fun b w => match b with
    | none => some w
    | some x =>
      if x.prio < w.prio ∨ (x.prio = w.prio ∧ (w.asked < x.asked ∨ (w.asked = x.asked ∧ w.g < x.g))) then some w
      else b) none

/-- WAKE_START (15 R298). -/
def wakeStart (s : State) : State :=
  match wakeFirst s.trail.wakes with
  | none => s
  | some w =>
    if tokBudget s < s.trail.tokUsed + tokCost s then s
    else
      let wait := s.time / 128 - w.since
      setTrail { s.trail with wakes := s.trail.wakes.erase w, tokUsed := s.trail.tokUsed + tokCost s } s
        |> setDom w.g (.waking s.tick) |> showWaiting
        |> wr .pwr F.PWR_TOK_STS_MAX_WAIT (max (rd s .pwr F.PWR_TOK_STS_MAX_WAIT) (min wait 0xFFFF))

def execWakeStart (s : State) : Ans := done s (wakeStart s)

/-- WAKE_COMPLETE (01 R24, R26): 600 ticks after the ramp began; the buffer, then the packets withheld, are delivered. -/
def wakeComplete (g : Nat) (s : State) : State :=
  match domOf s g with
  | .waking since => atTick (since + 600) (fun s => s |> setDom g .on |> deliverBuf g) s
  | _ => s

def execWakeComplete (g : Nat) (s : State) : Ans := done s (wakeComplete g s)

end Sys2Proof.Machine
end

