-- ==== Sys2Proof/Machine/Telemetry.lean ====
section
/-!
DEFINITION. Sys2Proof/Machine/Telemetry.lean: reading and clearing counters, filters, snapshots, and the settings of tagging and
Skylight (13 R248-R263).
-/
namespace Sys2Proof.Machine

/-! ### Counters (13 R248, R251, R254) -/

/-- Writing CLR of a bank: it clears after the next snapshot. -/
def bankClear (pg : Page) (s : State) : State :=
  if !pg.bank || bankHidden s pg then s else wr pg F.CTR_BANK_CTL_CLR 1 s

/-- CTR_BANK_CLEAR. -/
def execCtrBankClear (bank : Nat) (s : State) : Ans :=
  done s (match bankPage bank with
    | some pg => regGate pg (bankClear pg) s
    | none => s)

/-- A counter fails its parity on a read or a latch. -/
def ctrFail (k : Nat) (s : State) : State := s |> ctrRestart k |> raise 0x0E none none

/-- The source of a counter that has failed on an increment is raised. -/
def parDue (s : State) : State :=
  if s.tel.parErr then { s with tel := { s.tel with parErr := false } } |> raise 0x0E none none else s

/-- A read of CTR_LOi of a page: the value, after its high half is latched. -/
def ctrRead (pg : Page) (i : Nat) (perr : Bool) (s : State) : Nat × State :=
  match bankSlot pg with
  | none => (0, s)
  | some slot =>
    if bankHidden s pg then (0, s)
    else
      let k := ctrKey slot i
      let s := s.when (perr || s.tel.struck.contains k) (ctrFail k)
      let v := ctrVal s k
      (v % 2 ^ 32, { s with tel := { s.tel with latchHi := tput 0 s.tel.latchHi k (v / 2 ^ 32) } })

/-- CTR_LO_READ: the value goes to the reader. -/
def ctrLoRead (bank i : Nat) (perr : Bool) (s : State) : State :=
  let addr := bank * 0x1000 + 0x840 + 8 * i
  match bankPage bank with
  | none => s.say (.regData 0 addr 0)
  | some pg =>
    if !s.mode.isUp then s.say (.regData 0 addr 0)
    else
      let (v, s) := ctrRead pg i perr s
      s.say (.regData 0 addr v)

def execCtrLoRead (bank i : Nat) (perr : Bool) (s : State) : Ans := done s (ctrLoRead bank i perr s)

/-- CTR_FILTER: the three words as one commit, complete when they are in force (13 R251). -/
def ctrFilter (c : Ctx) (bank : Nat) (f0 f1 f2 : Word) (s : State) : State :=
  match (bankPage bank).filter Page.general with
  | none => finish c 0x61 St.cfgInvalid s
  | some pg =>
    mirrorGate true pg c 0x61 (fun s =>
      if bankHidden s pg then finish c 0x61 St.ok s
      else s |> putReg pg 0x804 f0.toNat allBits |> putReg pg 0x808 f1.toNat allBits |> putReg pg 0x80C f2.toNat allBits
        |> finishAt true c 0x61) s

def execCtrFilter (c : Ctx) (bank : Nat) (f0 f1 f2 : Word) (s : State) : Ans := done s (byCore (ctrFilter c bank f0 f1 f2) s)

/-! ### Snapshots (13 R252, R253) -/

/-- The port-group domain of a bank is asleep or going down. -/
def bankAsleep (s : State) (slot : Nat) : Bool := decide (slot < 1024) && domOf s (slot % 512 / 8) != .on

/-- A counter as its domain saved it at its power-down (01 R25). -/
def savedCtr (s : State) (k : Nat) : Nat :=
  let slot := k / 8
  (tget [] s.trail.saved (slot % 512 / 8)).getD (slot % 512 % 8 * 16 + slot / 512 * 8 + k % 8) 0

/-- A bank of a member controller, which reads 0 (13 R249). -/
def slotHidden (s : State) (slot : Nat) : Bool := decide (slot < 1024) && (memberOf s (slot % 512)).isSome

/-- What a snapshot latches: the counters at the end of the previous tick, for a bank that is asleep its saved values, and 0 for one of a
member controller. -/
def snapVals (s : State) (asleep : List Nat) : Tbl Nat :=
  let now := s.tel.early.foldl (fun m e => tput 0 m e.1 ((tget 0 m e.1 + 2 ^ 48 - e.2) % 2 ^ 48)) s.tel.ctrs
  let now := now.filter fun e => !slotHidden s (e.1 / 8)
  let asleep := asleep.filter fun b => !slotHidden s b
  (asleep.flatMap fun b => (List.range 8).map (ctrKey b)).foldl (fun m k => tput 0 m k (savedCtr s k)) now

/-- The latch of an epoch boundary, skipped while the record before is unfinished; then CLR acts (13 R248, R252). `x`: counters
that fail their parity at the latch, as one does that was struck before it; those struck after it. -/
def snapLatch (x : CtrStrikes) (s : State) : State :=
  let later (s : State) : State := { s with tel := { s.tel with struck := (s.tel.struck ++ x.struck).dedup } }
  if frozen s || s.mode == .off || s.mode == .precharge then s
  else
    let epoch := epochOf s.time
    let t := s.tel
    if t.snapNow.isSome then
      later { s with tel := { t with snapSeq := t.snapSeq + 1, skips := t.skips + 1, early := [] } }
        |> bump .tel F.TEL_SNAP_SKIP_SKIPPED |> post 128 0x30 [(16, epoch)]
    else
      let s := s.each (x.latch ++ s.tel.struck.filter fun k => !x.latch.contains k) ctrFail
      let t := s.tel
      let st := rd s .ftm F.FTM_STS_STATE
      let asleep := (List.range 1056).filter (bankAsleep s)
      let flags := (st == 2).toNat + 2 * (st == 0).toNat + 4 * (!t.perr.isEmpty).toNat
      let snap : Snap := ⟨t.snapSeq, epoch, t.skips, flags, snapVals s asleep, t.perr, asleep⟩
      let early := t.early
      let s := { s with tel := { t with snapNow := some snap, snapSeq := t.snapSeq + 1, skips := 0, perr := [], early := [] } }
        |> wr .tel F.TEL_STS_COLLECTING 1
      later <| s.each (List.range 16384) fun n s =>
        match bankPage n with
        | none => s
        | some pg =>
          if rdb s pg F.CTR_BANK_CTL_CLR then
            let slot := (bankSlot pg).getD 0
            let s := wr pg F.CTR_BANK_CTL_CLR 0 s
            s.each (List.range 8) fun i => setCtr (ctrKey slot i) (tget 0 early (ctrKey slot i))
          else s

/-- A word of a bank entry (13 Table 13.4). -/
def Snap.ctrWord (x : Snap) (k : Nat) : Nat :=
  2 ^ 63 + (x.perr.contains k).toNat * 2 ^ 62 + (x.asleep.contains (k / 8)).toNat * 2 ^ 61 + tget 0 x.vals k

/-- 32-bit word `i` of a record (13 Table 13.3); 0 beyond it. -/
def Snap.word (x : Snap) (i : Nat) : Nat :=
  if i < 16 then
    [0x534E4150, x.seq % 2 ^ 32, x.epoch % 2 ^ 32, x.epoch / 2 ^ 32, 1056, x.skipped, x.flags].getD i 0
  else if i < 16912 then bits (x.ctrWord ((i - 16) / 2)) (32 * (i % 2)) 32
  else 0

/-- Bytes of a record. -/
def snapBytes : Nat := 67648

/-- A word of the counter-snapshot window (17 R338). -/
def snapWord (s : State) (i : Nat) : Nat :=
  match s.tel.snapWin with
  | some x => x.word i
  | none => 0

/-- A field takes a value at once, in force too, whatever was staged for it. -/
def wrNow (pg : Page) (f : Fld) (v : Nat) (s : State) : State :=
  { wr pg f v s with rwe := tput none s.rwe (rweKey pg f) none }

/-- SNAPSHOT_COLLECTED: the record is placed in the window and, with EN, in the ring of the manager's memory; LAST follows when every
copy is complete, so not when the write of the ring failed. -/
def snapshotCollected (ringOk : Bool) (s : State) : State :=
  match s.tel.snapNow with
  | none => s
  | some x =>
    let s := { s with tel := { s.tel with snapNow := none, snapWin := some x } }
      |> wr .tel F.TEL_STS_COLLECTING 0
    let last := wr .tel F.TEL_SNAP_STS_LAST x.seq
    if rdf s .tel F.TEL_SNAP_CFG_EN = 0 then last s
    else
      let ep := rdf s .tel F.TEL_SNAP_CFG_EP
      if ringOk && mgUp s ep then
        let base := rdf s .tel F.TEL_SNAP_BASE_LO_BASE_LO * 2 ^ 12 + rdf s .tel F.TEL_SNAP_BASE_HI_BASE_HI * 2 ^ 32
        let at_ := base + x.seq % 2 ^ rdf s .tel F.TEL_SNAP_CFG_LOG2 * 2 ^ 17
        s |> State.say (.dma ep at_ snapBytes ((List.range 16912).map x.word)) |> last
      else
        s |> wr .tel F.TEL_STS_SNAP_DMA 1 |> wrNow .tel F.TEL_SNAP_CFG_EN 0 |> post 128 0x32 [(16, 0), (17, ep)]

def execSnapshotCollected (ringOk : Bool) (s : State) : Ans := done s (snapshotCollected ringOk s)

/-- SNAPSHOT: the window is copied to the manager's buffer. -/
def snapshot (c : Ctx) (buf len : Nat) (good : Bool) (s : State) : State :=
  if !good || !mgUp s c.ep then finish c 0x07 St.dmaErr s
  else
    let n := min len snapBytes
    s |> State.say (.dma c.ep buf n ((List.range ((n + 3) / 4)).map (snapWord s))) |> complete c 0x07 St.ok n 0

def execSnapshot (c : Ctx) (buf len : Nat) (good : Bool) (s : State) : Ans := done s (byCore (snapshot c buf len good) s)

/-! ### Tagging and Skylight (13 R258-R261) -/

/-- TAG_SET: in force at the next refill slot. -/
def tagSet (c : Ctx) (n : Nat) (en : Bool) (s : State) : State :=
  if n < 8 ∨ 24 < n then finish c 0x62 St.badArg s
  else s |> stage .tel F.TEL_TAG_CFG_N n |> stage .tel F.TEL_TAG_CFG_EN en.toNat |> finishAt false c 0x62

def execTagSet (c : Ctx) (n : Nat) (en : Bool) (s : State) : Ans := done s (byCore (tagSet c n en) s)

/-- A ring that was set before this tick starts empty. -/
def skyRing (s : State) : State :=
  match s.tel.skyPend with
  | some t =>
    if t = s.time then s
    else { s with tel := { s.tel with skyPend := none } } |> wr .tel F.TEL_SKY_HEAD_IDX 0 |> wr .tel F.TEL_SKY_TAIL_IDX 0
  | none => s

/-- SKYLIGHT_SET: ring base and size in records, a power of two that LOG2 can name, written through the issuing endpoint. -/
def skylightSet (c : Ctx) (base size : Nat) (s : State) : State :=
  let log := Nat.log2 size
  if size ≠ 2 ^ log ∨ log < 6 ∨ 15 < log ∨ base % 4096 ≠ 0 then finish c 0x60 St.badArg s
  else
    let s := s.when (slotDue s) skyRing
    let s := s |> stage .tel F.TEL_SKY_BASE_LO_BASE_LO (bits base 12 20) |> stage .tel F.TEL_SKY_BASE_HI_BASE_HI (base / 2 ^ 32)
      |> stage .tel F.TEL_SKY_CFG_LOG2 log |> stage .tel F.TEL_SKY_CFG_EP c.ep
    { s with tel := { s.tel with skyPend := some s.time } } |> finishAt false c 0x60

def execSkylightSet (c : Ctx) (base size : Nat) (s : State) : Ans := done s (byCore (skylightSet c base size) s)

/-- At a refill-slot boundary: the record budget of the tiles starts again, and a ring that was set starts empty. -/
def skyBoundary (s : State) : State := skyRing { s with tel := { s.tel with skySlot := [] } }

/-- A write of TEL_SKY_HEAD: one that breaks the rule of a CQ head is ignored (11 R207). -/
def skyHeadWrite (v m : Nat) (s : State) : State :=
  if F.TEL_SKY_HEAD_IDX.of m = 0 then s
  else
    let n := 2 ^ rdf s .tel F.TEL_SKY_CFG_LOG2
    let h := rd s .tel F.TEL_SKY_HEAD_IDX
    let v := F.TEL_SKY_HEAD_IDX.merge h v m
    if v < 2 * n ∧ ringDiff n v h ≤ ringDiff n (rd s .tel F.TEL_SKY_TAIL_IDX) h then
      s |> skySettle |> wr .tel F.TEL_SKY_HEAD_IDX v |> skyRelease
    else s

/-- TEL_SKY_HEAD_WRITE. -/
def execTelSkyHeadWrite (v : Word) (s : State) : Ans := done s (regGate .tel (skyHeadWrite v.toNat allBits) s)

end Sys2Proof.Machine
end

