-- ==== Sys2Proof/Machine/Ftm.lean ====
section
/-!
DEFINITION. Sys2Proof/Machine/Ftm.lean: the sources of fabric time, TIME_SET and the cancelling of schedule entries
(02 R29-R36, R41, R359).
-/
namespace Sys2Proof.Machine


/-- No selected source is left that is not lost: HOLDOVER (02 R32); so also when a write deselects the last one (02 R359). -/
def ftmLost (s : State) : State :=
  if rd s .ftm F.FTM_STS_STATE ≠ 1 then s
  else if (fsSel s && rdb s .ftm F.FTM_STS_FSYNC_OK) || (ringSel s && rdb s .ftm F.FTM_STS_RING_OK) then s
  else s |> wr .ftm F.FTM_STS_STATE 2 |> setFtm { s.ftm with agreeFs := none, agreeRing := none }
    |> bump .ftm F.FTM_SRC_CNT_HOLDOVER_CNT |> raise 0x01 none none

/-- The end of a TIME_SET that no instant of loading has met within four epochs; a ring load that came for it in HOLDOVER goes
with it (02 R30). -/
def timeSetRefuse (x : TSet) (s : State) : State :=
  s |> setFtm { s.ftm with tset := none, ringPend := if ftmUnset s then s.ftm.ringPend else none }
    |> finish x.ctx 0x02 St.refused

/-- A TIME_SET whose four epochs are over ends before anything could load the count for it. -/
def timeSetOverdue (s : State) : State :=
  match s.ftm.tset with
  | some x => if x.tick + 4 * epochTicks < s.tick then timeSetRefuse x s else s
  | none => s

/-- The time message that carries a new count to every NI; it names an instant 512 ticks ahead (01 R20). -/
def sendTime (s : State) : State := s.say (.timeMsg ((s.time + 512) % 2 ^ 64) (s.tick + 512))

/-- A boundary that has been acted on in this tick stays so when the count is loaded in it; none else has been. -/
def doneMark (done old new : Nat) : Nat := if done = old then new else 2 ^ 64

/-- The count is loaded, and the FTM enters LOCKED; a TIME_SET in flight completes (02 R29, R30, R359). `via`: 0 FSYNC, 1 ring,
2 none. -/
def ftmLoad (value via : Nat) (s : State) : State :=
  let unset := ftmUnset s
  let ts := s.ftm.tset
  let v := value % 2 ^ 64
  let s := settleMiss s
  let s := { s with
    time := v
    ftm := { s.ftm with
      slotDone := doneMark s.ftm.slotDone s.time v, epochDone := doneMark s.ftm.epochDone s.time v
      ringPend := none, tset := none, fsRun := 0, fsConf := via == 0, prov := none
      ringRun := 0, ringSeen := true, agreeFs := none, agreeRing := none } }
  let s := s |> wr .ftm F.FTM_STS_STATE 1 |> sendTime
  let s := s.when (unset || via == 0) (wrb .ftm F.FTM_STS_FSYNC_OK (fsSel s))
  let s := s.when (unset || via == 1) (wrb .ftm F.FTM_STS_RING_OK (ringSel s))
  match ts with
  | some t => complete t.ctx 0x02 St.ok (epochOf s.time) 0 s
  | none => s

/-- A comparison in HOLDOVER: the signed difference, source minus count, goes to FTM_OFFSET (02 R33). -/
def putOffset (d : Int) (s : State) : State :=
  let d := if d < -(2 ^ 31) then -(2 ^ 31) else if 2 ^ 31 - 1 < d then 2 ^ 31 - 1 else d
  wr .ftm F.FTM_OFFSET_OFFSET (toTwos 32 d) s

/-- Since when a source agrees within one tick, its last agreeing comparison having been at `last`, at most `gap` ticks ago. -/
def agree (d : Int) (since : Option Nat) (last gap : Nat) (s : State) : Option Nat :=
  if d < -1 ∨ 1 < d then none else if since.isSome ∧ s.tick ≤ last + gap then since else some s.tick

/-- A confirming edge `x` ticks after the start of an epoch: the boundary it lies at is confirmed, and a lost FSYNC is good again (02 R31;
log 145). -/
def fsConfirm (x : Nat) (s : State) : State :=
  let s := s |> settleMiss |> wr .ftm F.FTM_STS_FSYNC_OK 1
  match s.ftm.prov with
  | some b => if b = s.time - x ∧ x ≤ 1 then setFtm { s.ftm with prov := none, fsRun := 0 } s else setFtm { s.ftm with fsConf := true } s
  | none => if x = 1 then s else setFtm { s.ftm with fsConf := true } s

/-- FSYNC_EDGE (02 R29-R33). -/
def fsyncEdge (s : State) : State :=
  if !fsSel s || !clockRuns s then s
  else
    let s := timeSetOverdue s
    match s.ftm.tset with
    | some t => ftmLoad (t.e * epochTicks) 0 s
    | none =>
      if ftmUnset s then s
      else
        let x := s.time % epochTicks
        let d : Int := if x < epochTicks / 2 then -(x : Int) else (epochTicks : Int) - x
        let s := s.when (rd s .ftm F.FTM_STS_STATE == 2) fun s =>
          s |> putOffset d
            |> setFtm { s.ftm with agreeFs := agree d s.ftm.agreeFs s.ftm.lastFs (epochTicks + 2) s, lastFs := s.tick }
        if d < -1 ∨ 1 < d then bump .ftm F.FTM_SRC_CNT_FSYNC_MISMATCH s else fsConfirm x s

def execFsyncEdge (s : State) : Ans := done s (fsyncEdge s)

/-- Unconfirmed boundaries in a row: the last one counts once no edge can confirm it any more, one tick after it (02 R31). -/
def missRun (s : State) : Nat := s.ftm.fsRun + (missOver s).toNat

/-- FSYNC_LOST (02 R31); in HOLDOVER the agreement of the source ends with it. -/
def fsyncLost (s : State) : State :=
  if !fsSel s || ftmUnset s || !rdb s .ftm F.FTM_STS_FSYNC_OK || missRun s < rd s .ftm F.FTM_CFG_MISS_LIM then s
  else s |> wr .ftm F.FTM_STS_FSYNC_OK 0 |> setFtm { s.ftm with agreeFs := none } |> ftmLost

def execFsyncLost (s : State) : Ans := done s (fsyncLost s)

/-- RING_LOST (02 R31); in HOLDOVER the agreement of the source ends with it. -/
def ringLost (s : State) : State :=
  if !ringSel s || ftmUnset s || !rdb s .ftm F.FTM_STS_RING_OK || s.ftm.ringRun < 2 then s
  else s |> wr .ftm F.FTM_STS_RING_OK 0 |> setFtm { s.ftm with agreeRing := none } |> ftmLost

def execRingLost (s : State) : Ans := done s (ringLost s)

/-- A valid time message is compared with the count, and a lost ring is good again, be its value equal or not (02 R31, R33; log 145). -/
def ringCompare (value inst : Nat) (s : State) : State :=
  let d : Int := (value : Int) - ((s.time : Int) + inst - s.tick)
  let s := s |> wr .ftm F.FTM_STS_RING_OK 1 |> setFtm { s.ftm with ringSeen := true, ringRun := 0 }
  let s := s.when (rd s .ftm F.FTM_STS_STATE == 2) fun s =>
    s |> putOffset d
      |> setFtm { s.ftm with agreeRing := agree d s.ftm.agreeRing s.ftm.lastRing (2 * epochTicks) s, lastRing := s.tick }
  if d = 0 then s else bump .ftm F.FTM_SRC_CNT_RING_MISMATCH s

/-- A valid time message: the count will be, or is, `value` at tick `inst` (02 R29-R33). It is compared where the count has been
set, and loaded in UNSET and for a TIME_SET that was accepted before it. -/
def ringTime (value inst : Nat) (s : State) : State :=
  if !ringSel s then s
  else
    let s := timeSetOverdue s
    let load := (ftmUnset s || s.ftm.tset.isSome) && s.ftm.ringPend.isNone
    let s := s.when load fun s => setFtm { s.ftm with ringPend := some (value, inst) } s
    if ftmUnset s then s else ringCompare value inst s

/-- RING_TIME_LOAD (02 R29, R30). -/
def ringTimeLoad (s : State) : State :=
  match s.ftm.ringPend with
  | none => s
  | some (v, t) => atTick t (fun s =>
      let s := timeSetOverdue s
      if s.ftm.ringPend.isNone then s else ftmLoad (v + (s.tick - t)) 1 s) s

def execRingTimeLoad (s : State) : Ans := done s (ringTimeLoad s)

/-- Since when a source agrees whose comparisons span one full epoch, each edge being good to one tick (02 R33). -/
def agreedEpoch (since : Option Nat) (last : Nat) : Option Nat := since.filter fun t => decide (t + epochTicks ≤ last + 2)

/-- FTM_RELOCK: a source has agreed for one full epoch (02 R33). -/
def ftmRelock (s : State) : State :=
  if rd s .ftm F.FTM_STS_STATE ≠ 2 then s
  else
    let old (a b : Option Nat) : Option Nat := match a, b with
      | some x, some y => some (min x y) | some x, none => some x | none, y => y
    match old (agreedEpoch s.ftm.agreeFs s.ftm.lastFs) (agreedEpoch s.ftm.agreeRing s.ftm.lastRing) with
    | none => s
    | some t => atTick (t + epochTicks)
        (fun s => s |> wr .ftm F.FTM_STS_STATE 1 |> setFtm { s.ftm with agreeFs := none, agreeRing := none }) s

def execFtmRelock (s : State) : Ans := done s (ftmRelock s)

/-- A change of the selected sources, from `old` (02 R359): a ring load that waits falls away with the ring (02 R29; log 119). -/
def reselect (old : Nat) (s : State) : State :=
  let fs := old == 0 || old == 2
  let rg := old == 0 || old == 1
  let s := s.when (fsSel s != fs) fun s =>
    s |> settleMiss |> wrb .ftm F.FTM_STS_FSYNC_OK (fsSel s)
      |> (fun s => setFtm { s.ftm with fsRun := 0, fsConf := false, prov := none, agreeFs := none } s)
  let s := s.when (ringSel s != rg) fun s =>
    s |> wrb .ftm F.FTM_STS_RING_OK (ringSel s)
      |> setFtm { s.ftm with ringRun := 0, ringSeen := true, agreeRing := none, ringPend := none }
  ftmLost s

/-- A write of FTM_CFG. -/
def ftmCfgWrite (v m : Nat) (s : State) : State :=
  let old := rd s .ftm F.FTM_CFG_SRC
  let s := putReg .ftm F.FTM_CFG_SRC.off v m s
  if rd s .ftm F.FTM_CFG_SRC = old then s else reselect old s

/-- A read of FTM_TIME_LO: it latches the high half (02 Table 2.8). -/
def ftmTimeLo (s : State) : Nat × State := (s.time % 2 ^ 32, wr .ftm F.FTM_TIME_HI_TIME_HI (s.time / 2 ^ 32) s)

/-- FTM_TIME_LO_READ. -/
def execFtmTimeLoRead (s : State) : Ans :=
  done s (if s.mode.isUp then let (v, s) := ftmTimeLo s; s.say (.regData 0 0x2040 v) else s.say (.regData 0 0x2040 0))

/-- TIME_SET (02 R34). -/
def timeSet (c : Ctx) (e : Nat) (s : State) : State :=
  if 2 ^ 47 ≤ e then finish c 0x02 St.badArg s
  else if rd s .ftm F.FTM_STS_STATE = 1 then finish c 0x02 St.timeLocked s
  else if !s.sched.isEmpty || s.ftm.tset.isSome then finish c 0x02 St.schedBusy s
  else setFtm { s.ftm with tset := some ⟨c, e, s.tick, s.time⟩ } s

def execTimeSet (c : Ctx) (e : Nat) (s : State) : Ans := done s (byCore (timeSet c e) s)

/-- With no source, the first tick after the acceptance of a TIME_SET at which the count reaches an epoch boundary loads it (02 R30). -/
def setLoads (s : State) : Option TSet :=
  s.ftm.tset.filter fun t =>
    rd s .ftm F.FTM_CFG_SRC == 3 && s.time % epochTicks == 0 && decide (t.tick < s.tick) && decide (s.tick ≤ t.tick + 4 * epochTicks)

def loadSet (s : State) : State :=
  match setLoads s with
  | some t => ftmLoad (t.e * epochTicks) 2 s
  | none => s

/-- TIME_SET_LOAD: with no source, at that boundary; with the ring, the instant of its load (02 R30). At an FSYNC edge it is the edge
that loads. The SRC of the loading tick decides (log 144). -/
def timeSetLoad (s : State) : State :=
  match s.ftm.tset with
  | none => s
  | some t =>
    if rd s .ftm F.FTM_CFG_SRC = 3 then
      if !clockRuns s then s
      else loadSet (if s.time % epochTicks = 0 ∧ t.tick < s.tick then s else passTicks (epochTicks - s.time % epochTicks) s)
    else ringTimeLoad s

def execTimeSetLoad (s : State) : Ans := done s (timeSetLoad s)

/-- TIME_SET_EXPIRE: four epochs have brought no instant of loading (02 R30). -/
def timeSetExpire (s : State) : State :=
  match s.ftm.tset with
  | none => s
  | some t => atTick (t.tick + 4 * epochTicks) (timeSetRefuse t) s

def execTimeSetExpire (s : State) : Ans := done s (timeSetExpire s)

/-- FTM_SCHED_CANCEL (02 R41). -/
def execFtmSchedCancel (idx : Nat) (s : State) : Ans := done s (regGate .ftm (fun s => (schedCancelAt idx s).2) s)

/-- SCHED_CANCEL (02 R41). -/
def schedCancel (c : Ctx) (idx : Nat) (s : State) : State :=
  let (done, s) := schedCancelAt idx s
  complete c 0x03 St.ok done.toNat 0 s

def execSchedCancel (c : Ctx) (idx : Nat) (s : State) : Ans := done s (byCore (schedCancel c idx) s)

/-- At an epoch boundary: the loss tests of the sources (02 R31). -/
def ftmEpoch (s : State) : State :=
  if ftmUnset s then s
  else
    let f := s.ftm
    let s := s.when (fsSel s) fun s =>
      let s := settleMiss s
      if f.fsConf then setFtm { s.ftm with fsConf := false, fsRun := 0, prov := none } s
      else setFtm { s.ftm with prov := some s.time } s
    s.when (ringSel s) fun s =>
      setFtm { s.ftm with ringRun := if s.ftm.ringSeen then 0 else s.ftm.ringRun + 1, ringSeen := false } s

end Sys2Proof.Machine
end

