-- ==== Sys2Proof/Machine/Ports.lean ====
section
/-!
DEFINITION. Sys2Proof/Machine/Ports.lean: port controllers, lanes and link power (03 R44-R64, R360).
-/
namespace Sys2Proof.Machine

/-! ### Configuration (03 R45, R46; 06 R127; 05 R88) -/

/-- The fields that a value of PHY_LINK_CFG spells. -/
structure LinkCfg where
  hpart : Nat
  rev   : Nat
  rate  : Nat
  width : Nat
  role  : Nat
deriving DecidableEq, Repr

def LinkCfg.of (v : Nat) : LinkCfg :=
  ⟨F.PHY_LINK_CFG_HPART.of v, F.PHY_LINK_CFG_LANE_REV_EN.of v, F.PHY_LINK_CFG_MAX_RATE.of v, F.PHY_LINK_CFG_WIDTH.of v,
    F.PHY_LINK_CFG_ROLE.of v⟩

/-- The configuration that a controller's register holds. -/
def cfgOf (s : State) (p : Nat) : LinkCfg :=
  let r (f : Fld) : Nat := rd s (.phy p) f
  ⟨r F.PHY_LINK_CFG_HPART, r F.PHY_LINK_CFG_LANE_REV_EN, r F.PHY_LINK_CFG_MAX_RATE, r F.PHY_LINK_CFG_WIDTH,
    r F.PHY_LINK_CFG_ROLE⟩

def putCfg (p : Nat) (c : LinkCfg) (s : State) : State :=
  s |> wr (.phy p) F.PHY_LINK_CFG_HPART c.hpart |> wr (.phy p) F.PHY_LINK_CFG_LANE_REV_EN c.rev
    |> wr (.phy p) F.PHY_LINK_CFG_MAX_RATE c.rate |> wr (.phy p) F.PHY_LINK_CFG_WIDTH c.width
    |> wr (.phy p) F.PHY_LINK_CFG_ROLE c.role

/-- Controllers of a link of a width code. -/
def LinkCfg.ctrls (c : LinkCfg) : Nat := 2 ^ c.width

/-- ROLE and MAX_RATE form an allowed pair (03 Table 3.1). -/
def rateAllowed (role rate : Nat) : Bool := if role = 3 then rate == 4 || rate == 5 else decide (rate ≤ 4)

/-- The first failed condition of R45 as CFG_ERR names it; 0 none. -/
def cfgErr (s : State) (p : Nat) (c : LinkCfg) : Nat :=
  if c.role = 0 then (if pageRun s (.phy p) = 2 then 0 else 2)
  else
    let k := if c.width < 4 then c.ctrls else 1
    let ctrls := List.range' p k
    if p % k ≠ 0 then 1
    else if (ctrls.any fun m => m != p && !(roleOf s m == 0 && (memberOf s m).all (· == p))) then 2
    else if ctrls.any fun m => pageRun s (.phy m) != 2 then 2
    else if 4 ≤ c.width ∨ !rateAllowed c.role c.rate then 3
    else if c.role == 1 && (hostLead s c.hpart).any (· != p) then 3
    else 0

/-- A change of HPART on a HOST link needs both partitions STOPPED (06 R127, 10 Table 10.3). -/
def hpartHeld (s : State) (p : Nat) (c : LinkCfg) : Bool :=
  let o := cfgOf s p
  o.role == 1 && c.role == 1 && o.hpart != c.hpart && !(partSt s o.hpart == 2 && partSt s c.hpart == 2)

/-- OFF as it acts: links do not train before RUN or MAINTENANCE is entered (15, after Table 15.7). -/
def offNow (s : State) (lead : Nat) : Bool := rdb s (.phy lead) F.PHY_LINK_CTL_OFF || !s.mode.isLive

/-- A link in OFF trains when nothing keeps it there. -/
def tryTrain (lead : Nat) (s : State) : State :=
  if roleOf s lead ≠ 0 ∧ !offNow s lead ∧ (linkOf s lead).phase = .off ∧ !(linkOf s lead).noPath then toDetect lead s else s

/-- DEGRADED of a controller that heads a link, or none: a lane of it is declared failed (03 R55). -/
def noteDegraded (p : Nat) (s : State) : State := wrb (.phy p) F.PHY_LINK_STS_DEGRADED (!(failedLanes s p).isEmpty) s

/-- Put a valid configuration in force. A lane declared failed stays so, whichever link it goes to (03 R55). -/
def applyCfg (p : Nat) (c : LinkCfg) (s : State) : State :=
  let o := cfgOf s p
  let changed := o.role != c.role || o.width != c.width || o.rate != c.rate
  if !changed then putCfg p c s
  else
    let old := if o.role = 0 then [] else List.range' (p + 1) (o.ctrls - 1)
    let new := if c.role = 0 then [] else List.range' (p + 1) (c.ctrls - 1)
    let s := if o.role = 0 then s else s |> goDown p true .off |> setOff p
    let s := s.each (old ++ new) fun m s => putCfg m ⟨0, 0, 0, 0, 0⟩ s |> wr (.phy m) F.BLK_CTL_RUN 2
    let s := s |> putCfg p c |> modLink p (fun l => { LinkS.fresh l with fullW := 0, rev := false })
    s |> State.each (p :: old.filter fun m => !new.contains m) noteDegraded
      |> State.each new (fun m => wr (.phy m) F.PHY_LINK_STS_DEGRADED 0) |> tryTrain p

/-- A write of PHY_LINK_CFG: false when it was discarded, CFG_ERR and CFG_REJECT then being set (03 R46, R47; 05 R88). -/
def linkCfgWrite (p v m : Nat) (s : State) : Bool × State :=
  if (memberOf s p).isSome then (true, s)
  else
    let old := cfgOf s p
    let f (fl : Fld) (x : Nat) : Nat := fl.merge x v m
    let c : LinkCfg := ⟨f F.PHY_LINK_CFG_HPART old.hpart, f F.PHY_LINK_CFG_LANE_REV_EN old.rev,
      f F.PHY_LINK_CFG_MAX_RATE old.rate, f F.PHY_LINK_CFG_WIDTH old.width, f F.PHY_LINK_CFG_ROLE old.role⟩
    let e := cfgErr s p c
    if e ≠ 0 then (false, s |> wr (.phy p) F.PHY_LINK_STS_CFG_ERR e |> reject (.phy p))
    else if hpartHeld s p c then (false, reject (.phy p) s)
    else
      let t := putCfg p c s
      if 49152 < guarSum t (tileOf p) ∧ guarSum s (tileOf p) < guarSum t (tileOf p) then (false, reject (.phy p) s)
      else (true, applyCfg p c s)

/-- PHY_LINK_CFG_WRITE (03 R45, R46). -/
def phyLinkCfgWrite (p : Nat) (v : Word) (s : State) : State := (linkCfgWrite p v.toNat allBits s).2

/-- PORT_CFG (03 R46, 11 Table 11.5): RESULT0 is CFG_ERR. -/
def portCfg (c : Ctx) (lead : Nat) (v : Word) (s : State) : State :=
  if 512 ≤ lead then finish c 0x40 St.badArg s
  else
    let (ok, s) := linkCfgWrite lead v.toNat allBits s
    complete c 0x40 (if ok then St.ok else St.cfgInvalid) (rd s (.phy lead) F.PHY_LINK_STS_CFG_ERR) 0 s

/-- PORT_CFG as it reaches the link's page. -/
def portCfgCmd (c : Ctx) (lead : Nat) (v : Word) (s : State) : State := mirrorGate (lead < 512) (.phy lead) c 0x40 (portCfg c lead v) s

/-! ### Run state (03 R48) -/

/-- PORT_STATE at the moment it takes effect: it completes when the state is reached (11 R221). -/
def portStateDo (c : Ctx) (lead run : Nat) (s : State) : State :=
  let (ok, s) := setLinkRun lead run s
  if !ok then s |> reject (.phy lead) |> finish c 0x41 St.cfgInvalid
  else if rd s (.phy lead) F.BLK_CTL_RUN = 1 then { s with ports := { s.ports with waits := s.ports.waits ++ [(lead, c)] } }
  else finish c 0x41 St.ok s

/-- PORT_STATE (03 R48, 11 R221). -/
def portState (c : Ctx) (inst : Option Nat) (lead run : Nat) (s : State) : State :=
  if 512 ≤ lead ∨ 2 < run ∨ (memberOf s lead).isSome then finish c 0x41 St.badArg s
  else match inst with
    | some t => schedCmd c 0x41 t (.portState lead run) s
    | none => portStateDo c lead run s

/-- PORT_STATE as the active core executes it. -/
def portStateCmd (c : Ctx) (inst : Option Nat) (lead run : Nat) : State → State :=
  mirrorGate (lead < 512) (.phy lead) c 0x41 (portState c inst lead run)

/-- LINK_QUIESCED (03 R48): not in Recovery or ASPM L1. -/
def linkQuiesced (lead : Nat) (s : State) : State :=
  let inL1 := rd s (.phy lead) F.PHY_LINK_STS_TX_STATE == 3
  if rd s (.phy lead) F.BLK_CTL_RUN = 1 ∧ linkUp s lead ∧ !inL1 ∧ linkEmpty s lead then linkStopped lead s else s

/-! ### PHY_LINK_CTL (03 R53, R57, R62) -/

/-- A write of PHY_LINK_CTL: false when it was discarded (log 26). RETRAIN has an effect only in L0: outside it there is no entry into
Recovery, and the bit is not held (log 121). -/
def linkCtlWrite (p v m : Nat) (s : State) : Bool × State :=
  if (memberOf s p).isSome then (true, s)
  else
    let new (f : Fld) : Nat := f.merge (rd s (.phy p) f) v m
    let set (f : Fld) : Bool := f.of v &&& f.of m != 0
    let touched := F.PHY_LINK_CTL_OFF.of m != 0
    if touched && new F.PHY_LINK_CTL_OFF == 1 && pageRun s (.phy p) != 2 then (false, s)
    else
      let s := wr (.phy p) F.PHY_LINK_CTL_PERST (new F.PHY_LINK_CTL_PERST) s
      let s := s.when (set F.PHY_LINK_CTL_LANE_CLR && rdb s (.phy p) F.PHY_LINK_CTL_LANE_CLR)
        (noteAgain (.phy p) F.PHY_LINK_CTL_LANE_CLR)
      let s := s.when (set F.PHY_LINK_CTL_LANE_CLR) (wr (.phy p) F.PHY_LINK_CTL_LANE_CLR 1)
      let s := s.when (set F.PHY_LINK_CTL_RETRAIN) (enterRecovery p)
      let s := s.when touched fun s =>
        if new F.PHY_LINK_CTL_OFF = 1 then
          s |> wr (.phy p) F.PHY_LINK_CTL_OFF 1 |> goDown p true .off |> setOff p
            |> modLink p (fun l => { l with retryAt := none })
        else s |> wr (.phy p) F.PHY_LINK_CTL_OFF 0 |> tryTrain p
      (true, s)

/-- A write of some bits of PHY_LINK_CTL at a page. -/
def linkCtl (p v m : Nat) (s : State) : State :=
  let (ok, s) := linkCtlWrite p v m s
  s.when (!ok) (reject (.phy p))

/-- PORT_CTL (11 Table 11.5). -/
def portCtl (c : Ctx) (lead : Nat) (v : Word) (s : State) : State :=
  if 512 ≤ lead ∨ (memberOf s lead).isSome then finish c 0x42 St.badArg s
  else
    let (ok, s) := linkCtlWrite lead v.toNat allBits s
    if ok then finish c 0x42 St.ok s else s |> reject (.phy lead) |> finish c 0x42 St.cfgInvalid

/-- PORT_CTL as the active core executes it. -/
def portCtlCmd (c : Ctx) (lead : Nat) (v : Word) : State → State := mirrorGate (lead < 512) (.phy lead) c 0x42 (portCtl c lead v)

/-! ### Power settings (03 R58) -/

/-- PORT_PM at the moment it takes effect. -/
def portPmDo (c : Ctx) (lead v : Nat) (s : State) : State :=
  let (st, s) := putStatus (.phy lead) ((Page.phy lead).regFields 0x48) v s
  if st = St.ok then finishAt false c 0x43 s else finish c 0x43 st s

/-- PORT_PM (03 R58). -/
def portPm (c : Ctx) (inst : Option Nat) (lead : Nat) (v : Word) (s : State) : State :=
  if 512 ≤ lead ∨ (memberOf s lead).isSome then finish c 0x43 St.badArg s
  else match inst with
    | some t => schedCmd c 0x43 t (.portPm lead v.toNat) s
    | none => portPmDo c lead v.toNat s

/-- PORT_PM as the active core executes it. -/
def portPmCmd (c : Ctx) (inst : Option Nat) (lead : Nat) (v : Word) : State → State :=
  mirrorGate (lead < 512) (.phy lead) c 0x43 (portPm c inst lead v)

/-! ### Training (03 R49-R51, R56; 04 R65) -/

/-- Width code of a number of lanes. -/
def laneCode (n : Nat) : Nat := if n = 1 then 4 else Nat.log2 n - 1

/-- A block of `w` lanes at the low or the high end of `n` lanes from `base` holds no failed lane. -/
def blockClear (failed : List Nat) (base n w : Nat) (high : Bool) : Bool :=
  let lo := if high then base + n - w else base
  !(failed.any fun l => decide (lo ≤ l) && decide (l < lo + w))

/-- The widest block that avoids every failed lane: its lanes and whether the link trains reversed (03 R56). -/
def keepBlock (s : State) (lead n : Nat) : Option (Nat × Bool) :=
  let canRev := rdb s (.phy lead) F.PHY_LINK_CFG_LANE_REV_EN || ((linkOf s lead).far.map (·.revOk)).getD false
  let failed := failedLanes s lead
  ([16, 8, 4, 2, 1].filter (· ≤ n)).findSome? fun w =>
    if blockClear failed (2 * lead) n w false then some (w, false)
    else if canRev && blockClear failed (2 * lead) n w true then some (w, true)
    else none

/-- The protocol check of a role (03 R49, R51). -/
def protoOk (role : Nat) (far : FarEnd) : Bool :=
  match role, far.kind with
  | 1, .cxlIoMem => true
  | 2, .cxlIoMem | 2, .cxlOther | 2, .pcie => true
  | 3, .osoryr => true
  | _, _ => false

/-- The highest rate that both ends support, not above MAX_RATE (03 R50). -/
def commonRate (s : State) (lead : Nat) (far : FarEnd) : Option Nat :=
  let c := cfgOf s lead
  (far.rates.filter fun r => decide (r ≤ c.rate) && rateAllowed c.role r).max?

/-- Flit mode code of Table 4.7 by the order of Table 4.1; PCIe Flit mode is the 256-byte standard layout (log 27). -/
def flitMode (s : State) (lead rate : Nat) (far : FarEnd) : Nat :=
  let role := roleOf s lead
  let lopt := far.lopt && rdb s (.lnk lead) F.LNK_CFG_LOPT_EN
  if role = 3 then 3
  else match far.kind with
    | .pcie => if rate = 4 ∨ far.flit then 2 else 0
    | _ => if lopt then 3 else if rate ≥ 3 ∨ far.std then 2 else 1

/-- The pause before a link that failed its check retries: 100 ms in ticks. -/
def retryPause : Nat := 10000000

/-- A field takes a value that the manual leaves open (log 1). -/
def putDraw (pg : Page) (f : Fld) (s : State) : State :=
  let (v, s) := s.draw
  wr pg f v s

/-- The results of equalization of every lane of a link; their values are open, but for the range of PRESET (03 Tables 3.12,
3.13). -/
def equalize (lead : Nat) (s : State) : State :=
  s.each (List.range' lead (ctrlsOf s lead)) fun p s =>
    let pg := Page.phy p
    let s := s.each [F.PHY_TXEQ0_C_M2, F.PHY_TXEQ0_C_M1, F.PHY_TXEQ0_C_0, F.PHY_TXEQ0_C_P1, F.PHY_TXEQ1_C_M2, F.PHY_TXEQ1_C_M1,
      F.PHY_TXEQ1_C_0, F.PHY_TXEQ1_C_P1, F.PHY_RXEQ0_CTLE, F.PHY_RXEQ0_DFE1, F.PHY_RXEQ0_DFE2, F.PHY_RXEQ0_DFE3,
      F.PHY_RXEQ0_EYE_H, F.PHY_RXEQ1_CTLE, F.PHY_RXEQ1_DFE1, F.PHY_RXEQ1_DFE2, F.PHY_RXEQ1_DFE3, F.PHY_RXEQ1_EYE_H]
      (putDraw pg)
    let s := s.each [F.PHY_TXEQ0_PRESET, F.PHY_TXEQ1_PRESET] fun f s =>
      let (v, s) := s.draw
      wr pg f (if v % 12 = 11 then 15 else v % 12) s
    s |> wr pg F.PHY_RXEQ0_ADAPT_DONE 1 |> wr pg F.PHY_RXEQ1_ADAPT_DONE 1

/-- Lead of the link that a lane belongs to. -/
def laneLead (s : State) (lane : Nat) : Nat := leadOf s (lane / 2)

/-- Logical number of a physical lane of its link. -/
def logicalLane (s : State) (lane : Nat) : Nat :=
  let lead := laneLead s lane
  let l := linkOf s lead
  if l.rev then 2 * lead + l.fullW - 1 - lane else lane - 2 * lead

/-- A lane is expected active (03 R54). -/
def expectedActive (s : State) (lane : Nat) : Bool :=
  let lead := laneLead s lane
  roleOf s lead != 0 && linkUp s lead && decide (lane < 2 * lead + (linkOf s lead).fullW) &&
    decide (logicalLane s lane < rxLanes s lead)

/-- Lanes of a link that are not expected active are noted for the slot's sample: they are about to become so (03 Table 3.11). A
detector that is still asserted on one starts its run with this tick: only a lane expected active is watched (03 R54, R57). -/
def noteIdle (lead : Nat) (s : State) : State :=
  s.each ((lanesAt s lead).filter fun n => !expectedActive s n) fun n s =>
    let x := laneOf s n
    setLane n { x with sIdle := true, since := if x.los || x.lol then some s.tick else none } s

/-- Credits that the ingress advertises at training: GUAR, divided equally among the link's credit classes (05 R89; log 10). -/
def firstCredits (s : State) (lead : Nat) (far : FarEnd) : Tbl Nat :=
  let cls := creditClasses (roleOf s lead) far
  let n := rd s (.ing lead) F.ING_CELL_CFG_GUAR / cls.length
  cls.foldl (fun t c => tput 0 t c n) []

/-- Enter L0: UP, the directions ACTIVE, rate, width, mode; checks of earlier attempts clear; a device or host is there again. -/
def reachL0 (lead rate n w : Nat) (rev : Bool) (far : FarEnd) (s : State) : State :=
  let s := s |> noteIdle lead |> modLink lead (fun l => { l with
      far := some far, fullW := n, rev := rev, owed := firstCredits s lead far, idleTx := 0, idleRx := 0, retryAt := none })
    |> setPhase lead .l0 |> wr (.phy lead) F.PHY_LINK_STS_CUR_RATE rate |> wr (.phy lead) F.PHY_LINK_STS_CUR_WIDTH (laneCode w)
    |> wr (.phy lead) F.PHY_LINK_STS_RATE_ERR 0 |> wr (.phy lead) F.PHY_LINK_STS_PROTO_MISMATCH 0
    |> wr (.lnk lead) F.LNK_STS_MODE (flitMode s lead rate far) |> equalize lead
  let s := if roleOf s lead = 1 then pmdReset (hpartOf s lead) s
    else match (if roleOf s lead = 2 then vpOfLead s lead else none) with
      | some (part, v) => s |> setVp part v { vpOf s part v with lost := false }
        |> State.when (vpOf s part v).pwr (vpNote part v 2)
      | none => s
  s |> returnCredits lead |> closePort lead |> afterRetire

/-- LINK_TRAINED (03 R49-R51, R56; 10 R197). A link whose last training failed its check is not trained before its retry. -/
def linkTrained (lead : Nat) (far : FarEnd) (s : State) : State :=
  if (linkOf s lead).phase ≠ .detect ∨ (linkOf s lead).retryAt.isSome ∨ offNow s lead then s
  else if !protoOk (roleOf s lead) far then
    s |> wr (.phy lead) F.PHY_LINK_STS_PROTO_MISMATCH 1 |> modLink lead (fun l => { l with retryAt := some (s.tick + retryPause) })
  else match commonRate s lead far with
    | none => s |> wr (.phy lead) F.PHY_LINK_STS_RATE_ERR 1
        |> modLink lead (fun l => { l with retryAt := some (s.tick + retryPause) })
    | some rate =>
      let n := min (2 * ctrlsOf s lead) (lanesOf far.width)
      match keepBlock (modLink lead (fun l => { l with far := some far }) s) lead n with
      | none => s
      | some (w, rev) => reachL0 lead rate n w rev far s

/-- LINK_DOWN (04 R71): the link leaves L0 for Detect of its own. -/
def linkLost (lead : Nat) (s : State) : State := if linkDown s lead then s else retrainDetect lead false s

/-- Presence of a port's device is reported to its host; an HP_ADD that waited for it completes (06 R125). -/
def reportPresence (part v : Nat) (s : State) : State :=
  let p := vpOf s part v
  s |> setVp part v { p with add := none } |> vpNote part v 3 |> completeO p.add 0x30 St.ok 0

/-- PRSNT_CHANGE (03 R53, 06 R126, 10 R198). -/
def prsntChange (group : Nat) (present : Bool) (s : State) : State :=
  if s.ports.prsnt.contains group = present then s
  else
    let s := { s with ports := { s.ports with
      prsnt := if present then s.ports.prsnt ++ [group] else s.ports.prsnt.filter (· != group) } }
    unfrozen (fun s => s.each ((List.range' (4 * group) 4).filter (isLead s)) fun l s =>
      if roleOf s l = 1 then s.when (!present) (hostLost l 1)
      else if roleOf s l = 2 then
        match vpOfLead s l with
        | none => s
        | some (part, v) => if present then reportPresence part v s else surprise true l s
      else s) s

/-! ### Lane health (03 R54-R56) -/

/-- A lane is declared failed (03 R55, R56): the link enters Recovery, or goes down when no block is left. Lanes that a pending
LANE_CLR re-admits with that Recovery do not take this one with them. -/
def laneFail (lane : Nat) (s : State) : State :=
  let lead := laneLead s lane
  if (laneOf s lane).failed then s
  else
    let l := linkOf s lead
    let at_ := if linkUp s lead then s.tick else l.recAt
    let w := if linkUp s lead then rxLanes s lead else l.recW
    let s := enterRecovery lead s
    let s := s |> setLane lane { laneOf s lane with failed := true, sFail := true, since := none }
      |> wr (.phy lead) F.PHY_LINK_STS_DEGRADED 1
    let s := if (keepBlock s lead l.fullW).isSome || linkDown s lead then s
      else s |> retrainDetect lead false |> modLink lead fun l => { l with recAt := at_, recW := w }
    raise (portSrcNo lead 0) none none s

/-- A lane is watched: it is expected active, or was until another lane's failure took its link out of L0 in this tick (03 R55: both
enter a single degrade). -/
def watched (s : State) (lane : Nat) : Bool :=
  let l := linkOf s (laneLead s lane)
  expectedActive s lane || (l.phase != .l0 && l.recW != 0 && l.recAt == s.tick && decide (logicalLane s lane < l.recW))

/-- LANE_LOS (03 R54). -/
def laneLos (lane : Nat) (s : State) : State :=
  let x := laneOf s lane
  if !watched s lane ∨ x.los then s
  else s |> setLane lane { x with los := true, sLos := true, since := some (x.since.getD s.tick) }
    |> bump (.phy (lane / 2)) (if lane % 2 = 0 then F.PHY_LANE_CNT0_LOS_CNT else F.PHY_LANE_CNT1_LOS_CNT)

/-- LANE_LOL (03 R54, R55). -/
def laneLol (lane : Nat) (s : State) : State :=
  let x := laneOf s lane
  if !watched s lane ∨ x.lol then s
  else
    let lim := rd s (.phy (laneLead s lane)) F.PHY_LANE_FAIL_LOL_LIM
    let s := s |> setLane lane { x with lol := true, sLol := true, lolSlot := x.lolSlot + 1, since := some (x.since.getD s.tick) }
      |> bump (.phy (lane / 2)) (if lane % 2 = 0 then F.PHY_LANE_CNT0_LOL_CNT else F.PHY_LANE_CNT1_LOL_CNT)
    if lim ≠ 0 ∧ lim ≤ x.lolSlot + 1 then laneFail lane s else s

/-- LANE_SIGNAL_RESTORED (03 R55): the detectors named end; the run ends with the last of them. -/
def laneSignalRestored (lane : Nat) (los lol : Bool) (s : State) : State :=
  let x := laneOf s lane
  let a := x.los && !los
  let b := x.lol && !lol
  setLane lane { x with los := a, lol := b, since := if a || b then x.since else none } s

/-- LINK_RECOVERY_DONE (03 R56; 04 R70): unacknowledged flits are sent again, each read from its cell. -/
def linkRecoveryDone (x : LinkReads) (s : State) : State :=
  let lead := x.lead
  let l := linkOf s lead
  if l.phase ≠ .recovery then s
  else match keepBlock s lead l.fullW with
    | none => retrainDetect lead false s
    | some (w, rev) =>
      let s := s |> noteIdle lead |> setPhase lead .l0 |> wr (.phy lead) F.PHY_LINK_STS_CUR_WIDTH (laneCode w)
        |> modLink lead (fun l => { l with
            rev := rev, replays := 0, ackFrom := if l.replay.isEmpty then none else some s.tick, idleTx := 0, idleRx := 0
            swapHeld := none })
      s |> resend lead x.reads [] l.replay |> returnCredits lead |> closePort lead

/-! ### Link power states (03 R58-R61) -/

def txState (s : State) (lead : Nat) : Nat := rd s (.phy lead) F.PHY_LINK_STS_TX_STATE
def rxState (s : State) (lead : Nat) : Nat := rd s (.phy lead) F.PHY_LINK_STS_RX_STATE

/-- Cells that wait in a link's egress queues. -/
def backlog (s : State) (lead : Nat) : Nat :=
  (s.core.cells.filter fun c => c.out == lead && decide (c.stage = .egress)).length

/-- The transmit direction has something to send: cells, or a replay that goes on; or it has sent in this refill slot (03 R58, R60). -/
def ready (s : State) (lead : Nat) : Bool :=
  backlog s lead != 0 || (linkOf s lead).resume.isSome || (linkOf s lead).busyTx

/-- NARROW_ENTRY (03 R58, R59): NARROW_WIDTH is compared as `lanesOf` reads it, also where it is no width (log 121). -/
def narrowEntry (lead : Nat) (s : State) : State :=
  let pg := Page.phy lead
  let rate := rd s pg F.PHY_LINK_STS_CUR_RATE
  if linkUp s lead ∧ 4 ≤ rate ∧ rdf s pg F.PHY_PM_CFG_NARROW_EN = 1 ∧ txState s lead = 0
      ∧ rdf s pg F.PHY_PM_CFG_NARROW_IDLE ≤ (linkOf s lead).idleTx
      ∧ lanesOf (rdf s pg F.PHY_PM_CFG_NARROW_WIDTH) < lanesOf (rd s pg F.PHY_LINK_STS_CUR_WIDTH) then
    s |> wr pg F.PHY_LINK_STS_TX_STATE 1 |> modLink lead fun l => { l with txW := lanesOf (rdf s pg F.PHY_PM_CFG_NARROW_WIDTH) }
  else s

/-- L0P_REQUEST (03 R59): always granted, up to the trained width (R57). -/
def l0pRequest (lead width : Nat) (s : State) : State :=
  if !linkUp s lead ∨ 1 < rxState s lead then s
  else
    let w := lanesOf width
    if w < lanesOf (rd s (.phy lead) F.PHY_LINK_STS_CUR_WIDTH) then
      s |> noteIdle lead |> wr (.phy lead) F.PHY_LINK_STS_RX_STATE 1 |> modLink lead (fun l => { l with rxW := w })
    else s |> noteIdle lead |> wr (.phy lead) F.PHY_LINK_STS_RX_STATE 0 |> modLink lead (fun l => { l with rxW := 0 })

/-- DOZE_ENTRY (03 R60): a flit that is ready cancels it, a replayed one too; the receive direction follows the far end. A direction
in NARROW may enter DOZE as one in ACTIVE does (log 121). -/
def dozeEntry (lead : Nat) (rx : Bool) (s : State) : State :=
  let pg := Page.phy lead
  if !linkUp s lead ∨ roleOf s lead ≠ 3 then s
  else if rx then (if rxState s lead ≤ 1 then wr pg F.PHY_LINK_STS_RX_STATE 2 s else s)
  else if rdf s pg F.PHY_PM_CFG_DOZE_EN = 1 ∧ txState s lead ≤ 1 ∧ rdf s pg F.PHY_PM_CFG_DOZE_IDLE ≤ (linkOf s lead).idleTx
      ∧ ready s lead = false then wr pg F.PHY_LINK_STS_TX_STATE 2 s
  else s

/-- DOZE_EXIT (03 R60): a flit has become ready. A replay that does starts its exit of itself. -/
def dozeExit (lead : Nat) (rx : Bool) (s : State) : State :=
  if rx then (if rxState s lead = 2 then modLink lead (fun l => { l with exRx := true }) s else s)
  else if txState s lead = 2 ∧ (backlog s lead ≠ 0 ∨ (linkOf s lead).resume.isSome) then startExit lead s
  else s

/-- L1_ENTRY (03 R61). -/
def l1Entry (lead : Nat) (agree : Bool) (s : State) : State :=
  let pg := Page.phy lead
  let l := linkOf s lead
  let lim := rdf s pg F.PHY_PM_CFG_L1_IDLE
  if linkUp s lead ∧ roleOf s lead ≠ 3 ∧ rdf s pg F.PHY_PM_CFG_L1_EN = 1 ∧ lim ≤ l.idleTx ∧ lim ≤ l.idleRx ∧ agree
      ∧ txState s lead ≤ 1 ∧ rxState s lead ≤ 1 ∧ ready s lead = false ∧ l.busyRx = false then
    s |> wr pg F.PHY_LINK_STS_TX_STATE 3 |> wr pg F.PHY_LINK_STS_RX_STATE 3
  else s

/-- L1_EXIT (03 R61). -/
def l1Exit (lead : Nat) (s : State) : State :=
  if txState s lead = 3 then startExit lead s else s

/-- POWER_STATE_EXIT_DONE (03 Table 3.3): the direction is ACTIVE; from L1 both directions return. A replay that waited goes on. -/
def powerStateExitDone (lead : Nat) (rx : Bool) (s : State) : State :=
  let pg := Page.phy lead
  let l := linkOf s lead
  if txState s lead = 3 ∧ l.exTx then
    s |> noteIdle lead |> wr pg F.PHY_LINK_STS_TX_STATE 0 |> wr pg F.PHY_LINK_STS_RX_STATE 0
      |> modLink lead (fun l => { l with exTx := false, exRx := false, idleTx := 0, idleRx := 0, rxW := 0, txW := 0 })
      |> resumeReplay lead
  else if rx then
    (if l.exRx then s |> noteIdle lead |> wr pg F.PHY_LINK_STS_RX_STATE 0
      |> modLink lead (fun l => { l with exRx := false, idleRx := 0, rxW := 0 }) else s)
  else if l.exTx then
    s |> wr pg F.PHY_LINK_STS_TX_STATE 0 |> modLink lead (fun l => { l with exTx := false, idleTx := 0, txW := 0 }) |> resumeReplay lead
  else s

/-! ### Margining (03 R63) -/

/-- PHY_MARGIN_STS as it reads. -/
def marginSts (s : State) (p : Nat) : Nat :=
  let r (f : Fld) : Nat := rd s (.phy p) f
  r F.PHY_MARGIN_STS_BUSY * 2 ^ 31 + r F.PHY_MARGIN_STS_RESULT * 2 ^ 29 + r F.PHY_MARGIN_STS_LAST_CLEAN * 2 ^ 16
    + r F.PHY_MARGIN_STS_ERR_CNT

/-- The start of a scan is accepted. -/
def marginOk (s : State) (p : Nat) : Bool :=
  let lead := leadOf s p
  s.mode == .maintenance && pageRun s (.phy p) == 2 && linkUp s lead && txState s lead == 0 && rxState s lead == 0 &&
    decide (rd s (.phy p) F.PHY_MARGIN_CTL_AXIS ≤ 1) && decide (rd s (.phy p) F.PHY_MARGIN_CTL_DIR ≤ 1)

/-- A scan runs on a controller. -/
def scanning (s : State) (p : Nat) : Bool := s.ports.scans.any fun m => m.ctl == p

/-- A START is taken or refused. -/
def marginGo (p : Nat) (ctx : Option Ctx) (s : State) : State :=
  let pg := Page.phy p
  if !marginOk s p then
    let s := wr pg F.PHY_MARGIN_STS_RESULT 2 s
    completeO ctx 0x44 St.refused (marginSts s p) s
  else
    { s with ports := { s.ports with scans := s.ports.scans ++ [⟨p, ctx, 1, s.tick + rd s pg F.PHY_MARGIN_CTL_DWELL⟩] } }
      |> wr pg F.PHY_MARGIN_CTL_START 1 |> wr pg F.PHY_MARGIN_STS_BUSY 1 |> wr pg F.PHY_MARGIN_STS_RESULT 0
      |> wr pg F.PHY_MARGIN_STS_LAST_CLEAN 0 |> wr pg F.PHY_MARGIN_STS_ERR_CNT 0

/-- A write of PHY_MARGIN_CTL, by a command (`ctx`) or through its address: a command whose write is discarded in part completes
with CFG_INVALID and starts nothing (11 R221); a START while a scan runs changes nothing, and new fields act on the rest of the scan
that runs (log 121). -/
def marginWrite (p v m : Nat) (ctx : Option Ctx) (s : State) : State :=
  let pg := Page.phy p
  let (bad, s) := putFields pg v m (pg.regFields 0x70) s
  let s := s.when bad (reject pg)
  if bad && ctx.isSome then completeO ctx 0x44 St.cfgInvalid (marginSts s p) s
  else if F.PHY_MARGIN_CTL_START.of v &&& F.PHY_MARGIN_CTL_START.of m = 0 then
    completeO ctx 0x44 St.ok (marginSts s p) s
  else if scanning s p then
    match ctx with
    | some _ => completeO ctx 0x44 St.refused (marginSts s p) s
    | none => noteAgain pg F.PHY_MARGIN_CTL_START s
  else marginGo p ctx s

/-- MARGIN (03 R63, 11 Table 11.5). -/
def margin (c : Ctx) (p : Nat) (v : Word) (s : State) : State :=
  if 512 ≤ p then finish c 0x44 St.badArg s else marginWrite p v.toNat allBits (some c) s

/-- MARGIN as the active core executes it. -/
def marginCmd (c : Ctx) (p : Nat) (v : Word) : State → State := mirrorGate (p < 512) (.phy p) c 0x44 (margin c p v)

/-- A scan ends; a START written in the same tick starts the next (17 R329). -/
def marginEnd (p result : Nat) (s : State) : State :=
  let again := againNow s (.phy p) F.PHY_MARGIN_CTL_START
  (endScan p result s).when again (marginGo p none)

/-- LANE_MARGIN_COMMAND (03 R63): not ready for the lane of a running scan. -/
def laneMarginCommand (p lane : Nat) (s : State) : State :=
  let busy := scanning s p && rd s (.phy p) F.PHY_MARGIN_CTL_LANE == lane % 2
  s.say (.marginRsp p lane (!busy))

def execLaneMarginCommand (p lane _cmd : Nat) (s : State) : Ans := done s (unfrozen (laneMarginCommand p lane) s)

end Sys2Proof.Machine
end

