-- ==== Sys2Proof/Machine/Guyline.lean ====
section
/-!
DEFINITION. Sys2Proof/Machine/Guyline.lean: the ring interface: ports and bypass, forwarding, membership, time frames, sequenced
delivery and coordinated restart (14 R264-R284).
-/
namespace Sys2Proof.Machine

/-! ### Ports and bypass (14 R266-R268) -/

def gport (s : State) (outPort : Bool) : GPort := if outPort then s.glr.outP else s.glr.inP
def setGport (outPort : Bool) (p : GPort) (s : State) : State :=
  setGlr (if outPort then { s.glr with outP := p } else { s.glr with inP := p }) s

/-- A port holds block lock. -/
def GPort.locked (p : GPort) : Bool := p.st != 0 && p.lostAt.isNone

/-- Entry into SPLIT raises the GLR split source (14 R278). -/
def withSplit (f : State → State) (s : State) : State :=
  let was := glrState s
  let s := f s
  s.when (glrState s == 2 && was != 2) (raise 0x0B none none)

/-- LOCK_LOSS: the timer starts; a delay measured before is no longer valid (14 R266, R279). -/
def lockLoss (outPort : Bool) (s : State) : State :=
  let p := gport s outPort
  if s.glr.bypass || !p.locked then s
  else s |> setGport outPort { p with lostAt := some s.tick, delays := [], dlyOk := false } |> bump .glr F.GLR_CNT_LOCK_LOSS

def execLockLoss (outPort : Bool) (s : State) : Ans := done s (lockLoss outPort s)

/-- A port goes DOWN. -/
def portDown (outPort : Bool) (s : State) : State :=
  withSplit (fun s => s |> setGport outPort GPort.reset |> raise 0x0A none none) s

/-- GLR_PORT_DOWN: block lock has been lost for GLR_LOCK_TMO ticks. -/
def glrPortDown (outPort : Bool) (s : State) : State :=
  match (gport s outPort).lostAt with
  | none => s
  | some t => atTick (t + rd s .glr F.GLR_LOCK_TMO_TMO) (portDown outPort) s

def execGlrPortDown (outPort : Bool) (s : State) : Ans := done s (glrPortDown outPort s)

/-- A link-local frame of the module's own. -/
def sendLocal (outPort : Bool) (typ : Nat) (body : List Nat) (s : State) : State :=
  s.say (.frame outPort (frameBytes typ (modid s) 0xFE 1 0 0 false false body))

/-- A port enters LOCKING: it has sent HELLO. -/
def startLocking (outPort : Bool) (s : State) : State :=
  s |> setGport outPort { GPort.reset with st := 1 } |> sendLocal outPort G.hello [modid s, outPort.toNat]

/-- BLOCK_LOCK_REGAINED: a short loss ends; a DOWN port goes to LOCKING. -/
def blockLockRegained (outPort : Bool) : State → State := withSplit fun s =>
  if s.glr.bypass then s
  else
    let p := gport s outPort
    match p.lostAt with
    | some t =>
      if t + rd s .glr F.GLR_LOCK_TMO_TMO ≤ s.tick then s |> portDown outPort |> startLocking outPort
      else setGport outPort { p with lostAt := none } s
    | none => if p.st = 0 then startLocking outPort s else s

def execBlockLockRegained (outPort : Bool) (s : State) : Ans := done s (blockLockRegained outPort s)

/-- A condition that closes the bypass holds (14 R267). -/
def bypassCond (s : State) : Bool :=
  !s.mode.isUp || !s.pwr.pgInt || !s.rst.resetN || s.rst.inReset || rdb s .glr F.GLR_CTL_BYP_REQ

/-- The switches close: the ports read DOWN without raising the break source. -/
def closeBypass (s : State) : State :=
  setGlr { s.glr with bypass := true, taps := none, inP := GPort.reset, outP := GPort.reset } s

/-- BYPASS_CLOSE. -/
def execBypassClose (s : State) : Ans := done s (if bypassCond s && !s.glr.bypass then closeBypass s else s)

/-- The procedure that opens the bypass begins (14 R268). -/
def startBypassOpen (s : State) : State :=
  if s.glr.bypass && s.glr.taps.isNone && !bypassCond s then setGlr { s.glr with taps := some s.tick } s else s

/-- The switches open, and each port transmits; without lock a port's timer runs. -/
def openBypass (locked : Bool) : State → State := withSplit fun s =>
  let s := setGlr { s.glr with bypass := false, taps := none } s
  let s := s |> startLocking false |> startLocking true
  if locked then s
  else s |> setGport false { s.glr.inP with lostAt := some s.tick } |> fun s =>
    setGport true { s.glr.outP with lostAt := some s.tick } s

/-- BYPASS_OPEN: both taps hold lock, or 10,000,000 ticks have passed without lock. -/
def bypassOpen (tapsLocked : Bool) (s : State) : State :=
  match s.glr.taps with
  | none => s
  | some t =>
    if bypassCond s then s
    else if tapsLocked then openBypass true s
    else atTick (t + 10000000) (openBypass false) s

def execBypassOpen (tapsLocked : Bool) (s : State) : Ans := done s (bypassOpen tapsLocked s)

/-! ### Receiving and forwarding (14 R271, R272) -/

/-- A link-local frame with good CRC on a port that holds lock. -/
def onLocal (h : GHdr) (f : State → State) (s : State) : State :=
  if s.glr.bypass || !(gport s h.onOut).locked then s
  else if !h.crcOk then bump .glr F.GLR_CNT_CRC_ERR s
  else f s

/-- The module is the one that a MODID names. -/
def isSelf (s : State) (m : Nat) : Bool := hasModid s && m == modid s

/-- The port on which a frame is forwarded: the other one, or the port it came by when that is DOWN and the frame is turned; none for
one that the rules of R272 strip, discard or let end here. -/
def forwardPort (s : State) (h : GHdr) : Option Bool :=
  let g := s.glr
  let turn := if h.onOut then g.inP.st == 0 else g.outP.st == 0
  if isSelf s h.src && (!h.onOut || g.inP.st == 0) then none
  else if h.hops ≤ 1 || (turn && decide (2 ≤ h.turns)) || isSelf s h.dst then none
  else some (if turn then h.onOut else !h.onOut)

/-- A frame that is not link-local, on a port that holds lock, LOCKING or UP: counted, stripped, discarded, or consumed and forwarded.
One whose CRC proves bad while it is forwarded is completed with an error block (14 R271). `patch`: what the forwarding changes besides HOPS
and TURNS. -/
def onRing (h : GHdr) (patch : List Nat → List Nat) (consume : State → State) (s : State) : State :=
  let g := s.glr
  if g.bypass || !(gport s h.onOut).locked then s
  else if !h.crcOk then
    let s := bump .glr F.GLR_CNT_CRC_ERR s
    match forwardPort s h with
    | some p => s.say (.frameErr p)
    | none => s
  else if isSelf s h.src && (!h.onOut || g.inP.st == 0) then s
  else
    let turn := if h.onOut then g.inP.st == 0 else g.outP.st == 0
    let own := isSelf s h.dst
    if h.hops ≤ 1 || (turn && decide (2 ≤ h.turns) && !own) then bump .glr F.GLR_CNT_FWD_DISC s
    else
      let s := s.when (own || h.dst == 0xFF) consume
      if own then s
      else
        let outPort := if turn then h.onOut else !h.onOut
        s.say (.frame outPort (h.forwarded turn patch))

/-! ### Link-local frames (14 R266, R279) -/

/-- HELLO: the port is UP. -/
def hello (h : GHdr) (m : Nat) (s : State) : State :=
  onLocal h (withSplit fun s =>
    let p := gport s h.onOut
    setGport h.onOut (if p.st = 2 then { p with nbr := m } else { GPort.reset with st := 2, nbr := m }) s) s

def execHello (h : GHdr) (modid : Nat) (s : State) : Ans := done s (hello h modid s)

/-- DLY_REQ: answered on the same port with the turnaround. -/
def execDlyReq (h : GHdr) (num turnaround : Nat) (s : State) : Ans :=
  done s (onLocal h (sendLocal h.onOut G.dlyRsp [num, turnaround]) s)

/-- DLY_RSP: the delay of the link, averaged over the last 16 exchanges; valid after 16 (14 R279). -/
def dlyRsp (h : GHdr) (num turnaround roundTrip : Nat) (s : State) : State :=
  onLocal h (fun s =>
    let p := gport s h.onOut
    if p.st ≠ 2 ∨ num ≠ s.glr.dlyNum then s
    else
      let l := p.delays ++ [(roundTrip - turnaround) / 2]
      let l := l.drop (l.length - 16)
      setGport h.onOut { p with delays := l, dlyOk := l.length == 16 } s) s

def execDlyRsp (h : GHdr) (num turnaround roundTrip : Nat) (s : State) : Ans :=
  done s (dlyRsp h num turnaround roundTrip s)

/-- DLY_EXCHANGE_SEND: every 8 refill slots. -/
def dlyExchangeSend (s : State) : State :=
  if s.glr.bypass || !clockRuns s then s
  else
    let s := advanceToMultiple 1024 s.glr.dlyAt s
    let n := (s.glr.dlyNum + 1) % 2 ^ 32
    let s := setGlr { s.glr with dlyNum := n, dlyAt := s.time } s
    s.each [false, true] fun p s => if (gport s p).st = 2 then sendLocal p G.dlyReq [n] s else s

def execDlyExchangeSend (s : State) : Ans := done s (dlyExchangeSend s)

/-! ### Membership (14 R277, R278) -/

/-- A member enters the table in ascending MODID. -/
def insMember (m : Member) : List Member → List Member
  | [] => [m]
  | x :: t => if m.modid < x.modid then m :: x :: t else x :: insMember m t

/-- A heartbeat of a module is taken into the table. -/
def takeBeat (src : Nat) (b : Beat) (s : State) : State :=
  let g := s.glr
  if 0xFE ≤ src then s
  else if g.members.any (·.modid == src) then
    setGlr { g with members := g.members.map fun m =>
      if m.modid == src then { m with beat := b, missed := 0, heard := true } else m } s
  else if 32 ≤ g.members.length then bump .glr F.GLR_CNT_MEM_OVF s
  else s |> setGlr { g with members := insMember ⟨src, b, 0, true⟩ g.members } |> wr .glr F.GLR_STS_MEMB_CHG 1

/-- HEARTBEAT. -/
def heartbeat (h : GHdr) (b : Beat) (s : State) : State :=
  withSplit (onRing h id (takeBeat h.src b)) s

def execHeartbeat (h : GHdr) (b : Beat) (s : State) : Ans := done s (heartbeat h b s)

/-- The module's own heartbeat. -/
def ownBeat (s : State) : Beat :=
  ⟨s.mode.code, rd s .ftm F.FTM_STS_STATE, emberRuns s, s.glr.inP.st == 2, s.glr.outP.st == 2,
    rdb s .glr F.GLR_STS_MASTER_ACT, Config.serial.toNat⟩

/-- HEARTBEAT_SEND: at tick 8,192 of each epoch of the count. -/
def heartbeatSend (s : State) : State :=
  if s.glr.bypass || !hasModid s || !clockRuns s then s
  else
    let r := (s.time + epochTicks - 8192) % epochTicks
    let s := if r = 0 ∧ s.glr.hbAt ≠ s.time then s else passTicks (epochTicks - r) s
    let b := ownBeat s
    let s := setGlr { s.glr with hbAt := s.time } s
    withSplit (fun s => s |> takeBeat (modid s) b |> glrPut ⟨0xFF, 0, false, G.heartbeat, b.body⟩) s

def execHeartbeatSend (s : State) : Ans := done s (heartbeatSend s)

def gslot (s : State) (i : Nat) : GSlot := tget GSlot.reset s.glr.slots i
def setGslot (i : Nat) (x : GSlot) (s : State) : State :=
  setGlr { s.glr with slots := tput GSlot.reset s.glr.slots i x } s

/-- The frames to a destination that has left are discarded, and its sequence starts again (14 R276). -/
def dropDest (dst : Nat) (s : State) : State :=
  let g := s.glr
  let had := g.frames.any (·.dst == dst)
  let s := setGlr { g with
    frames := g.frames.filter (·.dst != dst), waitSeq := g.waitSeq.filter (·.1 != dst)
    queue := g.queue.filter fun f => f.dst != dst || f.typ == G.ack
    txSeq := tput none g.txSeq dst none, rplFrom := tput none g.rplFrom dst none } s
  (s.when had (bump .glr F.GLR_RPL_CNT_UNREACH)) |> glrUnwait

/-- A member leaves the table. -/
def lapse (dst : Nat) (s : State) : State :=
  let s := setGlr { s.glr with members := s.glr.members.filter (·.modid != dst) } s
  let s := s |> wr .glr F.GLR_STS_MEMB_CHG 1 |> dropDest dst
  s.each (List.range 8) fun i s =>
    let x := gslot s i
    if x.dst = dst ∧ (x.st = 1 ∨ x.st = 2) then setGslot i { x with st := 4 } s else s

/-- MEMBER_LAPSE. -/
def memberLapse (dst : Nat) (s : State) : State :=
  match s.glr.members.find? (·.modid == dst) with
  | none => s
  | some m => if m.missed < rd s .glr F.GLR_CFG_HB_MISS then s else withSplit (lapse dst) s

def execMemberLapse (modid : Nat) (s : State) : Ans := done s (memberLapse modid s)

/-- At an epoch boundary: boundaries without a heartbeat, the masters' silence, and a new budget (14 R273, R277, R280): YIELD clears when
a whole epoch has passed without a TIME frame of any lower-numbered master. -/
def glrEpoch (s : State) : State :=
  let g := s.glr
  let gone := g.lowMaster.isSome && decide (1 ≤ g.lowAge)
  let s := setGlr { g with
    members := g.members.map fun m => { m with missed := if m.heard then 0 else m.missed + 1, heard := false }
    lowMaster := if gone then none else g.lowMaster, lowAge := if gone then 0 else 1, timeSeen := false, lowHeard := false } s
  (s.when (!g.lowHeard) (wr .glr F.GLR_STS_YIELD 0)) |> glrFlush

/-! ### Time frames (14 R280, R281) -/

/-- The module may act as a time master. -/
def isMaster (s : State) : Bool := rdb s .glr F.GLR_CFG_TMASTER && !ftmUnset s && hasModid s

/-- A TIME frame is heard: a lower master silences this one; the first valid frame of an epoch, of the lowest master heard,
states the boundary of epoch E + 1. Instants in 1/16 ns, 160 to a tick; `arrival`: after the present tick's edge. -/
def takeTime (h : GHdr) (epoch dep corr arrival : Nat) (s : State) : State :=
  let g := s.glr
  let low := match g.lowMaster with | some m => decide (h.src ≤ m) | none => true
  let s := s.when low (setGlr { g with lowMaster := some h.src, lowAge := 0 })
  let s := s.when (isMaster s && decide (h.src < modid s)) fun s =>
    s |> setGlr { s.glr with lowHeard := true } |> wr .glr F.GLR_STS_YIELD 1 |> wr .glr F.GLR_STS_MASTER_ACT 0
  if !low || h.cinv || s.glr.timeSeen then s
  else
    let edge := (s.tick * 160 + arrival - corr - dep + 80) / 160
    s |> setGlr { s.glr with timeSeen := true } |> ringTime ((epoch + 1) * epochTicks) (edge + epochTicks)

/-- Compensation of a TIME frame as forwarded: CORR, and CORR_INV where the arrival port has no valid delay (14 Table 14.1, R281). -/
def timePatch (corr : Nat) (inv : Bool) (l : List Nat) : List Nat :=
  let b := l.getD 1 0
  (l.take 28 ++ leBytes 4 corr).set 1 (if inv && !bit b 3 then b + 8 else b)

/-- TIME: forwarded with the delay of the arrival link and the residence time added. -/
def time (h : GHdr) (epoch dep corr arrival residence : Nat) (s : State) : State :=
  let p := gport s h.onOut
  onRing h (timePatch (corr + p.delay + residence) (!p.dlyOk)) (takeTime h epoch dep corr arrival) s

def execTime (h : GHdr) (epoch dep corr arrival residence : Nat) (s : State) : Ans :=
  done s (time h epoch dep corr arrival residence s)

/-- TIME_SEND: once in an epoch, at or after tick 4,096. -/
def timeSend (dep : Nat) (s : State) : State :=
  if s.glr.bypass || !clockRuns s then s
  else if !isMaster s || rdb s .glr F.GLR_STS_YIELD then wr .glr F.GLR_STS_MASTER_ACT 0 s
  else
    let x := s.time % epochTicks
    let s := if x < 4096 then passTicks (4096 - x) s else s
    let e := epochOf s.time
    if s.glr.sentEpoch = some e then s
    else s |> setGlr { s.glr with sentEpoch := some e } |> wr .glr F.GLR_STS_MASTER_ACT 1
      |> glrPut ⟨0xFF, 0, false, G.timeT, [e, dep, 0]⟩

def execTimeSend (dep : Nat) (s : State) : Ans := done s (timeSend dep s)

/-! ### Sequenced delivery (14 R274-R276) -/

/-- The acknowledgement timer of an originator starts if it is not running; `n` further frames were accepted. -/
def ackLater (src n : Nat) (s : State) : State :=
  let (cnt, t) := (tget none s.glr.ackDue src).getD (0, s.tick)
  if 32 ≤ cnt + n then glrAck src false false s
  else setGlr { s.glr with ackDue := tput none s.glr.ackDue src (some (cnt + n, t)) } s

/-- SEQUENCED_FRAME_RECEIVE: a sequenced frame is accepted or discarded (14 R274). -/
def onSeq (h : GHdr) (accept : State → State) (s : State) : State :=
  let g := s.glr
  let take (s : State) : State :=
    s |> setGlr { s.glr with rxExp := tput none s.glr.rxExp h.src (some ((h.seq + 1) % 65536)) }
      |> ackLater h.src 1 |> accept
  if h.sync then take s
  else match tget none g.rxExp h.src with
    | none => glrAck h.src false true s
    | some e =>
      let d := (h.seq + 65536 - e) % 65536
      if d = 0 then take s
      else if 32768 ≤ d then ackLater h.src 0 s
      else
        let recent := match tget none g.nakAt h.src with
          | some t => decide (s.tick < t + rd s .glr F.GLR_SEQ_CFG_ACK_TMO)
          | none => false
        if recent then s
        else s |> setGlr { g with nakAt := tput none g.nakAt h.src (some s.tick) } |> glrAck h.src true false

/-- GLR_ACK_TIMEOUT (14 R275). -/
def glrAckTimeout (src : Nat) (s : State) : State :=
  match tget none s.glr.ackDue src with
  | none => s
  | some (_, t) => atTick (t + rd s .glr F.GLR_SEQ_CFG_ACK_TMO) (glrAck src false false) s

def execGlrAckTimeout (modid : Nat) (s : State) : Ans := done s (glrAckTimeout modid s)

/-- Every unacknowledged frame of a destination is sent again in order; after RESYNC the first with SYNC (14 R276). -/
def glrReplay (dst : Nat) (resync : Bool) (s : State) : State :=
  let g := s.glr
  let fs := if resync then modFirst (fun f => f.dst == dst) (fun f => { f with sync := true }) g.frames else g.frames
  let mine := fs.filter (·.dst == dst)
  if mine.isEmpty then s
  else s |> setGlr { g with frames := fs, rplFrom := tput none g.rplFrom dst (some s.tick) }
    |> bump .glr F.GLR_RPL_CNT_REPLAYS |> State.each mine glrPut

/-- GLR_REPLAY_TIMEOUT. -/
def glrReplayTimeout (dst : Nat) (s : State) : State :=
  match tget none s.glr.rplFrom dst with
  | none => s
  | some t => atTick (t + rd s .glr F.GLR_SEQ_CFG_RPL_TMO) (glrReplay dst false) s

def execGlrReplayTimeout (modid : Nat) (s : State) : Ans := done s (glrReplayTimeout modid s)

/-- An acknowledgement from a destination, naming the number it expects. -/
def takeAck (src next : Nat) (nak resync : Bool) (s : State) : State :=
  if resync then glrReplay src true s
  else
    let g := s.glr
    let acked (f : GFrame) : Bool :=
      let d := (next + 65536 - f.seq) % 65536
      f.dst == src && decide (1 ≤ d) && decide (d ≤ 32768)
    let moved := g.frames.any acked
    let left := g.frames.filter fun f => !acked f
    let timer := if left.any (·.dst == src) then (if moved then some s.tick else tget none g.rplFrom src) else none
    let s := setGlr { g with frames := left, rplFrom := tput none g.rplFrom src timer } s
    (s.when nak (glrReplay src false)).when moved glrUnwait

/-- ACK. -/
def execAck (h : GHdr) (next : Nat) (nak resync : Bool) (s : State) : Ans :=
  done s (onRing h id (takeAck h.src next nak resync) s)

/-! ### Coordinated restart (14 R283, R284) -/

/-- A restart request for this module. -/
def takeRstReq (src part slot t : Nat) (s : State) : State :=
  if rd s .glr F.GLR_CFG_RST_RX_EN = 0 then glrRstRsp src slot St.refused true 0 s
  else if 128 ≤ part then glrRstRsp src slot St.badArg true 0 s
  else match restartAdd part t (.ring src slot) s with
    | (.inl i, s) => glrRstRsp src slot St.ok false i s
    | (.inr st, s) => glrRstRsp src slot st true 0 s

/-- RST_REQ. -/
def execRstReq (h : GHdr) (part slot t : Nat) (s : State) : Ans :=
  done s (onRing h id (onSeq h (takeRstReq h.src part slot t)) s)

/-- A cancel for this module: the entry of the slot, if it is armed. -/
def takeRstCancel (src slot : Nat) (s : State) : State :=
  match s.sched.find? fun e => decide (e.owner = .ring src slot) with
  | none => s
  | some e => (schedCancelAt e.idx s).2

/-- RST_CANCEL. -/
def execRstCancel (h : GHdr) (slot : Nat) (s : State) : Ans :=
  done s (onRing h id (onSeq h (takeRstCancel h.src slot)) s)

/-- A response to a request slot: each sets STATUS, whatever state the slot has reached, NO_FINAL among them (14 R283). -/
def takeRstRsp (slot status : Nat) (final : Bool) (sidx : Nat) (s : State) : State :=
  let x := gslot s slot
  if 8 ≤ slot then s
  else setGslot slot { x with
    status := status, sidx := sidx, st := if final then 3 else if status = St.ok then 2 else 3 } s

/-- RST_RSP. -/
def execRstRsp (h : GHdr) (slot status : Nat) (final : Bool) (sidx : Nat) (s : State) : Ans :=
  done s (onRing h id (onSeq h (takeRstRsp slot status final sidx)) s)

/-- GO of the request slot `i`. -/
def slotGo (i : Nat) (s : State) : State :=
  let x := gslot s i
  if x.st = 1 ∨ x.st = 2 ∨ x.dst = modid s then reject .glr s
  else if !s.glr.members.any (·.modid == x.dst) then setGslot i { x with st := 4 } s
  else s |> setGslot i { x with st := 1 } |> glrSend x.dst G.rstReq [x.part, i, x.inst]

/-- CANCEL of the request slot `i`. -/
def slotCancel (i : Nat) (s : State) : State :=
  let x := gslot s i
  if x.st = 2 then glrSend x.dst G.rstCancel [i] s else s

/-- A write of GLR_RST_REQ. -/
def rstReqWrite (v m : Nat) (s : State) : State :=
  let i := rd s .glr F.GLR_RST_IDX_SLOT
  let x := gslot s i
  let s := setGslot i { x with dst := F.GLR_RST_REQ_DST.merge x.dst v m, part := F.GLR_RST_REQ_PART.merge x.part v m } s
  (s.when (bit (v &&& m) 31) (slotGo i)).when (bit (v &&& m) 30) (slotCancel i)

/-- A write of GLR_RST_T_LO or GLR_RST_T_HI. -/
def rstInstWrite (high : Bool) (v m : Nat) (s : State) : State :=
  let i := rd s .glr F.GLR_RST_IDX_SLOT
  let x := gslot s i
  let lo := x.inst % 2 ^ 32
  let hi := x.inst / 2 ^ 32
  let inst := if high then lo + F.GLR_RST_T_HI_T.merge hi v m * 2 ^ 32 else F.GLR_RST_T_LO_T.merge lo v m + hi * 2 ^ 32
  setGslot i { x with inst := inst } s

/-- GO: a write of GLR_RST_REQ with GO 1. -/
def execGo (v : Word) (s : State) : Ans := done s (regGate .glr (rstReqWrite (v.toNat ||| 2 ^ 31) allBits) s)

/-- CANCEL: a write of GLR_RST_REQ with CANCEL 1. -/
def execCancel (v : Word) (s : State) : Ans := done s (regGate .glr (rstReqWrite (v.toNat ||| 2 ^ 30) allBits) s)

/-- NO_FINAL: a slot still ARMED 2^17 ticks after its instant. -/
def noFinal (i : Nat) (s : State) : State :=
  let x := gslot s i
  if x.st ≠ 2 then s
  else
    let s := if s.time < x.inst + epochTicks then passTicks (x.inst + epochTicks - s.time) s else s
    if s.time < x.inst + epochTicks then s else setGslot i { x with st := 5 } s

def execNoFinal (slot : Nat) (s : State) : Ans := done s (noFinal slot s)

/-- A write of GLR_CTL: BYP_REQ 0 starts the opening of the bypass. -/
def glrCtlWrite (v m : Nat) (s : State) : State :=
  if F.GLR_CTL_BYP_REQ.of m = 0 then s
  else
    let v := F.GLR_CTL_BYP_REQ.of v
    let s := wr .glr F.GLR_CTL_BYP_REQ v s
    if v = 1 then setGlr { s.glr with taps := none } s else startBypassOpen s

end Sys2Proof.Machine
end

