-- ==== Sys2Proof/Machine/Power.lean ====
section
/-!
DEFINITION. Sys2Proof/Machine/Power.lean: the input path, the breaker and its curve, the hold-up store, regulators, temperature,
modes and resets, start-up (15 R285-R303; 18 R348, R352; 07 R144, R145; 12 R247).
-/
namespace Sys2Proof.Machine

def setPwr (p : Pwr) (s : State) : State := { s with pwr := p }
def setRst (r : Rst) (s : State) : State := { s with rst := r }

/-- Thresholds in mV (15 Table 15.1). -/
def vstby : Nat := 3000
def vinOnMv : Nat := 4400
def vinUvMv : Nat := 4000
def vinOvMv : Nat := 19000
def vinOvOffMv : Nat := 18000

/-- WARN in mV (15 Table 15.14). -/
def warnMv (s : State) : Nat := rd s .pwr F.PWR_WARN_CFG_WARN * 50

/-- Ticks in a millisecond. -/
def msTicks : Nat := 100000

/-- A decision of the power controller at tick `t`, timed by its own oscillator: the count moves on when REFCLK runs (15, the
introduction; log 39). -/
def atPwr (t : Nat) (f : State → State) (s : State) : State := f (advanceTo t s)

/-! ### PWRWARN_N and the power drain (15 R293, R296; 07 R145) -/

/-- EA_OFF sets (15 R296). -/
def eaOff (s : State) : State := wr .wabM F.WAB_MOD_STS_EA_OFF 1 s

/-- PWRWARN_N asserts, and the power drain begins where the core has power, from BOOT on. -/
def warnOn (s : State) : State :=
  if s.pwr.warn then s
  else
    let s := setPwr { s.pwr with warn := true } s
    if !s.mode.isUp && s.mode != .boot then s
    else { s with wab := { s.wab with pwrDrain := some s.tick } }
      |> eaOff |> wr .wabM F.WAB_MOD_STS_PWR_DRAIN 1 |> alcFlush |> alcReport

/-! ### Resets (15 R301, R302; 17 R331, R332) -/

/-- The fields that a warm reset keeps (17 R331; 02 R36; 12 Table 12.29; 10 Table 10.5). -/
def warmKeep : List Nat :=
  ([F.FLT_DUMP_STS_DEST, F.FLT_DUMP_STS_TRUNC, F.FLT_DUMP_STS_DONE].map (fkey .flt)) ++
  ([F.FTM_STS_STATE, F.FTM_STS_HOLDOVER, F.FTM_STS_FSYNC_OK, F.FTM_STS_RING_OK, F.FTM_CFG_MISS_LIM, F.FTM_CFG_SRC].map
    (fkey .ftm)) ++
  (List.range 128).map fun p => fkey (.part p) F.PART_STS_RST_CAUSE

/-- A flash write that a reset cuts leaves the copy open and the marker as it was (16 R307). -/
def flashCut (s : State) : State :=
  if s.sec.flashBusy then { setFlash s.sec.flashCopy (Config.flash (2 + s.free)) s with free := s.free + 1 } else s

/-- The state of a key slot, fused. -/
def setKeySt (slot v : Nat) (s : State) : State :=
  let now := if s.sec.keysSet then s.sec.keys else (List.range 4).foldl (fun m i => tput 0 m i (Config.keyState i)) []
  { s with sec := { s.sec with keysSet := true, keys := tput 0 now slot v } }

/-- Fuse writes that a loss of power meets: whether each was done is open. -/
def fuseCut (s : State) : State :=
  let s := s.each s.sec.revoking fun slot s =>
    let (x, s) := s.draw
    s.when (x % 2 == 1) (setKeySt slot 2)
  match s.sec.svnNew with
  | none => s
  | some v =>
    let (x, s) := s.draw
    if x % 2 = 1 then { s with sec := { s.sec with svnMin := some v } } else s

/-- What every reset does to tiles, links, queues, cores and pages; the non-volatile store, the power controller, the I3C
sideband, the pins and the model's own records stay. A ring time that waits in UNSET stays with the FTM's state (log 119). -/
def resetBlocks (keep : List Nat) (s : State) : State :=
  let s := flashCut s
  let n := Config.freeNonce s.free
  { State.reset with
    time := s.time
    tick := s.tick
    mode := s.mode
    regs := s.regs.filter fun e => keep.contains e.1
    ftm := { s.ftm with tset := none, ringPend := if ftmUnset s then s.ftm.ringPend else none }
    trail := { Trail.reset with delta := s.trail.delta, base := s.trail.base }
    ports := { Ports.reset with prsnt := s.ports.prsnt }
    wab := { Wab.reset with plr := s.wab.plr, plrValid := s.wab.plrValid, plrTrunc := s.wab.plrTrunc }
    flt := { Flt.reset with
      srcs := s.flt.srcs.filterMap fun e =>
        let x := { SrcS.reset with react := e.2.react, pair := if e.2.pair = 2 then 2 else 0 }
        if x = SrcS.reset then none else some (e.1, x)
      dump := s.flt.dump, stagingWin := s.flt.stagingWin, segDumps := s.flt.segDumps, seqs := s.flt.seqs }
    pwr := s.pwr
    rst := s.rst
    i3c := s.i3c
    sec := { Sec.reset with
      keys := s.sec.keys, keysSet := s.sec.keysSet, revoking := s.sec.revoking, svnMin := s.sec.svnMin, svnNew := s.sec.svnNew
      flash0 := s.sec.flash0, flash1 := s.sec.flash1, pref := s.sec.pref }
    dbg := { Dbg.reset with nonce := some n }
    free := s.free + 1
    out := s.out
    pending := s.pending }

/-- EA_OFF after a reset follows the store and PWRWARN_N (15 R296). -/
def eaFollow (s : State) : State := s.when (!s.pwr.full || s.pwr.warn) eaOff

/-- A core that comes up, or is reset, while PWRWARN_N is asserted meets the warning at once (15 R293, 07 R145; log 154). -/
def warnFollow (s : State) : State :=
  s.when s.pwr.warn fun s => { s with wab := { s.wab with pwrDrain := some s.tick } } |> eaOff |> wr .wabM F.WAB_MOD_STS_PWR_DRAIN 1

/-- A cold reset: PG_INT falls, the module enters OFF, and all but the non-volatile store, the power-loss record and the trip
record is lost. The caller has set the path. Fabric time is 0 from here and runs on (02 R27; log 160). -/
def coldReset (cause : Nat) (s : State) : State :=
  let s := fuseCut s
  let s := resetBlocks [] s
  let p := s.pwr
  let warn := p.lowAt.isNone && decide (p.vin < warnMv s)
  let f := s.flt
  { s with
    time := 0
    mode := .off
    ftm := Ftm.reset
    trail := { Trail.reset with base := 2 ^ 64 - s.tick % 2 ^ 64 }
    sec := { s.sec with revoking := [], svnNew := none }
    flt := { Flt.reset with srcs := f.srcs.filterMap (fun e => if e.2.pair = 2 then some (e.1, { SrcS.reset with pair := 2 }) else none)
                            seqs := f.seqs }
    pwr := { Pwr.reset with
      vin := p.vin, lowAt := p.lowAt, path := p.path, pathFrom := p.pathFrom, ov := p.ov, fails := p.fails, trips := p.trips
      cause := p.cause, point := p.point, latched := p.latched, warn := warn, full := p.full, vstore := p.vstore }
    rst := { Rst.reset with cause := cause, resetN := s.rst.resetN, refclk := s.rst.refclk } }
    |> eaFollow

/-- The BOOT steps begin, when RESET_N is high; they wait for REFCLK. With it the REFCLK outputs turn on, the breaker self-test
starts and the boot image is chosen (15 Table 15.10, R287; 16 R305). -/
def bootGo (s : State) : State :=
  if s.mode ≠ .boot ∨ !s.rst.resetN then s
  else
    let s := setRst { s.rst with inReset := false } s
    if !s.rst.refclk then s
    else s |> setRst { s.rst with refOk := true, refOut := true } |> setPwr { s.pwr with stTest := true, stFrom := s.tick }
      |> imageValidate

/-! ### Starts and failures (15 R286-R288) -/

/-- A start begins: PRECHARGE. PWRWARN_N follows VIN from here on (log 154). -/
def startPath (cause : Nat) (s : State) : State :=
  let s := setPwr { s.pwr with
    path := .precharge, pathFrom := s.tick, brk := 0, why := 0, reclose := false, pgInt := false, rails := 0
    warn := decide (s.pwr.vin < warnMv s) } s
  s |> setRst { s.rst with cause := cause, bootFrom := s.tick, coldAt := none } |> setMode .precharge

/-- A start may begin: VIN at VIN_ON, the path open and not latched off, no opening at VIN_OV or cold reset pending. -/
def mayStart (s : State) : Bool :=
  s.mode == .off && decide (s.pwr.path = .opened) && !s.pwr.latched && !s.pwr.ov && s.rst.coldAt.isNone
    && decide (vinOnMv ≤ s.pwr.vin)

/-- A failure counts: in a row, in total, and its cause; the fourth latches the path off. -/
def countFailure (cause point : Nat) (s : State) : State :=
  let p := s.pwr
  setPwr { p with
    fails := p.fails + 1, trips := min 255 (p.trips + 1), cause := cause, point := if cause = 2 then point else 0
    latched := p.latched || decide (4 ≤ p.fails + 1) } s

/-- The in-band interrupt of a bit of SB_STS that sets (18 R351): the data byte is SB_STS. -/
def sbSts (s : State) : Nat :=
  128 * s.pwr.latched.toNat + 64 * s.pwr.pgInt.toNat + 32 * s.pwr.warn.toNat + 16 * s.pwr.full.toNat
    + 8 * (!s.i3c.tjWarn.isEmpty).toNat + 4 * s.i3c.tjTrip.toNat + 2 * s.i3c.latchErr.toNat

def raiseIbi (s : State) : State := s.when (s.i3c.ibi && s.i3c.addr.isSome) (State.say (.ibi (sbSts s)))

/-- After a failure whose path is open: backoff, or OFF for good when latched. -/
def backoffOrLatch (at_ : Nat) (s : State) : State :=
  setPwr { s.pwr with path := if s.pwr.latched then .opened else .backoff, pathFrom := at_, rails := 0 } s

/-- A start fails. -/
def startFail (cause : Nat) (s : State) : State :=
  let was := s.pwr.latched
  let s := s |> countFailure cause 0 |> backoffOrLatch s.tick |> setMode .off
  s.when (s.pwr.latched && !was) raiseIbi

/-- The input path of a module with power opens; the discharger holds the bus (15 R294). -/
def openPath (why : Nat) (s : State) : State :=
  let (x, s) := s.draw
  setPwr { s.pwr with
    path := .holdup, pathFrom := s.tick, why := why, reclose := false, pgInt := false, full := false, vstore := x % 35000 } s
    |> eaOff |> warnOn

/-- A trip in SERVICE, and a fast trip during a self-test or a reclosure ramp (15 R288, R292, R293, R295). -/
def serviceTrip (cause point : Nat) (s : State) : State :=
  let was := s.pwr.latched
  let s := s |> countFailure cause point |> openPath 1
  s.when (s.pwr.latched && !was) raiseIbi

/-- VIN rises to VSTBY: the always-on island comes up. The latch is gone when VIN was below for 10 ms; with REFCLK stopped the
model does not know the time, and whether it is gone is open. Of a module in OFF, power is applied anew: RST_CAUSE is 0 (15
Table 15.27). -/
def islandUp (s : State) : State :=
  match s.pwr.lowAt with
  | none => s
  | some t =>
    let (x, s) := if clockRuns s then (s.tick - t, s) else let (y, s) := s.draw; ((y % 2) * (10 * msTicks), s)
    let s := setPwr { s.pwr with lowAt := none } s
    let s := s.when (s.mode == .off) (setRst { s.rst with cause := 0 })
    if 10 * msTicks ≤ x then setPwr { s.pwr with latched := false, fails := 0 } s else s

def setVin (mv : Nat) (s : State) : State := setPwr { s.pwr with vin := mv } s

/-- VIN_ON: VIN has been at or above VIN_ON for 1 ms. -/
def vinOn (mv : Nat) (s : State) : State :=
  if mv < vinOnMv then s
  else
    let s := s |> islandUp |> setVin mv
    if mayStart s then startPath s.rst.cause s else s

def execVinOn (mv : Nat) (s : State) : Ans := done s (vinOn mv s)

/-- PRECHARGE_DONE: the gates ramp, then the rails come up. -/
def execPrechargeDone (s : State) : Ans :=
  done s (if s.pwr.path = .precharge then setPwr { s.pwr with path := .ramp, pathFrom := s.tick } s else s)

/-- PRECHARGE_TIMEOUT: 20 ms after precharge began. -/
def execPrechargeTimeout (s : State) : Ans :=
  done s (if s.pwr.path = .precharge then atPwr (s.pwr.pathFrom + 20 * msTicks) (startFail 3) s else s)

/-- The gate ramp of a start, in ms (15 R286). -/
def gateRampMs : Nat := 2

/-- RAIL_TIMEOUT: the gates have ramped, the rails before this one have come up in their order, and 1 ms has passed since its turn. -/
def railTimeout (rail : Nat) (s : State) : State :=
  if s.pwr.path = .ramp ∧ !s.pwr.reclose ∧ rail < 12 then
    let up := railOrder.take (railOrder.idxOf rail)
    s |> atPwr (s.pwr.pathFrom + (gateRampMs + 1) * msTicks) (fun s => s |> State.say (.rails true up) |> startFail 5)
  else s

def execRailTimeout (rail : Nat) (s : State) : Ans := done s (railTimeout rail s)

/-- A start is complete: PG_INT asserts, the breaker goes to SERVICE, and the module enters BOOT. -/
def startDone (s : State) : State :=
  let s := s.say (.rails true railOrder)
  let s := setPwr { s.pwr with
    pgInt := true, pgFrom := s.tick, path := .closed, pathFrom := s.tick, brk := 1, rails := 12, unreg := [] } s
  let s := setRst { s.rst with inReset := !s.rst.resetN } s
  { s with dbg := { s.dbg with nonce := some (Config.freeNonce s.free) }, free := s.free + 1 }
    |> eaFollow |> setMode .boot |> warnFollow |> bootGo

/-- PG_INT_ASSERT: a period has ended that meets R292, in which every rail is in regulation, one that had left it among them (log
155). At the end of a start, which the gate ramp and the rails in their turns precede, the module enters BOOT; with the path closed
it stays in its mode. While the fault timer runs, PG_INT stays low. -/
def pgIntAssert (s : State) : State :=
  if s.pwr.pgInt || s.pwr.ran then s
  else if s.mode = .precharge ∧ s.pwr.path = .ramp then atPwr (s.pwr.pathFrom + gateRampMs * msTicks) startDone s
  else if s.pwr.path = .closed ∧ s.mode ≠ .off then
    s |> setPwr { s.pwr with pgInt := true, pgFrom := s.tick, unreg := [] } |> startBypassOpen
  else s

def execPgIntAssert (s : State) : Ans := done s (pgIntAssert s)

/-- FAST_TRIP: armed in every breaker mode. PWRWARN_N asserts with every trip (15 R293; log 154). -/
def fastTrip (s : State) : State :=
  match s.pwr.path with
  | .precharge => s |> warnOn |> startFail 1
  | .ramp => if s.pwr.reclose then serviceTrip 1 0 s else s |> warnOn |> startFail 1
  | .closed => serviceTrip 1 0 s
  | _ => s

def execFastTrip (s : State) : Ans := done s (fastTrip s)

/-! ### Evaluation periods (15 R287, R289-R292) -/

/-- T of a point in evaluation periods; on the fallback path at least 100 µs (15 R291). -/
def pointTime (fb : Bool) (p : Bool × Nat × Nat) : Nat := if fb then max 100 p.2.2 else p.2.2

/-- The count of a point's timer after `n` periods with current `i`; I_TRIP is in units of 0.25 A, the current in units of 10 mA. -/
def pointCount (i n : Nat) (p : Bool × Nat × Nat) (t : Nat) : Nat := if p.1 && decide (p.2.1 * 25 < i) then t + n else 0

/-- The period among the next `n` in which a point trips: the one in which its timer reaches T; the first, where it has (15 R290). -/
def pointReach (fb : Bool) (i n : Nat) (p : Bool × Nat × Nat) (t : Nat) : Option Nat :=
  if !p.1 || n == 0 then none
  else if pointTime fb p ≤ t then some 1
  else if p.2.1 * 25 < i ∧ pointTime fb p ≤ t + n then some (pointTime fb p - t)
  else none

/-- The point that trips first, the lower of two in one period (log 156): period and number. -/
def firstReach (l : List (Option Nat)) : Option (Nat × Nat) :=
  l.zipIdx.foldl (fun b x => match x.1, b with
    | some j, some (j0, _) => if j < j0 then some (j, x.2) else b
    | some j, none => some (j, x.2)
    | none, _ => b) none

/-- The points of the curve in force with their timers. -/
def pointTimers (s : State) : List ((Bool × Nat × Nat) × Nat) := s.pwr.curve.zip s.pwr.timers

/-- The check of the main path fails: it differs from the ADC by more than 10 % of its reading, or by more than 2 A (15 R291). -/
def CurRun.differs (r : CurRun) : Bool :=
  let d := (r.main - r.adc) + (r.adc - r.main)
  decide (r.adc < 10 * d) || decide (200 < d)

/-- Periods of one run end: the point timers and the check of the main path count them. The fault timer has run in the last of them when
a timer was above 0 at its beginning or its end. -/
def countPeriods (i n : Nat) (r : CurRun) (s : State) : State :=
  let at_ (m : Nat) : List Nat := (pointTimers s).map fun x => pointCount i m x.1 x.2
  let prev := if n = 1 then s.pwr.timers else at_ (n - 1)
  let bad := CurRun.differs r
  setPwr { s.pwr with
    timers := at_ n, ran := (at_ n).any (0 < ·) || prev.any (0 < ·), adcI := min r.adc 0xFFFF
    diffFor := if bad then s.pwr.diffFor + n else 0, sameFor := if bad then 0 else s.pwr.sameFor + n } s

/-- Evaluation periods with the same currents have ended. The current compared is that of the main path, or on the fallback path the
ADC's. In SERVICE the first point whose timer reaches its time trips; in START and TEST the timers run but do not trip. -/
def periodRun (r : CurRun) (s : State) : State :=
  let i := if s.pwr.measFb then r.adc else r.main
  let armed := s.pwr.brk == 1 && !s.pwr.stTest && decide (s.pwr.path = .closed)
  let hit := if armed then firstReach ((pointTimers s).map fun x => pointReach s.pwr.measFb i r.n x.1 x.2) else none
  if r.n = 0 then s
  else match hit with
    | some (j, k) => s |> countPeriods i j r |> serviceTrip 2 k
    | none => countPeriods i r.n r s

/-- Evaluation periods that have ended, in order; the power controller sees them while it has power. -/
def periodRuns (l : List CurRun) (s : State) : State := s.when s.pwr.lowAt.isNone (State.each l periodRun)

/-- CURVE_POINT_TRIP: the periods named end, and the point trips when its timer reaches its time in them (15 R289). -/
def execCurvePointTrip (x : CurveTrip) (s : State) : Ans := done s (periodRuns x.runs s)

/-- Backoff after the n-th failure in a row, in ms (15 R288). -/
def backoffMs (n : Nat) : Nat := match n with | 0 | 1 => 10 | 2 => 40 | _ => 160

/-- BACKOFF_END: a retry, which is a cold reset with cause 4; without VIN_ON it waits for it. -/
def backoffEnd (s : State) : State :=
  if s.pwr.path ≠ .backoff then s
  else atPwr (s.pwr.pathFrom + backoffMs s.pwr.fails * msTicks) (fun s =>
    let s := s |> setPwr { s.pwr with path := .opened } |> coldReset 4
    if mayStart s then startPath 4 s else s) s

def execBackoffEnd (s : State) : Ans := done s (backoffEnd s)

/-- RETRY_COUNT_CLEAR: PG_INT has stayed high for 1 s. -/
def execRetryCountClear (s : State) : Ans :=
  done s (if s.pwr.pgInt then atPwr (s.pwr.pgFrom + 1000 * msTicks) (fun s => setPwr { s.pwr with fails := 0 } s) s else s)

/-! ### The curve (15 R289, R290) -/

/-- The staged curve: enabled, I_TRIP, T in µs. -/
def stagedPoint (s : State) (en i e m : Fld) : Bool × Nat × Nat := (rdb s .pwr en, rd s .pwr i, rd s .pwr m * 2 ^ rd s .pwr e)

def stagedCurve (s : State) : List (Bool × Nat × Nat) :=
  [stagedPoint s F.PWR_CURVE0_EN F.PWR_CURVE0_I_TRIP F.PWR_CURVE0_T_EXP F.PWR_CURVE0_T_MAN,
   stagedPoint s F.PWR_CURVE1_EN F.PWR_CURVE1_I_TRIP F.PWR_CURVE1_T_EXP F.PWR_CURVE1_T_MAN,
   stagedPoint s F.PWR_CURVE2_EN F.PWR_CURVE2_I_TRIP F.PWR_CURVE2_T_EXP F.PWR_CURVE2_T_MAN,
   stagedPoint s F.PWR_CURVE3_EN F.PWR_CURVE3_I_TRIP F.PWR_CURVE3_T_EXP F.PWR_CURVE3_T_MAN,
   stagedPoint s F.PWR_CURVE4_EN F.PWR_CURVE4_I_TRIP F.PWR_CURVE4_T_EXP F.PWR_CURVE4_T_MAN,
   stagedPoint s F.PWR_CURVE5_EN F.PWR_CURVE5_I_TRIP F.PWR_CURVE5_T_EXP F.PWR_CURVE5_T_MAN,
   stagedPoint s F.PWR_CURVE6_EN F.PWR_CURVE6_I_TRIP F.PWR_CURVE6_T_EXP F.PWR_CURVE6_T_MAN,
   stagedPoint s F.PWR_CURVE7_EN F.PWR_CURVE7_I_TRIP F.PWR_CURVE7_T_EXP F.PWR_CURVE7_T_MAN]

/-- I_TRIP rises and T falls strictly from each point to the next. -/
def curveRises : List (Bool × Nat × Nat) → Bool
  | a :: b :: t => decide (a.2.1 < b.2.1) && decide (b.2.2 < a.2.2) && curveRises (b :: t)
  | _ => true

/-- The conditions of R290. -/
def curveOk (c : List (Bool × Nat × Nat)) : Bool :=
  let e := c.filter (·.1)
  !e.isEmpty && (e.all fun p => decide (501 ≤ p.2.1) && decide (p.2.1 ≤ 999)) && curveRises e

/-- An accepted curve takes effect at the next refill-slot boundary; a commit in the tick of one waits for the following. -/
def curveBoundary (s : State) : State :=
  match s.pwr.curveNew with
  | some (t, c) => if t = s.time then s else setPwr { s.pwr with curve := c, curveNew := none } s
  | none => s

/-- A write of COMMIT: a curve that is due in this tick takes effect first. -/
def curveCommit (s : State) : State :=
  let c := stagedCurve s
  if curveOk c then
    let s := if slotDue s then curveBoundary s else s
    setPwr { s.pwr with curveNew := some (s.time, c) } s
  else s |> reject .pwr |> wr .pwr F.PWR_CURVE_CTL_CURVE_ERR 1

def execCurveCommit (s : State) : Ans := done s (curveCommit s)

/-! ### Self-test and measurement (15 R287, R291) -/

/-- A write of SELFTEST. -/
def selftest (s : State) : State :=
  if s.mode ≠ .maintenance then reject .pwr s
  else if s.pwr.stTest then noteAgain .pwr F.PWR_BRK_CTL_SELFTEST s
  else setPwr { s.pwr with stTest := true, stFrom := s.tick } s

def execSelftest (s : State) : Ans := done s (selftest s)

/-- The main path is faulted: the curve goes to the ADC and the source is raised. Its check must pass for 1 s from here. -/
def measFault (s : State) : State := s |> setPwr { s.pwr with measFb := true, sameFor := 0 } |> raise 0x09 none none

/-- A self-test ends. -/
def selftestEnd (failed : Bool) (s : State) : State :=
  let s := setPwr { s.pwr with stTest := false, stFail := failed } s
  (s.when failed measFault).when (againNow s .pwr F.PWR_BRK_CTL_SELFTEST) selftest

/-- Ticks of a self-test, 50 µs. -/
def selftestTicks : Nat := 5000

/-- SELFTEST_DONE: 50 µs after its start (15 R287). -/
def selftestDone (failed : Bool) (s : State) : State :=
  if !s.pwr.stTest then s else atPwr (s.pwr.stFrom + selftestTicks) (selftestEnd failed) s

def execSelftestDone (failed : Bool) (s : State) : Ans := done s (selftestDone failed s)

/-- MEAS_PATH_FAULT: the check has failed for 1 ms, 1,000 evaluation periods (15 R291). -/
def measPathFault (s : State) : State := if s.pwr.measFb ∨ s.pwr.diffFor < 1000 then s else measFault s

def execMeasPathFault (s : State) : Ans := done s (measPathFault s)

/-- MEAS_PATH_RESTORE: the check has passed for 1 s. -/
def measPathRestore (s : State) : State := if s.pwr.sameFor < 1000000 then s else setPwr { s.pwr with measFb := false } s

def execMeasPathRestore (s : State) : Ans := done s (measPathRestore s)

/-- A new ADC sample: current, power and the energy drawn since the last one are free values (log 40). -/
def adcSample (s : State) : State :=
  let (i, s) := s.draw
  let (p, s) := s.draw
  let (e, s) := s.draw
  setPwr { s.pwr with adcI := i % 2 ^ 16, adcP := p % 2 ^ 16, energy := (s.pwr.energy + e) % 2 ^ 48 } s

/-- A read of PWR_ENERGY_LO latches the high bits. -/
def pwrEnergyLo (s : State) : Nat × State :=
  let s := adcSample s
  (s.pwr.energy % 2 ^ 32, wr .pwr F.PWR_ENERGY_HI_E_HI (s.pwr.energy / 2 ^ 32) s)

def execPwrEnergyLoRead (s : State) : Ans :=
  done s (let (v, s) := pwrEnergyLo s; s.say (.regData 0 (Page.pwr.base + F.PWR_ENERGY_LO_E_LO.off) v))

/-! ### Warm reset (15 R302; 07 R144) -/

/-- The request is taken: HOST links stop receiving, and the wait for the WAB begins (08 R165 for DIRTY lines). -/
def warmTake (cause : Nat) (s : State) : State :=
  { setRst { s.rst with inReset := true, warmHeld := none, warmAt := some s.tick, bootFrom := s.tick, cause := cause } s with
    wab := { s.wab with wait := some s.tick } } |> alcFlush |> alcReport

/-- A warm reset is requested: held while PWRWARN_N is asserted or a dump is being written; one in progress absorbs it. -/
def warmRequest (cause : Nat) (s : State) : State :=
  if s.mode = .off ∨ s.mode = .precharge ∨ s.rst.warmAt.isSome then s
  else if s.pwr.warn || dumpBusy s then setRst { s.rst with warmHeld := some cause } s
  else warmTake cause s

/-- A held request is taken once nothing holds it. -/
def warmHeldGo (s : State) : State :=
  match s.rst.warmHeld with
  | some c => if s.pwr.warn || dumpBusy s then s else warmTake c s
  | none => s

/-- WARM. -/
def execWarm (s : State) : Ans := done s (warmRequest 2 s)

/-- RESET_N_FALL. -/
def execResetNFall (s : State) : Ans := done s (s |> setRst { s.rst with resetN := false } |> warmRequest 1)

/-- RESET_N_RISE. -/
def execResetNRise (s : State) : Ans := done s (s |> setRst { s.rst with resetN := true } |> bootGo)

/-- The wait of R144 has ended. -/
def warmDrained (s : State) (since : Nat) : Bool := !wabWaits s none || decide (since + wabWaitLimit ≤ s.tick)

/-- Steps 3 and 4: blocks are reset, outputs fall, and the module enters BOOT. -/
def warmBoot (s : State) : State :=
  let s := resetBlocks warmKeep s
  let p := s.pwr
  let s := setPwr { p with
    stTest := false, stFail := false, curve := curveReset, curveNew := none } s
  s |> setRst { s.rst with warmAt := none, refOk := false } |> eaFollow |> setMode .boot |> warnFollow |> bootGo

/-- WARM_RESET: what remains after the wait goes into a dump and is discarded; the reset goes on when the dump is written. -/
def warmReset (s : State) : State :=
  match s.rst.warmAt with
  | none => s
  | some t =>
    if !warmDrained s t || dumpBusy s then s
    else if s.wab.ents.isEmpty && !(s.home.alc.any (·.dirty)) then warmBoot s
    else
      let at_ := (s.time + 2 ^ 64 - (s.tick - t)) % 2 ^ 64
      let s := dumpStart 1 s.mode.code at_ (wabWaits s none) none s
      let s := { s with
        wab := { s.wab with ents := [] }, home := { s.home with alc := s.home.alc.filter fun a => !a.dirty } }
      if dumpBusy s then s else warmBoot s

def execWarmReset (s : State) : Ans := done s (warmReset s)

/-- DUMP_WRITTEN: a warm reset that waited for BUSY is taken in the same tick. -/
def dumpWritten (s : State) : State := s |> dumpDone |> warmHeldGo

def execDumpWritten (s : State) : Ans := done s (dumpWritten s)

/-! ### The input fails and returns (15 R285, R293-R296) -/

/-- PWRWARN_N deasserts: the drain window ends, credit returns at once, and a held warm reset is taken. -/
def warnOff (s : State) : State :=
  if !s.pwr.warn then s
  else { setPwr { s.pwr with warn := false } s with wab := { s.wab with pwrDrain := none } }
    |> wr .wabM F.WAB_MOD_STS_PWR_DRAIN 0 |> State.each (List.range 8) returnOwed |> warmHeldGo

/-- PWRWARN_ASSERT: VIN has stayed below WARN for 2 µs. -/
def pwrwarnAssert (mv : Nat) (s : State) : State :=
  if warnMv s ≤ mv ∨ s.pwr.lowAt.isSome then s else s |> setVin mv |> warnOn

def execPwrwarnAssert (mv : Nat) (s : State) : Ans := done s (pwrwarnAssert mv s)

/-- PWRWARN_DEASSERT: VIN has stayed at or above WARN + 200 mV for 100 µs with the path closed. -/
def pwrwarnDeassert (mv : Nat) (s : State) : State :=
  if mv < warnMv s + 200 ∨ s.pwr.path ≠ .closed then s else s |> setVin mv |> warnOff

def execPwrwarnDeassert (mv : Nat) (s : State) : Ans := done s (pwrwarnDeassert mv s)

/-- The path opens at VIN_UV or VIN_OV, whatever it is doing; PWRWARN_N asserts (15 R293; log 154). -/
def pathLost (why : Nat) (s : State) : State :=
  match s.pwr.path with
  | .closed => openPath why s
  | .ramp =>
    if s.pwr.reclose then setPwr { s.pwr with path := .holdup, reclose := false, why := why } s
    else s |> setPwr { s.pwr with path := .opened, pathFrom := s.tick, rails := 0 } |> warnOn |> setMode .off
  | .precharge => s |> setPwr { s.pwr with path := .opened, pathFrom := s.tick } |> warnOn |> setMode .off
  | _ => s

/-- VIN_UV. -/
def vinUv (mv : Nat) (s : State) : State := if vinUvMv ≤ mv then s else s |> setVin mv |> pathLost 0

def execVinUv (mv : Nat) (s : State) : Ans := done s (vinUv mv s)

/-- VIN_OV: VIN has been at VIN_OV for 2 µs; recorded, and not counted as a failure. -/
def vinOv (mv : Nat) (s : State) : State :=
  if mv < vinOvMv then s
  else
    let s := s |> islandUp |> setVin mv
    let s := setPwr { s.pwr with ov := true } s
    match s.pwr.path with
    | .opened | .backoff => s
    | _ => s |> setPwr { s.pwr with cause := 4, point := 0 } |> pathLost 2

def execVinOv (mv : Nat) (s : State) : Ans := done s (vinOv mv s)

/-- VIN_OV_CLEAR: the module restarts. -/
def vinOvClear (mv : Nat) (s : State) : State :=
  if vinOvOffMv < mv then s
  else
    let was := s.pwr.ov
    let s := s |> setVin mv |> fun s => setPwr { s.pwr with ov := false } s
    if was && mayStart s then startPath s.rst.cause s else s

def execVinOvClear (mv : Nat) (s : State) : Ans := done s (vinOvClear mv s)

/-- VIN_BELOW_VSTBY: the always-on island has no power; a hold-up that runs goes on to its end (15 R288, R294; 18 R351, R352). -/
def vinBelowVstby (mv : Nat) (s : State) : State :=
  if vstby ≤ mv then s
  else
    let s := s |> setVin mv |> pathLost 0
    let p := s.pwr
    let s := setPwr { p with
      lowAt := some (p.lowAt.getD s.tick), cause := 0, point := 0, trips := 0, ov := false
      path := if p.path = .backoff then .opened else p.path
      warn := if p.path = .holdup then p.warn else false } s
    { s with
      i3c := { s.i3c with addr := none, sel := 0, hi := [], ibi := false, tjTrip := false, latchErr := false }
      rst := { s.rst with coldAt := none } }

def execVinBelowVstby (mv : Nat) (s : State) : Ans := done s (vinBelowVstby mv s)

/-- VIN_ABOVE_VSTBY. -/
def execVinAboveVstby (mv : Nat) (s : State) : Ans := done s (if mv < vstby then s else s |> islandUp |> setVin mv)

/-- The time from the path's opening to the power-down of a module whose store lasts: 2.0 ms (15 R294). -/
def holdTicks : Nat := 2 * msTicks

/-- POWER_DOWN: the store is at its floor, or 2.0 ms have passed and no reclosure runs. The rails fall in the reverse of their start
order. A trip goes on to its backoff. -/
def powerDown (s : State) : State :=
  if s.pwr.path = .holdup ∨ (s.pwr.path = .ramp ∧ s.pwr.reclose) then
    let trip := decide (s.pwr.why = 1)
    let at_ := s.pwr.pathFrom
    let s := s |> State.say (.rails false railOrder.reverse) |> setPwr { s.pwr with path := .opened } |> coldReset 5
    s.when trip (backoffOrLatch at_)
  else s

def execPowerDown (s : State) : Ans := done s (powerDown s)

/-- RECLOSURE: only after an opening at VIN_UV, and before the power-down, 2.0 ms after the path opened (15 R294, R295). -/
def reclosure (mv : Nat) (s : State) : State :=
  if s.pwr.path ≠ .holdup ∨ s.pwr.why ≠ 0 ∨ mv < warnMv s + 200 ∨ s.pwr.pathFrom + holdTicks ≤ s.tick then s
  else s |> setVin mv |> fun s => setPwr { s.pwr with path := .ramp, reclose := true, brk := 0 } s

def execReclosure (mv : Nat) (s : State) : Ans := done s (reclosure mv s)

/-- RECLOSURE_DONE. -/
def reclosureDone (s : State) : State :=
  if s.pwr.path = .ramp ∧ s.pwr.reclose then
    s |> setPwr { s.pwr with path := .closed, pathFrom := s.tick, reclose := false, brk := 1 } |> warnOff
  else s

def execReclosureDone (s : State) : Ans := done s (reclosureDone s)

/-- HOLDUP_FULL: EA_OFF follows at a refill-slot boundary. -/
def execHoldupFull (mv : Nat) (s : State) : Ans :=
  done s (if mv < 35000 then s else setPwr { s.pwr with full := true, vstore := min mv 65535 } s)

/-- STORE_NOT_FULL. -/
def execStoreNotFull (mv : Nat) (s : State) : Ans :=
  done s (if 35000 ≤ mv then s else s |> setPwr { s.pwr with full := false, vstore := mv } |> eaOff)

/-- EA_OFF at a refill-slot boundary. -/
def eaBoundary (s : State) : State :=
  s.when (s.pwr.full && !s.pwr.warn) (wr .wabM F.WAB_MOD_STS_EA_OFF 0)

/-! ### Regulators and temperature (15 R297; 18 R352) -/

/-- The PWR regulation source, raised by a rail: PG_INT drops (15 R292). -/
def regulation (s : State) : State := s |> setPwr { s.pwr with pgInt := false } |> raise 0x08 none none

/-- PHASE_LOST: more than two on a rail leave fewer than N. -/
def phaseLost (rail phase : Nat) (s : State) : State :=
  if 12 ≤ rail ∨ railNeeds rail + 2 ≤ phase ∨ s.pwr.drops.contains (rail, phase) then s
  else
    let s := setPwr { s.pwr with drops := s.pwr.drops ++ [(rail, phase)] } s
    let few := decide (2 < (s.pwr.drops.filter fun d => d.1 == rail).length)
    s |> State.when few (fun s => setPwr { s.pwr with pgInt := false } s)
      |> raiseSame (([0x07] ++ if few then [0x08] else []).map fun k => ⟨k, none, none, none⟩)

def execPhaseLost (rail phase : Nat) (s : State) : Ans := done s (phaseLost rail phase s)

/-- REGULATION_FAULT: a rail has left ±5 % of its voltage for 10 µs. -/
def regulationFault (rail : Nat) (s : State) : State :=
  if 12 ≤ rail then s
  else s |> setPwr { s.pwr with unreg := if s.pwr.unreg.contains rail then s.pwr.unreg else s.pwr.unreg ++ [rail] }
    |> regulation

def execRegulationFault (rail : Nat) (s : State) : Ans := done s (regulationFault rail s)

/-- A die has reached 115 °C. -/
def tjTrip (s : State) : State := { s with i3c := { s.i3c with tjTrip := true } } |> raise 0x08 none none

/-- A reading at or above 115 °C. -/
def tripReading (old : Option Nat) : Nat :=
  match old with
  | some v => if 115 ≤ v ∧ v < 128 then v else 115
  | none => 115

/-- TJ_TRIP. -/
def execTjTrip (die : Nat) (s : State) : Ans :=
  done s (tjTrip { s with i3c := { s.i3c with
    tj := tput none s.i3c.tj die (some (tripReading (tget none s.i3c.tj die)))
    tjWarn := if s.i3c.tjWarn.contains die then s.i3c.tjWarn else s.i3c.tjWarn ++ [die] } })

/-- TEMPERATURE_READ: a byte in two's complement. -/
def temperatureRead (die temp : Nat) (s : State) : State :=
  let hot := decide (105 ≤ temp % 256) && decide (temp % 256 < 128)
  let was := s.i3c.tjWarn
  let now := if hot then (if was.contains die then was else was ++ [die]) else was.filter (· != die)
  let s := { s with i3c := { s.i3c with tj := tput none s.i3c.tj die (some (temp % 256)), tjWarn := now } }
  let s := s.when (was.isEmpty && !now.isEmpty) raiseIbi
  s.when (hot && decide (115 ≤ temp % 256)) tjTrip

def execTemperatureRead (die temp : Nat) (s : State) : Ans := done s (temperatureRead die temp s)

/-! ### Cold reset, REFCLK and start-up (15 R301, Table 15.10; 18 R348) -/

/-- A cold reset without drain: the input path opens at once, and a start follows after 10 ms. -/
def coldNow (s : State) : State :=
  if s.mode = .off ∨ s.mode = .precharge then s
  else
    let s := s |> setPwr { s.pwr with path := .opened, pathFrom := s.tick } |> coldReset 3
    setRst { s.rst with coldAt := some s.tick } s

/-- COLD: a write of MOD_RESET.COLD. -/
def cold (key : Nat) (s : State) : State := if key ≠ 0xC0 then reject .mod s else coldNow s

def execCold (key : Nat) (s : State) : Ans := done s (cold key s)

/-- COLD_RESET_START. -/
def coldResetStart (s : State) : State :=
  match s.rst.coldAt with
  | none => s
  | some t => atPwr (t + 10 * msTicks) (fun s =>
      let s := setRst { s.rst with coldAt := none } s
      if mayStart s then startPath s.rst.cause s else s) s

def execColdResetStart (s : State) : Ans := done s (coldResetStart s)

/-- REFCLK_LOSS: REFCLK has stopped for 10 µs. -/
def refclkLoss (s : State) : State :=
  if !s.rst.refclk then s
  else
    let s := setRst { s.rst with refclk := false, refOk := false } s
    if s.mode.isUp then coldNow s else s

def execRefclkLoss (s : State) : Ans := done s (refclkLoss s)

/-- REFCLK_RETURN: the core PLLs lock and a BOOT that waits goes on. -/
def refclkReturn (s : State) : State :=
  if s.rst.refclk then s
  else
    let s := setRst { s.rst with refclk := true } s
    if s.mode = .boot ∧ s.rst.refOut then setRst { s.rst with refOk := true } s else bootGo s

def execRefclkReturn (s : State) : Ans := done s (refclkReturn s)

/-- The pages that Harcen starts: FTM, GLR, the NIs and the tiles' CNP (17 R332). -/
def harcenPages : List Page :=
  [Page.ftm, .glr] ++ ((List.range 0xD0).filter fun d => pageAt (niBase d / 0x1000) = some (.ni d)).map Page.ni
    ++ (List.range 8).map Page.cnp

/-- BOOT_DONE: cores and watchdogs run, Harcen has loaded the route tables (01 R21) and set up the blocks, STANDBY begins and the
bypass opens. -/
def bootDone (s : State) : State :=
  if s.mode ≠ .boot ∨ !s.rst.refOk ∨ s.pwr.stTest ∨ s.sec.running.isNone ∨ s.rst.warmAt.isSome ∨ !s.rst.resetN then s
  else
    let s := s.each harcenPages fun pg => wr pg F.BLK_CTL_RUN 0
    let s := { s with trail := { s.trail with routes := [], loaded := true } }
    let s := { s with flt := { s.flt with
      cores := [(0, ⟨true, s.tick⟩), (1, ⟨true, s.tick⟩)], active := 0, takeover := false, wdogFed := s.tick, wdogOut := false } }
    s |> wr .mod F.MOD_BOOT_TIME_MS (min 0xFFFF ((s.tick - s.rst.bootFrom) / msTicks)) |> setMode .standby
      |> startBypassOpen

def execBootDone (s : State) : Ans := done s (bootDone s)

end Sys2Proof.Machine
end

