-- ==== Sys2Proof/Machine/Queues.lean ====
section
/-!
DEFINITION. Sys2Proof/Machine/Queues.lean: the management endpoints' doorbells, their resets and links, and the event queues
(11 R203-R207, R211, R213, R217, R220, R223-R225; 12 R233).
-/
namespace Sys2Proof.Machine

def setMq (m : Mq) (s : State) : State := { s with mq := m }

/-! ### Doorbells (11 R206, R207, R211, R213) -/

/-- A doorbell of a queue that is STOPPED sets DB_ERR and does nothing else (11 R206). -/
def whenRun (ep q : Nat) (f : State → State) (s : State) : State :=
  if qRun s ep q then f s else wr (.mq ep q) F.MQ_Q_STS_DB_ERR 1 s

/-- A doorbell that is ignored (11 R207). -/
def dbErr (ep q : Nat) (s : State) : State :=
  s |> wr (.mq ep q) F.MQ_Q_STS_DB_ERR 1 |> post 128 0x0D [(16, ep), (17, q), (18, 0)]

/-- The SQ tail `v` is accepted (11 R207). -/
def sqTailOk (s : State) (ep q v : Nat) : Bool :=
  let n := sqN s ep q
  let h := rd s (.mq ep q) F.MQ_Q_SQ_HEAD
  let t := rd s (.mq ep q) F.MQ_Q_SQ_TAIL
  decide (v < 2 * n) && decide (ringDiff n t h ≤ ringDiff n v h) && decide (ringDiff n v h ≤ n)

/-- SQ_TAIL_DOORBELL. -/
def sqTailDoorbell (ep q v : Nat) (s : State) : State :=
  whenRun ep q (fun s => if sqTailOk s ep q v then wr (.mq ep q) F.MQ_Q_SQ_TAIL v s else dbErr ep q s) s

def execSqTailDoorbell (ep q v : Nat) (s : State) : Ans := done s (sqTailDoorbell ep q v s)

/-- The CQ head `v` is accepted (11 R207). -/
def cqHeadOk (s : State) (ep q v : Nat) : Bool :=
  let n := cqN s ep q
  let h := rd s (.mq ep q) F.MQ_Q_CQ_HEAD
  let t := rd s (.mq ep q) F.MQ_Q_CQ_TAIL
  decide (v < 2 * n) && decide (ringDiff n v h ≤ ringDiff n t h)

/-- Room in the completion ring: held completions are written, and the pause ends (11 R213). A queue halted by an error holds
them (11 R218). -/
def cqRoom (ep q : Nat) (s : State) : State :=
  if rdb s (.mq ep q) F.MQ_Q_STS_DMA_ERR then s
  else s |> cqDrain ep q (heldOf s ep q).length |> wr (.mq ep q) F.MQ_Q_STS_CQ_PAUSED 0

/-- CQ_HEAD_DOORBELL. -/
def cqHeadDoorbell (ep q v : Nat) (s : State) : State :=
  whenRun ep q (fun s =>
    if !cqHeadOk s ep q v then dbErr ep q s
    else if v = rd s (.mq ep q) F.MQ_Q_CQ_HEAD then s
    else s |> wr (.mq ep q) F.MQ_Q_CQ_HEAD v |> cqRoom ep q) s

def execCqHeadDoorbell (ep q v : Nat) (s : State) : Ans := done s (cqHeadDoorbell ep q v s)

/-- QINV_DOORBELL: the cached entries are discarded, the one found waiting under ORD too, and fetched again (11 R211). -/
def qinvDoorbell (ep q : Nat) (s : State) : State :=
  whenRun ep q (fun s => s |> setMq { s.mq with ordWait := s.mq.ordWait.filter (· != (ep, q)) } |> setCache ep q []) s

def execQinvDoorbell (ep q : Nat) (s : State) : Ans := done s (qinvDoorbell ep q s)

/-! ### Starting a queue (11 R206, 17 R334) -/

/-- Every RWQ field of a queue's page is valid. -/
def queueValid (s : State) (ep q : Nat) : Bool :=
  let sq := rd s (.mq ep q) F.MQ_Q_CFG_SQ_LOG2
  let cq := rd s (.mq ep q) F.MQ_Q_CFG_CQ_LOG2
  decide (4 ≤ sq) && decide (sq ≤ 12) && decide (4 ≤ cq) && decide (cq ≤ 12)

/-- A queue's page is written through its own endpoint, or by the debug master (17 R320, R334). -/
def ownsQueue (src ep : Nat) : Bool := src == ep || src == 2

/-- A write of BLK_CTL of a queue's page by a source: 0 MGA, 1 MGB, 2 JTAG. -/
def queueRunWrite (src ep q v m : Nat) (s : State) : State :=
  let pg := Page.mq ep q
  if !ownsQueue src ep then reject pg s
  else if F.BLK_CTL_RUN.of m = 0 then s
  else
    let run := F.BLK_CTL_RUN.merge (rd s pg F.BLK_CTL_RUN) v m
    if run ≠ 0 then reject pg s
    else if qRun s ep q then s
    else if !queueValid s ep q then reject pg s
    else s |> wr pg F.BLK_CTL_RUN 0 |> wr pg F.MQ_Q_SQ_HEAD 0 |> wr pg F.MQ_Q_SQ_TAIL 0 |> wr pg F.MQ_Q_CQ_HEAD 0
      |> wr pg F.MQ_Q_CQ_TAIL 0

/-- QUEUE_BLK_CTL_WRITE. -/
def execQueueBlkCtlWrite (src ep q : Nat) (v : Word) (s : State) : Ans :=
  done s (regGate (.mq ep q) (queueRunWrite src ep q v.toNat 0xFFFFFFFF) s)

/-! ### Resets and links of an endpoint (11 R217, 12 R233, 16 R313) -/

/-- Every page of an endpoint's queues returns to its reset values. -/
def resetQueuePages (ep : Nat) (s : State) : State :=
  let mine (key : Nat) : Bool :=
    let n := key / 8 / 0x1000
    decide (0x100 + 64 * ep ≤ n) && decide (n < 0x100 + 64 * (ep + 1))
  { s with
    regs := s.regs.filter fun e => !mine e.1
    rwe := s.rwe.filter fun e => !mine (e.1 / 2)
    w1cNow := s.w1cNow.filter fun e => !mine e.1 }

/-- The queues of an endpoint enter STOPPED, their caches and held completions go, and the MSI-X table is as at reset; commands
dispatched run on, and report to the module event queue. -/
def resetEndpoint (ep : Nat) (s : State) : State :=
  let m := s.mq
  let s := setMq { m with
    flying := m.flying.map fun f => if f.ctx.ep = ep then { f with orphan := true } else f
    heldCpl := m.heldCpl.filter fun e => e.1 / 64 != ep
    rr := tput Rr.reset m.rr ep Rr.reset
    cplErr := m.cplErr.filter fun e => e.1 / 64 != ep
    ordWait := m.ordWait.filter fun e => e.1 != ep
    cache := m.cache.filter fun e => e.1 / 64 != ep
    gens := tput 0 m.gens ep (tget 0 m.gens ep + 1)
    msixTab := m.msixTab.filter fun e => e.1 / 2048 != ep
    pba := m.pba.filter fun k => k / 2048 != ep } s
  let s := resetQueuePages ep s
  { s with sec := { s.sec with spdm := tput 0 s.sec.spdm ep 0, spdmProc := tput none s.sec.spdmProc ep none } }

/-- FUNCTION_LEVEL_RESET. -/
def execFunctionLevelReset (ep : Nat) (s : State) : Ans := done s (resetEndpoint ep s)

/-- MGMT_LINK_LOSS: the endpoint's link leaves L0. -/
def mgmtLinkLoss (ep : Nat) (s : State) : State :=
  let m := s.mq
  if m.lost.contains ep then s
  else
    setMq { m with mgmtUp := m.mgmtUp.filter (· != ep), lost := m.lost ++ [ep] } s
      |> resetEndpoint ep |> raise (5 + ep) none none

def execMgmtLinkLoss (ep : Nat) (s : State) : Ans := done s (mgmtLinkLoss ep s)

/-- A management endpoint may train: from the BOOT steps on, with RESET_N high (15 Table 15.11). -/
def mayTrainMgmt (s : State) : Bool := s.mode != .off && s.mode != .precharge && s.rst.refOut

/-- MGMT_LINK_UP. -/
def mgmtLinkUp (ep : Nat) (s : State) : State :=
  if !mayTrainMgmt s || mgUp s ep then s
  else
    let m := s.mq
    setMq { m with mgmtUp := m.mgmtUp ++ [ep], lost := m.lost.filter (· != ep) } s

def execMgmtLinkUp (ep : Nat) (s : State) : Ans := done s (mgmtLinkUp ep s)

/-! ### Event queues (11 R223-R225) -/

/-- The idle-tail timer starts again while the queue is not empty. -/
def evRestart (q : Nat) (s : State) : State := setEvTimer q (if (evList s q).isEmpty then none else some s.tick) s

/-- The SEQ `x` of a consume doorbell lies between HEAD − 1 and NEXT − 1: how many events it frees. -/
def consumeCount (s : State) (queue x : Nat) : Option Nat :=
  let n := (evList s queue).length
  let next := rd s (.evq queue) F.MQ_EVQ_NEXT_SEQ
  let head := (next + 2 ^ 32 - n) % 2 ^ 32
  let k := (x % 2 ^ 32 + 1 + 2 ^ 32 - head) % 2 ^ 32
  if k ≤ n then some k else none

/-- The queue as it stood before the posts of this tick that met it full: they have overwritten nothing yet (11 R223). The posts
stand apart. -/
def evUndo (queue : Nat) (s : State) : List Event × State :=
  match tget none s.mq.ovw queue with
  | some o =>
    if o.tick = s.tick then
      let l := o.gone ++ evList s queue
      let n := (rd s (.evq queue) F.MQ_EVQ_NEXT_SEQ + 2 ^ 32 - o.next) % 2 ^ 32
      (l.drop (l.length - n), s |> setEv queue (l.take (l.length - n)) |> wr (.evq queue) F.MQ_EVQ_NEXT_SEQ o.next
        |> wr (.evq queue) F.MQ_EVQ_LOST_EVQ_LOST o.lost |> setOver queue none)
    else ([], s)
  | none => ([], s)

/-- Those posts again, after the consume. -/
def evRedo (queue : Nat) (es : List Event) (s : State) : State :=
  let pg := Page.evq queue
  s.each es fun e s => s |> evOverwrite queue (rd s pg F.MQ_EVQ_CFG_CAP - 1) |> setEv queue (evList s queue ++ [e])
    |> wr pg F.MQ_EVQ_NEXT_SEQ (e.seq + 1)

/-- EVQ_CONSUME_DOORBELL through endpoint `ep`: applied before a post that met the full queue in the same tick (11 R223, R224). -/
def evqConsumeDoorbell (ep queue x : Nat) (s : State) : State :=
  let (es, t) := evUndo queue s
  match consumeCount t queue x with
  | some k => t |> setEv queue ((evList t queue).drop k) |> evRedo queue es |> evRestart queue
  | none => s |> wr (.evq queue) F.MQ_EVQ_STS_DB_ERR 1 |> post 128 0x0D [(16, ep), (17, queue), (18, 3)]

def execEvqConsumeDoorbell (d : EvDoor) (x : Nat) (s : State) : Ans := done s (evqConsumeDoorbell d.ep d.queue x s)

/-- EVQ_IDLE_TIMEOUT. -/
def evqIdleTimeout (queue : Nat) (s : State) : State :=
  let tmo := rd s (.evq queue) F.MQ_EVQ_TMO_TMO
  match tget none s.mq.timers queue with
  | none => s
  | some t =>
    if tmo = 0 ∨ (evList s queue).isEmpty then s
    else atTick (t + tmo) (fun s => s |> evInterrupt queue |> evRestart queue) s

def execEvqIdleTimeout (queue : Nat) (s : State) : Ans := done s (evqIdleTimeout queue s)

/-! ### BAR2 (11 R205, Table 11.1) -/

/-- What an offset in BAR2 names. -/
inductive Bar2At where
  | sqTail (q : Nat)
  | cqHead (q : Nat)
  | qinv (q : Nat)
  | consume (e : Nat)
  | table (vec : Nat) (off : Nat)
  | pending (off : Nat)
  | reserved
deriving DecidableEq, Repr

/-- Table 11.1: a doorbell page holds its doorbells, and the rest of it is reserved. -/
def bar2At (off : Nat) : Bar2At :=
  let n := off / 0x1000
  let o := off % 0x1000
  if n < 64 then (if o = 0 then .sqTail n else if o = 4 then .cqHead n else if o = 8 then .qinv n else .reserved)
  else if n < 193 then (if o = 0 then .consume (n - 64) else .reserved)
  else if 0xE0000 ≤ off ∧ off < 0xE8000 then .table (off % 0x8000 / 16) (off % 16)
  else if 0xF0000 ≤ off ∧ off < 0xF0100 then .pending (off % 0x100)
  else .reserved

/-- Bytes of BAR2. -/
def bar2Size : Nat := 0x100000

/-- The 4-byte word of the pending-bit array at `off`. -/
def pbaWord (s : State) (ep off : Nat) : Nat :=
  ((List.range 32).map fun j => (s.mq.pba.contains (vecKey ep (8 * off + j))).toNat * 2 ^ j).sum

/-- A read of 4 bytes of BAR2: doorbells and reserved space read 0 (11 R205). -/
def bar2Read (s : State) (ep off : Nat) : Nat :=
  match bar2At off with
  | .table vec o => ((msixOf s ep vec).extractLsb' (8 * o) 32).toNat
  | .pending o => pbaWord s ep o
  | _ => 0

/-- Write 4 bytes of an MSI-X table entry; of the last word the Mask bit alone is held. A vector that is pending when it is unmasked is
raised (11 R203, R225; log 8). -/
def msixWrite (ep vec off v : Nat) (s : State) : State :=
  let old := (msixOf s ep vec).toNat
  let v := if off = 12 then v % 2 else v % 2 ^ 32
  let new := BitVec.ofNat 128 (old - bits old (8 * off) 32 * 2 ^ (8 * off) + v * 2 ^ (8 * off))
  let s := setMq { s.mq with msixTab := tput msixReset s.mq.msixTab (vecKey ep vec) new } s
  if s.mq.pba.contains (vecKey ep vec) && !msixMasked s ep vec then
    s |> setMq { s.mq with pba := s.mq.pba.filter (· != vecKey ep vec) } |> State.say (.msix ep vec)
  else s

/-- A write through BAR2 (11 R205): a doorbell takes 4 bytes and ignores any other size; the MSI-X table takes aligned words of 4 or 8
bytes; the pending-bit array and reserved space take nothing. -/
def bar2Write (ep off size v : Nat) (s : State) : State :=
  match bar2At off with
  | .sqTail q => if size = 4 then sqTailDoorbell ep q (v % 2 ^ 32) s else s
  | .cqHead q => if size = 4 then cqHeadDoorbell ep q (v % 2 ^ 32) s else s
  | .qinv q => if size = 4 then qinvDoorbell ep q s else s
  | .consume e => if size = 4 then evqConsumeDoorbell ep e (v % 2 ^ 32) s else s
  | .table vec o =>
    if size = 4 ∧ off % 4 = 0 then msixWrite ep vec o v s
    else if size = 8 ∧ off % 8 = 0 then s |> msixWrite ep vec o v |> msixWrite ep vec (o + 4) (v / 2 ^ 32)
    else s
  | .pending _ => s
  | .reserved => s

/-! ### Event windows (11 R224, R226) -/

/-- A 32-bit word of an event (11 Table 11.7). -/
def Event.word (e : Event) (i : Nat) : Nat :=
  match i with
  | 0 => e.seq
  | 1 => e.typ + e.queue * 2 ^ 16 + e.copy.toNat * 2 ^ 24
  | 2 => e.time % 2 ^ 32
  | 3 => e.time / 2 ^ 32
  | _ =>
    let whole := (e.payload.map fun p => p.2 * 2 ^ (8 * p.1)).sum
    bits whole (32 * i) 32

/-- A word of a page's event window (11 R224). -/
def evWord (s : State) (queue off : Nat) : Nat :=
  match (evList s queue)[(off - 0x400) / 64]? with
  | some e => e.word ((off - 0x400) % 64 / 4)
  | none => 0

/-- A read of the event window: it restarts the timer. -/
def evqWindow (queue : Nat) (s : State) : State := if s.mode.isUp then evRestart queue s else s

/-- EVQ_WINDOW_READ: the window's events go to the reader. -/
def execEvqWindowRead (ep queue : Nat) (s : State) : Ans :=
  let base := (Page.evq queue).base
  let ws := (List.range 256).map fun i => (base + 0x400 + 4 * i, if s.mode.isUp then evWord s queue (0x400 + 4 * i) else 0)
  done s (s |> evqWindow queue |> State.each ws fun x => State.say (.regData ep x.1 x.2))

end Sys2Proof.Machine
end

