-- ==== Sys2Proof/Machine/I3cBus.lean ====
section
/-!
DEFINITION. Sys2Proof/Machine/I3cBus.lean: the I3C sideband target of the always-on island (18 R351-R353).
-/
namespace Sys2Proof.Machine

/-- The target answers: VIN is at or above VSTBY. -/
def i3cAlive (s : State) : Bool := s.pwr.lowAt.isNone

/-- The 48-bit provisioned ID (18 R351). -/
def i3cPid : Nat := Config.mipiId.toNat * 2 ^ 33 + 2 ^ 32 + Config.serial.toNat % 2 ^ 32

/-- Bytes of a number, most significant first. -/
def beBytes (n v : Nat) : List Nat := (List.range n).map fun k => bits v (8 * (n - 1 - k)) 8

/-- A common command that the target answers with bytes, when it has its address. -/
def i3cGet (bytes : List Nat) (s : State) : State :=
  if s.i3c.addr.isSome then s |> State.say (.i3cAck true) |> State.say (.i3c bytes) else s.say (.i3cAck false)

/-- A common command that changes the target. -/
def i3cSet (ok : Bool) (f : I3c → I3c) (s : State) : State :=
  if ok then { s with i3c := f s.i3c }.say (.i3cAck true) else s.say (.i3cAck false)

/-- The bus characteristics: a target that raises in-band interrupts with a data byte and has no HDR mode; the other bits are the
standard's (18 R351; log 16). -/
def i3cBcr : Nat :=
  let r := Config.i3cResponse 0x8E 1
  r % 2 + 6 + r / 8 % 4 * 8

/-- I3C_CCC: codes as the bus standard numbers them (log 41); `arg` is the address that is assigned, or the event byte. The
contents of BCR, DCR, the status and the data speeds are the standard's. -/
def i3cCcc (code arg : Nat) (s : State) : State :=
  let has := s.i3c.addr.isSome
  let std (n : Nat) : List Nat := beBytes n (Config.i3cResponse code n)
  if !i3cAlive s then s
  else match code with
    | 0x07 => i3cSet (!has) (fun i => { i with addr := some arg }) s
    | 0x06 => i3cSet has (fun i => { i with addr := none }) s
    | 0x88 => i3cSet has (fun i => { i with addr := some arg }) s
    | 0x00 => i3cSet has (fun i => { i with ibi := i.ibi || bit arg 0 }) s
    | 0x80 => i3cSet has (fun i => { i with ibi := i.ibi || bit arg 0 }) s
    | 0x01 => i3cSet has (fun i => { i with ibi := i.ibi && !bit arg 0 }) s
    | 0x81 => i3cSet has (fun i => { i with ibi := i.ibi && !bit arg 0 }) s
    | 0x8D => i3cGet (beBytes 6 i3cPid) s
    | 0x8E => i3cGet [i3cBcr] s
    | 0x8F => i3cGet (std 1) s
    | 0x90 => i3cGet (std 2) s
    | 0x94 => i3cGet (std 2) s
    | _ => s.say (.i3cAck false)

def execI3cCcc (code arg : Nat) (s : State) : Ans := done s (i3cCcc code arg s)

/-- SB_LATCH_CLR: C3h clears the latch and starts at once; anything else sets LATCH_ERR (18 R353). -/
def sbLatchClr (v : Nat) (s : State) : State :=
  if v = 0xC3 ∧ s.pwr.latched ∧ vinOnMv ≤ s.pwr.vin then
    let s := { s with i3c := { s.i3c with latchErr := false }, pwr := { s.pwr with latched := false, fails := 0 } }
    if mayStart s then startPath s.rst.cause s else s
  else { s with i3c := { s.i3c with latchErr := true } }

def execSbLatchClr (v : Nat) (s : State) : Ans := done s (if i3cAlive s then sbLatchClr v s else s)

/-- One byte written to the selected address; the selection moves on. -/
def i3cWriteByte (b : Nat) (s : State) : State :=
  let a := s.i3c.sel
  let s := { s with i3c := { s.i3c with sel := (a + 1) % 256 } }
  if a = 0x0F then sbLatchClr (b % 256) s else s

/-- I3C_PRIVATE_WRITE. -/
def i3cPrivateWrite (reg : Nat) (bytes : List Nat) (s : State) : State :=
  if !i3cAlive s then s
  else if s.i3c.addr.isNone then s.say (.i3cAck false)
  else { s with i3c := { s.i3c with sel := reg % 256 } }.say (.i3cAck true) |> State.each bytes i3cWriteByte

def execI3cPrivateWrite (reg : Nat) (bytes : List Nat) (s : State) : Ans := done s (i3cPrivateWrite reg bytes s)

/-- The signed value of a temperature byte. -/
def tempOf (b : Nat) : Int := ofTwos 8 b

/-- The highest reading of any die, as a byte (18 Table 18.4). -/
def sbTj (s : State) : Nat :=
  match s.i3c.tj.filterMap (·.2) with
  | [] => 0
  | x :: l => l.foldl (fun m v => if tempOf m < tempOf v then v else m) x

/-- A register of two bytes, by the address of its low byte. -/
def sbWide (s : State) (a : Nat) : Option Nat :=
  match a with
  | 0x00 => some 0x5812
  | 0x06 => some (min s.pwr.vin 0xFFFF)
  | 0x08 => some s.pwr.adcI
  | 0x0A => some s.pwr.adcP
  | 0x0C => some s.pwr.vstore
  | _ => none

/-- A register of one byte. -/
def sbByte (s : State) (a : Nat) : Nat :=
  match a with
  | 0x02 => sbSts s
  | 0x03 => s.pwr.point * 16 + s.pwr.cause
  | 0x04 => s.pwr.trips
  | 0x05 => s.mode.code
  | 0x0E => sbTj s
  | _ => 0

/-- One byte read: the low byte of a wide register latches the high one; the measurements are a new ADC sample. -/
def i3cReadByte (s : State) : Nat × State :=
  let a := s.i3c.sel
  let s := { s with i3c := { s.i3c with sel := (a + 1) % 256 } }
  let s := s.when (a == 0x08 || a == 0x0A) adcSample
  match sbWide s a with
  | some v => (v % 256, { s with i3c := { s.i3c with hi := tput 0 s.i3c.hi (a + 1) (v / 256 % 256) } })
  | none => if (sbWide s (a - 1)).isSome && decide (0 < a) then
      (if a = 1 then 0x58 else tget 0 s.i3c.hi a, s) else (sbByte s a, s)

def i3cReadN : Nat → State → List Nat × State
  | 0, s => ([], s)
  | n + 1, s =>
    let (b, s) := i3cReadByte s
    let (l, s) := i3cReadN n s
    (b :: l, s)

/-- I3C_PRIVATE_READ of `n` bytes. -/
def i3cPrivateRead (n : Nat) (s : State) : State :=
  if !i3cAlive s then s
  else if s.i3c.addr.isNone then s.say (.i3cAck false)
  else
    let (l, s) := i3cReadN n s
    s |> State.say (.i3cAck true) |> State.say (.i3c l)

def execI3cPrivateRead (n : Nat) (s : State) : Ans := done s (i3cPrivateRead n s)

end Sys2Proof.Machine
end

