-- ==== Sys2Proof/Machine/Security.lean ====
section
/-!
DEFINITION. Sys2Proof/Machine/Security.lean: keys and the SVN fuse, SPDM, debug tokens, JTAG and the debug master (16 R305,
R308-R318).
-/
namespace Sys2Proof.Machine

/-! ### Fuses (16 R308, R309) -/

/-- The slot signed the running image or the image of a flash copy. -/
def slotUsed (s : State) (slot : Nat) : Bool :=
  (s.sec.running.any fun r => r.slot == slot) || (List.range 2).any fun c =>
    imageCheck s (flashOf s c) != 1 && (imageHdr (flashOf s c)).slot == slot

/-- A write of SEC_KEY_REVOKE. -/
def secKeyRevoke (v : Nat) (s : State) : State :=
  let slot := F.SEC_KEY_REVOKE_SLOT.of v
  let active (i : Nat) : Bool := keySt s i == 1 && !s.sec.revoking.contains i
  if F.SEC_KEY_REVOKE_KEY.of v ≠ 0xA5 ∨ !active slot ∨ slotUsed s slot ∨ !((List.range 4).any fun i => i != slot && active i)
  then reject .sec s
  else { s with sec := { s.sec with revoking := s.sec.revoking ++ [slot] } }

def execSecKeyRevoke (v : Word) (s : State) : Ans := done s (regGate .sec (secKeyRevoke v.toNat) s)

/-- KEY_REVOCATION_DONE. -/
def keyRevocationDone (slot : Nat) (s : State) : State :=
  if s.sec.revoking.contains slot then
    { s with sec := { s.sec with revoking := s.sec.revoking.filter (· != slot) } } |> setKeySt slot 2
      |> post 128 0x0023 [(16, slot)]
  else s

def execKeyRevocationDone (slot : Nat) (s : State) : Ans := done s (keyRevocationDone slot s)

/-- A write of SEC_SVN_CTL. -/
def svnCommit (v : Nat) (s : State) : State :=
  if F.SEC_SVN_CTL_COMMIT.of v = 0 then s
  else
    let run := (s.sec.running.map (·.svn)).getD 0
    let good := (List.range 2).all fun c =>
      imageCheck s (flashOf s c) == 0 && decide (run ≤ (imageHdr (flashOf s c)).svn)
    if F.SEC_SVN_CTL_KEY.of v = 0x5A ∧ good then { s with sec := { s.sec with svnNew := some run } } else reject .sec s

def execSvnCommit (v : Word) (s : State) : Ans := done s (regGate .sec (svnCommit v.toNat) s)

/-- SVN_FUSE_DONE. -/
def svnFuseDone (s : State) : State :=
  match s.sec.svnNew with
  | none => s
  | some v =>
    let m := max v (svnMinNow s)
    { s with sec := { s.sec with svnMin := some m, svnNew := none } } |> post 128 0x0024 [(16, m)]

def execSvnFuseDone (s : State) : Ans := done s (svnFuseDone s)

/-! ### SPDM (16 R311-R313; codes and the order of requests as DSP0274 has them, log 42) -/

/-- The state of an endpoint's connection: 0 before GET_VERSION, 1 version, 2 capabilities, 3 algorithms, 4 resynchronise. -/
def spdmSt (s : State) (ep : Nat) : Nat := tget 0 s.sec.spdm ep
def setSpdm (ep v : Nat) (s : State) : State := { s with sec := { s.sec with spdm := tput 0 s.sec.spdm ep v } }

/-- An ERROR response. -/
def spdmError (ep code : Nat) (s : State) : State := s.say (.spdm ep 0x7F [code])

def SpdmErr.invalid : Nat := 0x01
def SpdmErr.unexpected : Nat := 0x04
def SpdmErr.unsupported : Nat := 0x07
def SpdmErr.resynch : Nat := 0x43

/-- The response of a request in process is complete. -/
def spdmReady (ep : Nat) (s : State) : State :=
  match tget none s.sec.spdmProc ep with
  | some p => { s with sec := { s.sec with spdmProc := tput none s.sec.spdmProc ep none } } |> State.say (.spdm ep p.code p.data)
  | none => s

/-- Responses whose time has come are given (16 R313; log 158). -/
def spdmDue (s : State) : State :=
  s.each ((List.range 2).filter fun ep => (tget none s.sec.spdmProc ep).any fun p => decide (p.since + Config.signTicks ≤ s.tick))
    spdmReady

/-- The signature of a response is begun: the response carries the values of this clock (16 R313). -/
def spdmBegin (ep code : Nat) (data : List Nat) (s : State) : State :=
  { s with sec := { s.sec with spdmProc := tput none s.sec.spdmProc ep (some ⟨s.tick, code, data⟩) } }

/-- A request that needs the connection at stage `need` or later; one that comes has been preceded by the response to the last. -/
def spdmAt (ep need : Nat) (f : State → State) (s : State) : State :=
  let s := spdmReady ep s
  if !mgUp s ep ∨ !s.mode.isUp then s
  else if spdmSt s ep = 4 then spdmError ep SpdmErr.resynch s
  else if spdmSt s ep < need then spdmError ep SpdmErr.unexpected s
  else f s

/-- GET_VERSION restarts the connection. -/
def execGetVersion (ep : Nat) (s : State) : Ans :=
  done s (if !mgUp s ep ∨ !s.mode.isUp then s else s |> spdmReady ep |> setSpdm ep 1 |> State.say (.spdm ep 0x04 [0x12, 0x13]))

/-- GET_CAPABILITIES: CERT_CAP, CHAL_CAP, MEAS_CAP 10b, MEAS_FRESH_CAP; both sizes 65,536. -/
def execGetCapabilities (ep : Nat) (s : State) : Ans :=
  done s (spdmAt ep 1 (fun s => s |> setSpdm ep 2 |> State.say (.spdm ep 0x61 [0x36, 65536, 65536])) s)

/-- NEGOTIATE_ALGORITHMS: BaseAsymAlgo offers nothing, BaseHashAlgo and MeasurementHashAlgo SHA-256, and the extended asymmetric
algorithm is that of registry 03h, the vendor and 0001h (16 R312; the bits of SHA-256 are DSP0274's, log 42). -/
def execNegotiateAlgorithms (ep : Nat) (extSel : Bool) (s : State) : Ans :=
  done s (spdmAt ep 2 (fun s =>
    if extSel then s |> setSpdm ep 3 |> State.say (.spdm ep 0x63 [0, 0x01, 0x02, 0x03, Config.vendorId, 0x0001])
    else spdmError ep SpdmErr.unsupported s) s)

/-- The certificate chain of an SPDM slot: slot 1 is slot 0's, followed by the dump-sealing leaf (16 R310). -/
def certChain (slot : Nat) : List Nat := if slot = 0 then Config.certBase else Config.certBase ++ Config.sealLeaf

/-- Digest of the chain of a slot. -/
def chainDigest (slot : Nat) : Digest := Config.sha256 (certChain slot)

def execGetDigests (ep : Nat) (s : State) : Ans :=
  done s (spdmAt ep 3 (State.say (.spdm ep 0x01 [(chainDigest 0).toNat, (chainDigest 1).toNat])) s)

/-- GET_CERTIFICATE: lengths of the portion and of the rest, and the portion. -/
def getCertificate (ep slot offset length : Nat) (s : State) : State :=
  let c := certChain slot
  if 2 ≤ slot ∨ c.length ≤ offset then spdmError ep SpdmErr.invalid s
  else
    let n := min length (c.length - offset)
    s.say (.spdm ep 0x02 ([n, c.length - offset - n] ++ (c.drop offset).take n))

def execGetCertificate (ep slot offset length : Nat) (s : State) : Ans :=
  done s (spdmAt ep 3 (getCertificate ep slot offset length) s)

/-- A signature with the identity key: over a digest of the transcript, which the standard lays out (a free value here). -/
def spdmSign (s : State) : Nat × State :=
  let (x, s) := s.draw
  (Config.slhSign identityKey (BitVec.ofNat 256 x), s)

/-- CHALLENGE: the answer's own nonce is a free value. -/
def challenge (ep slot nonce : Nat) (s : State) : State :=
  if 2 ≤ slot then spdmError ep SpdmErr.invalid s
  else
    let (own, s) := s.draw
    let (sig, s) := spdmSign s
    spdmBegin ep 0x03 [slot, (chainDigest slot).toNat, nonce, own, sig] s

def execChallenge (ep slot nonce : Nat) (s : State) : Ans := done s (spdmAt ep 3 (challenge ep slot nonce) s)

/-- The measurements of Table 16.2 now, by index. -/
def measurement (s : State) (i : Nat) : List Nat :=
  match i with
  | 1 => [Config.romHash.toNat]
  | 2 => match s.sec.running with
    | some r => [r.version, r.svn, r.slot, r.digest.toNat]
    | none => []
  | 3 => (List.range 4).map (keySt s) ++ [svnMinNow s, Config.dbgDisable.toNat]
  | 4 => [s.dbg.unlocked.toNat, s.dbg.scope, s.dbg.serial]
  | _ => []

/-- GET_MEASUREMENTS: index 0 asks for their number, FFh for all. -/
def getMeasurements (ep index nonce : Nat) (signed : Bool) (s : State) : State :=
  if 4 < index ∧ index ≠ 0xFF then spdmError ep SpdmErr.invalid s
  else
    let body := if index = 0 then [4]
      else if index = 0xFF then (List.range' 1 4).flatMap fun i => i :: measurement s i
      else index :: measurement s index
    if signed then
      let (own, s) := s.draw
      let (sig, s) := spdmSign s
      spdmBegin ep 0x60 (body ++ [nonce, own, sig]) s
    else s.say (.spdm ep 0x60 body)

def execGetMeasurements (ep index nonce : Nat) (signed : Bool) (s : State) : Ans :=
  done s (spdmAt ep 3 (getMeasurements ep index nonce signed) s)

/-- Every other request. -/
def execSpdmUnsupportedRequest (ep code : Nat) (s : State) : Ans :=
  let _ := code
  done s (spdmAt ep 0 (spdmError ep SpdmErr.unsupported) s)

/-! ### Debug tokens (16 R314-R316) -/

/-- The 64 bytes of a token's body (16 Table 16.3); `rest` holds its reserved bytes. -/
def tokenBody (t : Token) : List Nat :=
  leBytes 4 t.magic ++ leBytes 2 t.version ++ t.rest.take 2 ++ leBytes 8 t.serial ++ leBytes 16 t.nonce
    ++ leBytes 4 t.scope ++ leBytes 4 t.lifetime ++ t.rest.drop 2

/-- The checks of R314. -/
def tokenOk (s : State) (t : Token) : Bool :=
  t.magic == 0x44424731 && t.version == 1
    && decide (Config.sha256 (leBytes 32 t.pubkey.toNat) = Config.authHash)
    && Config.slhVerify t.pubkey (Config.sha256 (tokenBody t)) t.sig
    && t.serial == Config.serial.toNat && t.nonce == nonceNow s && decide (t.scope < 8)

/-- A token is submitted: verified in its turn, a command's before one of the same clock that came over JTAG. -/
def tokenSubmit (path : Nat) (c : Option Ctx) (t : Token) (s : State) : State :=
  let later (j : TokJob) : Bool := path == 0 && j.path == 1 && j.since == s.tick
  { s with dbg := { s.dbg with jobs := s.dbg.jobs.filter (fun j => !later j) ++ [⟨path, c, t, s.tick⟩] ++ s.dbg.jobs.filter later } }

/-- DBG_TOKEN. -/
def dbgToken (c : Ctx) (len : Nat) (good : Bool) (t : Token) (s : State) : State :=
  if len ≠ 7952 then finish c 0x54 St.badArg s
  else if Config.dbgDisable then finish c 0x54 St.refused s
  else if !good || !mgUp s c.ep then finish c 0x54 St.dmaErr s
  else tokenSubmit 0 (some c) t s

def execDbgToken (c : Ctx) (len : Nat) (good : Bool) (t : Token) (s : State) : Ans := done s (byCore (dbgToken c len good t) s)

/-- JTAG answers: the module is past PRECHARGE (15 Table 15.11). -/
def jtagAlive (s : State) : Bool := s.mode != .off && s.mode != .precharge

/-- JTAG_TOKEN. -/
def execJtagToken (t : Token) (s : State) : Ans :=
  done s (if Config.dbgDisable || !jtagAlive s then s else tokenSubmit 1 none t s)

/-- TOKEN_VERIFIED: the oldest token is judged. -/
def tokenVerified (s : State) : State :=
  match s.dbg.jobs with
  | [] => s
  | j :: rest =>
    let t := j.tok
    let ok := tokenOk s t
    let s := { s with dbg := { s.dbg with jobs := rest } }
    let s := if ok then { s with
          dbg := { s.dbg with
            unlocked := true, scope := t.scope, serial := t.serial, nonce := some (Config.freeNonce s.free)
            expires := if t.lifetime = 0 then none else some (s.tick + t.lifetime * msTicks) }
          free := s.free + 1 }
        |> post 128 0x0021 [(16, j.path), (20, t.scope), (24, t.lifetime)]
      else s
    completeO j.ctx 0x54 (if ok then St.ok else St.authFail) 0 s

def execTokenVerified (s : State) : Ans := done s (tokenVerified s)

/-- DBG_LIFETIME_EXPIRE: timed by the M-die's own timer. -/
def execDbgLifetimeExpire (s : State) : Ans :=
  done s (match s.dbg.expires with
    | some t => atPwr t (relockNow 0) s
    | none => s)

/-- RELOCK. -/
def execRelock (s : State) : Ans := done s (regGate .dbg (relockNow 1) s)

/-! ### JTAG (16 R305) -/

/-- JTAG_BOOT_STATUS. -/
def execJtagBootStatus (s : State) : Ans :=
  done s (if jtagAlive s then s.say (.jtag (viewWord s .sec F.SEC_BOOT_STS_BOOTED.off)) else s)

/-- JTAG_FLASH_PROGRAM: the image's bytes are written from the start of the copy. -/
def execJtagFlashProgram (copy : Nat) (bytes : List Nat) (s : State) : Ans :=
  done s (if jtagAlive s && decide (copy < 2) then setFlash copy (putBytes 0 bytes (flashOf s copy)) s else s)

/-! ### The debug master (16 R317, R318) -/

/-- An access on a LOCKED segment: counted, and posted once in a refill slot. -/
def dbgDeny (part idx off : Nat) (write : Bool) (s : State) : State :=
  let s := s |> dbgFail DbgSt.denied write |> wr .dbg F.DBG_STS_DBG_DENY 1 |> bump .dbg F.DBG_DENY_CNT_DENIED
  if s.dbg.denySlot then s
  else { s with dbg := { s.dbg with denySlot := true } }
    |> post 128 0x0020 [(16, part), (17, write.toNat), (20, idx), (24, off)]

/-- A write of DBG_MEM_CTL; a GO while BUSY is ignored. The lookup is in the replica of the tile of the partition's host link; `rep`:
the words of it that fail their parity (06 R115; log 43). -/
def dbgMemGo (rep : List (Nat × Nat)) (v m : Nat) (s : State) : State :=
  let s := putReg .dbg F.DBG_MEM_CTL_GO.off v m s
  if F.DBG_MEM_CTL_GO.of (v &&& m) = 0 ∨ s.dbg.busy then s
  else
    let write := rdb s .dbg F.DBG_MEM_CTL_WRITE
    let eight := rdb s .dbg F.DBG_MEM_CTL_SIZE8
    let part := rd s .dbg F.DBG_MEM_CTL_PART
    let raw := rd s .dbg F.DBG_MEM_ADDR_HI_ADDR * 2 ^ 32 + rd s .dbg F.DBG_MEM_ADDR_LO_ADDR * 4
    let off := if eight then raw / 8 * 8 else raw
    if !s.dbg.unlocked ∨ !bit s.dbg.scope 0 then wr .dbg F.DBG_MEM_CTL_STATUS DbgSt.locked s
    else match lookupOff s part off with
      | none => dbgFail DbgSt.nobind write s
      | some (idx, b) =>
        let (ok, s) := readReplica (hostTile s part) idx (some part) rep s
        if !ok then dbgFail DbgSt.nobind write s
        else if b.locked then dbgDeny part idx off write s
        else if !b.right 0 (if write then 1 else 0) then dbgFail DbgSt.rights write s
        else dbgGo part idx b write eight off s

def execDbgMemGo (g : DbgGo) (s : State) : Ans := done s (regGate .dbg (dbgMemGo g.rep g.v.toNat allBits) s)

/-- DBG_MEM_DONE: the access ends with what its home, the WAB or its target has answered. An access whose request is at its target, and of
which no response has been received as a flit, ends with what the command brings, the line or TGT_DOWN (log 43). One that waits on a WAB
entry or at its home goes on waiting. -/
def dbgMemDone (data : LineData) (down : Bool) (s : State) : State :=
  let st (down : Bool) : Nat := if down then DbgSt.tgtDown else DbgSt.ok
  match s.dbg.answer with
  | some a => dbgEnd (st a.down) a.line s
  | none =>
    if s.dbg.waiting.isNone && s.maps.fwds.any (fun f => decide (f.agent = .dma)) then dbgEnd (st down) data s else s

def execDbgMemDone (data : LineData) (down : Bool) (s : State) : Ans := done s (dbgMemDone data down s)

end Sys2Proof.Machine
end

