-- ==== Sys2Proof/Machine/Registers.lean ====
section
/-!
DEFINITION. Sys2Proof/Machine/Registers.lean: reads and writes of BAR0: the pages, their headers and run states, the windows
(17 R319-R340; 11 R221).
-/
namespace Sys2Proof.Machine

/-- Bytes of BAR0. -/
def bar0Size : Nat := 0x4000000

/-! ### The windows (17 R337-R339) -/

/-- The window that holds an address, as (base, size). -/
def windowAt (addr : Nat) : Option (Nat × Nat) :=
  [(0x3000000, 0x800000), (0x3800000, 0x20000), (0x3820000, 0x10000)].find? fun w =>
    decide (w.1 ≤ addr) && decide (addr < w.1 + w.2)

/-- The copy of a binding entry that a source has latched. -/
def latched (s : State) (src : Nat) : Option (Nat × Binding) :=
  (s.maps.window.find? fun w => w.1 == src).map fun w => (w.2.1, w.2.2)

/-- Latch an entry for a source. -/
def latchEntry (src idx : Nat) (s : State) : State :=
  { s with maps := { s.maps with window := (s.maps.window.filter fun w => w.1 != src) ++ [(src, idx, bindOf s idx)] } }

/-- A word of the binding-table window: of the latched copy, but for an entry's first word. -/
def bindWord (s : State) (src addr : Nat) : Nat :=
  let idx := (addr - 0x3000000) / 32
  let b := match latched s src with
    | some (i, b) => if i = idx ∧ addr % 32 ≠ 0 then b else bindOf s idx
    | none => bindOf s idx
  bits (b.toWords.getD (addr % 32 / 8) 0) (32 * (addr % 8 / 4)) 32

/-- A read that begins at an entry's first byte latches the entry. -/
def windowTouch (src addr : Nat) (s : State) : State :=
  s.when (decide (0x3000000 ≤ addr) && decide (addr < 0x3800000) && addr % 32 == 0)
    (latchEntry src ((addr - 0x3000000) / 32))

/-- A word of any window. -/
def windowWord (s : State) (src addr : Nat) : Nat :=
  if !s.mode.isUp then 0
  else if addr < 0x3800000 then bindWord s src addr
  else if addr < 0x3820000 then snapWord s ((addr - 0x3800000) / 4)
  else stagingWord s ((addr - 0x3820000) / 4)

/-! ### Reads (17 R319-R323; 15, after Table 15.10) -/

/-- A read of the register at an offset of a page, with its effects: the value, and the state after. -/
def readPage (pg : Page) (off : Nat) (s : State) : Nat × State :=
  if 0x840 ≤ off ∧ off < 0x880 ∧ off % 8 = 0 ∧ pg.bank then ctrRead pg ((off - 0x840) / 8) false s
  else match pg with
    | .ftm => if off = F.FTM_TIME_LO_TIME_LO.off then ftmTimeLo s else (viewWord s pg off, s)
    | .pwr =>
      if off = F.PWR_ENERGY_LO_E_LO.off then pwrEnergyLo s
      else if off = F.PWR_ADC_IV_V.off ∨ off = F.PWR_ADC_P_P.off then
        let s := adcSample s
        (viewWord s pg off, s)
      else (viewWord s pg off, s)
    | .evq q =>
      if 0x400 ≤ off ∧ off < 0x800 then (evWord s q off, evqWindow q s) else (viewWord s pg off, s)
    | _ => (viewWord s pg off, s)

/-- A 4-byte read at an aligned address of BAR0. -/
def readWord (src addr : Nat) (s : State) : Nat × State :=
  match windowAt addr with
  | some _ =>
    let t := s.when s.mode.isUp (windowTouch src addr)
    (windowWord t src addr, t)
  | none =>
    match pageAt (addr / 0x1000) with
    | none => (0, s)
    | some pg => if !s.mode.isUp && !earlyPage pg then (0, s) else readPage pg (addr % 0x1000) s

/-- An access is one of Table 17.1: any multiple of 4 bytes within a window, else 4 or 8 aligned bytes. -/
def accessFits (addr size : Nat) : Bool :=
  match windowAt addr with
  | some (base, n) => decide (addr % 4 = 0) && decide (size % 4 = 0) && decide (0 < size) && decide (addr + size ≤ base + n)
  | none => ((size == 4 && addr % 4 == 0) || (size == 8 && addr % 8 == 0)) && decide (addr + size ≤ bar0Size)

/-- The debug master may reach registers (16 R314, R318). -/
def jtagRegs (s : State) : Bool := s.dbg.unlocked && bit s.dbg.scope 1

/-- The NI that sends a register access: that of the endpoint's queue engine, or of the debug master (01 Table 1.6). -/
def accessNi (src : Nat) : Nat := if src < 2 then 6 + src else 10

/-- The NI_TMO of a register access expires: its page has not answered (17 R321, 01 Table 1.12). -/
def accessLost (src : Nat) (s : State) : State :=
  let ni := accessNi src
  atTick (s.tick + rd s (.ni ni) F.NI_TMO_TMO) (wr (.ni ni) F.NI_STS_TMO 1) s

/-- The words of an access of `size` bytes: their addresses. -/
def wordsAt (addr size : Nat) : List Nat := (List.range (size / 4)).map fun i => addr + 4 * i

/-- A word of a page is read and returned. -/
def readSay (src addr : Nat) (s : State) : State :=
  let (v, s) := readWord src addr s
  s.say (.regData src addr v)

/-- BIND_WINDOW_READ: a read through BAR0 or BAR2 of an endpoint, or by the debug master over JTAG: of a window, of any multiple of 4
bytes within it; of pages and reserved space, of 4 bytes or of two words, the lower first; any other is refused (17 R319, R320, R337-R340,
11 R205). One whose page does not answer reads all ones when its time is out (17 R321). -/
def bindWindowRead (p : RegPort) (addr size : Nat) (s : State) : State :=
  let src := p.src
  if src = 2 ∧ !jtagRegs s then s
  else if src < 2 ∧ bar0Size ≤ addr ∧ addr + size ≤ bar0Size + bar2Size then
    s.each (wordsAt addr size) fun a => State.say (.regData src a (bar2Read s src (a - bar0Size)))
  else if !accessFits addr size then s.say (.urRead src addr)
  else if p.lost then (accessLost src s).each (wordsAt addr size) fun a => State.say (.regData src a 0xFFFFFFFF)
  else match windowAt addr with
    | some _ =>
      let t := s.when s.mode.isUp (windowTouch src addr)
      t.each (wordsAt addr size) fun a => State.say (.regData src a (windowWord t src a))
    | none => s.each (wordsAt addr size) (readSay src)

/-! ### Run states (17 R324, R341) -/

/-- A write of RUN in a page whose run state is its own. -/
def genericRun (pg : Page) (run : Nat) (s : State) : State :=
  let cur := rd s pg F.BLK_CTL_RUN
  if run = 3 then reject pg s
  else if run = 0 then (if cur = 1 then reject pg s else wr pg F.BLK_CTL_RUN 0 s)
  else if cur = 0 then wr pg F.BLK_CTL_RUN 1 s
  else s

/-- A write of BLK_CTL of the PHY page of a link. -/
def phyRunWrite (p run : Nat) (s : State) : State :=
  if (memberOf s p).isSome then reject (.phy p) s
  else
    let (ok, s) := setLinkRun p run s
    s.when (!ok) (reject (.phy p))

/-- A write of BLK_CTL of any page. -/
def blkCtl (src : Nat) (pg : Page) (v m : Nat) (s : State) : State :=
  if F.BLK_CTL_RUN.of m = 0 then s
  else
    let run := F.BLK_CTL_RUN.merge (pageRun s pg) v m
    match pg with
    | .mq ep q => queueRunWrite src ep q v m s
    | .part p => partRunWrite p v m s
    | .phy p => phyRunWrite p run s
    | _ => if pg.follow then reject pg s else if pg.runctl then genericRun pg run s else s

/-- A cell of a trunk: it came or will leave over one. -/
def trunkCell (s : State) (c : Cell) : Bool := roleOf s c.out == 3 || (!c.srck && roleOf s c.src == 3)

/-- A cell is in a transfer. -/
def Cell.inMove (c : Cell) : Bool := match c.stage with | .moving _ | .copy _ => true | _ => false

/-- The stop condition of a page (17 Table 17.12). -/
def stopCond (s : State) : Page → Bool
  | .ftm | .glr => clockRuns s
  | .ni d => !s.trail.reqs.any fun r => r.ni == d
  | .trnk => !s.core.cells.any fun c => c.inMove && trunkCell s c
  | .cnp t => !frozen s && !s.core.cells.any fun c => c.tile == t && c.inMove
  | _ => false

/-- BLOCK_QUIESCED: FTM and GLR stay QUIESCING for one tick. -/
def blockQuiesced (pg : Page) (s : State) : State :=
  match pg with
  | .phy p => unfrozen (linkQuiesced p) s
  | .part p => unfrozen (partQuiesced p) s
  | .ftm | .glr => if rd s pg F.BLK_CTL_RUN = 1 ∧ stopCond s pg then s |> passTicks 1 |> wr pg F.BLK_CTL_RUN 2 else s
  | _ => if rd s pg F.BLK_CTL_RUN = 1 ∧ stopCond s pg then wr pg F.BLK_CTL_RUN 2 s else s

/-! ### Writes to registers with an effect of their own -/

/-- A register with a guarantee of Table 5.3: a write that would raise the tile's sum above 49,152 is discarded (05 R88). -/
def guarPut (pg : Page) (tile : Nat) (f : Fld) (v m : Nat) (s : State) : State :=
  let t := putReg pg f.off v m s
  if 49152 < guarSum t tile ∧ guarSum s tile < guarSum t tile then
    s |> putSome pg ((pg.regFields f.off).filter (· != f)) v m |> reject pg
  else t

/-- The sum of the caps of all event queues (11 R223). -/
def capSum (s : State) : Nat := ((List.range 129).map fun q => rd s (.evq q) F.MQ_EVQ_CFG_CAP).sum

/-- A write of MQ_EVQ_CFG. -/
def evqCfgWrite (q v m : Nat) (s : State) : State :=
  let pg := Page.evq q
  let s := putSome pg [F.MQ_EVQ_CFG_INT_FIRST, F.MQ_EVQ_CFG_FAILOVER, F.MQ_EVQ_CFG_EP] v m s
  if F.MQ_EVQ_CFG_CAP.of m = 0 then s
  else
    let cur := rd s pg F.MQ_EVQ_CFG_CAP
    let x := F.MQ_EVQ_CFG_CAP.clamp (F.MQ_EVQ_CFG_CAP.merge cur v m)
    if F.MQ_EVQ_CFG_CAP.bad x ∨ (cur < x ∧ 32768 < capSum s - cur + x) then reject pg s
    else s |> wr pg F.MQ_EVQ_CFG_CAP x |> setOver q none |> evTrim q x

/-- A write of PMD_CFG: CAP does not fall below the end of a local or remote entry of the partition. -/
def pmdCfgWrite (part v m : Nat) (s : State) : State :=
  let pg := Page.pmd part
  let x := F.PMD_CFG_CAP.clamp (F.PMD_CFG_CAP.merge (rd s pg F.PMD_CFG_CAP) v m)
  if F.PMD_CFG_CAP.of m ≠ 0 ∧ s.maps.binds.any (fun e =>
      e.2.valid && e.2.hasOff && e.2.part == part && decide (x * 2 ^ 21 < e.2.base + e.2.bytes)) then reject pg s
  else putReg pg F.PMD_CFG_CAP.off v m s

/-- A write of HOME_NMA_LO or HOME_NMA_HI of the link that HOME_NMA_IDX names (08 R170). -/
def nmaWrite (off v m : Nat) (s : State) : State :=
  let lead := rd s .homeM F.HOME_NMA_IDX_LEAD
  let (en, base) := tget (false, 0) s.home.nma lead
  let lo := base % 2 ^ 32
  let hi := base / 2 ^ 32
  let set (x : Bool × Nat) (s : State) : State := { s with home := { s.home with nma := tput (false, 0) s.home.nma lead x } }
  if !ownerStopped s .homeM F.HOME_NMA_LO_EN then reject .homeM s
  else if off = F.HOME_NMA_HI_BASE_HI.off then set (en, lo + F.HOME_NMA_HI_BASE_HI.merge hi v m * 2 ^ 32) s
  else
    let en' := F.HOME_NMA_LO_EN.merge en.toNat v m == 1
    let bad := en' && F.HOME_NMA_LO_EN.of m != 0 && roleOf s lead != 2
    let s := set (if bad then en else en', F.HOME_NMA_LO_BASE_LO.merge (lo / 2 ^ 21) v m * 2 ^ 21 + hi * 2 ^ 32) s
    s.when bad (reject .homeM)

/-- A write of TRNK_RT_DATA: the entry that TRNK_RT_IDX names. -/
def trnkRtWrite (v m : Nat) (s : State) : State :=
  let i := rd s .trnk F.TRNK_RT_IDX_IDX
  let (ok, lead) := tget (false, 0) s.ports.trnkRt i
  if F.TRNK_RT_DATA_VALID.of m = 0 ∧ F.TRNK_RT_DATA_LEAD.of m = 0 then s
  else if pageRun s .trnk ≠ 2 then reject .trnk s
  else
    let e := (F.TRNK_RT_DATA_VALID.merge ok.toNat v m == 1, F.TRNK_RT_DATA_LEAD.merge lead v m)
    { s with ports := { s.ports with trnkRt := tput (false, 0) s.ports.trnkRt i e } }

/-- A write of PWR_TOK_CFG: a BUDGET below COST is stored as COST. -/
def tokCfgWrite (v m : Nat) (s : State) : State :=
  let cost := F.PWR_TOK_CFG_COST.clamp (F.PWR_TOK_CFG_COST.merge (rd s .pwr F.PWR_TOK_CFG_COST) v m)
  let budget := max cost (F.PWR_TOK_CFG_BUDGET.merge (rd s .pwr F.PWR_TOK_CFG_BUDGET) v m)
  if F.PWR_TOK_CFG_COST.of m = 0 ∧ F.PWR_TOK_CFG_BUDGET.of m = 0 then s
  else s |> stage .pwr F.PWR_TOK_CFG_COST cost |> stage .pwr F.PWR_TOK_CFG_BUDGET budget

/-- A write of MOD_RESET (15 R301, R302). -/
def modResetWrite (v m : Nat) (s : State) : State :=
  let w := v &&& m
  let key := F.MOD_RESET_KEY.of w
  if F.MOD_RESET_COLD.of w = 1 ∧ key = 0xC0 then coldNow s
  else if F.MOD_RESET_COLD.of w = 1 then reject .mod s
  else s.when (F.MOD_RESET_WARM.of w == 1) (warmRequest 2)

/-- A write of NI_RT_LO is staged; one of NI_RT_HI commits (01 Tables 1.10, 1.11). -/
def niRtLoWrite (d v m : Nat) (s : State) : State :=
  setTrail { s.trail with
    stage := tput 0 s.trail.stage d (F.NI_RT_LO_ROUTE_LO.merge (tget 0 s.trail.stage d) v m) } s

/-- The value a register takes when only the bits of a mask are written. -/
def mergeWord (s : State) (pg : Page) (off v m : Nat) : Nat := (viewWord s pg off &&& (allBits - m)) ||| (v &&& m)

/-- A write to the control word of a counter bank. -/
def bankCtlWrite (pg : Page) (v m : Nat) (s : State) : State :=
  s.when (F.CTR_BANK_CTL_CLR.of (v &&& m) == 1) (bankClear pg)

/-- A write to a register of a port page; members have none but the lane registers (03 R47). -/
def portWrite (pg : Page) (p off v m : Nat) (s : State) : State :=
  let hidden := (memberOf s p).isSome && (pg.regFields off).any (memberHides pg)
  if hidden then s
  else if off = F.CTR_BANK_CTL_CLR.off ∧ pg.bank then bankCtlWrite pg v m s
  else match pg with
    | .lnk _ => if off = F.LNK_INJ_CTL_ARM.off then injWrite p v m s else putReg pg off v m s
    | .phy _ =>
      if off = F.PHY_LINK_CFG_ROLE.off then (linkCfgWrite p v m s).2
      else if off = F.PHY_LINK_CTL_OFF.off then linkCtl p v m s
      else if off = F.PHY_MARGIN_CTL_START.off then marginWrite p v m none s
      else putReg pg off v m s
    | .ing _ =>
      if off = F.ING_CELL_CFG_GUAR.off then guarPut pg (tileOf p) F.ING_CELL_CFG_GUAR v m s else putReg pg off v m s
    | .egr _ =>
      if off = F.EGR_CELL_CFG_GUAR.off then guarPut pg (tileOf p) F.EGR_CELL_CFG_GUAR v m s
      else if 0x800 ≤ off then s else putReg pg off v m s
    | _ => putReg pg off v m s

/-- A write to a register of a tile page. -/
def tileWrite (pg : Page) (t off v m : Nat) (s : State) : State :=
  if off = F.CTR_BANK_CTL_CLR.off ∧ pg.bank then bankCtlWrite pg v m s
  else match pg with
    | .cell _ =>
      if off = F.CELL_POOL_CFG_TC3_RSV.off then guarPut pg t F.CELL_POOL_CFG_TC3_RSV v m s
      else if off = F.CELL_FREE_MIN_CLR.off then
        s.when (F.CELL_FREE_MIN_CLR.of (v &&& m) == 1) (wr pg F.CELL_FREE_MIN_MIN (freeCells s t))
      else putReg pg off v m s
    | .cnp _ => if off = F.CNP_BND_CFG_GUAR.off then guarPut pg t F.CNP_BND_CFG_GUAR v m s else putReg pg off v m s
    | .sched _ =>
      if off = F.SCHED_QUANTUM_QUANTUM.off then quantumWrite t v m s
      else if off = F.SCHED_SHP_RATE_RATE.off then shpRateWrite t v m s
      else if off = F.SCHED_SHP_CFG_EN.off then shpCfgWrite t v m s
      else if F.SCHED_QUANTUM_QUANTUM.off < off ∧ off < 0x400 ∧ (schedLead s t).isNone then reject pg s
      else putReg pg off v m s
    | _ => putReg pg off v m s

/-- A write to a register of the FLT page. -/
def fltWrite (off v m : Nat) (s : State) : State :=
  if off = F.FLT_SRC_REACT.off then fltSrcWrite v m s
  else if off = F.FLT_STK_DATA_STICKY.off then stkDataWrite v m s
  else if off = F.FLT_WDOG_CORE_TMO.off then wdogTmoWrite F.FLT_WDOG_CORE_TMO v m s
  else if off = F.FLT_WDOG_MOD_TMO.off then wdogTmoWrite F.FLT_WDOG_MOD_TMO v m s
  else if off = F.FLT_WDOG_FEED_CORE.off then
    s.when (F.FLT_WDOG_FEED_CORE.of m == 1) (wdogFeed (F.FLT_WDOG_FEED_CORE.of v))
  else if off = F.FLT_DSEG_CFG_EN.off then dsegWrite v m s
  else putReg .flt off v m s

/-- A write to a register of the GLR page. -/
def glrWrite (off v m : Nat) (s : State) : State :=
  if off = F.GLR_CTL_BYP_REQ.off then glrCtlWrite v m s
  else if off = F.GLR_RST_REQ_GO.off then rstReqWrite v m s
  else if off = F.GLR_RST_T_LO_T.off then rstInstWrite false v m s
  else if off = F.GLR_RST_T_HI_T.off then rstInstWrite true v m s
  else putReg .glr off v m s

/-- A write to a register of the PWR page. -/
def pwrWrite (off v m : Nat) (s : State) : State :=
  if off = F.PWR_CURVE_CTL_COMMIT.off then
    (putReg .pwr off v m s).when (F.PWR_CURVE_CTL_COMMIT.of (v &&& m) == 1) curveCommit
  else if off = F.PWR_BRK_CTL_SELFTEST.off then s.when (F.PWR_BRK_CTL_SELFTEST.of (v &&& m) == 1) selftest
  else if off = F.PWR_TOK_CFG_COST.off then tokCfgWrite v m s
  else putReg .pwr off v m s

/-- A write to a register of the HOME module page. -/
def homeWrite (off v m : Nat) (s : State) : State :=
  if off = F.HOME_SG_MEM0_MEM.off then sgStageWrite 0 v m s
  else if off = F.HOME_SG_MEM1_MEM.off then sgStageWrite 1 v m s
  else if off = F.HOME_SG_MEM2_MEM.off then sgStageWrite 2 v m s
  else if off = F.HOME_SG_MEM3_MEM.off then sgMem3Write v m s
  else if off = F.HOME_NMA_LO_EN.off ∨ off = F.HOME_NMA_HI_BASE_HI.off then nmaWrite off v m s
  else putReg .homeM off v m s

/-- A write to a register of another module page. -/
def moduleWrite (pg : Page) (off v m : Nat) (s : State) : State :=
  match pg with
  | .mod => if off = F.MOD_RESET_COLD.off then modResetWrite v m s else putReg pg off v m s
  | .pwr => pwrWrite off v m s
  | .ftm =>
    if off = F.FTM_CFG_SRC.off then ftmCfgWrite v m s
    else if off = F.FTM_SCHED_CANCEL_IDX.off then
      (if F.FTM_SCHED_CANCEL_IDX.of m = 0 then s else (schedCancelAt (F.FTM_SCHED_CANCEL_IDX.of (v &&& m)) s).2)
    else putReg pg off v m s
  | .flt => fltWrite off v m s
  | .glr => glrWrite off v m s
  | .sec =>
    if off = F.SEC_KEY_REVOKE_SLOT.off then s.when (m % 2 ^ 16 != 0) (secKeyRevoke (v &&& m))
    else if off = F.SEC_SVN_CTL_COMMIT.off then s.when (F.SEC_SVN_CTL_COMMIT.of (v &&& m) == 1) (svnCommit (v &&& m))
    else putReg pg off v m s
  | .dbg =>
    if off = F.DBG_CTL_RELOCK.off then s.when (F.DBG_CTL_RELOCK.of (v &&& m) == 1) (relockNow 1)
    else if off = F.DBG_MEM_CTL_GO.off then dbgMemGo [] v m s
    else putReg pg off v m s
  | .tel => if off = F.TEL_SKY_HEAD_IDX.off then skyHeadWrite v m s else putReg pg off v m s
  | .trnk => if off = F.TRNK_RT_DATA_LEAD.off then trnkRtWrite v m s else putReg pg off v m s
  | .wabM =>
    if off = F.WAB_PLR_STS_VALID.off then s.when (F.WAB_PLR_STS_VALID.of (v &&& m) == 1) plrClear else putReg pg off v m s
  | .homeM => homeWrite off v m s
  | _ => putReg pg off v m s

/-- A write to the common header of a page (17 Table 17.3). -/
def headerWrite (src : Nat) (pg : Page) (off v m : Nat) (s : State) : State :=
  if off = F.BLK_CTL_RUN.off then blkCtl src pg v m s
  else if off = F.ERR_STICKY_STICKY.off then stickyWrite pg v m s
  else if off = F.ERR_MASK_MASK.off then maskWrite pg v m s
  else if off = F.ERR_INJECT_INJECT.off then
    (if m = 0 then s else if s.mode ≠ .maintenance then reject pg s else injectWrite pg v m s)
  else putReg pg off v m s

/-- A write touches a field of the register: one that touches reserved bits only has no effect (00 R9). -/
def touches (pg : Page) (off m : Nat) : Bool := (pg.regFields off).any fun f => f.of m != 0

/-- A write that has reached its page. -/
def writePage (src : Nat) (pg : Page) (off v m : Nat) (s : State) : State :=
  if !touches pg off m then s
  else if (match pg with | .mq ep _ => !ownsQueue src ep | _ => false) then reject pg s
  else if off < 0x20 then headerWrite src pg off v m s
  else match pg with
    | .lnk p | .phy p | .ing p | .egr p => portWrite pg p off v m s
    | .cnp t | .cell t | .bindT t | .wabT t | .homeT t | .halo t | .sched t => tileWrite pg t off v m s
    | .part p => if off = F.PART_CTL_RESET.off then partCtlWrite p v m s else putReg pg off v m s
    | .pmd p => if off = F.PMD_CFG_CAP.off then pmdCfgWrite p v m s else putReg pg off v m s
    | .evq q => if off = F.MQ_EVQ_CFG_CAP.off then evqCfgWrite q v m s else putReg pg off v m s
    | .ni d =>
      if off = F.NI_RT_LO_ROUTE_LO.off then niRtLoWrite d v m s
      else if off = F.NI_RT_HI_VALID.off then s.when (m != 0) (niRtHiWrite d (mergeWord s pg off v m))
      else putReg pg off v m s
    | .mq _ _ => putReg pg off v m s
    | _ => moduleWrite pg off v m s

/-- A 4-byte write at an aligned address of BAR0, through a mask: windows and reserved space ignore it. -/
def writeWord (src addr v m : Nat) (s : State) : State :=
  match pageAt (addr / 0x1000) with
  | none => s
  | some pg => regGate pg (writePage src pg (addr % 0x1000) v m) s

/-- A write through BAR0: refused and logged, or made in 4-byte parts, the lower first (17 R319). Addresses after those of BAR0 stand
for the offsets of the endpoint's BAR2 (11 R205; log 139). One whose page does not answer is lost (17 R321). -/
def registerWrite (p : RegPort) (addr size v : Nat) (s : State) : State :=
  let src := p.src
  if src = 2 ∧ !jtagRegs s then s
  else if src < 2 ∧ bar0Size ≤ addr ∧ addr + size ≤ bar0Size + bar2Size then bar2Write src (addr - bar0Size) size v s
  else if !accessFits addr size then s.say (.urLog src addr)
  else if p.lost then accessLost src s
  else
    let s := writeWord src addr (v % 2 ^ 32) allBits s
    if size = 8 then writeWord src (addr + 4) (v / 2 ^ 32 % 2 ^ 32) allBits s else s

end Sys2Proof.Machine
end

