-- ==== Sys2Proof/Machine/Manage.lean ====
section
/-!
DEFINITION. Sys2Proof/Machine/Manage.lean: dispatch of queue commands, and the commands of the queue engine itself (11 R208-R222;
12 R238; 15 R300; 16 R310).
-/
namespace Sys2Proof.Machine

/-! ### The weighted round robin (11 R210) -/

/-- A queue has a command without its final completion (11 R208, R214). -/
def unfinished (s : State) (ep q : Nat) : Bool := s.mq.flying.any fun f => f.ctx.ep == ep && f.ctx.q == q && !f.orphan

/-- A queue is eligible for dispatch. -/
def eligible (s : State) (ep q : Nat) : Bool :=
  let pg := Page.mq ep q
  qRun s ep q && rd s pg F.MQ_Q_SQ_HEAD != rd s pg F.MQ_Q_SQ_TAIL && decide (inflight s ep q < 16)
    && !rdb s pg F.MQ_Q_STS_CQ_PAUSED && !rdb s pg F.MQ_Q_STS_DMA_ERR
    && !(s.mq.ordWait.contains (ep, q) && unfinished s ep q)

/-- Credit that a queue has left, and its burst, in a round. -/
def creditOf (c : List (Nat × Nat × Nat)) (q : Nat) : Nat × Nat := ((c.find? fun x => x.1 == q).map (·.2)).getD (0, 0)

/-- The queue that dispatches next, and the place of the round after its dispatch; credits and bursts are those of the start of the
round. -/
def rrPick (s : State) (ep : Nat) : Option (Nat × Rr) :=
  let el := (List.range 64).filter (eligible s ep)
  let r := tget Rr.reset s.mq.rr ep
  let has (c : List (Nat × Nat × Nat)) (q : Nat) : Bool := el.contains q && decide (0 < (creditOf c q).1)
  let fresh := !el.any (has r.credit)
  let credit := if fresh then
      el.map fun q => (q, rd s (.mq ep q) F.MQ_Q_ARB_WEIGHT, rd s (.mq ep q) F.MQ_Q_ARB_BURST + 1)
    else r.credit
  let stay := !fresh && decide (0 < r.burst) && has credit r.pos
  let next := if stay then some r.pos
    else ((List.range' 1 64).map fun k => (r.pos + k) % 64).find? (has credit)
  next.map fun q =>
    let left := if stay then r.burst else (creditOf credit q).2
    (q, ⟨credit.map fun x => if x.1 = q then (q, x.2.1 - 1, x.2.2) else x, q, left - 1⟩)

/-! ### Commands of the queue engine (11 Table 11.5) -/

/-- NOP. -/
def nop (c : Ctx) (s : State) : State := finish c 0x00 St.ok s

def execNop (c : Ctx) (s : State) : Ans := done s (byCore (nop c) s)

/-- IDENTIFY. -/
def identify (c : Ctx) (s : State) : State := complete c 0x01 St.ok Config.serial.toNat (runVersion s) s

def execIdentify (c : Ctx) (s : State) : Ans := done s (byCore (identify c) s)

/-- The mode that MODE_SET leads to; none: refused (15 Table 15.8), as in the tick in which FATAL handling opens. -/
def modeTarget (s : State) (mode : Nat) : Option Mode :=
  if s.flt.fatal.any fun f => f.tick == s.tick then none
  else match s.mode, mode with
    | .standby, 0 => if ftmUnset s then none else some .run
    | .run, 0 => some .run
    | .degraded, 0 => if degCond s then none else some .run
    | .maintenance, 0 => some (if degCond s then .degraded else .run)
    | .standby, _ | .run, _ | .degraded, _ | .maintenance, _ => some .maintenance
    | _, _ => none

/-- MODE_SET (15 R300): with the first entry to RUN or MAINTENANCE the links may train. -/
def modeSet (c : Ctx) (mode : Nat) (s : State) : State :=
  if 1 < mode then finish c 0x04 St.badArg s
  else match modeTarget s mode with
    | none => finish c 0x04 St.refused s
    | some m =>
      let first := s.mode == .standby
      let s := s.when (s.mode == .maintenance && m != .maintenance) disarmAll
      let s := setMode m s
      (s.when first fun s => s.each (leads s) tryTrain) |> finish c 0x04 St.ok

def execModeSet (c : Ctx) (mode : Nat) (s : State) : Ans := done s (byCore (modeSet c mode) s)

/-- An offset that REG_READ and REG_WRITE take. -/
def regOffsetOk (off : Nat) : Bool := off % 4 == 0 && decide (off < bar0Size)

/-- REG_READ: as a read through BAR0 of the issuing endpoint; all ones where the page does not answer (17 R321). -/
def regRead (c : Ctx) (x : RegAt) (s : State) : State :=
  let off := x.off
  if !regOffsetOk off then finish c 0x05 St.badArg s
  else if x.lost then s |> accessLost c.ep |> complete c 0x05 St.ok 0xFFFFFFFF 0
  else
    let (v, s) := readWord c.ep off s
    complete c 0x05 St.ok v 0 s

/-- A write through BAR0 of the issuing endpoint, and whether the page discarded any of it: its count of discarded writes is taken
from 0 and put back with what came. A cold reset leaves nothing to put back. -/
def writeJudged (src off v m : Nat) (s : State) : Bool × State :=
  match pageAt (off / 0x1000) with
  | none => (false, s)
  | some pg =>
    let old := rd s pg F.BLK_STS_CFG_REJECT_CNT
    let t := s |> wr pg F.BLK_STS_CFG_REJECT_CNT 0 |> writeWord src off v m
    let n := rd t pg F.BLK_STS_CFG_REJECT_CNT
    if t.mode = .off ∧ s.mode ≠ .off then (false, t)
    else (n != 0, wr pg F.BLK_STS_CFG_REJECT_CNT (min (old + n) 0xFFFF) t)

/-- REG_WRITE at the moment it takes effect. -/
def regWriteDo (c : Ctx) (off v m : Nat) (s : State) : State :=
  let (bad, s) := writeJudged c.ep off v m s
  finish c 0x06 (if bad then St.cfgInvalid else St.ok) s

/-- REG_WRITE (11 R221, R214); one whose page does not answer is lost, and completes with OK as a read does (17 R321; log 159). -/
def regWrite (c : Ctx) (inst : Option Nat) (x : RegAt) (v m : Nat) (s : State) : State :=
  let off := x.off
  if !regOffsetOk off then finish c 0x06 St.badArg s
  else if x.lost && inst.isNone then s |> accessLost c.ep |> finish c 0x06 St.ok
  else match inst with
    | some t => schedCmd c 0x06 t (.regWrite off v m) s
    | none => regWriteDo c off v m s

/-- EVQ_RESET (11 R223). -/
def evqReset (c : Ctx) (queue : Nat) (s : State) : State :=
  if 128 < queue then finish c 0x08 St.badArg s
  else
    let n := (evList s queue).length
    s |> setEv queue [] |> setOver queue none |> setEvTimer queue none |> complete c 0x08 St.ok n 0

def execEvqReset (c : Ctx) (queue : Nat) (s : State) : Ans := done s (byCore (evqReset c queue) s)

/-- Entries that TABLE_READ writes: a count past the table's end is cut. -/
def tableCount (table first count : Nat) : Nat := min count ((if table = 0 then 262144 else 4096) - first)

/-- 32-bit words of an entry of a table. -/
def tableWords (s : State) (table i : Nat) : List Nat :=
  if table = 0 then (bindOf s i).toWords.flatMap words2
  else (List.range 4).map fun k => bits (tget 0 s.home.sgMem i) (32 * k) 32

/-- TABLE_READ. -/
def tableRead (c : Ctx) (table first count buf : Nat) (good : Bool) (s : State) : State :=
  if 1 < table then finish c 0x25 St.badArg s
  else if !good || !mgUp s c.ep then finish c 0x25 St.dmaErr s
  else
    let n := tableCount table first count
    let ws := (List.range' first n).flatMap (tableWords s table)
    s |> State.say (.dma c.ep buf (4 * ws.length) ws) |> complete c 0x25 St.ok n 0

/-! ### Execution of a dispatched command (11 R214, R215, R221) -/

/-- The fields of the 64 bytes of a command, little-endian; reserved bytes and bits are ignored (11 R208, Table 11.2). -/
def sqEntryOf (w : BitVec 512) : SqEntry where
  opcode := (w.extractLsb' 0 8).toNat
  replace := w.getLsbD 10
  atT := w.getLsbD 9
  ord := w.getLsbD 8
  seq := (w.extractLsb' 16 16).toNat
  time := (w.extractLsb' 64 64).toNat
  args := (List.range 48).map fun k => (w.extractLsb' (8 * (16 + k)) 8).toNat

/-- An argument of a command: `n` bytes at byte `off` of the command. -/
def sqArg (e : SqEntry) (off n : Nat) : Nat :=
  ((List.range n).map fun k => e.args.getD (off - 16 + k) 0 % 256 * 256 ^ k).sum

/-- Opcodes of Table 11.5: scoped, and AT: 0 no, 1 yes, 2 required. -/
def opInfo (op : Nat) : Option (Bool × Nat) :=
  if op ∈ [0x00, 0x01, 0x08, 0x10, 0x12, 0x24, 0x31] then some (true, 0)
  else if op ∈ [0x22, 0x23, 0x45, 0x46] then some (true, 1)
  else if op = 0x11 then some (true, 2)
  else if op ∈ [0x06, 0x41, 0x43] then some (false, 1)
  else if op ∈ [0x02, 0x03, 0x04, 0x05, 0x07, 0x13, 0x20, 0x21, 0x25, 0x30, 0x40, 0x42, 0x44, 0x47, 0x50, 0x51, 0x52, 0x53, 0x54,
      0x60, 0x61, 0x62] then some (false, 0)
  else none

/-- A scoped command has an argument outside its range. -/
def scopedBad (e : SqEntry) : Bool :=
  match e.opcode with
  | 0x08 => decide (128 < sqArg e 16 1)
  | 0x10 | 0x11 | 0x12 | 0x24 => decide (128 ≤ sqArg e 16 1)
  | 0x31 => decide (128 ≤ sqArg e 16 1 ∨ sqArg e 17 1 = 0 ∨ 63 < sqArg e 17 1)
  | 0x22 | 0x23 => decide (262144 ≤ sqArg e 16 4)
  | 0x45 => decide (512 ≤ sqArg e 16 2 ∨ 128 ≤ sqArg e 18 1 ∨ 2 ^ 20 ≤ sqArg e 20 4)
  | 0x46 => decide (512 ≤ sqArg e 16 2 ∨ 128 ≤ sqArg e 18 1 ∨ 2 < sqArg e 19 1)
  | _ => false

/-- The partition that a scoped command names; none: module-wide. -/
def scopePart (s : State) (e : SqEntry) : Option Nat :=
  match e.opcode with
  | 0x08 => if sqArg e 16 1 = 128 then none else some (sqArg e 16 1)
  | 0x22 | 0x23 => some (bindOf s (sqArg e 16 4)).part
  | 0x45 | 0x46 => some (sqArg e 18 1)
  | _ => some (sqArg e 16 1)

/-- Scope field `i` of a queue's page. -/
def scopeFld (i : Nat) : Fld :=
  match i with | 0 => F.MQ_Q_SCOPE0_PARTS | 1 => F.MQ_Q_SCOPE1_PARTS | 2 => F.MQ_Q_SCOPE2_PARTS | _ => F.MQ_Q_SCOPE3_PARTS

/-- The scope of a queue allows a command on a partition, or a module-wide one (11 R215). -/
def scopeOk (s : State) (ep q : Nat) (part : Option Nat) : Bool :=
  rdb s (.mq ep q) F.MQ_Q_CFG_SCOPE_MOD || part.any fun p => bit (rd s (.mq ep q) (scopeFld (p / 32))) (p % 32)

/-- What turns a command away before its execution; none: it is executed. -/
def cmdJudge (s : State) (c : Ctx) (e : SqEntry) : Option Nat :=
  match opInfo e.opcode with
  | none => some St.badOpcode
  | some (inScope, atK) =>
    if (e.atT && atK == 0) || (!e.atT && atK == 2) then some St.badArg
    else if !inScope then (if scopeOk s c.ep c.q none then none else some St.scope)
    else if e.opcode < 2 then none
    else if scopedBad e then some St.badArg
    else if (e.opcode == 0x22 || e.opcode == 0x23) && !(bindOf s (sqArg e 16 4)).valid then some St.noEntry
    else if scopeOk s c.ep c.q (scopePart s e) then none
    else some St.scope

/-- The step of a command's opcode. Those that reach a buffer of the manager stay in flight, and their own rows bring the outcome of
that access. -/
def cmdStep (c : Ctx) (e : SqEntry) (s : State) : State :=
  let a (off n : Nat) : Nat := sqArg e off n
  let w (off : Nat) : Word := BitVec.ofNat 32 (a off 4)
  let d (off : Nat) : DWord := BitVec.ofNat 64 (a off 8)
  let inst := if e.atT then some e.time else none
  match e.opcode with
  | 0x00 => nop c s
  | 0x01 => identify c s
  | 0x02 => timeSet c (a 16 8) s
  | 0x03 => schedCancel c (a 16 1) s
  | 0x04 => modeSet c (a 16 1) s
  | 0x05 => regRead c ⟨a 16 4, false⟩ s
  | 0x06 => regWrite c inst ⟨a 16 4, false⟩ (a 20 4) (a 24 4) s
  | 0x08 => evqReset c (a 16 1) s
  | 0x10 => partStopCmd c (a 16 1) s
  | 0x11 => partRestartAt c inst (a 16 1) s
  | 0x12 => partResetCmd c (a 16 1) s
  | 0x13 => sgCommit c (a 16 2) (BitVec.ofNat 128 (a 32 16)) s
  | 0x20 => bindAdd c e.replace (a 16 4) (d 32) (d 40) (d 48) (d 56) s
  | 0x21 => bindDel c (a 16 4) (a 20 4) s
  | 0x22 => bindStop c inst (a 16 4) s
  | 0x23 => bindStart c inst (a 16 4) s
  | 0x24 => wabDiscard c (a 16 1) (a 20 4) s
  | 0x30 => hpAdd c (a 16 1) (a 17 1) (a 18 2) s
  | 0x31 => hpRemove c (a 16 1) (a 17 1) (a 20 4) s
  | 0x40 => portCfgCmd c (a 16 2) (w 20) s
  | 0x41 => portStateCmd c inst (a 16 2) (a 18 1) s
  | 0x42 => portCtlCmd c (a 16 2) (w 20) s
  | 0x43 => portPmCmd c inst (a 16 2) (w 20) s
  | 0x44 => marginCmd c (a 16 2) (w 20) s
  | 0x45 => shaperSetCmd c inst (a 16 2) (a 18 1) (a 20 4) (a 24 2) (a 26 1 % 2 == 1) s
  | 0x46 => quantumSetCmd c inst (a 16 2) (a 18 1) (a 19 1) (a 20 2) s
  | 0x47 => inject c (a 16 1) (a 18 2) (w 20) s
  | 0x51 => fwActivate c s
  | 0x52 => dumpBufSet c (a 16 8) (a 24 4) s
  | 0x60 => skylightSet c (a 16 8) (a 24 4) s
  | 0x61 => ctrFilter c (a 16 2) (w 20) (w 24) (w 28) s
  | 0x62 => tagSet c (a 16 1) (a 17 1 % 2 == 1) s
  | _ => s

/-- A dispatched command is judged and executed. -/
def cmdRun (c : Ctx) (e : SqEntry) (s : State) : State :=
  match cmdJudge s c e with
  | some st => finish c e.opcode st s
  | none => cmdStep c e s

/-- Commands that waited for a new active core are executed by it, in the order of their dispatch (12 R238). -/
def unpark (s : State) : State :=
  if s.flt.takeover || s.mq.parked.isEmpty then s
  else State.each s.mq.parked (fun x => cmdRun x.1 x.2) (setMq { s.mq with parked := [] } s)

/-- FW_STANDBY_READY. -/
def execFwStandbyReady (s : State) : Ans := done s (s |> fwStandbyReady |> unpark)

/-- FLT_WDOG_FEED. -/
def execFltWdogFeed (core : Nat) (s : State) : Ans := done s (s |> wdogFeed core |> unpark)

/-! ### Dispatch (11 R210, R211, R216, R218) -/

/-- The engine fetches the entries after those it holds, up to the tail and to 8 of them (11 R211; log 36). -/
def fetchInto (ep q : Nat) (es : List (BitVec 512)) (s : State) : State :=
  let pg := Page.mq ep q
  let posted := ringDiff (sqN s ep q) (rd s pg F.MQ_Q_SQ_TAIL) (rd s pg F.MQ_Q_SQ_HEAD)
  setCache ep q ((cacheOf s ep q ++ es).take (min 8 posted)) s

/-- The queue's next command is dispatched: it is copied, the SQ head passes it, and CMD_EXP follows it. -/
def takeEntry (ep q : Nat) (r : Rr) (e : SqEntry) (s : State) : Ctx × State :=
  let pg := Page.mq ep q
  let h := rd s pg F.MQ_Q_SQ_HEAD
  let n := sqN s ep q
  let c : Ctx := ⟨ep, q, e.seq, h % n, genOf s ep⟩
  let m := s.mq
  let s := setMq { m with
    rr := tput Rr.reset m.rr ep r
    flying := m.flying ++ [⟨c, e.opcode, false, false⟩]
    ordWait := m.ordWait.filter (· != (ep, q)) } s
  (c, s |> setCache ep q ((cacheOf s ep q).drop 1) |> wr pg F.MQ_Q_SQ_HEAD ((h + 1) % (2 * n)) |> wr pg F.MQ_QSEQ_CMD_EXP (e.seq + 1))

/-- COMMAND_DISPATCH: `es` are the entries that the engine fetches for the queue whose turn it is, unless the fetch meets an error; the
command dispatched is the oldest it holds. `cplErr`: after that many more writes of its completions one meets an error (log 140). -/
def commandDispatch (ep : Nat) (es : List (BitVec 512)) (fetchErr : Bool) (cplErr : Option Nat) (s : State) : State :=
  if !coreLeft s then s
  else match rrPick s ep with
    | none => s
    | some (q, r) =>
      if fetchErr then qHalt ep q 1 s
      else
        let s := fetchInto ep q es s
        match cacheOf s ep q with
        | [] => s
        | w :: _ =>
          let e := sqEntryOf w
          if e.ord && unfinished s ep q then setMq { s.mq with ordWait := s.mq.ordWait ++ [(ep, q)] } s
          else
            let exp := rd s (.mq ep q) F.MQ_QSEQ_CMD_EXP
            let chk := rdb s (.mq ep q) F.MQ_Q_CFG_SEQ_CHK
            let (c, s) := takeEntry ep q r e s
            let s := s.when cplErr.isSome fun s => setMq { s.mq with cplErr := tput none s.mq.cplErr (qkey ep q) cplErr } s
            if chk && e.seq != exp then finish c e.opcode St.seqErr s
            else if s.flt.takeover then setMq { s.mq with parked := s.mq.parked ++ [(c, e)] } s
            else cmdRun c e s

end Sys2Proof.Machine
end

