-- ==== Sys2Proof/Machine/Time.lean ====
section
/-!
DEFINITION. Sys2Proof/Machine/Time.lean: what happens at instants of fabric time (02 R37-R43): refill-slot and epoch boundaries,
scheduled commands, partition restarts.
-/
namespace Sys2Proof.Machine

/-! ### Per-slot samples (02 R38 step 1) -/

/-- Fields of PHY_LANE_SLOT for the lanes 0 and 1 of a controller: ACT, LOS, LOL, FAILED. -/
def laneSlotFld (k : Nat) : Fld × Fld × Fld × Fld :=
  if k = 0 then
    (F.PHY_LANE_SLOT_LANE0_ACT, F.PHY_LANE_SLOT_LANE0_LOS, F.PHY_LANE_SLOT_LANE0_LOL, F.PHY_LANE_SLOT_LANE0_FAILED)
  else (F.PHY_LANE_SLOT_LANE1_ACT, F.PHY_LANE_SLOT_LANE1_LOS, F.PHY_LANE_SLOT_LANE1_LOL, F.PHY_LANE_SLOT_LANE1_FAILED)

/-- The sample of one lane: what it saw in the slot just ended; a condition that lasts is seen in the next slot too (03 R54,
Table 3.11). -/
def sampleLane (lane : Nat) (s : State) : State :=
  let x := laneOf s lane
  let act := expectedActive s lane
  let pg := Page.phy (lane / 2)
  let (fa, fs, fl, ff) := laneSlotFld (lane % 2)
  s |> wrb pg fa (act && !x.sIdle) |> wrb pg fs x.sLos |> wrb pg fl x.sLol |> wrb pg ff x.sFail
    |> setLane lane { x with lolSlot := 0, sLos := act && x.los, sLol := act && x.lol, sFail := false, sIdle := false }

/-- Idle slots of a link's directions, and slots in which a credit return waited for a cell (03 R58, 05 R89). -/
def sampleIdle (lead : Nat) (s : State) : State :=
  let l := linkOf s lead
  let up := linkUp s lead
  let tx := up && !l.busyTx && backlog s lead == 0
  let rx := up && !l.busyRx
  let still := l.creditWait && l.owes != 0 && grantable s (tileOf lead) (.ing lead) == 0
  s |> setLink lead { l with
      idleTx := if tx then min (l.idleTx + 1) 0xFFFF else 0, idleRx := if rx then min (l.idleRx + 1) 0xFFFF else 0
      busyTx := false, busyRx := false, creditWait := still }
    |> fun s => s.when l.creditWait (bump (.ing lead) F.ING_CNT_CREDIT_WAIT)

/-- Controllers whose PHY_LANE_SLOT shows something. -/
def slotShown (s : State) : List Nat :=
  s.regs.filterMap fun e =>
    match pageAt (e.1 / 8 / 0x1000) with
    | some (.phy p) => if e.1 / 8 % 0x1000 = F.PHY_LANE_SLOT_LANE0_ACT.off then some p else none
    | _ => none

/-- Lanes that a boundary's sample can change: those of links, and those whose record or registers are not as at reset. The samples of
all others are 0 and stay so. -/
def lanesToSample (s : State) : List Nat :=
  ((leads s).flatMap (lanesAt s) ++ s.ports.lanes.map Prod.fst ++ (slotShown s).flatMap fun p => [2 * p, 2 * p + 1]).dedup

/-- The samples of the ports. -/
def samplePorts (s : State) : State :=
  let leads := leads s
  let s := s.each (lanesToSample s) sampleLane
  let s := s.each leads sampleIdle
  s.each leads sampleLink

/-! ### Refill-slot boundary -/

/-- TC3 traffic of a link has waited for a whole slot (03 R59). -/
def tc3Waited (s : State) (lead : Nat) : Bool :=
  s.core.cells.any fun c => c.out == lead && c.tc == 3 && decide (c.stage = .egress) && decide (c.arr + 128 ≤ s.time)

/-- A narrowed transmit direction widens (03 R59). -/
def narrowWiden (lead : Nat) (s : State) : State :=
  if txState s lead = 1 ∧ linkUp s lead ∧ (32 ≤ backlog s lead ∨ tc3Waited s lead = true) then
    modLink lead (fun l => { l with exTx := true }) s
  else s

/-- The tiles read the entry of the scrub in their replicas, in ascending order; `rep` names the bad words of the entry, by
replica. A word repaired by one tile is good for the next (06 R115, R116). -/
def scrubTiles (idx : Nat) (rep : List (Nat × Nat)) : List Nat → State → State
  | [], s => s
  | t :: ts, s =>
    let hard := (badWords t rep).filter fun w => rep.contains ((t + 1) % 8, w)
    let left := rep.filter fun x => x.1 != t && !hard.contains x.2
    scrubTiles idx left ts (readReplica t idx none rep s).2

/-- One entry a slot (06 R115). -/
def bindScrub (rep : List (Nat × Nat)) (s : State) : State :=
  let idx := s.maps.scrub
  scrubTiles idx rep (List.range 8) { s with maps := { s.maps with scrub := (idx + 1) % 262144 } }

/-- EMBER runs again at a change of fabric time bit 15 once the watchdog has been fed (02 Table 2.5). -/
def emberBoundary (s : State) : State :=
  if s.time % 2 ^ 15 = 0 ∧ s.flt.emberHeld = true ∧ s.flt.wdogOut = false ∧ s.flt.fatal = none then
    { s with flt := { s.flt with emberHeld := false } }
  else s

/-- Once-per-slot budgets begin anew: power tokens (15 R298), and the event of debug denials. -/
def slotBudgets (s : State) : State :=
  { s with trail := { s.trail with tokUsed := 0 }, dbg := { s.dbg with denySlot := false } }

/-- The boundary of this instant has been acted on. -/
def slotMark (s : State) : State := { s with ftm := { s.ftm with slotDone := s.time } }
def epochMark (s : State) : State := { s with ftm := { s.ftm with epochDone := s.time } }

/-- Step 1 of R38: the samples of the slot just ended; current in 0.25 A and voltage in 10 mV (15 R291). -/
def slotSample (peakI vmin : Nat) (s : State) : State :=
  s |> unfrozen samplePorts |> wr .pwr F.PWR_SLOT_MEAS_PEAK_I (min peakI 1023) |> wr .pwr F.PWR_SLOT_MEAS_VMIN (min vmin 2047)

/-- Step 2 of R38: refills and RWE fields that are due, and what the blocks do once a slot. -/
def slotEffect (scrub : List (Nat × Nat)) (s : State) : State :=
  s |> rweApply false |> unfrozen egressBoundary |> curveBoundary |> eaBoundary |> skyBoundary |> slotBudgets |> emberBoundary
    |> unfrozen (fun s => s.each (leads s) narrowWiden)
    |> unfrozen (fun s => s.when s.mode.isUp (bindScrub scrub)) |> slotMark |> dueDone false

/-! ### Scheduled actions (02 R38 step 3, R40; 10 R195) -/

/-- The page that a frozen module would have to change for an action, if it is one of a tile, port or partition. -/
def SchedAct.page : SchedAct → Option Page
  | .restart p => some (.part p)
  | .portState l _ => some (.phy l)
  | .portPm l _ => some (.phy l)
  | .shaper l _ _ _ _ => some (.sched (tileOf l))
  | .quantum l _ _ _ => some (.sched (tileOf l))
  | .bindStop _ | .bindStart _ | .regWrite _ _ _ => none

/-- The action of a command at its instant. -/
def actDo (c : Ctx) (op : Nat) (a : SchedAct) (s : State) : State :=
  match a with
  | .restart _ => s
  | .bindStop i => if frozen s then bindRun c op i .stop s else bindRunAt c op i .stop s
  | .bindStart i => if frozen s then bindRun c op i .start s else bindRunAt c op i .start s
  | .regWrite off v m => s |> regWriteDo c off v m |> unpark
  | .portState l r => portStateDo c l r s
  | .portPm l v => portPmDo c l v s
  | .shaper l p r b en => shaperDo c l p r b en s
  | .quantum l p tc q => quantumDo c l p tc q s

/-- An entry whose instant has come leaves the table and takes effect; on a page of a frozen part it is discarded (17 R322). -/
def schedAction (e : SchedEnt) (s : State) : State :=
  let s := schedDrop e.idx s
  match e.act.page.filter (holdsWrites s) with
  | some pg => s |> reject pg |> ownerDone e St.cfgInvalid 0
  | none =>
    match e.act, e.owner with
    | .restart p, _ => restartNow p e s
    | a, .cmd c op => actDo c op a s
    | _, _ => s

/-- Every entry that is due at the present instant, in the order of acceptance. -/
def fireDue : Nat → State → State
  | 0, s => s
  | n + 1, s => match schedDue s with
    | some e => fireDue n (schedAction e s)
    | none => s

/-! ### Epoch boundary -/

/-- CORRECTED and RECOVERED handling opened before this tick closes (12 Table 12.3, R235). -/
def closeEpoch (s : State) : State :=
  closeAll (fun h => (h.react == React.corrected || h.react == React.recovered) && h.tick != s.tick) s

/-- The check message to the network interfaces; it names an instant 512 ticks ahead (01 R20). -/
def timeCheck (s : State) : State :=
  s.when (rd s .ftm F.FTM_STS_STATE != 0) (State.say (.timeCheck ((s.time + 512) % 2 ^ 64) (s.tick + 512)))

/-- What the blocks do once an epoch, after steps 1 to 3 of R38. -/
def epochActions (s : State) : State :=
  s |> ftmEpoch |> timeCheck |> closeEpoch |> unfrozen predDecay |> unfrozen coldDrop |> alcReport |> unfrozen lossRearm
    |> unfrozen wabErrReissue |> glrEpoch |> dueDone true

/-- The boundaries of the present tick, in the order of R38, but for one already acted on: the load of a TIME_SET that takes place at the
epoch boundary (R30; log 144); snapshot and samples; refills and RWE fields; scheduled actions; then what the blocks do once an epoch.
`meas`: current and voltage of the slot, free values (log 40) where the row that brings them is not the one that comes. -/
def boundary (perr : CtrStrikes) (meas : Option (Nat × Nat)) (scrub : List (Nat × Nat)) (s : State) : State :=
  let ep := s.time % 2 ^ 17 == 0 && s.ftm.epochDone != s.time
  let sl := s.time % 2 ^ 7 == 0 && s.ftm.slotDone != s.time
  let s := s |> parDue |> spdmDue |> skySettle
  let s := s.when ep loadSet
  let s := s.when ep (snapLatch perr)
  let s := s.when sl fun s => match meas with
    | some (i, v) => slotSample i v s
    | none =>
      let (i, s) := s.draw
      let (v, s) := s.draw
      slotSample (i % 1024) (v % 2048) s
  let s := s.when sl (slotEffect scrub)
  let s := s.when ep (fun s => s |> rweApply true |> epochMark)
  let s := s.when (ep || sl) fun s => fireDue s.sched.length s
  s.when ep epochActions

/-- What fabric time has due in the present tick takes effect before anything else of the tick: boundaries, then entries whose
instant has come (02 R38). -/
def dueFirst (s : State) : State :=
  let s := s |> parDue |> spdmDue
  if clockRuns s && s.mode.isUp then
    let s := s |> tcsDue s.tick |> boundary ⟨[], []⟩ none []
    fireDue s.sched.length s
  else s

/-- Changes of entries whose last tick lies before the boundary take effect at it (06 R117). -/
def tcsUntil (p done : Nat) (s : State) : State := tcsDue (advanceToMultiple p done s).tick s

/-- REFILL_SLOT_BOUNDARY (02 R38): the evaluation periods of the slot have ended before it (15 R289). -/
def refillSlotBoundary (cur : SlotCur) (vmin : Nat) (scrub : List (Nat × Nat)) (s : State) : State :=
  if !clockRuns s then s
  else s |> tcsUntil (2 ^ 7) s.ftm.slotDone |> advanceToMultiple (2 ^ 7) s.ftm.slotDone |> periodRuns cur.runs
    |> boundary ⟨[], []⟩ (some (cur.peak, vmin)) scrub

def execRefillSlotBoundary (cur : SlotCur) (vmin : Nat) (scrub : List (Nat × Nat)) (s : State) : Ans :=
  done s (refillSlotBoundary cur vmin scrub s)

/-- EPOCH_BOUNDARY (02 R38). -/
def epochBoundary (perr : CtrStrikes) (s : State) : State :=
  if !clockRuns s then s else s |> tcsUntil (2 ^ 17) s.ftm.epochDone |> advanceToMultiple (2 ^ 17) s.ftm.epochDone |> boundary perr none []

def execEpochBoundary (perr : CtrStrikes) (s : State) : Ans := done s (epochBoundary perr s)

/-! ### Entries that reach their instant (02 R38, R40) -/

/-- The count moves on to the instant of an entry, and it takes effect after the boundary of that tick; nothing while the clock
has stopped short of it. -/
def fireEnt (e : SchedEnt) (s : State) : State :=
  if 0 < entLeft s e ∧ ¬ clockRuns s then s
  else
    let s := s |> tcsDue (s.tick + entLeft s e)
    let s := s |> passTicks (entLeft s e) |> fun s => s.when (clockRuns s) (boundary ⟨[], []⟩ none [])
    if (schedEnt s e.idx).isSome then schedAction e s else s

/-- SCHEDULED_COMMAND_FIRE: the entry that is next. -/
def scheduledCommandFire (s : State) : State :=
  match schedNext (fun _ => true) s with
  | some e => fireEnt e s
  | none => s

def execScheduledCommandFire (s : State) : Ans := done s (scheduledCommandFire s)

/-- Entries take effect in their order, up to the one of an index. -/
def fireTo (idx : Nat) : Nat → State → State
  | 0, s => s
  | n + 1, s =>
    if (schedEnt s idx).isNone then s
    else match schedNext (fun _ => true) s with
      | some e => fireTo idx n (fireEnt e s)
      | none => s

/-- PARTITION_RESTART: the armed restart of a partition reaches its instant; whatever comes before it takes effect first. -/
def partitionRestart (part : Nat) (s : State) : State :=
  match restartEnt s part with
  | some e => fireTo e.idx s.sched.length s
  | none => s

def execPartitionRestart (part : Nat) (s : State) : Ans := done s (partitionRestart part s)

end Sys2Proof.Machine
end

