-- ==== Sys2Proof/Machine/Due.lean ====
section
/-!
DEFINITION. Sys2Proof/Machine/Due.lean: commands that meet the state which fabric time has left in their tick: what is due in the tick,
boundaries, changes of entries and scheduled actions, comes before them (02 R38; 06 R117; 09 R181, R185; 10 R192, R195, R202).
-/
namespace Sys2Proof.Machine

/-- What is due in the present tick takes effect, and then the command. -/
def dueThen (f : State → State) (s : State) : State := f (dueFirst s)

/-- A timer that expires at tick `t`: changes of entries that are overdue by then become visible on the way, time moves on to it, and what
is due in that tick takes effect before its action (06 R117; 10 R195). -/
def atDue (t : Nat) (f : State → State) (s : State) : State :=
  if s.tick < t ∧ ¬ clockRuns s then s else dueThen f (advanceTo t (tcsDue t s))

/-! ### Partitions (10 R188, R190, R194, R199, R202) -/

def execPartQuiesced (part : Nat) (s : State) : Ans := done s (dueThen (unfrozen (partQuiesced part)) s)

def execPartResetDone (part : Nat) (s : State) : Ans := done s (dueThen (unfrozen (partResetDone part)) s)

/-- The quiescence timer of a partition runs out (10 R190, R202): one whose conditions hold in the tick of expiry stops by
quiescence. -/
def quiesceEnd (part : Nat) (s : State) : State :=
  if partSt s part ≠ 1 ∨ resetting s part then s
  else if quiesced s part then partStopped part St.ok s
  else s |> failOutstanding part |> wr (.part part) F.PART_STS_QTMO_HIT 1 |> partStopped part St.qtmo |> delCheck

/-- QUIESCE_TIMEOUT. -/
def quiesceTimeout (part : Nat) (s : State) : State :=
  match (partOf s part).qDue with
  | none => s
  | some t => atDue t (quiesceEnd part) s

def execQuiesceTimeout (part : Nat) (s : State) : Ans := done s (unfrozen (quiesceTimeout part) s)

def execPartStop (c : Ctx) (part : Nat) (s : State) : Ans := done s (dueThen (byCore (partStopCmd c part)) s)

/-- PART_BLK_CTL_WRITE. -/
def execPartBlkCtlWrite (part : Nat) (v : Word) (s : State) : Ans :=
  done s (dueThen (regGate (.part part) (partRunWrite part v.toNat allBits)) s)

def execPartRestartAt (c : Ctx) (inst : Option Nat) (part : Nat) (s : State) : Ans :=
  done s (dueThen (byCore (partRestartAt c inst part)) s)

def execPartReset (c : Ctx) (part : Nat) (s : State) : Ans := done s (dueThen (byCore (partResetCmd c part)) s)

/-- PART_CTL_RESET. -/
def execPartCtlReset (part : Nat) (s : State) : Ans :=
  done s (dueThen (regGate (.part part) (partCtlWrite part 1 allBits)) s)

def execHotReset (lead : Nat) (s : State) : Ans := done s (dueThen (hotReset lead) s)

/-! ### Writes that a run state judges (10 R192) -/

/-- FTM_CFG_WRITE (02 R359). -/
def execFtmCfgWrite (v : Word) (s : State) : Ans := done s (dueThen (regGate .ftm (ftmCfgWrite v.toNat allBits)) s)

def execPhyLinkCfgWrite (p : Nat) (v : Word) (s : State) : Ans := done s (dueThen (regGate (.phy p) (phyLinkCfgWrite p v)) s)

def execPortCfg (c : Ctx) (lead : Nat) (v : Word) (s : State) : Ans := done s (dueThen (byCore (portCfgCmd c lead v)) s)

def execNiRtHiCommit (ni : Nat) (v : Word) (s : State) : Ans := done s (dueThen (regGate (.ni ni) (niRtHiWrite ni v.toNat)) s)

def execSgCommit (c : Ctx) (group : Nat) (mem : BitVec 128) (s : State) : Ans := done s (dueThen (byCore (sgCommit c group mem)) s)

/-- HOME_SG_MEM3_COMMIT (08 R149). -/
def execHomeSgMem3Commit (v : Word) (s : State) : Ans :=
  done s (dueThen (regGate .homeM (sgMem3Write v.toNat 0xFFFFFFFF)) s)

/-- BLK_CTL_WRITE: the address is that of BLK_CTL of a page; a queue's page is written through its own endpoint. -/
def execBlkCtlWrite (addr : Nat) (v : Word) (s : State) : Ans :=
  done s (dueThen (fun s => match pageAt (addr / 0x1000) with
    | none => s
    | some pg =>
      let src := match pg with | .mq ep _ => ep | _ => 0
      if addr % 0x1000 = F.BLK_CTL_RUN.off then regGate pg (blkCtl src pg v.toNat allBits) s else s) s)

/-- REG_WRITE. -/
def execRegWrite (c : Ctx) (inst : Option Nat) (offset : RegAt) (v mask : Word) (s : State) : Ans :=
  done s (dueThen (byCore (fun s => s |> regWrite c inst offset v.toNat mask.toNat |> unpark)) s)

/-- REGISTER_WRITE. -/
def execRegisterWrite (src : RegPort) (addr size : Nat) (v : BitVec 64) (s : State) : Ans :=
  done s (dueThen (fun s => s |> registerWrite src addr size v.toNat |> unpark) s)

/-- COMMAND_DISPATCH. -/
def execCommandDispatch (ep : Nat) (es : List (BitVec 512)) (fetchErr : Bool) (cplErr : Option Nat) (s : State) : Ans :=
  done s (dueThen (commandDispatch ep es fetchErr cplErr) s)

/-! ### What the manager reads -/

def execBindWindowRead (src : RegPort) (addr size : Nat) (s : State) : Ans := done s (dueThen (bindWindowRead src addr size) s)

def execRegRead (c : Ctx) (offset : RegAt) (s : State) : Ans := done s (dueThen (byCore (regRead c offset)) s)

def execTableRead (c : Ctx) (table first count buf : Nat) (good : Bool) (s : State) : Ans :=
  done s (dueThen (byCore (tableRead c table first count buf good)) s)

/-- BLOCK_QUIESCED (17 R324, R341). -/
def execBlockQuiesced (addr : Nat) (s : State) : Ans :=
  done s (dueThen (fun s => match pageAt (addr / 0x1000) with
    | none => s
    | some pg => blockQuiesced pg s) s)

end Sys2Proof.Machine
end

