-- ==== Sys2Proof/Machine/DueHome.lean ====
section
/-!
DEFINITION. Sys2Proof/Machine/DueHome.lean: the commands of requests, bindings, the Write Acceptance Buffer and the homes, each after
what is due in its tick: no lookup meets a change of an entry that is overdue (02 R38; 06 R117, R124).
-/
namespace Sys2Proof.Machine

/-! ### Requests, bindings and devices (06) -/

/-- HOST_REQUEST at its ingress. -/
def execHostRequest (lead : Nat) (r : Req) (u : Upset) (s : State) : Ans :=
  done s (dueThen (hostRequest lead r u) s)

def execTargetResponse (lead id : Nat) (ok : Bool) (data : LineData) (poison : Bool) (s : State) : Ans :=
  done s (dueThen (targetResponse lead id ok data poison) s)

def execBindAdd (c : Ctx) (replace : Bool) (idx : Nat) (q0 q1 q2 q3 : DWord) (s : State) : Ans :=
  done s (dueThen (byCore (bindAdd c replace idx q0 q1 q2 q3)) s)

def execBindDel (c : Ctx) (idx tmo : Nat) (s : State) : Ans := done s (dueThen (byCore (bindDel c idx tmo)) s)

def execBindTc (idx : Nat) (s : State) : Ans := done s (dueThen (unfrozen (bindTc idx)) s)

def execBindStop (c : Ctx) (inst : Option Nat) (idx : Nat) (s : State) : Ans := done s (dueThen (byCore (bindStop c inst idx)) s)

def execBindStart (c : Ctx) (inst : Option Nat) (idx : Nat) (s : State) : Ans := done s (dueThen (byCore (bindStart c inst idx)) s)

def execBindStopped (idx : Nat) (s : State) : Ans := done s (dueThen (bindStopped idx) s)

def execDcResponse (idx : Nat) (accept : Bool) (s : State) : Ans := done s (dueThen (unfrozen (dcResponse idx accept)) s)

def execReleaseDynamicCapacity (part offset length : Nat) (s : State) : Ans :=
  done s (dueThen (unfrozen (releaseDynamicCapacity part offset length)) s)

def execDecoderCommit (part base size ways : Nat) (s : State) : Ans := done s (dueThen (unfrozen (decoderCommit part base size ways)) s)

def execHpAdd (c : Ctx) (part vp lead : Nat) (s : State) : Ans := done s (dueThen (byCore (hpAdd c part vp lead)) s)

def execHpRemove (c : Ctx) (part vp tmo : Nat) (s : State) : Ans := done s (dueThen (byCore (hpRemove c part vp tmo)) s)

def execSlotPower (part vp : Nat) (on : Bool) (s : State) : Ans := done s (dueThen (unfrozen (slotPower part vp on)) s)

/-- BIND_DEL waits on the host until its timeout (06 R122). -/
def bindDelTimeout (idx : Nat) (s : State) : State :=
  match s.maps.waits.find? fun w => w.idx == idx && w.del && w.deadline.isSome with
  | none => s
  | some w => atDue (w.deadline.getD 0) (fun s =>
      if s.maps.waits.contains w then
        { s with maps := { s.maps with waits := s.maps.waits.filter (· ≠ w) } } |> completeO w.ctx 0x21 St.hostHeld 0
      else s) s

def execBindDelTimeout (idx : Nat) (s : State) : Ans := done s (bindDelTimeout idx s)

/-- The hold of a request runs out (06 R124): the HOLD outcome, or release when what held it is in RUN in this tick. -/
def holdEnd (id : Nat) (s : State) : State :=
  match s.maps.held.find? fun h => h.id == id with
  | none => s
  | some h =>
    let free := partSt s h.part == 0 && !h.behind && (match h.bind with | some i => (bindOf s i).running | none => true)
    if free then settle (heldGo h s)
    else settle ({ s with maps := { s.maps with held := s.maps.held.filter (·.id != id) } } |> failHeld FK.hold h)

/-- HOLD_TIMEOUT (06 R124, 10 R195). -/
def holdTimeout (id : Nat) (s : State) : State :=
  match s.maps.held.find? fun h => h.id == id with
  | none => s
  | some h => atDue (h.deadline.getD s.tick) (unfrozen (holdEnd id)) s

def execHoldTimeout (id : Nat) (s : State) : Ans := done s (unfrozen (holdTimeout id) s)

/-- HP_REMOVE_TIMEOUT (06 R126). -/
def hpRemoveTimeout (part vp : Nat) (s : State) : State :=
  match (vpOf s part vp).rm with
  | none => s
  | some (c, t) => atDue t (fun s =>
      if (vpOf s part vp).rm = some (c, t) then s |> setVp part vp { vpOf s part vp with rm := none } |> finish c 0x31 St.hostHeld
      else s) s

def execHpRemoveTimeout (part vp : Nat) (s : State) : Ans := done s (hpRemoveTimeout part vp s)

/-! ### The Write Acceptance Buffer (07) -/

def execWabTargetAck (tile id : Nat) (ok : Bool) (s : State) : Ans := done s (dueThen (wabTargetAck tile id ok) s)

def execWabReissue (lead : Nat) (s : State) : Ans := done s (dueThen (wabReissue lead) s)

def execWabDiscard (c : Ctx) (part idx : Nat) (s : State) : Ans := done s (dueThen (byCore (wabDiscard c part idx)) s)

def execDrainComplete (id : Nat) (s : State) : Ans := done s (dueThen (unfrozen (drainComplete id)) s)

/-- FENCE_READ (07 R141): a read at an offset of BAR0 of the PMD. -/
def execFenceRead (lead offset size tag : Nat) (s : State) : Ans :=
  done s (dueThen (hostRequest lead
    { op := .ioRead, space := .bar0, addr := offset, size := size, data := 0, cmp := 0, mask := 0, md := .any, tag := tag
      reqId := 0, pasid := none, pmode := false, exe := false, ro := false, poison := false } Upset.none) s)

/-- WAB_ACK_TIMEOUT (07 R134). -/
def wabAckTimeout (tile id : Nat) (s : State) : State :=
  match wabEnt s tile id with
  | none => s
  | some e =>
    if e.stranded || frozen s then s
    else atDue e.deadline (unfrozen fun s => s |> strand false (fun x => x.tile == tile && x.id == id) |> afterRetire) s

def execWabAckTimeout (tile id : Nat) (s : State) : Ans := done s (wabAckTimeout tile id s)

/-- WAB_WAIT_EXPIRE: the wait of a warm reset or of FATAL handling has run its length. -/
def wabWaitExpire (s : State) : State :=
  match s.wab.wait with
  | none => s
  | some t => atDue (t + wabWaitLimit) (fun s =>
      { s with flt := { s.flt with fatal := s.flt.fatal.map fun f => { f with ranOut := true } } }) s

def execWabWaitExpire (s : State) : Ans := done s (wabWaitExpire s)

/-- The window of a power drain ends (07 R145, R146): the loss record is written when entries remain. -/
def pwrDrainEnd (s : State) : State :=
  let rows := plrRows s
  let s := { s with wab := { s.wab with pwrDrain := none } } |> wr .wabM F.WAB_MOD_STS_PWR_DRAIN 0
  if rows.isEmpty then s
  else { s with wab := { s.wab with
    plr := rows.take 64, plrTrunc := min 255 (rows.length - 64), plrValid := true } }

/-- POWER_DRAIN_WINDOW_END. -/
def powerDrainWindowEnd (s : State) : State :=
  match s.wab.pwrDrain with
  | none => s
  | some t => atDue (t + 10000) (fun s => s.when (decide (s.wab.pwrDrain = some t)) pwrDrainEnd) s

def execPowerDrainWindowEnd (s : State) : Ans := done s (powerDrainWindowEnd s)

/-! ### Homes (08) -/

def execLoqEntry (id : Nat) (a : HomeArr) (s : State) : Ans := done s (dueThen (loqEntry id a) s)

def execLoqService (id : Nat) (u : Upset) (s : State) : Ans := done s (dueThen (fun s => delCheck (loqService id u s)) s)

def execHaloBcast (id : Nat) (bad : Option Nat) (s : State) : Ans := done s (dueThen (haloBcast id bad) s)

def execHaloResp (id : Nat) (bad : Option Nat) (s : State) : Ans := done s (dueThen (fun s => delCheck (haloResp id bad s)) s)

def execWbAck (id : Nat) (bad : Option Nat) (s : State) : Ans := done s (dueThen (fun s => delCheck (wbAck id bad s)) s)

def execHaloFence (id : Nat) (bad : Option Nat) (s : State) : Ans := done s (dueThen (haloFence id bad) s)

def execBirsp (lead snoop : Nat) (shared : Bool) (s : State) : Ans := done s (dueThen (fun s => delCheck (birsp lead snoop shared s)) s)

def execBiconflict (lead snoop : Nat) (s : State) : Ans := done s (dueThen (biconflict lead snoop) s)

def execAtomicOp (id : Nat) (u : Upset) (s : State) : Ans := done s (dueThen (fun s => delCheck (atomicOp id u s)) s)

def execNearMemoryCompletion (id : Nat) (ok : Bool) (data : LineData) (s : State) : Ans :=
  done s (dueThen (nearMemoryCompletion id ok data) s)

def execReserveRead (id : Nat) (u : Upset) (s : State) : Ans := done s (dueThen (fun s => delCheck (reserveRead id u s)) s)

def execConditionalWrite (id : Nat) (s : State) : Ans := done s (dueThen (fun s => delCheck (conditionalWrite id s)) s)

/-- A snoop has had no answer in its time (08 R160). -/
def snoopLate (snoop : Nat) (s : State) : State :=
  match s.home.snoops.find? fun n => n.id == snoop && n.got.isNone && n.heldRsp.isNone with
  | none => s
  | some n =>
    let g := ((loqOf s n.loq).map (·.group)).getD noGroup
    s |> State.when (decide (g < noGroup)) (fun s => s |> bump (.homeT n.tile) F.HOME_FENCE_CNT_FENCEOUT |> fenceOut n g)
      |> snoopEnd n .timeout |> delCheck

/-- SNOOP_TIMEOUT. -/
def snoopTimeout (snoop : Nat) (s : State) : State :=
  match s.home.snoops.find? fun n => n.id == snoop && n.got.isNone && n.heldRsp.isNone with
  | none => s
  | some n => if frozen s then s else atDue n.deadline (unfrozen (snoopLate snoop)) s

def execSnoopTimeout (snoop : Nat) (s : State) : Ans := done s (snoopTimeout snoop s)

end Sys2Proof.Machine
end

