-- ==== Sys2Proof/Machine/DueLink.lean ====
section
/-!
DEFINITION. Sys2Proof/Machine/DueLink.lean: the commands of lanes, links, cells and egresses, each after what is due in its tick, so
that the samples of a boundary show the tick before it (02 R38; 03 R54, R58; 09 R181, R185).
-/
namespace Sys2Proof.Machine

/-! ### Flits, acknowledgement and replay (04 R69-R72, R79) -/

def execFlitReceive (lead : Nat) (f : Flit) (clk : Nat) (s : State) : Ans := done s (dueThen (flitReceive lead f clk) s)

def execFlitAcknowledge (lead seq : Nat) (credits : List Nat) (s : State) : Ans :=
  done s (dueThen (unfrozen (flitAcknowledge lead seq credits)) s)

def execReplayRequest (lead : Nat) (x : ReplayAsk) (s : State) : Ans := done s (dueThen (replayRequest lead x) s)

/-- TRUNK_FLIT_RECEIVE at its ingress. -/
def execTrunkFlitReceive (lead : Nat) (h : DWord) (f : Flit) (q : TrunkReq) (s : State) : Ans :=
  done s (dueThen (trunkFlitReceive lead h f q) s)

/-- The replay timer has run out (04 R70): from the oldest unacknowledged flit; the timer starts again. -/
def replayTimerEnd (x : LinkReads) (s : State) : State :=
  let l := linkOf s x.lead
  if l.phase ≠ .l0 ∨ l.replay.isEmpty then s
  else s |> modLink x.lead (fun l => { l with ackFrom := some s.tick }) |> replayFrom x.lead x.reads l.replay

/-- REPLAY_TIMER_EXPIRE. -/
def replayTimerExpire (x : LinkReads) (s : State) : State :=
  let l := linkOf s x.lead
  match l.ackFrom with
  | none => s
  | some t =>
    if l.phase ≠ .l0 ∨ l.replay.isEmpty then s
    else atDue (t + rd s (.lnk x.lead) F.LNK_REPLAY_CFG_TMO) (replayTimerEnd x) s

def execReplayTimerExpire (x : LinkReads) (s : State) : Ans := done s (unfrozen (replayTimerExpire x) s)

/-! ### Cells (05 R84, R95-R98, R107) -/

def execSchedDecision (d : TileReads) (s : State) : Ans := done s (dueThen (schedDecision d.tile d.reads) s)

def execCellTransferDone (id : Nat) (rx : List (Nat × DWord × Nat)) (s : State) : Ans := done s (dueThen (cellTransferDone id rx) s)

def execBundleArrival (tile peer : Nat) (s : State) : Ans := done s (dueThen (bundleArrival tile peer) s)

/-- OPEN_CELL_IDLE_CLOSE (05 R84). -/
def execOpenCellIdleClose (lead : Nat) (s : State) : Ans := done s (dueThen (unfrozen (closeOpen lead)) s)

/-! ### Egresses (09 R178, R181) -/

def execEgressSelect (lead : Nat) (rd : CellRead) (s : State) : Ans := done s (dueThen (egressSelect lead rd) s)

def execShaperSet (c : Ctx) (inst : Option Nat) (lead part rate burst : Nat) (en : Bool) (s : State) : Ans :=
  done s (dueThen (byCore (shaperSetCmd c inst lead part rate burst en)) s)

def execQuantumSet (c : Ctx) (inst : Option Nat) (lead part tc quantum : Nat) (s : State) : Ans :=
  done s (dueThen (byCore (quantumSetCmd c inst lead part tc quantum)) s)

/-- SCHED_SHP_CFG_COMMIT. -/
def execSchedShpCfgCommit (tile : Nat) (v : Word) (s : State) : Ans :=
  done s (dueThen (regGate (.sched tile) (shpCfgWrite tile v.toNat 0xFFFFFFFF)) s)

/-! ### Links and lanes (03) -/

def execLinkQuiesced (lead : Nat) (s : State) : Ans := done s (dueThen (unfrozen (linkQuiesced lead)) s)

/-- LINK_OFF (03 R62). -/
def execLinkOff (lead : Nat) (off : Bool) (s : State) : Ans := done s (dueThen (regGate (.phy lead) (linkCtl lead (8 * off.toNat) 8)) s)

/-- LANE_CLR (03 R57). -/
def execLaneClr (lead : Nat) (s : State) : Ans := done s (dueThen (regGate (.phy lead) (linkCtl lead 4 4)) s)

/-- RETRAIN (03 R57). -/
def execRetrain (lead : Nat) (s : State) : Ans := done s (dueThen (regGate (.phy lead) (linkCtl lead 2 2)) s)

/-- PERST (03 R53). -/
def execPerst (lead : Nat) (on : Bool) (s : State) : Ans := done s (dueThen (regGate (.phy lead) (linkCtl lead on.toNat 1)) s)

def execLinkTrained (lead : Nat) (far : FarEnd) (s : State) : Ans := done s (dueThen (unfrozen (linkTrained lead far)) s)

def execLinkDown (lead : Nat) (s : State) : Ans := done s (dueThen (unfrozen (linkLost lead)) s)

def execPrsntChange (group : Nat) (present : Bool) (s : State) : Ans := done s (dueThen (prsntChange group present) s)

def execLaneLos (lane : Nat) (s : State) : Ans := done s (dueThen (unfrozen (laneLos lane)) s)

def execLaneLol (lane : Nat) (s : State) : Ans := done s (dueThen (unfrozen (laneLol lane)) s)

def execLaneSignalRestored (lane : Nat) (los lol : Bool) (s : State) : Ans := done s (dueThen (unfrozen (laneSignalRestored lane los lol)) s)

def execLinkRecoveryDone (x : LinkReads) (s : State) : Ans := done s (dueThen (unfrozen (linkRecoveryDone x)) s)

def execNarrowEntry (lead : Nat) (s : State) : Ans := done s (dueThen (unfrozen (narrowEntry lead)) s)

def execL0pRequest (lead width : Nat) (s : State) : Ans := done s (dueThen (unfrozen (l0pRequest lead width)) s)

def execDozeEntry (lead : Nat) (rx : Bool) (s : State) : Ans := done s (dueThen (unfrozen (dozeEntry lead rx)) s)

def execDozeExit (lead : Nat) (rx : Bool) (s : State) : Ans := done s (dueThen (unfrozen (dozeExit lead rx)) s)

def execL1Entry (lead : Nat) (agree : Bool) (s : State) : Ans := done s (dueThen (unfrozen (l1Entry lead agree)) s)

def execL1Exit (lead : Nat) (s : State) : Ans := done s (dueThen (unfrozen (l1Exit lead)) s)

def execPowerStateExitDone (lead : Nat) (rx : Bool) (s : State) : Ans := done s (dueThen (unfrozen (powerStateExitDone lead rx)) s)

/-- MARGIN_START (03 R63). -/
def execMarginStart (p : Nat) (v : Word) (s : State) : Ans := done s (dueThen (regGate (.phy p) (marginWrite p v.toNat allBits none)) s)

def execMargin (c : Ctx) (p : Nat) (v : Word) (s : State) : Ans := done s (dueThen (byCore (marginCmd c p v)) s)

def execPortState (c : Ctx) (inst : Option Nat) (lead run : Nat) (s : State) : Ans := done s (dueThen (byCore (portStateCmd c inst lead run)) s)

def execPortCtl (c : Ctx) (lead : Nat) (v : Word) (s : State) : Ans := done s (dueThen (byCore (portCtlCmd c lead v)) s)

def execPortPm (c : Ctx) (inst : Option Nat) (lead : Nat) (v : Word) (s : State) : Ans := done s (dueThen (byCore (portPmCmd c inst lead v)) s)

/-- LINK_RETRY_TIMER (03 R49, R50): the pause of a link that failed its check is over. -/
def linkRetryTimer (lead : Nat) (s : State) : State :=
  match (linkOf s lead).retryAt with
  | some t => atDue t (fun s => s.when (decide ((linkOf s lead).retryAt = some t)) (toDetect lead)) s
  | none => s

def execLinkRetryTimer (lead : Nat) (s : State) : Ans := done s (unfrozen (linkRetryTimer lead) s)

/-- LANE_FAIL_TIMEOUT (03 R55): also for a second lane in the tick in which the first sent the link into Recovery. -/
def laneFailTimeout (lane : Nat) (s : State) : State :=
  match (laneOf s lane).since with
  | none => s
  | some t => atDue (t + rd s (.phy (laneLead s lane)) F.PHY_LANE_FAIL_TMO) (fun s =>
      s.when (watched s lane && decide ((laneOf s lane).since = some t)) (laneFail lane)) s

def execLaneFailTimeout (lane : Nat) (s : State) : Ans := done s (unfrozen (laneFailTimeout lane) s)

/-- DWELL ticks of a step of a scan have passed with `errs` bit errors (03 R63). -/
def marginStepEnd (p errs : Nat) (s : State) : State :=
  match s.ports.scans.find? fun m => m.ctl == p with
  | none => s
  | some m =>
    let pg := Page.phy p
    if errs ≠ 0 then s |> wr pg F.PHY_MARGIN_STS_ERR_CNT (min errs 0xFFFF) |> marginEnd p 1
    else
      let s := wr pg F.PHY_MARGIN_STS_LAST_CLEAN m.step s
      if rd s pg F.PHY_MARGIN_CTL_STEPS ≤ m.step then marginEnd p 0 s
      else
        let m' : MarginS := { m with step := m.step + 1, due := m.due + rd s pg F.PHY_MARGIN_CTL_DWELL }
        { s with ports := { s.ports with scans := modFirst (fun m => m.ctl == p) (fun _ => m') s.ports.scans } }

/-- MARGIN_STEP_DONE. -/
def marginStepDone (p errs : Nat) (s : State) : State :=
  match s.ports.scans.find? fun m => m.ctl == p with
  | none => s
  | some m => atDue m.due (marginStepEnd p errs) s

def execMarginStepDone (p errs : Nat) (s : State) : Ans := done s (unfrozen (marginStepDone p errs) s)

end Sys2Proof.Machine
end

