-- ==== Sys2Proof/Machine/Dispatch.lean ====
section
/-!
DEFINITION. Sys2Proof/Machine/Dispatch.lean: the meaning of each command.
-/
namespace Sys2Proof.Machine

def exec (i : Instr) (s : State) : Host.Outcome State Fault Refusal :=
  match i with
  | .trailPacket router p o => Sys2Proof.Machine.execTrailPacket router p o s
  | .packetAged router out => Sys2Proof.Machine.execPacketAged router out s
  | .timeMessage ni value inst check => Sys2Proof.Machine.execTimeMessage ni value inst check s
  | .niRequestTimeout ni tag => Sys2Proof.Machine.execNiRequestTimeout ni tag s
  | .niRtHiCommit ni v => Sys2Proof.Machine.execNiRtHiCommit ni v s
  | .domainPowerDown g => Sys2Proof.Machine.execDomainPowerDown g s
  | .powerDownComplete g => Sys2Proof.Machine.execPowerDownComplete g s
  | .boundaryPacket g p => Sys2Proof.Machine.execBoundaryPacket g p s
  | .wakeComplete g => Sys2Proof.Machine.execWakeComplete g s
  | .refillSlotBoundary cur vmin scrub => Sys2Proof.Machine.execRefillSlotBoundary cur vmin scrub s
  | .epochBoundary perr => Sys2Proof.Machine.execEpochBoundary perr s
  | .ftmCfgWrite v => Sys2Proof.Machine.execFtmCfgWrite v s
  | .timeSet c e => Sys2Proof.Machine.execTimeSet c e s
  | .ftmSchedCancel idx => Sys2Proof.Machine.execFtmSchedCancel idx s
  | .schedCancel c idx => Sys2Proof.Machine.execSchedCancel c idx s
  | .partitionRestart part => Sys2Proof.Machine.execPartitionRestart part s
  | .coreWatchdogExpire core => Sys2Proof.Machine.execCoreWatchdogExpire core s
  | .fltWdogFeed core => Sys2Proof.Machine.execFltWdogFeed core s
  | .phyLinkCfgWrite p v => Sys2Proof.Machine.execPhyLinkCfgWrite p v s
  | .portCfg c lead v => Sys2Proof.Machine.execPortCfg c lead v s
  | .portState c inst lead run => Sys2Proof.Machine.execPortState c inst lead run s
  | .portCtl c lead v => Sys2Proof.Machine.execPortCtl c lead v s
  | .portPm c inst lead v => Sys2Proof.Machine.execPortPm c inst lead v s
  | .linkQuiesced lead => Sys2Proof.Machine.execLinkQuiesced lead s
  | .linkOff lead off => Sys2Proof.Machine.execLinkOff lead off s
  | .laneClr lead => Sys2Proof.Machine.execLaneClr lead s
  | .retrain lead => Sys2Proof.Machine.execRetrain lead s
  | .perst lead on => Sys2Proof.Machine.execPerst lead on s
  | .linkTrained lead far => Sys2Proof.Machine.execLinkTrained lead far s
  | .linkRetryTimer lead => Sys2Proof.Machine.execLinkRetryTimer lead s
  | .linkDown lead => Sys2Proof.Machine.execLinkDown lead s
  | .prsntChange group present => Sys2Proof.Machine.execPrsntChange group present s
  | .laneLos lane => Sys2Proof.Machine.execLaneLos lane s
  | .laneLol lane => Sys2Proof.Machine.execLaneLol lane s
  | .laneFailTimeout lane => Sys2Proof.Machine.execLaneFailTimeout lane s
  | .laneSignalRestored lane los lol => Sys2Proof.Machine.execLaneSignalRestored lane los lol s
  | .linkRecoveryDone x => Sys2Proof.Machine.execLinkRecoveryDone x s
  | .narrowEntry lead => Sys2Proof.Machine.execNarrowEntry lead s
  | .l0pRequest lead width => Sys2Proof.Machine.execL0pRequest lead width s
  | .dozeEntry lead rx => Sys2Proof.Machine.execDozeEntry lead rx s
  | .dozeExit lead rx => Sys2Proof.Machine.execDozeExit lead rx s
  | .l1Entry lead agree => Sys2Proof.Machine.execL1Entry lead agree s
  | .l1Exit lead => Sys2Proof.Machine.execL1Exit lead s
  | .powerStateExitDone lead rx => Sys2Proof.Machine.execPowerStateExitDone lead rx s
  | .marginStart p v => Sys2Proof.Machine.execMarginStart p v s
  | .margin c p v => Sys2Proof.Machine.execMargin c p v s
  | .marginStepDone p errs => Sys2Proof.Machine.execMarginStepDone p errs s
  | .laneMarginCommand p lane cmd => Sys2Proof.Machine.execLaneMarginCommand p lane cmd s
  | .flitReceive lead f draw => Sys2Proof.Machine.execFlitReceive lead f draw s
  | .flitAcknowledge lead seq credits => Sys2Proof.Machine.execFlitAcknowledge lead seq credits s
  | .replayRequest lead x => Sys2Proof.Machine.execReplayRequest lead x s
  | .replayTimerExpire x => Sys2Proof.Machine.execReplayTimerExpire x s
  | .egressSelect lead rd => Sys2Proof.Machine.execEgressSelect lead rd s
  | .trunkFlitReceive lead h f q => Sys2Proof.Machine.execTrunkFlitReceive lead h f q s
  | .lnkInjArm lead v => Sys2Proof.Machine.execLnkInjArm lead v s
  | .inject c target lead v => Sys2Proof.Machine.execInject c target lead v s
  | .schedDecision d => Sys2Proof.Machine.execSchedDecision d s
  | .cellTransferDone id rx => Sys2Proof.Machine.execCellTransferDone id rx s
  | .bundleArrival tile peer => Sys2Proof.Machine.execBundleArrival tile peer s
  | .openCellIdleClose lead => Sys2Proof.Machine.execOpenCellIdleClose lead s
  | .hostRequest lead r u => Sys2Proof.Machine.execHostRequest lead r u s
  | .targetResponse lead id ok data poison => Sys2Proof.Machine.execTargetResponse lead id ok data poison s
  | .bindTc idx => Sys2Proof.Machine.execBindTc idx s
  | .bindAdd c replace idx q0 q1 q2 q3 => Sys2Proof.Machine.execBindAdd c replace idx q0 q1 q2 q3 s
  | .bindDel c idx tmo => Sys2Proof.Machine.execBindDel c idx tmo s
  | .bindDelTimeout idx => Sys2Proof.Machine.execBindDelTimeout idx s
  | .bindStop c inst idx => Sys2Proof.Machine.execBindStop c inst idx s
  | .bindStopped idx => Sys2Proof.Machine.execBindStopped idx s
  | .bindStart c inst idx => Sys2Proof.Machine.execBindStart c inst idx s
  | .holdTimeout id => Sys2Proof.Machine.execHoldTimeout id s
  | .dcResponse idx accept => Sys2Proof.Machine.execDcResponse idx accept s
  | .releaseDynamicCapacity part offset length => Sys2Proof.Machine.execReleaseDynamicCapacity part offset length s
  | .decoderCommit part base size ways => Sys2Proof.Machine.execDecoderCommit part base size ways s
  | .hpAdd c part vp lead => Sys2Proof.Machine.execHpAdd c part vp lead s
  | .hpRemove c part vp tmo => Sys2Proof.Machine.execHpRemove c part vp tmo s
  | .hpRemoveTimeout part vp => Sys2Proof.Machine.execHpRemoveTimeout part vp s
  | .slotPower part vp on => Sys2Proof.Machine.execSlotPower part vp on s
  | .wabTargetAck tile id ok => Sys2Proof.Machine.execWabTargetAck tile id ok s
  | .wabAckTimeout tile id => Sys2Proof.Machine.execWabAckTimeout tile id s
  | .wabReissue lead => Sys2Proof.Machine.execWabReissue lead s
  | .wabDiscard c part idx => Sys2Proof.Machine.execWabDiscard c part idx s
  | .drainComplete id => Sys2Proof.Machine.execDrainComplete id s
  | .fenceRead lead offset size tag => Sys2Proof.Machine.execFenceRead lead offset size tag s
  | .sgCommit c group mem => Sys2Proof.Machine.execSgCommit c group mem s
  | .homeSgMem3Commit v => Sys2Proof.Machine.execHomeSgMem3Commit v s
  | .loqEntry id a => Sys2Proof.Machine.execLoqEntry id a s
  | .loqService id u => Sys2Proof.Machine.execLoqService id u s
  | .haloBcast id bad => Sys2Proof.Machine.execHaloBcast id bad s
  | .haloResp id bad => Sys2Proof.Machine.execHaloResp id bad s
  | .wbAck id bad => Sys2Proof.Machine.execWbAck id bad s
  | .haloFence id bad => Sys2Proof.Machine.execHaloFence id bad s
  | .birsp lead snoop shared => Sys2Proof.Machine.execBirsp lead snoop shared s
  | .biconflict lead snoop => Sys2Proof.Machine.execBiconflict lead snoop s
  | .snoopTimeout snoop => Sys2Proof.Machine.execSnoopTimeout snoop s
  | .atomicOp id u => Sys2Proof.Machine.execAtomicOp id u s
  | .nearMemoryCompletion id ok data => Sys2Proof.Machine.execNearMemoryCompletion id ok data s
  | .reserveRead id u => Sys2Proof.Machine.execReserveRead id u s
  | .conditionalWrite id => Sys2Proof.Machine.execConditionalWrite id s
  | .shaperSet c inst lead part rate burst en => Sys2Proof.Machine.execShaperSet c inst lead part rate burst en s
  | .quantumSet c inst lead part tc quantum => Sys2Proof.Machine.execQuantumSet c inst lead part tc quantum s
  | .schedShpCfgCommit tile v => Sys2Proof.Machine.execSchedShpCfgCommit tile v s
  | .partStop c part => Sys2Proof.Machine.execPartStop c part s
  | .partBlkCtlWrite part v => Sys2Proof.Machine.execPartBlkCtlWrite part v s
  | .partQuiesced part => Sys2Proof.Machine.execPartQuiesced part s
  | .quiesceTimeout part => Sys2Proof.Machine.execQuiesceTimeout part s
  | .partRestartAt c inst part => Sys2Proof.Machine.execPartRestartAt c inst part s
  | .partReset c part => Sys2Proof.Machine.execPartReset c part s
  | .partCtlReset part => Sys2Proof.Machine.execPartCtlReset part s
  | .hotReset lead => Sys2Proof.Machine.execHotReset lead s
  | .partResetDone part => Sys2Proof.Machine.execPartResetDone part s
  | .sqTailDoorbell ep q v => Sys2Proof.Machine.execSqTailDoorbell ep q v s
  | .cqHeadDoorbell ep q v => Sys2Proof.Machine.execCqHeadDoorbell ep q v s
  | .qinvDoorbell ep q => Sys2Proof.Machine.execQinvDoorbell ep q s
  | .commandDispatch ep es fetchErr cplErr => Sys2Proof.Machine.execCommandDispatch ep es fetchErr cplErr s
  | .queueBlkCtlWrite src ep q v => Sys2Proof.Machine.execQueueBlkCtlWrite src ep q v s
  | .functionLevelReset ep => Sys2Proof.Machine.execFunctionLevelReset ep s
  | .mgmtLinkLoss ep => Sys2Proof.Machine.execMgmtLinkLoss ep s
  | .mgmtLinkUp ep => Sys2Proof.Machine.execMgmtLinkUp ep s
  | .nop c => Sys2Proof.Machine.execNop c s
  | .identify c => Sys2Proof.Machine.execIdentify c s
  | .modeSet c mode => Sys2Proof.Machine.execModeSet c mode s
  | .regRead c offset => Sys2Proof.Machine.execRegRead c offset s
  | .regWrite c inst offset v mask => Sys2Proof.Machine.execRegWrite c inst offset v mask s
  | .snapshot c buf len good => Sys2Proof.Machine.execSnapshot c buf len good s
  | .evqReset c queue => Sys2Proof.Machine.execEvqReset c queue s
  | .tableRead c table first count buf good => Sys2Proof.Machine.execTableRead c table first count buf good s
  | .evqConsumeDoorbell d seqNo => Sys2Proof.Machine.execEvqConsumeDoorbell d seqNo s
  | .evqIdleTimeout queue => Sys2Proof.Machine.execEvqIdleTimeout queue s
  | .evqWindowRead ep queue => Sys2Proof.Machine.execEvqWindowRead ep queue s
  | .faultAssertion src part link named => Sys2Proof.Machine.execFaultAssertion src part link named s
  | .wireBroken src => Sys2Proof.Machine.execWireBroken src s
  | .wireRestored src => Sys2Proof.Machine.execWireRestored src s
  | .errInject addr v => Sys2Proof.Machine.execErrInject addr v s
  | .errStickyClear addr v => Sys2Proof.Machine.execErrStickyClear addr v s
  | .errMaskWrite addr v => Sys2Proof.Machine.execErrMaskWrite addr v s
  | .fltSrcReactWrite v => Sys2Proof.Machine.execFltSrcReactWrite v s
  | .fltDsegCfgWrite v => Sys2Proof.Machine.execFltDsegCfgWrite v s
  | .dumpBufSet c buf len => Sys2Proof.Machine.execDumpBufSet c buf len s
  | .dumpFetch c num buf len good => Sys2Proof.Machine.execDumpFetch c num buf len good s
  | .fwStage c off bytes good => Sys2Proof.Machine.execFwStage c off bytes good s
  | .fwActivate c => Sys2Proof.Machine.execFwActivate c s
  | .flashWriteDone result => Sys2Proof.Machine.execFlashWriteDone result s
  | .ctrBankClear bank => Sys2Proof.Machine.execCtrBankClear bank s
  | .ctrLoRead bank ctr perr => Sys2Proof.Machine.execCtrLoRead bank ctr perr s
  | .ctrFilter c bank f0 f1 f2 => Sys2Proof.Machine.execCtrFilter c bank f0 f1 f2 s
  | .tagSet c n en => Sys2Proof.Machine.execTagSet c n en s
  | .snapshotCollected ringOk => Sys2Proof.Machine.execSnapshotCollected ringOk s
  | .skylightSet c base size => Sys2Proof.Machine.execSkylightSet c base size s
  | .telSkyHeadWrite v => Sys2Proof.Machine.execTelSkyHeadWrite v s
  | .lockLoss outPort => Sys2Proof.Machine.execLockLoss outPort s
  | .glrPortDown outPort => Sys2Proof.Machine.execGlrPortDown outPort s
  | .blockLockRegained outPort => Sys2Proof.Machine.execBlockLockRegained outPort s
  | .bypassOpen tapsLocked => Sys2Proof.Machine.execBypassOpen tapsLocked s
  | .hello h modid => Sys2Proof.Machine.execHello h modid s
  | .dlyReq h num turnaround => Sys2Proof.Machine.execDlyReq h num turnaround s
  | .dlyRsp h num turnaround roundTrip => Sys2Proof.Machine.execDlyRsp h num turnaround roundTrip s
  | .heartbeat h b => Sys2Proof.Machine.execHeartbeat h b s
  | .memberLapse modid => Sys2Proof.Machine.execMemberLapse modid s
  | .time h epoch dep corr arrival residence => Sys2Proof.Machine.execTime h epoch dep corr arrival residence s
  | .timeSend dep => Sys2Proof.Machine.execTimeSend dep s
  | .rstReq h part slot t => Sys2Proof.Machine.execRstReq h part slot t s
  | .rstCancel h slot => Sys2Proof.Machine.execRstCancel h slot s
  | .rstRsp h slot status final sidx => Sys2Proof.Machine.execRstRsp h slot status final sidx s
  | .ack h next nak resync => Sys2Proof.Machine.execAck h next nak resync s
  | .glrAckTimeout modid => Sys2Proof.Machine.execGlrAckTimeout modid s
  | .glrReplayTimeout modid => Sys2Proof.Machine.execGlrReplayTimeout modid s
  | .go v => Sys2Proof.Machine.execGo v s
  | .cancel v => Sys2Proof.Machine.execCancel v s
  | .noFinal slot => Sys2Proof.Machine.execNoFinal slot s
  | .vinOn mv => Sys2Proof.Machine.execVinOn mv s
  | .railTimeout rail => Sys2Proof.Machine.execRailTimeout rail s
  | .curvePointTrip x => Sys2Proof.Machine.execCurvePointTrip x s
  | .selftestDone failed => Sys2Proof.Machine.execSelftestDone failed s
  | .pwrwarnAssert mv => Sys2Proof.Machine.execPwrwarnAssert mv s
  | .pwrwarnDeassert mv => Sys2Proof.Machine.execPwrwarnDeassert mv s
  | .vinUv mv => Sys2Proof.Machine.execVinUv mv s
  | .vinOv mv => Sys2Proof.Machine.execVinOv mv s
  | .vinOvClear mv => Sys2Proof.Machine.execVinOvClear mv s
  | .vinBelowVstby mv => Sys2Proof.Machine.execVinBelowVstby mv s
  | .vinAboveVstby mv => Sys2Proof.Machine.execVinAboveVstby mv s
  | .reclosure mv => Sys2Proof.Machine.execReclosure mv s
  | .holdupFull mv => Sys2Proof.Machine.execHoldupFull mv s
  | .storeNotFull mv => Sys2Proof.Machine.execStoreNotFull mv s
  | .phaseLost rail phase => Sys2Proof.Machine.execPhaseLost rail phase s
  | .regulationFault rail => Sys2Proof.Machine.execRegulationFault rail s
  | .tjTrip die => Sys2Proof.Machine.execTjTrip die s
  | .temperatureRead die temp => Sys2Proof.Machine.execTemperatureRead die temp s
  | .cold key => Sys2Proof.Machine.execCold key s
  | .i3cCcc code arg => Sys2Proof.Machine.execI3cCcc code arg s
  | .i3cPrivateWrite reg bytes => Sys2Proof.Machine.execI3cPrivateWrite reg bytes s
  | .i3cPrivateRead n => Sys2Proof.Machine.execI3cPrivateRead n s
  | .sbLatchClr v => Sys2Proof.Machine.execSbLatchClr v s
  | .secKeyRevoke v => Sys2Proof.Machine.execSecKeyRevoke v s
  | .keyRevocationDone slot => Sys2Proof.Machine.execKeyRevocationDone slot s
  | .svnCommit v => Sys2Proof.Machine.execSvnCommit v s
  | .getVersion ep => Sys2Proof.Machine.execGetVersion ep s
  | .getCapabilities ep => Sys2Proof.Machine.execGetCapabilities ep s
  | .negotiateAlgorithms ep extSel => Sys2Proof.Machine.execNegotiateAlgorithms ep extSel s
  | .getDigests ep => Sys2Proof.Machine.execGetDigests ep s
  | .getCertificate ep slot offset length => Sys2Proof.Machine.execGetCertificate ep slot offset length s
  | .challenge ep slot nonce => Sys2Proof.Machine.execChallenge ep slot nonce s
  | .getMeasurements ep index nonce signed => Sys2Proof.Machine.execGetMeasurements ep index nonce signed s
  | .spdmUnsupportedRequest ep code => Sys2Proof.Machine.execSpdmUnsupportedRequest ep code s
  | .dbgToken c len good t => Sys2Proof.Machine.execDbgToken c len good t s
  | .jtagToken t => Sys2Proof.Machine.execJtagToken t s
  | .jtagFlashProgram copy bytes => Sys2Proof.Machine.execJtagFlashProgram copy bytes s
  | .dbgMemGo g => Sys2Proof.Machine.execDbgMemGo g s
  | .dbgMemDone data down => Sys2Proof.Machine.execDbgMemDone data down s
  | .blkCtlWrite addr v => Sys2Proof.Machine.execBlkCtlWrite addr v s
  | .blockQuiesced addr => Sys2Proof.Machine.execBlockQuiesced addr s
  | .bindWindowRead src addr size => Sys2Proof.Machine.execBindWindowRead src addr size s
  | .registerWrite src addr size v => Sys2Proof.Machine.execRegisterWrite src addr size v s
  | .wakeStart => Sys2Proof.Machine.execWakeStart s
  | .fsyncEdge => Sys2Proof.Machine.execFsyncEdge s
  | .fsyncLost => Sys2Proof.Machine.execFsyncLost s
  | .ringLost => Sys2Proof.Machine.execRingLost s
  | .ftmRelock => Sys2Proof.Machine.execFtmRelock s
  | .ringTimeLoad => Sys2Proof.Machine.execRingTimeLoad s
  | .ftmTimeLoRead => Sys2Proof.Machine.execFtmTimeLoRead s
  | .timeSetLoad => Sys2Proof.Machine.execTimeSetLoad s
  | .timeSetExpire => Sys2Proof.Machine.execTimeSetExpire s
  | .scheduledCommandFire => Sys2Proof.Machine.execScheduledCommandFire s
  | .moduleWatchdogExpire => Sys2Proof.Machine.execModuleWatchdogExpire s
  | .wabWaitExpire => Sys2Proof.Machine.execWabWaitExpire s
  | .powerDrainWindowEnd => Sys2Proof.Machine.execPowerDrainWindowEnd s
  | .plrClear => Sys2Proof.Machine.execPlrClear s
  | .fatalFreeze => Sys2Proof.Machine.execFatalFreeze s
  | .dumpWritten => Sys2Proof.Machine.execDumpWritten s
  | .fwStandbyReady => Sys2Proof.Machine.execFwStandbyReady s
  | .fwStandbyTimeout => Sys2Proof.Machine.execFwStandbyTimeout s
  | .formerCoreStandby => Sys2Proof.Machine.execFormerCoreStandby s
  | .bypassClose => Sys2Proof.Machine.execBypassClose s
  | .dlyExchangeSend => Sys2Proof.Machine.execDlyExchangeSend s
  | .heartbeatSend => Sys2Proof.Machine.execHeartbeatSend s
  | .prechargeDone => Sys2Proof.Machine.execPrechargeDone s
  | .prechargeTimeout => Sys2Proof.Machine.execPrechargeTimeout s
  | .pgIntAssert => Sys2Proof.Machine.execPgIntAssert s
  | .fastTrip => Sys2Proof.Machine.execFastTrip s
  | .backoffEnd => Sys2Proof.Machine.execBackoffEnd s
  | .curveCommit => Sys2Proof.Machine.execCurveCommit s
  | .selftest => Sys2Proof.Machine.execSelftest s
  | .measPathFault => Sys2Proof.Machine.execMeasPathFault s
  | .measPathRestore => Sys2Proof.Machine.execMeasPathRestore s
  | .retryCountClear => Sys2Proof.Machine.execRetryCountClear s
  | .powerDown => Sys2Proof.Machine.execPowerDown s
  | .reclosureDone => Sys2Proof.Machine.execReclosureDone s
  | .refclkLoss => Sys2Proof.Machine.execRefclkLoss s
  | .refclkReturn => Sys2Proof.Machine.execRefclkReturn s
  | .bootDone => Sys2Proof.Machine.execBootDone s
  | .coldResetStart => Sys2Proof.Machine.execColdResetStart s
  | .warm => Sys2Proof.Machine.execWarm s
  | .resetNFall => Sys2Proof.Machine.execResetNFall s
  | .resetNRise => Sys2Proof.Machine.execResetNRise s
  | .warmReset => Sys2Proof.Machine.execWarmReset s
  | .pwrEnergyLoRead => Sys2Proof.Machine.execPwrEnergyLoRead s
  | .svnFuseDone => Sys2Proof.Machine.execSvnFuseDone s
  | .tokenVerified => Sys2Proof.Machine.execTokenVerified s
  | .jtagBootStatus => Sys2Proof.Machine.execJtagBootStatus s
  | .dbgLifetimeExpire => Sys2Proof.Machine.execDbgLifetimeExpire s
  | .relock => Sys2Proof.Machine.execRelock s

end Sys2Proof.Machine
end

