-- ==== Sys2Proof/Machine/Step.lean ====
section
/-!
DEFINITION. Sys2Proof/Machine/Step.lean: one step takes the command at the front of the queue; with an empty queue one tick
passes (log 3).
-/
namespace Sys2Proof.Machine

/-- One tick passes, and the routers of the Trail network go on with what waits in them (log 3, 142). -/
def idleTick (s : State) : State := if clockRuns s then s |> parDue |> spdmDue |> passTicks 1 |> skySettle |> trailTick else s

/-- One step of the module. -/
def step (s : State) : Host.Outcome State Fault Refusal :=
  match s.pending with
  | [] => done s (idleTick s)
  | c :: rest => exec c { s with pending := rest }

/-- `s` with a command at the front of its queue. -/
def State.push (c : Instr) (s : State) : State := { s with pending := c :: s.pending }

/-- `s` with the command that the word spells at the front of its queue; no word spells one. -/
def State.withFetchWord (s : State) (nbits w : Nat) : State :=
  match decodeTableWord nbits w with
  | some c => s.push c
  | none => s

end Sys2Proof.Machine
end

