-- ==== Sys2Proof/Safety.lean ====
section
/-!
DEFINITION. Sys2Proof/Safety.lean: the conditions in whose terms the statements are made.
-/
namespace Sys2Proof.Machine

/-- The output pins show what the state calls for (15 Table 15.11). -/
abbrev PinsFollow (s : State) : Prop := s.pins = pinsOf s

/-- A register page takes writes: the module has reached STANDBY, or the page is one that answers before it, and FATAL_HOLD
does not freeze the page (15, after Table 15.10; 17 R322). -/
abbrev Takes (s : State) (pg : Page) : Prop :=
  (s.mode.isUp = true ∨ earlyPage pg = true) ∧ holdsWrites s pg = false

/-- No change of the binding table is overdue: it becomes visible within 32 ticks of its dispatch (06 R117). -/
abbrev NoneOverdue (s : State) : Prop := (s.maps.pend.all fun p => decide (s.tick ≤ p.since + 32)) = true

/-- No counter's parity failure and no signature waits to be acted on in the present tick (13 R254; 16 R313). -/
abbrev NoneWaits (s : State) : Prop :=
  s.tel.parErr = false ∧
    ((List.range 2).all fun ep => (tget none s.sec.spdmProc ep).all fun p => decide (s.tick < p.since + Config.signTicks)) = true

/-- Nothing is left to act on in the present tick before a command of it: no parity failure, no signature, no record of an earlier tick,
no overdue change, no boundary, no scheduled action (02 R38; 13 R261). Fabric time has nothing due while no clock runs or the
module has not reached STANDBY. -/
abbrev NoneDue (s : State) : Prop :=
  NoneWaits s ∧ (clockRuns s = false ∨ s.mode.isUp = false ∨
    ((s.tel.skyWait.all fun w => w.tick == s.tick) = true ∧ NoneOverdue s ∧ (s.time % 2 ^ 7 = 0 → s.ftm.slotDone = s.time) ∧
      (s.time % 2 ^ 17 = 0 → s.ftm.epochDone = s.time) ∧ schedDue s = none))

/-- Fabric time has nothing due on the way to tick `n`, nor in that tick. -/
abbrev NoneDueBy (n : Nat) (s : State) : Prop :=
  (s.maps.pend.all fun p => decide (n ≤ p.since + 32)) = true ∧ NoneDue (advanceTo n s)

/-- No parity failure, no signature and no telemetry record is held in the module. -/
abbrev NoneHeld (s : State) : Prop := s.tel.parErr = false ∧ s.sec.spdmProc = [] ∧ s.tel.skyWait = []

/-- A management core is active and executes commands (12 R238). -/
abbrev CoreActs (s : State) : Prop := s.flt.takeover = false ∧ coreLeft s = true

/-- No command that was dispatched waits for a core that has become active already (12 R238). -/
abbrev NoneParked (s : State) : Prop := s.flt.takeover = true ∨ s.mq.parked = []

/-- The ring of a queue command takes its completion at once: the queue was not reset since, it has not halted, no completion is
held for it, its ring has room, and no write of a completion fails (11 R209, R213, R217, R218). -/
abbrev Hears (s : State) (c : Ctx) : Prop :=
  (flyingOf s c).map (·.orphan) = some false ∧ rdb s (.mq c.ep c.q) F.MQ_Q_STS_DMA_ERR = false ∧
    heldOf s c.ep c.q = [] ∧ cqFull s c.ep c.q = false ∧ tget none s.mq.cplErr (qkey c.ep c.q) = none

/-- No request, cell, early-acknowledged write, home transaction or margining scan is under way in the module. -/
abbrev Quiet (s : State) : Prop :=
  s.core.cells = [] ∧ s.maps.ioWait = [] ∧ s.maps.held = [] ∧ s.maps.fwds = [] ∧ s.maps.waits = [] ∧ s.maps.pend = [] ∧
    s.wab.ents = [] ∧ s.wab.drains = [] ∧ s.home.loq = [] ∧ s.home.alc = [] ∧ s.home.snoops = [] ∧ s.home.slots = [] ∧
    s.ports.scans = [] ∧ s.ports.waits = [] ∧ s.home.found = [] ∧ s.dbg.waiting = none

/-- The final completion of a command is written in the step from `s` to `t` (11 R209). -/
def Completed (s t : State) (c : Ctx) (op st r0 r1 : Nat) : Prop :=
  ∃ i ph hd time addr image, Out.cpl c.ep c.q i ph hd ⟨c, op, st, false, r0, r1, time⟩ addr image ∈ t.out.drop s.out.length

/-- In the step from `s` to `t` a response of an agent of a tile is given on its requester's link, or, where that is of another tile, takes
a cell toward it (01 R11). -/
abbrev Answered (s t : State) (tile : Nat) (x : RspRec) : Prop :=
  Out.rsp x.lead x.tag x.kind x.data x.poison x.md ∈ t.out.drop s.out.length ∨
    (tileOf x.lead ≠ tile ∧ ∃ c ∈ t.core.cells, c.out = x.lead ∧ x ∈ c.rsps)

/-- The response of an SPDM request in process, which is given before anything else on its endpoint (16 R313). -/
abbrev spdmOwed (s : State) (ep : Nat) : List Out := ((tget none s.sec.spdmProc ep).map fun p => .spdm ep p.code p.data).toList

/-- A frame with good CRC for this module, which has a MODID, arrives on a port that holds lock, LOCKING or UP (14 R271). -/
abbrev RingTakes (s : State) (h : GHdr) : Prop :=
  s.glr.bypass = false ∧ (gport s h.onOut).st ≠ 0 ∧ (gport s h.onOut).lostAt = none ∧ h.crcOk = true ∧ h.src ≠ modid s ∧
    h.dst = modid s ∧ hasModid s = true ∧ 1 < h.hops

/-- A frame of the module's own leaves at once on OUT: the module has a MODID, and no frame waits for the budget (14 R272,
R273). -/
abbrev RingSends (s : State) : Prop :=
  s.glr.bypass = false ∧ hasModid s = true ∧ s.glr.outP.st ≠ 0 ∧ s.glr.queue = [] ∧ s.glr.bytes + 36 ≤ 32768

/-- A page whose run state is its own and follows the rules of 17 R324 as they stand. -/
def ownRun : Page → Bool
  | .ftm | .glr | .trnk | .ni _ | .cnp _ => true
  | _ => false

/-- The module runs `n` steps. -/
def runSteps : Nat → State → Ans
  | 0, s => .next s
  | n + 1, s => match step s with
    | .next t => runSteps n t
    | o => o

end Sys2Proof.Machine
end

