-- ==== Sys2Proof/Certificates/Slice0/Obligations.lean ====
section
/-!
DEFINITION. Sys2Proof/Certificates/Slice0/Obligations.lean: the statements for the provers.
-/
open Sys2Proof

open Sys2Proof.Machine

/-- Parts of R17, R18, R19: a router with a free output, at which nothing waits and which has credit of the packet's level, sends a
packet that nothing stands before in its input's buffer on, or delivers it when that was its last hop, with its route shifted and its
hops counted down, and gives its input the credit back; ageing, 1,024 clocks after its header came into the buffer, marks the packet of
level 0 to 2 that has waited longest at the output; a packet that arrives with HOPS 0 or above 12 is discarded with
ROUTE_ERR of the router's management NI, and with the ROUTE_ERR source masked nothing else changes.
That 1,024 clocks are 82 ticks is the model's choice (log 117).
The model's choices here are those of log 3, 117 and 142. -/
def Obligations.TrailRouters : Prop :=
  (∀ (s : State) (router inp : Nat) (p : TPkt) (cred : List Nat), niHolds s router inp p = false → 1 ≤ p.hops → p.hops ≤ 12 →
    (∀ x ∈ s.trail.wait, ¬ (x.router = router ∧ (x.out = p.route % 8 ∨ x.inp = inp ∧ typPrio x.pkt.typ = typPrio p.typ))) →
    tget 0 s.trail.used (credKey router (p.route % 8) (typPrio p.typ)) < 4 + cred.getD (typPrio p.typ) 0 →
    ((Config.localNi router (p.route % 8)).all fun n => niCred s n (typPrio p.typ)) = true →
    ∃ t, exec (.trailPacket router ⟨inp, p⟩ ⟨true, cred⟩) s = .next t ∧ t.trail.wait = s.trail.wait ∧
      t.out = s.out ++ [.trailCredit router inp (typPrio p.typ) (pktFlits p),
        (if p.hops = 1 then Out.trailDeliver else Out.trailHop) router (p.route % 8)
          { p with route := p.route / 8, hops := p.hops - 1 }] ∧
      t.regs = s.regs ∧ t.maps = s.maps ∧ t.core = s.core) ∧
  (∀ (s : State) (router out : Nat) (l r : List RWait) (x : RWait), s.trail.wait = l ++ x :: r →
    RWait.young router out s.trail.wait x = true → (∀ y ∈ l, RWait.young router out s.trail.wait y = false) → clockRuns s = true →
    ∃ t, exec (.packetAged router out) s = .next t ∧
      t.trail.wait = l ++ { x with aged := some s.trail.agedSeq } :: r ∧ t.tick = max s.tick (x.since + 82) ∧ t.out = s.out ∧
        t.regs = s.regs) ∧
  (∀ (s : State) (router inp : Nat) (p : TPkt) (free : Bool) (cred : List Nat), niHolds s router inp p = false →
    p.hops = 0 ∨ 12 < p.hops → srcMasked s 0x0F = true →
    ∃ t, exec (.trailPacket router ⟨inp, p⟩ ⟨free, cred⟩) s = .next t ∧ t.trail = s.trail ∧
      t.out = s.out ++ [.trailCredit router inp (typPrio p.typ) (pktFlits p)] ∧
      rd t (.ni (routerNi router)) F.NI_STS_ROUTE_ERR = 1 ∧ t.mq = s.mq ∧ t.maps = s.maps)

/-- Parts of R20, R21, R37: a network interface takes the time of a message at its instant; a check that agrees changes no copy; a
request that times out is answered, with all ones for a read, and sets TMO; a route entry is written while its NI is STOPPED, and a write at
any other time is discarded and sets CFG_REJECT.
The model's choices here are those of log 3, 22 and 117. -/
def Obligations.TrailInterfaces : Prop :=
  (∀ (s : State) (ni value inst : Nat), clockRuns s = true → s.time < 2 ^ 64 → value < 2 ^ 64 →
    ∃ t, exec (.timeMessage ni value inst false) s = .next t ∧ t.tick = max s.tick inst ∧ niTime t ni = value ∧
      (∀ n, n ≠ ni → tget 0 t.trail.delta n = tget 0 s.trail.delta n) ∧ t.regs = s.regs) ∧
  (∀ (s : State) (ni inst : Nat), inst = s.tick →
    ∃ t, exec (.timeMessage ni (niTime s ni) inst true) s = .next t ∧ t.trail = s.trail ∧ t.regs = s.regs) ∧
  (∀ (s : State) (r : NiReq), (s.trail.reqs.find? fun x => x.ni == r.ni && x.tag == r.tag) = some r → clockRuns s = true →
    ∃ t, exec (.niRequestTimeout r.ni r.tag) s = .next t ∧ t.tick = max s.tick r.deadline ∧
      rd t (.ni r.ni) F.NI_STS_TMO = 1 ∧
      t.out = s.out ++ [.niReply r.ni r.typ r.tag (if r.typ = 0 then [0xFFFFFFFF] else [])] ∧
      t.trail.reqs.length + 1 = s.trail.reqs.length) ∧
  (∀ (s : State) (ni : Nat) (v : Word), NoneDue s → Takes s (.ni ni) → rd s (.ni ni) F.BLK_CTL_RUN = 2 →
    1 ≤ F.NI_RT_HI_HOPS.of v.toNat → F.NI_RT_HI_HOPS.of v.toNat ≤ 12 →
    ∃ t, exec (.niRtHiCommit ni v) s = .next t ∧ t.regs = s.regs ∧
      routeOf t ni (rd s (.ni ni) F.NI_RT_IDX_IDX) =
        ⟨F.NI_RT_HI_VALID.of v.toNat == 1, F.NI_RT_HI_HOPS.of v.toNat,
          F.NI_RT_HI_ROUTE_HI.of v.toNat * 2 ^ 32 + tget 0 s.trail.stage ni⟩) ∧
  (∀ (s : State) (ni : Nat) (v : Word), NoneDue s → Takes s (.ni ni) → rd s (.ni ni) F.BLK_CTL_RUN ≠ 2 →
    ∃ t, exec (.niRtHiCommit ni v) s = .next t ∧ t.trail.routes = s.trail.routes ∧
      rd t (.ni ni) F.BLK_STS_CFG_REJECT = 1)

/-- Parts of R22, R23, R24, R26, R298: power-down of an idle domain, its completion after 300 ticks, a packet of a waking type at a
sleeping domain, the start of a wake that has its token, and the delivery of what the boundary buffer holds 600 ticks later.
The model's choices here are those of log 3, 118 and 143. -/
def Obligations.PortGroupDomains : Prop :=
  (∀ (s : State) (g : Nat), domOf s g = .on → domIdle s g = true →
    ∃ t, exec (.domainPowerDown g) s = .next t ∧ domOf t g = .down s.tick ∧ (∀ h, h ≠ g → domOf t h = domOf s h)) ∧
  (∀ (s : State) (g since : Nat), domOf s g = .down since → bufOf s g = [] → clockRuns s = true →
    ∃ t, exec (.powerDownComplete g) s = .next t ∧ domOf t g = .asleep ∧ t.tick = max s.tick (since + 300) ∧
      rd t (.ni (0x90 + g)) F.NI_STS_ASLEEP = 1) ∧
  (∀ (s : State) (g : Nat) (p : TPkt), domOf s g = .on →
    ∃ t, exec (.boundaryPacket g p) s = .next t ∧ t.out = s.out ++ [.boundary g p] ∧ t.trail = s.trail) ∧
  (∀ (s : State) (g : Nat) (p : TPkt), domOf s g = .asleep → wakingTyp p.typ = true → (bufOf s g).length < 15 →
    ∃ t, exec (.boundaryPacket g p) s = .next t ∧ bufOf t g = bufOf s g ++ [p] ∧ t.out = s.out ∧
      ∃ w ∈ t.trail.wakes, w.g = g) ∧
  (∀ (s : State) (w : Wake), wakeFirst s.trail.wakes = some w → s.trail.tokUsed + tokCost s ≤ tokBudget s →
    ∃ t, exec .wakeStart s = .next t ∧ domOf t w.g = .waking s.tick ∧
      t.trail.tokUsed = s.trail.tokUsed + tokCost s ∧ t.trail.wakes = s.trail.wakes.erase w) ∧
  (∀ (s : State) (g since : Nat), domOf s g = .waking since → clockRuns s = true →
    ∃ t, exec (.wakeComplete g) s = .next t ∧ domOf t g = .on ∧ bufOf t g = [] ∧ t.tick = max s.tick (since + 600) ∧
      t.out = s.out ++ (bufOf s g ++ tget [] s.trail.withheld g).map (.boundary g))

/-- Parts of R27: while REFCLK runs, a step with no command to take and nothing held in the module that time would move adds 1 to
the count, and nothing but the tick and the pins changes beside it (that such a step is one tick is the model's choice, log 3).
The model's choices here are those of log 3, 113 and 160. -/
def Obligations.IdleStepCountsOne : Prop :=
  ∀ s : State, NoneHeld s → s.trail.wait = [] → s.pending = [] → clockRuns s = true → s.time + 1 < 2 ^ 64 →
    ∃ t, step s = .next t ∧ t.time = s.time + 1 ∧ t.tick = s.tick + 1 ∧
      { t with time := s.time, tick := s.tick, pins := s.pins } = s

/-- Parts of R28, R38: a refill-slot boundary and an epoch boundary come at the next instant of their kind; the slot's sample and
power-token budget, the epoch's snapshot number. Nothing is scheduled, held or changing, and of the two boundaries the slot's alone
falls in its tick.
The model's choices here are those of log 3, 4 and 144. -/
def Obligations.Boundaries : Prop :=
  (∀ (s : State) (peakI vmin : Nat) (runs : List CurRun), NoneHeld s → runs = [] ∨ s.pwr.path ≠ .closed ∨
    (∀ x ∈ s.pwr.curve, x.1 = false) → clockRuns s = true → s.maps.pend = [] → s.sched = [] → s.mq.due = [] →
    s.time + 2 ^ 17 < 2 ^ 64 → s.ftm.slotDone ≤ s.time ∨ s.ftm.slotDone = 2 ^ 64 → s.time % 2 ^ 17 < 2 ^ 17 - 2 ^ 7 →
    (s.time % 2 ^ 17 = 0 → s.ftm.epochDone = s.time) →
    ∃ t, exec (.refillSlotBoundary ⟨peakI, runs⟩ vmin []) s = .next t ∧ t.time % 2 ^ 7 = 0 ∧ t.ftm.slotDone = t.time ∧
      t.trail.tokUsed = 0 ∧ rd t .pwr F.PWR_SLOT_MEAS_PEAK_I = min peakI 1023) ∧
  (∀ s : State, NoneHeld s → clockRuns s = true → s.mode = .standby → s.wab.ents = [] → s.wab.notes = [] → s.home.alc = [] →
    s.glr.queue = [] → s.mq.due = [] → s.flt.srcs = [] → s.maps.pend = [] → s.sched = [] →
    s.time + 2 ^ 17 < 2 ^ 64 → s.ftm.epochDone ≤ s.time ∨ s.ftm.epochDone = 2 ^ 64 →
    ∃ t, exec (.epochBoundary ⟨[], []⟩) s = .next t ∧ t.time % 2 ^ 17 = 0 ∧ t.ftm.epochDone = t.time ∧
      t.tel.snapSeq = s.tel.snapSeq + 1)

/-- Parts of R29, R30, R33: the loads of the count: at an FSYNC edge, at the instant of a ring time, and with no source at an epoch
boundary; the end of a TIME_SET for which no instant comes; the return from HOLDOVER to LOCKED after an epoch of agreement.
The model's choices here are those of log 3, 119 and 144. -/
def Obligations.FabricTimeLoads : Prop :=
  (∀ (s : State) (x : TSet), fsSel s = true → clockRuns s = true → s.ftm.tset = some x → s.tick ≤ x.tick + 4 * 2 ^ 17 →
    ∃ t, exec .fsyncEdge s = .next t ∧ t.time = x.e * 2 ^ 17 % 2 ^ 64 ∧ rd t .ftm F.FTM_STS_STATE = 1 ∧ t.ftm.tset = none) ∧
  (∀ (s : State) (v n : Nat), s.ftm.ringPend = some (v, n) → s.tick ≤ n → clockRuns s = true →
    (∀ x ∈ s.ftm.tset, n ≤ x.tick + 4 * 2 ^ 17) →
    ∃ t, exec .ringTimeLoad s = .next t ∧ t.tick = n ∧ t.time = v % 2 ^ 64 ∧ rd t .ftm F.FTM_STS_STATE = 1 ∧
      t.ftm.ringPend = none) ∧
  (∀ (s : State) (x : TSet), s.ftm.tset = some x → rd s .ftm F.FTM_CFG_SRC = 3 → clockRuns s = true →
    s.time % 2 ^ 17 = 0 → x.tick < s.tick → s.tick ≤ x.tick + 4 * 2 ^ 17 →
    ∃ t, exec .timeSetLoad s = .next t ∧ t.time = x.e * 2 ^ 17 % 2 ^ 64 ∧ t.tick = s.tick ∧
      rd t .ftm F.FTM_STS_STATE = 1 ∧ t.ftm.tset = none) ∧
  (∀ (s : State) (x : TSet), s.ftm.tset = some x → clockRuns s = true → s.time < 2 ^ 64 → s.tick ≤ x.tick + 4 * 2 ^ 17 →
    ∃ t, exec .timeSetExpire s = .next t ∧ t.tick = x.tick + 4 * 2 ^ 17 ∧ t.ftm.tset = none ∧
      t.time = (s.time + (t.tick - s.tick)) % 2 ^ 64 ∧ rd t .ftm F.FTM_STS_STATE = rd s .ftm F.FTM_STS_STATE) ∧
  (∀ (s : State) (n : Nat), rd s .ftm F.FTM_STS_STATE = 2 → s.ftm.agreeFs = some n → s.ftm.agreeRing = none →
    n + 2 ^ 17 ≤ s.ftm.lastFs + 2 → clockRuns s = true →
    ∃ t, exec .ftmRelock s = .next t ∧ t.tick = max s.tick (n + 2 ^ 17) ∧ rd t .ftm F.FTM_STS_STATE = 1)

/-- Parts of R31, R359: a selected source is lost after its run of unconfirmed boundaries or epochs, while the other one is still good;
a change of the selected sources sets the OK bit of a source that comes to be selected.
The model's choices here are those of log 3, 71 and 145. -/
def Obligations.FabricTimeSources : Prop :=
  (∀ s : State, fsSel s = true → ftmUnset s = false → rdb s .ftm F.FTM_STS_FSYNC_OK = true →
    rd s .ftm F.FTM_CFG_MISS_LIM ≤ missRun s → ringSel s = true → rdb s .ftm F.FTM_STS_RING_OK = true →
    ∃ t, exec .fsyncLost s = .next t ∧ rdb t .ftm F.FTM_STS_FSYNC_OK = false ∧
      rd t .ftm F.FTM_STS_STATE = rd s .ftm F.FTM_STS_STATE ∧ t.time = s.time ∧ t.ftm = { s.ftm with agreeFs := none }) ∧
  (∀ s : State, ringSel s = true → ftmUnset s = false → rdb s .ftm F.FTM_STS_RING_OK = true →
    2 ≤ s.ftm.ringRun → fsSel s = true → rdb s .ftm F.FTM_STS_FSYNC_OK = true →
    ∃ t, exec .ringLost s = .next t ∧ rdb t .ftm F.FTM_STS_RING_OK = false ∧
      rd t .ftm F.FTM_STS_STATE = rd s .ftm F.FTM_STS_STATE ∧ t.time = s.time ∧ t.ftm = { s.ftm with agreeRing := none }) ∧
  (∀ (s : State) (v : Word), NoneDue s → Takes s .ftm → rd s .ftm F.BLK_CTL_RUN = 2 → rd s .ftm F.FTM_CFG_SRC = 1 →
    F.FTM_CFG_SRC.of v.toNat = 0 → rdb s .ftm F.FTM_STS_RING_OK = true →
    ∃ t, exec (.ftmCfgWrite v) s = .next t ∧ rd t .ftm F.FTM_CFG_SRC = 0 ∧ rdb t .ftm F.FTM_STS_FSYNC_OK = true ∧
      t.ftm.fsRun = 0 ∧ t.time = s.time)

/-- Parts of R34, R39, R41 and Table 2.8: TIME_SET is accepted outside LOCKED with nothing scheduled or in flight; a cancel that is early
enough removes its entry; a read of FTM_TIME_LO latches the high half; an armed action takes effect at its instant, here one that is no
boundary, its NI's copy of fabric time agreeing with the count.
The model's choices here are those of log 3, 44, 98, 120 and 144. -/
def Obligations.ScheduleCommands : Prop :=
  (∀ (s : State) (c : Ctx) (e : Nat), CoreActs s → e < 2 ^ 47 → rd s .ftm F.FTM_STS_STATE ≠ 1 → s.sched = [] → s.ftm.tset = none →
    ∃ t, exec (.timeSet c e) s = .next t ∧ t.ftm = { s.ftm with tset := some ⟨c, e, s.tick, s.time⟩ } ∧
      t.time = s.time ∧ t.regs = s.regs ∧ t.out = s.out) ∧
  (∀ (s : State) (e : SchedEnt), Takes s .ftm → schedEnt s e.idx = some e → s.time + 512 ≤ e.inst → e.owner = .none →
    ∃ t, exec (.ftmSchedCancel e.idx) s = .next t ∧ t.sched = s.sched.filter (fun x => x.idx != e.idx) ∧ t.regs = s.regs) ∧
  (∀ (s : State) (e : SchedEnt) (c d : Ctx) (op : Nat), CoreActs s → schedEnt s e.idx = some e → s.time + 512 ≤ e.inst →
    e.owner = .cmd d op →
    ∃ t, exec (.schedCancel c e.idx) s = .next t ∧ t.sched = s.sched.filter (fun x => x.idx != e.idx) ∧ t.time = s.time) ∧
  (∀ s : State, s.mode.isUp = true →
    ∃ t, exec .ftmTimeLoRead s = .next t ∧ t.out = s.out ++ [.regData 0 0x2040 (s.time % 2 ^ 32)] ∧
      rd t .ftm F.FTM_TIME_HI_TIME_HI = s.time / 2 ^ 32 % 2 ^ 32 ∧ t.time = s.time) ∧
  (∀ (s : State) (e : SchedEnt) (lead part tc q op : Nat) (c : Ctx), schedNext (fun _ => true) s = some e →
    e.act = .quantum lead part tc q → e.owner = .cmd c op → clockRuns s = true → s.time ≤ e.inst → e.inst < 2 ^ 64 →
    NoneHeld s → entTime s e = s.time → s.maps.pend = [] → e.inst % 2 ^ 7 ≠ 0 → frozen s = false → isLead s lead = true →
    ∃ t, exec .scheduledCommandFire s = .next t ∧ t.time = e.inst ∧
      t.sched = s.sched.filter (fun x => x.idx != e.idx) ∧ t.mq.due = s.mq.due ++ [⟨false, e.inst, c, 0x46⟩])

/-- R41: a write of an armed entry's index to FTM_SCHED_CANCEL, or SCHED_CANCEL, at least 512 ticks before the entry's instant
removes the entry, and its command completes with CANCELLED; a later one leaves it armed and sets CANCEL_LATE; one that names no
armed entry changes nothing; SCHED_CANCEL completes with OK and says in RESULT0 whether the entry was removed. -/
def Obligations.ScheduleCancel : Prop :=
  (∀ (s : State) (e : SchedEnt) (d : Ctx) (op : Nat), Takes s .ftm → schedEnt s e.idx = some e → s.time + 512 ≤ e.inst →
    e.owner = .cmd d op → Hears s d →
    ∃ t, exec (.ftmSchedCancel e.idx) s = .next t ∧ t.sched = s.sched.filter (fun x => x.idx != e.idx) ∧
      Completed s t d op St.cancelled 0 0 ∧ rd t .ftm F.FTM_SCHED_STS_CANCEL_LATE = rd s .ftm F.FTM_SCHED_STS_CANCEL_LATE) ∧
  (∀ (s : State) (e : SchedEnt), Takes s .ftm → schedEnt s e.idx = some e → e.inst < s.time + 512 →
    ∃ t, exec (.ftmSchedCancel e.idx) s = .next t ∧ t.sched = s.sched ∧ rd t .ftm F.FTM_SCHED_STS_CANCEL_LATE = 1 ∧
      t.mq = s.mq ∧ t.out = s.out) ∧
  (∀ (s : State) (i : Nat), Takes s .ftm → schedEnt s i = none →
    ∃ t, exec (.ftmSchedCancel i) s = .next t ∧ t.sched = s.sched ∧ t.regs = s.regs ∧ t.mq = s.mq ∧ t.out = s.out) ∧
  (∀ (s : State) (c : Ctx) (e : SchedEnt), CoreActs s → schedEnt s e.idx = some e → s.time + 512 ≤ e.inst → e.owner = .none →
    Hears s c →
    ∃ t, exec (.schedCancel c e.idx) s = .next t ∧ t.sched = s.sched.filter (fun x => x.idx != e.idx) ∧
      Completed s t c 0x03 St.ok 1 0) ∧
  (∀ (s : State) (c : Ctx) (e : SchedEnt), CoreActs s → schedEnt s e.idx = some e → e.inst < s.time + 512 → Hears s c →
    ∃ t, exec (.schedCancel c e.idx) s = .next t ∧ t.sched = s.sched ∧ rd t .ftm F.FTM_SCHED_STS_CANCEL_LATE = 1 ∧
      Completed s t c 0x03 St.ok 0 0) ∧
  (∀ (s : State) (c : Ctx) (i : Nat), CoreActs s → schedEnt s i = none → Hears s c →
    ∃ t, exec (.schedCancel c i) s = .next t ∧ t.sched = s.sched ∧ Completed s t c 0x03 St.ok 0 0)

/-- Parts of R39, Table 2.3: what the first matching row answers for an instant `t` named at fabric time `n`. -/
def Obligations.ScheduleAcceptance : Prop :=
  ∀ (s : State) (inst : Nat) (a : SchedAct) (o : SchedOwner),
    let r := (schedAdd inst a o s).1
    (rd s .ftm F.FTM_STS_STATE = 0 → r = .inr 0x12) ∧
    (rd s .ftm F.FTM_STS_STATE ≠ 0 → inst < s.time + 512 → r = .inr 0x13) ∧
    (rd s .ftm F.FTM_STS_STATE ≠ 0 → s.time + 2 ^ 32 < inst → r = .inr 0x14) ∧
    (rd s .ftm F.FTM_STS_STATE ≠ 0 → s.time + 512 ≤ inst → inst ≤ s.time + 2 ^ 32 → 256 ≤ s.sched.length → r = .inr 0x15) ∧
    (rd s .ftm F.FTM_STS_STATE ≠ 0 → s.time + 512 ≤ inst → inst ≤ s.time + 2 ^ 32 → s.sched.length < 256 →
      ∃ i, i < 256 ∧ r = .inl i ∧ (∀ e ∈ s.sched, e.idx ≠ i) ∧
        (schedAdd inst a o s).2.sched = s.sched ++ [⟨i, inst, s.ftm.order, a, o⟩])

/-- Parts of R46: a valid configuration is put in force; PHY_LINK_CTL sets PERST, waits for LANE_CLR and retrains; PORT_PM stages the
power settings; PORT_STATE starts a stopped link.
The model's choices here are those of log 44 and 121. -/
def Obligations.PortConfiguration : Prop :=
  (∀ (s : State) (p : Nat) (v : Word), NoneDue s → Takes s (.phy p) → memberOf s p = none → cfgErr s p (.of v.toNat) = 0 →
    hpartHeld s p (.of v.toNat) = false → guarSum (putCfg p (.of v.toNat) s) (tileOf p) ≤ 49152 →
    ∃ t, exec (.phyLinkCfgWrite p v) s = .next t ∧ cfgOf t p = .of v.toNat) ∧
  (∀ (s : State) (c : Ctx) (p : Nat) (v : Word), CoreActs s → NoneDue s → p < 512 → frozen s = false → memberOf s p = none →
    cfgErr s p (.of v.toNat) = 0 → hpartHeld s p (.of v.toNat) = false →
    guarSum (putCfg p (.of v.toNat) s) (tileOf p) ≤ 49152 →
    ∃ t, exec (.portCfg c p v) s = .next t ∧ cfgOf t p = .of v.toNat) ∧
  (∀ (s : State) (c : Ctx) (p : Nat) (v : Word), NoneDue s → CoreActs s → p < 512 → frozen s = false → s.mode = .standby →
    memberOf s p = none →
    v.toNat < 2 →
    ∃ t, exec (.portCtl c p v) s = .next t ∧ rd t (.phy p) F.PHY_LINK_CTL_PERST = v.toNat ∧
      rd t (.phy p) F.PHY_LINK_CTL_OFF = 0 ∧ t.ports = s.ports) ∧
  (∀ (s : State) (p : Nat) (on : Bool), NoneDue s → Takes s (.phy p) → memberOf s p = none →
    ∃ t, exec (.perst p on) s = .next t ∧ rd t (.phy p) F.PHY_LINK_CTL_PERST = on.toNat ∧ t.ports = s.ports) ∧
  (∀ (s : State) (p : Nat), NoneDue s → Takes s (.phy p) → memberOf s p = none →
    ∃ t, exec (.laneClr p) s = .next t ∧ rd t (.phy p) F.PHY_LINK_CTL_LANE_CLR = 1 ∧ t.ports = s.ports) ∧
  (∀ (s : State) (p : Nat), NoneDue s → Takes s (.phy p) → memberOf s p = none → linkUp s p = true → s.ports.scans = [] →
    ∃ t, exec (.retrain p) s = .next t ∧ (linkOf t p).phase = .recovery ∧ (linkOf t p).recAt = s.tick) ∧
  (∀ (s : State) (p : Nat), NoneDue s → Takes s (.phy p) → memberOf s p = none → pageRun s (.phy p) = 2 → Quiet s → roleOf s p = 3 →
    ∃ t, exec (.linkOff p true) s = .next t ∧ rd t (.phy p) F.PHY_LINK_CTL_OFF = 1 ∧ (linkOf t p).phase = .off) ∧
  (∀ (s : State) (c : Ctx) (p : Nat) (v : Word), NoneDue s → CoreActs s → p < 512 → frozen s = false → memberOf s p = none →
    ∃ t, exec (.portPm c none p v) s = .next t ∧ rd t (.phy p) F.PHY_PM_CFG_L1_EN = F.PHY_PM_CFG_L1_EN.of v.toNat ∧
      rd t (.phy p) F.PHY_PM_CFG_NARROW_WIDTH = F.PHY_PM_CFG_NARROW_WIDTH.of v.toNat ∧
      t.mq.due = s.mq.due ++ [⟨false, s.time, c, 0x43⟩]) ∧
  (∀ (s : State) (c : Ctx) (p : Nat), NoneDue s → CoreActs s → p < 512 → frozen s = false → memberOf s p = none →
    rd s (.phy p) F.BLK_CTL_RUN = 2 → Quiet s →
    ∃ t, exec (.portState c none p 0) s = .next t ∧ rd t (.phy p) F.BLK_CTL_RUN = 0)

/-- Parts of R46: a write of PHY_LINK_CFG that fails a condition is discarded: CFG_ERR names the condition, CFG_REJECT is set, and the
configuration is as before. -/
def Obligations.PortConfigurationRejected : Prop :=
  ∀ (s : State) (p : Nat) (v : Word), NoneDue s → Takes s (.phy p) → memberOf s p = none → cfgErr s p (.of v.toNat) ≠ 0 →
    ∃ t, exec (.phyLinkCfgWrite p v) s = .next t ∧ rd t (.phy p) F.PHY_LINK_STS_CFG_ERR = cfgErr s p (.of v.toNat) ∧
      rd t (.phy p) F.BLK_STS_CFG_REJECT = 1 ∧ cfgOf t p = cfgOf s p ∧ t.ports = s.ports

/-- Parts of R48 to R51, R53, R56: a quiescing link that holds nothing stops; a trained link reaches L0 with its rate and width; the retry
timer begins training again; a TRUNK link that goes down of its own trains from Detect; presence is noted; Recovery ends in
L0; a far end of the wrong protocol sets PROTO_MISMATCH, and the link tries again after 100 ms.
The model's choices here are those of log 3, 12 and 121. -/
def Obligations.LinkLifecycle : Prop :=
  (∀ (s : State) (p : Nat), NoneDue s → frozen s = false → rd s (.phy p) F.BLK_CTL_RUN = 1 → linkUp s p = true →
    rd s (.phy p) F.PHY_LINK_STS_TX_STATE ≠ 3 → linkEmpty s p = true →
    ∃ t, exec (.linkQuiesced p) s = .next t ∧ rd t (.phy p) F.BLK_CTL_RUN = 2 ∧ (∀ x ∈ t.ports.waits, x.1 ≠ p)) ∧
  (∀ (s : State) (p rate w : Nat) (rev : Bool) (far : FarEnd), NoneDue s → frozen s = false → Quiet s →
    (linkOf s p).phase = .detect →
    (linkOf s p).retryAt = none → offNow s p = false → protoOk (roleOf s p) far = true → commonRate s p far = some rate →
    keepBlock (modLink p (fun l => { l with far := some far }) s) p (min (2 * ctrlsOf s p) (lanesOf far.width)) = some (w, rev) →
    roleOf s p = 3 →
    ∃ t, exec (.linkTrained p far) s = .next t ∧ (linkOf t p).phase = .l0 ∧ (linkOf t p).rev = rev ∧
      rd t (.phy p) F.PHY_LINK_STS_CUR_RATE = rate % 8 ∧ rd t (.phy p) F.PHY_LINK_STS_CUR_WIDTH = laneCode w % 8) ∧
  (∀ (s : State) (p n : Nat), NoneDueBy n s → frozen s = false → (linkOf s p).retryAt = some n → clockRuns s = true →
    s.ports.scans = [] →
    ∃ t, exec (.linkRetryTimer p) s = .next t ∧ t.tick = max s.tick n ∧ (linkOf t p).phase = .detect ∧
      (linkOf t p).retryAt = none) ∧
  (∀ (s : State) (p : Nat), NoneDue s → frozen s = false → Quiet s → roleOf s p = 3 → linkUp s p = true →
    ∃ t, exec (.linkDown p) s = .next t ∧ (linkOf t p).phase = .detect ∧ (linkOf t p).replay = [] ∧
      rd t (.lnk p) F.LNK_SEQ_STS_NEXT_TX = 0) ∧
  (∀ (s : State) (g : Nat), NoneDue s → g ∉ s.ports.prsnt →
    (∀ l ∈ List.range' (4 * g) 4, (vpOfLead s l).all (fun x => (vpOf s x.1 x.2).add.isNone) = true) →
    ∃ t, exec (.prsntChange g true) s = .next t ∧ t.ports.prsnt = s.ports.prsnt ++ [g] ∧ t.regs = s.regs) ∧
  (∀ (s : State) (p w : Nat) (rev : Bool) (reads : List (Nat × CellRead)), NoneDue s → frozen s = false →
    (linkOf s p).phase = .recovery →
    keepBlock s p (linkOf s p).fullW = some (w, rev) → (linkOf s p).replay = [] →
    ∃ t, exec (.linkRecoveryDone ⟨p, reads⟩) s = .next t ∧ (linkOf t p).phase = .l0 ∧
      rd t (.phy p) F.PHY_LINK_STS_CUR_WIDTH = laneCode w % 8) ∧
  (∀ (s : State) (p : Nat) (far : FarEnd), NoneDue s → frozen s = false → (linkOf s p).phase = .detect →
    (linkOf s p).retryAt = none → offNow s p = false → protoOk (roleOf s p) far = false →
    ∃ t, exec (.linkTrained p far) s = .next t ∧ rd t (.phy p) F.PHY_LINK_STS_PROTO_MISMATCH = 1 ∧
      (linkOf t p).phase = .detect ∧ (linkOf t p).retryAt = some (s.tick + 10000000))

/-- Parts of R54, R55: the detectors of an active lane count and start a run; the run that lasts LANE_FAIL.TMO fails the lane and sends
the link into Recovery; signals that return end the run.
The model's choices here are those of log 3. -/
def Obligations.LaneHealth : Prop :=
  (∀ (s : State) (n : Nat), NoneDue s → frozen s = false → expectedActive s n = true → (laneOf s n).los = false → n % 2 = 0 →
    ∃ t, exec (.laneLos n) s = .next t ∧ (laneOf t n).los = true ∧ (laneOf t n).since = some ((laneOf s n).since.getD s.tick) ∧
      rd t (.phy (n / 2)) F.PHY_LANE_CNT0_LOS_CNT = min (rd s (.phy (n / 2)) F.PHY_LANE_CNT0_LOS_CNT + 1) 0xFFFF ∧
      (∀ m, m ≠ n → laneOf t m = laneOf s m)) ∧
  (∀ (s : State) (n : Nat), NoneDue s → frozen s = false → expectedActive s n = true → (laneOf s n).lol = false → n % 2 = 1 →
    rd s (.phy (laneLead s n)) F.PHY_LANE_FAIL_LOL_LIM = 0 →
    ∃ t, exec (.laneLol n) s = .next t ∧ (laneOf t n).lol = true ∧ (laneOf t n).lolSlot = (laneOf s n).lolSlot + 1 ∧
      rd t (.phy (n / 2)) F.PHY_LANE_CNT1_LOL_CNT = min (rd s (.phy (n / 2)) F.PHY_LANE_CNT1_LOL_CNT + 1) 0xFFFF ∧
      (∀ m, m ≠ n → laneOf t m = laneOf s m)) ∧
  (∀ (s : State) (n k : Nat), NoneDueBy (k + rd s (.phy (laneLead s n)) F.PHY_LANE_FAIL_TMO) s → frozen s = false →
    (laneOf s n).since = some k → clockRuns s = true →
    expectedActive s n = true → (laneOf s n).failed = false → s.ports.scans = [] →
    srcMasked s (portSrcNo (laneLead s n) 0) = true → rd s (.phy (laneLead s n)) F.PHY_LINK_CTL_LANE_CLR = 0 →
    (keepBlock (setLane n { laneOf s n with failed := true } s) (laneLead s n) (linkOf s (laneLead s n)).fullW).isSome = true →
    ∃ t, exec (.laneFailTimeout n) s = .next t ∧
      t.tick = max s.tick (k + rd s (.phy (laneLead s n)) F.PHY_LANE_FAIL_TMO) ∧
      (laneOf t n).failed = true ∧ (linkOf t (laneLead s n)).phase = .recovery ∧ (laneOf t n).since = none) ∧
  (∀ (s : State) (n : Nat), NoneDue s → frozen s = false →
    ∃ t, exec (.laneSignalRestored n true true) s = .next t ∧ (laneOf t n).los = false ∧ (laneOf t n).lol = false ∧
      (laneOf t n).since = none ∧ (∀ m, m ≠ n → laneOf t m = laneOf s m) ∧ t.regs = s.regs)

/-- Parts of R58 to R61 and Table 3.3: entering and leaving the power states of a link's directions; none of the entries changes a link
that is not in L0.
The model's choices here are those of log 121 and 122. -/
def Obligations.LinkPowerStates : Prop :=
  (∀ (s : State) (p : Nat), NoneDue s → frozen s = false → linkUp s p = true → 4 ≤ rd s (.phy p) F.PHY_LINK_STS_CUR_RATE →
    rdf s (.phy p) F.PHY_PM_CFG_NARROW_EN = 1 → txState s p = 0 →
    rdf s (.phy p) F.PHY_PM_CFG_NARROW_IDLE ≤ (linkOf s p).idleTx →
    lanesOf (rdf s (.phy p) F.PHY_PM_CFG_NARROW_WIDTH) < lanesOf (rd s (.phy p) F.PHY_LINK_STS_CUR_WIDTH) →
    ∃ t, exec (.narrowEntry p) s = .next t ∧ txState t p = 1 ∧ rxState t p = rxState s p ∧
      t.ports = (modLink p (fun l => { l with txW := lanesOf (rdf s (.phy p) F.PHY_PM_CFG_NARROW_WIDTH) }) s).ports) ∧
  (∀ (s : State) (p w : Nat), NoneDue s → frozen s = false → linkUp s p = true → rxState s p ≤ 1 →
    lanesOf w < lanesOf (rd s (.phy p) F.PHY_LINK_STS_CUR_WIDTH) →
    ∃ t, exec (.l0pRequest p w) s = .next t ∧ rxState t p = 1 ∧ (linkOf t p).rxW = lanesOf w ∧ txState t p = txState s p) ∧
  (∀ (s : State) (p : Nat), NoneDue s → frozen s = false → linkUp s p = true → roleOf s p = 3 → rxState s p ≤ 1 →
    ∃ t, exec (.dozeEntry p true) s = .next t ∧ rxState t p = 2 ∧ txState t p = txState s p ∧ t.ports = s.ports) ∧
  (∀ (s : State) (p : Nat), NoneDue s → frozen s = false → rxState s p = 2 →
    ∃ t, exec (.dozeExit p true) s = .next t ∧ (linkOf t p).exRx = true ∧ t.regs = s.regs) ∧
  (∀ (s : State) (p : Nat), NoneDue s → frozen s = false → linkUp s p = true → roleOf s p ≠ 3 →
    rdf s (.phy p) F.PHY_PM_CFG_L1_EN = 1 → rdf s (.phy p) F.PHY_PM_CFG_L1_IDLE ≤ (linkOf s p).idleTx →
    rdf s (.phy p) F.PHY_PM_CFG_L1_IDLE ≤ (linkOf s p).idleRx → txState s p ≤ 1 → rxState s p ≤ 1 →
    ready s p = false → (linkOf s p).busyRx = false →
    ∃ t, exec (.l1Entry p true) s = .next t ∧ txState t p = 3 ∧ rxState t p = 3 ∧ t.ports = s.ports) ∧
  (∀ (s : State) (p : Nat), NoneDue s → frozen s = false → txState s p = 3 →
    ∃ t, exec (.l1Exit p) s = .next t ∧ (linkOf t p).exTx = true ∧ (linkOf t p).exRx = true ∧ t.regs = s.regs) ∧
  (∀ (s : State) (p : Nat) (rx : Bool), NoneDue s → frozen s = false → txState s p = 3 → (linkOf s p).exTx = true →
    ∃ t, exec (.powerStateExitDone p rx) s = .next t ∧ txState t p = 0 ∧ rxState t p = 0 ∧ (linkOf t p).exTx = false) ∧
  (∀ (s : State) (p w : Nat) (rx agree : Bool), NoneDue s → linkUp s p = false →
    exec (.narrowEntry p) s = done s s ∧ exec (.l0pRequest p w) s = done s s ∧ exec (.dozeEntry p rx) s = done s s ∧
      exec (.l1Entry p agree) s = done s s)

/-- Parts of R63: a margining scan starts on a STOPPED link in L0 in MAINTENANCE; a step with errors ends it with their count; the lane
of a running scan answers a margin command as not ready.
The model's choices here are those of log 3 and 121. -/
def Obligations.Margining : Prop :=
  (∀ (s : State) (p : Nat) (v : Word), NoneDue s → Takes s (.phy p) → s.mode = .maintenance → pageRun s (.phy p) = 2 →
    linkUp s (leadOf s p) = true → txState s (leadOf s p) = 0 → rxState s (leadOf s p) = 0 →
    F.PHY_MARGIN_CTL_START.of v.toNat = 1 → F.PHY_MARGIN_CTL_AXIS.of v.toNat ≤ 1 → F.PHY_MARGIN_CTL_DIR.of v.toNat ≤ 1 →
    1 ≤ F.PHY_MARGIN_CTL_STEPS.of v.toNat → F.PHY_MARGIN_CTL_STEPS.of v.toNat ≤ 127 → 1 ≤ F.PHY_MARGIN_CTL_DWELL.of v.toNat →
    scanning s p = false →
    ∃ t, exec (.marginStart p v) s = .next t ∧ rd t (.phy p) F.PHY_MARGIN_STS_BUSY = 1 ∧
      t.ports.scans = s.ports.scans ++ [⟨p, none, 1, s.tick + F.PHY_MARGIN_CTL_DWELL.of v.toNat⟩]) ∧
  (∀ (s : State) (c : Ctx) (p : Nat) (v : Word), NoneDue s → CoreActs s → p < 512 → s.mode = .maintenance → pageRun s (.phy p) = 2 →
    linkUp s (leadOf s p) = true → txState s (leadOf s p) = 0 → rxState s (leadOf s p) = 0 →
    F.PHY_MARGIN_CTL_START.of v.toNat = 1 → F.PHY_MARGIN_CTL_AXIS.of v.toNat ≤ 1 → F.PHY_MARGIN_CTL_DIR.of v.toNat ≤ 1 →
    1 ≤ F.PHY_MARGIN_CTL_STEPS.of v.toNat → F.PHY_MARGIN_CTL_STEPS.of v.toNat ≤ 127 → 1 ≤ F.PHY_MARGIN_CTL_DWELL.of v.toNat →
    scanning s p = false →
    ∃ t, exec (.margin c p v) s = .next t ∧ rd t (.phy p) F.PHY_MARGIN_STS_BUSY = 1 ∧
      t.ports.scans = s.ports.scans ++ [⟨p, some c, 1, s.tick + F.PHY_MARGIN_CTL_DWELL.of v.toNat⟩]) ∧
  (∀ (s : State) (p errs : Nat) (m : MarginS), NoneDueBy m.due s → frozen s = false → clockRuns s = true →
    (s.ports.scans.find? fun x => x.ctl == p) = some m → m.ctx = none → errs ≠ 0 →
    againNow (advanceTo m.due s) (.phy p) F.PHY_MARGIN_CTL_START = false →
    ∃ t, exec (.marginStepDone p errs) s = .next t ∧ t.tick = max s.tick m.due ∧
      rd t (.phy p) F.PHY_MARGIN_STS_ERR_CNT = min errs 0xFFFF ∧ rd t (.phy p) F.PHY_MARGIN_STS_RESULT = 1 ∧
      rd t (.phy p) F.PHY_MARGIN_STS_BUSY = 0 ∧ scanning t p = false) ∧
  (∀ (s : State) (p lane cmd : Nat), frozen s = false → scanning s p = false →
    ∃ t, exec (.laneMarginCommand p lane cmd) s = .next t ∧ t.out = s.out ++ [.marginRsp p lane true] ∧ t.ports = s.ports)

/-- Parts of R68 to R70, R72: a good flit in sequence advances NEXT_RX and its message becomes a cell of its flow; an acknowledgement
frees the flits it covers and returns credit; a request for replay and the replay timer count a replay.
The model's choices here are those of log 10, 14, 31, 32 and 33. -/
def Obligations.LinkReceiveAndReplay : Prop :=
  (∀ (s : State) (p draw : Nat) (f : Flit) (m : RxMsg), NoneDue s → canReceive s p = true → s.core.cells = [] → s.core.grps = [] →
    f.phase = 0 → f.crc1 = true → f.crc2 = true → f.fecFail = false → f.seq % 1024 = rd s (.lnk p) F.LNK_SEQ_STS_NEXT_RX →
    rd s (.lnk p) F.LNK_STS_MODE = 2 → f.msgs = [m] → m.slots ≤ 15 →
    ∃ t, exec (.flitReceive p f draw) s = .next t ∧
      rd t (.lnk p) F.LNK_SEQ_STS_NEXT_RX = (rd s (.lnk p) F.LNK_SEQ_STS_NEXT_RX + 1) % 1024 ∧
      t.core.cells.map (fun c => (c.out, c.part, c.tc, c.oc, c.tags)) = [(m.out, m.part, (restoreTc s p m).tc, m.oc, [m.tag])]) ∧
  (∀ (s : State) (p seq : Nat) (credits : List Nat), NoneDue s → frozen s = false → linkUp s p = true → s.core.cells = [] →
    ∃ t, exec (.flitAcknowledge p seq credits) s = .next t ∧ (∀ k,
      tget 0 (linkOf t p).credit k = tget 0 (linkOf s p).credit k + credits.getD k 0) ∧
      (linkOf t p).replay = (linkOf s p).replay.filter (fun e => !decide ((seq + 1024 - e.seq) % 1024 < 512)) ∧
      (∀ q, q ≠ p → linkOf t q = linkOf s q)) ∧
  (∀ (s : State) (p seq : Nat) (reads : List (Nat × CellRead)), NoneDue s → canReceive s p = true → s.core.cells = [] →
    ((linkOf s p).replay.any fun e => decide ((e.seq + 1024 - seq % 1024) % 1024 < 512)) = true →
    (linkOf s p).replays < rd s (.lnk p) F.LNK_REPLAY_CFG_LIM → srcMasked s (portSrcNo p 1) = true →
    ∃ t, exec (.replayRequest p ⟨seq, reads⟩) s = .next t ∧ (linkOf t p).replays = (linkOf s p).replays + 1 ∧
      rd t (.lnk p) F.LNK_REPLAY_CNT_REPLAYS = min (rd s (.lnk p) F.LNK_REPLAY_CNT_REPLAYS + 1) 0xFFFF ∧
      (linkOf t p).phase = .l0) ∧
  (∀ (s : State) (p n : Nat) (reads : List (Nat × CellRead)), NoneDueBy (n + rd s (.lnk p) F.LNK_REPLAY_CFG_TMO) s →
    frozen s = false → linkUp s p = true → s.core.cells = [] → clockRuns s = true →
    (linkOf s p).ackFrom = some n → (linkOf s p).replay ≠ [] →
    (linkOf s p).replays < rd s (.lnk p) F.LNK_REPLAY_CFG_LIM → srcMasked s (portSrcNo p 1) = true →
    ∃ t, exec (.replayTimerExpire ⟨p, reads⟩) s = .next t ∧ t.tick = max s.tick (n + rd s (.lnk p) F.LNK_REPLAY_CFG_TMO) ∧
      (linkOf t p).replays = (linkOf s p).replays + 1 ∧ (linkOf t p).ackFrom = some t.tick)

/-- Parts of R69: a flit that fails its CRC is discarded; a replay is requested from the number expected, and no cell is built. -/
def Obligations.BadFlitDiscarded : Prop :=
  ∀ (s : State) (p draw : Nat) (f : Flit), NoneDue s → canReceive s p = true → (linkOf s p).rxHalf = none → f.phase = 0 →
    f.crc1 = false →
    f.fecFail = false →
    ∃ t, exec (.flitReceive p f draw) s = .next t ∧ t.core = s.core ∧
      t.out = s.out ++ [.replayReq p (rd s (.lnk p) F.LNK_SEQ_STS_NEXT_RX)] ∧
      rd t (.lnk p) F.LNK_SEQ_STS_NEXT_RX = rd s (.lnk p) F.LNK_SEQ_STS_NEXT_RX ∧
      rd t (.lnk p) F.LNK_RX_CNT_CRC_ERR = min (rd s (.lnk p) F.LNK_RX_CNT_CRC_ERR + 1) (2 ^ F.LNK_RX_CNT_CRC_ERR.width - 1)

/-- Parts of R68, R73, R78 to R80: a cell at the head of the TC3 queue leaves as the next flit and takes one credit; a trunk flit for a
port of this module becomes a cell for that port; an injection is armed in MAINTENANCE.
The model's choices here are those of log 31 and 138. -/
def Obligations.LinkSendTrunkAndInject : Prop :=
  (∀ (s : State) (p : Nat) (c : Cell), NoneDue s → frozen s = false → isLead s p = true → noSelect s p = false →
    onWire s p = false →
    roleOf s p ≠ 3 → wholeFlits s p = true → linkUp s p = true → queueHead s p 384 (listHeads (egressCells s p)) = some c →
      cellOf s c.id = some c → c.tc = 3 → (linkOf s p).inj = none →
    ∃ t, exec (.egressSelect p ⟨[], 0, false⟩) s = .next t ∧ tget 0 (linkOf t p).credit c.oc = tget 0 (linkOf s p).credit c.oc - 1 ∧
      rd t (.lnk p) F.LNK_SEQ_STS_NEXT_TX = (rd s (.lnk p) F.LNK_SEQ_STS_NEXT_TX + 1) % 1024 ∧
      .sentFlit p (rd s (.lnk p) F.LNK_SEQ_STS_NEXT_TX) c.id 0 none c.pois (checkCodes s p c 0) ∈ t.out) ∧
  (∀ (s : State) (p : Nat) (h : DWord) (f : Flit) (m : RxMsg) (u : Upset) (clk : Nat), NoneDue s → canReceive s p = true →
    s.core.cells = [] →
    s.core.grps = [] → f.phase = 0 → f.crc1 = true → f.crc2 = true → f.fecFail = false →
    f.seq % 1024 = rd s (.lnk p) F.LNK_SEQ_STS_NEXT_RX → rd s (.lnk p) F.LNK_STS_MODE = 3 → f.msgs = [m] → m.slots ≤ 15 →
      trunkJudge s h = .deliver (hdrPort h) →
    ∃ t, exec (.trunkFlitReceive p h f ⟨none, u, clk⟩) s = .next t ∧
      t.core.cells.map (fun c => (c.out, c.part, c.tc)) = [(hdrPort h, hdrPart h, hdrTc h)]) ∧
  (∀ (s : State) (p : Nat) (v : Word), Takes s (.lnk p) → memberOf s p = none → F.LNK_INJ_CTL_ARM.of v.toNat = 1 →
    s.mode = .maintenance → linkUp s p = true → 1 ≤ F.LNK_INJ_CTL_N.of v.toNat →
    ∃ t, exec (.lnkInjArm p v) s = .next t ∧ rd t (.lnk p) F.LNK_INJ_CTL_ARM = 1 ∧
      (linkOf t p).inj = some (F.LNK_INJ_CTL_KIND.of v.toNat, F.LNK_INJ_CTL_N.of v.toNat, F.LNK_INJ_CTL_BYTE.of v.toNat)) ∧
  (∀ (s : State) (c : Ctx) (p : Nat) (v : Word), CoreActs s → p < 512 → memberOf s p = none → F.LNK_INJ_CTL_ARM.of v.toNat = 1 →
    s.mode = .maintenance → linkUp s p = true → 1 ≤ F.LNK_INJ_CTL_N.of v.toNat →
    ∃ t, exec (.inject c 0 p v) s = .next t ∧ rd t (.lnk p) F.LNK_INJ_CTL_ARM = 1 ∧
      (linkOf t p).inj = some (F.LNK_INJ_CTL_KIND.of v.toNat, F.LNK_INJ_CTL_N.of v.toNat, F.LNK_INJ_CTL_BYTE.of v.toNat))

/-- Parts of R84, R91, R92, R97, R98, R107: an open cell closes into its VOQ; a transfer that is good puts the copy into its egress queue
and frees the source; the arrival of a bundle whose number is due is linked. -/
def Obligations.CellsMove : Prop :=
  (∀ (s : State) (p : Nat) (c : Cell), NoneDue s → frozen s = false → s.core.cells = [c] → c.inp = .link p → c.isOpen = true →
    c.stage = .opened →
    ∃ t, exec (.openCellIdleClose p) s = .next t ∧ t.core.cells.map (fun x => (x.id, x.stage)) = [(c.id, .voq)]) ∧
  (∀ (s : State) (c d : Cell) (o : Nat) (rx : List (Nat × DWord × Nat)), NoneDue s → frozen s = false → s.core.cells = [c, d] →
    c.id ≠ d.id →
    c.bad = false →
    c.stage = .moving d.id → d.stage = .copy c.id → d.allow = .egr o → s.core.doneHeld = [] → unsure s c = false →
    dropsAtHost s d = false → transferOk c rx = true →
    ∃ t, exec (.cellTransferDone c.id rx) s = .next t ∧
      t.core.cells.map (fun x => (x.id, x.stage, x.fwds)) = [(d.id, .egress, c.fwds)]) ∧
  (∀ (s : State) (tile peer : Nat) (c : Cell), NoneDue s → frozen s = false → s.core.cells = [c] → c.tile = tile →
    c.allow = .arr peer → c.stage = .unlinked → tget 0 s.core.bseqRx (8 * tile + peer) = c.bseq → c.bseq < 1023 →
    tget 0 s.core.bseqTx (8 * peer + tile) = c.bseq + 1 →
    ∃ t, exec (.bundleArrival tile peer) s = .next t ∧ t.core.cells.map (fun x => (x.id, x.stage)) = [(c.id, .voq)] ∧
      tget 0 t.core.bseqRx (8 * tile + peer) = c.bseq + 1)

/-- Parts of R95, R97: a cell of a port that waits alone for a free output of its tile is matched: it moves, and its copy takes an egress
place. -/
def Obligations.SchedulerMatchesLoneCell : Prop :=
  ∀ (s : State) (p : Nat) (c : Cell), NoneDue s → frozen s = false → rd s (.cnp c.tile) F.BLK_CTL_RUN = 0 → s.core.cells = [c] →
    s.core.repeats = [] → s.core.starve = [] → s.core.gptr = [] → s.core.aptr = [] → s.core.rot = [] →
    c.inp = .link p → c.allow = .ing p → c.stage = .voq → c.bad = false → c.hdrBad = false → c.out < 512 →
    c.tc < 4 → c.oc = 3 → tileOf c.out = c.tile → 1 ≤ linkPaths s p → 1 ≤ linkPaths s c.out → c.id < s.core.nextId →
    (canAllocate s c.tile (.egr c.out) c.tc).isSome = true → 1 ≤ rdf s (.cnp c.tile) F.CNP_SCHED_CFG_LOCAL_STARVE →
    ∃ t, exec (.schedDecision ⟨c.tile, []⟩) s = .next t ∧
      t.core.cells.map (fun x => (x.id, x.stage)) =
        [(c.id, .moving s.core.nextId), (s.core.nextId, .copy c.id)]

/-- Parts of R111, R114, R118, R119: a read from a partition in RUN that hits a local entry of its own, in RUN and with the right, is
forwarded to the entry's target at the device address of its offset. -/
def Obligations.HostReadForwarded : Prop :=
  ∀ (s : State) (p idx : Nat) (r : Req) (b : Binding), NoneDue s → canReceive s p = true → Quiet s → roleOf s p = 1 →
    resetting s (hpartOf s p) = false → partSt s (hpartOf s p) = 0 → r.op = .memRd → r.space = .mem →
    pmdOff s (hpartOf s p) r < rd s (.pmd (hpartOf s p)) F.PMD_CFG_CAP * 2 ^ 21 → pmdOff s (hpartOf s p) r ≠ noOff →
    lookupOff s (hpartOf s p) (pmdOff s (hpartOf s p) r) = some (idx, b) → b.stopped = false → r.allowed b = true →
    b.kind = 0 → b.shared = false → usable s b.out = true →
    ∃ t, exec (.hostRequest p r Upset.none) s = .next t ∧
      t.maps.fwds.map (fun f => (f.part, f.bind, f.lead, f.req)) = [(hpartOf s p, some idx, p, r)] ∧
      t.maps.fwds.map (fun f => (f.agent, f.out, f.ld, f.dpa)) =
        [(.host, b.out, b.ld, b.dpaOf (pmdOff s (hpartOf s p) r))]

/-- R111: a CXL.mem request that arrives while the decoder is uncommitted, or whose PMD offset is not below PMD_CFG.CAP, meets no
binding and receives the NOBIND outcome of Table 6.4: NOBIND is counted, a read returns all-ones data with poison, and a write
completes as one that proceeds. -/
def Obligations.UnboundRequest : Prop :=
  (∀ (s : State) (p : Nat) (r : Req) (u : Upset), NoneDue s → canReceive s p = true → s.home.alc = [] →
    roleOf s p = 1 →
    resetting s (hpartOf s p) = false → partSt s (hpartOf s p) = 0 → r.space = .mem → r.op = .memRd →
    rd s (.pmd (hpartOf s p)) F.PMD_STS_DEC_COMMIT = 0 ∨
      rd s (.pmd (hpartOf s p)) F.PMD_CFG_CAP * 2 ^ 21 ≤ pmdOff s (hpartOf s p) r →
    ∃ t, exec (.hostRequest p r u) s = .next t ∧ .rsp p r.tag .drs allOnesLine.toNat true r.md ∈ t.out ∧
      rd t (.pmd (hpartOf s p)) F.PMD_FAULT_CNT0_NOBIND = min (rd s (.pmd (hpartOf s p)) F.PMD_FAULT_CNT0_NOBIND + 1) 0xFFFF ∧
      t.maps.fwds = s.maps.fwds ∧ t.maps.held = s.maps.held ∧ t.core = s.core ∧ t.home = s.home) ∧
  (∀ (s : State) (p : Nat) (r : Req) (u : Upset), NoneDue s → canReceive s p = true → s.home.alc = [] →
    roleOf s p = 1 →
    resetting s (hpartOf s p) = false → partSt s (hpartOf s p) = 0 → r.space = .mem →
    r.op ∈ [.memInv, .memWr, .memWrPtl, .memClnEvct] →
    rd s (.pmd (hpartOf s p)) F.PMD_STS_DEC_COMMIT = 0 ∨
      rd s (.pmd (hpartOf s p)) F.PMD_CFG_CAP * 2 ^ 21 ≤ pmdOff s (hpartOf s p) r →
    ∃ t, exec (.hostRequest p r u) s = .next t ∧ .rsp p r.tag .ndr 0 false r.md ∈ t.out ∧
      rd t (.pmd (hpartOf s p)) F.PMD_FAULT_CNT0_NOBIND = min (rd s (.pmd (hpartOf s p)) F.PMD_FAULT_CNT0_NOBIND + 1) 0xFFFF ∧
      t.maps.fwds = s.maps.fwds ∧ t.maps.held = s.maps.held ∧ t.core = s.core ∧ t.home = s.home ∧ t.wab.ents = s.wab.ents)

/-- Parts of R114, Table 6.4: a target's answer to a forwarded read reaches the link that asked, with the tag of its request, and the
forward is gone; toward a link of another tile it goes in a cell of the request's traffic class.
The model's choices here are those of log 24 and 147. -/
def Obligations.TargetAnswers : Prop :=
  (∀ (s : State) (f : Fwd) (data : LineData), NoneDue s → canReceive s f.out = true → s.home.found = [] → s.dbg.waiting = none →
    s.maps.fwds = [f] → s.core.cells = [] → s.core.rob = [] → s.maps.ioWait = [] → s.maps.held = [] → s.maps.waits = [] →
    s.home.loq = [] → f.agent = .host → f.dropped = false → f.job = none → f.fromVp = none → f.req.op = .memRd →
    resetting s f.part = false → 512 ≤ f.lead ∨ tileOf f.lead = tileOf f.out →
    ∃ t, exec (.targetResponse f.out f.id true data false) s = .next t ∧ t.maps.fwds = [] ∧
      .rsp f.lead f.req.tag .drs data.toNat false f.req.md ∈ t.out) ∧
  (∀ (s : State) (f : Fwd) (data : LineData), NoneDue s → canReceive s f.out = true → s.home.found = [] → s.dbg.waiting = none →
    s.maps.fwds = [f] → s.core.cells = [] → s.core.rob = [] → s.maps.ioWait = [] → s.maps.held = [] → s.maps.waits = [] →
    s.home.loq = [] → f.agent = .host → f.dropped = false → f.job = none → f.fromVp = none → f.req.op = .memRd →
    resetting s f.part = false → f.lead < 512 → tileOf f.lead ≠ tileOf f.out →
    ∃ t, exec (.targetResponse f.out f.id true data false) s = .next t ∧ t.maps.fwds = [] ∧
      t.core.cells.map (fun c => (c.out, c.tile, c.tc, c.rsps)) =
        [(f.lead, tileOf f.out, f.tc, [⟨f.lead, f.req.tag, .drs, data.toNat, false, f.req.md⟩])])

/-- Parts of R113, R117: a new entry that passes every check is dispatched at a free index; it becomes visible at its Tc, with GEN 0.
The model's choices here are those of log 3. -/
def Obligations.BindAddAccepted : Prop :=
  (∀ (s : State) (c : Ctx) (q0 q1 q2 q3 : DWord), NoneDue s → CoreActs s → Quiet s →
    partSt s (Binding.ofWords q0.toNat q1.toNat q2.toNat q3.toNat).part ≠ 1 →
    bindJudge s (.ofWords q0.toNat q1.toNat q2.toNat q3.toNat) none = none →
    (s.maps.binds.filter fun e => e.2.valid).length < 262144 →
    ∃ t, exec (.bindAdd c false 0 q0 q1 q2 q3) s = .next t ∧ t.maps.binds = s.maps.binds ∧
      ∃ i, i < 262144 ∧ (bindOf s i).valid = false ∧
        t.maps.pend = [⟨i, .place (.ofWords q0.toNat q1.toNat q2.toNat q3.toNat), some c, 0x20, false, s.tick⟩]) ∧
  (∀ (s : State) (idx op n : Nat) (c : Ctx) (b : Binding), NoneDue s → frozen s = false →
    s.maps.pend = [⟨idx, .place b, some c, op, false, n⟩] → (bindOf s idx).valid = false →
    ∃ t, exec (.bindTc idx) s = .next t ∧ bindOf t idx = { b with gen := 0 } ∧ t.maps.pend = [] ∧
      (∀ j, j ≠ idx → bindOf t j = bindOf s j))

/-- Parts of R122, R123, R117: BIND_DEL of an entry of a STOPPED partition, and its Tc; BIND_DEL of an entry of a running one, which asks
the host, and its timeout; BIND_STOP, its Tc and its end; BIND_START.
The model's choices here are those of log 3. -/
def Obligations.BindingChanges : Prop :=
  (∀ (s : State) (c : Ctx) (idx tmo : Nat), NoneDue s → CoreActs s → 0 < tmo → tmo < 2 ^ 32 → (bindOf s idx).valid = true →
    bindBusy s idx = false →
    partSt s (bindOf s idx).part = 2 →
    ∃ t, exec (.bindDel c idx tmo) s = .next t ∧ t.maps.pend = s.maps.pend ++ [⟨idx, .remove, some c, 0x21, false, s.tick⟩] ∧
      t.regs = s.regs) ∧
  (∀ (s : State) (c : Ctx) (idx tmo : Nat), NoneDue s → CoreActs s → 0 < tmo → tmo < 2 ^ 32 → (bindOf s idx).valid = true →
    bindBusy s idx = false →
    partSt s (bindOf s idx).part = 0 → (bindOf s idx).kind = 0 →
    ∃ t, exec (.bindDel c idx tmo) s = .next t ∧ t.out = s.out ++ [.dcAsk (bindOf s idx).part idx] ∧
      t.maps.waits = s.maps.waits ++ [⟨idx, true, some c, some (s.tick + tmo), false, s.tick, bindOf s idx⟩]) ∧
  (∀ (s : State) (idx op n : Nat) (c : Ctx), NoneDue s → frozen s = false → s.maps.pend = [⟨idx, .remove, some c, op, false, n⟩] →
    s.maps.held = [] → s.maps.waits = [] → s.maps.ioWait = [] → (bindOf s idx).valid = true →
    ∃ t, exec (.bindTc idx) s = .next t ∧ (bindOf t idx).valid = false ∧ (∀ j, j ≠ idx → bindOf t j = bindOf s j)) ∧
  (∀ (s : State) (idx n : Nat) (w : BWait), NoneDueBy n s → clockRuns s = true →
    (s.maps.waits.find? fun w => w.idx == idx && w.del && w.deadline.isSome) = some w → w.deadline = some n →
    ∃ t, exec (.bindDelTimeout idx) s = .next t ∧ t.tick = max s.tick n ∧ t.maps.waits = s.maps.waits.filter (· ≠ w) ∧
      t.maps.binds = s.maps.binds) ∧
  (∀ (s : State) (c : Ctx) (idx : Nat), NoneDue s → CoreActs s → (bindOf s idx).valid = true → bindBusy s idx = false →
    ∃ t, exec (.bindStop c none idx) s = .next t ∧ t.maps.pend = s.maps.pend ++ [⟨idx, .stop, some c, 0x22, false, s.tick⟩] ∧
      t.maps.binds = s.maps.binds) ∧
  (∀ (s : State) (idx op n : Nat) (c : Ctx), NoneDue s → frozen s = false → s.maps.pend = [⟨idx, .stop, some c, op, false, n⟩] →
    (bindOf s idx).valid = true → (bindOf s idx).stopped = false →
    ∃ t, exec (.bindTc idx) s = .next t ∧ (bindOf t idx).stopped = true ∧ (bindOf t idx).qstop = false ∧
      (∃ w ∈ t.maps.waits, w.idx = idx ∧ w.del = false)) ∧
  (∀ (s : State) (idx : Nat) (w : BWait), NoneDue s → (s.maps.waits.find? fun w => w.idx == idx && !w.del) = some w →
    bindIdle s idx (some w.tc) = true →
    ∃ t, exec (.bindStopped idx) s = .next t ∧ (bindOf t idx).qstop = true ∧ t.maps.waits = s.maps.waits.filter (· ≠ w)) ∧
  (∀ (s : State) (c : Ctx) (idx : Nat), NoneDue s → CoreActs s → (bindOf s idx).valid = true → bindBusy s idx = false →
    ∃ t, exec (.bindStart c none idx) s = .next t ∧ t.maps.pend = s.maps.pend ++ [⟨idx, .start, some c, 0x23, false, s.tick⟩] ∧
      t.maps.binds = s.maps.binds)

/-- Parts of R121, R122, R124, R110: the host accepts an extent, or releases one of its own; a request held too long is no longer held;
the host commits the one decoder, or tries to with values that the rule does not let.
The model's choices here are those of log 3 and 106. -/
def Obligations.DynamicCapacityAndDecoder : Prop :=
  (∀ (s : State) (idx : Nat), NoneDue s → frozen s = false → s.maps.offers.contains idx = true →
    ∃ t, exec (.dcResponse idx true) s = .next t ∧ t.maps.extents = s.maps.extents ++ [idx] ∧ idx ∉ t.maps.offers ∧
      t.maps.binds = s.maps.binds ∧ t.maps.pend = s.maps.pend) ∧
  (∀ (s : State) (part off len idx : Nat) (b : Binding), NoneDue s → frozen s = false → s.maps.waits = [] → s.maps.pend = [] →
    (s.maps.binds.find? fun e =>
      e.2.valid && e.2.hasOff && e.2.part == part && e.2.base == off && e.2.bytes == len) = some (idx, b) →
    ∃ t, exec (.releaseDynamicCapacity part off len) s = .next t ∧ t.maps.pend = [⟨idx, .remove, none, 0, true, s.tick⟩] ∧
      t.maps.binds = s.maps.binds) ∧
  (∀ (s : State) (h : Held) (n i : Nat), NoneDueBy n s → frozen s = false → clockRuns s = true → s.maps.held = [h] →
    s.maps.ioWait = [] →
    h.deadline = some n → h.bind = some i → (bindOf s i).stopped = true → h.via = none → h.fromVp = none →
    h.req.op = .memRd →
    ∃ t, exec (.holdTimeout h.id) s = .next t ∧ t.tick = max s.tick n ∧ t.maps.held = []) ∧
  (∀ (s : State) (part base : Nat), NoneDue s → frozen s = false → base % 2 ^ 40 = 0 → base < 2 ^ 64 →
    ∃ t, exec (.decoderCommit part base (rd s (.pmd part) F.PMD_CFG_CAP * 2 ^ 21) 1) s = .next t ∧
      rd t (.pmd part) F.PMD_STS_DEC_COMMIT = 1 ∧ rd t (.pmd part) F.PMD_BASE_HI_BASE = base / 2 ^ 32 ∧
      t.maps = { s.maps with decFail := tput 0 s.maps.decFail part 0 }) ∧
  (∀ (s : State) (part base size ways : Nat), NoneDue s → frozen s = false → base % 2 ^ 40 ≠ 0 ∨ ways ≠ 1 →
    ∃ t, exec (.decoderCommit part base size ways) s = .next t ∧
      rd t (.pmd part) F.PMD_STS_DEC_COMMIT = 0 ∧ rd t (.pmd part) F.PMD_STS_DEC_ERR = 1 ∧
      t.maps = { s.maps with decFail := tput 0 s.maps.decFail part 1 })

/-- Parts of R125, R126: HP_ADD binds a DEVICE link to a free virtual port; HP_REMOVE of a powered one presses the attention button and
waits; its timeout; slot power off ends it.
The model's choices here are those of log 3, 105 and 129. -/
def Obligations.HotPlug : Prop :=
  (∀ (s : State) (c : Ctx) (part vp lead : Nat), NoneDue s → CoreActs s → vp ≠ 0 → vp < 64 → part < 128 → lead < 512 →
    roleOf s lead = 2 →
    isLead s lead = true → vpOfLead s lead = none → isTarget s lead = false → (vpOf s part vp).lead = none →
    ∃ t, exec (.hpAdd c part vp lead) s = .next t ∧ (vpOf t part vp).lead = some lead ∧ (vpOf t part vp).rm = none ∧
      t.maps.binds = s.maps.binds ∧ t.ports = s.ports) ∧
  (∀ (s : State) (c : Ctx) (part vp tmo lead : Nat), NoneDue s → CoreActs s → vp ≠ 0 → vp < 64 → part < 128 →
    (vpOf s part vp).lead = some lead →
    (vpOf s part vp).rm = none → (vpOf s part vp).pwr = true →
    ∃ t, exec (.hpRemove c part vp tmo) s = .next t ∧ (vpOf t part vp).rm = some (c, s.tick + tmo) ∧
      t.out = s.out ++ [.vpNotice part vp 4] ∧ t.regs = s.regs) ∧
  (∀ (s : State) (c : Ctx) (part vp n : Nat), NoneDueBy n s → (vpOf s part vp).rm = some (c, n) → clockRuns s = true →
    ∃ t, exec (.hpRemoveTimeout part vp) s = .next t ∧ (vpOf t part vp).rm = none ∧ t.tick = max s.tick n ∧
      (vpOf t part vp).lead = (vpOf s part vp).lead) ∧
  (∀ (s : State) (c : Ctx) (part vp n lead : Nat), NoneDue s → frozen s = false → vp ≠ 0 → vp < 64 →
    (vpOf s part vp).lead = some lead → (vpOf s part vp).rm = some (c, n) →
    ∃ t, exec (.slotPower part vp false) s = .next t ∧ (vpOf t part vp).lead = none ∧ (vpOf t part vp).pwr = false ∧
      rd t (.phy lead) F.PHY_LINK_CTL_PERST = 1)

/-- Parts of R128, R131, R132, R134, R136, R137: an eligible write takes an entry, is answered, and its forward goes out; the target's
acknowledgement retires the entry, an error or the timeout strands it; a stranded entry is reissued with its data, and
WAB_DISCARD removes those of its partition and binding.
The model's choices here are those of log 3, 108, 148, 149 and 161. -/
def Obligations.EarlyAckedWrites : Prop :=
  (∀ (s : State) (p idx : Nat) (r : Req) (b : Binding), NoneDue s → canReceive s p = true → Quiet s → roleOf s p = 1 →
    resetting s (hpartOf s p) = false → partSt s (hpartOf s p) = 0 → r.op = .memWr → r.space = .mem →
    pmdOff s (hpartOf s p) r < rd s (.pmd (hpartOf s p)) F.PMD_CFG_CAP * 2 ^ 21 → pmdOff s (hpartOf s p) r ≠ noOff →
    lookupOff s (hpartOf s p) (pmdOff s (hpartOf s p) r) = some (idx, b) → b.valid = true → b.stopped = false →
    b.earlyAck = true → r.allowed b = true → b.kind = 0 → b.shared = false → usable s b.out = true →
    0 < rd s (.pmd (hpartOf s p)) F.PMD_WAB_CFG_LIMIT → rdb s .wabM F.WAB_MOD_STS_EA_OFF = false →
    ∃ t, exec (.hostRequest p r Upset.none) s = .next t ∧
      t.wab.ents.map (fun e => (e.data, e.mask, e.outs, e.stranded)) = [(BitVec.ofNat 512 r.data, fullMask, 1, false)] ∧
      t.wab.ents.map (fun e => (e.part, e.bind, e.out)) = [(hpartOf s p, idx, b.out)] ∧
      t.maps.fwds.map (fun f => (f.agent, f.req)) = t.wab.ents.map (fun e => (Agent.wab e.tile e.id, r)) ∧
      .rsp p r.tag .ndr 0 false r.md ∈ t.out) ∧
  (∀ (s : State) (e : WabE) (f : Fwd), NoneDue s → canReceive s f.out = true → s.wab.ents = [e] → s.maps.fwds = [f] →
    f.agent = .wab e.tile e.id → f.own = false → unanswered s f = true → s.home.alc = [] → s.home.found = [] →
      s.dbg.waiting = none →
    s.core.cells = [] → s.maps.ioWait = [] → s.maps.held = [] → s.maps.waits = [] →
    s.home.loq = [] → e.stranded = false → e.err = false → e.outs = 1 → e.re = 0 → e.det = false →
    ∃ t, exec (.wabTargetAck e.tile e.id true) s = .next t ∧ t.wab.ents = [] ∧ t.maps.fwds = [] ∧ t.out = s.out) ∧
  (∀ (s : State) (e : WabE) (f : Fwd), NoneDue s → canReceive s f.out = true → s.wab.ents = [e] → s.maps.fwds = [f] →
    f.agent = .wab e.tile e.id → f.own = false → unanswered s f = true → s.home.alc = [] → s.home.found = [] →
      s.dbg.waiting = none →
    s.core.cells = [] → s.maps.ioWait = [] → s.maps.held = [] → s.maps.waits = [] →
    s.home.loq = [] → e.stranded = false → e.err = false → e.outs = 1 → e.re = 0 → e.det = false →
    ∃ t, exec (.wabTargetAck e.tile e.id false) s = .next t ∧
      t.wab.ents = [{ e with outs := 0, err := true, stranded := true }] ∧ t.maps.fwds = []) ∧
  (∀ (s : State) (e : WabE), NoneDueBy e.deadline s → frozen s = false → clockRuns s = true → s.wab.ents = [e] →
    e.stranded = false →
    s.maps.ioWait = [] → s.maps.held = [] → s.home.loq = [] → s.home.alc = [] → s.home.found = [] → s.dbg.waiting = none →
    ∃ t, exec (.wabAckTimeout e.tile e.id) s = .next t ∧ t.tick = max s.tick e.deadline ∧
      t.wab.ents = [{ e with stranded := true }] ∧ t.maps.fwds = s.maps.fwds) ∧
  (∀ (s : State) (e : WabE), NoneDue s → frozen s = false → linkUp s e.out = true → linkRun s e.out = true → s.wab.ents = [e] →
    e.stranded = true → e.det = true → s.wab.bad = [] → s.home.alc = [] →
    ∃ t, exec (.wabReissue e.out) s = .next t ∧
      t.wab.ents = [{ e with re := e.re + 1, err := false, det := false, deadline := s.tick + rd s .wabM F.WAB_CFG_ACK_TMO }] ∧
      t.maps.fwds.map (fun f => (f.agent, f.out, f.req.op, f.req.data, f.req.mask)) =
        s.maps.fwds.map (fun f => (f.agent, f.out, f.req.op, f.req.data, f.req.mask)) ++
          [(.wab e.tile e.id, e.out, if e.mask = fullMask then .memWr else .memWrPtl, e.data.toNat, e.mask)]) ∧
  (∀ (s : State) (c : Ctx) (part idx : Nat), NoneDue s → CoreActs s → part < 128 → idx < 2 ^ 18 → s.maps.ioWait = [] →
    s.maps.held = [] →
    s.maps.waits = [] → s.home.loq = [] → s.home.found = [] → s.dbg.waiting = none →
    ∃ t, exec (.wabDiscard c part idx) s = .next t ∧ t.maps = s.maps ∧
      t.wab.ents = s.wab.ents.filter (fun e =>
        !(e.part == part && (idx == 0x3FFFF || e.bind == idx) && e.stranded && e.re == 0)))

/-- Parts of R139, R141, R145, R146, Table 7.4, Table 7.10: a read of the fence starts a drain of its partition and waits; the drain ends
once nothing of its cut is left, and the fence word goes out; the high half reads the last word; the wait of FATAL handling
runs out; the power drain window ends with the loss record of what is left; PLR_CLEAR erases it.
The model's choices here are those of log 3, 107 and 161. -/
def Obligations.DrainsAndFence : Prop :=
  (∀ (s : State) (p tag : Nat), NoneDue s → canReceive s p = true → Quiet s → roleOf s p = 1 →
    resetting s (hpartOf s p) = false → partSt s (hpartOf s p) = 0 →
    ∃ t, exec (.fenceRead p 0x1F000 8 tag) s = .next t ∧ t.out = s.out ∧
      t.wab.drains = [⟨s.wab.nextId, hpartOf s p, s.tick, [], .fence⟩] ∧
      t.maps.ioWait.map (fun w => (w.lead, w.part, w.req.tag, w.why, w.fence)) =
        [(p, hpartOf s p, tag, .drain [s.wab.nextId], true)]) ∧
  (∀ (s : State) (p tag : Nat), NoneDue s → canReceive s p = true → Quiet s → roleOf s p = 1 →
    resetting s (hpartOf s p) = false → partSt s (hpartOf s p) = 0 →
    ∃ t, exec (.fenceRead p 0x1F004 4 tag) s = .next t ∧ t.wab = s.wab ∧ t.maps.ioWait = [] ∧
      t.out = s.out ++ [.rsp p tag .cplOk (tget 0 s.wab.lastFence (hpartOf s p) / 2 ^ 32) false .any]) ∧
  (∀ (s : State) (d : Drain) (w : IoWait), NoneDue s → frozen s = false → s.wab.drains = [d] → cutDone s d = true →
    s.maps.ioWait = [w] → s.maps.held = [] → w.why = .drain [d.id] → w.fence = true → w.req.size = 8 →
    resetting s w.part = false →
    ∃ t, exec (.drainComplete d.id) s = .next t ∧ t.wab.drains = [] ∧ t.maps.ioWait = [] ∧ t.wab.ents = s.wab.ents ∧
      tget 0 t.wab.fseq w.part = (tget 0 s.wab.fseq w.part + 1) % 65536 ∧
      t.out = s.out ++ [.fenceWord w.lead w.req.tag (tget 0 t.wab.lastFence w.part) 8] ∧
      tget 0 t.wab.lastFence w.part = tget 0 t.wab.fseq w.part * 2 ^ 48 + min (strandedPart s w.part) 0x7FFFF * 2 ^ 8 + 0xA0 +
        (if rdb s .wabM F.WAB_MOD_STS_EA_OFF then 4 else 0) + (if strandedPart s w.part = 0 then 0 else 2)) ∧
  (∀ (s : State) (n : Nat) (f : Fatal), NoneDueBy (n + 10000) s → clockRuns s = true → s.wab.wait = some n → s.flt.fatal = some f →
    ∃ t, exec .wabWaitExpire s = .next t ∧ t.tick = max s.tick (n + 10000) ∧
      t.flt.fatal = some { f with ranOut := true } ∧ t.wab = s.wab) ∧
  (∀ (s : State) (n : Nat), NoneDueBy (n + 10000) s → clockRuns s = true → s.wab.pwrDrain = some n →
    ∃ t, exec .powerDrainWindowEnd s = .next t ∧ t.tick = max s.tick (n + 10000) ∧ t.wab.pwrDrain = none ∧
      rd t .wabM F.WAB_MOD_STS_PWR_DRAIN = 0 ∧ t.wab.ents = s.wab.ents ∧
      (s.wab.ents ≠ [] → t.wab.plrValid = true ∧ t.wab.plr ≠ [])) ∧
  (∀ (s : State), Takes s .wabM →
    ∃ t, exec .plrClear s = .next t ∧ t.wab.plrValid = false ∧ t.wab.plr = [] ∧ t.wab.ents = s.wab.ents ∧ t.regs = s.regs)

/-- Parts of R152, R154, R155, R156, R174: a request that has room enters its home's line order queue, a CXL.mem write
with its acknowledgement to its station; a read of a shared line at the head of its line is broadcast to the seven other stations; a
station without a member to snoop answers at once, another sends its snoop; a bad message is repeated; the last answer lets the
line be read at its target.
The model's choices here are those of log 3, 45 and 147. -/
def Obligations.HomeOrderAndHalo : Prop :=
  (∀ (s : State) (e : LoqE) (clk : Nat) (r : CellRead), NoneDue s → frozen s = false → (∀ c ∈ s.core.cells, e.id ∉ c.homes) →
    s.home.loq = [e] →
    e.stage = .travel → e.isWb = false →
    ∃ t, exec (.loqEntry e.id ⟨clk, Upset.none, r⟩) s = .next t ∧
      t.home.loq = [{ e with stage := .queued, order := loqOrder s clk e }] ∧ t.home.halo = s.home.halo ∧ t.maps = s.maps) ∧
  (∀ (s : State) (e : LoqE) (clk : Nat) (r : CellRead), NoneDue s → frozen s = false → (∀ c ∈ s.core.cells, e.id ∉ c.homes) →
    s.home.loq = [e] →
    e.stage = .travel → e.isWb = true → s.home.snoops = [] →
    ∃ t, exec (.loqEntry e.id ⟨clk, Upset.none, r⟩) s = .next t ∧
      t.home.loq = [{ e with stage := .queued, order := loqOrder s clk e }] ∧
      t.home.halo = s.home.halo ++ [⟨s.home.nextId, e.tile, tileOf e.lead, .wback e.lead e.line, 0, true⟩]) ∧
  (∀ (s : State) (e : LoqE), NoneDue s → frozen s = false → s.home.loq = [e] → e.stage = .queued → e.kind = .mem → s.home.alc = [] →
    e.tile < 8 → e.group < 4096 → e.req.op = .memRd → e.req.md = .any →
    ∃ t, exec (.loqService e.id Upset.none) s = .next t ∧
      t.home.loq.map (fun x => (x.id, x.stage, x.stations)) = [(e.id, .snooping, (List.range 8).filter (· ≠ e.tile))] ∧
      t.home.halo.map (fun m => (m.src, m.dst, m.msg)) = s.home.halo.map (fun m => (m.src, m.dst, m.msg)) ++
        ((List.range 8).filter (· ≠ e.tile)).map (fun d => (e.tile, d, HaloMsg.bcast e.id e.line e.group .inv (some e.part))) ∧
      t.home.snoops.map (fun n => (n.part, n.lead)) = s.home.snoops.map (fun n => (n.part, n.lead)) ++
        membersAt s e.tile e.group (some e.part) e.part) ∧
  (∀ (s : State) (e : LoqE) (m : HaloE) (k : SnoopKind) (x : Option Nat), NoneDue s → frozen s = false → s.home.halo = [m] →
    (haloWay s m.src m.dst).isSome = true → m.msg = .bcast e.id e.line e.group k x → s.home.loq = [e] → m.dst ≠ e.tile →
      s.home.snoops = [] →
    membersAt s m.dst e.group x e.part = [] →
    ∃ t, exec (.haloBcast m.id none) s = .next t ∧ t.home.loq = [e] ∧ t.home.snoops = [] ∧
      t.home.halo = [⟨s.home.nextId, m.dst, e.tile, .resp e.id m.dst [], 0, true⟩]) ∧
  (∀ (s : State) (e : LoqE) (m : HaloE) (k : SnoopKind) (x : Option Nat) (p l : Nat), NoneDue s → frozen s = false →
    s.home.halo = [m] →
    (haloWay s m.src m.dst).isSome = true → m.msg = .bcast e.id e.line e.group k x → s.home.loq = [e] → m.dst ≠ e.tile →
      s.home.snoops = [] →
    membersAt s m.dst e.group x e.part = [(p, l)] →
    ∃ t, exec (.haloBcast m.id none) s = .next t ∧ t.home.loq = [e] ∧ t.home.halo = [] ∧
      t.out = s.out ++ [.bisnp l s.home.nextId k e.line] ∧
      t.home.snoops.map (fun n => (n.tile, n.part, n.lead, n.loq, n.deadline, n.got)) =
        [(m.dst, p, l, e.id, s.tick + rd s .homeM F.HOME_CFG_SNP_TMO, none)]) ∧
  (∀ (s : State) (m : HaloE) (loq st : Nat) (l : List (Nat × HRsp)) (k x : Nat) (up : Bool), NoneDue s → frozen s = false →
    s.home.halo = [m] → m.msg = .resp loq st l → (haloWay s m.src m.dst).bind (fun w => w[k]?) = some (x, up) →
    (if x = m.src ∧ up = m.up then m.fails + 1 else 1) < rd s (.halo x) F.HALO_CFG_LIM → srcMasked s (tileSrcNo x 14) = true →
    ∃ t, exec (.haloResp m.id (some k)) s = .next t ∧
      t.home.halo = [{ m with src := x, fails := if x = m.src ∧ up = m.up then m.fails + 1 else 1, up := up }] ∧
        t.home.loq = s.home.loq ∧
      rd t (.halo x) F.HALO_CNT_RETRY = min (rd s (.halo x) F.HALO_CNT_RETRY + 1) 65535) ∧
  (∀ (s : State) (e : LoqE) (m : HaloE) (st : Nat), NoneDue s → frozen s = false → s.home.halo = [m] →
    (haloWay s m.src m.dst).isSome = true → m.msg = .resp e.id st [] →
    s.home.loq = [e] → e.localDone = false →
    ∃ t, exec (.haloResp m.id none) s = .next t ∧ t.home.halo = [] ∧
      t.home.loq = [{ e with stations := e.stations.filter (· != st) }]) ∧
  (∀ (s : State) (e : LoqE) (m : HaloE) (st : Nat), NoneDue s → frozen s = false → s.home.halo = [m] →
    (haloWay s m.src m.dst).isSome = true → m.msg = .resp e.id st [] →
    s.home.loq = [e] → e.stations = [st] → e.localDone = true → e.stage = .snooping → e.timedOut = [] → e.kind = .mem →
    e.req.op = .memRd → s.home.alc = [] → s.wab.ents = [] → usable s e.line.out = true →
    ∃ t, exec (.haloResp m.id none) s = .next t ∧ t.home.halo = [] ∧ t.home.loq.map (·.stage) = [.reading] ∧
      t.maps.fwds.map (fun f => (f.agent, f.req.op, f.out, f.dpa)) =
        s.maps.fwds.map (fun f => (f.agent, f.req.op, f.out, f.dpa)) ++
          [(.home e.tile e.id, .memRd, e.line.out, e.line.line * 64)])

/-- Parts of R149, R152, R153, R158, R159, R160: a host's answer to a snoop ends it at its station; behind a writeback of the line that
the home has not acknowledged it is held until then; an answer to no open snoop is counted; BIConflict is acknowledged and the
snoop stays open; a snoop that times out fences its partition out of the group; a fence-out message is taken; a sharing group's
membership is committed when every partition that it changes is STOPPED.
The model's choices here are those of log 3, 47 and 131. -/
def Obligations.SnoopsAndGroups : Prop :=
  (∀ (s : State) (n : Snoop) (e : LoqE) (sh : Bool), NoneDue s → canReceive s n.lead = true → s.home.snoops = [n] →
    n.got = none → n.heldRsp = none → s.home.wbs = [] → s.home.loq = [e] → n.loq = e.id → n.tile = e.tile → e.stage = .snooping →
    e.stations ≠ [] →
    ∃ t, exec (.birsp n.lead n.id sh) s = .next t ∧ t.home.snoops = [] ∧ t.home.loq = [{ e with localDone := true }]) ∧
  (∀ (s : State) (n : Snoop) (sh : Bool), NoneDue s → canReceive s n.lead = true → s.home.snoops = [n] →
    n.got = none → n.heldRsp = none → (n.lead, n.line) ∈ s.home.wbs →
    ∃ t, exec (.birsp n.lead n.id sh) s = .next t ∧ t.home.snoops =
        [{ n with heldRsp := some (if sh then .shared else .inv), wbLeft := s.home.wbs.count (n.lead, n.line) }] ∧
      t.home.loq = s.home.loq ∧ t.out = s.out) ∧
  (∀ (s : State) (lead id : Nat) (sh : Bool), NoneDue s → canReceive s lead = true → s.home.snoops = [] →
    ∃ t, exec (.birsp lead id sh) s = .next t ∧ t.home = s.home ∧ rd t (.homeT (tileOf lead)) F.HOME_FENCE_CNT_LATE_RSP =
      min (rd s (.homeT (tileOf lead)) F.HOME_FENCE_CNT_LATE_RSP + 1) 255) ∧
  (∀ (s : State) (m : HaloE) (n : Snoop) (e : LoqE) (r : HRsp), NoneDue s → frozen s = false → s.home.halo = [m] →
    (haloWay s m.src m.dst).isSome = true → m.msg = .wback n.lead n.line → s.home.wbs = [(n.lead, n.line)] → s.home.snoops = [n] →
    n.heldRsp = some r → n.wbLeft = 1 → n.got = none → s.home.loq = [e] → n.loq = e.id → n.tile ≠ e.tile →
    ∃ t, exec (.wbAck m.id none) s = .next t ∧ t.home.wbs = [] ∧ t.home.snoops = [] ∧
      t.home.halo = [⟨s.home.nextId, n.tile, e.tile, .resp e.id n.tile [(n.part, if n.wbMerged then .inv else r)], 0, true⟩]) ∧
  (∀ (s : State) (n : Snoop), NoneDue s → canReceive s n.lead = true → s.home.snoops = [n] → n.got = none →
    (s.home.loq.filter fun x => x.tile == ((loqOf s n.loq).map (·.tile)).getD n.tile && x.stage != .travel).length < 4096 →
    ∃ t, exec (.biconflict n.lead n.id) s = .next t ∧ t.home.snoops = [{ n with conflict := true }] ∧
      t.out = s.out ++ [.bicAck n.lead n.id] ∧ t.home.loq = s.home.loq) ∧
  (∀ (s : State) (n : Snoop) (e : LoqE), NoneDueBy n.deadline s → frozen s = false → clockRuns s = true → s.home.snoops = [n] →
    n.got = none →
    n.heldRsp = none → s.home.loq = [e] → n.loq = e.id → n.tile ≠ e.tile → e.group < 4096 →
    ∃ t, exec (.snoopTimeout n.id) s = .next t ∧ t.tick = max s.tick n.deadline ∧ t.home.snoops = [] ∧
      tget 0 t.home.sgFenced e.group = tget 0 s.home.sgFenced e.group ||| 2 ^ n.part ∧
      (∀ g, g ≠ e.group → tget 0 t.home.sgFenced g = tget 0 s.home.sgFenced g) ∧
      (∃ m ∈ t.home.halo, m.src = n.tile ∧ m.dst = e.tile ∧ m.msg = .resp e.id n.tile [(n.part, .timeout)])) ∧
  (∀ (s : State) (m : HaloE) (p g : Nat), NoneDue s → frozen s = false → s.home.halo = [m] → (haloWay s m.src m.dst).isSome = true →
    m.msg = .fence p g →
    ∃ t, exec (.haloFence m.id none) s = .next t ∧ t.home = { s.home with halo := [] } ∧ t.maps = s.maps) ∧
  (∀ (s : State) (c : Ctx) (g : Nat) (mem : BitVec 128), CoreActs s → NoneDue s → g < 4096 → s.maps.binds = [] → s.maps.pend = [] →
    ((List.range 128).filter fun p => bit mem.toNat p).length ≤ 32 →
    (∀ p, p < 128 → bit mem.toNat p ≠ bit (tget 0 s.home.sgMem g) p → partSt s p = 2) →
    ∃ t, exec (.sgCommit c g mem) s = .next t ∧ tget 0 t.home.sgMem g = mem.toNat ∧
      (∀ h, h ≠ g → tget 0 t.home.sgMem h = tget 0 s.home.sgMem h)) ∧
  (∀ (s : State) (c : Ctx) (g p : Nat) (mem : BitVec 128), CoreActs s → NoneDue s → g < 4096 → p < 128 →
    bit mem.toNat p ≠ bit (tget 0 s.home.sgMem g) p → partSt s p ≠ 2 →
    ∃ t, exec (.sgCommit c g mem) s = .next t ∧ t.home.sgMem = s.home.sgMem) ∧
  (∀ (s : State) (v : Word), NoneDue s → Takes s .homeM → s.home.sgStage = [] → s.maps.binds = [] → s.maps.pend = [] →
    tget 0 s.home.sgMem (rd s .homeM F.HOME_SG_IDX_GRP) = 0 → ((List.range 32).filter fun p => bit v.toNat p).length ≤ 32 →
    (∀ p, 96 ≤ p → p < 128 → partSt s p = 2) →
    ∃ t, exec (.homeSgMem3Commit v) s = .next t ∧ t.regs = s.regs ∧
      tget 0 t.home.sgMem (rd s .homeM F.HOME_SG_IDX_GRP) = v.toNat * 2 ^ 96)

/-- Parts of R163, R167, R169, R170, R171, R172, Table 8.6: an AtomicOp on a line that the Atomic Line Cache holds EXCL runs there; the
completion of one forwarded to near memory answers its requester; a reserve read takes a slot; a conditional write stores and
frees the slot when its reservation is VALID, and stores nothing without one. -/
def Obligations.AtomicsAndReservations : Prop :=
  (∀ (s : State) (e : LoqE) (a : AlcL), NoneDue s → frozen s = false → s.home.loq = [e] → e.stage = .queued → e.kind = .atomic →
    s.home.alc = [a] → a.tile = e.tile → a.line = e.line → a.wback = false → s.home.alcBad = [] → s.home.found = [] →
      a.excl = true → a.pois = false → e.plan ≠ 3 →
    e.dropRsp = false → e.job = none → e.req.op = .fetchAdd → resetting s e.part = false → e.lead < 512 →
    8 * (e.req.addr % 64) + 8 * e.req.size ≤ 512 →
    ∃ t, exec (.atomicOp e.id Upset.none) s = .next t ∧ t.home.loq = [] ∧
      Answered s t e.tile ⟨e.lead, e.req.tag, .cplOk, (a.data.toNat / 2 ^ (8 * (e.req.addr % 64)) % 2 ^ (8 * e.req.size)), false,
        e.req.md⟩ ∧
      t.home.alc.map (fun x => (x.line, x.dirty, x.data.toNat / 2 ^ (8 * (e.req.addr % 64)) % 2 ^ (8 * e.req.size))) =
        [(e.line, true, (a.data.toNat / 2 ^ (8 * (e.req.addr % 64)) + e.req.data) % 2 ^ (8 * e.req.size))] ∧
      t.home.alc.map (fun x => (x.data.toNat % 2 ^ (8 * (e.req.addr % 64)),
          x.data.toNat / 2 ^ (8 * (e.req.addr % 64) + 8 * e.req.size))) =
        [(a.data.toNat % 2 ^ (8 * (e.req.addr % 64)), a.data.toNat / 2 ^ (8 * (e.req.addr % 64) + 8 * e.req.size))]) ∧
  (∀ (s : State) (e : LoqE) (f : Fwd) (data : LineData), NoneDue s → canReceive s f.out = true → unanswered s f = true →
    s.home.found = [] →
    s.dbg.waiting = none → s.maps.fwds = [f] →
    f.agent = .atomic e.tile e.id → s.home.loq = [e] → e.dropRsp = false → e.job = none → e.req.op = .swap →
    resetting s e.part = false → e.lead < 512 → s.maps.ioWait = [] → s.maps.held = [] → s.maps.waits = [] →
    ∃ t, exec (.nearMemoryCompletion e.id true data) s = .next t ∧ t.home.loq = [] ∧ t.maps.fwds = [] ∧
      Answered s t e.tile ⟨e.lead, e.req.tag, .cplOk, data.toNat, false, e.req.md⟩) ∧
  (∀ (s : State) (e : LoqE) (a : AlcL), NoneDue s → frozen s = false → s.home.loq = [e] → e.stage = .queued → e.kind = .reserve →
    s.home.alc = [a] → a.tile = e.tile → a.line = e.line → a.wback = false → s.home.alcBad = [] → s.home.found = [] →
      a.pois = false → e.dropRsp = false →
    e.job = none → e.req.op = .ioRead → resetting s e.part = false → e.lead < 512 → s.home.slots = [] →
    ∃ t, exec (.reserveRead e.id Upset.none) s = .next t ∧ t.home.loq = [] ∧
      t.home.slots.map (fun r => (r.part, r.reqId, r.pasid, r.line, r.st)) =
        [(e.part, e.req.reqId, e.req.pasid, e.line, .valid)] ∧
      t.home.alc.map (fun x => (x.resv, x.data)) = [(true, a.data)] ∧
      Answered s t e.tile ⟨e.lead, e.req.tag, .cplOk, (a.data.toNat / 2 ^ (8 * (e.req.addr % 64)) % 2 ^ (8 * e.req.size)), false,
        e.req.md⟩) ∧
  (∀ (s : State) (e : LoqE) (a : AlcL) (r : Resv), NoneDue s → frozen s = false → s.home.loq = [e] → e.stage = .queued →
    e.kind = .cond →
    s.home.alc = [a] → a.tile = e.tile → a.line = e.line → a.wback = false → s.home.alcBad = [] → s.home.found = [] →
      a.excl = true → s.home.slots = [r] →
    (r.part, r.reqId, r.pasid) = (e.part, e.req.reqId, e.req.pasid) → r.line = e.line → r.st = .valid → e.dropRsp = false →
    e.job = none → e.req.op = .swap → resetting s e.part = false → e.lead < 512 → 8 * (e.req.addr % 64) + 8 * e.req.size ≤ 512 →
    ∃ t, exec (.conditionalWrite e.id) s = .next t ∧ t.home.loq = [] ∧ t.home.slots = [] ∧
      Answered s t e.tile ⟨e.lead, e.req.tag, .cplOk, 0, false, e.req.md⟩ ∧
      t.home.alc.map (fun x => (x.dirty, x.resv, x.data.toNat / 2 ^ (8 * (e.req.addr % 64)) % 2 ^ (8 * e.req.size))) =
        [(true, false, e.req.data % 2 ^ (8 * e.req.size))]) ∧
  (∀ (s : State) (e : LoqE), NoneDue s → frozen s = false → s.home.loq = [e] → e.stage = .queued → e.kind = .cond →
    s.home.slots = [] →
    (∀ a ∈ s.home.alc, a.wback = false) → e.dropRsp = false → e.job = none → e.req.op = .swap → resetting s e.part = false →
      e.lead < 512 →
    ∃ t, exec (.conditionalWrite e.id) s = .next t ∧ t.home.loq = [] ∧
      t.home.alc.map (fun x => (x.tile, x.line, x.data)) = s.home.alc.map (fun x => (x.tile, x.line, x.data)) ∧
      Answered s t e.tile ⟨e.lead, e.req.tag, .cplOk, 1, false, e.req.md⟩)

/-- Parts of R181, R214, R221: SHAPER_SET, QUANTUM_SET and a write of SCHED_SHP_CFG commit settings that take effect at the next
refill-slot boundary, when the commands complete; a setting for no link is discarded with CFG_REJECT.
The model's choices here are those of log 44. -/
def Obligations.EgressSettings : Prop :=
  (∀ (s : State) (c : Ctx) (lead part rate burst : Nat) (en : Bool), NoneDue s → CoreActs s → frozen s = false → lead < 512 →
    part < 128 →
    rate < 2 ^ 20 → isLead s lead = true → tget none s.egr.shpNew (shpKey lead part) = none →
    ∃ t, exec (.shaperSet c none lead part rate burst en) s = .next t ∧
      tget none t.egr.shpNew (shpKey lead part) = some (en, rate, max 1 (min burst 4096), s.time) ∧
      (shaperOf t (shpKey lead part)).en = (shaperOf s (shpKey lead part)).en ∧
      (shaperOf t (shpKey lead part)).rate = (shaperOf s (shpKey lead part)).rate ∧
      t.mq.due = s.mq.due ++ [⟨false, s.time, c, 0x45⟩] ∧ t.mq.flying = s.mq.flying ∧ t.regs = s.regs) ∧
  (∀ (s : State) (c : Ctx) (lead part rate burst : Nat) (en : Bool), NoneDue s → CoreActs s → frozen s = false → lead < 512 →
    part < 128 →
    rate < 2 ^ 20 → isLead s lead = false →
    ∃ t, exec (.shaperSet c none lead part rate burst en) s = .next t ∧ t.egr = s.egr ∧
      rd t (.sched (tileOf lead)) F.BLK_STS_CFG_REJECT = 1) ∧
  (∀ (s : State) (c : Ctx) (lead part tc q : Nat), NoneDue s → CoreActs s → frozen s = false → lead < 512 → part < 128 → tc < 3 →
    q < 2 ^ 16 →
    isLead s lead = true → tget none s.egr.quantaNew (queueKey lead (128 * tc + part)) = none →
    ∃ t, exec (.quantumSet c none lead part tc q) s = .next t ∧
      tget none t.egr.quantaNew (queueKey lead (128 * tc + part)) = some (max 256 q, s.time) ∧
      t.egr.quanta = s.egr.quanta ∧ t.egr.deficits = s.egr.deficits ∧
      t.mq.due = s.mq.due ++ [⟨false, s.time, c, 0x46⟩] ∧ t.mq.flying = s.mq.flying ∧ t.regs = s.regs) ∧
  (∀ (s : State) (tile l : Nat) (v : Word), NoneDue s → Takes s (.sched tile) →
    l = 64 * tile + rd s (.sched tile) F.SCHED_IDX_LPORT →
    isLead s l = true → tget none s.egr.shpNew (shpKey l (rd s (.sched tile) F.SCHED_IDX_PART)) = none →
    ∃ t, exec (.schedShpCfgCommit tile v) s = .next t ∧
      tget none t.egr.shpNew (shpKey l (rd s (.sched tile) F.SCHED_IDX_PART)) =
        some (F.SCHED_SHP_CFG_EN.of v.toNat == 1, (shaperOf s (shpKey l (rd s (.sched tile) F.SCHED_IDX_PART))).stage,
          max 1 (min (F.SCHED_SHP_CFG_BURST.of v.toNat) 4096), s.time) ∧ t.regs = s.regs) ∧
  (∀ (s : State) (tile : Nat) (v : Word), NoneDue s → Takes s (.sched tile) →
    isLead s (64 * tile + rd s (.sched tile) F.SCHED_IDX_LPORT) = false →
    ∃ t, exec (.schedShpCfgCommit tile v) s = .next t ∧ t.egr = s.egr ∧ rd t (.sched tile) F.BLK_STS_CFG_REJECT = 1)

/-- Parts of R39, R214, Table 2.3: the commands that take an instant are put in the schedule table as they stand when the instant and
the table allow it, and nothing of what they do is done yet. -/
def Obligations.ScheduledForms : Prop :=
  ∀ (s : State) (c : Ctx) (inst : Nat), NoneDue s → CoreActs s → frozen s = false → rd s .ftm F.FTM_STS_STATE ≠ 0 →
    s.time + 512 ≤ inst →
    inst ≤ s.time + 2 ^ 32 → s.sched.length < 256 →
    (∀ lead run, lead < 512 → run ≤ 2 → memberOf s lead = none →
      ∃ t i, exec (.portState c (some inst) lead run) s = .next t ∧ t.ports = s.ports ∧
        t.sched = s.sched ++ [⟨i, inst, s.ftm.order, .portState lead run, .cmd c 0x41⟩]) ∧
    (∀ lead v, lead < 512 → memberOf s lead = none →
      ∃ t i, exec (.portPm c (some inst) lead v) s = .next t ∧
        t.sched = s.sched ++ [⟨i, inst, s.ftm.order, .portPm lead v.toNat, .cmd c 0x43⟩]) ∧
    (∀ lead part rate burst en, lead < 512 → part < 128 → rate < 2 ^ 20 →
      ∃ t i, exec (.shaperSet c (some inst) lead part rate burst en) s = .next t ∧ t.egr = s.egr ∧
        t.sched = s.sched ++ [⟨i, inst, s.ftm.order, .shaper lead part rate burst en, .cmd c 0x45⟩]) ∧
    (∀ lead part tc q, lead < 512 → part < 128 → tc < 3 → q < 2 ^ 16 →
      ∃ t i, exec (.quantumSet c (some inst) lead part tc q) s = .next t ∧ t.egr = s.egr ∧
        t.sched = s.sched ++ [⟨i, inst, s.ftm.order, .quantum lead part tc q, .cmd c 0x46⟩]) ∧
    (∀ idx, ∃ t i, exec (.bindStop c (some inst) idx) s = .next t ∧ t.maps = s.maps ∧
        t.sched = s.sched ++ [⟨i, inst, s.ftm.order, .bindStop idx, .cmd c 0x22⟩]) ∧
    (∀ idx, ∃ t i, exec (.bindStart c (some inst) idx) s = .next t ∧ t.maps = s.maps ∧
        t.sched = s.sched ++ [⟨i, inst, s.ftm.order, .bindStart idx, .cmd c 0x23⟩]) ∧
    (∀ off lost v m, off % 4 = 0 → off < 0x04000000 → s.mq.parked = [] →
      ∃ t i, exec (.regWrite c (some inst) ⟨off, lost⟩ v m) s = .next t ∧
        t.sched = s.sched ++ [⟨i, inst, s.ftm.order, .regWrite off v.toNat m.toNat, .cmd c 0x06⟩])

/-- Parts of R188, R190, R194, R195, R202, Table 10.1, Table 10.4: a partition in RUN that is stopped is QUIESCING from this tick, with
its timeout and a drain; it becomes STOPPED when nothing of it is left, or at the timeout, when what is left fails with
QTMO_HIT; only a STOPPED partition's restart is armed, and at its instant it is in RUN.
The model's choices here are those of log 3. -/
def Obligations.PartitionStopAndRestart : Prop :=
  (∀ (s : State) (c : Ctx) (p : Nat), CoreActs s → NoneDue s → frozen s = false → p < 128 → restartEnt s p = none →
    resetting s p = false →
    partSt s p = 0 →
    ∃ t, exec (.partStop c p) s = .next t ∧ partSt t p = 1 ∧ (partOf t p).stopAt = some s.tick ∧
      (partOf t p).qDue = some (s.tick + rd s (.part p) F.PART_CFG_QTMO) ∧ c ∈ (partOf t p).stopCtx ∧ t.out = s.out ∧
      t.wab.drains = s.wab.drains ++ [⟨s.wab.nextId, p, s.tick,
        (s.home.alc.filter fun a => a.fill == p && a.dirty).map fun a => (a.tile, a.line), .stop⟩] ∧
      (∀ q, q ≠ p → partSt t q = partSt s q ∧ partOf t q = partOf s q) ∧ t.wab.ents = s.wab.ents ∧
      ((∀ a ∈ s.home.alc, a.fill = p → a.dirty = false) → t.maps = s.maps ∧ t.home = s.home)) ∧
  (∀ (s : State) (p : Nat) (v : Word), NoneDue s → Takes s (.part p) → F.BLK_CTL_RUN.of v.toNat = 2 → restartEnt s p = none →
    resetting s p = false → partSt s p = 0 →
    ∃ t, exec (.partBlkCtlWrite p v) s = .next t ∧ partSt t p = 1 ∧ (partOf t p).stopAt = some s.tick ∧ t.out = s.out ∧
      t.mq = s.mq) ∧
  (∀ (s : State) (p : Nat) (v : Word), NoneDue s → Takes s (.part p) → F.BLK_CTL_RUN.of v.toNat = 0 → restartEnt s p = none →
    resetting s p = false → partSt s p = 2 → holdsPiece s p = true → rd s .ftm F.FTM_STS_STATE ≠ 0 →
    s.sched.length < 256 →
    ∃ t, exec (.partBlkCtlWrite p v) s = .next t ∧ partSt t p = 2 ∧
      t.sched.map (fun e => (e.inst, e.act, e.owner)) = s.sched.map (fun e => (e.inst, e.act, e.owner)) ++
        [((s.time + 512 + 127) / 128 * 128, .restart p, .none)]) ∧
  (∀ (s : State) (p : Nat), NoneDue s → frozen s = false → partSt s p = 1 → resetting s p = false →
    (∀ f ∈ s.maps.fwds, f.part ≠ p) → (∀ d ∈ s.wab.drains, d.part ≠ p) → (∀ e ∈ s.home.loq, e.part ≠ p) →
    (partOf s p).later = [] → (partOf s p).laterDel = [] →
    ∃ t, exec (.partQuiesced p) s = .next t ∧ partSt t p = 2 ∧ (partOf t p).stopAt = none ∧ (partOf t p).stopCtx = [] ∧
      rd t (.part p) F.PART_STS_QTMO_HIT = rd s (.part p) F.PART_STS_QTMO_HIT) ∧
  (∀ (s : State) (p n : Nat) (f : Fwd), NoneDueBy n s → frozen s = false → clockRuns s = true → partSt s p = 1 →
    resetting s p = false →
    (partOf s p).qDue = some n → s.maps.fwds = [f] → f.part = p → f.agent = .host → f.late = false → f.dropped = false →
    f.job = none → f.req.op = .memRd → f.fromVp = none → (partOf s p).later = [] → (partOf s p).laterDel = [] →
    s.home.loq = [] → s.home.alc = [] →
    ∃ t, exec (.quiesceTimeout p) s = .next t ∧ t.tick = max s.tick n ∧ partSt t p = 2 ∧
      rd t (.part p) F.PART_STS_QTMO_HIT = 1 ∧ t.maps.fwds = [{ f with dropped := true }] ∧
      (∃ poison, .rsp f.lead f.req.tag .drs allOnesLine.toNat poison f.req.md ∈ t.out)) ∧
  (∀ (s : State) (c : Ctx) (inst p : Nat), CoreActs s → NoneDue s → p < 128 → rd s .ftm F.FTM_STS_STATE ≠ 0 → s.time + 512 ≤ inst →
    inst ≤ s.time + 2 ^ 32 → s.sched.length < 256 → holdsPiece s p = true → resetting s p = false → partSt s p = 2 →
    restartEnt s p = none →
    ∃ t, exec (.partRestartAt c (some inst) p) s = .next t ∧ partSt t p = 2 ∧
      t.sched.map (fun e => (e.inst, e.act, e.owner)) = s.sched.map (fun e => (e.inst, e.act, e.owner)) ++
        [(inst, .restart p, .cmd c 0x11)]) ∧
  (∀ (s : State) (c : Ctx) (inst p : Nat), CoreActs s → NoneDue s →
    (partSt s p ≠ 2 ∨ holdsPiece s p = false ∨ resetting s p = true) →
    ∃ t, exec (.partRestartAt c (some inst) p) s = .next t ∧ t.sched = s.sched ∧ t.maps = s.maps ∧ t.parts = s.parts) ∧
  (∀ (s : State) (p : Nat) (e : SchedEnt), frozen s = false → clockRuns s = true → s.sched = [e] → e.act = .restart p →
    s.maps.held = [] → s.maps.ioWait = [] → s.maps.pend = [] →
    ((s.time + entLeft s e) % 2 ^ 7 = 0 → entLeft s e = 0 ∧ s.ftm.slotDone = s.time ∧
      (s.time % 2 ^ 17 = 0 → s.ftm.epochDone = s.time)) →
    ∃ t, exec (.partitionRestart p) s = .next t ∧ partSt t p = 0 ∧ t.sched = [] ∧ t.tick = s.tick + (e.inst - entTime s e) ∧
      (∀ q, q ≠ p → partSt t q = partSt s q))

/-- Parts of R198, R199, R200, R201, Table 10.6, Table 10.7: a partition reset begins with a command, a write of PART_CTL or a hot reset
of its host link, and counts its cause: what the partition holds is dropped, its forwarded requests lose their answers; a
restart that was armed leaves the table; when its steps are done the partition's decoder is uncommitted and its fences are
gone.
The model's choices here are those of log 55 and 56. -/
def Obligations.PartitionReset : Prop :=
  (∀ (s : State) (c : Ctx) (p : Nat), CoreActs s → NoneDue s → frozen s = false → p < 128 → resetting s p = false →
    ∃ t, exec (.partReset c p) s = .next t ∧ resetting t p = true ∧ (partOf t p).resetCtx = [c] ∧
      rd t (.part p) F.PART_STS_RESETTING = 1 ∧ rd t (.part p) F.PART_STS_RST_CAUSE = 1 ∧
      rd t (.part p) F.PART_RST_CNT_MGR = min (rd s (.part p) F.PART_RST_CNT_MGR + 1) 255 ∧
      (∀ h ∈ t.maps.held, h.part ≠ p) ∧ (∀ w ∈ t.maps.ioWait, w.part ≠ p) ∧
      (∀ f ∈ t.maps.fwds, f.part = p → f.agent = .host → f.dropped = true) ∧ (∀ e ∈ t.sched, e.act ≠ .restart p) ∧
      (∀ r ∈ t.home.slots, r.part ≠ p) ∧ (∀ q, q ≠ p → partOf t q = partOf s q) ∧ t.maps.binds = s.maps.binds ∧
      t.wab.ents = s.wab.ents) ∧
  (∀ (s : State) (p : Nat), NoneDue s → Takes s (.part p) → resetting s p = false →
    ∃ t, exec (.partCtlReset p) s = .next t ∧ resetting t p = true ∧ (partOf t p).resetCtx = [] ∧
      rd t (.part p) F.PART_CTL_RESET = 1 ∧ rd t (.part p) F.PART_STS_RST_CAUSE = 1 ∧ t.maps.binds = s.maps.binds) ∧
  (∀ (s : State) (lead : Nat), NoneDue s → canReceive s lead = true → roleOf s lead = 1 →
    resetting s (hpartOf s lead) = false →
    ∃ t, exec (.hotReset lead) s = .next t ∧ resetting t (hpartOf s lead) = true ∧
      rd t (.part (hpartOf s lead)) F.PART_STS_RST_CAUSE = 2 ∧ t.maps.binds = s.maps.binds) ∧
  (∀ (s : State) (p : Nat), NoneDue s → frozen s = false → resetting s p = true → (∀ d ∈ s.wab.drains, d.part ≠ p) →
    (∀ e ∈ s.home.loq, e.part ≠ p) → (partOf s p).snoops = [] → (partOf s p).intoStop = false → partSt s p ≠ 1 →
    ∃ t, exec (.partResetDone p) s = .next t ∧ resetting t p = false ∧ rd t (.part p) F.PART_STS_RESETTING = 0 ∧
      rd t (.part p) F.PART_CTL_RESET = 0 ∧ rd t (.pmd p) F.PMD_STS_DEC_COMMIT = 0 ∧ partSt t p = partSt s p ∧
      tget 0 t.wab.fseq p = 0 ∧ t.maps.binds = s.maps.binds ∧ (∀ g, bit (tget 0 t.home.sgFenced g) p = false))

/-- Parts of R206, R207, R211, R213, R217: an SQ tail that the rule accepts is taken, another sets DB_ERR, and so does any doorbell of a
STOPPED queue; room in a completion ring lets held completions out and ends the pause; QINV fetches entries again; a queue
starts with empty rings, through its own endpoint alone; a function-level reset or the loss of an endpoint's link stops its
queues, and commands that are dispatched become orphans.
The model's choices here are those of log 87, 89 and 90. -/
def Obligations.QueuesAndDoorbells : Prop :=
  (∀ (s : State) (ep q v n : Nat), qRun s ep q = true → rd s (.mq ep q) F.MQ_Q_CFG_SQ_LOG2 ≤ 12 → n = sqN s ep q → v < 2 * n →
    (rd s (.mq ep q) F.MQ_Q_SQ_TAIL + 2 * n - rd s (.mq ep q) F.MQ_Q_SQ_HEAD) % (2 * n) ≤
      (v + 2 * n - rd s (.mq ep q) F.MQ_Q_SQ_HEAD) % (2 * n) →
    (v + 2 * n - rd s (.mq ep q) F.MQ_Q_SQ_HEAD) % (2 * n) ≤ n →
    ∃ t, exec (.sqTailDoorbell ep q v) s = .next t ∧ rd t (.mq ep q) F.MQ_Q_SQ_TAIL = v ∧ t.mq = s.mq ∧ t.out = s.out) ∧
  (∀ (s : State) (ep q v : Nat), qRun s ep q = true →
    2 * sqN s ep q ≤ v ∨ sqN s ep q <
      (v + 2 * sqN s ep q - rd s (.mq ep q) F.MQ_Q_SQ_HEAD) % (2 * sqN s ep q) →
    ∃ t, exec (.sqTailDoorbell ep q v) s = .next t ∧ rd t (.mq ep q) F.MQ_Q_STS_DB_ERR = 1 ∧
      rd t (.mq ep q) F.MQ_Q_SQ_TAIL = rd s (.mq ep q) F.MQ_Q_SQ_TAIL ∧ t.mq.flying = s.mq.flying) ∧
  (∀ (s : State) (ep q v : Nat), qRun s ep q = false →
    ∃ t, exec (.sqTailDoorbell ep q v) s = .next t ∧ rd t (.mq ep q) F.MQ_Q_STS_DB_ERR = 1 ∧
      rd t (.mq ep q) F.MQ_Q_SQ_TAIL = rd s (.mq ep q) F.MQ_Q_SQ_TAIL ∧ t.mq = s.mq) ∧
  (∀ (s : State) (ep q v n : Nat) (x : Cpl), qRun s ep q = true → rd s (.mq ep q) F.MQ_Q_CFG_CQ_LOG2 ≤ 12 → n = cqN s ep q →
    v < 2 * n → heldOf s ep q = [x] → (x.ctx.ep, x.ctx.q) = (ep, q) → rdb s (.mq ep q) F.MQ_Q_STS_DMA_ERR = false →
    tget none s.mq.cplErr (qkey ep q) = none →
    v ≠ rd s (.mq ep q) F.MQ_Q_CQ_HEAD → rd s (.mq ep q) F.MQ_Q_CQ_HEAD < 2 * n → rd s (.mq ep q) F.MQ_Q_CQ_TAIL < 2 * n →
    (v + 2 * n - rd s (.mq ep q) F.MQ_Q_CQ_HEAD) % (2 * n) ≤
      (rd s (.mq ep q) F.MQ_Q_CQ_TAIL + 2 * n - rd s (.mq ep q) F.MQ_Q_CQ_HEAD) % (2 * n) →
    (rd s (.mq ep q) F.MQ_Q_CQ_TAIL + 2 * n - rd s (.mq ep q) F.MQ_Q_CQ_HEAD) % (2 * n) ≤ n →
    ∃ t, exec (.cqHeadDoorbell ep q v) s = .next t ∧ rd t (.mq ep q) F.MQ_Q_CQ_HEAD = v ∧ heldOf t ep q = [] ∧
      rd t (.mq ep q) F.MQ_Q_STS_CQ_PAUSED = 0 ∧
      (∃ i ph hd addr image, .cpl ep q i ph hd x addr image ∈ t.out.drop s.out.length)) ∧
  (∀ (s : State) (ep q : Nat), qRun s ep q = true →
    ∃ t, exec (.qinvDoorbell ep q) s = .next t ∧ (ep, q) ∉ t.mq.ordWait ∧ cacheOf t ep q = [] ∧ t.regs = s.regs ∧
      t.mq.flying = s.mq.flying ∧
      t.out = s.out) ∧
  (∀ (s : State) (ep q : Nat) (v : Word), Takes s (.mq ep q) → rd s (.mq ep q) F.BLK_CTL_RUN = 2 →
    F.BLK_CTL_RUN.of v.toNat = 0 → 4 ≤ rd s (.mq ep q) F.MQ_Q_CFG_SQ_LOG2 → rd s (.mq ep q) F.MQ_Q_CFG_SQ_LOG2 ≤ 12 →
    4 ≤ rd s (.mq ep q) F.MQ_Q_CFG_CQ_LOG2 → rd s (.mq ep q) F.MQ_Q_CFG_CQ_LOG2 ≤ 12 →
    ∃ t, exec (.queueBlkCtlWrite ep ep q v) s = .next t ∧ rd t (.mq ep q) F.BLK_CTL_RUN = 0 ∧
      rd t (.mq ep q) F.MQ_Q_SQ_HEAD = 0 ∧ rd t (.mq ep q) F.MQ_Q_SQ_TAIL = 0 ∧ rd t (.mq ep q) F.MQ_Q_CQ_HEAD = 0 ∧
      rd t (.mq ep q) F.MQ_Q_CQ_TAIL = 0 ∧ t.mq = s.mq) ∧
  (∀ (s : State) (ep q : Nat) (v : Word), Takes s (.mq ep q) → ep < 2 →
    ∃ t, exec (.queueBlkCtlWrite (1 - ep) ep q v) s = .next t ∧ rd t (.mq ep q) F.BLK_STS_CFG_REJECT = 1 ∧
      rd t (.mq ep q) F.BLK_CTL_RUN = rd s (.mq ep q) F.BLK_CTL_RUN ∧ t.mq = s.mq) ∧
  (∀ (s : State) (ep : Nat), ep < 2 →
    ∃ t, exec (.functionLevelReset ep) s = .next t ∧ (∀ q, q < 64 → rd t (.mq ep q) F.BLK_CTL_RUN = 2) ∧
      (∀ f ∈ t.mq.flying, f.ctx.ep = ep → f.orphan = true) ∧ (∀ x ∈ t.mq.heldCpl, x.1 / 64 ≠ ep) ∧
      (∀ q, q < 64 → ∀ f ∈ (Page.mq (1 - ep) q).fields, rd t (.mq (1 - ep) q) f = rd s (.mq (1 - ep) q) f) ∧ t.maps = s.maps ∧
        t.sched = s.sched) ∧
  (∀ (s : State) (ep : Nat), ep < 2 → ep ∉ s.mq.lost →
    ∃ t, exec (.mgmtLinkLoss ep) s = .next t ∧ ep ∈ t.mq.lost ∧ ep ∉ t.mq.mgmtUp ∧
      (∀ f ∈ t.mq.flying, f.ctx.ep = ep → f.orphan = true)) ∧
  (∀ (s : State) (ep : Nat), s.mode.isUp = true → s.rst.refOut = true → ep ∉ s.mq.mgmtUp →
    ∃ t, exec (.mgmtLinkUp ep) s = .next t ∧ ep ∈ t.mq.mgmtUp ∧ ep ∉ t.mq.lost ∧ t.regs = s.regs)

/-- Parts of R208, R209, R210, R211, R214, R215, R218, R221, R300, Table 11.5, Table 15.8: a dispatched command is copied, the SQ head
passes it, and it completes with its own status; SEQ_ERR and BAD_OPCODE complete it unexecuted, a fetch error stops the queue, and an
error announced for its completion's write stops it too and holds that completion; NOP, IDENTIFY, MODE_SET, REG_READ
and REG_WRITE do what their rows say.
The model's choices here are those of log 36 and 140. -/
def Obligations.QueueCommands : Prop :=
  (∀ (s : State) (ep q : Nat) (r : Rr) (es rest : List (BitVec 512)) (w : BitVec 512) (e : SqEntry) (c : Ctx), NoneDue s →
    coreLeft s = true → s.flt.takeover = false → rrPick s ep = some (q, r) → cacheOf s ep q ++ es = w :: rest →
    0 < ringDiff (sqN s ep q) (rd s (.mq ep q) F.MQ_Q_SQ_TAIL) (rd s (.mq ep q) F.MQ_Q_SQ_HEAD) → e = sqEntryOf w →
    s.mq.flying = [] → heldOf s ep q = [] → cqFull s ep q = false → s.mq.cplErr = [] →
    e.opcode = 0 → e.atT = false → e.seq = rd s (.mq ep q) F.MQ_QSEQ_CMD_EXP → c.ep = ep → c.q = q → c.seq = e.seq →
    c.sqidx = rd s (.mq ep q) F.MQ_Q_SQ_HEAD % sqN s ep q → c.gen = genOf s ep →
    ∃ t, exec (.commandDispatch ep es false none) s = .next t ∧ Completed s t c 0 0 0 0 ∧ t.mq.flying = [] ∧
      rd t (.mq ep q) F.MQ_Q_SQ_HEAD = (rd s (.mq ep q) F.MQ_Q_SQ_HEAD + 1) % (2 * sqN s ep q) % 2 ^ 13 ∧
      rd t (.mq ep q) F.MQ_QSEQ_CMD_EXP = (e.seq + 1) % 2 ^ 16) ∧
  (∀ (s : State) (ep q : Nat) (r : Rr) (es rest : List (BitVec 512)) (w : BitVec 512) (e : SqEntry) (c : Ctx), NoneDue s →
    coreLeft s = true → rrPick s ep = some (q, r) → cacheOf s ep q ++ es = w :: rest →
    0 < ringDiff (sqN s ep q) (rd s (.mq ep q) F.MQ_Q_SQ_TAIL) (rd s (.mq ep q) F.MQ_Q_SQ_HEAD) → e = sqEntryOf w →
    s.mq.flying = [] → heldOf s ep q = [] → cqFull s ep q = false → s.mq.cplErr = [] →
    rdb s (.mq ep q) F.MQ_Q_CFG_SEQ_CHK = true → e.seq ≠ rd s (.mq ep q) F.MQ_QSEQ_CMD_EXP → c.ep = ep → c.q = q →
    c.seq = e.seq → c.sqidx = rd s (.mq ep q) F.MQ_Q_SQ_HEAD % sqN s ep q → c.gen = genOf s ep →
    (∃ t, exec (.commandDispatch ep es false none) s = .next t ∧ Completed s t c e.opcode 4 0 0 ∧ t.maps = s.maps ∧
      t.sched = s.sched) ∧
    (∃ t, exec (.commandDispatch ep es false (some 0)) s = .next t ∧ rd t (.mq ep q) F.MQ_Q_STS_DMA_ERR = 1 ∧
      heldOf t ep q = [⟨c, e.opcode, 4, false, 0, 0, s.time⟩] ∧ rd t (.mq ep q) F.MQ_Q_CQ_TAIL = rd s (.mq ep q) F.MQ_Q_CQ_TAIL)) ∧
  (∀ (s : State) (ep q : Nat) (r : Rr) (es : List (BitVec 512)) (k : Option Nat), NoneDue s → coreLeft s = true →
    rrPick s ep = some (q, r) →
    ∃ t, exec (.commandDispatch ep es true k) s = .next t ∧ rd t (.mq ep q) F.MQ_Q_STS_DMA_ERR = 1 ∧
      rd t (.mq ep q) F.MQ_Q_SQ_HEAD = rd s (.mq ep q) F.MQ_Q_SQ_HEAD ∧ t.mq.flying = s.mq.flying) ∧
  (∀ (s : State) (c : Ctx), CoreActs s → Hears s c →
    ∃ t, exec (.nop c) s = .next t ∧ Completed s t c 0 0 0 0 ∧ t.maps = s.maps ∧ t.ports = s.ports ∧ t.core = s.core ∧
      t.home = s.home ∧ t.wab = s.wab ∧ t.sched = s.sched ∧ t.mode = s.mode) ∧
  (∀ (s : State) (c : Ctx), CoreActs s → Hears s c →
    ∃ t, exec (.identify c) s = .next t ∧ Completed s t c 1 0 Config.serial.toNat (runVersion s) ∧ t.maps = s.maps) ∧
  (∀ (s : State) (c : Ctx), CoreActs s → s.flt.fatal = none → s.mode = .maintenance → degCond s = false →
    ∃ t, exec (.modeSet c 0) s = .next t ∧ t.mode = .run) ∧
  (∀ (s : State) (c : Ctx), CoreActs s → Hears s c → s.flt.fatal = none → s.mode = .run →
    ∃ t, exec (.modeSet c 1) s = .next t ∧ t.mode = .maintenance ∧ Completed s t c 4 0 0 0) ∧
  (∀ (s : State) (c : Ctx), CoreActs s → Hears s c → s.mode = .standby → rd s .ftm F.FTM_STS_STATE = 0 →
    ∃ t, exec (.modeSet c 0) s = .next t ∧ t.mode = .standby ∧ Completed s t c 4 0x1B 0 0) ∧
  (∀ (s : State) (c : Ctx) (p : Nat), NoneDue s → CoreActs s → Hears s c → s.mode.isUp = true → p < 128 →
    ∃ t, exec (.regRead c ⟨(Page.part p).base + 0x44, false⟩) s = .next t ∧
      Completed s t c 5 0 (rd s (.part p) F.PART_CFG_QTMO) 0 ∧ t.parts = s.parts) ∧
  (∀ (s : State) (c : Ctx) (off : Nat) (lost : Bool), NoneDue s → CoreActs s → Hears s c → off % 4 ≠ 0 ∨ 0x4000000 ≤ off →
    ∃ t, exec (.regRead c ⟨off, lost⟩) s = .next t ∧ Completed s t c 5 2 0 0 ∧ t.maps = s.maps) ∧
  (∀ (s : State) (c : Ctx) (p : Nat) (v : Word), CoreActs s → NoneDue s → Hears s c → Takes s (.part p) → p < 128 → c.ep < 2 →
    c.q < 64 →
    s.mq.parked = [] → rd s (.part p) F.BLK_STS_CFG_REJECT_CNT = 0 →
    ∃ t, exec (.regWrite c none ⟨(Page.part p).base + 0x44, false⟩ v 0xFFFFFFFF) s = .next t ∧ Completed s t c 6 0 0 0 ∧
      rd t (.part p) F.PART_CFG_QTMO = max 1000 (min 1000000 (v.toNat % 2 ^ 20)) ∧
      (∀ q, q ≠ p → ∀ f ∈ (Page.part q).fields, rd t (.part q) f = rd s (.part q) f) ∧ t.maps = s.maps ∧ t.ports = s.ports)

/-- Parts of R223, R224, R225: an event queue that is full drops its oldest event and counts it; a consume doorbell frees the events up
to the SEQ it names, is applied before a post of the same tick that met the full queue (nothing is then lost), and one beyond NEXT
sets DB_ERR; EVQ_RESET empties the queue; the idle timeout raises the vector, or its
pending bit where the vector is masked; the window
reads the events; TABLE_READ and SNAPSHOT write to the manager's buffer.
The model's choices here are those of log 3, 8 and 88. -/
def Obligations.EventQueues : Prop :=
  (∀ (s : State) (q typ : Nat) (pay : List (Nat × Nat)), 1 ≤ rd s (.evq q) F.MQ_EVQ_CFG_CAP →
    (evList s q).length = rd s (.evq q) F.MQ_EVQ_CFG_CAP →
    evList (post q typ pay s) q =
        (evList s q).drop 1 ++ [⟨rd s (.evq q) F.MQ_EVQ_NEXT_SEQ, typ, q, false, s.time, pay⟩] ∧
      rd (post q typ pay s) (.evq q) F.MQ_EVQ_LOST_EVQ_LOST = min (rd s (.evq q) F.MQ_EVQ_LOST_EVQ_LOST + 1) (2 ^ 32 - 1) ∧
      rd (post q typ pay s) (.evq q) F.MQ_EVQ_NEXT_SEQ = (rd s (.evq q) F.MQ_EVQ_NEXT_SEQ + 1) % 2 ^ 32) ∧
  (∀ (s : State) (q ep x k : Nat), (tget none s.mq.ovw q).all (·.tick != s.tick) = true → (evList s q).length ≤ 32768 →
    k ≤ (evList s q).length →
    x % 2 ^ 32 = (rd s (.evq q) F.MQ_EVQ_NEXT_SEQ + 2 ^ 33 - (evList s q).length + k - 1) % 2 ^ 32 →
    ∃ t, exec (.evqConsumeDoorbell ⟨ep, q⟩ x) s = .next t ∧ evList t q = (evList s q).drop k ∧ t.regs = s.regs ∧
      (∀ p, p ≠ q → evList t p = evList s p)) ∧
  (∀ (s : State) (q ep typ : Nat) (pay : List (Nat × Nat)) (e : Event) (l : List Event),
    (tget none s.mq.ovw q).all (·.tick != s.tick) = true → rd s (.evq q) F.MQ_EVQ_CFG_CAP ≤ 32768 →
    evList s q = e :: l → l.length + 1 = rd s (.evq q) F.MQ_EVQ_CFG_CAP →
    ∃ t, exec (.evqConsumeDoorbell ⟨ep, q⟩ (rd s (.evq q) F.MQ_EVQ_NEXT_SEQ + 2 ^ 32 - (l.length + 1))) (post q typ pay s) =
        .next t ∧
      evList t q = l ++ [⟨rd s (.evq q) F.MQ_EVQ_NEXT_SEQ, typ, q, false, s.time, pay⟩] ∧
      rd t (.evq q) F.MQ_EVQ_LOST_EVQ_LOST = rd s (.evq q) F.MQ_EVQ_LOST_EVQ_LOST) ∧
  (∀ (s : State) (q ep : Nat), (tget none s.mq.ovw q).all (·.tick != s.tick) = true → q ≠ 128 → (evList s q).length ≤ 32768 →
    ∃ t, exec (.evqConsumeDoorbell ⟨ep, q⟩ (rd s (.evq q) F.MQ_EVQ_NEXT_SEQ)) s = .next t ∧ evList t q = evList s q ∧
      rd t (.evq q) F.MQ_EVQ_STS_DB_ERR = 1) ∧
  (∀ (s : State) (c : Ctx) (q : Nat), CoreActs s → Hears s c → q ≤ 128 →
    ∃ t, exec (.evqReset c q) s = .next t ∧ evList t q = [] ∧ Completed s t c 8 0 (evList s q).length 0 ∧
      (∀ p, p ≠ q → evList t p = evList s p)) ∧
  (∀ (s : State) (q n ep vec : Nat), ep = rd s (.evq q) F.MQ_EVQ_CFG_EP → vec = rd s (.evq q) F.MQ_EVQ_VEC_VEC →
    clockRuns s = true → rd s (.evq q) F.MQ_EVQ_TMO_TMO ≠ 0 → evList s q ≠ [] →
    tget none s.mq.timers q = some n → rdb s (.evq q) F.MQ_EVQ_VEC_INT_EN = true →
    mgUp s ep = true →
    ∃ t, exec (.evqIdleTimeout q) s = .next t ∧ t.tick = max s.tick (n + rd s (.evq q) F.MQ_EVQ_TMO_TMO) ∧
      (msixMasked s ep vec = false → t.out = s.out ++ [.msix ep vec]) ∧
      (msixMasked s ep vec = true → t.out = s.out ∧ vecKey ep vec ∈ t.mq.pba) ∧
      tget none t.mq.timers q = some t.tick ∧ evList t q = evList s q) ∧
  (∀ (s : State) (ep q : Nat) (e : Event) (l : List Event), s.mode.isUp = true → evList s q = e :: l →
    ∃ t, exec (.evqWindowRead ep q) s = .next t ∧ .regData ep ((Page.evq q).base + 0x400) e.seq ∈ t.out ∧
      tget none t.mq.timers q = some s.tick ∧ evList t q = evList s q ∧ t.regs = s.regs) ∧
  (∀ (s : State) (c : Ctx) (first n buf : Nat), NoneDue s → CoreActs s → Hears s c → mgUp s c.ep = true → first + n ≤ 4096 →
    ∃ t, exec (.tableRead c 1 first n buf true) s = .next t ∧ Completed s t c 0x25 0 n 0 ∧ t.maps = s.maps ∧
      .dma c.ep buf (16 * n) ((List.range' first n).flatMap fun g =>
        (List.range 4).map fun k => tget 0 s.home.sgMem g / 2 ^ (32 * k) % 2 ^ 32) ∈ t.out) ∧
  (∀ (s : State) (c : Ctx) (buf : Nat), CoreActs s → Hears s c → mgUp s c.ep = true → s.tel.snapWin = none →
    ∃ t, exec (.snapshot c buf 8 true) s = .next t ∧ Completed s t c 7 0 8 0 ∧ .dma c.ep buf 8 [0, 0] ∈ t.out) ∧
  (∀ (s : State) (c : Ctx) (buf len : Nat), CoreActs s → Hears s c →
    ∃ t, exec (.snapshot c buf len false) s = .next t ∧ Completed s t c 7 0x1C 0 0)

/-- Parts of R227, R229, R230, R234, R235, R241, R326, R329: an unmasked source that asserts is counted once, sets its sticky bit and posts
FAULT; while the bit is set further assertions merge; a masked one does nothing; REACT FATAL starts FATAL handling; a broken
wire reads as such; injection needs MAINTENANCE; a sticky bit clears unless its source asserted in this tick; a source with REACT
FATAL is not masked; REACT takes an allowed value.
The model's choices here are those of log 66, 103 and 150. -/
def Obligations.FaultCollection : Prop :=
  (∀ (s : State) (n l : Nat) (i : SrcInfo) (x : Page × Nat), n < 0x200 → srcInfo n = some i → srcPage n = some x →
    srcMasked s n = false → (srcOf s n).pair ≠ 2 → s.mode.isUp = true → s.flt.fatal = none → (srcOf s n).sticky = false →
    reactOf s n = 0 ∨ reactOf s n = 1 → 2 ≤ rd s (.evq 128) F.MQ_EVQ_CFG_CAP →
    ∃ t, exec (.faultAssertion n 0 l false) s = .next t ∧ (srcOf t n).sticky = true ∧
      (srcOf t n).opens.length = (srcOf s n).opens.length + 1 ∧
      (srcOf t n).cnt = min ((srcOf s n).cnt + 1) 0xFFFFFFFF ∧ (∀ m, m ≠ n → srcOf t m = srcOf s m) ∧
      (∃ e ∈ evList t 128, e.typ = 0x10 ∧ e.seq = rd s (.evq 128) F.MQ_EVQ_NEXT_SEQ ∧ (16, n) ∈ e.payload) ∧
      t.maps = s.maps ∧ t.ports = s.ports ∧ t.wab = s.wab) ∧
  (∀ (s : State) (n l : Nat) (i : SrcInfo) (x : Page × Nat), n < 0x200 → srcInfo n = some i → srcPage n = some x →
    srcMasked s n = false → (srcOf s n).pair ≠ 2 → s.mode.isUp = true → s.flt.fatal = none → (srcOf s n).sticky = true →
    reactOf s n = 0 ∨ reactOf s n = 1 →
    ∃ t, exec (.faultAssertion n 0 l false) s = .next t ∧ (srcOf t n).cnt = (srcOf s n).cnt ∧
      rd t x.1 F.ERR_MERGE_CNT_MERGES = min (rd s x.1 F.ERR_MERGE_CNT_MERGES + 1) 0xFFFFFFFF ∧ t.mq = s.mq ∧ t.maps = s.maps) ∧
  (∀ (s : State) (n l : Nat), n < 0x200 → srcMasked s n = true →
    ∃ t, exec (.faultAssertion n 0 l false) s = .next t ∧ t.flt = s.flt ∧ t.mq = s.mq ∧ t.regs = s.regs ∧ t.maps = s.maps) ∧
  (∀ (s : State) (n l : Nat) (i : SrcInfo) (x : Page × Nat), n < 0x200 → srcInfo n = some i → srcPage n = some x →
    srcMasked s n = false → (srcOf s n).pair ≠ 2 → s.mode.isUp = true → s.flt.fatal = none → reactOf s n = 4 →
    ∃ t, exec (.faultAssertion n 0 l false) s = .next t ∧
      t.flt.fatal = some ⟨s.tick, s.time, n, s.mode.code, none, false⟩ ∧ t.wab.wait = some s.tick ∧
      t.flt.emberHeld = true ∧ t.dbg.unlocked = false ∧ .order 1 n ∈ t.out) ∧
  (∀ (s : State) (n : Nat) (i : SrcInfo), srcInfo n = some i → (srcOf s n).pair ≠ 2 →
    ∃ t, exec (.wireBroken n) s = .next t ∧ (srcOf t n).pair = 2) ∧
  (∀ (s : State) (n : Nat), (srcOf s n).pair = 2 → (srcOf s n).drive = none →
    ∃ t, exec (.wireRestored n) s = .next t ∧ srcOf t n = { srcOf s n with pair := 0 } ∧
      (∀ m, m ≠ n → srcOf t m = srcOf s m) ∧ t.regs = s.regs) ∧
  (∀ (s : State) (n d : Nat), (srcOf s n).pair = 2 → (srcOf s n).drive = some d → clockRuns s = true →
    ∃ t, exec (.wireRestored n) s = .next t ∧ t.tick = max s.tick d ∧
      srcOf t n = { srcOf s n with pair := 0, drive := none }) ∧
  (∀ (s : State) (pg : Page) (v : Word), pageAt (pg.base / 0x1000) = some pg → pg.base % 0x1000 = 0 → Takes s pg →
    s.mode ≠ .maintenance →
    ∃ t, exec (.errInject (pg.base + 0x18) v) s = .next t ∧ rd t pg F.BLK_STS_CFG_REJECT = 1 ∧ t.flt = s.flt ∧ t.mq = s.mq) ∧
  (∀ (s : State) (pg : Page) (k n : Nat) (i : SrcInfo), pageAt (pg.base / 0x1000) = some pg → pg.base % 0x1000 = 0 →
    s.mode = .maintenance → k ∈ pg.srcBits → n = pg.srcNum k → n < 0x200 → srcInfo n = some i →
    srcPage n = some (pg, k) → srcMasked s n = false → (srcOf s n).pair ≠ 2 → s.flt.fatal = none →
    (srcOf s n).sticky = false → reactOf s n = 0 ∨ reactOf s n = 1 →
    ∃ t, exec (.errInject (pg.base + 0x18) (BitVec.ofNat 32 (2 ^ k))) s = .next t ∧ (srcOf t n).sticky = true ∧
      (srcOf t n).cnt = min ((srcOf s n).cnt + 1) 0xFFFFFFFF ∧ t.maps = s.maps) ∧
  (∀ (s : State) (pg : Page) (k : Nat), pageAt (pg.base / 0x1000) = some pg → pg.base % 0x1000 = 0 → Takes s pg →
    k ∈ pg.srcBits → (srcOf s (pg.srcNum k)).asTick ≠ some s.tick →
    ∃ t, exec (.errStickyClear (pg.base + 0x10) (BitVec.ofNat 32 (2 ^ k))) s = .next t ∧
      srcOf t (pg.srcNum k) = { srcOf s (pg.srcNum k) with sticky := false } ∧
      (∀ m, m ≠ pg.srcNum k → srcOf t m = srcOf s m) ∧ t.regs = s.regs) ∧
  (∀ (s : State) (pg : Page) (k : Nat), pageAt (pg.base / 0x1000) = some pg → pg.base % 0x1000 = 0 → Takes s pg →
    k ∈ pg.srcBits → (srcOf s (pg.srcNum k)).asTick = some s.tick → (srcOf s (pg.srcNum k)).asOpen = true →
    ∃ t, exec (.errStickyClear (pg.base + 0x10) (BitVec.ofNat 32 (2 ^ k))) s = .next t ∧ t.flt = s.flt ∧ t.regs = s.regs) ∧
  (∀ (s : State) (pg : Page) (k : Nat), pageAt (pg.base / 0x1000) = some pg → pg.base % 0x1000 = 0 → Takes s pg →
    k ∈ pg.srcBits → reactOf s (pg.srcNum k) ≠ 4 →
    ∃ t, exec (.errMaskWrite (pg.base + 0x14) (BitVec.ofNat 32 (2 ^ k))) s = .next t ∧
      rd t pg F.ERR_MASK_MASK = 2 ^ k ∧ t.flt = s.flt) ∧
  (∀ (s : State) (pg : Page) (k : Nat), pageAt (pg.base / 0x1000) = some pg → pg.base % 0x1000 = 0 → Takes s pg →
    k ∈ pg.srcBits → reactOf s (pg.srcNum k) = 4 →
    ∃ t, exec (.errMaskWrite (pg.base + 0x14) (BitVec.ofNat 32 (2 ^ k))) s = .next t ∧
      rd t pg F.ERR_MASK_MASK = rd s pg F.ERR_MASK_MASK ∧ rd t pg F.BLK_STS_CFG_REJECT = 1) ∧
  (∀ (s : State) (n r : Nat) (i : SrcInfo), r < 8 → n = rd s .flt F.FLT_SRC_IDX_SRC → srcInfo n = some i →
    bit i.allowed r = true →
    ∃ t, exec (.fltSrcReactWrite (BitVec.ofNat 32 r)) s = .next t ∧ reactOf t n = r ∧
      (∀ m, m ≠ n → srcOf t m = srcOf s m)) ∧
  (∀ (s : State) (n r : Nat) (i : SrcInfo), r < 8 → n = rd s .flt F.FLT_SRC_IDX_SRC → srcInfo n = some i →
    bit i.allowed r = false →
    ∃ t, exec (.fltSrcReactWrite (BitVec.ofNat 32 r)) s = .next t ∧ reactOf t n = reactOf s n ∧
      rd t .flt F.BLK_STS_CFG_REJECT = 1)

/-- Parts of R237, R242, R243, R244, R245: when the drain of FATAL handling has ended the module freezes in FATAL_HOLD; the dump that is
written shows DONE and its destination; DUMP_BUF_SET and the segment register say where a dump may go; DUMP_FETCH reads a dump of
the segment, and waits while the drain runs; the module watchdog holds EMBER.
The model's choices here are those of log 54, 66, 151 and 152. -/
def Obligations.FatalHoldAndDumps : Prop :=
  (∀ (s : State) (f : Fatal), s.flt.fatal = some f → f.frozen = none → s.mode.isUp = true → fatalDrained s f = true →
    ∃ t, exec .fatalFreeze s = .next t ∧ t.mode = .fatalHold ∧ t.flt.fatal = some { f with frozen := some s.time } ∧
      t.wab.wait = none ∧ t.wab.ents = s.wab.ents ∧ .order 2 f.src ∈ t.out ∧
      (coreLeft s = true → ∃ d, t.flt.dump = some d ∧ d.trigger = 0 ∧ d.done = false ∧ d.tFault = f.time)) ∧
  (∀ (s : State) (d : Dump), s.flt.dump = some d → d.done = false → s.rst.warmHeld = none →
    ∃ t, exec .dumpWritten s = .next t ∧ rd t .flt F.FLT_DUMP_STS_DONE = 1 ∧ rd t .flt F.FLT_DUMP_STS_DEST = d.dest % 4 ∧
      t.flt.dump.map (fun x => (x.seq, x.done)) = some (d.seq, true) ∧ t.wab = s.wab) ∧
  (∀ (s : State) (c : Ctx) (buf len : Nat), CoreActs s → Hears s c →
    ∃ t, exec (.dumpBufSet c buf len) s = .next t ∧ tget none t.mq.dumpBuf c.ep = some (buf, len) ∧
      Completed s t c 0x52 0 0 0) ∧
  (∀ (s : State) (c : Ctx) (num buf len : Nat) (good : Bool), CoreActs s → Hears s c →
    (s.flt.fatal.any fun f => f.frozen.isNone) = false →
    rd s .flt F.FLT_DSEG_CFG_EN = 0 ∨ (s.flt.segDumps.all fun d => d.seq != num) = true →
    ∃ t, exec (.dumpFetch c num buf len good) s = .next t ∧ Completed s t c 0x53 0x1E 0 0) ∧
  (∀ (s : State) (c : Ctx) (d : Dump) (buf len : Nat), CoreActs s → Hears s c → frozen s = false → s.flt.fatal = none →
    s.flt.segDumps = [d] → rd s .flt F.FLT_DSEG_CFG_EN = 1 → d.lead = rd s .flt F.FLT_DSEG_CFG_LEAD →
    d.ld = rd s .flt F.FLT_DSEG_CFG_LD →
    d.addr = rd s .flt F.FLT_DSEG_DPA_LO_DPA_LO * 2 ^ 21 + rd s .flt F.FLT_DSEG_DPA_HI_DPA_HI * 2 ^ 32 →
    d.total ≤ 2 ^ (21 + rd s .flt F.FLT_DSEG_CFG_SIZE) → linkUp s d.lead = true → mgUp s c.ep = true →
    ∃ t, exec (.dumpFetch c d.seq buf len true) s = .next t ∧ Completed s t c 0x53 0 (min len d.total) 0 ∧
      .dma c.ep buf (min len d.total) (d.words.take ((min len d.total + 3) / 4)) ∈ t.out) ∧
  (∀ (s : State) (c : Ctx) (num buf len : Nat) (good : Bool) (f : Fatal), CoreActs s → s.flt.fatal = some f → f.frozen = none →
    ∃ t, exec (.dumpFetch c num buf len good) s = .next t ∧ t.out = s.out ∧ t.mq = s.mq ∧ t.flt = s.flt) ∧
  (∀ (s : State) (v : Word), F.FLT_DSEG_CFG_EN.of v.toNat = 1 → s.maps.binds = [] →
    ∃ t, exec (.fltDsegCfgWrite v) s = .next t ∧ rd t .flt F.FLT_DSEG_CFG_EN = 1 ∧
      rd t .flt F.FLT_DSEG_CFG_LEAD = F.FLT_DSEG_CFG_LEAD.of v.toNat ∧
      rd t .flt F.FLT_DSEG_CFG_SIZE = min 19 (F.FLT_DSEG_CFG_SIZE.of v.toNat)) ∧
  (∀ (s : State) (v : Word) (i : Nat) (b : Binding), F.FLT_DSEG_CFG_EN.of v.toNat = 1 → (i, b) ∈ s.maps.binds →
    b.valid = true → b.kind = 0 → b.out = F.FLT_DSEG_CFG_LEAD.of v.toNat → b.ld = F.FLT_DSEG_CFG_LD.of v.toNat →
    b.dpaBase = rd s .flt F.FLT_DSEG_DPA_LO_DPA_LO * 2 ^ 21 + rd s .flt F.FLT_DSEG_DPA_HI_DPA_HI * 2 ^ 32 →
    ∃ t, exec (.fltDsegCfgWrite v) s = .next t ∧ rd t .flt F.BLK_STS_CFG_REJECT = 1 ∧
      rd t .flt F.FLT_DSEG_CFG_EN = rd s .flt F.FLT_DSEG_CFG_EN) ∧
  (∀ (s : State), s.flt.wdogOut = false → s.mode.isUp = true → clockRuns s = true →
    ∃ t, exec .moduleWatchdogExpire s = .next t ∧ t.tick = max s.tick (s.flt.wdogFed + rd s .flt F.FLT_WDOG_MOD_TMO) ∧
      t.flt.wdogOut = true ∧ t.flt.emberHeld = true ∧ t.mode = s.mode ∧ t.regs = s.regs)

/-- Parts of R237, R238, R239, R307: a core that does not feed is lost, and the other takes over at its next feed; FW_STAGE fills the
staging store; FW_ACTIVATE checks the image, boots the standby core, which takes over with the new image; when the former active
core is the standby the image goes to flash.
The model's choices here are those of log 62, 63 and 151. -/
def Obligations.CoresAndFirmware : Prop :=
  (∀ (s : State) (c : Nat), c < 2 → c = s.flt.active → (coreOf s c).alive = true → (coreOf s (1 - c)).alive = true →
    s.flt.fw = none → s.mode.isUp = true → clockRuns s = true → srcMasked s (3 + c) = true →
    ∃ t, exec (.coreWatchdogExpire c) s = .next t ∧
      t.tick = max s.tick ((coreOf s c).fed + rd s .flt F.FLT_WDOG_CORE_TMO) ∧ (coreOf t c).alive = false ∧
      t.flt.takeover = true ∧ t.flt.active = s.flt.active ∧
      t.mode = (if s.mode = .run then .degraded else s.mode)) ∧
  (∀ (s : State), (coreOf s s.flt.active).alive = true → s.flt.takeover = false → s.mq.parked = [] →
    ∃ t, exec (.fltWdogFeed s.flt.active) s = .next t ∧ (coreOf t s.flt.active).fed = s.tick ∧ t.flt.wdogFed = s.tick ∧
      t.flt.wdogOut = false ∧ t.flt.active = s.flt.active ∧ t.mq = s.mq) ∧
  (∀ (s : State) (c : Nat), c ≠ s.flt.active → (coreOf s c).alive = true → s.flt.takeover = true → s.flt.fw = none →
    s.mq.parked = [] →
    ∃ t, exec (.fltWdogFeed c) s = .next t ∧ t.flt.active = c ∧ t.flt.takeover = false ∧ t.flt.wdogFed = s.tick ∧
      rd t .flt F.FLT_MC_STS_TAKEOVERS = min (rd s .flt F.FLT_MC_STS_TAKEOVERS + 1) (2 ^ F.FLT_MC_STS_TAKEOVERS.width - 1)) ∧
  (∀ (s : State) (c : Ctx) (off : Nat) (bs : List Nat), CoreActs s → Hears s c → off + bs.length ≤ 2 ^ 24 →
    s.sec.flashBusy = false →
    mgUp s c.ep = true →
    ∃ t, exec (.fwStage c off bs true) s = .next t ∧ Completed s t c 0x50 0 0 0 ∧ rd t .flt F.FLT_FW_STS_STAGED = 1 ∧
      (∀ k, k < bs.length → byteAt t.flt.staging (off + k) = bs.getD k 0 % 256) ∧
      (∀ i, i < off ∨ off + bs.length ≤ i → byteAt t.flt.staging i = byteAt s.flt.staging i)) ∧
  (∀ (s : State) (c : Ctx), CoreActs s → coresHealthy s = true → s.mode = .run → s.sec.flashBusy = false →
    ∃ t, exec (.fwActivate c) s = .next t ∧
      t.flt.fw = (if imageCheck s s.flt.staging = 0 then some ⟨c, 3, s.tick, runVersion s, imageHdr s.flt.staging⟩ else none) ∧
      t.sec = s.sec ∧ t.flt.active = s.flt.active) ∧
  (∀ (s : State) (c : Ctx), CoreActs s → Hears s c → coresHealthy s = true → s.mode = .run → s.sec.flashBusy = false →
    s.flt.staging = [] →
    ∃ t, exec (.fwActivate c) s = .next t ∧ Completed s t c 0x51 0x1D 0 0 ∧ t.flt.fw = none ∧
      rd t .flt F.FLT_FW_STS_LAST = 2) ∧
  (∀ (s : State) (c : Ctx), CoreActs s → Hears s c → s.mode = .standby →
    ∃ t, exec (.fwActivate c) s = .next t ∧ Completed s t c 0x51 0x1B 0 0 ∧ t.flt.fw = s.flt.fw) ∧
  (∀ (s : State) (j : FwJob), s.flt.fw = some j → j.step = 3 → s.tick < j.since + 50000000 → s.flt.active < 2 →
    (coreOf s s.flt.active).alive = true →
    ∃ t, exec .fwStandbyReady s = .next t ∧ t.flt.active = 1 - s.flt.active ∧ t.flt.fw = some { j with step := 5 } ∧
      t.sec.running = some j.img ∧ rd t .flt F.FLT_FW_STS_STEP = 5) ∧
  (∀ (s : State) (j : FwJob), s.flt.fw = some j → j.step = 3 → clockRuns s = true → s.flt.active < 2 →
    ∃ t, exec .fwStandbyTimeout s = .next t ∧ t.tick = max s.tick (j.since + 50000000) ∧ t.flt.fw = none ∧
      t.flt.active = s.flt.active ∧ t.sec.running = s.sec.running ∧ rd t .flt F.FLT_FW_STS_LAST = 3 ∧
      rd t .flt F.FLT_FW_STS_STEP = 0) ∧
  (∀ (s : State) (j : FwJob), s.flt.fw = some j → j.step = 5 →
    ∃ t, exec .formerCoreStandby s = .next t ∧ t.flt.fw = none ∧ t.sec.flashBusy = true ∧
      t.sec.flashCopy = 1 - prefNow s ∧ rd t .flt F.FLT_FW_STS_LAST = 1 ∧ rd t .flt F.FLT_FW_STS_STAGED = 0) ∧
  (∀ (s : State) (r : Nat), s.sec.flashBusy = true → s.sec.flashCopy < 2 →
    ∃ t, exec (.flashWriteDone r) s = .next t ∧ t.sec.flashBusy = false ∧
      flashOf t (1 - s.sec.flashCopy) = flashOf s (1 - s.sec.flashCopy) ∧
      (if r = 1 ∧ imageCheck s s.flt.staging = 0 then
        t.sec.flashRes = 1 ∧ flashOf t s.sec.flashCopy = s.flt.staging ∧ prefNow t = s.sec.flashCopy
      else t.sec.flashRes = (if r = 1 then 3 else r) ∧ prefNow t = prefNow s))

/-- Parts of R248, R249, R251, R252, R253, R258, R261: a bank's CLR waits for the next snapshot; a read of a counter's low half latches the
high half; CTR_FILTER, TAG_SET and SKYLIGHT_SET are in force from their boundary, when they complete; a snapshot that has been
collected is in the window, and with EN in the manager's ring, unless that write fails; a Skylight head moves only as a
completion ring's does, and issues a record of its tick that met the full ring.
The model's choices here are those of log 29, 44, 59, 60, 141 and 157. -/
def Obligations.Telemetry : Prop :=
  (∀ (s : State) (b : Nat) (pg : Page), bankPage b = some pg → Takes s pg → bankHidden s pg = false →
    ∃ t, exec (.ctrBankClear b) s = .next t ∧ rd t pg F.CTR_BANK_CTL_CLR = 1 ∧ t.tel = s.tel ∧ t.rwe = s.rwe) ∧
  (∀ (s : State) (b i slot : Nat) (pg : Page), bankPage b = some pg → s.mode.isUp = true → bankSlot pg = some slot →
    bankHidden s pg = false → i < 8 →
    ∃ t, exec (.ctrLoRead b i false) s = .next t ∧ t.tel.ctrs = s.tel.ctrs ∧
      t.out = s.out ++ [.regData 0 (b * 0x1000 + 0x840 + 8 * i) (tget 0 s.tel.ctrs (8 * slot + i) % 2 ^ 32)] ∧
      tget 0 t.tel.latchHi (8 * slot + i) = tget 0 s.tel.ctrs (8 * slot + i) / 2 ^ 32) ∧
  (∀ (s : State) (c : Ctx) (b : Nat) (f0 f1 f2 : Word) (pg : Page), CoreActs s → bankPage b = some pg → pg.general = true →
    frozen s = false → bankHidden s pg = false → tget none s.rwe (rweKey pg F.CTR_FILT0_PART) = none →
    ∃ t, exec (.ctrFilter c b f0 f1 f2) s = .next t ∧ rd t pg F.CTR_FILT0_PART = f0.toNat / 2 ^ 9 % 2 ^ 7 ∧
      rdf t pg F.CTR_FILT0_PART = rd s pg F.CTR_FILT0_PART ∧ t.mq.due = s.mq.due ++ [⟨true, s.time, c, 0x61⟩] ∧
      t.tel = s.tel) ∧
  (∀ (s : State) (c : Ctx) (n : Nat) (en : Bool), CoreActs s → 8 ≤ n → n ≤ 24 →
    ∃ t, exec (.tagSet c n en) s = .next t ∧ rd t .tel F.TEL_TAG_CFG_N = n ∧ rd t .tel F.TEL_TAG_CFG_EN = en.toNat ∧
      t.mq.due = s.mq.due ++ [⟨false, s.time, c, 0x62⟩] ∧ t.tel = s.tel) ∧
  (∀ (s : State) (c : Ctx) (n : Nat) (en : Bool), CoreActs s → Hears s c → n < 8 ∨ 24 < n →
    ∃ t, exec (.tagSet c n en) s = .next t ∧ Completed s t c 0x62 2 0 0 ∧ t.tel = s.tel ∧ t.rwe = s.rwe) ∧
  (∀ (s : State) (x : Snap) (ok : Bool), s.tel.snapNow = some x → rdf s .tel F.TEL_SNAP_CFG_EN = 0 →
    ∃ t, exec (.snapshotCollected ok) s = .next t ∧ t.tel = { s.tel with snapNow := none, snapWin := some x } ∧
      rd t .tel F.TEL_SNAP_STS_LAST = x.seq % 2 ^ 32 ∧ rd t .tel F.TEL_STS_COLLECTING = 0 ∧ t.out = s.out) ∧
  (∀ (s : State) (x : Snap), s.tel.snapNow = some x → rdf s .tel F.TEL_SNAP_CFG_EN = 1 →
    mgUp s (rdf s .tel F.TEL_SNAP_CFG_EP) = true →
    ∃ t, exec (.snapshotCollected true) s = .next t ∧ t.tel.snapWin = some x ∧
      ∃ a, t.out = s.out ++ [.dma (rdf s .tel F.TEL_SNAP_CFG_EP) a 67648 ((List.range 16912).map x.word)]) ∧
  (∀ (s : State) (x : Snap), s.tel.snapNow = some x → rdf s .tel F.TEL_SNAP_CFG_EN = 1 →
    ∃ t, exec (.snapshotCollected false) s = .next t ∧ t.tel.snapWin = some x ∧ rd t .tel F.TEL_STS_SNAP_DMA = 1 ∧
      rd t .tel F.TEL_SNAP_CFG_EN = 0 ∧ rdf t .tel F.TEL_SNAP_CFG_EN = 0 ∧
      rd t .tel F.TEL_SNAP_STS_LAST = rd s .tel F.TEL_SNAP_STS_LAST) ∧
  (∀ (s : State) (c : Ctx) (base k : Nat), CoreActs s → 6 ≤ k → k ≤ 15 → base % 4096 = 0 → base < 2 ^ 64 →
    ∃ t, exec (.skylightSet c base (2 ^ k)) s = .next t ∧ rd t .tel F.TEL_SKY_CFG_LOG2 = k ∧
      rd t .tel F.TEL_SKY_BASE_LO_BASE_LO * 2 ^ 12 + rd t .tel F.TEL_SKY_BASE_HI_BASE_HI * 2 ^ 32 = base ∧
      rd t .tel F.TEL_SKY_CFG_EP = c.ep % 2 ∧ t.tel.skyPend = some s.time ∧
      t.mq.due = s.mq.due ++ [⟨false, s.time, c, 0x60⟩]) ∧
  (∀ (s : State) (v n : Nat), s.tel.skyWait = [] → s.mode.isUp = true → v < 2 ^ 21 → n = 2 ^ rdf s .tel F.TEL_SKY_CFG_LOG2 →
    v < 2 * n →
    (v + 2 * n - rd s .tel F.TEL_SKY_HEAD_IDX) % (2 * n) ≤
      (rd s .tel F.TEL_SKY_TAIL_IDX + 2 * n - rd s .tel F.TEL_SKY_HEAD_IDX) % (2 * n) →
    ∃ t, exec (.telSkyHeadWrite (BitVec.ofNat 32 v)) s = .next t ∧ rd t .tel F.TEL_SKY_HEAD_IDX = v ∧
      rd t .tel F.TEL_SKY_TAIL_IDX = rd s .tel F.TEL_SKY_TAIL_IDX) ∧
  (∀ (s : State) (v n : Nat) (w : SkyHeld), s.tel.skyWait = [w] → w.tick = s.tick → s.mode.isUp = true → v < 2 ^ 21 →
    n = 2 ^ rdf s .tel F.TEL_SKY_CFG_LOG2 → v = (rd s .tel F.TEL_SKY_HEAD_IDX + 1) % (2 * n) →
    (rd s .tel F.TEL_SKY_TAIL_IDX + 2 * n - rd s .tel F.TEL_SKY_HEAD_IDX) % (2 * n) = n →
    rdb s .tel F.TEL_STS_SKY_DMA = false → mgUp s (rdf s .tel F.TEL_SKY_CFG_EP) = true →
    ∃ t, exec (.telSkyHeadWrite (BitVec.ofNat 32 v)) s = .next t ∧ rd t .tel F.TEL_SKY_HEAD_IDX = v ∧ t.tel.skyWait = [] ∧
      (∃ a, t.out = s.out ++ [.skyRec (rdf s .tel F.TEL_SKY_CFG_EP) a (w.bytes ++ leBytes 4 s.tel.rseq)]) ∧
      t.tel.rseq = (s.tel.rseq + 1) % 2 ^ 32) ∧
  (∀ (s : State) (v : Nat), s.mode.isUp = true → v < 2 ^ 21 → 2 * 2 ^ rdf s .tel F.TEL_SKY_CFG_LOG2 ≤ v →
    ∃ t, exec (.telSkyHeadWrite (BitVec.ofNat 32 v)) s = .next t ∧ rd t .tel F.TEL_SKY_HEAD_IDX = rd s .tel F.TEL_SKY_HEAD_IDX ∧
      t.tel = s.tel)

/-- Parts of R266, R267, R268, R279: a port that loses lock starts its timer, which takes it DOWN unless lock returns; a port with lock
again sends HELLO, and one that hears HELLO is UP; the bypass opens with lock at its taps or after its time, and closes with all
that the ports knew; delay exchanges are sent, answered and measured; a frame with bad CRC is only counted.
The model's choices here are those of log 3, 67 and 70. -/
def Obligations.GuylinePorts : Prop :=
  (∀ (s : State) (o : Bool), s.glr.bypass = false → (gport s o).st ≠ 0 → (gport s o).lostAt = none →
    ∃ t, exec (.lockLoss o) s = .next t ∧ gport t o = { gport s o with lostAt := some s.tick, delays := [], dlyOk := false } ∧
      gport t (!o) = gport s (!o) ∧ rd t .glr F.GLR_CNT_LOCK_LOSS = min (rd s .glr F.GLR_CNT_LOCK_LOSS + 1) 255 ∧
      t.out = s.out) ∧
  (∀ (s : State) (o : Bool) (n : Nat), (gport s o).lostAt = some n → clockRuns s = true →
    ∃ t, exec (.glrPortDown o) s = .next t ∧ t.tick = max s.tick (n + rd s .glr F.GLR_LOCK_TMO_TMO) ∧ (gport t o).st = 0 ∧
      (gport t o).lostAt = none ∧ gport t (!o) = gport s (!o)) ∧
  (∀ (s : State) (o : Bool), s.glr.bypass = false → (gport s o).st = 0 → (gport s o).lostAt = none →
    ∃ t, exec (.blockLockRegained o) s = .next t ∧ (gport t o).st = 1 ∧ gport t (!o) = gport s (!o) ∧
      .frame o (frameBytes 1 (modid s) 0xFE 1 0 0 false false [modid s, o.toNat]) ∈ t.out ∧
      (glrBreaks s < 2 → t.regs = s.regs ∧
        t.out = s.out ++ [.frame o (frameBytes 1 (modid s) 0xFE 1 0 0 false false [modid s, o.toNat])])) ∧
  (∀ (s : State) (o : Bool) (n : Nat), s.glr.bypass = false → (gport s o).lostAt = some n →
    s.tick < n + rd s .glr F.GLR_LOCK_TMO_TMO →
    ∃ t, exec (.blockLockRegained o) s = .next t ∧ gport t o = { gport s o with lostAt := none } ∧ t.out = s.out) ∧
  (∀ (s : State) (n : Nat), s.glr.taps = some n → bypassCond s = false →
    ∃ t, exec (.bypassOpen true) s = .next t ∧ t.glr.bypass = false ∧ t.glr.taps = none ∧ t.glr.inP.st = 1 ∧
      t.glr.outP.st = 1 ∧ (glrBreaks s < 2 → t.out.length = s.out.length + 2) ∧ t.tick = s.tick) ∧
  (∀ (s : State) (n : Nat), s.glr.taps = some n → bypassCond s = false → clockRuns s = true →
    ∃ t, exec (.bypassOpen false) s = .next t ∧ t.tick = max s.tick (n + 10000000) ∧ t.glr.bypass = false ∧
      t.glr.inP.lostAt = some t.tick ∧ t.glr.outP.lostAt = some t.tick) ∧
  (∀ (s : State), s.glr.bypass = false → bypassCond s = true →
    ∃ t, exec .bypassClose s = .next t ∧ t.glr.bypass = true ∧ t.glr.inP = GPort.reset ∧ t.glr.outP = GPort.reset ∧
      t.pins.bypass = true ∧ t.regs = s.regs) ∧
  (∀ (s : State) (h : GHdr) (m : Nat), s.glr.bypass = false → (gport s h.onOut).st ≠ 0 → (gport s h.onOut).lostAt = none →
    h.crcOk = true →
    ∃ t, exec (.hello h m) s = .next t ∧ (gport t h.onOut).st = 2 ∧ (gport t h.onOut).nbr = m ∧
      gport t (!h.onOut) = gport s (!h.onOut)) ∧
  (∀ (s : State) (h : GHdr) (num turn : Nat), s.glr.bypass = false → (gport s h.onOut).st ≠ 0 →
    (gport s h.onOut).lostAt = none → h.crcOk = true →
    ∃ t, exec (.dlyReq h num turn) s = .next t ∧ t.glr = s.glr ∧
      t.out = s.out ++ [.frame h.onOut (frameBytes 3 (modid s) 0xFE 1 0 0 false false [num, turn])]) ∧
  (∀ (s : State) (h : GHdr) (num turn : Nat), s.glr.bypass = false → (gport s h.onOut).st ≠ 0 →
    (gport s h.onOut).lostAt = none → h.crcOk = false →
    ∃ t, exec (.dlyReq h num turn) s = .next t ∧ t.glr = s.glr ∧ t.out = s.out ∧
      rd t .glr F.GLR_CNT_CRC_ERR = min (rd s .glr F.GLR_CNT_CRC_ERR + 1) 255) ∧
  (∀ (s : State) (h : GHdr) (turn rt : Nat), s.glr.bypass = false → (gport s h.onOut).st = 2 →
    (gport s h.onOut).lostAt = none → h.crcOk = true → (gport s h.onOut).delays.length = 15 →
    ∃ t, exec (.dlyRsp h s.glr.dlyNum turn rt) s = .next t ∧ (gport t h.onOut).dlyOk = true ∧
      (gport t h.onOut).delays = (gport s h.onOut).delays ++ [(rt - turn) / 2] ∧ t.out = s.out) ∧
  (∀ (s : State), s.glr.bypass = false → clockRuns s = true → s.time < 2 ^ 64 → s.glr.inP.st = 2 → s.glr.outP.st = 0 →
    ∃ t, exec .dlyExchangeSend s = .next t ∧ t.time % 1024 = 0 ∧ t.glr.dlyNum = (s.glr.dlyNum + 1) % 2 ^ 32 ∧
      t.out = s.out ++ [.frame false (frameBytes 2 (modid s) 0xFE 1 0 0 false false [t.glr.dlyNum])])

/-- Parts of R270, R271, R272, R273, R277, R280, R281: a frame is its header, its payload and their CRC, and what is received with a
frame's bytes is that frame, forwarded with one hop less and the CRC made anew; a heartbeat of another module is taken into the
table and forwarded with one hop less; the module's own goes out at tick 8,192 of the epoch; a member without heartbeats lapses, and
what waited for it is gone; a TIME frame is forwarded with the delay added, and the lowest master is known; a master sends TIME once
an epoch; a frame with no hop left is discarded.
The model's choices here are those of log 3 and 68. -/
def Obligations.GuylineMembers : Prop :=
  (∀ (o : Bool) (typ src dst hops turns seq : Nat) (sync cinv : Bool) (body : List Nat), typ < 256 → src < 256 → dst < 256 →
    hops < 256 → turns < 4 → seq < 65536 →
    let h : GHdr := ⟨o, frameBytes typ src dst hops turns seq sync cinv body⟩
    (h.typ, h.src, h.dst, h.hops, h.turns, h.seq, h.sync, h.cinv) = (typ, src, dst, hops, turns, seq, sync, cinv) ∧
      h.len = gLen typ ∧ h.payload = glrPayload typ body ∧ h.crcOk = true ∧
      h.forwarded false id = frameBytes typ src dst (hops - 1) turns seq sync cinv body) ∧
  (∀ (o : Bool) (src dst hops turns seq e dep corr corr' : Nat) (sync cinv inv : Bool), src < 256 → dst < 256 →
    hops < 256 → turns < 4 → seq < 65536 → e < 2 ^ 64 → dep < 2 ^ 32 → corr < 2 ^ 32 →
    let h : GHdr := ⟨o, frameBytes 0x11 src dst hops turns seq sync cinv [e, dep, corr]⟩
    h.carries 0x11 [e, dep, corr] = true ∧
      h.forwarded false (timePatch corr' inv) = frameBytes 0x11 src dst (hops - 1) turns seq sync (cinv || inv) [e, dep, corr']) ∧
  (∀ (s : State) (h : GHdr) (b : Beat), s.glr.bypass = false → (gport s h.onOut).st ≠ 0 → (gport s h.onOut).lostAt = none →
    (gport s (!h.onOut)).st ≠ 0 → h.crcOk = true → h.src ≠ modid s → h.src < 0xFE → h.dst = 0xFF → modid s ≠ 0xFF →
    1 < h.hops → s.glr.members = [] →
    ∃ t, exec (.heartbeat h b) s = .next t ∧ t.glr.members = [⟨h.src, b, 0, true⟩] ∧ rd t .glr F.GLR_STS_MEMB_CHG = 1 ∧
      .frame (!h.onOut) (h.forwarded false id) ∈ t.out) ∧
  (∀ (s : State) (h : GHdr) (b : Beat), s.glr.bypass = false → (gport s h.onOut).st ≠ 0 → (gport s h.onOut).lostAt = none →
    h.crcOk = true → h.src ≠ modid s → h.hops ≤ 1 →
    ∃ t, exec (.heartbeat h b) s = .next t ∧ t.glr = s.glr ∧ t.out = s.out ∧
      rd t .glr F.GLR_CNT_FWD_DISC = min (rd s .glr F.GLR_CNT_FWD_DISC + 1) 255) ∧
  (∀ (s : State), RingSends s → clockRuns s = true → s.time < 2 ^ 64 →
    ∃ t, exec .heartbeatSend s = .next t ∧ t.time % 2 ^ 17 = 8192 ∧
      (∃ body, .frame true (frameBytes 0x10 (modid s) 0xFF 64 0 0 false false body) ∈ t.out) ∧
      (s.glr.members = [] → t.glr.members.map (·.modid) = [modid s])) ∧
  (∀ (s : State) (m : Member), s.glr.members = [m] → rd s .glr F.GLR_CFG_HB_MISS ≤ m.missed → s.glr.waitSeq = [] →
    ∃ t, exec (.memberLapse m.modid) s = .next t ∧ t.glr.members = [] ∧ rd t .glr F.GLR_STS_MEMB_CHG = 1 ∧
      (∀ f ∈ t.glr.frames, f.dst ≠ m.modid) ∧ (∀ f ∈ t.glr.queue, f.dst = m.modid → f.typ = 0x30) ∧
      (∀ i, i < 8 → (gslot s i).dst = m.modid → (gslot s i).st = 1 ∨ (gslot s i).st = 2 → (gslot t i).st = 4)) ∧
  (∀ (s : State) (h : GHdr) (e dep corr arr res : Nat), s.glr.bypass = false → (gport s h.onOut).st ≠ 0 →
    (gport s h.onOut).lostAt = none → (gport s (!h.onOut)).st ≠ 0 → h.crcOk = true → h.src ≠ modid s → h.dst = 0xFF →
    modid s ≠ 0xFF → 1 < h.hops → s.glr.lowMaster = none → ftmUnset s = true → s.ftm.tset = none →
    ∃ t, exec (.time h e dep corr arr res) s = .next t ∧ t.glr.lowMaster = some h.src ∧
      t.out = s.out ++ [.frame (!h.onOut)
        (h.forwarded false (timePatch (corr + (gport s h.onOut).delay + res) (!(gport s h.onOut).dlyOk)))]) ∧
  (∀ (s : State) (dep : Nat), RingSends s → clockRuns s = true → isMaster s = true → rdb s .glr F.GLR_STS_YIELD = false →
    s.time < 2 ^ 64 → s.time % 2 ^ 17 < 4096 → s.glr.sentEpoch ≠ some (s.time / 2 ^ 17) →
    ∃ t, exec (.timeSend dep) s = .next t ∧ t.time % 2 ^ 17 = 4096 ∧ rd t .glr F.GLR_STS_MASTER_ACT = 1 ∧
      t.glr.sentEpoch = some (s.time / 2 ^ 17) ∧
      t.out = s.out ++ [.frame true (frameBytes 0x11 (modid s) 0xFF 64 0 0 false false [s.time / 2 ^ 17, dep, 0])]) ∧
  (∀ (s : State) (dep : Nat), s.glr.bypass = false → clockRuns s = true → rdb s .glr F.GLR_STS_YIELD = true →
    ∃ t, exec (.timeSend dep) s = .next t ∧ t.glr = s.glr ∧ t.out = s.out ∧ rd t .glr F.GLR_STS_MASTER_ACT = 0)

/-- Parts of R274, R275, R276, R283, R284: a restart request of another module arms a restart and is answered, or is refused where the
module takes none; a cancel removes it; responses set the state of their slot; acknowledgements are sent in time, and one that
names the next number frees the frame, which is otherwise replayed; GO and CANCEL of a slot, and a slot that hears no final
response.
The model's choices here are those of log 3 and 69. -/
def Obligations.GuylineRestart : Prop :=
  (∀ (s : State) (h : GHdr) (p slot inst : Nat), RingTakes s h → h.sync = true → RingSends s → s.glr.frames = [] →
    rd s .glr F.GLR_CFG_RST_RX_EN = 1 → p < 128 → rd s .ftm F.FTM_STS_STATE ≠ 0 → s.time + 512 ≤ inst →
    inst ≤ s.time + 2 ^ 32 → s.sched.length < 256 → holdsPiece s p = true → resetting s p = false → partSt s p = 2 →
    restartEnt s p = none →
    ∃ t, exec (.rstReq h p slot inst) s = .next t ∧ tget none t.glr.rxExp h.src = some ((h.seq + 1) % 65536) ∧
      t.sched.map (fun e => (e.inst, e.act, e.owner)) = s.sched.map (fun e => (e.inst, e.act, e.owner)) ++
        [(inst, .restart p, .ring h.src slot)] ∧
      t.glr.frames.map (fun f => (f.dst, f.typ, f.body.take 3)) = [(h.src, 0x22, [slot, 0, 0])] ∧ partSt t p = 2) ∧
  (∀ (s : State) (h : GHdr) (p slot inst : Nat), RingTakes s h → h.sync = true → RingSends s → s.glr.frames = [] →
    rd s .glr F.GLR_CFG_RST_RX_EN = 0 →
    ∃ t, exec (.rstReq h p slot inst) s = .next t ∧ t.sched = s.sched ∧
      t.glr.frames.map (fun f => (f.dst, f.typ, f.body)) = [(h.src, 0x22, [slot, 0x1B, 1, 0])]) ∧
  (∀ (s : State) (h : GHdr) (slot : Nat) (e : SchedEnt), RingTakes s h → h.sync = true → s.sched = [e] →
    e.owner = .ring h.src slot → s.time + 512 ≤ e.inst →
    ∃ t, exec (.rstCancel h slot) s = .next t ∧ t.sched = [] ∧ t.maps = s.maps) ∧
  (∀ (s : State) (h : GHdr) (slot st i : Nat) (final : Bool), RingTakes s h → h.sync = true → slot < 8 →
    ∃ t, exec (.rstRsp h slot st final i) s = .next t ∧ (∀ k, k ≠ slot → gslot t k = gslot s k) ∧
      gslot t slot = { gslot s slot with st := if final ∨ st ≠ 0 then 3 else 2, status := st, sidx := i }) ∧
  (∀ (s : State) (h : GHdr) (f : GFrame), RingTakes s h → s.glr.frames = [f] → f.dst = h.src → f.seq < 65536 →
    s.glr.waitSeq = [] →
    ∃ t, exec (.ack h ((f.seq + 1) % 65536) false false) s = .next t ∧ t.glr.frames = [] ∧
      tget none t.glr.rplFrom h.src = none ∧ t.out = s.out) ∧
  (∀ (s : State) (src k n e : Nat), tget none s.glr.ackDue src = some (k, n) → clockRuns s = true → RingSends s →
    tget none s.glr.rxExp src = some e →
    ∃ t, exec (.glrAckTimeout src) s = .next t ∧ t.tick = max s.tick (n + rd s .glr F.GLR_SEQ_CFG_ACK_TMO) ∧
      tget none t.glr.ackDue src = none ∧ t.out = s.out ++ [.frame true (frameBytes 0x30 (modid s) src 64 0 0 false false [e, 0,
        0])]) ∧
  (∀ (s : State) (n : Nat) (f : GFrame), tget none s.glr.rplFrom f.dst = some n → clockRuns s = true → RingSends s →
    s.glr.frames = [f] →
    ∃ t, exec (.glrReplayTimeout f.dst) s = .next t ∧ t.tick = max s.tick (n + rd s .glr F.GLR_SEQ_CFG_RPL_TMO) ∧
      t.out = s.out ++ [.frame true (frameBytes f.typ (modid s) f.dst 64 0 f.seq f.sync false f.body)] ∧ t.glr.frames = [f] ∧
      rd t .glr F.GLR_RPL_CNT_REPLAYS = min (rd s .glr F.GLR_RPL_CNT_REPLAYS + 1) 65535) ∧
  (∀ (s : State) (v : Word) (i d p : Nat), s.mode.isUp = true → i = rd s .glr F.GLR_RST_IDX_SLOT →
    d = F.GLR_RST_REQ_DST.of v.toNat → p = F.GLR_RST_REQ_PART.of v.toNat → F.GLR_RST_REQ_CANCEL.of v.toNat = 0 →
    (gslot s i).st = 0 → d ≠ modid s → (∃ m ∈ s.glr.members, m.modid = d) → hasModid s = true → s.glr.frames = [] →
    ∃ t, exec (.go v) s = .next t ∧ gslot t i = { gslot s i with dst := d, part := p, st := 1 } ∧
      t.glr.frames.map (fun f => (f.dst, f.typ, f.body)) = [(d, 0x20, [p, i, (gslot s i).inst])]) ∧
  (∀ (s : State) (v : Word) (i : Nat), s.mode.isUp = true → i = rd s .glr F.GLR_RST_IDX_SLOT →
    F.GLR_RST_REQ_CANCEL.of v.toNat = 0 → (gslot s i).st = 2 →
    ∃ t, exec (.go v) s = .next t ∧ (gslot t i).st = 2 ∧ t.glr.frames = s.glr.frames ∧
      rd t .glr F.BLK_STS_CFG_REJECT = 1) ∧
  (∀ (s : State) (v : Word) (i : Nat), s.mode.isUp = true → i = rd s .glr F.GLR_RST_IDX_SLOT →
    F.GLR_RST_REQ_GO.of v.toNat = 0 → (gslot s i).st = 2 → hasModid s = true → s.glr.frames = [] →
    ∃ t, exec (.cancel v) s = .next t ∧ (gslot t i).st = 2 ∧
      t.glr.frames.map (fun f => (f.dst, f.typ, f.body)) = [(F.GLR_RST_REQ_DST.of v.toNat, 0x21, [i])]) ∧
  (∀ (s : State) (i : Nat), (gslot s i).st = 2 → clockRuns s = true → s.time < (gslot s i).inst + 2 ^ 17 →
    (gslot s i).inst + 2 ^ 17 < 2 ^ 64 →
    ∃ t, exec (.noFinal i) s = .next t ∧ gslot t i = { gslot s i with st := 5 } ∧ t.time = (gslot s i).inst + 2 ^ 17)

/-- Parts of R286, R287, R288, R292, R301, Table 15.10: VIN at VIN_ON begins a start, which runs through precharge, gate ramp and rails to
BOOT; a start that fails waits its backoff, and the fourth failure in a row latches the path; the retry, the end of a cold reset
and a running second of PG_INT; BOOT waits for REFCLK, tests the breaker and ends in STANDBY.
The model's choices here are those of log 3, 39, 81, 154 and 155. -/
def Obligations.PowerStart : Prop :=
  (∀ (s : State) (mv : Nat), s.mode = .off → s.pwr.path = .opened → s.pwr.latched = false → s.pwr.ov = false →
    s.rst.coldAt = none → s.pwr.lowAt = none → 4400 ≤ mv →
    ∃ t, exec (.vinOn mv) s = .next t ∧ t.mode = .precharge ∧ t.pwr.path = .precharge ∧ t.pwr.pathFrom = s.tick ∧
      t.pwr.vin = mv ∧ t.pins.pg = false ∧ t.regs = s.regs ∧ t.out = s.out) ∧
  (∀ (s : State), s.pwr.path = .precharge →
    ∃ t, exec .prechargeDone s = .next t ∧ t.pwr = { s.pwr with path := .ramp, pathFrom := s.tick } ∧ t.mode = s.mode ∧
      t.regs = s.regs) ∧
  (∀ (s : State), s.pwr.path = .precharge → s.pwr.latched = false → s.pwr.fails < 3 → clockRuns s = true →
    ∃ t, exec .prechargeTimeout s = .next t ∧ t.tick = max s.tick (s.pwr.pathFrom + 2000000) ∧ t.mode = .off ∧
      t.pwr.path = .backoff ∧ t.pwr.pathFrom = t.tick ∧ t.pwr.fails = s.pwr.fails + 1 ∧
      t.pwr.trips = min 255 (s.pwr.trips + 1) ∧ t.pwr.cause = 3 ∧ t.pwr.latched = false) ∧
  (∀ (s : State), s.pwr.path = .precharge → 3 ≤ s.pwr.fails →
    ∃ t, exec .prechargeTimeout s = .next t ∧ t.mode = .off ∧ t.pwr.latched = true ∧ t.pwr.path = .opened ∧
      t.pwr.cause = 3) ∧
  (∀ (s : State) (rail : Nat), s.pwr.path = .ramp → s.pwr.reclose = false → rail < 12 → s.pwr.latched = false →
    s.pwr.fails < 3 → clockRuns s = true →
    ∃ t, exec (.railTimeout rail) s = .next t ∧ t.tick = max s.tick (s.pwr.pathFrom + 300000) ∧ t.mode = .off ∧
      t.pwr.path = .backoff ∧ t.pwr.pathFrom = t.tick ∧ t.pwr.cause = 5 ∧ t.pwr.fails = s.pwr.fails + 1 ∧
      .rails true (railOrder.take (railOrder.idxOf rail)) ∈ t.out) ∧
  (∀ (s : State) (n ms : Nat), (n, ms) ∈ [(1, 10), (2, 40), (3, 160)] → s.pwr.path = .backoff → s.pwr.fails = n →
    s.mode = .off → s.pwr.latched = false → s.pwr.ov = false → s.rst.coldAt = none → 4400 ≤ s.pwr.vin →
    clockRuns s = true →
    ∃ t, exec .backoffEnd s = .next t ∧ t.tick = max s.tick (s.pwr.pathFrom + ms * 100000) ∧ t.mode = .precharge ∧
      t.pwr.path = .precharge ∧ t.pwr.pathFrom = t.tick ∧ t.pwr.fails = n ∧ t.rst.cause = 4) ∧
  (∀ (s : State), s.pwr.pgInt = true → clockRuns s = true →
    ∃ t, exec .retryCountClear s = .next t ∧ t.tick = max s.tick (s.pwr.pgFrom + 100000000) ∧
      t.pwr = { s.pwr with fails := 0 } ∧ t.mode = s.mode) ∧
  (∀ (s : State) (n : Nat), s.rst.coldAt = some n → s.mode = .off → s.pwr.path = .opened → s.pwr.latched = false →
    s.pwr.ov = false → 4400 ≤ s.pwr.vin → clockRuns s = true →
    ∃ t, exec .coldResetStart s = .next t ∧ t.tick = max s.tick (n + 1000000) ∧ t.mode = .precharge ∧
      t.pwr.path = .precharge ∧ t.pwr.fails = s.pwr.fails ∧ t.rst.coldAt = none) ∧
  (∀ (s : State), s.pwr.pgInt = false → s.pwr.ran = false → s.mode = .precharge → s.pwr.path = .ramp → s.rst.resetN = true →
    s.rst.refclk = true → clockRuns s = true → s.pwr.lowAt = none →
    ∃ t, exec .pgIntAssert s = .next t ∧ t.tick = max s.tick (s.pwr.pathFrom + 200000) ∧ .rails true railOrder ∈ t.out ∧
      t.pwr.unreg = [] ∧ t.mode = .boot ∧ t.pwr.path = .closed ∧ t.pwr.pgInt = true ∧ t.pins.pg = true ∧
      t.rst.refOk = true ∧ t.pins.refclk = true ∧ t.pwr.stTest = true ∧ t.pwr.stFrom = t.tick) ∧
  (∀ (s : State), s.pwr.pgInt = false → s.pwr.ran = false → s.mode = .precharge → s.pwr.path = .ramp → s.rst.resetN = false →
    ∃ t, exec .pgIntAssert s = .next t ∧ t.mode = .boot ∧ t.pwr.path = .closed ∧ t.pwr.pgInt = true ∧ t.pins.pg = false ∧
      t.pwr.brk = 1 ∧ t.rst.refOut = s.rst.refOut) ∧
  (∀ (s : State), s.pwr.pgInt = false → s.pwr.ran = true →
    ∃ t, exec .pgIntAssert s = .next t ∧ t.pwr = s.pwr ∧ t.mode = s.mode ∧ t.regs = s.regs) ∧
  (∀ (s : State), s.pwr.pgInt = false → s.pwr.ran = false → s.pwr.path = .closed → s.mode ≠ .off → s.mode ≠ .precharge →
    ∃ t, exec .pgIntAssert s = .next t ∧ t.pwr = { s.pwr with pgInt := true, pgFrom := s.tick, unreg := [] } ∧
      t.mode = s.mode ∧ t.regs = s.regs) ∧
  (∀ (s : State) (failed : Bool), s.pwr.stTest = true → s.tick < s.pwr.stFrom + 5000 → clockRuns s = true →
    ∃ t, exec (.selftestDone failed) s = .next t ∧ t.tick = s.pwr.stFrom + 5000 ∧ t.pwr.stFail = failed ∧
      t.pwr.measFb = (s.pwr.measFb || failed) ∧ t.pwr.path = s.pwr.path ∧ t.pwr.stTest = false) ∧
  (∀ (s : State) (failed : Bool), s.pwr.stTest = true → s.pwr.stFrom + 5000 ≤ s.tick → s.pwr.path = .closed →
    ∃ t, exec (.selftestDone failed) s = .next t ∧ t.pwr.stFail = failed ∧ t.pwr.path = .closed ∧
      t.pwr.measFb = (s.pwr.measFb || failed) ∧
      (againNow s .pwr F.PWR_BRK_CTL_SELFTEST = false → t.pwr.stTest = false) ∧
      (againNow s .pwr F.PWR_BRK_CTL_SELFTEST = true → s.mode = .maintenance → t.pwr.stTest = true ∧ t.pwr.stFrom = s.tick) ∧
      (failed = true → t.flt.srcs = (raise 0x09 none none s).flt.srcs)) ∧
  (∀ (s : State), s.mode = .boot → s.rst.refclk = false → s.rst.refOut = false → s.rst.resetN = true →
    s.pwr.lowAt = none →
    ∃ t, exec .refclkReturn s = .next t ∧ t.rst.refclk = true ∧ t.rst.refOk = true ∧ t.pins.refclk = true ∧
      t.pwr.stTest = true ∧ t.mode = .boot) ∧
  (∀ (s : State), s.mode = .boot → s.rst.refOk = true → s.pwr.stTest = false → s.sec.running ≠ none →
    s.rst.warmAt = none → s.rst.resetN = true →
    ∃ t, exec .bootDone s = .next t ∧ t.mode = .standby ∧ (tget Core1.reset t.flt.cores 0).alive = true ∧
      (tget Core1.reset t.flt.cores 1).alive = true ∧ t.flt.active = 0 ∧
      rd t .mod F.MOD_BOOT_TIME_MS = min 0xFFFF ((s.tick - s.rst.bootFrom) / 100000) ∧ t.mq = s.mq ∧ t.out = s.out)

/-- Parts of R285, R288, R293, R294, R295, R296: below WARN the power drain begins, and it ends with WARN + 200 mV; below VIN_UV or above
VIN_OV the path opens and hold-up begins; a reclosure ramp closes the path again in the same mode; otherwise the module powers
down into OFF and keeps the power-loss record and the trip record; VIN below VSTBY loses the latch and the record; EA_OFF follows
the store.
The model's choices here are those of log 3, 72, 73, 74 and 154. -/
def Obligations.InputFailure : Prop :=
  (∀ (s : State) (mv : Nat), mv < rd s .pwr F.PWR_WARN_CFG_WARN * 50 → s.pwr.lowAt = none → s.pwr.warn = false →
    s.mode.isUp = true → s.home.alc = [] → s.home.found = [] →
    ∃ t, exec (.pwrwarnAssert mv) s = .next t ∧ t.pwr = { s.pwr with vin := mv, warn := true } ∧ t.pins.warn = true ∧
      t.wab.pwrDrain = some s.tick ∧ rd t .wabM F.WAB_MOD_STS_EA_OFF = 1 ∧ rd t .wabM F.WAB_MOD_STS_PWR_DRAIN = 1 ∧
      t.wab.ents = s.wab.ents ∧ t.mode = s.mode) ∧
  (∀ (s : State) (mv : Nat), rd s .pwr F.PWR_WARN_CFG_WARN * 50 + 200 ≤ mv → s.pwr.path = .closed → s.pwr.warn = true →
    s.rst.warmHeld = none →
    ∃ t, exec (.pwrwarnDeassert mv) s = .next t ∧ t.pwr = { s.pwr with vin := mv, warn := false } ∧ t.pins.warn = false ∧
      t.wab.pwrDrain = none ∧ rd t .wabM F.WAB_MOD_STS_PWR_DRAIN = 0 ∧ t.mode = s.mode) ∧
  (∀ (s : State) (mv : Nat), mv < 4000 → s.pwr.path = .closed → s.pwr.lowAt = none → s.home.alc = [] → s.home.found = [] →
    ∃ t, exec (.vinUv mv) s = .next t ∧ t.pwr.path = .holdup ∧ t.pwr.pathFrom = s.tick ∧ t.pwr.why = 0 ∧ t.pwr.pgInt = false ∧
      t.pwr.warn = true ∧ t.pins.warn = true ∧ t.pins.pg = false ∧ rd t .wabM F.WAB_MOD_STS_EA_OFF = 1 ∧ t.mode = s.mode ∧
      t.pwr.fails = s.pwr.fails ∧ t.pwr.cause = s.pwr.cause) ∧
  (∀ (s : State) (mv : Nat), mv < 4000 → s.pwr.path = .precharge →
    ∃ t, exec (.vinUv mv) s = .next t ∧ t.mode = .off ∧ t.pwr.path = .opened ∧ t.pwr.fails = s.pwr.fails) ∧
  (∀ (s : State) (mv : Nat), 19000 ≤ mv → s.pwr.path = .closed → s.pwr.lowAt = none → s.home.alc = [] → s.home.found = [] →
    ∃ t, exec (.vinOv mv) s = .next t ∧ t.pwr.ov = true ∧ t.pwr.path = .holdup ∧ t.pwr.why = 2 ∧ t.pwr.pgInt = false ∧
      t.pwr.warn = true ∧ t.pwr.cause = 4 ∧ t.pwr.fails = s.pwr.fails ∧ t.pwr.trips = s.pwr.trips ∧ t.mode = s.mode) ∧
  (∀ (s : State) (mv : Nat), 4400 ≤ mv → mv ≤ 18000 → s.mode = .off → s.pwr.path = .opened → s.pwr.latched = false →
    s.pwr.ov = true → s.rst.coldAt = none →
    ∃ t, exec (.vinOvClear mv) s = .next t ∧ t.pwr.ov = false ∧ t.mode = .precharge ∧ t.pwr.path = .precharge ∧
      t.pwr.fails = s.pwr.fails) ∧
  (∀ (s : State) (mv : Nat), rd s .pwr F.PWR_WARN_CFG_WARN * 50 + 200 ≤ mv → s.pwr.path = .holdup → s.pwr.why = 0 →
    s.tick < s.pwr.pathFrom + 200000 →
    ∃ t, exec (.reclosure mv) s = .next t ∧
      t.pwr = { s.pwr with vin := mv, path := .ramp, reclose := true, brk := 0 } ∧ t.mode = s.mode) ∧
  (∀ (s : State), s.pwr.path = .ramp → s.pwr.reclose = true → s.rst.warmHeld = none →
    ∃ t, exec .reclosureDone s = .next t ∧ t.pwr.path = .closed ∧ t.pwr.brk = 1 ∧ t.pwr.warn = false ∧
      t.pins.warn = false ∧ t.mode = s.mode) ∧
  (∀ (s : State), s.pwr.path = .holdup → s.pwr.why ≠ 1 →
    ∃ t, exec .powerDown s = .next t ∧ t.mode = .off ∧ t.pwr.path = .opened ∧ t.rst.cause = 5 ∧ t.time = 0 ∧
      t.pins.pg = false ∧ t.pins.bypass = true ∧ t.pins.refclk = false ∧ t.pins.perst = List.range 128 ∧
      rd t .ftm F.FTM_STS_STATE = 0 ∧ t.core = Core.reset ∧ t.sched = [] ∧ t.wab.plr = s.wab.plr ∧
      t.pwr.trips = s.pwr.trips ∧ t.pwr.cause = s.pwr.cause ∧ t.flt.seqs = s.flt.seqs) ∧
  (∀ (s : State), s.pwr.path = .holdup → s.pwr.why = 1 → s.pwr.latched = false →
    ∃ t, exec .powerDown s = .next t ∧ t.mode = .off ∧ t.pwr.path = .backoff ∧ t.pwr.pathFrom = s.pwr.pathFrom ∧
      t.pwr.fails = s.pwr.fails ∧ t.rst.cause = 5) ∧
  (∀ (s : State) (mv : Nat), mv < 3000 → s.pwr.path = .opened →
    ∃ t, exec (.vinBelowVstby mv) s = .next t ∧ t.pwr.trips = 0 ∧ t.pwr.cause = 0 ∧ t.pwr.ov = false ∧ t.pins.ember = none ∧
      t.pins.warn = false ∧ t.i3c.addr = none ∧ t.pwr.latched = s.pwr.latched ∧
      t.pwr.lowAt = some (s.pwr.lowAt.getD s.tick)) ∧
  (∀ (s : State) (mv n : Nat), 3000 ≤ mv → s.pwr.lowAt = some n → clockRuns s = true → n + 1000000 ≤ s.tick →
    ∃ t, exec (.vinAboveVstby mv) s = .next t ∧
      t.pwr = { s.pwr with vin := mv, lowAt := none, latched := false, fails := 0 } ∧
      t.rst.cause = (if s.mode = .off then 0 else s.rst.cause)) ∧
  (∀ (s : State) (mv n : Nat), 3000 ≤ mv → s.pwr.lowAt = some n → clockRuns s = true → s.tick < n + 1000000 →
    ∃ t, exec (.vinAboveVstby mv) s = .next t ∧ t.pwr = { s.pwr with vin := mv, lowAt := none }) ∧
  (∀ (s : State) (mv : Nat), 35000 ≤ mv →
    ∃ t, exec (.holdupFull mv) s = .next t ∧ t.pwr = { s.pwr with full := true, vstore := min mv 65535 } ∧
      t.regs = s.regs) ∧
  (∀ (s : State) (mv : Nat), mv < 35000 →
    ∃ t, exec (.storeNotFull mv) s = .next t ∧ t.pwr = { s.pwr with full := false, vstore := mv } ∧
      rd t .wabM F.WAB_MOD_STS_EA_OFF = 1)

/-- Parts of R287, R288, R289, R290, R291, R297, R352: a fast trip and a curve point in SERVICE open the path and count as a failure, and
no point trips in another breaker mode; a commit takes a curve whose points meet the conditions and discards any other; a
self-test needs MAINTENANCE; the measurement path falls back and returns; a lost phase and a rail out of regulation are kept and
raised; a die at 115 °C trips.
The model's choices here are those of log 40, 75, 76, 77, 155 and 156. -/
def Obligations.BreakerAndRails : Prop :=
  (∀ (s : State), s.pwr.path = .closed → s.pwr.latched = false → s.pwr.fails < 3 → s.pwr.lowAt = none → s.home.alc = [] →
    s.home.found = [] →
    ∃ t, exec .fastTrip s = .next t ∧ t.pwr.path = .holdup ∧ t.pwr.why = 1 ∧ t.pwr.cause = 1 ∧
      t.pwr.fails = s.pwr.fails + 1 ∧ t.pwr.trips = min 255 (s.pwr.trips + 1) ∧ t.pwr.latched = false ∧
      t.pwr.pgInt = false ∧ t.pins.warn = true ∧ t.pins.pg = false ∧ t.mode = s.mode) ∧
  (∀ (s : State), s.pwr.path = .precharge → s.pwr.latched = false → s.pwr.fails < 3 →
    ∃ t, exec .fastTrip s = .next t ∧ t.mode = .off ∧ t.pwr.path = .backoff ∧ t.pwr.cause = 1 ∧
      t.pwr.fails = s.pwr.fails + 1) ∧
  (∀ (s : State) (x k i d c n main adc : Nat), s.pwr.path = .closed → s.pwr.brk = 1 → s.pwr.stTest = false →
    s.pwr.measFb = false → s.pwr.curve[k]? = some (true, i, d) → s.pwr.timers[k]? = some c → 0 < n →
    d ≤ c ∨ (i * 25 < main ∧ d ≤ c + n) →
    (∀ j < s.pwr.curve.length, j ≠ k → (s.pwr.curve.getD j (false, 0, 0)).1 = true →
      s.pwr.timers.getD j 0 < (s.pwr.curve.getD j (false, 0, 0)).2.2 ∧
      ((s.pwr.curve.getD j (false, 0, 0)).2.1 * 25 < main → s.pwr.timers.getD j 0 + n < (s.pwr.curve.getD j (false, 0, 0)).2.2)) →
    s.pwr.latched = false → s.pwr.fails < 3 → s.pwr.lowAt = none → s.home.alc = [] → s.home.found = [] →
    ∃ t, exec (.curvePointTrip ⟨x, [⟨n, main, adc⟩]⟩) s = .next t ∧ t.pwr.path = .holdup ∧ t.pwr.why = 1 ∧ t.pwr.cause = 2 ∧
      t.pwr.point = k ∧
      t.pwr.fails = s.pwr.fails + 1 ∧ t.pwr.pgInt = false ∧ t.pins.warn = true ∧ t.mode = s.mode) ∧
  (∀ (s : State) (x : CurveTrip), s.pwr.brk ≠ 1 ∨ s.pwr.stTest = true →
    ∃ t, exec (.curvePointTrip x) s = .next t ∧ t.pwr.path = s.pwr.path ∧ t.pwr.trips = s.pwr.trips ∧ t.regs = s.regs ∧
      t.mode = s.mode) ∧
  (∀ (s : State) (k n main adc : Nat), s.pwr.brk ≠ 1 ∨ s.pwr.stTest = true → s.pwr.lowAt = none → 0 < n →
    ∃ t, exec (.curvePointTrip ⟨k, [⟨n, main, adc⟩]⟩) s = .next t ∧
      t.pwr.timers = (s.pwr.curve.zip s.pwr.timers).map fun p =>
        if p.1.1 && decide (p.1.2.1 * 25 < if s.pwr.measFb then adc else main) then p.2 + n else 0) ∧
  (∀ (s : State), curveOk (stagedCurve s) = true →
    ∃ t, exec .curveCommit s = .next t ∧ t.pwr.curveNew = some (s.time, stagedCurve s) ∧ t.regs = s.regs ∧
      (s.pwr.curveNew = none → t.pwr = { s.pwr with curveNew := some (s.time, stagedCurve s) })) ∧
  (∀ (s : State), curveOk (stagedCurve s) = false →
    ∃ t, exec .curveCommit s = .next t ∧ t.pwr = s.pwr ∧ rd t .pwr F.PWR_CURVE_CTL_CURVE_ERR = 1 ∧
      rd t .pwr F.BLK_STS_CFG_REJECT = 1) ∧
  (∀ (c : List (Bool × Nat × Nat)), curveOk c = true ↔
    (c.filter (·.1) ≠ [] ∧ (∀ p ∈ c, p.1 = true → 501 ≤ p.2.1 ∧ p.2.1 ≤ 999) ∧
      (c.filter (·.1)).Pairwise fun a b => a.2.1 < b.2.1 ∧ b.2.2 < a.2.2)) ∧
  (∀ (s : State), s.mode = .maintenance →
    ∃ t, exec .selftest s = .next t ∧ t.pwr.stTest = true ∧ t.regs = s.regs ∧
      (s.pwr.stTest = false → t.pwr = { s.pwr with stTest := true, stFrom := s.tick }) ∧
      (s.pwr.stTest = true → t.pwr = s.pwr)) ∧
  (∀ (s : State), s.mode ≠ .maintenance →
    ∃ t, exec .selftest s = .next t ∧ t.pwr = s.pwr ∧ rd t .pwr F.BLK_STS_CFG_REJECT = 1) ∧
  (∀ (s : State), s.pwr.measFb = false → 1000 ≤ s.pwr.diffFor →
    ∃ t, exec .measPathFault s = .next t ∧ t.pwr = { s.pwr with measFb := true, sameFor := 0 } ∧
      t.flt.srcs = (raise 0x09 none none s).flt.srcs) ∧
  (∀ (s : State), s.pwr.diffFor < 1000 → ∃ t, exec .measPathFault s = .next t ∧ t.pwr = s.pwr ∧ t.flt = s.flt) ∧
  (∀ (s : State), 1000000 ≤ s.pwr.sameFor →
    ∃ t, exec .measPathRestore s = .next t ∧ t.pwr = { s.pwr with measFb := false } ∧ t.regs = s.regs ∧ t.flt = s.flt) ∧
  (∀ (s : State), s.pwr.sameFor < 1000000 → ∃ t, exec .measPathRestore s = .next t ∧ t.pwr = s.pwr ∧ t.flt = s.flt) ∧
  (∀ (s : State) (rail phase : Nat), rail < 12 → phase < railNeeds rail + 2 → (rail, phase) ∉ s.pwr.drops →
    (s.pwr.drops.filter fun d => d.1 == rail).length < 2 →
    ∃ t, exec (.phaseLost rail phase) s = .next t ∧ t.pwr = { s.pwr with drops := s.pwr.drops ++ [(rail, phase)] } ∧
      t.flt.srcs = (raise 0x07 none none s).flt.srcs) ∧
  (∀ (s : State) (rail phase : Nat), rail < 12 → phase < railNeeds rail + 2 → (rail, phase) ∉ s.pwr.drops →
    2 ≤ (s.pwr.drops.filter fun d => d.1 == rail).length →
    ∃ t, exec (.phaseLost rail phase) s = .next t ∧ t.pwr.drops = s.pwr.drops ++ [(rail, phase)] ∧ t.pwr.pgInt = false ∧
      t.flt.srcs = (raiseSame [⟨0x07, none, none, none⟩, ⟨0x08, none, none, none⟩] s).flt.srcs) ∧
  (∀ (s : State) (rail : Nat), rail < 12 → rail ∉ s.pwr.unreg →
    ∃ t, exec (.regulationFault rail) s = .next t ∧
      t.pwr = { s.pwr with unreg := s.pwr.unreg ++ [rail], pgInt := false } ∧ t.pins.pg = false ∧
      t.flt.srcs = (raise 0x08 none none s).flt.srcs) ∧
  (∀ (s : State) (die : Nat),
    ∃ t, exec (.tjTrip die) s = .next t ∧ t.i3c.tjTrip = true ∧ die ∈ t.i3c.tjWarn ∧ t.pwr = s.pwr ∧
      t.flt.srcs = (raise 0x08 none none s).flt.srcs) ∧
  (∀ (s : State) (die temp : Nat), temp < 105 →
    ∃ t, exec (.temperatureRead die temp) s = .next t ∧ tget none t.i3c.tj die = some temp ∧ die ∉ t.i3c.tjWarn ∧
      (∀ d, d ≠ die → (d ∈ t.i3c.tjWarn ↔ d ∈ s.i3c.tjWarn)) ∧ t.i3c.tjTrip = s.i3c.tjTrip ∧ t.flt = s.flt ∧ t.out = s.out) ∧
  (∀ (s : State) (die temp : Nat), 105 ≤ temp → temp < 115 → s.i3c.tjWarn = [] → s.i3c.ibi = true → s.i3c.addr ≠ none →
    ∃ t, exec (.temperatureRead die temp) s = .next t ∧ tget none t.i3c.tj die = some temp ∧ t.i3c.tjWarn = [die] ∧
      t.i3c.tjTrip = s.i3c.tjTrip ∧ t.flt = s.flt ∧ (∃ b, t.out = s.out ++ [.ibi b])) ∧
  (∀ (s : State) (die temp : Nat), 115 ≤ temp → temp < 128 →
    ∃ t, exec (.temperatureRead die temp) s = .next t ∧ tget none t.i3c.tj die = some temp ∧ die ∈ t.i3c.tjWarn ∧
      t.i3c.tjTrip = true ∧ t.flt.srcs = (raise 0x08 none none s).flt.srcs)

/-- Parts of R292, R301, R302, Table 15.23: a warm reset is taken at once, or held while PWRWARN_N is asserted; once the buffer is drained
it resets the blocks, keeps the count and the path, and boots, held while RESET_N is low; a cold reset needs its key and opens
the path at once, as the loss of REFCLK does; ENERGY_LO latches the high bits.
The model's choices here are those of log 3, 40, 78, 119, 154 and 160. -/
def Obligations.Resets : Prop :=
  (∀ (s : State), s.mode.isUp = true → s.rst.warmAt = none → s.pwr.warn = false → dumpBusy s = false → s.home.alc = [] →
    s.home.found = [] →
    ∃ t, exec .warm s = .next t ∧ t.rst.warmAt = some s.tick ∧ t.rst.cause = 2 ∧ t.pins.pg = false ∧
      t.wab.wait = some s.tick ∧ t.mode = s.mode ∧ t.regs = s.regs) ∧
  (∀ (s : State), s.mode.isUp = true → s.rst.warmAt = none → s.pwr.warn = true →
    ∃ t, exec .warm s = .next t ∧ t.rst = { s.rst with warmHeld := some 2 } ∧ t.mode = s.mode ∧ t.wab = s.wab) ∧
  (∀ (s : State), s.mode.isUp = true → s.rst.warmAt = none → s.pwr.warn = false → dumpBusy s = false → s.home.alc = [] →
    s.home.found = [] →
    ∃ t, exec .resetNFall s = .next t ∧ t.rst.resetN = false ∧ t.rst.warmAt = some s.tick ∧ t.rst.cause = 1 ∧
      t.pins.pg = false ∧ t.wab.wait = some s.tick ∧ t.mode = s.mode) ∧
  (∀ (s : State) (n : Nat), s.rst.warmAt = some n → s.wab.ents = [] → s.home.alc = [] → dumpBusy s = false →
    s.rst.resetN = true → s.rst.refclk = true → s.pwr.lowAt = none →
    ∃ t, exec .warmReset s = .next t ∧ t.mode = .boot ∧ t.rst.warmAt = none ∧ t.rst.refOk = true ∧ t.time = s.time ∧
      t.tick = s.tick ∧ t.pwr.path = s.pwr.path ∧ t.pwr.stTest = true ∧ t.pwr.curve = curveReset ∧ t.pins.bypass = true ∧
      t.pins.perst = List.range 128 ∧ t.pins.refclk = true ∧ t.core = Core.reset ∧ t.sched = [] ∧ t.parts = [] ∧
      rd t .ftm F.FTM_STS_STATE = rd s .ftm F.FTM_STS_STATE ∧ t.flt.stagingWin = s.flt.stagingWin ∧ t.flt.fatal = none) ∧
  (∀ (s : State) (n : Nat), s.rst.warmAt = some n → s.wab.ents = [] → s.home.alc = [] → dumpBusy s = false →
    s.rst.resetN = false →
    ∃ t, exec .warmReset s = .next t ∧ t.mode = .boot ∧ t.pins.pg = false ∧ t.rst.refOk = false ∧ t.pwr.stTest = false) ∧
  (∀ (s : State) (n : Nat) (e : WabE), s.rst.warmAt = some n → e ∈ s.wab.ents → e.stranded = false → s.tick < n + wabWaitLimit →
    ∃ t, exec .warmReset s = .next t ∧ t.mode = s.mode ∧ t.rst = s.rst ∧ t.wab = s.wab ∧ t.flt = s.flt) ∧
  (∀ (s : State), s.mode = .boot → s.rst.resetN = false → s.rst.refclk = true → s.pwr.pgInt = true →
    s.pwr.lowAt = none →
    ∃ t, exec .resetNRise s = .next t ∧ t.rst.resetN = true ∧ t.rst.refOk = true ∧ t.pwr.stTest = true ∧ t.mode = .boot ∧
      t.pins.pg = true) ∧
  (∀ (s : State), s.mode.isUp = true →
    ∃ t, exec (.cold 0xC0) s = .next t ∧ t.mode = .off ∧ t.pwr.path = .opened ∧ t.rst.coldAt = some s.tick ∧ t.rst.cause = 3 ∧
      t.time = 0 ∧ rd t .ftm F.FTM_STS_STATE = 0 ∧ t.pwr.fails = s.pwr.fails ∧ t.wab.plr = s.wab.plr ∧ t.core = Core.reset ∧
      t.pins.pg = false ∧ t.pins.perst = List.range 128) ∧
  (∀ (s : State) (key : Nat), key ≠ 0xC0 →
    ∃ t, exec (.cold key) s = .next t ∧ rd t .mod F.BLK_STS_CFG_REJECT = 1 ∧ t.mode = s.mode ∧ t.rst = s.rst ∧
      t.pwr = s.pwr) ∧
  (∀ (s : State), s.rst.refclk = true → s.mode.isUp = true →
    ∃ t, exec .refclkLoss s = .next t ∧ t.rst.refclk = false ∧ t.rst.refOk = false ∧ t.mode = .off ∧ t.pwr.path = .opened ∧
      t.rst.coldAt = some s.tick) ∧
  (∀ (s : State),
    ∃ t, exec .pwrEnergyLoRead s = .next t ∧ t.pwr.energy < 2 ^ 48 ∧
      t.out = s.out ++ [.regData 0 (Page.pwr.base + 0x80) (t.pwr.energy % 2 ^ 32)] ∧
      rd t .pwr F.PWR_ENERGY_HI_E_HI = t.pwr.energy / 2 ^ 32 ∧ t.mode = s.mode)

/-- Parts of R305, R308, R309, R311, R312, R313: SEC_KEY_REVOKE takes KEY A5h for an active slot that is not the last and signed no
image in use; SEC_SVN_CTL takes KEY 5Ah when both copies are valid at the running SVN or above; the fuse writes end with their
events; a connection goes from GET_VERSION through capabilities and algorithms to the requests for digests, certificates, challenges
and measurements, and a request before its turn is refused with an error, and one whose response takes a signature is in process
until the response is given, before the next; JTAG reads the boot status and programs a flash copy. The codes of SPDM are the
standard's (log 42).
The model's choices here are those of log 42, 83 and 158. -/
def Obligations.KeysAndSpdm : Prop :=
  (∀ (s : State) (v : Word) (slot other : Nat), s.mode.isUp = true → slot = F.SEC_KEY_REVOKE_SLOT.of v.toNat →
    F.SEC_KEY_REVOKE_KEY.of v.toNat = 0xA5 → keySt s slot = 1 → slot ∉ s.sec.revoking → slotUsed s slot = false →
    other < 4 → other ≠ slot → keySt s other = 1 → other ∉ s.sec.revoking →
    ∃ t, exec (.secKeyRevoke v) s = .next t ∧ t.sec = { s.sec with revoking := s.sec.revoking ++ [slot] } ∧
      t.regs = s.regs) ∧
  (∀ (s : State) (v : Word), s.mode.isUp = true → F.SEC_KEY_REVOKE_KEY.of v.toNat ≠ 0xA5 →
    ∃ t, exec (.secKeyRevoke v) s = .next t ∧ t.sec = s.sec ∧ rd t .sec F.BLK_STS_CFG_REJECT = 1) ∧
  (∀ (s : State) (v : Word) (slot : Nat), s.mode.isUp = true → slot = F.SEC_KEY_REVOKE_SLOT.of v.toNat →
    (∀ i, i < 4 → i ≠ slot → keySt s i ≠ 1) →
    ∃ t, exec (.secKeyRevoke v) s = .next t ∧ t.sec = s.sec ∧ rd t .sec F.BLK_STS_CFG_REJECT = 1) ∧
  (∀ (s : State) (slot : Nat), slot ∈ s.sec.revoking → s.mode.isUp = true → 2 ≤ rd s (.evq 128) F.MQ_EVQ_CFG_CAP →
    ∃ t, exec (.keyRevocationDone slot) s = .next t ∧ keySt t slot = 2 ∧ slot ∉ t.sec.revoking ∧
      (∀ i, i < 4 → i ≠ slot → keySt t i = keySt s i) ∧ (∃ e ∈ evList t 128, e.typ = 0x23 ∧ (16, slot) ∈ e.payload)) ∧
  (∀ (s : State) (v : Word) (r : RunImg), s.mode.isUp = true → s.sec.running = some r →
    F.SEC_SVN_CTL_COMMIT.of v.toNat = 1 → F.SEC_SVN_CTL_KEY.of v.toNat = 0x5A →
    ∃ t, exec (.svnCommit v) s = .next t ∧
      t.sec.svnNew = (if (imageCheck s (flashOf s 0) = 0 ∧ r.svn ≤ (imageHdr (flashOf s 0)).svn) ∧
        imageCheck s (flashOf s 1) = 0 ∧ r.svn ≤ (imageHdr (flashOf s 1)).svn then some r.svn else s.sec.svnNew)) ∧
  (∀ (s : State) (v : Word), s.mode.isUp = true → F.SEC_SVN_CTL_COMMIT.of v.toNat = 1 →
    F.SEC_SVN_CTL_KEY.of v.toNat ≠ 0x5A →
    ∃ t, exec (.svnCommit v) s = .next t ∧ t.sec = s.sec ∧ rd t .sec F.BLK_STS_CFG_REJECT = 1) ∧
  (∀ (s : State) (n : Nat), s.sec.svnNew = some n → s.mode.isUp = true → 2 ≤ rd s (.evq 128) F.MQ_EVQ_CFG_CAP →
    ∃ t, exec .svnFuseDone s = .next t ∧ svnMinNow t = max n (svnMinNow s) ∧ t.sec.svnNew = none ∧
      (∃ e ∈ evList t 128, e.typ = 0x24)) ∧
  (∀ (s : State) (ep : Nat), mgUp s ep = true → s.mode.isUp = true →
    ∃ t, exec (.getVersion ep) s = .next t ∧ spdmSt t ep = 1 ∧ (∀ e, e ≠ ep → spdmSt t e = spdmSt s e) ∧
      t.out = s.out ++ spdmOwed s ep ++ [.spdm ep 0x04 [0x12, 0x13]]) ∧
  (∀ (s : State) (ep : Nat), mgUp s ep = true → s.mode.isUp = true → 1 ≤ spdmSt s ep → spdmSt s ep ≠ 4 →
    ∃ t, exec (.getCapabilities ep) s = .next t ∧ spdmSt t ep = 2 ∧ (∀ e, e ≠ ep → spdmSt t e = spdmSt s e) ∧
      t.out = s.out ++ spdmOwed s ep ++ [.spdm ep 0x61 [0x36, 65536, 65536]]) ∧
  (∀ (s : State) (ep : Nat), mgUp s ep = true → s.mode.isUp = true → 2 ≤ spdmSt s ep → spdmSt s ep ≠ 4 →
    ∃ t, exec (.negotiateAlgorithms ep true) s = .next t ∧ spdmSt t ep = 3 ∧
      t.out = s.out ++ spdmOwed s ep ++ [.spdm ep 0x63 [0, 0x01, 0x02, 0x03, Config.vendorId, 0x0001]]) ∧
  (∀ (s : State) (ep : Nat), mgUp s ep = true → s.mode.isUp = true → 2 ≤ spdmSt s ep → spdmSt s ep ≠ 4 →
    ∃ t, exec (.negotiateAlgorithms ep false) s = .next t ∧ (tget none s.sec.spdmProc ep = none → t.sec = s.sec) ∧
      t.out = s.out ++ spdmOwed s ep ++ [.spdm ep 0x7F [0x07]]) ∧
  (∀ (s : State) (ep : Nat), mgUp s ep = true → s.mode.isUp = true → spdmSt s ep = 3 →
    ∃ t, exec (.getDigests ep) s = .next t ∧ (tget none s.sec.spdmProc ep = none → t.sec = s.sec) ∧
      t.out = s.out ++ spdmOwed s ep ++ [.spdm ep 0x01 [(chainDigest 0).toNat, (chainDigest 1).toNat]]) ∧
  (∀ (s : State) (ep : Nat), mgUp s ep = true → s.mode.isUp = true → spdmSt s ep < 3 →
    ∃ t, exec (.getDigests ep) s = .next t ∧ (tget none s.sec.spdmProc ep = none → t.sec = s.sec) ∧
      t.out = s.out ++ spdmOwed s ep ++ [.spdm ep 0x7F [0x04]]) ∧
  (∀ (s : State) (ep : Nat), mgUp s ep = true → s.mode.isUp = true → spdmSt s ep = 4 →
    ∃ t, exec (.getDigests ep) s = .next t ∧ (tget none s.sec.spdmProc ep = none → t.sec = s.sec) ∧
      t.out = s.out ++ spdmOwed s ep ++ [.spdm ep 0x7F [0x43]]) ∧
  (∀ (s : State) (ep slot offset length : Nat), mgUp s ep = true → s.mode.isUp = true → spdmSt s ep = 3 → slot < 2 →
    ∃ t, exec (.getCertificate ep slot offset length) s = .next t ∧ (tget none s.sec.spdmProc ep = none → t.sec = s.sec) ∧
      t.out = s.out ++ spdmOwed s ep ++ [if offset < (certChain slot).length then
          .spdm ep 0x02 ([min length ((certChain slot).length - offset),
              (certChain slot).length - offset - min length ((certChain slot).length - offset)] ++
            ((certChain slot).drop offset).take length)
        else .spdm ep 0x7F [0x01]]) ∧
  (∀ (s : State) (ep slot nonce : Nat), mgUp s ep = true → s.mode.isUp = true → spdmSt s ep = 3 → slot < 2 →
    ∃ t, exec (.challenge ep slot nonce) s = .next t ∧ t.out = s.out ++ spdmOwed s ep ∧
      (∃ own sig, tget none t.sec.spdmProc ep = some ⟨s.tick, 0x03, [slot, (chainDigest slot).toNat, nonce, own, sig]⟩)) ∧
  (∀ (s : State) (ep slot nonce : Nat), mgUp s ep = true → s.mode.isUp = true → spdmSt s ep = 3 → 2 ≤ slot →
    ∃ t, exec (.challenge ep slot nonce) s = .next t ∧ (tget none s.sec.spdmProc ep = none → t.sec = s.sec) ∧
      t.out = s.out ++ spdmOwed s ep ++ [.spdm ep 0x7F [0x01]]) ∧
  (∀ (s : State) (ep nonce : Nat), mgUp s ep = true → s.mode.isUp = true → spdmSt s ep = 3 →
    ∃ t, exec (.getMeasurements ep 4 nonce false) s = .next t ∧
      t.out = s.out ++ spdmOwed s ep ++ [.spdm ep 0x60 [4, s.dbg.unlocked.toNat, s.dbg.scope, s.dbg.serial]]) ∧
  (∀ (s : State) (ep index nonce : Nat), mgUp s ep = true → s.mode.isUp = true → spdmSt s ep = 3 → 1 ≤ index → index ≤ 4 →
    ∃ t, exec (.getMeasurements ep index nonce true) s = .next t ∧ t.out = s.out ++ spdmOwed s ep ∧
      (∃ own sig, tget none t.sec.spdmProc ep = some ⟨s.tick, 0x60, index :: measurement s index ++ [nonce, own, sig]⟩)) ∧
  (∀ (s : State) (ep code : Nat), mgUp s ep = true → s.mode.isUp = true → spdmSt s ep ≠ 4 →
    ∃ t, exec (.spdmUnsupportedRequest ep code) s = .next t ∧ (tget none s.sec.spdmProc ep = none → t.sec = s.sec) ∧
      t.out = s.out ++ spdmOwed s ep ++ [.spdm ep 0x7F [0x07]]) ∧
  (∀ (s : State), jtagAlive s = true →
    ∃ t, exec .jtagBootStatus s = .next t ∧ t.out = s.out ++ [.jtag (viewWord s .sec F.SEC_BOOT_STS_BOOTED.off)] ∧
      t.sec = s.sec) ∧
  (∀ (s : State) (copy : Nat) (bytes : List Nat), jtagAlive s = true → copy < 2 →
    ∃ t, exec (.jtagFlashProgram copy bytes) s = .next t ∧ flashOf t copy = putBytes 0 bytes (flashOf s copy) ∧
      flashOf t (1 - copy) = flashOf s (1 - copy) ∧ t.out = s.out)

/-- Parts of R314, R315, R316, R317, R318: a token is queued when debug is not disabled, and unlocks only when it meets every check; the
lifetime and RELOCK lock again; an access of the debug master needs scope 0, a binding, its rights and an entry that is not
LOCKED, leaves as a request, and ends with its status and data.
The model's choices here are those of log 39, 43 and 85. -/
def Obligations.TokensAndDebugMaster : Prop :=
  (∀ (s : State) (c : Ctx) (len : Nat) (good : Bool) (k : Token), CoreActs s → Hears s c → len ≠ 7952 →
    ∃ t, exec (.dbgToken c len good k) s = .next t ∧ Completed s t c 0x54 St.badArg 0 0 ∧ t.dbg = s.dbg) ∧
  (∀ (s : State) (c : Ctx) (k : Token), CoreActs s → Hears s c → mgUp s c.ep = true →
    ∃ t, exec (.dbgToken c 7952 true k) s = .next t ∧
      (Config.dbgDisable = false → t.dbg = { s.dbg with
        jobs := s.dbg.jobs.filter (fun j => !(j.path == 1 && j.since == s.tick)) ++ [⟨0, some c, k, s.tick⟩] ++
          s.dbg.jobs.filter fun j => j.path == 1 && j.since == s.tick }) ∧
      (Config.dbgDisable = true → t.dbg = s.dbg ∧ Completed s t c 0x54 St.refused 0 0)) ∧
  (∀ (s : State) (k : Token), jtagAlive s = true →
    ∃ t, exec (.jtagToken k) s = .next t ∧
      t.dbg = (if Config.dbgDisable then s.dbg else { s.dbg with jobs := s.dbg.jobs ++ [⟨1, none, k, s.tick⟩] }) ∧ t.out = s.out) ∧
  (∀ (s : State) (c : Ctx) (p n : Nat) (k : Token) (rest : List TokJob), s.dbg.jobs = ⟨p, some c, k, n⟩ :: rest → Hears s c →
    ∃ t, exec .tokenVerified s = .next t ∧ t.dbg.jobs = rest ∧
      (tokenOk s k = true → t.dbg.unlocked = true ∧ t.dbg.scope = k.scope ∧ t.dbg.serial = k.serial ∧
        t.dbg.expires = (if k.lifetime = 0 then none else some (s.tick + k.lifetime * 100000)) ∧
        Completed s t c 0x54 St.ok 0 0) ∧
      (tokenOk s k = false → t.dbg = { s.dbg with jobs := rest } ∧ Completed s t c 0x54 St.authFail 0 0)) ∧
  (∀ (s : State) (k : Token), tokenOk s k = true ↔
    (k.magic = 0x44424731 ∧ k.version = 1 ∧ Config.sha256 (leBytes 32 k.pubkey.toNat) = Config.authHash ∧
      Config.slhVerify k.pubkey (Config.sha256 (tokenBody k)) k.sig = true ∧ k.serial = Config.serial.toNat ∧
      k.nonce = nonceNow s ∧ k.scope < 8)) ∧
  (∀ (s : State) (n : Nat), s.dbg.expires = some n → s.dbg.unlocked = true → clockRuns s = true → s.mode.isUp = true →
    2 ≤ rd s (.evq 128) F.MQ_EVQ_CFG_CAP →
    ∃ t, exec .dbgLifetimeExpire s = .next t ∧ t.tick = max s.tick n ∧ t.dbg.unlocked = false ∧ t.dbg.scope = 0 ∧
      t.dbg.expires = none ∧ (∃ e ∈ evList t 128, e.typ = 0x22 ∧ (16, 0) ∈ e.payload)) ∧
  (∀ (s : State), s.mode.isUp = true → s.dbg.unlocked = true → 2 ≤ rd s (.evq 128) F.MQ_EVQ_CFG_CAP →
    ∃ t, exec .relock s = .next t ∧ t.dbg.unlocked = false ∧ t.dbg.scope = 0 ∧ t.dbg.nonce = some (Config.freeNonce s.free) ∧
      (∃ e ∈ evList t 128, e.typ = 0x22 ∧ (16, 1) ∈ e.payload)) ∧
  (∀ (s : State), s.mode.isUp = true → s.dbg.unlocked = false →
    ∃ t, exec .relock s = .next t ∧ t.dbg = s.dbg ∧ t.mq = s.mq) ∧
  (∀ (s : State) (v : Word) (rep : List (Nat × Nat)), s.mode.isUp = true → F.DBG_MEM_CTL_GO.of v.toNat = 1 →
    s.dbg.busy = false → s.dbg.unlocked = false ∨ bit s.dbg.scope 0 = false →
    ∃ t, exec (.dbgMemGo ⟨v, rep⟩) s = .next t ∧ rd t .dbg F.DBG_MEM_CTL_STATUS = 4 ∧ t.dbg = s.dbg ∧ t.maps = s.maps) ∧
  (∀ (s : State) (v : Word) (rep : List (Nat × Nat)) (raw : Nat), s.mode.isUp = true → F.DBG_MEM_CTL_GO.of v.toNat = 1 →
    s.dbg.busy = false →
    s.dbg.unlocked = true → bit s.dbg.scope 0 = true → F.DBG_MEM_CTL_SIZE8.of v.toNat = 0 →
    F.DBG_MEM_CTL_WRITE.of v.toNat = 0 → raw = rd s .dbg F.DBG_MEM_ADDR_HI_ADDR * 2 ^ 32 + rd s .dbg F.DBG_MEM_ADDR_LO_ADDR * 4 →
    lookupOff s (F.DBG_MEM_CTL_PART.of v.toNat) raw = none →
    ∃ t, exec (.dbgMemGo ⟨v, rep⟩) s = .next t ∧ rd t .dbg F.DBG_MEM_CTL_STATUS = 1 ∧
      rd t .dbg F.DBG_MEM_DATA_LO_DATA = 0xFFFFFFFF ∧ t.dbg = s.dbg ∧ t.maps = s.maps) ∧
  (∀ (s : State) (v : Word) (rep : List (Nat × Nat)) (raw idx : Nat) (b : Binding), s.mode.isUp = true →
    F.DBG_MEM_CTL_GO.of v.toNat = 1 →
    s.dbg.busy = false → s.dbg.unlocked = true → bit s.dbg.scope 0 = true → F.DBG_MEM_CTL_SIZE8.of v.toNat = 0 →
    raw = rd s .dbg F.DBG_MEM_ADDR_HI_ADDR * 2 ^ 32 + rd s .dbg F.DBG_MEM_ADDR_LO_ADDR * 4 →
    lookupOff s (F.DBG_MEM_CTL_PART.of v.toNat) raw = some (idx, b) →
      badWords (hostTile s (F.DBG_MEM_CTL_PART.of v.toNat)) rep = [] →
    b.locked = true →
    ∃ t, exec (.dbgMemGo ⟨v, rep⟩) s = .next t ∧ rd t .dbg F.DBG_MEM_CTL_STATUS = 3 ∧ rd t .dbg F.DBG_STS_DBG_DENY = 1 ∧
      rd t .dbg F.DBG_DENY_CNT_DENIED = min (rd s .dbg F.DBG_DENY_CNT_DENIED + 1) 0xFFFF ∧ t.dbg.busy = false ∧
      t.maps = s.maps ∧ t.core = s.core) ∧
  (∀ (s : State) (v : Word) (rep : List (Nat × Nat)) (raw idx out : Nat) (b : Binding), s.mode.isUp = true →
    F.DBG_MEM_CTL_GO.of v.toNat = 1 →
    s.dbg.busy = false → s.dbg.unlocked = true → bit s.dbg.scope 0 = true → F.DBG_MEM_CTL_SIZE8.of v.toNat = 0 →
    F.DBG_MEM_CTL_WRITE.of v.toNat = 0 → raw = rd s .dbg F.DBG_MEM_ADDR_HI_ADDR * 2 ^ 32 + rd s .dbg F.DBG_MEM_ADDR_LO_ADDR * 4 →
    lookupOff s (F.DBG_MEM_CTL_PART.of v.toNat) raw = some (idx, b) →
      badWords (hostTile s (F.DBG_MEM_CTL_PART.of v.toNat)) rep = [] →
    b.locked = false → b.right 0 0 = true → b.kind = 0 →
    b.shared = false → s.home.alc = [] → s.home.loq = [] → s.wab.ents = [] → b.lead s = some out → usable s out = true →
    ∃ t, exec (.dbgMemGo ⟨v, rep⟩) s = .next t ∧ t.dbg = { s.dbg with busy := true, access := some (0, raw) } ∧
      t.maps.fwds.map (fun f => (f.agent, f.part, f.bind, f.out, f.req.op)) =
        s.maps.fwds.map (fun f => (f.agent, f.part, f.bind, f.out, f.req.op)) ++
          [(.dma, F.DBG_MEM_CTL_PART.of v.toNat, some idx, out, .memRd)]) ∧
  (∀ (s : State) (v : Word) (rep : List (Nat × Nat)), s.mode.isUp = true → s.dbg.busy = true →
    ∃ t, exec (.dbgMemGo ⟨v, rep⟩) s = .next t ∧ t.dbg = s.dbg ∧ t.maps = s.maps ∧ t.out = s.out) ∧
  (∀ (s : State) (data : LineData) (down : Bool) (off : Nat) (a : DbgAns), s.dbg.access = some (0, off) →
    s.dbg.answer = some a →
    ∃ t, exec (.dbgMemDone data down) s = .next t ∧
      t.dbg = { s.dbg with busy := false, access := none, waiting := none, answer := none } ∧
      rd t .dbg F.DBG_MEM_CTL_STATUS = (if a.down then 5 else 0) ∧
      rd t .dbg F.DBG_MEM_DATA_LO_DATA = (if a.down then 0xFFFFFFFF else a.line.toNat / 2 ^ (8 * (off % 64)) % 2 ^ 32)) ∧
  (∀ (s : State) (data : LineData) (down : Bool) (off : Nat), s.dbg.access = some (0, off) → s.dbg.waiting = none →
    s.dbg.answer = none → (s.maps.fwds.any fun f => decide (f.agent = .dma)) = true →
    ∃ t, exec (.dbgMemDone data down) s = .next t ∧ t.dbg = { s.dbg with busy := false, access := none } ∧
      (t.maps.fwds.any fun f => decide (f.agent = .dma)) = false ∧
      rd t .dbg F.DBG_MEM_CTL_STATUS = (if down then 5 else 0) ∧
      rd t .dbg F.DBG_MEM_DATA_LO_DATA = (if down then 0xFFFFFFFF else data.toNat / 2 ^ (8 * (off % 64)) % 2 ^ 32)) ∧
  (∀ (s : State) (data : LineData) (down : Bool), s.dbg.answer = none →
    s.dbg.waiting ≠ none ∨ (s.maps.fwds.any fun f => decide (f.agent = .dma)) = false →
    ∃ t, exec (.dbgMemDone data down) s = .next t ∧ t.dbg = s.dbg ∧ t.regs = s.regs ∧ t.maps = s.maps)

/-- Parts of R319, R321, R322, R324, R325, R328, R330, R337, R340: a stop request makes a running block QUIESCING, and it stops when
its condition holds; 00b starts a STOPPED block and is discarded with CFG_REJECT while it is QUIESCING, as 11b always is; a FOLLOW
page discards the write. A write stores its fields by their access types and ranges, is refused when it does not fit, is dropped
before STANDBY and by reserved space, and is rejected by a frozen page. A read of an entry's first word latches the entry. An access
whose page does not answer ends when NI_TMO of its NI is out: a write is lost, a read returns all ones. Every write of BLK_CTL, of a
register and every quiesced block completes, and so does a read of a window's address; the addresses behind BAR0 reach BAR2 (log
139).
The model's choices here are those of log 95, 96, 116, 139 and 159. -/
def Obligations.RegisterPages : Prop :=
  (∀ (s : State) (addr : Nat) (v : Word), NoneDue s → ∃ t, exec (.blkCtlWrite addr v) s = .next t ∧ PinsFollow t ∧
    t.pending = s.pending ∧
    (NoneDue s → pageAt (addr / 0x1000) = none ∨ addr % 0x1000 ≠ 8 → t.regs = s.regs ∧ t.out = s.out ∧ t.mq = s.mq)) ∧
  (∀ (s : State) (p : Nat) (v : Word), NoneDue s → p < 128 →
    exec (.blkCtlWrite ((Page.part p).base + 8) v) s = exec (.partBlkCtlWrite p v) s) ∧
  (∀ (s : State) (ep q : Nat) (v : Word), NoneDue s → ep < 2 → q < 64 →
    exec (.blkCtlWrite ((Page.mq ep q).base + 8) v) s = exec (.queueBlkCtlWrite ep ep q v) s) ∧
  (∀ (s : State) (addr : Nat), NoneDue s → ∃ t, exec (.blockQuiesced addr) s = .next t ∧ PinsFollow t ∧ t.pending = s.pending ∧
    (pageAt (addr / 0x1000) = none → t.regs = s.regs ∧ t.out = s.out ∧ t.tick = s.tick)) ∧
  (∀ (s : State) (pg : Page), NoneDue s → pageAt (pg.base / 0x1000) = some pg → ownRun pg = true → rd s pg F.BLK_CTL_RUN = 1 →
    stopCond s pg = true →
    ∃ t, exec (.blockQuiesced pg.base) s = .next t ∧ rd t pg F.BLK_CTL_RUN = 2 ∧ t.out = s.out ∧ t.core = s.core) ∧
  (∀ (s : State) (p : Nat), NoneDue s → p < 512 → exec (.blockQuiesced (Page.phy p).base) s = exec (.linkQuiesced p) s) ∧
  (∀ (s : State) (p : Nat), NoneDue s → p < 128 → exec (.blockQuiesced (Page.part p).base) s = exec (.partQuiesced p) s) ∧
  (∀ (s : State) (x : RegPort) (addr size : Nat) (v : BitVec 64), NoneDue s →
    ∃ t, exec (.registerWrite x addr size v) s = .next t ∧ PinsFollow t ∧ t.pending = s.pending) ∧
  (∀ (s : State) (ep addr size : Nat), NoneDue s → (ep = 2 → jtagRegs s = true) → accessFits addr size = true →
    ∃ t, exec (.bindWindowRead ⟨ep, false⟩ addr size) s = .next t ∧ t.out.length = s.out.length + size / 4 ∧ t.mode = s.mode ∧
      t.core = s.core ∧ t.ports = s.ports) ∧
  (∀ (s : State) (addr size : Nat), NoneDue s → jtagRegs s = false →
    ∃ t, exec (.bindWindowRead ⟨2, false⟩ addr size) s = .next t ∧ t.out = s.out ∧ t.maps = s.maps) ∧
  (∀ (s : State) (src addr size : Nat), NoneDue s → src < 2 → clockRuns s = true → accessFits addr size = true →
    ∃ t, exec (.bindWindowRead ⟨src, true⟩ addr size) s = .next t ∧ t.tick = s.tick + rd s (.ni (6 + src)) F.NI_TMO_TMO ∧
      rd t (.ni (6 + src)) F.NI_STS_TMO = 1 ∧ (∀ i, i < size / 4 → .regData src (addr + 4 * i) 0xFFFFFFFF ∈ t.out)) ∧
  (∀ (s : State) (src p : Nat) (v : BitVec 64), NoneDue s → NoneParked s → src < 2 → p < 128 → clockRuns s = true →
    ∃ t, exec (.registerWrite ⟨src, true⟩ ((Page.part p).base + 0x44) 4 v) s = .next t ∧
      t.tick = s.tick + rd s (.ni (6 + src)) F.NI_TMO_TMO ∧ rd t (.ni (6 + src)) F.NI_STS_TMO = 1 ∧
      rd t (.part p) F.PART_CFG_QTMO = rd s (.part p) F.PART_CFG_QTMO) ∧
  (∀ (s : State) (ep off : Nat), NoneDue s → ep < 2 → off + 4 ≤ bar2Size →
    ∃ t, exec (.bindWindowRead ⟨ep, false⟩ (bar0Size + off) 4) s = .next t ∧ t.regs = s.regs ∧
      t.out = s.out ++ [.regData ep (bar0Size + off) (bar2Read s ep off)]) ∧
  (∀ (s : State) (pg : Page) (v : Word), pageAt (pg.base / 0x1000) = some pg → pg.base % 0x1000 = 0 → NoneDue s →
    Takes s pg → ownRun pg = true → rd s pg F.BLK_CTL_RUN = 0 →
    v.toNat % 4 = 1 ∨ v.toNat % 4 = 2 →
    ∃ t, exec (.blkCtlWrite (pg.base + 8) v) s = .next t ∧ rd t pg F.BLK_CTL_RUN = 1 ∧ t.out = s.out ∧ t.mode = s.mode) ∧
  (∀ (s : State) (pg : Page) (v : Word), pageAt (pg.base / 0x1000) = some pg → pg.base % 0x1000 = 0 → NoneDue s →
    Takes s pg → ownRun pg = true → rd s pg F.BLK_CTL_RUN = 2 →
    v.toNat % 4 = 0 →
    ∃ t, exec (.blkCtlWrite (pg.base + 8) v) s = .next t ∧ rd t pg F.BLK_CTL_RUN = 0 ∧ t.out = s.out ∧ t.mode = s.mode) ∧
  (∀ (s : State) (pg : Page) (v : Word), pageAt (pg.base / 0x1000) = some pg → pg.base % 0x1000 = 0 → NoneDue s →
    Takes s pg → ownRun pg = true →
    v.toNat % 4 = 3 ∨ (v.toNat % 4 = 0 ∧ rd s pg F.BLK_CTL_RUN = 1) →
    ∃ t, exec (.blkCtlWrite (pg.base + 8) v) s = .next t ∧ rd t pg F.BLK_CTL_RUN = rd s pg F.BLK_CTL_RUN ∧
      rd t pg F.BLK_STS_CFG_REJECT = 1) ∧
  (∀ (s : State) (pg : Page) (v : Word), pageAt (pg.base / 0x1000) = some pg → pg.base % 0x1000 = 0 → NoneDue s →
    Takes s pg → pg.follow = true →
    ∃ t, exec (.blkCtlWrite (pg.base + 8) v) s = .next t ∧ rd t pg F.BLK_STS_CFG_REJECT = 1 ∧ t.ports = s.ports ∧
      t.parts = s.parts ∧ t.core = s.core) ∧
  (∀ (s : State), NoneDue s → clockRuns s = true → rd s .ftm F.BLK_CTL_RUN = 1 →
    ∃ t, exec (.blockQuiesced 0x2000) s = .next t ∧ rd t .ftm F.BLK_CTL_RUN = 2 ∧ t.tick = s.tick + 1) ∧
  (∀ (s : State), NoneDue s → s.core.cells = [] → rd s .trnk F.BLK_CTL_RUN = 1 →
    ∃ t, exec (.blockQuiesced 0x8000) s = .next t ∧ rd t .trnk F.BLK_CTL_RUN = 2 ∧ t.tick = s.tick ∧ t.ports = s.ports) ∧
  (∀ (s : State) (c : Cell), NoneDue s → c ∈ s.core.cells → c.inMove = true → trunkCell s c = true →
    ∃ t, exec (.blockQuiesced 0x8000) s = .next t ∧ rd t .trnk F.BLK_CTL_RUN = rd s .trnk F.BLK_CTL_RUN) ∧
  (∀ (s : State) (src : Nat) (v : BitVec 64), NoneDue s → NoneParked s → src < 2 →
    ∃ t, exec (.registerWrite ⟨src, false⟩ 0x1040 4 v) s = .next t ∧
      rd t .pwr F.PWR_WARN_CFG_WARN = max 80 (min 340 (v.toNat % 512)) ∧
      (∀ f ∈ Page.pwr.fields, f ≠ F.PWR_WARN_CFG_WARN → rd t .pwr f = rd s .pwr f) ∧ t.mode = s.mode ∧ t.out = s.out) ∧
  (∀ (s : State) (src : Nat) (v : BitVec 64), NoneDue s → NoneParked s → src < 2 → v.toNat % 128 ≤ 79 →
    ∃ t, exec (.registerWrite ⟨src, false⟩ 0x3050 4 v) s = .next t ∧ rd t .flt F.FLT_STK_IDX_WORD = v.toNat % 128 ∧
      rd t .flt F.BLK_STS_CFG_REJECT = rd s .flt F.BLK_STS_CFG_REJECT) ∧
  (∀ (s : State) (src : Nat) (v : BitVec 64), NoneDue s → NoneParked s → src < 2 → 79 < v.toNat % 128 →
    ∃ t, exec (.registerWrite ⟨src, false⟩ 0x3050 4 v) s = .next t ∧ rd t .flt F.FLT_STK_IDX_WORD = rd s .flt F.FLT_STK_IDX_WORD ∧
      rd t .flt F.BLK_STS_CFG_REJECT = 1) ∧
  (∀ (s : State) (src : Nat) (v : BitVec 64), NoneDue s → NoneParked s → src < 2 → s.mode.isUp = true →
    rd s .trnk F.BLK_CTL_RUN = 2 →
    ∃ t, exec (.registerWrite ⟨src, false⟩ 0x8040 4 v) s = .next t ∧ rd t .trnk F.TRNK_MOD_CFG_MODID = v.toNat % 256 ∧
      rd t .trnk F.TRNK_MOD_CFG_HOPS_INIT = max 1 (v.toNat / 256 % 16) ∧ t.core = s.core) ∧
  (∀ (s : State) (src : Nat) (v : BitVec 64), NoneDue s → NoneParked s → src < 2 → s.mode.isUp = true →
    rd s .trnk F.BLK_CTL_RUN ≠ 2 →
    ∃ t, exec (.registerWrite ⟨src, false⟩ 0x8040 4 v) s = .next t ∧
      rd t .trnk F.TRNK_MOD_CFG_MODID = rd s .trnk F.TRNK_MOD_CFG_MODID ∧
      rd t .trnk F.BLK_STS_CFG_REJECT = 1) ∧
  (∀ (s : State) (src : Nat) (v : BitVec 64), NoneDue s → NoneParked s → src < 2 →
    tget none s.rwe (rweKey .pwr F.PWR_TOK_CFG_COST) = none →
    tget none s.rwe (rweKey .pwr F.PWR_TOK_CFG_BUDGET) = none →
    ∃ t, exec (.registerWrite ⟨src, false⟩ 0x106C 4 v) s = .next t ∧ rd t .pwr F.PWR_TOK_CFG_COST = max 1 (v.toNat / 256 % 256) ∧
      rd t .pwr F.PWR_TOK_CFG_BUDGET = max (rd t .pwr F.PWR_TOK_CFG_COST) (v.toNat % 256) ∧
      rdf t .pwr F.PWR_TOK_CFG_COST = rd s .pwr F.PWR_TOK_CFG_COST ∧
      rdf t .pwr F.PWR_TOK_CFG_BUDGET = rd s .pwr F.PWR_TOK_CFG_BUDGET) ∧
  (∀ (s : State) (src : Nat) (v : BitVec 64), NoneDue s → NoneParked s → src < 2 →
    ∃ t, exec (.registerWrite ⟨src, false⟩ 0x1048 8 v) s = .next t ∧ rd t .pwr F.PWR_CURVE1_I_TRIP = v.toNat / 2 ^ 16 % 2 ^ 10 ∧
      rd t .pwr F.PWR_CURVE2_I_TRIP = v.toNat / 2 ^ 48 % 2 ^ 10 ∧ t.pwr = s.pwr) ∧
  (∀ (s : State) (src : Nat) (v : BitVec 64), NoneDue s → NoneParked s → src < 2 →
    (fkey .pwr F.BLK_STS_CFG_REJECT, s.tick) ∉ s.w1cNow →
    v.toNat / 2 % 2 = 1 →
    ∃ t, exec (.registerWrite ⟨src, false⟩ 0x100C 4 v) s = .next t ∧ rd t .pwr F.BLK_STS_CFG_REJECT = 0 ∧
      rd t .pwr F.BLK_STS_CFG_REJECT_CNT = rd s .pwr F.BLK_STS_CFG_REJECT_CNT) ∧
  (∀ (s : State) (src addr size : Nat) (v : BitVec 64), NoneDue s → NoneParked s → src < 2 → accessFits addr size = false →
    (addr < bar0Size ∨ bar0Size + bar2Size < addr + size) →
    ∃ t, exec (.registerWrite ⟨src, false⟩ addr size v) s = .next t ∧ t.out = s.out ++ [.urLog src addr] ∧ t.regs = s.regs) ∧
  (∀ (s : State) (src addr : Nat) (v : BitVec 64), NoneDue s → NoneParked s → src < 2 → accessFits addr 4 = true →
    pageAt (addr / 0x1000) = none →
    ∃ t, exec (.registerWrite ⟨src, false⟩ addr 4 v) s = .next t ∧ t.out = s.out ∧ t.regs = s.regs ∧ t.mq = s.mq ∧ t.flt = s.flt) ∧
  (∀ (s : State) (src addr : Nat) (v : BitVec 64) (pg : Page), NoneDue s → NoneParked s → src < 2 → accessFits addr 4 = true →
    pageAt (addr / 0x1000) = some pg → s.mode.isUp = false → earlyPage pg = false →
    ∃ t, exec (.registerWrite ⟨src, false⟩ addr 4 v) s = .next t ∧ t.out = s.out ∧ t.regs = s.regs ∧ t.mq = s.mq) ∧
  (∀ (s : State) (src addr : Nat) (v : BitVec 64) (pg : Page), NoneDue s → NoneParked s → src < 2 → accessFits addr 4 = true →
    pageAt (addr / 0x1000) = some pg → s.mode = .fatalHold → pg.scope ≠ 0 →
    ∃ t, exec (.registerWrite ⟨src, false⟩ addr 4 v) s = .next t ∧ t.out = s.out ∧ rd t pg F.BLK_STS_CFG_REJECT = 1 ∧
      t.parts = s.parts ∧ t.ports = s.ports) ∧
  (∀ (s : State) (addr size : Nat) (v : BitVec 64), NoneDue s → NoneParked s → s.dbg.unlocked = false →
    ∃ t, exec (.registerWrite ⟨2, false⟩ addr size v) s = .next t ∧ t.out = s.out ∧ t.regs = s.regs) ∧
  (∀ (s : State) (ep i : Nat), NoneDue s → (ep = 2 → jtagRegs s = true) → s.mode.isUp = true → i < 0x40000 →
    ∃ t, exec (.bindWindowRead ⟨ep, false⟩ (0x3000000 + 32 * i) 4) s = .next t ∧ latched t ep = some (i, bindOf s i) ∧
      (∀ e, e ≠ ep → latched t e = latched s e) ∧
      t.out = s.out ++ [.regData ep (0x3000000 + 32 * i) (((bindOf s i).toWords.getD 0 0) % 2 ^ 32)]) ∧
  (∀ (s : State) (ep i : Nat) (b : Binding), NoneDue s → (ep = 2 → jtagRegs s = true) → s.mode.isUp = true → i < 0x40000 →
    latched s ep = some (i, b) →
    ∃ t, exec (.bindWindowRead ⟨ep, false⟩ (0x3000000 + 32 * i + 8) 4) s = .next t ∧
      t.out = s.out ++ [.regData ep (0x3000000 + 32 * i + 8) ((b.toWords.getD 1 0) % 2 ^ 32)] ∧ t.maps = s.maps) ∧
  (∀ (s : State) (ep addr size : Nat), NoneDue s → (ep = 2 → jtagRegs s = true) → windowAt addr ≠ none → size = 0 ∨ size % 4 ≠ 0 ∨
    addr % 4 ≠ 0 →
    ∃ t, exec (.bindWindowRead ⟨ep, false⟩ addr size) s = .next t ∧ t.out = s.out ++ [.urRead ep addr] ∧ t.maps = s.maps)

/-- Parts of R351, R353, Table 18.4: the sideband target takes an address once and answers common commands; a private write selects a
register and C3h in the last one clears the latch, with VIN at VIN_ON, and starts at once, while anything else sets LATCH_ERR; a
read returns registers, a wide one with its high byte latched; without power or an address it does not. Every common command, write
and read with an address completes, acknowledged as its code says, and so does every write of SB_LATCH_CLR. The codes of the common
commands are the bus standard's (log 41).
The model's choices here are those of log 41 and 82. -/
def Obligations.SidebandTarget : Prop :=
  (∀ (s : State) (code a : Nat), s.pwr.lowAt = none →
    ∃ t, exec (.i3cCcc code a) s = .next t ∧ t.pwr = s.pwr ∧ t.regs = s.regs ∧ t.mode = s.mode ∧
      .i3cAck (if code = 0x07 then s.i3c.addr.isNone else s.i3c.addr.isSome &&
        [0x00, 0x01, 0x06, 0x80, 0x81, 0x88, 0x8D, 0x8E, 0x8F, 0x90, 0x94].contains code) ∈ t.out) ∧
  (∀ (s : State) (reg a : Nat) (bytes : List Nat), s.pwr.lowAt = none → s.i3c.addr = some a →
    ∃ t, exec (.i3cPrivateWrite reg bytes) s = .next t ∧ t.i3c.sel = (reg + bytes.length) % 256 ∧ t.regs = s.regs ∧
      t.out = s.out ++ [.i3cAck true] ∧
      ((∀ k, k < bytes.length → (reg + k) % 256 ≠ 0x0F) → t.pwr = s.pwr ∧ t.mode = s.mode)) ∧
  (∀ (s : State) (n a : Nat), s.pwr.lowAt = none → s.i3c.addr = some a →
    ∃ t l, exec (.i3cPrivateRead n) s = .next t ∧ l.length = n ∧ t.out = s.out ++ [.i3cAck true, .i3c l] ∧
      t.i3c.sel % 256 = (s.i3c.sel + n) % 256 ∧ t.regs = s.regs ∧ t.mode = s.mode ∧ t.pwr.latched = s.pwr.latched) ∧
  (∀ (s : State) (reg n : Nat) (bytes : List Nat), s.pwr.lowAt = none → s.i3c.addr = none →
    (∃ t, exec (.i3cPrivateWrite reg bytes) s = .next t ∧ t.i3c = s.i3c ∧ t.pwr = s.pwr ∧ t.out = s.out ++ [.i3cAck false]) ∧
      (∃ t, exec (.i3cPrivateRead n) s = .next t ∧ t.i3c = s.i3c ∧ t.pwr = s.pwr ∧ t.out = s.out ++ [.i3cAck false])) ∧
  (∀ (s : State) (v : Nat), s.pwr.lowAt = none →
    ∃ t, exec (.sbLatchClr v) s = .next t ∧ t.regs = s.regs ∧ t.out = s.out ∧
      t.i3c.latchErr = !(v == 0xC3 && s.pwr.latched && decide (4400 ≤ s.pwr.vin)) ∧
      t.pwr.latched = (s.pwr.latched && t.i3c.latchErr)) ∧
  (∀ (s : State) (a : Nat), s.pwr.lowAt = none → s.i3c.addr = none →
    ∃ t, exec (.i3cCcc 0x07 a) s = .next t ∧ t.i3c = { s.i3c with addr := some a } ∧ t.out = s.out ++ [.i3cAck true]) ∧
  (∀ (s : State) (a b : Nat), s.pwr.lowAt = none → s.i3c.addr = some b →
    ∃ t, exec (.i3cCcc 0x06 a) s = .next t ∧ t.i3c = { s.i3c with addr := none } ∧ t.out = s.out ++ [.i3cAck true]) ∧
  (∀ (s : State) (a b : Nat), s.pwr.lowAt = none → s.i3c.addr = some b →
    ∃ t, exec (.i3cCcc 0x8D a) s = .next t ∧ t.i3c = s.i3c ∧
      t.out = s.out ++ [.i3cAck true, .i3c (beBytes 6 (Config.mipiId.toNat * 2 ^ 33 + 2 ^ 32 + Config.serial.toNat % 2 ^ 32))]) ∧
  (∀ (s : State) (a b : Nat), s.pwr.lowAt = none → s.i3c.addr = some b → a % 2 = 1 →
    ∃ t, exec (.i3cCcc 0x80 a) s = .next t ∧ t.i3c = { s.i3c with ibi := true } ∧ t.out = s.out ++ [.i3cAck true]) ∧
  (∀ (s : State) (code a : Nat), s.pwr.lowAt = none → s.i3c.addr = none → code ≠ 0x07 →
    ∃ t, exec (.i3cCcc code a) s = .next t ∧ t.i3c = s.i3c ∧ t.out = s.out ++ [.i3cAck false]) ∧
  (∀ (s : State) (n code a reg m v : Nat) (bytes : List Nat), s.pwr.lowAt = some n →
    (∃ t, exec (.i3cCcc code a) s = .next t ∧ t.i3c = s.i3c ∧ t.out = s.out) ∧
      (∃ t, exec (.i3cPrivateWrite reg bytes) s = .next t ∧ t.i3c = s.i3c ∧ t.pwr = s.pwr ∧ t.out = s.out) ∧
      (∃ t, exec (.i3cPrivateRead m) s = .next t ∧ t.i3c = s.i3c ∧ t.pwr = s.pwr ∧ t.out = s.out) ∧
      (∃ t, exec (.sbLatchClr v) s = .next t ∧ t.pwr = s.pwr ∧ t.i3c = s.i3c)) ∧
  (∀ (s : State), s.pwr.lowAt = none → s.pwr.latched = true → 4400 ≤ s.pwr.vin → s.mode = .off → s.pwr.path = .opened →
    s.pwr.ov = false → s.rst.coldAt = none →
    ∃ t, exec (.sbLatchClr 0xC3) s = .next t ∧ t.pwr.latched = false ∧ t.pwr.fails = 0 ∧ t.mode = .precharge ∧
      t.pwr.path = .precharge ∧ t.i3c.latchErr = false) ∧
  (∀ (s : State) (v : Nat), s.pwr.lowAt = none → v ≠ 0xC3 ∨ s.pwr.latched = false ∨ s.pwr.vin < 4400 →
    ∃ t, exec (.sbLatchClr v) s = .next t ∧ t.i3c = { s.i3c with latchErr := true } ∧ t.pwr = s.pwr ∧ t.mode = s.mode) ∧
  (∀ (s : State) (reg a : Nat), s.pwr.lowAt = none → s.i3c.addr = some a →
    ∃ t, exec (.i3cPrivateWrite reg []) s = .next t ∧ t.i3c = { s.i3c with sel := reg % 256 } ∧
      t.out = s.out ++ [.i3cAck true] ∧ t.pwr = s.pwr) ∧
  (∀ (s : State) (a v : Nat), s.pwr.lowAt = none → s.i3c.addr = some a → v % 256 ≠ 0xC3 →
    ∃ t, exec (.i3cPrivateWrite 0x0F [v]) s = .next t ∧ t.i3c = { s.i3c with sel := 16, latchErr := true } ∧
      t.pwr = s.pwr) ∧
  (∀ (s : State) (a : Nat), s.pwr.lowAt = none → s.i3c.addr = some a → s.i3c.sel = 0x02 →
    ∃ t, exec (.i3cPrivateRead 1) s = .next t ∧ t.i3c.sel = 3 ∧
      t.out = s.out ++ [.i3cAck true, .i3c [128 * s.pwr.latched.toNat + 64 * s.pwr.pgInt.toNat + 32 * s.pwr.warn.toNat +
        16 * s.pwr.full.toNat + 8 * (!s.i3c.tjWarn.isEmpty).toNat + 4 * s.i3c.tjTrip.toNat + 2 * s.i3c.latchErr.toNat]]) ∧
  (∀ (s : State) (a : Nat), s.pwr.lowAt = none → s.i3c.addr = some a → s.i3c.sel = 0x06 → s.pwr.vin < 65536 →
    ∃ t, exec (.i3cPrivateRead 2) s = .next t ∧ t.i3c.sel = 8 ∧
      t.out = s.out ++ [.i3cAck true, .i3c [s.pwr.vin % 256, s.pwr.vin / 256]] ∧ t.pwr = s.pwr)

/-- R332: after a cold and after a warm reset every page with RUNCTL 1 is STOPPED; before STANDBY the NI, CNP, FTM and GLR pages
are set to RUN, and the TRNK, PHY, command-queue and PART pages stay STOPPED. -/
def Obligations.RunStatesAfterReset : Prop :=
  (∀ (s : State), s.pwr.path = .holdup →
    ∃ t, exec .powerDown s = .next t ∧
      (∀ pg ∈ (List.range 0x2800).filterMap pageAt, pg.runctl = true → pageRun t pg = 2)) ∧
  (∀ (s : State) (n : Nat), s.rst.warmAt = some n → s.wab.ents = [] → s.home.alc = [] → dumpBusy s = false →
    ∃ t, exec .warmReset s = .next t ∧
      (∀ pg ∈ (List.range 0x2800).filterMap pageAt, pg.runctl = true → pageRun t pg = 2)) ∧
  (∀ (s : State), s.mode = .boot → s.rst.refOk = true → s.pwr.stTest = false → s.sec.running ≠ none →
    s.rst.warmAt = none → s.rst.resetN = true →
    ∃ t, exec .bootDone s = .next t ∧ t.mode = .standby ∧
      (∀ pg ∈ (List.range 0x2800).filterMap pageAt, ownRun pg = true → pg ≠ .trnk →
        pageRun t pg = 0) ∧
      (∀ pg ∈ (List.range 0x2800).filterMap pageAt, pg.runctl = true → ownRun pg = false ∨ pg = .trnk →
        pageRun t pg = pageRun s pg))

/-- A step with a command at the front of the queue is that command's effect, with the queue's rest left. -/
def Obligations.StepRunsFront : Prop :=
  ∀ (s : State) (c : Instr), step { s with pending := c :: s.pending } = exec c s

/-- Parts of R36, R265, R301, R302, R303, R331, R332, Tables 15.4, 15.11: after a cold reset the module is OFF and its pins are as
without power, the count is 0 and UNSET, every page with a run state of its own is STOPPED, as every partition is, no binding,
mapping, event, early-acknowledged write or schedule entry is held, the route tables are empty, and the curve is that of Table 15.4.
The model's choices here are those of log 6, 7, 9 and 162. -/
def Obligations.ResetState : Prop :=
  PinsFollow State.reset ∧ State.reset.mode = .off ∧ State.reset.time = 0 ∧ rd State.reset .ftm F.FTM_STS_STATE = 0 ∧
  State.reset.pins.pg = false ∧ State.reset.pins.bypass = true ∧ State.reset.pins.perst = List.range 128 ∧
  State.reset.pins.refclk = false ∧ State.reset.pins.ember = none ∧ State.reset.pins.warn = false ∧
  (∀ pg : Page, pg.runctl = true → pageRun State.reset pg = 2) ∧
  (∀ p : Nat, partSt State.reset p = 2) ∧ (∀ i : Nat, (bindOf State.reset i).valid = false) ∧
  (∀ q : Nat, evList State.reset q = []) ∧ State.reset.wab.ents = [] ∧ State.reset.sched = [] ∧ State.reset.pending = [] ∧
  (∀ d x : Nat, (routeOf State.reset d x).valid = false) ∧
  Memory.wf State.reset.flt.staging = true ∧ rd State.reset .pwr F.PWR_WARN_CFG_WARN = 86 ∧
  rd State.reset .trnk F.TRNK_MOD_CFG_MODID = 0xFF ∧
  State.reset.pwr.curve = [(true, 520, 102400), (true, 560, 20480), (true, 600, 5120), (true, 660, 1000), (true, 720, 200),
    (true, 800, 50), (true, 880, 10), (true, 960, 2)]

/-- Parts of R53, R292, R303, Table 15.11: in every state that a step reaches the pins are at the levels that the table gives: with
power, PG is high
just while PG_INT is 1 and no reset is in progress or held; PWRWARN_N is low just while it is asserted; EMBER is
low outside STANDBY and later or while UNSET, and bit 15 of fabric time otherwise, unless FATAL handling
holds it; the bypass is closed before STANDBY; the REFCLK outputs run once they are on; PERST_N of an x8 group is low outside
STANDBY, RUN, DEGRADED and MAINTENANCE and under PERST of a link of the group; the lanes are idle from PRECHARGE to BOOT and in
FATAL_HOLD; the sideband is there. Without power EMBER, the lanes and the sideband are released, PG, PERST_N and the bypass are
low or closed, and the outputs are off; PRES_N is low throughout.
The model's choices here are those of log 72, 104 and 153. -/
def Obligations.PinsFollowState : Prop :=
  ∀ s t : State, step s = .next t →
    (t.pins.pg = true ↔ t.pwr.lowAt = none ∧ t.pwr.pgInt = true ∧ t.rst.inReset = false ∧ (t.mode.isUp = true ∨
      t.rst.resetN = true)) ∧
    (t.pins.warn = true ↔ t.pwr.lowAt = none ∧ t.pwr.warn = true) ∧
    (t.pins.ember = none ↔ t.pwr.lowAt ≠ none) ∧
    (t.mode.isUp = false ∨ t.rst.inReset = true ∨ rd t .ftm F.FTM_STS_STATE = 0 → t.pins.ember ≠ some true) ∧
    (t.pwr.lowAt = none → t.mode.isUp = true → t.rst.inReset = false → rd t .ftm F.FTM_STS_STATE ≠ 0 →
      t.pins.ember = some (if t.flt.emberHeld then t.flt.ember else t.time.testBit 15)) ∧
    (t.pins.bypass = true ↔ t.pwr.lowAt ≠ none ∨ t.mode.isUp = false ∨ t.glr.bypass = true) ∧
    (t.pins.refclk = true ↔ t.pwr.lowAt = none ∧ t.rst.refOut = true) ∧
    (t.pins.lanes = 0 ↔ t.pwr.lowAt ≠ none) ∧ (t.pins.lanes = 2 ↔ t.pwr.lowAt = none ∧ t.mode.isUp = true ∧ t.mode ≠ .fatalHold) ∧
    (t.pins.i3c = true ↔ t.pwr.lowAt = none) ∧ t.pins.presLow = true ∧ t.pins.tdo = false ∧
    (∀ g, g ∈ t.pins.perst ↔ g < 128 ∧ (t.pwr.lowAt ≠ none ∨ ¬ (t.mode = .standby ∨ t.mode = .run ∨ t.mode = .degraded ∨
      t.mode = .maintenance) ∨
      ∃ p, 4 * g ≤ p ∧ p < 4 * g + 4 ∧ roleOf t (leadOf t p) ≠ 0 ∧ rd t (.phy (leadOf t p)) F.PHY_LINK_CTL_PERST ≠ 0))

/-- Every command completes: from any state the module takes the commands of its queue in order, none of them faults or is
refused, and when it has taken as many as there were, the queue is empty and the pins follow the state. -/
def Obligations.EveryQueueDrains : Prop :=
  (∀ (s : State) (c : Instr) (rest : List Instr), s.pending = c :: rest →
    ∃ t, step s = .next t ∧ t.pending = rest ∧ PinsFollow t) ∧
  (∀ (s : State) (n : Nat), ∃ t, runSteps n s = .next t ∧ t.pending = s.pending.drop n)
end

