-- ==== Sys2Proof/Laws/Due.lean ====
section
/-!
SUPPORT. Sys2Proof/Laws/Due.lean: commands before which fabric time has nothing due find the state as it is.
-/
namespace Sys2Proof.Machine

/-- With no change overdue by a tick, none is made visible on the way to it. -/
theorem tcsDue_none {s : State} {t : Nat} (h : (s.maps.pend.all fun p => decide (t ≤ p.since + 32)) = true) : tcsDue t s = s := by
  have hn : ∀ n, tcsBefore t n s = s := by
    intro n
    cases n with
    | zero => rfl
    | succ n =>
      have : (s.maps.pend.find? fun p => decide (p.since + 32 < t)) = none := by
        simp only [List.find?_eq_none, List.all_eq_true, decide_eq_true_eq] at *
        intro p hp; have := h p hp; omega
      simp only [tcsBefore, this]
  unfold tcsDue unfrozen; dsimp only; split <;> simp [hn]

/-- With no parity failure waiting, none is raised. -/
theorem parDue_none {s : State} (h : NoneWaits s) : parDue s = s := by simp [parDue, h.1]

/-- With no signature ready, no response is given. -/
theorem spdmDue_none {s : State} (h : NoneWaits s) : spdmDue s = s := by
  have : ((List.range 2).filter fun ep => (tget none s.sec.spdmProc ep).any fun p => decide (p.since + Config.signTicks ≤ s.tick)) = [] := by
    rw [List.filter_eq_nil_iff]; intro ep he
    have h2 := List.all_eq_true.mp h.2 ep he
    cases hp : tget none s.sec.spdmProc ep with
    | none => simp
    | some p => rw [hp] at h2; simp at h2 ⊢; omega
  unfold spdmDue; rw [this]; rfl

/-- With no record of an earlier tick waiting, none is dropped. -/
theorem skySettle_none {s : State} (h : (s.tel.skyWait.all fun w => w.tick == s.tick) = true) : skySettle s = s := by
  have : (s.tel.skyWait.filter fun w => w.tick != s.tick) = [] := by
    rw [List.filter_eq_nil_iff]; intro w hw
    simpa using List.all_eq_true.mp h w hw
  simp [skySettle, this]

/-- With nothing due, a command comes to the state as it is. -/
theorem dueFirst_none {s : State} (h : NoneDue s) : dueFirst s = s := by
  have fire : ∀ n, schedDue s = none → fireDue n s = s := by intro n hn; cases n <;> simp [fireDue, hn]
  obtain ⟨hw, h⟩ := h
  unfold dueFirst; simp only [parDue_none hw, spdmDue_none hw]
  rcases h with h | h | ⟨hk, ho, hs, he, hd⟩
  · simp [h]
  · simp [h]
  · have b : boundary ⟨[], []⟩ none [] s = s := by
      have h1 : (s.time % 2 ^ 17 == 0 && s.ftm.epochDone != s.time) = false := by
        by_cases x : s.time % 2 ^ 17 = 0 <;> simp_all
      have h2 : (s.time % 2 ^ 7 == 0 && s.ftm.slotDone != s.time) = false := by
        by_cases x : s.time % 2 ^ 7 = 0 <;> simp_all
      unfold boundary; dsimp only; rw [h1, h2]; simp [State.when, parDue_none hw, spdmDue_none hw, skySettle_none hk]
    split
    · simp [tcsDue_none ho, b, fire _ hd]
    · rfl

/-- With nothing due on the way to a timer's tick nor in it, its action comes to the state of that tick. -/
theorem atDue_none {s : State} {n : Nat} (h : NoneDueBy n s) (hc : n ≤ s.tick ∨ clockRuns s = true) (f : State → State) :
    atDue n f s = f (advanceTo n s) := by
  have : ¬ (s.tick < n ∧ ¬ clockRuns s = true) := by rintro ⟨h1, h2⟩; rcases hc with hc | hc <;> [omega; exact h2 hc]
  unfold atDue dueThen; rw [if_neg this, tcsDue_none h.1, dueFirst_none h.2]

end Sys2Proof.Machine
end

