-- ==== Sys2Proof/Laws/State.lean ====
section
/-!
SUPPORT. Sys2Proof/Laws/State.lean: what each named update of the state leaves as it was, field by field.
-/
namespace Sys2Proof.Machine

variable (s : State)

@[simp] theorem say_time (o : Out) : (s.say o).time = s.time := rfl
@[simp] theorem say_tick (o : Out) : (s.say o).tick = s.tick := rfl
@[simp] theorem say_mode (o : Out) : (s.say o).mode = s.mode := rfl
@[simp] theorem say_regs (o : Out) : (s.say o).regs = s.regs := rfl
@[simp] theorem say_w1cNow (o : Out) : (s.say o).w1cNow = s.w1cNow := rfl
@[simp] theorem say_rwe (o : Out) : (s.say o).rwe = s.rwe := rfl
@[simp] theorem say_ftm (o : Out) : (s.say o).ftm = s.ftm := rfl
@[simp] theorem say_sched (o : Out) : (s.say o).sched = s.sched := rfl
@[simp] theorem say_trail (o : Out) : (s.say o).trail = s.trail := rfl
@[simp] theorem say_ports (o : Out) : (s.say o).ports = s.ports := rfl
@[simp] theorem say_core (o : Out) : (s.say o).core = s.core := rfl
@[simp] theorem say_maps (o : Out) : (s.say o).maps = s.maps := rfl
@[simp] theorem say_parts (o : Out) : (s.say o).parts = s.parts := rfl
@[simp] theorem say_wab (o : Out) : (s.say o).wab = s.wab := rfl
@[simp] theorem say_home (o : Out) : (s.say o).home = s.home := rfl
@[simp] theorem say_egr (o : Out) : (s.say o).egr = s.egr := rfl
@[simp] theorem say_mq (o : Out) : (s.say o).mq = s.mq := rfl
@[simp] theorem say_flt (o : Out) : (s.say o).flt = s.flt := rfl
@[simp] theorem say_tel (o : Out) : (s.say o).tel = s.tel := rfl
@[simp] theorem say_glr (o : Out) : (s.say o).glr = s.glr := rfl
@[simp] theorem say_pwr (o : Out) : (s.say o).pwr = s.pwr := rfl
@[simp] theorem say_rst (o : Out) : (s.say o).rst = s.rst := rfl
@[simp] theorem say_i3c (o : Out) : (s.say o).i3c = s.i3c := rfl
@[simp] theorem say_sec (o : Out) : (s.say o).sec = s.sec := rfl
@[simp] theorem say_dbg (o : Out) : (s.say o).dbg = s.dbg := rfl
@[simp] theorem say_pins (o : Out) : (s.say o).pins = s.pins := rfl
@[simp] theorem say_free (o : Out) : (s.say o).free = s.free := rfl
@[simp] theorem say_pending (o : Out) : (s.say o).pending = s.pending := rfl

@[simp] theorem wr_time (pg : Page) (f : Fld) (v : Nat) : (wr pg f v s).time = s.time := rfl
@[simp] theorem wr_tick (pg : Page) (f : Fld) (v : Nat) : (wr pg f v s).tick = s.tick := rfl
@[simp] theorem wr_mode (pg : Page) (f : Fld) (v : Nat) : (wr pg f v s).mode = s.mode := rfl
@[simp] theorem wr_rwe (pg : Page) (f : Fld) (v : Nat) : (wr pg f v s).rwe = s.rwe := rfl
@[simp] theorem wr_ftm (pg : Page) (f : Fld) (v : Nat) : (wr pg f v s).ftm = s.ftm := rfl
@[simp] theorem wr_sched (pg : Page) (f : Fld) (v : Nat) : (wr pg f v s).sched = s.sched := rfl
@[simp] theorem wr_trail (pg : Page) (f : Fld) (v : Nat) : (wr pg f v s).trail = s.trail := rfl
@[simp] theorem wr_ports (pg : Page) (f : Fld) (v : Nat) : (wr pg f v s).ports = s.ports := rfl
@[simp] theorem wr_core (pg : Page) (f : Fld) (v : Nat) : (wr pg f v s).core = s.core := rfl
@[simp] theorem wr_maps (pg : Page) (f : Fld) (v : Nat) : (wr pg f v s).maps = s.maps := rfl
@[simp] theorem wr_parts (pg : Page) (f : Fld) (v : Nat) : (wr pg f v s).parts = s.parts := rfl
@[simp] theorem wr_wab (pg : Page) (f : Fld) (v : Nat) : (wr pg f v s).wab = s.wab := rfl
@[simp] theorem wr_home (pg : Page) (f : Fld) (v : Nat) : (wr pg f v s).home = s.home := rfl
@[simp] theorem wr_egr (pg : Page) (f : Fld) (v : Nat) : (wr pg f v s).egr = s.egr := rfl
@[simp] theorem wr_mq (pg : Page) (f : Fld) (v : Nat) : (wr pg f v s).mq = s.mq := rfl
@[simp] theorem wr_flt (pg : Page) (f : Fld) (v : Nat) : (wr pg f v s).flt = s.flt := rfl
@[simp] theorem wr_tel (pg : Page) (f : Fld) (v : Nat) : (wr pg f v s).tel = s.tel := rfl
@[simp] theorem wr_glr (pg : Page) (f : Fld) (v : Nat) : (wr pg f v s).glr = s.glr := rfl
@[simp] theorem wr_pwr (pg : Page) (f : Fld) (v : Nat) : (wr pg f v s).pwr = s.pwr := rfl
@[simp] theorem wr_rst (pg : Page) (f : Fld) (v : Nat) : (wr pg f v s).rst = s.rst := rfl
@[simp] theorem wr_i3c (pg : Page) (f : Fld) (v : Nat) : (wr pg f v s).i3c = s.i3c := rfl
@[simp] theorem wr_sec (pg : Page) (f : Fld) (v : Nat) : (wr pg f v s).sec = s.sec := rfl
@[simp] theorem wr_dbg (pg : Page) (f : Fld) (v : Nat) : (wr pg f v s).dbg = s.dbg := rfl
@[simp] theorem wr_pins (pg : Page) (f : Fld) (v : Nat) : (wr pg f v s).pins = s.pins := rfl
@[simp] theorem wr_free (pg : Page) (f : Fld) (v : Nat) : (wr pg f v s).free = s.free := rfl
@[simp] theorem wr_out (pg : Page) (f : Fld) (v : Nat) : (wr pg f v s).out = s.out := rfl
@[simp] theorem wr_pending (pg : Page) (f : Fld) (v : Nat) : (wr pg f v s).pending = s.pending := rfl

@[simp] theorem wrb_time (pg : Page) (f : Fld) (b : Bool) : (wrb pg f b s).time = s.time := rfl
@[simp] theorem wrb_tick (pg : Page) (f : Fld) (b : Bool) : (wrb pg f b s).tick = s.tick := rfl
@[simp] theorem wrb_mode (pg : Page) (f : Fld) (b : Bool) : (wrb pg f b s).mode = s.mode := rfl
@[simp] theorem wrb_rwe (pg : Page) (f : Fld) (b : Bool) : (wrb pg f b s).rwe = s.rwe := rfl
@[simp] theorem wrb_ftm (pg : Page) (f : Fld) (b : Bool) : (wrb pg f b s).ftm = s.ftm := rfl
@[simp] theorem wrb_sched (pg : Page) (f : Fld) (b : Bool) : (wrb pg f b s).sched = s.sched := rfl
@[simp] theorem wrb_trail (pg : Page) (f : Fld) (b : Bool) : (wrb pg f b s).trail = s.trail := rfl
@[simp] theorem wrb_ports (pg : Page) (f : Fld) (b : Bool) : (wrb pg f b s).ports = s.ports := rfl
@[simp] theorem wrb_core (pg : Page) (f : Fld) (b : Bool) : (wrb pg f b s).core = s.core := rfl
@[simp] theorem wrb_maps (pg : Page) (f : Fld) (b : Bool) : (wrb pg f b s).maps = s.maps := rfl
@[simp] theorem wrb_parts (pg : Page) (f : Fld) (b : Bool) : (wrb pg f b s).parts = s.parts := rfl
@[simp] theorem wrb_wab (pg : Page) (f : Fld) (b : Bool) : (wrb pg f b s).wab = s.wab := rfl
@[simp] theorem wrb_home (pg : Page) (f : Fld) (b : Bool) : (wrb pg f b s).home = s.home := rfl
@[simp] theorem wrb_egr (pg : Page) (f : Fld) (b : Bool) : (wrb pg f b s).egr = s.egr := rfl
@[simp] theorem wrb_mq (pg : Page) (f : Fld) (b : Bool) : (wrb pg f b s).mq = s.mq := rfl
@[simp] theorem wrb_flt (pg : Page) (f : Fld) (b : Bool) : (wrb pg f b s).flt = s.flt := rfl
@[simp] theorem wrb_tel (pg : Page) (f : Fld) (b : Bool) : (wrb pg f b s).tel = s.tel := rfl
@[simp] theorem wrb_glr (pg : Page) (f : Fld) (b : Bool) : (wrb pg f b s).glr = s.glr := rfl
@[simp] theorem wrb_pwr (pg : Page) (f : Fld) (b : Bool) : (wrb pg f b s).pwr = s.pwr := rfl
@[simp] theorem wrb_rst (pg : Page) (f : Fld) (b : Bool) : (wrb pg f b s).rst = s.rst := rfl
@[simp] theorem wrb_i3c (pg : Page) (f : Fld) (b : Bool) : (wrb pg f b s).i3c = s.i3c := rfl
@[simp] theorem wrb_sec (pg : Page) (f : Fld) (b : Bool) : (wrb pg f b s).sec = s.sec := rfl
@[simp] theorem wrb_dbg (pg : Page) (f : Fld) (b : Bool) : (wrb pg f b s).dbg = s.dbg := rfl
@[simp] theorem wrb_pins (pg : Page) (f : Fld) (b : Bool) : (wrb pg f b s).pins = s.pins := rfl
@[simp] theorem wrb_free (pg : Page) (f : Fld) (b : Bool) : (wrb pg f b s).free = s.free := rfl
@[simp] theorem wrb_out (pg : Page) (f : Fld) (b : Bool) : (wrb pg f b s).out = s.out := rfl
@[simp] theorem wrb_pending (pg : Page) (f : Fld) (b : Bool) : (wrb pg f b s).pending = s.pending := rfl

@[simp] theorem bumpBy_time (pg : Page) (f : Fld) (n : Nat) : (bumpBy pg f n s).time = s.time := rfl
@[simp] theorem bumpBy_tick (pg : Page) (f : Fld) (n : Nat) : (bumpBy pg f n s).tick = s.tick := rfl
@[simp] theorem bumpBy_mode (pg : Page) (f : Fld) (n : Nat) : (bumpBy pg f n s).mode = s.mode := rfl
@[simp] theorem bumpBy_rwe (pg : Page) (f : Fld) (n : Nat) : (bumpBy pg f n s).rwe = s.rwe := rfl
@[simp] theorem bumpBy_ftm (pg : Page) (f : Fld) (n : Nat) : (bumpBy pg f n s).ftm = s.ftm := rfl
@[simp] theorem bumpBy_sched (pg : Page) (f : Fld) (n : Nat) : (bumpBy pg f n s).sched = s.sched := rfl
@[simp] theorem bumpBy_trail (pg : Page) (f : Fld) (n : Nat) : (bumpBy pg f n s).trail = s.trail := rfl
@[simp] theorem bumpBy_ports (pg : Page) (f : Fld) (n : Nat) : (bumpBy pg f n s).ports = s.ports := rfl
@[simp] theorem bumpBy_core (pg : Page) (f : Fld) (n : Nat) : (bumpBy pg f n s).core = s.core := rfl
@[simp] theorem bumpBy_maps (pg : Page) (f : Fld) (n : Nat) : (bumpBy pg f n s).maps = s.maps := rfl
@[simp] theorem bumpBy_parts (pg : Page) (f : Fld) (n : Nat) : (bumpBy pg f n s).parts = s.parts := rfl
@[simp] theorem bumpBy_wab (pg : Page) (f : Fld) (n : Nat) : (bumpBy pg f n s).wab = s.wab := rfl
@[simp] theorem bumpBy_home (pg : Page) (f : Fld) (n : Nat) : (bumpBy pg f n s).home = s.home := rfl
@[simp] theorem bumpBy_egr (pg : Page) (f : Fld) (n : Nat) : (bumpBy pg f n s).egr = s.egr := rfl
@[simp] theorem bumpBy_mq (pg : Page) (f : Fld) (n : Nat) : (bumpBy pg f n s).mq = s.mq := rfl
@[simp] theorem bumpBy_flt (pg : Page) (f : Fld) (n : Nat) : (bumpBy pg f n s).flt = s.flt := rfl
@[simp] theorem bumpBy_tel (pg : Page) (f : Fld) (n : Nat) : (bumpBy pg f n s).tel = s.tel := rfl
@[simp] theorem bumpBy_glr (pg : Page) (f : Fld) (n : Nat) : (bumpBy pg f n s).glr = s.glr := rfl
@[simp] theorem bumpBy_pwr (pg : Page) (f : Fld) (n : Nat) : (bumpBy pg f n s).pwr = s.pwr := rfl
@[simp] theorem bumpBy_rst (pg : Page) (f : Fld) (n : Nat) : (bumpBy pg f n s).rst = s.rst := rfl
@[simp] theorem bumpBy_i3c (pg : Page) (f : Fld) (n : Nat) : (bumpBy pg f n s).i3c = s.i3c := rfl
@[simp] theorem bumpBy_sec (pg : Page) (f : Fld) (n : Nat) : (bumpBy pg f n s).sec = s.sec := rfl
@[simp] theorem bumpBy_dbg (pg : Page) (f : Fld) (n : Nat) : (bumpBy pg f n s).dbg = s.dbg := rfl
@[simp] theorem bumpBy_pins (pg : Page) (f : Fld) (n : Nat) : (bumpBy pg f n s).pins = s.pins := rfl
@[simp] theorem bumpBy_free (pg : Page) (f : Fld) (n : Nat) : (bumpBy pg f n s).free = s.free := rfl
@[simp] theorem bumpBy_out (pg : Page) (f : Fld) (n : Nat) : (bumpBy pg f n s).out = s.out := rfl
@[simp] theorem bumpBy_pending (pg : Page) (f : Fld) (n : Nat) : (bumpBy pg f n s).pending = s.pending := rfl

@[simp] theorem bump_time (pg : Page) (f : Fld) : (bump pg f s).time = s.time := rfl
@[simp] theorem bump_tick (pg : Page) (f : Fld) : (bump pg f s).tick = s.tick := rfl
@[simp] theorem bump_mode (pg : Page) (f : Fld) : (bump pg f s).mode = s.mode := rfl
@[simp] theorem bump_rwe (pg : Page) (f : Fld) : (bump pg f s).rwe = s.rwe := rfl
@[simp] theorem bump_ftm (pg : Page) (f : Fld) : (bump pg f s).ftm = s.ftm := rfl
@[simp] theorem bump_sched (pg : Page) (f : Fld) : (bump pg f s).sched = s.sched := rfl
@[simp] theorem bump_trail (pg : Page) (f : Fld) : (bump pg f s).trail = s.trail := rfl
@[simp] theorem bump_ports (pg : Page) (f : Fld) : (bump pg f s).ports = s.ports := rfl
@[simp] theorem bump_core (pg : Page) (f : Fld) : (bump pg f s).core = s.core := rfl
@[simp] theorem bump_maps (pg : Page) (f : Fld) : (bump pg f s).maps = s.maps := rfl
@[simp] theorem bump_parts (pg : Page) (f : Fld) : (bump pg f s).parts = s.parts := rfl
@[simp] theorem bump_wab (pg : Page) (f : Fld) : (bump pg f s).wab = s.wab := rfl
@[simp] theorem bump_home (pg : Page) (f : Fld) : (bump pg f s).home = s.home := rfl
@[simp] theorem bump_egr (pg : Page) (f : Fld) : (bump pg f s).egr = s.egr := rfl
@[simp] theorem bump_mq (pg : Page) (f : Fld) : (bump pg f s).mq = s.mq := rfl
@[simp] theorem bump_flt (pg : Page) (f : Fld) : (bump pg f s).flt = s.flt := rfl
@[simp] theorem bump_tel (pg : Page) (f : Fld) : (bump pg f s).tel = s.tel := rfl
@[simp] theorem bump_glr (pg : Page) (f : Fld) : (bump pg f s).glr = s.glr := rfl
@[simp] theorem bump_pwr (pg : Page) (f : Fld) : (bump pg f s).pwr = s.pwr := rfl
@[simp] theorem bump_rst (pg : Page) (f : Fld) : (bump pg f s).rst = s.rst := rfl
@[simp] theorem bump_i3c (pg : Page) (f : Fld) : (bump pg f s).i3c = s.i3c := rfl
@[simp] theorem bump_sec (pg : Page) (f : Fld) : (bump pg f s).sec = s.sec := rfl
@[simp] theorem bump_dbg (pg : Page) (f : Fld) : (bump pg f s).dbg = s.dbg := rfl
@[simp] theorem bump_pins (pg : Page) (f : Fld) : (bump pg f s).pins = s.pins := rfl
@[simp] theorem bump_free (pg : Page) (f : Fld) : (bump pg f s).free = s.free := rfl
@[simp] theorem bump_out (pg : Page) (f : Fld) : (bump pg f s).out = s.out := rfl
@[simp] theorem bump_pending (pg : Page) (f : Fld) : (bump pg f s).pending = s.pending := rfl

@[simp] theorem stage_time (pg : Page) (f : Fld) (v : Nat) : (stage pg f v s).time = s.time := rfl
@[simp] theorem stage_tick (pg : Page) (f : Fld) (v : Nat) : (stage pg f v s).tick = s.tick := rfl
@[simp] theorem stage_mode (pg : Page) (f : Fld) (v : Nat) : (stage pg f v s).mode = s.mode := rfl
@[simp] theorem stage_ftm (pg : Page) (f : Fld) (v : Nat) : (stage pg f v s).ftm = s.ftm := rfl
@[simp] theorem stage_sched (pg : Page) (f : Fld) (v : Nat) : (stage pg f v s).sched = s.sched := rfl
@[simp] theorem stage_trail (pg : Page) (f : Fld) (v : Nat) : (stage pg f v s).trail = s.trail := rfl
@[simp] theorem stage_ports (pg : Page) (f : Fld) (v : Nat) : (stage pg f v s).ports = s.ports := rfl
@[simp] theorem stage_core (pg : Page) (f : Fld) (v : Nat) : (stage pg f v s).core = s.core := rfl
@[simp] theorem stage_maps (pg : Page) (f : Fld) (v : Nat) : (stage pg f v s).maps = s.maps := rfl
@[simp] theorem stage_parts (pg : Page) (f : Fld) (v : Nat) : (stage pg f v s).parts = s.parts := rfl
@[simp] theorem stage_wab (pg : Page) (f : Fld) (v : Nat) : (stage pg f v s).wab = s.wab := rfl
@[simp] theorem stage_home (pg : Page) (f : Fld) (v : Nat) : (stage pg f v s).home = s.home := rfl
@[simp] theorem stage_egr (pg : Page) (f : Fld) (v : Nat) : (stage pg f v s).egr = s.egr := rfl
@[simp] theorem stage_mq (pg : Page) (f : Fld) (v : Nat) : (stage pg f v s).mq = s.mq := rfl
@[simp] theorem stage_flt (pg : Page) (f : Fld) (v : Nat) : (stage pg f v s).flt = s.flt := rfl
@[simp] theorem stage_tel (pg : Page) (f : Fld) (v : Nat) : (stage pg f v s).tel = s.tel := rfl
@[simp] theorem stage_glr (pg : Page) (f : Fld) (v : Nat) : (stage pg f v s).glr = s.glr := rfl
@[simp] theorem stage_pwr (pg : Page) (f : Fld) (v : Nat) : (stage pg f v s).pwr = s.pwr := rfl
@[simp] theorem stage_rst (pg : Page) (f : Fld) (v : Nat) : (stage pg f v s).rst = s.rst := rfl
@[simp] theorem stage_i3c (pg : Page) (f : Fld) (v : Nat) : (stage pg f v s).i3c = s.i3c := rfl
@[simp] theorem stage_sec (pg : Page) (f : Fld) (v : Nat) : (stage pg f v s).sec = s.sec := rfl
@[simp] theorem stage_dbg (pg : Page) (f : Fld) (v : Nat) : (stage pg f v s).dbg = s.dbg := rfl
@[simp] theorem stage_pins (pg : Page) (f : Fld) (v : Nat) : (stage pg f v s).pins = s.pins := rfl
@[simp] theorem stage_free (pg : Page) (f : Fld) (v : Nat) : (stage pg f v s).free = s.free := rfl
@[simp] theorem stage_out (pg : Page) (f : Fld) (v : Nat) : (stage pg f v s).out = s.out := rfl
@[simp] theorem stage_pending (pg : Page) (f : Fld) (v : Nat) : (stage pg f v s).pending = s.pending := rfl

@[simp] theorem reject_time (pg : Page) : (reject pg s).time = s.time := rfl
@[simp] theorem reject_tick (pg : Page) : (reject pg s).tick = s.tick := rfl
@[simp] theorem reject_mode (pg : Page) : (reject pg s).mode = s.mode := rfl
@[simp] theorem reject_rwe (pg : Page) : (reject pg s).rwe = s.rwe := rfl
@[simp] theorem reject_ftm (pg : Page) : (reject pg s).ftm = s.ftm := rfl
@[simp] theorem reject_sched (pg : Page) : (reject pg s).sched = s.sched := rfl
@[simp] theorem reject_trail (pg : Page) : (reject pg s).trail = s.trail := rfl
@[simp] theorem reject_ports (pg : Page) : (reject pg s).ports = s.ports := rfl
@[simp] theorem reject_core (pg : Page) : (reject pg s).core = s.core := rfl
@[simp] theorem reject_maps (pg : Page) : (reject pg s).maps = s.maps := rfl
@[simp] theorem reject_parts (pg : Page) : (reject pg s).parts = s.parts := rfl
@[simp] theorem reject_wab (pg : Page) : (reject pg s).wab = s.wab := rfl
@[simp] theorem reject_home (pg : Page) : (reject pg s).home = s.home := rfl
@[simp] theorem reject_egr (pg : Page) : (reject pg s).egr = s.egr := rfl
@[simp] theorem reject_mq (pg : Page) : (reject pg s).mq = s.mq := rfl
@[simp] theorem reject_flt (pg : Page) : (reject pg s).flt = s.flt := rfl
@[simp] theorem reject_tel (pg : Page) : (reject pg s).tel = s.tel := rfl
@[simp] theorem reject_glr (pg : Page) : (reject pg s).glr = s.glr := rfl
@[simp] theorem reject_pwr (pg : Page) : (reject pg s).pwr = s.pwr := rfl
@[simp] theorem reject_rst (pg : Page) : (reject pg s).rst = s.rst := rfl
@[simp] theorem reject_i3c (pg : Page) : (reject pg s).i3c = s.i3c := rfl
@[simp] theorem reject_sec (pg : Page) : (reject pg s).sec = s.sec := rfl
@[simp] theorem reject_dbg (pg : Page) : (reject pg s).dbg = s.dbg := rfl
@[simp] theorem reject_pins (pg : Page) : (reject pg s).pins = s.pins := rfl
@[simp] theorem reject_free (pg : Page) : (reject pg s).free = s.free := rfl
@[simp] theorem reject_out (pg : Page) : (reject pg s).out = s.out := rfl
@[simp] theorem reject_pending (pg : Page) : (reject pg s).pending = s.pending := rfl

@[simp] theorem setEv_time (q : Nat) (l : List Event) : (setEv q l s).time = s.time := rfl
@[simp] theorem setEv_tick (q : Nat) (l : List Event) : (setEv q l s).tick = s.tick := rfl
@[simp] theorem setEv_mode (q : Nat) (l : List Event) : (setEv q l s).mode = s.mode := rfl
@[simp] theorem setEv_regs (q : Nat) (l : List Event) : (setEv q l s).regs = s.regs := rfl
@[simp] theorem setEv_w1cNow (q : Nat) (l : List Event) : (setEv q l s).w1cNow = s.w1cNow := rfl
@[simp] theorem setEv_rwe (q : Nat) (l : List Event) : (setEv q l s).rwe = s.rwe := rfl
@[simp] theorem setEv_ftm (q : Nat) (l : List Event) : (setEv q l s).ftm = s.ftm := rfl
@[simp] theorem setEv_sched (q : Nat) (l : List Event) : (setEv q l s).sched = s.sched := rfl
@[simp] theorem setEv_trail (q : Nat) (l : List Event) : (setEv q l s).trail = s.trail := rfl
@[simp] theorem setEv_ports (q : Nat) (l : List Event) : (setEv q l s).ports = s.ports := rfl
@[simp] theorem setEv_core (q : Nat) (l : List Event) : (setEv q l s).core = s.core := rfl
@[simp] theorem setEv_maps (q : Nat) (l : List Event) : (setEv q l s).maps = s.maps := rfl
@[simp] theorem setEv_parts (q : Nat) (l : List Event) : (setEv q l s).parts = s.parts := rfl
@[simp] theorem setEv_wab (q : Nat) (l : List Event) : (setEv q l s).wab = s.wab := rfl
@[simp] theorem setEv_home (q : Nat) (l : List Event) : (setEv q l s).home = s.home := rfl
@[simp] theorem setEv_egr (q : Nat) (l : List Event) : (setEv q l s).egr = s.egr := rfl
@[simp] theorem setEv_flt (q : Nat) (l : List Event) : (setEv q l s).flt = s.flt := rfl
@[simp] theorem setEv_tel (q : Nat) (l : List Event) : (setEv q l s).tel = s.tel := rfl
@[simp] theorem setEv_glr (q : Nat) (l : List Event) : (setEv q l s).glr = s.glr := rfl
@[simp] theorem setEv_pwr (q : Nat) (l : List Event) : (setEv q l s).pwr = s.pwr := rfl
@[simp] theorem setEv_rst (q : Nat) (l : List Event) : (setEv q l s).rst = s.rst := rfl
@[simp] theorem setEv_i3c (q : Nat) (l : List Event) : (setEv q l s).i3c = s.i3c := rfl
@[simp] theorem setEv_sec (q : Nat) (l : List Event) : (setEv q l s).sec = s.sec := rfl
@[simp] theorem setEv_dbg (q : Nat) (l : List Event) : (setEv q l s).dbg = s.dbg := rfl
@[simp] theorem setEv_pins (q : Nat) (l : List Event) : (setEv q l s).pins = s.pins := rfl
@[simp] theorem setEv_free (q : Nat) (l : List Event) : (setEv q l s).free = s.free := rfl
@[simp] theorem setEv_out (q : Nat) (l : List Event) : (setEv q l s).out = s.out := rfl
@[simp] theorem setEv_pending (q : Nat) (l : List Event) : (setEv q l s).pending = s.pending := rfl

@[simp] theorem setEvTimer_time (q : Nat) (t : Option Nat) : (setEvTimer q t s).time = s.time := rfl
@[simp] theorem setEvTimer_tick (q : Nat) (t : Option Nat) : (setEvTimer q t s).tick = s.tick := rfl
@[simp] theorem setEvTimer_mode (q : Nat) (t : Option Nat) : (setEvTimer q t s).mode = s.mode := rfl
@[simp] theorem setEvTimer_regs (q : Nat) (t : Option Nat) : (setEvTimer q t s).regs = s.regs := rfl
@[simp] theorem setEvTimer_w1cNow (q : Nat) (t : Option Nat) : (setEvTimer q t s).w1cNow = s.w1cNow := rfl
@[simp] theorem setEvTimer_rwe (q : Nat) (t : Option Nat) : (setEvTimer q t s).rwe = s.rwe := rfl
@[simp] theorem setEvTimer_ftm (q : Nat) (t : Option Nat) : (setEvTimer q t s).ftm = s.ftm := rfl
@[simp] theorem setEvTimer_sched (q : Nat) (t : Option Nat) : (setEvTimer q t s).sched = s.sched := rfl
@[simp] theorem setEvTimer_trail (q : Nat) (t : Option Nat) : (setEvTimer q t s).trail = s.trail := rfl
@[simp] theorem setEvTimer_ports (q : Nat) (t : Option Nat) : (setEvTimer q t s).ports = s.ports := rfl
@[simp] theorem setEvTimer_core (q : Nat) (t : Option Nat) : (setEvTimer q t s).core = s.core := rfl
@[simp] theorem setEvTimer_maps (q : Nat) (t : Option Nat) : (setEvTimer q t s).maps = s.maps := rfl
@[simp] theorem setEvTimer_parts (q : Nat) (t : Option Nat) : (setEvTimer q t s).parts = s.parts := rfl
@[simp] theorem setEvTimer_wab (q : Nat) (t : Option Nat) : (setEvTimer q t s).wab = s.wab := rfl
@[simp] theorem setEvTimer_home (q : Nat) (t : Option Nat) : (setEvTimer q t s).home = s.home := rfl
@[simp] theorem setEvTimer_egr (q : Nat) (t : Option Nat) : (setEvTimer q t s).egr = s.egr := rfl
@[simp] theorem setEvTimer_flt (q : Nat) (t : Option Nat) : (setEvTimer q t s).flt = s.flt := rfl
@[simp] theorem setEvTimer_tel (q : Nat) (t : Option Nat) : (setEvTimer q t s).tel = s.tel := rfl
@[simp] theorem setEvTimer_glr (q : Nat) (t : Option Nat) : (setEvTimer q t s).glr = s.glr := rfl
@[simp] theorem setEvTimer_pwr (q : Nat) (t : Option Nat) : (setEvTimer q t s).pwr = s.pwr := rfl
@[simp] theorem setEvTimer_rst (q : Nat) (t : Option Nat) : (setEvTimer q t s).rst = s.rst := rfl
@[simp] theorem setEvTimer_i3c (q : Nat) (t : Option Nat) : (setEvTimer q t s).i3c = s.i3c := rfl
@[simp] theorem setEvTimer_sec (q : Nat) (t : Option Nat) : (setEvTimer q t s).sec = s.sec := rfl
@[simp] theorem setEvTimer_dbg (q : Nat) (t : Option Nat) : (setEvTimer q t s).dbg = s.dbg := rfl
@[simp] theorem setEvTimer_pins (q : Nat) (t : Option Nat) : (setEvTimer q t s).pins = s.pins := rfl
@[simp] theorem setEvTimer_free (q : Nat) (t : Option Nat) : (setEvTimer q t s).free = s.free := rfl
@[simp] theorem setEvTimer_out (q : Nat) (t : Option Nat) : (setEvTimer q t s).out = s.out := rfl
@[simp] theorem setEvTimer_pending (q : Nat) (t : Option Nat) : (setEvTimer q t s).pending = s.pending := rfl

@[simp] theorem setHeld_time (ep q : Nat) (l : List Cpl) : (setHeld ep q l s).time = s.time := rfl
@[simp] theorem setHeld_tick (ep q : Nat) (l : List Cpl) : (setHeld ep q l s).tick = s.tick := rfl
@[simp] theorem setHeld_mode (ep q : Nat) (l : List Cpl) : (setHeld ep q l s).mode = s.mode := rfl
@[simp] theorem setHeld_regs (ep q : Nat) (l : List Cpl) : (setHeld ep q l s).regs = s.regs := rfl
@[simp] theorem setHeld_w1cNow (ep q : Nat) (l : List Cpl) : (setHeld ep q l s).w1cNow = s.w1cNow := rfl
@[simp] theorem setHeld_rwe (ep q : Nat) (l : List Cpl) : (setHeld ep q l s).rwe = s.rwe := rfl
@[simp] theorem setHeld_ftm (ep q : Nat) (l : List Cpl) : (setHeld ep q l s).ftm = s.ftm := rfl
@[simp] theorem setHeld_sched (ep q : Nat) (l : List Cpl) : (setHeld ep q l s).sched = s.sched := rfl
@[simp] theorem setHeld_trail (ep q : Nat) (l : List Cpl) : (setHeld ep q l s).trail = s.trail := rfl
@[simp] theorem setHeld_ports (ep q : Nat) (l : List Cpl) : (setHeld ep q l s).ports = s.ports := rfl
@[simp] theorem setHeld_core (ep q : Nat) (l : List Cpl) : (setHeld ep q l s).core = s.core := rfl
@[simp] theorem setHeld_maps (ep q : Nat) (l : List Cpl) : (setHeld ep q l s).maps = s.maps := rfl
@[simp] theorem setHeld_parts (ep q : Nat) (l : List Cpl) : (setHeld ep q l s).parts = s.parts := rfl
@[simp] theorem setHeld_wab (ep q : Nat) (l : List Cpl) : (setHeld ep q l s).wab = s.wab := rfl
@[simp] theorem setHeld_home (ep q : Nat) (l : List Cpl) : (setHeld ep q l s).home = s.home := rfl
@[simp] theorem setHeld_egr (ep q : Nat) (l : List Cpl) : (setHeld ep q l s).egr = s.egr := rfl
@[simp] theorem setHeld_flt (ep q : Nat) (l : List Cpl) : (setHeld ep q l s).flt = s.flt := rfl
@[simp] theorem setHeld_tel (ep q : Nat) (l : List Cpl) : (setHeld ep q l s).tel = s.tel := rfl
@[simp] theorem setHeld_glr (ep q : Nat) (l : List Cpl) : (setHeld ep q l s).glr = s.glr := rfl
@[simp] theorem setHeld_pwr (ep q : Nat) (l : List Cpl) : (setHeld ep q l s).pwr = s.pwr := rfl
@[simp] theorem setHeld_rst (ep q : Nat) (l : List Cpl) : (setHeld ep q l s).rst = s.rst := rfl
@[simp] theorem setHeld_i3c (ep q : Nat) (l : List Cpl) : (setHeld ep q l s).i3c = s.i3c := rfl
@[simp] theorem setHeld_sec (ep q : Nat) (l : List Cpl) : (setHeld ep q l s).sec = s.sec := rfl
@[simp] theorem setHeld_dbg (ep q : Nat) (l : List Cpl) : (setHeld ep q l s).dbg = s.dbg := rfl
@[simp] theorem setHeld_pins (ep q : Nat) (l : List Cpl) : (setHeld ep q l s).pins = s.pins := rfl
@[simp] theorem setHeld_free (ep q : Nat) (l : List Cpl) : (setHeld ep q l s).free = s.free := rfl
@[simp] theorem setHeld_out (ep q : Nat) (l : List Cpl) : (setHeld ep q l s).out = s.out := rfl
@[simp] theorem setHeld_pending (ep q : Nat) (l : List Cpl) : (setHeld ep q l s).pending = s.pending := rfl

@[simp] theorem setLink_time (lead : Nat) (l : LinkS) : (setLink lead l s).time = s.time := rfl
@[simp] theorem setLink_tick (lead : Nat) (l : LinkS) : (setLink lead l s).tick = s.tick := rfl
@[simp] theorem setLink_mode (lead : Nat) (l : LinkS) : (setLink lead l s).mode = s.mode := rfl
@[simp] theorem setLink_regs (lead : Nat) (l : LinkS) : (setLink lead l s).regs = s.regs := rfl
@[simp] theorem setLink_w1cNow (lead : Nat) (l : LinkS) : (setLink lead l s).w1cNow = s.w1cNow := rfl
@[simp] theorem setLink_rwe (lead : Nat) (l : LinkS) : (setLink lead l s).rwe = s.rwe := rfl
@[simp] theorem setLink_ftm (lead : Nat) (l : LinkS) : (setLink lead l s).ftm = s.ftm := rfl
@[simp] theorem setLink_sched (lead : Nat) (l : LinkS) : (setLink lead l s).sched = s.sched := rfl
@[simp] theorem setLink_trail (lead : Nat) (l : LinkS) : (setLink lead l s).trail = s.trail := rfl
@[simp] theorem setLink_core (lead : Nat) (l : LinkS) : (setLink lead l s).core = s.core := rfl
@[simp] theorem setLink_maps (lead : Nat) (l : LinkS) : (setLink lead l s).maps = s.maps := rfl
@[simp] theorem setLink_parts (lead : Nat) (l : LinkS) : (setLink lead l s).parts = s.parts := rfl
@[simp] theorem setLink_wab (lead : Nat) (l : LinkS) : (setLink lead l s).wab = s.wab := rfl
@[simp] theorem setLink_home (lead : Nat) (l : LinkS) : (setLink lead l s).home = s.home := rfl
@[simp] theorem setLink_egr (lead : Nat) (l : LinkS) : (setLink lead l s).egr = s.egr := rfl
@[simp] theorem setLink_mq (lead : Nat) (l : LinkS) : (setLink lead l s).mq = s.mq := rfl
@[simp] theorem setLink_flt (lead : Nat) (l : LinkS) : (setLink lead l s).flt = s.flt := rfl
@[simp] theorem setLink_tel (lead : Nat) (l : LinkS) : (setLink lead l s).tel = s.tel := rfl
@[simp] theorem setLink_glr (lead : Nat) (l : LinkS) : (setLink lead l s).glr = s.glr := rfl
@[simp] theorem setLink_pwr (lead : Nat) (l : LinkS) : (setLink lead l s).pwr = s.pwr := rfl
@[simp] theorem setLink_rst (lead : Nat) (l : LinkS) : (setLink lead l s).rst = s.rst := rfl
@[simp] theorem setLink_i3c (lead : Nat) (l : LinkS) : (setLink lead l s).i3c = s.i3c := rfl
@[simp] theorem setLink_sec (lead : Nat) (l : LinkS) : (setLink lead l s).sec = s.sec := rfl
@[simp] theorem setLink_dbg (lead : Nat) (l : LinkS) : (setLink lead l s).dbg = s.dbg := rfl
@[simp] theorem setLink_pins (lead : Nat) (l : LinkS) : (setLink lead l s).pins = s.pins := rfl
@[simp] theorem setLink_free (lead : Nat) (l : LinkS) : (setLink lead l s).free = s.free := rfl
@[simp] theorem setLink_out (lead : Nat) (l : LinkS) : (setLink lead l s).out = s.out := rfl
@[simp] theorem setLink_pending (lead : Nat) (l : LinkS) : (setLink lead l s).pending = s.pending := rfl

@[simp] theorem modLink_time (lead : Nat) (f : LinkS → LinkS) : (modLink lead f s).time = s.time := rfl
@[simp] theorem modLink_tick (lead : Nat) (f : LinkS → LinkS) : (modLink lead f s).tick = s.tick := rfl
@[simp] theorem modLink_mode (lead : Nat) (f : LinkS → LinkS) : (modLink lead f s).mode = s.mode := rfl
@[simp] theorem modLink_regs (lead : Nat) (f : LinkS → LinkS) : (modLink lead f s).regs = s.regs := rfl
@[simp] theorem modLink_w1cNow (lead : Nat) (f : LinkS → LinkS) : (modLink lead f s).w1cNow = s.w1cNow := rfl
@[simp] theorem modLink_rwe (lead : Nat) (f : LinkS → LinkS) : (modLink lead f s).rwe = s.rwe := rfl
@[simp] theorem modLink_ftm (lead : Nat) (f : LinkS → LinkS) : (modLink lead f s).ftm = s.ftm := rfl
@[simp] theorem modLink_sched (lead : Nat) (f : LinkS → LinkS) : (modLink lead f s).sched = s.sched := rfl
@[simp] theorem modLink_trail (lead : Nat) (f : LinkS → LinkS) : (modLink lead f s).trail = s.trail := rfl
@[simp] theorem modLink_core (lead : Nat) (f : LinkS → LinkS) : (modLink lead f s).core = s.core := rfl
@[simp] theorem modLink_maps (lead : Nat) (f : LinkS → LinkS) : (modLink lead f s).maps = s.maps := rfl
@[simp] theorem modLink_parts (lead : Nat) (f : LinkS → LinkS) : (modLink lead f s).parts = s.parts := rfl
@[simp] theorem modLink_wab (lead : Nat) (f : LinkS → LinkS) : (modLink lead f s).wab = s.wab := rfl
@[simp] theorem modLink_home (lead : Nat) (f : LinkS → LinkS) : (modLink lead f s).home = s.home := rfl
@[simp] theorem modLink_egr (lead : Nat) (f : LinkS → LinkS) : (modLink lead f s).egr = s.egr := rfl
@[simp] theorem modLink_mq (lead : Nat) (f : LinkS → LinkS) : (modLink lead f s).mq = s.mq := rfl
@[simp] theorem modLink_flt (lead : Nat) (f : LinkS → LinkS) : (modLink lead f s).flt = s.flt := rfl
@[simp] theorem modLink_tel (lead : Nat) (f : LinkS → LinkS) : (modLink lead f s).tel = s.tel := rfl
@[simp] theorem modLink_glr (lead : Nat) (f : LinkS → LinkS) : (modLink lead f s).glr = s.glr := rfl
@[simp] theorem modLink_pwr (lead : Nat) (f : LinkS → LinkS) : (modLink lead f s).pwr = s.pwr := rfl
@[simp] theorem modLink_rst (lead : Nat) (f : LinkS → LinkS) : (modLink lead f s).rst = s.rst := rfl
@[simp] theorem modLink_i3c (lead : Nat) (f : LinkS → LinkS) : (modLink lead f s).i3c = s.i3c := rfl
@[simp] theorem modLink_sec (lead : Nat) (f : LinkS → LinkS) : (modLink lead f s).sec = s.sec := rfl
@[simp] theorem modLink_dbg (lead : Nat) (f : LinkS → LinkS) : (modLink lead f s).dbg = s.dbg := rfl
@[simp] theorem modLink_pins (lead : Nat) (f : LinkS → LinkS) : (modLink lead f s).pins = s.pins := rfl
@[simp] theorem modLink_free (lead : Nat) (f : LinkS → LinkS) : (modLink lead f s).free = s.free := rfl
@[simp] theorem modLink_out (lead : Nat) (f : LinkS → LinkS) : (modLink lead f s).out = s.out := rfl
@[simp] theorem modLink_pending (lead : Nat) (f : LinkS → LinkS) : (modLink lead f s).pending = s.pending := rfl

@[simp] theorem setBind_time (i : Nat) (b : Binding) : (setBind i b s).time = s.time := rfl
@[simp] theorem setBind_tick (i : Nat) (b : Binding) : (setBind i b s).tick = s.tick := rfl
@[simp] theorem setBind_mode (i : Nat) (b : Binding) : (setBind i b s).mode = s.mode := rfl
@[simp] theorem setBind_regs (i : Nat) (b : Binding) : (setBind i b s).regs = s.regs := rfl
@[simp] theorem setBind_w1cNow (i : Nat) (b : Binding) : (setBind i b s).w1cNow = s.w1cNow := rfl
@[simp] theorem setBind_rwe (i : Nat) (b : Binding) : (setBind i b s).rwe = s.rwe := rfl
@[simp] theorem setBind_ftm (i : Nat) (b : Binding) : (setBind i b s).ftm = s.ftm := rfl
@[simp] theorem setBind_sched (i : Nat) (b : Binding) : (setBind i b s).sched = s.sched := rfl
@[simp] theorem setBind_trail (i : Nat) (b : Binding) : (setBind i b s).trail = s.trail := rfl
@[simp] theorem setBind_ports (i : Nat) (b : Binding) : (setBind i b s).ports = s.ports := rfl
@[simp] theorem setBind_core (i : Nat) (b : Binding) : (setBind i b s).core = s.core := rfl
@[simp] theorem setBind_parts (i : Nat) (b : Binding) : (setBind i b s).parts = s.parts := rfl
@[simp] theorem setBind_wab (i : Nat) (b : Binding) : (setBind i b s).wab = s.wab := rfl
@[simp] theorem setBind_home (i : Nat) (b : Binding) : (setBind i b s).home = s.home := rfl
@[simp] theorem setBind_egr (i : Nat) (b : Binding) : (setBind i b s).egr = s.egr := rfl
@[simp] theorem setBind_mq (i : Nat) (b : Binding) : (setBind i b s).mq = s.mq := rfl
@[simp] theorem setBind_flt (i : Nat) (b : Binding) : (setBind i b s).flt = s.flt := rfl
@[simp] theorem setBind_tel (i : Nat) (b : Binding) : (setBind i b s).tel = s.tel := rfl
@[simp] theorem setBind_glr (i : Nat) (b : Binding) : (setBind i b s).glr = s.glr := rfl
@[simp] theorem setBind_pwr (i : Nat) (b : Binding) : (setBind i b s).pwr = s.pwr := rfl
@[simp] theorem setBind_rst (i : Nat) (b : Binding) : (setBind i b s).rst = s.rst := rfl
@[simp] theorem setBind_i3c (i : Nat) (b : Binding) : (setBind i b s).i3c = s.i3c := rfl
@[simp] theorem setBind_sec (i : Nat) (b : Binding) : (setBind i b s).sec = s.sec := rfl
@[simp] theorem setBind_dbg (i : Nat) (b : Binding) : (setBind i b s).dbg = s.dbg := rfl
@[simp] theorem setBind_pins (i : Nat) (b : Binding) : (setBind i b s).pins = s.pins := rfl
@[simp] theorem setBind_free (i : Nat) (b : Binding) : (setBind i b s).free = s.free := rfl
@[simp] theorem setBind_out (i : Nat) (b : Binding) : (setBind i b s).out = s.out := rfl
@[simp] theorem setBind_pending (i : Nat) (b : Binding) : (setBind i b s).pending = s.pending := rfl

@[simp] theorem setVp_time (p v : Nat) (x : Vp) : (setVp p v x s).time = s.time := rfl
@[simp] theorem setVp_tick (p v : Nat) (x : Vp) : (setVp p v x s).tick = s.tick := rfl
@[simp] theorem setVp_mode (p v : Nat) (x : Vp) : (setVp p v x s).mode = s.mode := rfl
@[simp] theorem setVp_regs (p v : Nat) (x : Vp) : (setVp p v x s).regs = s.regs := rfl
@[simp] theorem setVp_w1cNow (p v : Nat) (x : Vp) : (setVp p v x s).w1cNow = s.w1cNow := rfl
@[simp] theorem setVp_rwe (p v : Nat) (x : Vp) : (setVp p v x s).rwe = s.rwe := rfl
@[simp] theorem setVp_ftm (p v : Nat) (x : Vp) : (setVp p v x s).ftm = s.ftm := rfl
@[simp] theorem setVp_sched (p v : Nat) (x : Vp) : (setVp p v x s).sched = s.sched := rfl
@[simp] theorem setVp_trail (p v : Nat) (x : Vp) : (setVp p v x s).trail = s.trail := rfl
@[simp] theorem setVp_ports (p v : Nat) (x : Vp) : (setVp p v x s).ports = s.ports := rfl
@[simp] theorem setVp_core (p v : Nat) (x : Vp) : (setVp p v x s).core = s.core := rfl
@[simp] theorem setVp_parts (p v : Nat) (x : Vp) : (setVp p v x s).parts = s.parts := rfl
@[simp] theorem setVp_wab (p v : Nat) (x : Vp) : (setVp p v x s).wab = s.wab := rfl
@[simp] theorem setVp_home (p v : Nat) (x : Vp) : (setVp p v x s).home = s.home := rfl
@[simp] theorem setVp_egr (p v : Nat) (x : Vp) : (setVp p v x s).egr = s.egr := rfl
@[simp] theorem setVp_mq (p v : Nat) (x : Vp) : (setVp p v x s).mq = s.mq := rfl
@[simp] theorem setVp_flt (p v : Nat) (x : Vp) : (setVp p v x s).flt = s.flt := rfl
@[simp] theorem setVp_tel (p v : Nat) (x : Vp) : (setVp p v x s).tel = s.tel := rfl
@[simp] theorem setVp_glr (p v : Nat) (x : Vp) : (setVp p v x s).glr = s.glr := rfl
@[simp] theorem setVp_pwr (p v : Nat) (x : Vp) : (setVp p v x s).pwr = s.pwr := rfl
@[simp] theorem setVp_rst (p v : Nat) (x : Vp) : (setVp p v x s).rst = s.rst := rfl
@[simp] theorem setVp_i3c (p v : Nat) (x : Vp) : (setVp p v x s).i3c = s.i3c := rfl
@[simp] theorem setVp_sec (p v : Nat) (x : Vp) : (setVp p v x s).sec = s.sec := rfl
@[simp] theorem setVp_dbg (p v : Nat) (x : Vp) : (setVp p v x s).dbg = s.dbg := rfl
@[simp] theorem setVp_pins (p v : Nat) (x : Vp) : (setVp p v x s).pins = s.pins := rfl
@[simp] theorem setVp_free (p v : Nat) (x : Vp) : (setVp p v x s).free = s.free := rfl
@[simp] theorem setVp_out (p v : Nat) (x : Vp) : (setVp p v x s).out = s.out := rfl
@[simp] theorem setVp_pending (p v : Nat) (x : Vp) : (setVp p v x s).pending = s.pending := rfl

@[simp] theorem setPart_time (p : Nat) (x : PartS) : (setPart p x s).time = s.time := rfl
@[simp] theorem setPart_tick (p : Nat) (x : PartS) : (setPart p x s).tick = s.tick := rfl
@[simp] theorem setPart_mode (p : Nat) (x : PartS) : (setPart p x s).mode = s.mode := rfl
@[simp] theorem setPart_regs (p : Nat) (x : PartS) : (setPart p x s).regs = s.regs := rfl
@[simp] theorem setPart_w1cNow (p : Nat) (x : PartS) : (setPart p x s).w1cNow = s.w1cNow := rfl
@[simp] theorem setPart_rwe (p : Nat) (x : PartS) : (setPart p x s).rwe = s.rwe := rfl
@[simp] theorem setPart_ftm (p : Nat) (x : PartS) : (setPart p x s).ftm = s.ftm := rfl
@[simp] theorem setPart_sched (p : Nat) (x : PartS) : (setPart p x s).sched = s.sched := rfl
@[simp] theorem setPart_trail (p : Nat) (x : PartS) : (setPart p x s).trail = s.trail := rfl
@[simp] theorem setPart_ports (p : Nat) (x : PartS) : (setPart p x s).ports = s.ports := rfl
@[simp] theorem setPart_core (p : Nat) (x : PartS) : (setPart p x s).core = s.core := rfl
@[simp] theorem setPart_maps (p : Nat) (x : PartS) : (setPart p x s).maps = s.maps := rfl
@[simp] theorem setPart_wab (p : Nat) (x : PartS) : (setPart p x s).wab = s.wab := rfl
@[simp] theorem setPart_home (p : Nat) (x : PartS) : (setPart p x s).home = s.home := rfl
@[simp] theorem setPart_egr (p : Nat) (x : PartS) : (setPart p x s).egr = s.egr := rfl
@[simp] theorem setPart_mq (p : Nat) (x : PartS) : (setPart p x s).mq = s.mq := rfl
@[simp] theorem setPart_flt (p : Nat) (x : PartS) : (setPart p x s).flt = s.flt := rfl
@[simp] theorem setPart_tel (p : Nat) (x : PartS) : (setPart p x s).tel = s.tel := rfl
@[simp] theorem setPart_glr (p : Nat) (x : PartS) : (setPart p x s).glr = s.glr := rfl
@[simp] theorem setPart_pwr (p : Nat) (x : PartS) : (setPart p x s).pwr = s.pwr := rfl
@[simp] theorem setPart_rst (p : Nat) (x : PartS) : (setPart p x s).rst = s.rst := rfl
@[simp] theorem setPart_i3c (p : Nat) (x : PartS) : (setPart p x s).i3c = s.i3c := rfl
@[simp] theorem setPart_sec (p : Nat) (x : PartS) : (setPart p x s).sec = s.sec := rfl
@[simp] theorem setPart_dbg (p : Nat) (x : PartS) : (setPart p x s).dbg = s.dbg := rfl
@[simp] theorem setPart_pins (p : Nat) (x : PartS) : (setPart p x s).pins = s.pins := rfl
@[simp] theorem setPart_free (p : Nat) (x : PartS) : (setPart p x s).free = s.free := rfl
@[simp] theorem setPart_out (p : Nat) (x : PartS) : (setPart p x s).out = s.out := rfl
@[simp] theorem setPart_pending (p : Nat) (x : PartS) : (setPart p x s).pending = s.pending := rfl

@[simp] theorem modPart_time (p : Nat) (f : PartS → PartS) : (modPart p f s).time = s.time := rfl
@[simp] theorem modPart_tick (p : Nat) (f : PartS → PartS) : (modPart p f s).tick = s.tick := rfl
@[simp] theorem modPart_mode (p : Nat) (f : PartS → PartS) : (modPart p f s).mode = s.mode := rfl
@[simp] theorem modPart_regs (p : Nat) (f : PartS → PartS) : (modPart p f s).regs = s.regs := rfl
@[simp] theorem modPart_w1cNow (p : Nat) (f : PartS → PartS) : (modPart p f s).w1cNow = s.w1cNow := rfl
@[simp] theorem modPart_rwe (p : Nat) (f : PartS → PartS) : (modPart p f s).rwe = s.rwe := rfl
@[simp] theorem modPart_ftm (p : Nat) (f : PartS → PartS) : (modPart p f s).ftm = s.ftm := rfl
@[simp] theorem modPart_sched (p : Nat) (f : PartS → PartS) : (modPart p f s).sched = s.sched := rfl
@[simp] theorem modPart_trail (p : Nat) (f : PartS → PartS) : (modPart p f s).trail = s.trail := rfl
@[simp] theorem modPart_ports (p : Nat) (f : PartS → PartS) : (modPart p f s).ports = s.ports := rfl
@[simp] theorem modPart_core (p : Nat) (f : PartS → PartS) : (modPart p f s).core = s.core := rfl
@[simp] theorem modPart_maps (p : Nat) (f : PartS → PartS) : (modPart p f s).maps = s.maps := rfl
@[simp] theorem modPart_wab (p : Nat) (f : PartS → PartS) : (modPart p f s).wab = s.wab := rfl
@[simp] theorem modPart_home (p : Nat) (f : PartS → PartS) : (modPart p f s).home = s.home := rfl
@[simp] theorem modPart_egr (p : Nat) (f : PartS → PartS) : (modPart p f s).egr = s.egr := rfl
@[simp] theorem modPart_mq (p : Nat) (f : PartS → PartS) : (modPart p f s).mq = s.mq := rfl
@[simp] theorem modPart_flt (p : Nat) (f : PartS → PartS) : (modPart p f s).flt = s.flt := rfl
@[simp] theorem modPart_tel (p : Nat) (f : PartS → PartS) : (modPart p f s).tel = s.tel := rfl
@[simp] theorem modPart_glr (p : Nat) (f : PartS → PartS) : (modPart p f s).glr = s.glr := rfl
@[simp] theorem modPart_pwr (p : Nat) (f : PartS → PartS) : (modPart p f s).pwr = s.pwr := rfl
@[simp] theorem modPart_rst (p : Nat) (f : PartS → PartS) : (modPart p f s).rst = s.rst := rfl
@[simp] theorem modPart_i3c (p : Nat) (f : PartS → PartS) : (modPart p f s).i3c = s.i3c := rfl
@[simp] theorem modPart_sec (p : Nat) (f : PartS → PartS) : (modPart p f s).sec = s.sec := rfl
@[simp] theorem modPart_dbg (p : Nat) (f : PartS → PartS) : (modPart p f s).dbg = s.dbg := rfl
@[simp] theorem modPart_pins (p : Nat) (f : PartS → PartS) : (modPart p f s).pins = s.pins := rfl
@[simp] theorem modPart_free (p : Nat) (f : PartS → PartS) : (modPart p f s).free = s.free := rfl
@[simp] theorem modPart_out (p : Nat) (f : PartS → PartS) : (modPart p f s).out = s.out := rfl
@[simp] theorem modPart_pending (p : Nat) (f : PartS → PartS) : (modPart p f s).pending = s.pending := rfl

@[simp] theorem setSrc_time (n : Nat) (x : SrcS) : (setSrc n x s).time = s.time := rfl
@[simp] theorem setSrc_tick (n : Nat) (x : SrcS) : (setSrc n x s).tick = s.tick := rfl
@[simp] theorem setSrc_mode (n : Nat) (x : SrcS) : (setSrc n x s).mode = s.mode := rfl
@[simp] theorem setSrc_regs (n : Nat) (x : SrcS) : (setSrc n x s).regs = s.regs := rfl
@[simp] theorem setSrc_w1cNow (n : Nat) (x : SrcS) : (setSrc n x s).w1cNow = s.w1cNow := rfl
@[simp] theorem setSrc_rwe (n : Nat) (x : SrcS) : (setSrc n x s).rwe = s.rwe := rfl
@[simp] theorem setSrc_ftm (n : Nat) (x : SrcS) : (setSrc n x s).ftm = s.ftm := rfl
@[simp] theorem setSrc_sched (n : Nat) (x : SrcS) : (setSrc n x s).sched = s.sched := rfl
@[simp] theorem setSrc_trail (n : Nat) (x : SrcS) : (setSrc n x s).trail = s.trail := rfl
@[simp] theorem setSrc_ports (n : Nat) (x : SrcS) : (setSrc n x s).ports = s.ports := rfl
@[simp] theorem setSrc_core (n : Nat) (x : SrcS) : (setSrc n x s).core = s.core := rfl
@[simp] theorem setSrc_maps (n : Nat) (x : SrcS) : (setSrc n x s).maps = s.maps := rfl
@[simp] theorem setSrc_parts (n : Nat) (x : SrcS) : (setSrc n x s).parts = s.parts := rfl
@[simp] theorem setSrc_wab (n : Nat) (x : SrcS) : (setSrc n x s).wab = s.wab := rfl
@[simp] theorem setSrc_home (n : Nat) (x : SrcS) : (setSrc n x s).home = s.home := rfl
@[simp] theorem setSrc_egr (n : Nat) (x : SrcS) : (setSrc n x s).egr = s.egr := rfl
@[simp] theorem setSrc_mq (n : Nat) (x : SrcS) : (setSrc n x s).mq = s.mq := rfl
@[simp] theorem setSrc_tel (n : Nat) (x : SrcS) : (setSrc n x s).tel = s.tel := rfl
@[simp] theorem setSrc_glr (n : Nat) (x : SrcS) : (setSrc n x s).glr = s.glr := rfl
@[simp] theorem setSrc_pwr (n : Nat) (x : SrcS) : (setSrc n x s).pwr = s.pwr := rfl
@[simp] theorem setSrc_rst (n : Nat) (x : SrcS) : (setSrc n x s).rst = s.rst := rfl
@[simp] theorem setSrc_i3c (n : Nat) (x : SrcS) : (setSrc n x s).i3c = s.i3c := rfl
@[simp] theorem setSrc_sec (n : Nat) (x : SrcS) : (setSrc n x s).sec = s.sec := rfl
@[simp] theorem setSrc_dbg (n : Nat) (x : SrcS) : (setSrc n x s).dbg = s.dbg := rfl
@[simp] theorem setSrc_pins (n : Nat) (x : SrcS) : (setSrc n x s).pins = s.pins := rfl
@[simp] theorem setSrc_free (n : Nat) (x : SrcS) : (setSrc n x s).free = s.free := rfl
@[simp] theorem setSrc_out (n : Nat) (x : SrcS) : (setSrc n x s).out = s.out := rfl
@[simp] theorem setSrc_pending (n : Nat) (x : SrcS) : (setSrc n x s).pending = s.pending := rfl

@[simp] theorem modSrc_time (n : Nat) (f : SrcS → SrcS) : (modSrc n f s).time = s.time := rfl
@[simp] theorem modSrc_tick (n : Nat) (f : SrcS → SrcS) : (modSrc n f s).tick = s.tick := rfl
@[simp] theorem modSrc_mode (n : Nat) (f : SrcS → SrcS) : (modSrc n f s).mode = s.mode := rfl
@[simp] theorem modSrc_regs (n : Nat) (f : SrcS → SrcS) : (modSrc n f s).regs = s.regs := rfl
@[simp] theorem modSrc_w1cNow (n : Nat) (f : SrcS → SrcS) : (modSrc n f s).w1cNow = s.w1cNow := rfl
@[simp] theorem modSrc_rwe (n : Nat) (f : SrcS → SrcS) : (modSrc n f s).rwe = s.rwe := rfl
@[simp] theorem modSrc_ftm (n : Nat) (f : SrcS → SrcS) : (modSrc n f s).ftm = s.ftm := rfl
@[simp] theorem modSrc_sched (n : Nat) (f : SrcS → SrcS) : (modSrc n f s).sched = s.sched := rfl
@[simp] theorem modSrc_trail (n : Nat) (f : SrcS → SrcS) : (modSrc n f s).trail = s.trail := rfl
@[simp] theorem modSrc_ports (n : Nat) (f : SrcS → SrcS) : (modSrc n f s).ports = s.ports := rfl
@[simp] theorem modSrc_core (n : Nat) (f : SrcS → SrcS) : (modSrc n f s).core = s.core := rfl
@[simp] theorem modSrc_maps (n : Nat) (f : SrcS → SrcS) : (modSrc n f s).maps = s.maps := rfl
@[simp] theorem modSrc_parts (n : Nat) (f : SrcS → SrcS) : (modSrc n f s).parts = s.parts := rfl
@[simp] theorem modSrc_wab (n : Nat) (f : SrcS → SrcS) : (modSrc n f s).wab = s.wab := rfl
@[simp] theorem modSrc_home (n : Nat) (f : SrcS → SrcS) : (modSrc n f s).home = s.home := rfl
@[simp] theorem modSrc_egr (n : Nat) (f : SrcS → SrcS) : (modSrc n f s).egr = s.egr := rfl
@[simp] theorem modSrc_mq (n : Nat) (f : SrcS → SrcS) : (modSrc n f s).mq = s.mq := rfl
@[simp] theorem modSrc_tel (n : Nat) (f : SrcS → SrcS) : (modSrc n f s).tel = s.tel := rfl
@[simp] theorem modSrc_glr (n : Nat) (f : SrcS → SrcS) : (modSrc n f s).glr = s.glr := rfl
@[simp] theorem modSrc_pwr (n : Nat) (f : SrcS → SrcS) : (modSrc n f s).pwr = s.pwr := rfl
@[simp] theorem modSrc_rst (n : Nat) (f : SrcS → SrcS) : (modSrc n f s).rst = s.rst := rfl
@[simp] theorem modSrc_i3c (n : Nat) (f : SrcS → SrcS) : (modSrc n f s).i3c = s.i3c := rfl
@[simp] theorem modSrc_sec (n : Nat) (f : SrcS → SrcS) : (modSrc n f s).sec = s.sec := rfl
@[simp] theorem modSrc_dbg (n : Nat) (f : SrcS → SrcS) : (modSrc n f s).dbg = s.dbg := rfl
@[simp] theorem modSrc_pins (n : Nat) (f : SrcS → SrcS) : (modSrc n f s).pins = s.pins := rfl
@[simp] theorem modSrc_free (n : Nat) (f : SrcS → SrcS) : (modSrc n f s).free = s.free := rfl
@[simp] theorem modSrc_out (n : Nat) (f : SrcS → SrcS) : (modSrc n f s).out = s.out := rfl
@[simp] theorem modSrc_pending (n : Nat) (f : SrcS → SrcS) : (modSrc n f s).pending = s.pending := rfl

@[simp] theorem setTrail_time (t : Trail) : (setTrail t s).time = s.time := rfl
@[simp] theorem setTrail_tick (t : Trail) : (setTrail t s).tick = s.tick := rfl
@[simp] theorem setTrail_mode (t : Trail) : (setTrail t s).mode = s.mode := rfl
@[simp] theorem setTrail_regs (t : Trail) : (setTrail t s).regs = s.regs := rfl
@[simp] theorem setTrail_w1cNow (t : Trail) : (setTrail t s).w1cNow = s.w1cNow := rfl
@[simp] theorem setTrail_rwe (t : Trail) : (setTrail t s).rwe = s.rwe := rfl
@[simp] theorem setTrail_ftm (t : Trail) : (setTrail t s).ftm = s.ftm := rfl
@[simp] theorem setTrail_sched (t : Trail) : (setTrail t s).sched = s.sched := rfl
@[simp] theorem setTrail_ports (t : Trail) : (setTrail t s).ports = s.ports := rfl
@[simp] theorem setTrail_core (t : Trail) : (setTrail t s).core = s.core := rfl
@[simp] theorem setTrail_maps (t : Trail) : (setTrail t s).maps = s.maps := rfl
@[simp] theorem setTrail_parts (t : Trail) : (setTrail t s).parts = s.parts := rfl
@[simp] theorem setTrail_wab (t : Trail) : (setTrail t s).wab = s.wab := rfl
@[simp] theorem setTrail_home (t : Trail) : (setTrail t s).home = s.home := rfl
@[simp] theorem setTrail_egr (t : Trail) : (setTrail t s).egr = s.egr := rfl
@[simp] theorem setTrail_mq (t : Trail) : (setTrail t s).mq = s.mq := rfl
@[simp] theorem setTrail_flt (t : Trail) : (setTrail t s).flt = s.flt := rfl
@[simp] theorem setTrail_tel (t : Trail) : (setTrail t s).tel = s.tel := rfl
@[simp] theorem setTrail_glr (t : Trail) : (setTrail t s).glr = s.glr := rfl
@[simp] theorem setTrail_pwr (t : Trail) : (setTrail t s).pwr = s.pwr := rfl
@[simp] theorem setTrail_rst (t : Trail) : (setTrail t s).rst = s.rst := rfl
@[simp] theorem setTrail_i3c (t : Trail) : (setTrail t s).i3c = s.i3c := rfl
@[simp] theorem setTrail_sec (t : Trail) : (setTrail t s).sec = s.sec := rfl
@[simp] theorem setTrail_dbg (t : Trail) : (setTrail t s).dbg = s.dbg := rfl
@[simp] theorem setTrail_pins (t : Trail) : (setTrail t s).pins = s.pins := rfl
@[simp] theorem setTrail_free (t : Trail) : (setTrail t s).free = s.free := rfl
@[simp] theorem setTrail_out (t : Trail) : (setTrail t s).out = s.out := rfl
@[simp] theorem setTrail_pending (t : Trail) : (setTrail t s).pending = s.pending := rfl

@[simp] theorem settled_time (q : List Instr) : (settled q s).time = s.time := rfl
@[simp] theorem settled_tick (q : List Instr) : (settled q s).tick = s.tick := rfl
@[simp] theorem settled_mode (q : List Instr) : (settled q s).mode = s.mode := rfl
@[simp] theorem settled_regs (q : List Instr) : (settled q s).regs = s.regs := rfl
@[simp] theorem settled_w1cNow (q : List Instr) : (settled q s).w1cNow = s.w1cNow := rfl
@[simp] theorem settled_rwe (q : List Instr) : (settled q s).rwe = s.rwe := rfl
@[simp] theorem settled_ftm (q : List Instr) : (settled q s).ftm = s.ftm := rfl
@[simp] theorem settled_sched (q : List Instr) : (settled q s).sched = s.sched := rfl
@[simp] theorem settled_trail (q : List Instr) : (settled q s).trail = s.trail := rfl
@[simp] theorem settled_ports (q : List Instr) : (settled q s).ports = s.ports := rfl
@[simp] theorem settled_core (q : List Instr) : (settled q s).core = s.core := rfl
@[simp] theorem settled_maps (q : List Instr) : (settled q s).maps = s.maps := rfl
@[simp] theorem settled_parts (q : List Instr) : (settled q s).parts = s.parts := rfl
@[simp] theorem settled_wab (q : List Instr) : (settled q s).wab = s.wab := rfl
@[simp] theorem settled_home (q : List Instr) : (settled q s).home = s.home := rfl
@[simp] theorem settled_egr (q : List Instr) : (settled q s).egr = s.egr := rfl
@[simp] theorem settled_mq (q : List Instr) : (settled q s).mq = s.mq := rfl
@[simp] theorem settled_flt (q : List Instr) : (settled q s).flt = s.flt := rfl
@[simp] theorem settled_tel (q : List Instr) : (settled q s).tel = s.tel := rfl
@[simp] theorem settled_glr (q : List Instr) : (settled q s).glr = s.glr := rfl
@[simp] theorem settled_pwr (q : List Instr) : (settled q s).pwr = s.pwr := rfl
@[simp] theorem settled_rst (q : List Instr) : (settled q s).rst = s.rst := rfl
@[simp] theorem settled_i3c (q : List Instr) : (settled q s).i3c = s.i3c := rfl
@[simp] theorem settled_sec (q : List Instr) : (settled q s).sec = s.sec := rfl
@[simp] theorem settled_dbg (q : List Instr) : (settled q s).dbg = s.dbg := rfl
@[simp] theorem settled_free (q : List Instr) : (settled q s).free = s.free := rfl
@[simp] theorem settled_out (q : List Instr) : (settled q s).out = s.out := rfl

@[simp] theorem passTicks_mode (n : Nat) : (passTicks n s).mode = s.mode := by unfold passTicks; split <;> rfl
@[simp] theorem passTicks_regs (n : Nat) : (passTicks n s).regs = s.regs := by unfold passTicks; split <;> rfl
@[simp] theorem passTicks_w1cNow (n : Nat) : (passTicks n s).w1cNow = s.w1cNow := by unfold passTicks; split <;> rfl
@[simp] theorem passTicks_rwe (n : Nat) : (passTicks n s).rwe = s.rwe := by unfold passTicks; split <;> rfl
@[simp] theorem passTicks_ftm (n : Nat) : (passTicks n s).ftm = s.ftm := by unfold passTicks; split <;> rfl
@[simp] theorem passTicks_sched (n : Nat) : (passTicks n s).sched = s.sched := by unfold passTicks; split <;> rfl
@[simp] theorem passTicks_trail (n : Nat) : (passTicks n s).trail = s.trail := by unfold passTicks; split <;> rfl
@[simp] theorem passTicks_ports (n : Nat) : (passTicks n s).ports = s.ports := by unfold passTicks; split <;> rfl
@[simp] theorem passTicks_core (n : Nat) : (passTicks n s).core = s.core := by unfold passTicks; split <;> rfl
@[simp] theorem passTicks_maps (n : Nat) : (passTicks n s).maps = s.maps := by unfold passTicks; split <;> rfl
@[simp] theorem passTicks_parts (n : Nat) : (passTicks n s).parts = s.parts := by unfold passTicks; split <;> rfl
@[simp] theorem passTicks_wab (n : Nat) : (passTicks n s).wab = s.wab := by unfold passTicks; split <;> rfl
@[simp] theorem passTicks_home (n : Nat) : (passTicks n s).home = s.home := by unfold passTicks; split <;> rfl
@[simp] theorem passTicks_egr (n : Nat) : (passTicks n s).egr = s.egr := by unfold passTicks; split <;> rfl
@[simp] theorem passTicks_mq (n : Nat) : (passTicks n s).mq = s.mq := by unfold passTicks; split <;> rfl
@[simp] theorem passTicks_flt (n : Nat) : (passTicks n s).flt = s.flt := by unfold passTicks; split <;> rfl
@[simp] theorem passTicks_tel (n : Nat) : (passTicks n s).tel = s.tel := by unfold passTicks; split <;> rfl
@[simp] theorem passTicks_glr (n : Nat) : (passTicks n s).glr = s.glr := by unfold passTicks; split <;> rfl
@[simp] theorem passTicks_pwr (n : Nat) : (passTicks n s).pwr = s.pwr := by unfold passTicks; split <;> rfl
@[simp] theorem passTicks_rst (n : Nat) : (passTicks n s).rst = s.rst := by unfold passTicks; split <;> rfl
@[simp] theorem passTicks_i3c (n : Nat) : (passTicks n s).i3c = s.i3c := by unfold passTicks; split <;> rfl
@[simp] theorem passTicks_sec (n : Nat) : (passTicks n s).sec = s.sec := by unfold passTicks; split <;> rfl
@[simp] theorem passTicks_dbg (n : Nat) : (passTicks n s).dbg = s.dbg := by unfold passTicks; split <;> rfl
@[simp] theorem passTicks_pins (n : Nat) : (passTicks n s).pins = s.pins := by unfold passTicks; split <;> rfl
@[simp] theorem passTicks_free (n : Nat) : (passTicks n s).free = s.free := by unfold passTicks; split <;> rfl
@[simp] theorem passTicks_out (n : Nat) : (passTicks n s).out = s.out := by unfold passTicks; split <;> rfl
@[simp] theorem passTicks_pending (n : Nat) : (passTicks n s).pending = s.pending := by unfold passTicks; split <;> rfl

@[simp] theorem advanceTo_mode (t : Nat) : (advanceTo t s).mode = s.mode := by unfold advanceTo; split <;> simp
@[simp] theorem advanceTo_regs (t : Nat) : (advanceTo t s).regs = s.regs := by unfold advanceTo; split <;> simp
@[simp] theorem advanceTo_w1cNow (t : Nat) : (advanceTo t s).w1cNow = s.w1cNow := by unfold advanceTo; split <;> simp
@[simp] theorem advanceTo_rwe (t : Nat) : (advanceTo t s).rwe = s.rwe := by unfold advanceTo; split <;> simp
@[simp] theorem advanceTo_ftm (t : Nat) : (advanceTo t s).ftm = s.ftm := by unfold advanceTo; split <;> simp
@[simp] theorem advanceTo_sched (t : Nat) : (advanceTo t s).sched = s.sched := by unfold advanceTo; split <;> simp
@[simp] theorem advanceTo_trail (t : Nat) : (advanceTo t s).trail = s.trail := by unfold advanceTo; split <;> simp
@[simp] theorem advanceTo_ports (t : Nat) : (advanceTo t s).ports = s.ports := by unfold advanceTo; split <;> simp
@[simp] theorem advanceTo_core (t : Nat) : (advanceTo t s).core = s.core := by unfold advanceTo; split <;> simp
@[simp] theorem advanceTo_maps (t : Nat) : (advanceTo t s).maps = s.maps := by unfold advanceTo; split <;> simp
@[simp] theorem advanceTo_parts (t : Nat) : (advanceTo t s).parts = s.parts := by unfold advanceTo; split <;> simp
@[simp] theorem advanceTo_wab (t : Nat) : (advanceTo t s).wab = s.wab := by unfold advanceTo; split <;> simp
@[simp] theorem advanceTo_home (t : Nat) : (advanceTo t s).home = s.home := by unfold advanceTo; split <;> simp
@[simp] theorem advanceTo_egr (t : Nat) : (advanceTo t s).egr = s.egr := by unfold advanceTo; split <;> simp
@[simp] theorem advanceTo_mq (t : Nat) : (advanceTo t s).mq = s.mq := by unfold advanceTo; split <;> simp
@[simp] theorem advanceTo_flt (t : Nat) : (advanceTo t s).flt = s.flt := by unfold advanceTo; split <;> simp
@[simp] theorem advanceTo_tel (t : Nat) : (advanceTo t s).tel = s.tel := by unfold advanceTo; split <;> simp
@[simp] theorem advanceTo_glr (t : Nat) : (advanceTo t s).glr = s.glr := by unfold advanceTo; split <;> simp
@[simp] theorem advanceTo_pwr (t : Nat) : (advanceTo t s).pwr = s.pwr := by unfold advanceTo; split <;> simp
@[simp] theorem advanceTo_rst (t : Nat) : (advanceTo t s).rst = s.rst := by unfold advanceTo; split <;> simp
@[simp] theorem advanceTo_i3c (t : Nat) : (advanceTo t s).i3c = s.i3c := by unfold advanceTo; split <;> simp
@[simp] theorem advanceTo_sec (t : Nat) : (advanceTo t s).sec = s.sec := by unfold advanceTo; split <;> simp
@[simp] theorem advanceTo_dbg (t : Nat) : (advanceTo t s).dbg = s.dbg := by unfold advanceTo; split <;> simp
@[simp] theorem advanceTo_pins (t : Nat) : (advanceTo t s).pins = s.pins := by unfold advanceTo; split <;> simp
@[simp] theorem advanceTo_free (t : Nat) : (advanceTo t s).free = s.free := by unfold advanceTo; split <;> simp
@[simp] theorem advanceTo_out (t : Nat) : (advanceTo t s).out = s.out := by unfold advanceTo; split <;> simp
@[simp] theorem advanceTo_pending (t : Nat) : (advanceTo t s).pending = s.pending := by unfold advanceTo; split <;> simp

@[simp] theorem setLane_time (n : Nat) (l : LaneS) : (setLane n l s).time = s.time := rfl
@[simp] theorem setLane_tick (n : Nat) (l : LaneS) : (setLane n l s).tick = s.tick := rfl
@[simp] theorem setLane_mode (n : Nat) (l : LaneS) : (setLane n l s).mode = s.mode := rfl
@[simp] theorem setLane_regs (n : Nat) (l : LaneS) : (setLane n l s).regs = s.regs := rfl
@[simp] theorem setLane_w1cNow (n : Nat) (l : LaneS) : (setLane n l s).w1cNow = s.w1cNow := rfl
@[simp] theorem setLane_rwe (n : Nat) (l : LaneS) : (setLane n l s).rwe = s.rwe := rfl
@[simp] theorem setLane_ftm (n : Nat) (l : LaneS) : (setLane n l s).ftm = s.ftm := rfl
@[simp] theorem setLane_sched (n : Nat) (l : LaneS) : (setLane n l s).sched = s.sched := rfl
@[simp] theorem setLane_trail (n : Nat) (l : LaneS) : (setLane n l s).trail = s.trail := rfl
@[simp] theorem setLane_core (n : Nat) (l : LaneS) : (setLane n l s).core = s.core := rfl
@[simp] theorem setLane_maps (n : Nat) (l : LaneS) : (setLane n l s).maps = s.maps := rfl
@[simp] theorem setLane_parts (n : Nat) (l : LaneS) : (setLane n l s).parts = s.parts := rfl
@[simp] theorem setLane_wab (n : Nat) (l : LaneS) : (setLane n l s).wab = s.wab := rfl
@[simp] theorem setLane_home (n : Nat) (l : LaneS) : (setLane n l s).home = s.home := rfl
@[simp] theorem setLane_egr (n : Nat) (l : LaneS) : (setLane n l s).egr = s.egr := rfl
@[simp] theorem setLane_mq (n : Nat) (l : LaneS) : (setLane n l s).mq = s.mq := rfl
@[simp] theorem setLane_flt (n : Nat) (l : LaneS) : (setLane n l s).flt = s.flt := rfl
@[simp] theorem setLane_tel (n : Nat) (l : LaneS) : (setLane n l s).tel = s.tel := rfl
@[simp] theorem setLane_glr (n : Nat) (l : LaneS) : (setLane n l s).glr = s.glr := rfl
@[simp] theorem setLane_pwr (n : Nat) (l : LaneS) : (setLane n l s).pwr = s.pwr := rfl
@[simp] theorem setLane_rst (n : Nat) (l : LaneS) : (setLane n l s).rst = s.rst := rfl
@[simp] theorem setLane_i3c (n : Nat) (l : LaneS) : (setLane n l s).i3c = s.i3c := rfl
@[simp] theorem setLane_sec (n : Nat) (l : LaneS) : (setLane n l s).sec = s.sec := rfl
@[simp] theorem setLane_dbg (n : Nat) (l : LaneS) : (setLane n l s).dbg = s.dbg := rfl
@[simp] theorem setLane_pins (n : Nat) (l : LaneS) : (setLane n l s).pins = s.pins := rfl
@[simp] theorem setLane_free (n : Nat) (l : LaneS) : (setLane n l s).free = s.free := rfl
@[simp] theorem setLane_out (n : Nat) (l : LaneS) : (setLane n l s).out = s.out := rfl
@[simp] theorem setLane_pending (n : Nat) (l : LaneS) : (setLane n l s).pending = s.pending := rfl

@[simp] theorem setCache_time (ep q : Nat) (l : List (BitVec 512)) : (setCache ep q l s).time = s.time := rfl
@[simp] theorem setCache_tick (ep q : Nat) (l : List (BitVec 512)) : (setCache ep q l s).tick = s.tick := rfl
@[simp] theorem setCache_mode (ep q : Nat) (l : List (BitVec 512)) : (setCache ep q l s).mode = s.mode := rfl
@[simp] theorem setCache_regs (ep q : Nat) (l : List (BitVec 512)) : (setCache ep q l s).regs = s.regs := rfl
@[simp] theorem setCache_w1cNow (ep q : Nat) (l : List (BitVec 512)) : (setCache ep q l s).w1cNow = s.w1cNow := rfl
@[simp] theorem setCache_rwe (ep q : Nat) (l : List (BitVec 512)) : (setCache ep q l s).rwe = s.rwe := rfl
@[simp] theorem setCache_ftm (ep q : Nat) (l : List (BitVec 512)) : (setCache ep q l s).ftm = s.ftm := rfl
@[simp] theorem setCache_sched (ep q : Nat) (l : List (BitVec 512)) : (setCache ep q l s).sched = s.sched := rfl
@[simp] theorem setCache_trail (ep q : Nat) (l : List (BitVec 512)) : (setCache ep q l s).trail = s.trail := rfl
@[simp] theorem setCache_ports (ep q : Nat) (l : List (BitVec 512)) : (setCache ep q l s).ports = s.ports := rfl
@[simp] theorem setCache_core (ep q : Nat) (l : List (BitVec 512)) : (setCache ep q l s).core = s.core := rfl
@[simp] theorem setCache_maps (ep q : Nat) (l : List (BitVec 512)) : (setCache ep q l s).maps = s.maps := rfl
@[simp] theorem setCache_parts (ep q : Nat) (l : List (BitVec 512)) : (setCache ep q l s).parts = s.parts := rfl
@[simp] theorem setCache_wab (ep q : Nat) (l : List (BitVec 512)) : (setCache ep q l s).wab = s.wab := rfl
@[simp] theorem setCache_home (ep q : Nat) (l : List (BitVec 512)) : (setCache ep q l s).home = s.home := rfl
@[simp] theorem setCache_egr (ep q : Nat) (l : List (BitVec 512)) : (setCache ep q l s).egr = s.egr := rfl
@[simp] theorem setCache_flt (ep q : Nat) (l : List (BitVec 512)) : (setCache ep q l s).flt = s.flt := rfl
@[simp] theorem setCache_tel (ep q : Nat) (l : List (BitVec 512)) : (setCache ep q l s).tel = s.tel := rfl
@[simp] theorem setCache_glr (ep q : Nat) (l : List (BitVec 512)) : (setCache ep q l s).glr = s.glr := rfl
@[simp] theorem setCache_pwr (ep q : Nat) (l : List (BitVec 512)) : (setCache ep q l s).pwr = s.pwr := rfl
@[simp] theorem setCache_rst (ep q : Nat) (l : List (BitVec 512)) : (setCache ep q l s).rst = s.rst := rfl
@[simp] theorem setCache_i3c (ep q : Nat) (l : List (BitVec 512)) : (setCache ep q l s).i3c = s.i3c := rfl
@[simp] theorem setCache_sec (ep q : Nat) (l : List (BitVec 512)) : (setCache ep q l s).sec = s.sec := rfl
@[simp] theorem setCache_dbg (ep q : Nat) (l : List (BitVec 512)) : (setCache ep q l s).dbg = s.dbg := rfl
@[simp] theorem setCache_pins (ep q : Nat) (l : List (BitVec 512)) : (setCache ep q l s).pins = s.pins := rfl
@[simp] theorem setCache_free (ep q : Nat) (l : List (BitVec 512)) : (setCache ep q l s).free = s.free := rfl
@[simp] theorem setCache_out (ep q : Nat) (l : List (BitVec 512)) : (setCache ep q l s).out = s.out := rfl
@[simp] theorem setCache_pending (ep q : Nat) (l : List (BitVec 512)) : (setCache ep q l s).pending = s.pending := rfl

@[simp] theorem setMq_time (m : Mq) : (setMq m s).time = s.time := rfl
@[simp] theorem setMq_tick (m : Mq) : (setMq m s).tick = s.tick := rfl
@[simp] theorem setMq_mode (m : Mq) : (setMq m s).mode = s.mode := rfl
@[simp] theorem setMq_regs (m : Mq) : (setMq m s).regs = s.regs := rfl
@[simp] theorem setMq_w1cNow (m : Mq) : (setMq m s).w1cNow = s.w1cNow := rfl
@[simp] theorem setMq_rwe (m : Mq) : (setMq m s).rwe = s.rwe := rfl
@[simp] theorem setMq_ftm (m : Mq) : (setMq m s).ftm = s.ftm := rfl
@[simp] theorem setMq_sched (m : Mq) : (setMq m s).sched = s.sched := rfl
@[simp] theorem setMq_trail (m : Mq) : (setMq m s).trail = s.trail := rfl
@[simp] theorem setMq_ports (m : Mq) : (setMq m s).ports = s.ports := rfl
@[simp] theorem setMq_core (m : Mq) : (setMq m s).core = s.core := rfl
@[simp] theorem setMq_maps (m : Mq) : (setMq m s).maps = s.maps := rfl
@[simp] theorem setMq_parts (m : Mq) : (setMq m s).parts = s.parts := rfl
@[simp] theorem setMq_wab (m : Mq) : (setMq m s).wab = s.wab := rfl
@[simp] theorem setMq_home (m : Mq) : (setMq m s).home = s.home := rfl
@[simp] theorem setMq_egr (m : Mq) : (setMq m s).egr = s.egr := rfl
@[simp] theorem setMq_flt (m : Mq) : (setMq m s).flt = s.flt := rfl
@[simp] theorem setMq_tel (m : Mq) : (setMq m s).tel = s.tel := rfl
@[simp] theorem setMq_glr (m : Mq) : (setMq m s).glr = s.glr := rfl
@[simp] theorem setMq_pwr (m : Mq) : (setMq m s).pwr = s.pwr := rfl
@[simp] theorem setMq_rst (m : Mq) : (setMq m s).rst = s.rst := rfl
@[simp] theorem setMq_i3c (m : Mq) : (setMq m s).i3c = s.i3c := rfl
@[simp] theorem setMq_sec (m : Mq) : (setMq m s).sec = s.sec := rfl
@[simp] theorem setMq_dbg (m : Mq) : (setMq m s).dbg = s.dbg := rfl
@[simp] theorem setMq_pins (m : Mq) : (setMq m s).pins = s.pins := rfl
@[simp] theorem setMq_free (m : Mq) : (setMq m s).free = s.free := rfl
@[simp] theorem setMq_out (m : Mq) : (setMq m s).out = s.out := rfl
@[simp] theorem setMq_pending (m : Mq) : (setMq m s).pending = s.pending := rfl
@[simp] theorem setMq_mq (m : Mq) : (setMq m s).mq = m := rfl

@[simp] theorem setGlr_time (g : Glr) : (setGlr g s).time = s.time := rfl
@[simp] theorem setGlr_tick (g : Glr) : (setGlr g s).tick = s.tick := rfl
@[simp] theorem setGlr_mode (g : Glr) : (setGlr g s).mode = s.mode := rfl
@[simp] theorem setGlr_regs (g : Glr) : (setGlr g s).regs = s.regs := rfl
@[simp] theorem setGlr_w1cNow (g : Glr) : (setGlr g s).w1cNow = s.w1cNow := rfl
@[simp] theorem setGlr_rwe (g : Glr) : (setGlr g s).rwe = s.rwe := rfl
@[simp] theorem setGlr_ftm (g : Glr) : (setGlr g s).ftm = s.ftm := rfl
@[simp] theorem setGlr_sched (g : Glr) : (setGlr g s).sched = s.sched := rfl
@[simp] theorem setGlr_trail (g : Glr) : (setGlr g s).trail = s.trail := rfl
@[simp] theorem setGlr_ports (g : Glr) : (setGlr g s).ports = s.ports := rfl
@[simp] theorem setGlr_core (g : Glr) : (setGlr g s).core = s.core := rfl
@[simp] theorem setGlr_maps (g : Glr) : (setGlr g s).maps = s.maps := rfl
@[simp] theorem setGlr_parts (g : Glr) : (setGlr g s).parts = s.parts := rfl
@[simp] theorem setGlr_wab (g : Glr) : (setGlr g s).wab = s.wab := rfl
@[simp] theorem setGlr_home (g : Glr) : (setGlr g s).home = s.home := rfl
@[simp] theorem setGlr_egr (g : Glr) : (setGlr g s).egr = s.egr := rfl
@[simp] theorem setGlr_mq (g : Glr) : (setGlr g s).mq = s.mq := rfl
@[simp] theorem setGlr_flt (g : Glr) : (setGlr g s).flt = s.flt := rfl
@[simp] theorem setGlr_tel (g : Glr) : (setGlr g s).tel = s.tel := rfl
@[simp] theorem setGlr_pwr (g : Glr) : (setGlr g s).pwr = s.pwr := rfl
@[simp] theorem setGlr_rst (g : Glr) : (setGlr g s).rst = s.rst := rfl
@[simp] theorem setGlr_i3c (g : Glr) : (setGlr g s).i3c = s.i3c := rfl
@[simp] theorem setGlr_sec (g : Glr) : (setGlr g s).sec = s.sec := rfl
@[simp] theorem setGlr_dbg (g : Glr) : (setGlr g s).dbg = s.dbg := rfl
@[simp] theorem setGlr_pins (g : Glr) : (setGlr g s).pins = s.pins := rfl
@[simp] theorem setGlr_free (g : Glr) : (setGlr g s).free = s.free := rfl
@[simp] theorem setGlr_out (g : Glr) : (setGlr g s).out = s.out := rfl
@[simp] theorem setGlr_pending (g : Glr) : (setGlr g s).pending = s.pending := rfl
@[simp] theorem setGlr_glr (g : Glr) : (setGlr g s).glr = g := rfl

@[simp] theorem setFtm_time (f : Ftm) : (setFtm f s).time = s.time := rfl
@[simp] theorem setFtm_tick (f : Ftm) : (setFtm f s).tick = s.tick := rfl
@[simp] theorem setFtm_mode (f : Ftm) : (setFtm f s).mode = s.mode := rfl
@[simp] theorem setFtm_regs (f : Ftm) : (setFtm f s).regs = s.regs := rfl
@[simp] theorem setFtm_w1cNow (f : Ftm) : (setFtm f s).w1cNow = s.w1cNow := rfl
@[simp] theorem setFtm_rwe (f : Ftm) : (setFtm f s).rwe = s.rwe := rfl
@[simp] theorem setFtm_sched (f : Ftm) : (setFtm f s).sched = s.sched := rfl
@[simp] theorem setFtm_trail (f : Ftm) : (setFtm f s).trail = s.trail := rfl
@[simp] theorem setFtm_ports (f : Ftm) : (setFtm f s).ports = s.ports := rfl
@[simp] theorem setFtm_core (f : Ftm) : (setFtm f s).core = s.core := rfl
@[simp] theorem setFtm_maps (f : Ftm) : (setFtm f s).maps = s.maps := rfl
@[simp] theorem setFtm_parts (f : Ftm) : (setFtm f s).parts = s.parts := rfl
@[simp] theorem setFtm_wab (f : Ftm) : (setFtm f s).wab = s.wab := rfl
@[simp] theorem setFtm_home (f : Ftm) : (setFtm f s).home = s.home := rfl
@[simp] theorem setFtm_egr (f : Ftm) : (setFtm f s).egr = s.egr := rfl
@[simp] theorem setFtm_mq (f : Ftm) : (setFtm f s).mq = s.mq := rfl
@[simp] theorem setFtm_flt (f : Ftm) : (setFtm f s).flt = s.flt := rfl
@[simp] theorem setFtm_tel (f : Ftm) : (setFtm f s).tel = s.tel := rfl
@[simp] theorem setFtm_glr (f : Ftm) : (setFtm f s).glr = s.glr := rfl
@[simp] theorem setFtm_pwr (f : Ftm) : (setFtm f s).pwr = s.pwr := rfl
@[simp] theorem setFtm_rst (f : Ftm) : (setFtm f s).rst = s.rst := rfl
@[simp] theorem setFtm_i3c (f : Ftm) : (setFtm f s).i3c = s.i3c := rfl
@[simp] theorem setFtm_sec (f : Ftm) : (setFtm f s).sec = s.sec := rfl
@[simp] theorem setFtm_dbg (f : Ftm) : (setFtm f s).dbg = s.dbg := rfl
@[simp] theorem setFtm_pins (f : Ftm) : (setFtm f s).pins = s.pins := rfl
@[simp] theorem setFtm_free (f : Ftm) : (setFtm f s).free = s.free := rfl
@[simp] theorem setFtm_out (f : Ftm) : (setFtm f s).out = s.out := rfl
@[simp] theorem setFtm_pending (f : Ftm) : (setFtm f s).pending = s.pending := rfl
@[simp] theorem setFtm_ftm (f : Ftm) : (setFtm f s).ftm = f := rfl

@[simp] theorem setPwr_time (p : Pwr) : (setPwr p s).time = s.time := rfl
@[simp] theorem setPwr_tick (p : Pwr) : (setPwr p s).tick = s.tick := rfl
@[simp] theorem setPwr_mode (p : Pwr) : (setPwr p s).mode = s.mode := rfl
@[simp] theorem setPwr_regs (p : Pwr) : (setPwr p s).regs = s.regs := rfl
@[simp] theorem setPwr_w1cNow (p : Pwr) : (setPwr p s).w1cNow = s.w1cNow := rfl
@[simp] theorem setPwr_rwe (p : Pwr) : (setPwr p s).rwe = s.rwe := rfl
@[simp] theorem setPwr_ftm (p : Pwr) : (setPwr p s).ftm = s.ftm := rfl
@[simp] theorem setPwr_sched (p : Pwr) : (setPwr p s).sched = s.sched := rfl
@[simp] theorem setPwr_trail (p : Pwr) : (setPwr p s).trail = s.trail := rfl
@[simp] theorem setPwr_ports (p : Pwr) : (setPwr p s).ports = s.ports := rfl
@[simp] theorem setPwr_core (p : Pwr) : (setPwr p s).core = s.core := rfl
@[simp] theorem setPwr_maps (p : Pwr) : (setPwr p s).maps = s.maps := rfl
@[simp] theorem setPwr_parts (p : Pwr) : (setPwr p s).parts = s.parts := rfl
@[simp] theorem setPwr_wab (p : Pwr) : (setPwr p s).wab = s.wab := rfl
@[simp] theorem setPwr_home (p : Pwr) : (setPwr p s).home = s.home := rfl
@[simp] theorem setPwr_egr (p : Pwr) : (setPwr p s).egr = s.egr := rfl
@[simp] theorem setPwr_mq (p : Pwr) : (setPwr p s).mq = s.mq := rfl
@[simp] theorem setPwr_flt (p : Pwr) : (setPwr p s).flt = s.flt := rfl
@[simp] theorem setPwr_tel (p : Pwr) : (setPwr p s).tel = s.tel := rfl
@[simp] theorem setPwr_glr (p : Pwr) : (setPwr p s).glr = s.glr := rfl
@[simp] theorem setPwr_rst (p : Pwr) : (setPwr p s).rst = s.rst := rfl
@[simp] theorem setPwr_i3c (p : Pwr) : (setPwr p s).i3c = s.i3c := rfl
@[simp] theorem setPwr_sec (p : Pwr) : (setPwr p s).sec = s.sec := rfl
@[simp] theorem setPwr_dbg (p : Pwr) : (setPwr p s).dbg = s.dbg := rfl
@[simp] theorem setPwr_pins (p : Pwr) : (setPwr p s).pins = s.pins := rfl
@[simp] theorem setPwr_free (p : Pwr) : (setPwr p s).free = s.free := rfl
@[simp] theorem setPwr_out (p : Pwr) : (setPwr p s).out = s.out := rfl
@[simp] theorem setPwr_pending (p : Pwr) : (setPwr p s).pending = s.pending := rfl
@[simp] theorem setPwr_pwr (p : Pwr) : (setPwr p s).pwr = p := rfl

@[simp] theorem setRst_time (r : Rst) : (setRst r s).time = s.time := rfl
@[simp] theorem setRst_tick (r : Rst) : (setRst r s).tick = s.tick := rfl
@[simp] theorem setRst_mode (r : Rst) : (setRst r s).mode = s.mode := rfl
@[simp] theorem setRst_regs (r : Rst) : (setRst r s).regs = s.regs := rfl
@[simp] theorem setRst_w1cNow (r : Rst) : (setRst r s).w1cNow = s.w1cNow := rfl
@[simp] theorem setRst_rwe (r : Rst) : (setRst r s).rwe = s.rwe := rfl
@[simp] theorem setRst_ftm (r : Rst) : (setRst r s).ftm = s.ftm := rfl
@[simp] theorem setRst_sched (r : Rst) : (setRst r s).sched = s.sched := rfl
@[simp] theorem setRst_trail (r : Rst) : (setRst r s).trail = s.trail := rfl
@[simp] theorem setRst_ports (r : Rst) : (setRst r s).ports = s.ports := rfl
@[simp] theorem setRst_core (r : Rst) : (setRst r s).core = s.core := rfl
@[simp] theorem setRst_maps (r : Rst) : (setRst r s).maps = s.maps := rfl
@[simp] theorem setRst_parts (r : Rst) : (setRst r s).parts = s.parts := rfl
@[simp] theorem setRst_wab (r : Rst) : (setRst r s).wab = s.wab := rfl
@[simp] theorem setRst_home (r : Rst) : (setRst r s).home = s.home := rfl
@[simp] theorem setRst_egr (r : Rst) : (setRst r s).egr = s.egr := rfl
@[simp] theorem setRst_mq (r : Rst) : (setRst r s).mq = s.mq := rfl
@[simp] theorem setRst_flt (r : Rst) : (setRst r s).flt = s.flt := rfl
@[simp] theorem setRst_tel (r : Rst) : (setRst r s).tel = s.tel := rfl
@[simp] theorem setRst_glr (r : Rst) : (setRst r s).glr = s.glr := rfl
@[simp] theorem setRst_pwr (r : Rst) : (setRst r s).pwr = s.pwr := rfl
@[simp] theorem setRst_i3c (r : Rst) : (setRst r s).i3c = s.i3c := rfl
@[simp] theorem setRst_sec (r : Rst) : (setRst r s).sec = s.sec := rfl
@[simp] theorem setRst_dbg (r : Rst) : (setRst r s).dbg = s.dbg := rfl
@[simp] theorem setRst_pins (r : Rst) : (setRst r s).pins = s.pins := rfl
@[simp] theorem setRst_free (r : Rst) : (setRst r s).free = s.free := rfl
@[simp] theorem setRst_out (r : Rst) : (setRst r s).out = s.out := rfl
@[simp] theorem setRst_pending (r : Rst) : (setRst r s).pending = s.pending := rfl
@[simp] theorem setRst_rst (r : Rst) : (setRst r s).rst = r := rfl

@[simp] theorem modCell_time (id : Nat) (g : Cell → Cell) : (modCell id g s).time = s.time := rfl
@[simp] theorem modCell_tick (id : Nat) (g : Cell → Cell) : (modCell id g s).tick = s.tick := rfl
@[simp] theorem modCell_mode (id : Nat) (g : Cell → Cell) : (modCell id g s).mode = s.mode := rfl
@[simp] theorem modCell_regs (id : Nat) (g : Cell → Cell) : (modCell id g s).regs = s.regs := rfl
@[simp] theorem modCell_w1cNow (id : Nat) (g : Cell → Cell) : (modCell id g s).w1cNow = s.w1cNow := rfl
@[simp] theorem modCell_rwe (id : Nat) (g : Cell → Cell) : (modCell id g s).rwe = s.rwe := rfl
@[simp] theorem modCell_ftm (id : Nat) (g : Cell → Cell) : (modCell id g s).ftm = s.ftm := rfl
@[simp] theorem modCell_sched (id : Nat) (g : Cell → Cell) : (modCell id g s).sched = s.sched := rfl
@[simp] theorem modCell_trail (id : Nat) (g : Cell → Cell) : (modCell id g s).trail = s.trail := rfl
@[simp] theorem modCell_ports (id : Nat) (g : Cell → Cell) : (modCell id g s).ports = s.ports := rfl
@[simp] theorem modCell_maps (id : Nat) (g : Cell → Cell) : (modCell id g s).maps = s.maps := rfl
@[simp] theorem modCell_parts (id : Nat) (g : Cell → Cell) : (modCell id g s).parts = s.parts := rfl
@[simp] theorem modCell_wab (id : Nat) (g : Cell → Cell) : (modCell id g s).wab = s.wab := rfl
@[simp] theorem modCell_home (id : Nat) (g : Cell → Cell) : (modCell id g s).home = s.home := rfl
@[simp] theorem modCell_egr (id : Nat) (g : Cell → Cell) : (modCell id g s).egr = s.egr := rfl
@[simp] theorem modCell_mq (id : Nat) (g : Cell → Cell) : (modCell id g s).mq = s.mq := rfl
@[simp] theorem modCell_flt (id : Nat) (g : Cell → Cell) : (modCell id g s).flt = s.flt := rfl
@[simp] theorem modCell_tel (id : Nat) (g : Cell → Cell) : (modCell id g s).tel = s.tel := rfl
@[simp] theorem modCell_glr (id : Nat) (g : Cell → Cell) : (modCell id g s).glr = s.glr := rfl
@[simp] theorem modCell_pwr (id : Nat) (g : Cell → Cell) : (modCell id g s).pwr = s.pwr := rfl
@[simp] theorem modCell_rst (id : Nat) (g : Cell → Cell) : (modCell id g s).rst = s.rst := rfl
@[simp] theorem modCell_i3c (id : Nat) (g : Cell → Cell) : (modCell id g s).i3c = s.i3c := rfl
@[simp] theorem modCell_sec (id : Nat) (g : Cell → Cell) : (modCell id g s).sec = s.sec := rfl
@[simp] theorem modCell_dbg (id : Nat) (g : Cell → Cell) : (modCell id g s).dbg = s.dbg := rfl
@[simp] theorem modCell_pins (id : Nat) (g : Cell → Cell) : (modCell id g s).pins = s.pins := rfl
@[simp] theorem modCell_free (id : Nat) (g : Cell → Cell) : (modCell id g s).free = s.free := rfl
@[simp] theorem modCell_out (id : Nat) (g : Cell → Cell) : (modCell id g s).out = s.out := rfl
@[simp] theorem modCell_pending (id : Nat) (g : Cell → Cell) : (modCell id g s).pending = s.pending := rfl

@[simp] theorem modLoq_time (id : Nat) (g : LoqE → LoqE) : (modLoq id g s).time = s.time := rfl
@[simp] theorem modLoq_tick (id : Nat) (g : LoqE → LoqE) : (modLoq id g s).tick = s.tick := rfl
@[simp] theorem modLoq_mode (id : Nat) (g : LoqE → LoqE) : (modLoq id g s).mode = s.mode := rfl
@[simp] theorem modLoq_regs (id : Nat) (g : LoqE → LoqE) : (modLoq id g s).regs = s.regs := rfl
@[simp] theorem modLoq_w1cNow (id : Nat) (g : LoqE → LoqE) : (modLoq id g s).w1cNow = s.w1cNow := rfl
@[simp] theorem modLoq_rwe (id : Nat) (g : LoqE → LoqE) : (modLoq id g s).rwe = s.rwe := rfl
@[simp] theorem modLoq_ftm (id : Nat) (g : LoqE → LoqE) : (modLoq id g s).ftm = s.ftm := rfl
@[simp] theorem modLoq_sched (id : Nat) (g : LoqE → LoqE) : (modLoq id g s).sched = s.sched := rfl
@[simp] theorem modLoq_trail (id : Nat) (g : LoqE → LoqE) : (modLoq id g s).trail = s.trail := rfl
@[simp] theorem modLoq_ports (id : Nat) (g : LoqE → LoqE) : (modLoq id g s).ports = s.ports := rfl
@[simp] theorem modLoq_core (id : Nat) (g : LoqE → LoqE) : (modLoq id g s).core = s.core := rfl
@[simp] theorem modLoq_maps (id : Nat) (g : LoqE → LoqE) : (modLoq id g s).maps = s.maps := rfl
@[simp] theorem modLoq_parts (id : Nat) (g : LoqE → LoqE) : (modLoq id g s).parts = s.parts := rfl
@[simp] theorem modLoq_wab (id : Nat) (g : LoqE → LoqE) : (modLoq id g s).wab = s.wab := rfl
@[simp] theorem modLoq_egr (id : Nat) (g : LoqE → LoqE) : (modLoq id g s).egr = s.egr := rfl
@[simp] theorem modLoq_mq (id : Nat) (g : LoqE → LoqE) : (modLoq id g s).mq = s.mq := rfl
@[simp] theorem modLoq_flt (id : Nat) (g : LoqE → LoqE) : (modLoq id g s).flt = s.flt := rfl
@[simp] theorem modLoq_tel (id : Nat) (g : LoqE → LoqE) : (modLoq id g s).tel = s.tel := rfl
@[simp] theorem modLoq_glr (id : Nat) (g : LoqE → LoqE) : (modLoq id g s).glr = s.glr := rfl
@[simp] theorem modLoq_pwr (id : Nat) (g : LoqE → LoqE) : (modLoq id g s).pwr = s.pwr := rfl
@[simp] theorem modLoq_rst (id : Nat) (g : LoqE → LoqE) : (modLoq id g s).rst = s.rst := rfl
@[simp] theorem modLoq_i3c (id : Nat) (g : LoqE → LoqE) : (modLoq id g s).i3c = s.i3c := rfl
@[simp] theorem modLoq_sec (id : Nat) (g : LoqE → LoqE) : (modLoq id g s).sec = s.sec := rfl
@[simp] theorem modLoq_dbg (id : Nat) (g : LoqE → LoqE) : (modLoq id g s).dbg = s.dbg := rfl
@[simp] theorem modLoq_pins (id : Nat) (g : LoqE → LoqE) : (modLoq id g s).pins = s.pins := rfl
@[simp] theorem modLoq_free (id : Nat) (g : LoqE → LoqE) : (modLoq id g s).free = s.free := rfl
@[simp] theorem modLoq_out (id : Nat) (g : LoqE → LoqE) : (modLoq id g s).out = s.out := rfl
@[simp] theorem modLoq_pending (id : Nat) (g : LoqE → LoqE) : (modLoq id g s).pending = s.pending := rfl

@[simp] theorem loqDone_time (id : Nat) : (loqDone id s).time = s.time := rfl
@[simp] theorem loqDone_tick (id : Nat) : (loqDone id s).tick = s.tick := rfl
@[simp] theorem loqDone_mode (id : Nat) : (loqDone id s).mode = s.mode := rfl
@[simp] theorem loqDone_regs (id : Nat) : (loqDone id s).regs = s.regs := rfl
@[simp] theorem loqDone_w1cNow (id : Nat) : (loqDone id s).w1cNow = s.w1cNow := rfl
@[simp] theorem loqDone_rwe (id : Nat) : (loqDone id s).rwe = s.rwe := rfl
@[simp] theorem loqDone_ftm (id : Nat) : (loqDone id s).ftm = s.ftm := rfl
@[simp] theorem loqDone_sched (id : Nat) : (loqDone id s).sched = s.sched := rfl
@[simp] theorem loqDone_trail (id : Nat) : (loqDone id s).trail = s.trail := rfl
@[simp] theorem loqDone_ports (id : Nat) : (loqDone id s).ports = s.ports := rfl
@[simp] theorem loqDone_core (id : Nat) : (loqDone id s).core = s.core := rfl
@[simp] theorem loqDone_maps (id : Nat) : (loqDone id s).maps = s.maps := rfl
@[simp] theorem loqDone_parts (id : Nat) : (loqDone id s).parts = s.parts := rfl
@[simp] theorem loqDone_wab (id : Nat) : (loqDone id s).wab = s.wab := rfl
@[simp] theorem loqDone_egr (id : Nat) : (loqDone id s).egr = s.egr := rfl
@[simp] theorem loqDone_mq (id : Nat) : (loqDone id s).mq = s.mq := rfl
@[simp] theorem loqDone_flt (id : Nat) : (loqDone id s).flt = s.flt := rfl
@[simp] theorem loqDone_tel (id : Nat) : (loqDone id s).tel = s.tel := rfl
@[simp] theorem loqDone_glr (id : Nat) : (loqDone id s).glr = s.glr := rfl
@[simp] theorem loqDone_pwr (id : Nat) : (loqDone id s).pwr = s.pwr := rfl
@[simp] theorem loqDone_rst (id : Nat) : (loqDone id s).rst = s.rst := rfl
@[simp] theorem loqDone_i3c (id : Nat) : (loqDone id s).i3c = s.i3c := rfl
@[simp] theorem loqDone_sec (id : Nat) : (loqDone id s).sec = s.sec := rfl
@[simp] theorem loqDone_dbg (id : Nat) : (loqDone id s).dbg = s.dbg := rfl
@[simp] theorem loqDone_pins (id : Nat) : (loqDone id s).pins = s.pins := rfl
@[simp] theorem loqDone_free (id : Nat) : (loqDone id s).free = s.free := rfl
@[simp] theorem loqDone_out (id : Nat) : (loqDone id s).out = s.out := rfl
@[simp] theorem loqDone_pending (id : Nat) : (loqDone id s).pending = s.pending := rfl

@[simp] theorem haloPut_time (a b : Nat) (m : HaloMsg) : (haloPut a b m s).time = s.time := rfl
@[simp] theorem haloPut_tick (a b : Nat) (m : HaloMsg) : (haloPut a b m s).tick = s.tick := rfl
@[simp] theorem haloPut_mode (a b : Nat) (m : HaloMsg) : (haloPut a b m s).mode = s.mode := rfl
@[simp] theorem haloPut_regs (a b : Nat) (m : HaloMsg) : (haloPut a b m s).regs = s.regs := rfl
@[simp] theorem haloPut_w1cNow (a b : Nat) (m : HaloMsg) : (haloPut a b m s).w1cNow = s.w1cNow := rfl
@[simp] theorem haloPut_rwe (a b : Nat) (m : HaloMsg) : (haloPut a b m s).rwe = s.rwe := rfl
@[simp] theorem haloPut_ftm (a b : Nat) (m : HaloMsg) : (haloPut a b m s).ftm = s.ftm := rfl
@[simp] theorem haloPut_sched (a b : Nat) (m : HaloMsg) : (haloPut a b m s).sched = s.sched := rfl
@[simp] theorem haloPut_trail (a b : Nat) (m : HaloMsg) : (haloPut a b m s).trail = s.trail := rfl
@[simp] theorem haloPut_ports (a b : Nat) (m : HaloMsg) : (haloPut a b m s).ports = s.ports := rfl
@[simp] theorem haloPut_core (a b : Nat) (m : HaloMsg) : (haloPut a b m s).core = s.core := rfl
@[simp] theorem haloPut_maps (a b : Nat) (m : HaloMsg) : (haloPut a b m s).maps = s.maps := rfl
@[simp] theorem haloPut_parts (a b : Nat) (m : HaloMsg) : (haloPut a b m s).parts = s.parts := rfl
@[simp] theorem haloPut_wab (a b : Nat) (m : HaloMsg) : (haloPut a b m s).wab = s.wab := rfl
@[simp] theorem haloPut_egr (a b : Nat) (m : HaloMsg) : (haloPut a b m s).egr = s.egr := rfl
@[simp] theorem haloPut_mq (a b : Nat) (m : HaloMsg) : (haloPut a b m s).mq = s.mq := rfl
@[simp] theorem haloPut_flt (a b : Nat) (m : HaloMsg) : (haloPut a b m s).flt = s.flt := rfl
@[simp] theorem haloPut_tel (a b : Nat) (m : HaloMsg) : (haloPut a b m s).tel = s.tel := rfl
@[simp] theorem haloPut_glr (a b : Nat) (m : HaloMsg) : (haloPut a b m s).glr = s.glr := rfl
@[simp] theorem haloPut_pwr (a b : Nat) (m : HaloMsg) : (haloPut a b m s).pwr = s.pwr := rfl
@[simp] theorem haloPut_rst (a b : Nat) (m : HaloMsg) : (haloPut a b m s).rst = s.rst := rfl
@[simp] theorem haloPut_i3c (a b : Nat) (m : HaloMsg) : (haloPut a b m s).i3c = s.i3c := rfl
@[simp] theorem haloPut_sec (a b : Nat) (m : HaloMsg) : (haloPut a b m s).sec = s.sec := rfl
@[simp] theorem haloPut_dbg (a b : Nat) (m : HaloMsg) : (haloPut a b m s).dbg = s.dbg := rfl
@[simp] theorem haloPut_pins (a b : Nat) (m : HaloMsg) : (haloPut a b m s).pins = s.pins := rfl
@[simp] theorem haloPut_free (a b : Nat) (m : HaloMsg) : (haloPut a b m s).free = s.free := rfl
@[simp] theorem haloPut_out (a b : Nat) (m : HaloMsg) : (haloPut a b m s).out = s.out := rfl
@[simp] theorem haloPut_pending (a b : Nat) (m : HaloMsg) : (haloPut a b m s).pending = s.pending := rfl

@[simp] theorem haloDrop_time (id : Nat) : (haloDrop id s).time = s.time := rfl
@[simp] theorem haloDrop_tick (id : Nat) : (haloDrop id s).tick = s.tick := rfl
@[simp] theorem haloDrop_mode (id : Nat) : (haloDrop id s).mode = s.mode := rfl
@[simp] theorem haloDrop_regs (id : Nat) : (haloDrop id s).regs = s.regs := rfl
@[simp] theorem haloDrop_w1cNow (id : Nat) : (haloDrop id s).w1cNow = s.w1cNow := rfl
@[simp] theorem haloDrop_rwe (id : Nat) : (haloDrop id s).rwe = s.rwe := rfl
@[simp] theorem haloDrop_ftm (id : Nat) : (haloDrop id s).ftm = s.ftm := rfl
@[simp] theorem haloDrop_sched (id : Nat) : (haloDrop id s).sched = s.sched := rfl
@[simp] theorem haloDrop_trail (id : Nat) : (haloDrop id s).trail = s.trail := rfl
@[simp] theorem haloDrop_ports (id : Nat) : (haloDrop id s).ports = s.ports := rfl
@[simp] theorem haloDrop_core (id : Nat) : (haloDrop id s).core = s.core := rfl
@[simp] theorem haloDrop_maps (id : Nat) : (haloDrop id s).maps = s.maps := rfl
@[simp] theorem haloDrop_parts (id : Nat) : (haloDrop id s).parts = s.parts := rfl
@[simp] theorem haloDrop_wab (id : Nat) : (haloDrop id s).wab = s.wab := rfl
@[simp] theorem haloDrop_egr (id : Nat) : (haloDrop id s).egr = s.egr := rfl
@[simp] theorem haloDrop_mq (id : Nat) : (haloDrop id s).mq = s.mq := rfl
@[simp] theorem haloDrop_flt (id : Nat) : (haloDrop id s).flt = s.flt := rfl
@[simp] theorem haloDrop_tel (id : Nat) : (haloDrop id s).tel = s.tel := rfl
@[simp] theorem haloDrop_glr (id : Nat) : (haloDrop id s).glr = s.glr := rfl
@[simp] theorem haloDrop_pwr (id : Nat) : (haloDrop id s).pwr = s.pwr := rfl
@[simp] theorem haloDrop_rst (id : Nat) : (haloDrop id s).rst = s.rst := rfl
@[simp] theorem haloDrop_i3c (id : Nat) : (haloDrop id s).i3c = s.i3c := rfl
@[simp] theorem haloDrop_sec (id : Nat) : (haloDrop id s).sec = s.sec := rfl
@[simp] theorem haloDrop_dbg (id : Nat) : (haloDrop id s).dbg = s.dbg := rfl
@[simp] theorem haloDrop_pins (id : Nat) : (haloDrop id s).pins = s.pins := rfl
@[simp] theorem haloDrop_free (id : Nat) : (haloDrop id s).free = s.free := rfl
@[simp] theorem haloDrop_out (id : Nat) : (haloDrop id s).out = s.out := rfl
@[simp] theorem haloDrop_pending (id : Nat) : (haloDrop id s).pending = s.pending := rfl

@[simp] theorem modAlc_time (n : Nat) (l : LineId) (g : AlcL → AlcL) : (modAlc n l g s).time = s.time := rfl
@[simp] theorem modAlc_tick (n : Nat) (l : LineId) (g : AlcL → AlcL) : (modAlc n l g s).tick = s.tick := rfl
@[simp] theorem modAlc_mode (n : Nat) (l : LineId) (g : AlcL → AlcL) : (modAlc n l g s).mode = s.mode := rfl
@[simp] theorem modAlc_regs (n : Nat) (l : LineId) (g : AlcL → AlcL) : (modAlc n l g s).regs = s.regs := rfl
@[simp] theorem modAlc_w1cNow (n : Nat) (l : LineId) (g : AlcL → AlcL) : (modAlc n l g s).w1cNow = s.w1cNow := rfl
@[simp] theorem modAlc_rwe (n : Nat) (l : LineId) (g : AlcL → AlcL) : (modAlc n l g s).rwe = s.rwe := rfl
@[simp] theorem modAlc_ftm (n : Nat) (l : LineId) (g : AlcL → AlcL) : (modAlc n l g s).ftm = s.ftm := rfl
@[simp] theorem modAlc_sched (n : Nat) (l : LineId) (g : AlcL → AlcL) : (modAlc n l g s).sched = s.sched := rfl
@[simp] theorem modAlc_trail (n : Nat) (l : LineId) (g : AlcL → AlcL) : (modAlc n l g s).trail = s.trail := rfl
@[simp] theorem modAlc_ports (n : Nat) (l : LineId) (g : AlcL → AlcL) : (modAlc n l g s).ports = s.ports := rfl
@[simp] theorem modAlc_core (n : Nat) (l : LineId) (g : AlcL → AlcL) : (modAlc n l g s).core = s.core := rfl
@[simp] theorem modAlc_maps (n : Nat) (l : LineId) (g : AlcL → AlcL) : (modAlc n l g s).maps = s.maps := rfl
@[simp] theorem modAlc_parts (n : Nat) (l : LineId) (g : AlcL → AlcL) : (modAlc n l g s).parts = s.parts := rfl
@[simp] theorem modAlc_wab (n : Nat) (l : LineId) (g : AlcL → AlcL) : (modAlc n l g s).wab = s.wab := rfl
@[simp] theorem modAlc_egr (n : Nat) (l : LineId) (g : AlcL → AlcL) : (modAlc n l g s).egr = s.egr := rfl
@[simp] theorem modAlc_mq (n : Nat) (l : LineId) (g : AlcL → AlcL) : (modAlc n l g s).mq = s.mq := rfl
@[simp] theorem modAlc_flt (n : Nat) (l : LineId) (g : AlcL → AlcL) : (modAlc n l g s).flt = s.flt := rfl
@[simp] theorem modAlc_tel (n : Nat) (l : LineId) (g : AlcL → AlcL) : (modAlc n l g s).tel = s.tel := rfl
@[simp] theorem modAlc_glr (n : Nat) (l : LineId) (g : AlcL → AlcL) : (modAlc n l g s).glr = s.glr := rfl
@[simp] theorem modAlc_pwr (n : Nat) (l : LineId) (g : AlcL → AlcL) : (modAlc n l g s).pwr = s.pwr := rfl
@[simp] theorem modAlc_rst (n : Nat) (l : LineId) (g : AlcL → AlcL) : (modAlc n l g s).rst = s.rst := rfl
@[simp] theorem modAlc_i3c (n : Nat) (l : LineId) (g : AlcL → AlcL) : (modAlc n l g s).i3c = s.i3c := rfl
@[simp] theorem modAlc_sec (n : Nat) (l : LineId) (g : AlcL → AlcL) : (modAlc n l g s).sec = s.sec := rfl
@[simp] theorem modAlc_dbg (n : Nat) (l : LineId) (g : AlcL → AlcL) : (modAlc n l g s).dbg = s.dbg := rfl
@[simp] theorem modAlc_pins (n : Nat) (l : LineId) (g : AlcL → AlcL) : (modAlc n l g s).pins = s.pins := rfl
@[simp] theorem modAlc_free (n : Nat) (l : LineId) (g : AlcL → AlcL) : (modAlc n l g s).free = s.free := rfl
@[simp] theorem modAlc_out (n : Nat) (l : LineId) (g : AlcL → AlcL) : (modAlc n l g s).out = s.out := rfl
@[simp] theorem modAlc_pending (n : Nat) (l : LineId) (g : AlcL → AlcL) : (modAlc n l g s).pending = s.pending := rfl

@[simp] theorem modWab_time (n id : Nat) (g : WabE → WabE) : (modWab n id g s).time = s.time := rfl
@[simp] theorem modWab_tick (n id : Nat) (g : WabE → WabE) : (modWab n id g s).tick = s.tick := rfl
@[simp] theorem modWab_mode (n id : Nat) (g : WabE → WabE) : (modWab n id g s).mode = s.mode := rfl
@[simp] theorem modWab_regs (n id : Nat) (g : WabE → WabE) : (modWab n id g s).regs = s.regs := rfl
@[simp] theorem modWab_w1cNow (n id : Nat) (g : WabE → WabE) : (modWab n id g s).w1cNow = s.w1cNow := rfl
@[simp] theorem modWab_rwe (n id : Nat) (g : WabE → WabE) : (modWab n id g s).rwe = s.rwe := rfl
@[simp] theorem modWab_ftm (n id : Nat) (g : WabE → WabE) : (modWab n id g s).ftm = s.ftm := rfl
@[simp] theorem modWab_sched (n id : Nat) (g : WabE → WabE) : (modWab n id g s).sched = s.sched := rfl
@[simp] theorem modWab_trail (n id : Nat) (g : WabE → WabE) : (modWab n id g s).trail = s.trail := rfl
@[simp] theorem modWab_ports (n id : Nat) (g : WabE → WabE) : (modWab n id g s).ports = s.ports := rfl
@[simp] theorem modWab_core (n id : Nat) (g : WabE → WabE) : (modWab n id g s).core = s.core := rfl
@[simp] theorem modWab_maps (n id : Nat) (g : WabE → WabE) : (modWab n id g s).maps = s.maps := rfl
@[simp] theorem modWab_parts (n id : Nat) (g : WabE → WabE) : (modWab n id g s).parts = s.parts := rfl
@[simp] theorem modWab_home (n id : Nat) (g : WabE → WabE) : (modWab n id g s).home = s.home := rfl
@[simp] theorem modWab_egr (n id : Nat) (g : WabE → WabE) : (modWab n id g s).egr = s.egr := rfl
@[simp] theorem modWab_mq (n id : Nat) (g : WabE → WabE) : (modWab n id g s).mq = s.mq := rfl
@[simp] theorem modWab_flt (n id : Nat) (g : WabE → WabE) : (modWab n id g s).flt = s.flt := rfl
@[simp] theorem modWab_tel (n id : Nat) (g : WabE → WabE) : (modWab n id g s).tel = s.tel := rfl
@[simp] theorem modWab_glr (n id : Nat) (g : WabE → WabE) : (modWab n id g s).glr = s.glr := rfl
@[simp] theorem modWab_pwr (n id : Nat) (g : WabE → WabE) : (modWab n id g s).pwr = s.pwr := rfl
@[simp] theorem modWab_rst (n id : Nat) (g : WabE → WabE) : (modWab n id g s).rst = s.rst := rfl
@[simp] theorem modWab_i3c (n id : Nat) (g : WabE → WabE) : (modWab n id g s).i3c = s.i3c := rfl
@[simp] theorem modWab_sec (n id : Nat) (g : WabE → WabE) : (modWab n id g s).sec = s.sec := rfl
@[simp] theorem modWab_dbg (n id : Nat) (g : WabE → WabE) : (modWab n id g s).dbg = s.dbg := rfl
@[simp] theorem modWab_pins (n id : Nat) (g : WabE → WabE) : (modWab n id g s).pins = s.pins := rfl
@[simp] theorem modWab_free (n id : Nat) (g : WabE → WabE) : (modWab n id g s).free = s.free := rfl
@[simp] theorem modWab_out (n id : Nat) (g : WabE → WabE) : (modWab n id g s).out = s.out := rfl
@[simp] theorem modWab_pending (n id : Nat) (g : WabE → WabE) : (modWab n id g s).pending = s.pending := rfl

@[simp] theorem setNote_time (i : Nat) (x : LossNote) : (setNote i x s).time = s.time := rfl
@[simp] theorem setNote_tick (i : Nat) (x : LossNote) : (setNote i x s).tick = s.tick := rfl
@[simp] theorem setNote_mode (i : Nat) (x : LossNote) : (setNote i x s).mode = s.mode := rfl
@[simp] theorem setNote_regs (i : Nat) (x : LossNote) : (setNote i x s).regs = s.regs := rfl
@[simp] theorem setNote_w1cNow (i : Nat) (x : LossNote) : (setNote i x s).w1cNow = s.w1cNow := rfl
@[simp] theorem setNote_rwe (i : Nat) (x : LossNote) : (setNote i x s).rwe = s.rwe := rfl
@[simp] theorem setNote_ftm (i : Nat) (x : LossNote) : (setNote i x s).ftm = s.ftm := rfl
@[simp] theorem setNote_sched (i : Nat) (x : LossNote) : (setNote i x s).sched = s.sched := rfl
@[simp] theorem setNote_trail (i : Nat) (x : LossNote) : (setNote i x s).trail = s.trail := rfl
@[simp] theorem setNote_ports (i : Nat) (x : LossNote) : (setNote i x s).ports = s.ports := rfl
@[simp] theorem setNote_core (i : Nat) (x : LossNote) : (setNote i x s).core = s.core := rfl
@[simp] theorem setNote_maps (i : Nat) (x : LossNote) : (setNote i x s).maps = s.maps := rfl
@[simp] theorem setNote_parts (i : Nat) (x : LossNote) : (setNote i x s).parts = s.parts := rfl
@[simp] theorem setNote_home (i : Nat) (x : LossNote) : (setNote i x s).home = s.home := rfl
@[simp] theorem setNote_egr (i : Nat) (x : LossNote) : (setNote i x s).egr = s.egr := rfl
@[simp] theorem setNote_mq (i : Nat) (x : LossNote) : (setNote i x s).mq = s.mq := rfl
@[simp] theorem setNote_flt (i : Nat) (x : LossNote) : (setNote i x s).flt = s.flt := rfl
@[simp] theorem setNote_tel (i : Nat) (x : LossNote) : (setNote i x s).tel = s.tel := rfl
@[simp] theorem setNote_glr (i : Nat) (x : LossNote) : (setNote i x s).glr = s.glr := rfl
@[simp] theorem setNote_pwr (i : Nat) (x : LossNote) : (setNote i x s).pwr = s.pwr := rfl
@[simp] theorem setNote_rst (i : Nat) (x : LossNote) : (setNote i x s).rst = s.rst := rfl
@[simp] theorem setNote_i3c (i : Nat) (x : LossNote) : (setNote i x s).i3c = s.i3c := rfl
@[simp] theorem setNote_sec (i : Nat) (x : LossNote) : (setNote i x s).sec = s.sec := rfl
@[simp] theorem setNote_dbg (i : Nat) (x : LossNote) : (setNote i x s).dbg = s.dbg := rfl
@[simp] theorem setNote_pins (i : Nat) (x : LossNote) : (setNote i x s).pins = s.pins := rfl
@[simp] theorem setNote_free (i : Nat) (x : LossNote) : (setNote i x s).free = s.free := rfl
@[simp] theorem setNote_out (i : Nat) (x : LossNote) : (setNote i x s).out = s.out := rfl
@[simp] theorem setNote_pending (i : Nat) (x : LossNote) : (setNote i x s).pending = s.pending := rfl

@[simp] theorem setShaper_time (k : Nat) (x : Shaper) : (setShaper k x s).time = s.time := rfl
@[simp] theorem setShaper_tick (k : Nat) (x : Shaper) : (setShaper k x s).tick = s.tick := rfl
@[simp] theorem setShaper_mode (k : Nat) (x : Shaper) : (setShaper k x s).mode = s.mode := rfl
@[simp] theorem setShaper_regs (k : Nat) (x : Shaper) : (setShaper k x s).regs = s.regs := rfl
@[simp] theorem setShaper_w1cNow (k : Nat) (x : Shaper) : (setShaper k x s).w1cNow = s.w1cNow := rfl
@[simp] theorem setShaper_rwe (k : Nat) (x : Shaper) : (setShaper k x s).rwe = s.rwe := rfl
@[simp] theorem setShaper_ftm (k : Nat) (x : Shaper) : (setShaper k x s).ftm = s.ftm := rfl
@[simp] theorem setShaper_sched (k : Nat) (x : Shaper) : (setShaper k x s).sched = s.sched := rfl
@[simp] theorem setShaper_trail (k : Nat) (x : Shaper) : (setShaper k x s).trail = s.trail := rfl
@[simp] theorem setShaper_ports (k : Nat) (x : Shaper) : (setShaper k x s).ports = s.ports := rfl
@[simp] theorem setShaper_core (k : Nat) (x : Shaper) : (setShaper k x s).core = s.core := rfl
@[simp] theorem setShaper_maps (k : Nat) (x : Shaper) : (setShaper k x s).maps = s.maps := rfl
@[simp] theorem setShaper_parts (k : Nat) (x : Shaper) : (setShaper k x s).parts = s.parts := rfl
@[simp] theorem setShaper_wab (k : Nat) (x : Shaper) : (setShaper k x s).wab = s.wab := rfl
@[simp] theorem setShaper_home (k : Nat) (x : Shaper) : (setShaper k x s).home = s.home := rfl
@[simp] theorem setShaper_mq (k : Nat) (x : Shaper) : (setShaper k x s).mq = s.mq := rfl
@[simp] theorem setShaper_flt (k : Nat) (x : Shaper) : (setShaper k x s).flt = s.flt := rfl
@[simp] theorem setShaper_tel (k : Nat) (x : Shaper) : (setShaper k x s).tel = s.tel := rfl
@[simp] theorem setShaper_glr (k : Nat) (x : Shaper) : (setShaper k x s).glr = s.glr := rfl
@[simp] theorem setShaper_pwr (k : Nat) (x : Shaper) : (setShaper k x s).pwr = s.pwr := rfl
@[simp] theorem setShaper_rst (k : Nat) (x : Shaper) : (setShaper k x s).rst = s.rst := rfl
@[simp] theorem setShaper_i3c (k : Nat) (x : Shaper) : (setShaper k x s).i3c = s.i3c := rfl
@[simp] theorem setShaper_sec (k : Nat) (x : Shaper) : (setShaper k x s).sec = s.sec := rfl
@[simp] theorem setShaper_dbg (k : Nat) (x : Shaper) : (setShaper k x s).dbg = s.dbg := rfl
@[simp] theorem setShaper_pins (k : Nat) (x : Shaper) : (setShaper k x s).pins = s.pins := rfl
@[simp] theorem setShaper_free (k : Nat) (x : Shaper) : (setShaper k x s).free = s.free := rfl
@[simp] theorem setShaper_out (k : Nat) (x : Shaper) : (setShaper k x s).out = s.out := rfl
@[simp] theorem setShaper_pending (k : Nat) (x : Shaper) : (setShaper k x s).pending = s.pending := rfl

@[simp] theorem setDeficit_time (k v : Nat) : (setDeficit k v s).time = s.time := rfl
@[simp] theorem setDeficit_tick (k v : Nat) : (setDeficit k v s).tick = s.tick := rfl
@[simp] theorem setDeficit_mode (k v : Nat) : (setDeficit k v s).mode = s.mode := rfl
@[simp] theorem setDeficit_regs (k v : Nat) : (setDeficit k v s).regs = s.regs := rfl
@[simp] theorem setDeficit_w1cNow (k v : Nat) : (setDeficit k v s).w1cNow = s.w1cNow := rfl
@[simp] theorem setDeficit_rwe (k v : Nat) : (setDeficit k v s).rwe = s.rwe := rfl
@[simp] theorem setDeficit_ftm (k v : Nat) : (setDeficit k v s).ftm = s.ftm := rfl
@[simp] theorem setDeficit_sched (k v : Nat) : (setDeficit k v s).sched = s.sched := rfl
@[simp] theorem setDeficit_trail (k v : Nat) : (setDeficit k v s).trail = s.trail := rfl
@[simp] theorem setDeficit_ports (k v : Nat) : (setDeficit k v s).ports = s.ports := rfl
@[simp] theorem setDeficit_core (k v : Nat) : (setDeficit k v s).core = s.core := rfl
@[simp] theorem setDeficit_maps (k v : Nat) : (setDeficit k v s).maps = s.maps := rfl
@[simp] theorem setDeficit_parts (k v : Nat) : (setDeficit k v s).parts = s.parts := rfl
@[simp] theorem setDeficit_wab (k v : Nat) : (setDeficit k v s).wab = s.wab := rfl
@[simp] theorem setDeficit_home (k v : Nat) : (setDeficit k v s).home = s.home := rfl
@[simp] theorem setDeficit_mq (k v : Nat) : (setDeficit k v s).mq = s.mq := rfl
@[simp] theorem setDeficit_flt (k v : Nat) : (setDeficit k v s).flt = s.flt := rfl
@[simp] theorem setDeficit_tel (k v : Nat) : (setDeficit k v s).tel = s.tel := rfl
@[simp] theorem setDeficit_glr (k v : Nat) : (setDeficit k v s).glr = s.glr := rfl
@[simp] theorem setDeficit_pwr (k v : Nat) : (setDeficit k v s).pwr = s.pwr := rfl
@[simp] theorem setDeficit_rst (k v : Nat) : (setDeficit k v s).rst = s.rst := rfl
@[simp] theorem setDeficit_i3c (k v : Nat) : (setDeficit k v s).i3c = s.i3c := rfl
@[simp] theorem setDeficit_sec (k v : Nat) : (setDeficit k v s).sec = s.sec := rfl
@[simp] theorem setDeficit_dbg (k v : Nat) : (setDeficit k v s).dbg = s.dbg := rfl
@[simp] theorem setDeficit_pins (k v : Nat) : (setDeficit k v s).pins = s.pins := rfl
@[simp] theorem setDeficit_free (k v : Nat) : (setDeficit k v s).free = s.free := rfl
@[simp] theorem setDeficit_out (k v : Nat) : (setDeficit k v s).out = s.out := rfl
@[simp] theorem setDeficit_pending (k v : Nat) : (setDeficit k v s).pending = s.pending := rfl

@[simp] theorem setVisit_time (lead : Nat) (q : Option Nat) : (setVisit lead q s).time = s.time := rfl
@[simp] theorem setVisit_tick (lead : Nat) (q : Option Nat) : (setVisit lead q s).tick = s.tick := rfl
@[simp] theorem setVisit_mode (lead : Nat) (q : Option Nat) : (setVisit lead q s).mode = s.mode := rfl
@[simp] theorem setVisit_regs (lead : Nat) (q : Option Nat) : (setVisit lead q s).regs = s.regs := rfl
@[simp] theorem setVisit_w1cNow (lead : Nat) (q : Option Nat) : (setVisit lead q s).w1cNow = s.w1cNow := rfl
@[simp] theorem setVisit_rwe (lead : Nat) (q : Option Nat) : (setVisit lead q s).rwe = s.rwe := rfl
@[simp] theorem setVisit_ftm (lead : Nat) (q : Option Nat) : (setVisit lead q s).ftm = s.ftm := rfl
@[simp] theorem setVisit_sched (lead : Nat) (q : Option Nat) : (setVisit lead q s).sched = s.sched := rfl
@[simp] theorem setVisit_trail (lead : Nat) (q : Option Nat) : (setVisit lead q s).trail = s.trail := rfl
@[simp] theorem setVisit_ports (lead : Nat) (q : Option Nat) : (setVisit lead q s).ports = s.ports := rfl
@[simp] theorem setVisit_core (lead : Nat) (q : Option Nat) : (setVisit lead q s).core = s.core := rfl
@[simp] theorem setVisit_maps (lead : Nat) (q : Option Nat) : (setVisit lead q s).maps = s.maps := rfl
@[simp] theorem setVisit_parts (lead : Nat) (q : Option Nat) : (setVisit lead q s).parts = s.parts := rfl
@[simp] theorem setVisit_wab (lead : Nat) (q : Option Nat) : (setVisit lead q s).wab = s.wab := rfl
@[simp] theorem setVisit_home (lead : Nat) (q : Option Nat) : (setVisit lead q s).home = s.home := rfl
@[simp] theorem setVisit_mq (lead : Nat) (q : Option Nat) : (setVisit lead q s).mq = s.mq := rfl
@[simp] theorem setVisit_flt (lead : Nat) (q : Option Nat) : (setVisit lead q s).flt = s.flt := rfl
@[simp] theorem setVisit_tel (lead : Nat) (q : Option Nat) : (setVisit lead q s).tel = s.tel := rfl
@[simp] theorem setVisit_glr (lead : Nat) (q : Option Nat) : (setVisit lead q s).glr = s.glr := rfl
@[simp] theorem setVisit_pwr (lead : Nat) (q : Option Nat) : (setVisit lead q s).pwr = s.pwr := rfl
@[simp] theorem setVisit_rst (lead : Nat) (q : Option Nat) : (setVisit lead q s).rst = s.rst := rfl
@[simp] theorem setVisit_i3c (lead : Nat) (q : Option Nat) : (setVisit lead q s).i3c = s.i3c := rfl
@[simp] theorem setVisit_sec (lead : Nat) (q : Option Nat) : (setVisit lead q s).sec = s.sec := rfl
@[simp] theorem setVisit_dbg (lead : Nat) (q : Option Nat) : (setVisit lead q s).dbg = s.dbg := rfl
@[simp] theorem setVisit_pins (lead : Nat) (q : Option Nat) : (setVisit lead q s).pins = s.pins := rfl
@[simp] theorem setVisit_free (lead : Nat) (q : Option Nat) : (setVisit lead q s).free = s.free := rfl
@[simp] theorem setVisit_out (lead : Nat) (q : Option Nat) : (setVisit lead q s).out = s.out := rfl
@[simp] theorem setVisit_pending (lead : Nat) (q : Option Nat) : (setVisit lead q s).pending = s.pending := rfl

@[simp] theorem setCtr_time (k v : Nat) : (setCtr k v s).time = s.time := rfl
@[simp] theorem setCtr_tick (k v : Nat) : (setCtr k v s).tick = s.tick := rfl
@[simp] theorem setCtr_mode (k v : Nat) : (setCtr k v s).mode = s.mode := rfl
@[simp] theorem setCtr_regs (k v : Nat) : (setCtr k v s).regs = s.regs := rfl
@[simp] theorem setCtr_w1cNow (k v : Nat) : (setCtr k v s).w1cNow = s.w1cNow := rfl
@[simp] theorem setCtr_rwe (k v : Nat) : (setCtr k v s).rwe = s.rwe := rfl
@[simp] theorem setCtr_ftm (k v : Nat) : (setCtr k v s).ftm = s.ftm := rfl
@[simp] theorem setCtr_sched (k v : Nat) : (setCtr k v s).sched = s.sched := rfl
@[simp] theorem setCtr_trail (k v : Nat) : (setCtr k v s).trail = s.trail := rfl
@[simp] theorem setCtr_ports (k v : Nat) : (setCtr k v s).ports = s.ports := rfl
@[simp] theorem setCtr_core (k v : Nat) : (setCtr k v s).core = s.core := rfl
@[simp] theorem setCtr_maps (k v : Nat) : (setCtr k v s).maps = s.maps := rfl
@[simp] theorem setCtr_parts (k v : Nat) : (setCtr k v s).parts = s.parts := rfl
@[simp] theorem setCtr_wab (k v : Nat) : (setCtr k v s).wab = s.wab := rfl
@[simp] theorem setCtr_home (k v : Nat) : (setCtr k v s).home = s.home := rfl
@[simp] theorem setCtr_egr (k v : Nat) : (setCtr k v s).egr = s.egr := rfl
@[simp] theorem setCtr_mq (k v : Nat) : (setCtr k v s).mq = s.mq := rfl
@[simp] theorem setCtr_flt (k v : Nat) : (setCtr k v s).flt = s.flt := rfl
@[simp] theorem setCtr_glr (k v : Nat) : (setCtr k v s).glr = s.glr := rfl
@[simp] theorem setCtr_pwr (k v : Nat) : (setCtr k v s).pwr = s.pwr := rfl
@[simp] theorem setCtr_rst (k v : Nat) : (setCtr k v s).rst = s.rst := rfl
@[simp] theorem setCtr_i3c (k v : Nat) : (setCtr k v s).i3c = s.i3c := rfl
@[simp] theorem setCtr_sec (k v : Nat) : (setCtr k v s).sec = s.sec := rfl
@[simp] theorem setCtr_dbg (k v : Nat) : (setCtr k v s).dbg = s.dbg := rfl
@[simp] theorem setCtr_pins (k v : Nat) : (setCtr k v s).pins = s.pins := rfl
@[simp] theorem setCtr_free (k v : Nat) : (setCtr k v s).free = s.free := rfl
@[simp] theorem setCtr_out (k v : Nat) : (setCtr k v s).out = s.out := rfl
@[simp] theorem setCtr_pending (k v : Nat) : (setCtr k v s).pending = s.pending := rfl

@[simp] theorem setCore_time (c : Nat) (x : Core1) : (setCore c x s).time = s.time := rfl
@[simp] theorem setCore_tick (c : Nat) (x : Core1) : (setCore c x s).tick = s.tick := rfl
@[simp] theorem setCore_mode (c : Nat) (x : Core1) : (setCore c x s).mode = s.mode := rfl
@[simp] theorem setCore_regs (c : Nat) (x : Core1) : (setCore c x s).regs = s.regs := rfl
@[simp] theorem setCore_w1cNow (c : Nat) (x : Core1) : (setCore c x s).w1cNow = s.w1cNow := rfl
@[simp] theorem setCore_rwe (c : Nat) (x : Core1) : (setCore c x s).rwe = s.rwe := rfl
@[simp] theorem setCore_ftm (c : Nat) (x : Core1) : (setCore c x s).ftm = s.ftm := rfl
@[simp] theorem setCore_sched (c : Nat) (x : Core1) : (setCore c x s).sched = s.sched := rfl
@[simp] theorem setCore_trail (c : Nat) (x : Core1) : (setCore c x s).trail = s.trail := rfl
@[simp] theorem setCore_ports (c : Nat) (x : Core1) : (setCore c x s).ports = s.ports := rfl
@[simp] theorem setCore_core (c : Nat) (x : Core1) : (setCore c x s).core = s.core := rfl
@[simp] theorem setCore_maps (c : Nat) (x : Core1) : (setCore c x s).maps = s.maps := rfl
@[simp] theorem setCore_parts (c : Nat) (x : Core1) : (setCore c x s).parts = s.parts := rfl
@[simp] theorem setCore_wab (c : Nat) (x : Core1) : (setCore c x s).wab = s.wab := rfl
@[simp] theorem setCore_home (c : Nat) (x : Core1) : (setCore c x s).home = s.home := rfl
@[simp] theorem setCore_egr (c : Nat) (x : Core1) : (setCore c x s).egr = s.egr := rfl
@[simp] theorem setCore_mq (c : Nat) (x : Core1) : (setCore c x s).mq = s.mq := rfl
@[simp] theorem setCore_tel (c : Nat) (x : Core1) : (setCore c x s).tel = s.tel := rfl
@[simp] theorem setCore_glr (c : Nat) (x : Core1) : (setCore c x s).glr = s.glr := rfl
@[simp] theorem setCore_pwr (c : Nat) (x : Core1) : (setCore c x s).pwr = s.pwr := rfl
@[simp] theorem setCore_rst (c : Nat) (x : Core1) : (setCore c x s).rst = s.rst := rfl
@[simp] theorem setCore_i3c (c : Nat) (x : Core1) : (setCore c x s).i3c = s.i3c := rfl
@[simp] theorem setCore_sec (c : Nat) (x : Core1) : (setCore c x s).sec = s.sec := rfl
@[simp] theorem setCore_dbg (c : Nat) (x : Core1) : (setCore c x s).dbg = s.dbg := rfl
@[simp] theorem setCore_pins (c : Nat) (x : Core1) : (setCore c x s).pins = s.pins := rfl
@[simp] theorem setCore_free (c : Nat) (x : Core1) : (setCore c x s).free = s.free := rfl
@[simp] theorem setCore_out (c : Nat) (x : Core1) : (setCore c x s).out = s.out := rfl
@[simp] theorem setCore_pending (c : Nat) (x : Core1) : (setCore c x s).pending = s.pending := rfl

@[simp] theorem setSpdm_time (ep v : Nat) : (setSpdm ep v s).time = s.time := rfl
@[simp] theorem setSpdm_tick (ep v : Nat) : (setSpdm ep v s).tick = s.tick := rfl
@[simp] theorem setSpdm_mode (ep v : Nat) : (setSpdm ep v s).mode = s.mode := rfl
@[simp] theorem setSpdm_regs (ep v : Nat) : (setSpdm ep v s).regs = s.regs := rfl
@[simp] theorem setSpdm_w1cNow (ep v : Nat) : (setSpdm ep v s).w1cNow = s.w1cNow := rfl
@[simp] theorem setSpdm_rwe (ep v : Nat) : (setSpdm ep v s).rwe = s.rwe := rfl
@[simp] theorem setSpdm_ftm (ep v : Nat) : (setSpdm ep v s).ftm = s.ftm := rfl
@[simp] theorem setSpdm_sched (ep v : Nat) : (setSpdm ep v s).sched = s.sched := rfl
@[simp] theorem setSpdm_trail (ep v : Nat) : (setSpdm ep v s).trail = s.trail := rfl
@[simp] theorem setSpdm_ports (ep v : Nat) : (setSpdm ep v s).ports = s.ports := rfl
@[simp] theorem setSpdm_core (ep v : Nat) : (setSpdm ep v s).core = s.core := rfl
@[simp] theorem setSpdm_maps (ep v : Nat) : (setSpdm ep v s).maps = s.maps := rfl
@[simp] theorem setSpdm_parts (ep v : Nat) : (setSpdm ep v s).parts = s.parts := rfl
@[simp] theorem setSpdm_wab (ep v : Nat) : (setSpdm ep v s).wab = s.wab := rfl
@[simp] theorem setSpdm_home (ep v : Nat) : (setSpdm ep v s).home = s.home := rfl
@[simp] theorem setSpdm_egr (ep v : Nat) : (setSpdm ep v s).egr = s.egr := rfl
@[simp] theorem setSpdm_mq (ep v : Nat) : (setSpdm ep v s).mq = s.mq := rfl
@[simp] theorem setSpdm_flt (ep v : Nat) : (setSpdm ep v s).flt = s.flt := rfl
@[simp] theorem setSpdm_tel (ep v : Nat) : (setSpdm ep v s).tel = s.tel := rfl
@[simp] theorem setSpdm_glr (ep v : Nat) : (setSpdm ep v s).glr = s.glr := rfl
@[simp] theorem setSpdm_pwr (ep v : Nat) : (setSpdm ep v s).pwr = s.pwr := rfl
@[simp] theorem setSpdm_rst (ep v : Nat) : (setSpdm ep v s).rst = s.rst := rfl
@[simp] theorem setSpdm_i3c (ep v : Nat) : (setSpdm ep v s).i3c = s.i3c := rfl
@[simp] theorem setSpdm_dbg (ep v : Nat) : (setSpdm ep v s).dbg = s.dbg := rfl
@[simp] theorem setSpdm_pins (ep v : Nat) : (setSpdm ep v s).pins = s.pins := rfl
@[simp] theorem setSpdm_free (ep v : Nat) : (setSpdm ep v s).free = s.free := rfl
@[simp] theorem setSpdm_out (ep v : Nat) : (setSpdm ep v s).out = s.out := rfl
@[simp] theorem setSpdm_pending (ep v : Nat) : (setSpdm ep v s).pending = s.pending := rfl

@[simp] theorem noteAgain_time (pg : Page) (f : Fld) : (noteAgain pg f s).time = s.time := rfl
@[simp] theorem noteAgain_tick (pg : Page) (f : Fld) : (noteAgain pg f s).tick = s.tick := rfl
@[simp] theorem noteAgain_mode (pg : Page) (f : Fld) : (noteAgain pg f s).mode = s.mode := rfl
@[simp] theorem noteAgain_regs (pg : Page) (f : Fld) : (noteAgain pg f s).regs = s.regs := rfl
@[simp] theorem noteAgain_rwe (pg : Page) (f : Fld) : (noteAgain pg f s).rwe = s.rwe := rfl
@[simp] theorem noteAgain_ftm (pg : Page) (f : Fld) : (noteAgain pg f s).ftm = s.ftm := rfl
@[simp] theorem noteAgain_sched (pg : Page) (f : Fld) : (noteAgain pg f s).sched = s.sched := rfl
@[simp] theorem noteAgain_trail (pg : Page) (f : Fld) : (noteAgain pg f s).trail = s.trail := rfl
@[simp] theorem noteAgain_ports (pg : Page) (f : Fld) : (noteAgain pg f s).ports = s.ports := rfl
@[simp] theorem noteAgain_core (pg : Page) (f : Fld) : (noteAgain pg f s).core = s.core := rfl
@[simp] theorem noteAgain_maps (pg : Page) (f : Fld) : (noteAgain pg f s).maps = s.maps := rfl
@[simp] theorem noteAgain_parts (pg : Page) (f : Fld) : (noteAgain pg f s).parts = s.parts := rfl
@[simp] theorem noteAgain_wab (pg : Page) (f : Fld) : (noteAgain pg f s).wab = s.wab := rfl
@[simp] theorem noteAgain_home (pg : Page) (f : Fld) : (noteAgain pg f s).home = s.home := rfl
@[simp] theorem noteAgain_egr (pg : Page) (f : Fld) : (noteAgain pg f s).egr = s.egr := rfl
@[simp] theorem noteAgain_mq (pg : Page) (f : Fld) : (noteAgain pg f s).mq = s.mq := rfl
@[simp] theorem noteAgain_flt (pg : Page) (f : Fld) : (noteAgain pg f s).flt = s.flt := rfl
@[simp] theorem noteAgain_tel (pg : Page) (f : Fld) : (noteAgain pg f s).tel = s.tel := rfl
@[simp] theorem noteAgain_glr (pg : Page) (f : Fld) : (noteAgain pg f s).glr = s.glr := rfl
@[simp] theorem noteAgain_pwr (pg : Page) (f : Fld) : (noteAgain pg f s).pwr = s.pwr := rfl
@[simp] theorem noteAgain_rst (pg : Page) (f : Fld) : (noteAgain pg f s).rst = s.rst := rfl
@[simp] theorem noteAgain_i3c (pg : Page) (f : Fld) : (noteAgain pg f s).i3c = s.i3c := rfl
@[simp] theorem noteAgain_sec (pg : Page) (f : Fld) : (noteAgain pg f s).sec = s.sec := rfl
@[simp] theorem noteAgain_dbg (pg : Page) (f : Fld) : (noteAgain pg f s).dbg = s.dbg := rfl
@[simp] theorem noteAgain_pins (pg : Page) (f : Fld) : (noteAgain pg f s).pins = s.pins := rfl
@[simp] theorem noteAgain_free (pg : Page) (f : Fld) : (noteAgain pg f s).free = s.free := rfl
@[simp] theorem noteAgain_out (pg : Page) (f : Fld) : (noteAgain pg f s).out = s.out := rfl
@[simp] theorem noteAgain_pending (pg : Page) (f : Fld) : (noteAgain pg f s).pending = s.pending := rfl

@[simp] theorem schedDrop_time (i : Nat) : (schedDrop i s).time = s.time := rfl
@[simp] theorem schedDrop_tick (i : Nat) : (schedDrop i s).tick = s.tick := rfl
@[simp] theorem schedDrop_mode (i : Nat) : (schedDrop i s).mode = s.mode := rfl
@[simp] theorem schedDrop_regs (i : Nat) : (schedDrop i s).regs = s.regs := rfl
@[simp] theorem schedDrop_w1cNow (i : Nat) : (schedDrop i s).w1cNow = s.w1cNow := rfl
@[simp] theorem schedDrop_rwe (i : Nat) : (schedDrop i s).rwe = s.rwe := rfl
@[simp] theorem schedDrop_ftm (i : Nat) : (schedDrop i s).ftm = s.ftm := rfl
@[simp] theorem schedDrop_trail (i : Nat) : (schedDrop i s).trail = s.trail := rfl
@[simp] theorem schedDrop_ports (i : Nat) : (schedDrop i s).ports = s.ports := rfl
@[simp] theorem schedDrop_core (i : Nat) : (schedDrop i s).core = s.core := rfl
@[simp] theorem schedDrop_maps (i : Nat) : (schedDrop i s).maps = s.maps := rfl
@[simp] theorem schedDrop_parts (i : Nat) : (schedDrop i s).parts = s.parts := rfl
@[simp] theorem schedDrop_wab (i : Nat) : (schedDrop i s).wab = s.wab := rfl
@[simp] theorem schedDrop_home (i : Nat) : (schedDrop i s).home = s.home := rfl
@[simp] theorem schedDrop_egr (i : Nat) : (schedDrop i s).egr = s.egr := rfl
@[simp] theorem schedDrop_mq (i : Nat) : (schedDrop i s).mq = s.mq := rfl
@[simp] theorem schedDrop_flt (i : Nat) : (schedDrop i s).flt = s.flt := rfl
@[simp] theorem schedDrop_tel (i : Nat) : (schedDrop i s).tel = s.tel := rfl
@[simp] theorem schedDrop_glr (i : Nat) : (schedDrop i s).glr = s.glr := rfl
@[simp] theorem schedDrop_pwr (i : Nat) : (schedDrop i s).pwr = s.pwr := rfl
@[simp] theorem schedDrop_rst (i : Nat) : (schedDrop i s).rst = s.rst := rfl
@[simp] theorem schedDrop_i3c (i : Nat) : (schedDrop i s).i3c = s.i3c := rfl
@[simp] theorem schedDrop_sec (i : Nat) : (schedDrop i s).sec = s.sec := rfl
@[simp] theorem schedDrop_dbg (i : Nat) : (schedDrop i s).dbg = s.dbg := rfl
@[simp] theorem schedDrop_pins (i : Nat) : (schedDrop i s).pins = s.pins := rfl
@[simp] theorem schedDrop_free (i : Nat) : (schedDrop i s).free = s.free := rfl
@[simp] theorem schedDrop_out (i : Nat) : (schedDrop i s).out = s.out := rfl
@[simp] theorem schedDrop_pending (i : Nat) : (schedDrop i s).pending = s.pending := rfl

@[simp] theorem waitReq_time (why : IoWhy) (fence : Bool) (h : Held) : (waitReq why fence h s).time = s.time := rfl
@[simp] theorem waitReq_tick (why : IoWhy) (fence : Bool) (h : Held) : (waitReq why fence h s).tick = s.tick := rfl
@[simp] theorem waitReq_mode (why : IoWhy) (fence : Bool) (h : Held) : (waitReq why fence h s).mode = s.mode := rfl
@[simp] theorem waitReq_regs (why : IoWhy) (fence : Bool) (h : Held) : (waitReq why fence h s).regs = s.regs := rfl
@[simp] theorem waitReq_w1cNow (why : IoWhy) (fence : Bool) (h : Held) : (waitReq why fence h s).w1cNow = s.w1cNow := rfl
@[simp] theorem waitReq_rwe (why : IoWhy) (fence : Bool) (h : Held) : (waitReq why fence h s).rwe = s.rwe := rfl
@[simp] theorem waitReq_ftm (why : IoWhy) (fence : Bool) (h : Held) : (waitReq why fence h s).ftm = s.ftm := rfl
@[simp] theorem waitReq_sched (why : IoWhy) (fence : Bool) (h : Held) : (waitReq why fence h s).sched = s.sched := rfl
@[simp] theorem waitReq_trail (why : IoWhy) (fence : Bool) (h : Held) : (waitReq why fence h s).trail = s.trail := rfl
@[simp] theorem waitReq_ports (why : IoWhy) (fence : Bool) (h : Held) : (waitReq why fence h s).ports = s.ports := rfl
@[simp] theorem waitReq_core (why : IoWhy) (fence : Bool) (h : Held) : (waitReq why fence h s).core = s.core := rfl
@[simp] theorem waitReq_parts (why : IoWhy) (fence : Bool) (h : Held) : (waitReq why fence h s).parts = s.parts := rfl
@[simp] theorem waitReq_wab (why : IoWhy) (fence : Bool) (h : Held) : (waitReq why fence h s).wab = s.wab := rfl
@[simp] theorem waitReq_home (why : IoWhy) (fence : Bool) (h : Held) : (waitReq why fence h s).home = s.home := rfl
@[simp] theorem waitReq_egr (why : IoWhy) (fence : Bool) (h : Held) : (waitReq why fence h s).egr = s.egr := rfl
@[simp] theorem waitReq_mq (why : IoWhy) (fence : Bool) (h : Held) : (waitReq why fence h s).mq = s.mq := rfl
@[simp] theorem waitReq_flt (why : IoWhy) (fence : Bool) (h : Held) : (waitReq why fence h s).flt = s.flt := rfl
@[simp] theorem waitReq_tel (why : IoWhy) (fence : Bool) (h : Held) : (waitReq why fence h s).tel = s.tel := rfl
@[simp] theorem waitReq_glr (why : IoWhy) (fence : Bool) (h : Held) : (waitReq why fence h s).glr = s.glr := rfl
@[simp] theorem waitReq_pwr (why : IoWhy) (fence : Bool) (h : Held) : (waitReq why fence h s).pwr = s.pwr := rfl
@[simp] theorem waitReq_rst (why : IoWhy) (fence : Bool) (h : Held) : (waitReq why fence h s).rst = s.rst := rfl
@[simp] theorem waitReq_i3c (why : IoWhy) (fence : Bool) (h : Held) : (waitReq why fence h s).i3c = s.i3c := rfl
@[simp] theorem waitReq_sec (why : IoWhy) (fence : Bool) (h : Held) : (waitReq why fence h s).sec = s.sec := rfl
@[simp] theorem waitReq_dbg (why : IoWhy) (fence : Bool) (h : Held) : (waitReq why fence h s).dbg = s.dbg := rfl
@[simp] theorem waitReq_pins (why : IoWhy) (fence : Bool) (h : Held) : (waitReq why fence h s).pins = s.pins := rfl
@[simp] theorem waitReq_free (why : IoWhy) (fence : Bool) (h : Held) : (waitReq why fence h s).free = s.free := rfl
@[simp] theorem waitReq_out (why : IoWhy) (fence : Bool) (h : Held) : (waitReq why fence h s).out = s.out := rfl
@[simp] theorem waitReq_pending (why : IoWhy) (fence : Bool) (h : Held) : (waitReq why fence h s).pending = s.pending := rfl

@[simp] theorem uncache_time (i : Nat) : (uncache i s).time = s.time := rfl
@[simp] theorem uncache_tick (i : Nat) : (uncache i s).tick = s.tick := rfl
@[simp] theorem uncache_mode (i : Nat) : (uncache i s).mode = s.mode := rfl
@[simp] theorem uncache_regs (i : Nat) : (uncache i s).regs = s.regs := rfl
@[simp] theorem uncache_w1cNow (i : Nat) : (uncache i s).w1cNow = s.w1cNow := rfl
@[simp] theorem uncache_rwe (i : Nat) : (uncache i s).rwe = s.rwe := rfl
@[simp] theorem uncache_ftm (i : Nat) : (uncache i s).ftm = s.ftm := rfl
@[simp] theorem uncache_sched (i : Nat) : (uncache i s).sched = s.sched := rfl
@[simp] theorem uncache_trail (i : Nat) : (uncache i s).trail = s.trail := rfl
@[simp] theorem uncache_ports (i : Nat) : (uncache i s).ports = s.ports := rfl
@[simp] theorem uncache_core (i : Nat) : (uncache i s).core = s.core := rfl
@[simp] theorem uncache_parts (i : Nat) : (uncache i s).parts = s.parts := rfl
@[simp] theorem uncache_wab (i : Nat) : (uncache i s).wab = s.wab := rfl
@[simp] theorem uncache_home (i : Nat) : (uncache i s).home = s.home := rfl
@[simp] theorem uncache_egr (i : Nat) : (uncache i s).egr = s.egr := rfl
@[simp] theorem uncache_mq (i : Nat) : (uncache i s).mq = s.mq := rfl
@[simp] theorem uncache_flt (i : Nat) : (uncache i s).flt = s.flt := rfl
@[simp] theorem uncache_tel (i : Nat) : (uncache i s).tel = s.tel := rfl
@[simp] theorem uncache_glr (i : Nat) : (uncache i s).glr = s.glr := rfl
@[simp] theorem uncache_pwr (i : Nat) : (uncache i s).pwr = s.pwr := rfl
@[simp] theorem uncache_rst (i : Nat) : (uncache i s).rst = s.rst := rfl
@[simp] theorem uncache_i3c (i : Nat) : (uncache i s).i3c = s.i3c := rfl
@[simp] theorem uncache_sec (i : Nat) : (uncache i s).sec = s.sec := rfl
@[simp] theorem uncache_dbg (i : Nat) : (uncache i s).dbg = s.dbg := rfl
@[simp] theorem uncache_pins (i : Nat) : (uncache i s).pins = s.pins := rfl
@[simp] theorem uncache_free (i : Nat) : (uncache i s).free = s.free := rfl
@[simp] theorem uncache_out (i : Nat) : (uncache i s).out = s.out := rfl
@[simp] theorem uncache_pending (i : Nat) : (uncache i s).pending = s.pending := rfl

@[simp] theorem bindPend_time (p : BPend) : (bindPend p s).time = s.time := rfl
@[simp] theorem bindPend_tick (p : BPend) : (bindPend p s).tick = s.tick := rfl
@[simp] theorem bindPend_mode (p : BPend) : (bindPend p s).mode = s.mode := rfl
@[simp] theorem bindPend_regs (p : BPend) : (bindPend p s).regs = s.regs := rfl
@[simp] theorem bindPend_w1cNow (p : BPend) : (bindPend p s).w1cNow = s.w1cNow := rfl
@[simp] theorem bindPend_rwe (p : BPend) : (bindPend p s).rwe = s.rwe := rfl
@[simp] theorem bindPend_ftm (p : BPend) : (bindPend p s).ftm = s.ftm := rfl
@[simp] theorem bindPend_sched (p : BPend) : (bindPend p s).sched = s.sched := rfl
@[simp] theorem bindPend_trail (p : BPend) : (bindPend p s).trail = s.trail := rfl
@[simp] theorem bindPend_ports (p : BPend) : (bindPend p s).ports = s.ports := rfl
@[simp] theorem bindPend_core (p : BPend) : (bindPend p s).core = s.core := rfl
@[simp] theorem bindPend_parts (p : BPend) : (bindPend p s).parts = s.parts := rfl
@[simp] theorem bindPend_wab (p : BPend) : (bindPend p s).wab = s.wab := rfl
@[simp] theorem bindPend_home (p : BPend) : (bindPend p s).home = s.home := rfl
@[simp] theorem bindPend_egr (p : BPend) : (bindPend p s).egr = s.egr := rfl
@[simp] theorem bindPend_mq (p : BPend) : (bindPend p s).mq = s.mq := rfl
@[simp] theorem bindPend_flt (p : BPend) : (bindPend p s).flt = s.flt := rfl
@[simp] theorem bindPend_tel (p : BPend) : (bindPend p s).tel = s.tel := rfl
@[simp] theorem bindPend_glr (p : BPend) : (bindPend p s).glr = s.glr := rfl
@[simp] theorem bindPend_pwr (p : BPend) : (bindPend p s).pwr = s.pwr := rfl
@[simp] theorem bindPend_rst (p : BPend) : (bindPend p s).rst = s.rst := rfl
@[simp] theorem bindPend_i3c (p : BPend) : (bindPend p s).i3c = s.i3c := rfl
@[simp] theorem bindPend_sec (p : BPend) : (bindPend p s).sec = s.sec := rfl
@[simp] theorem bindPend_dbg (p : BPend) : (bindPend p s).dbg = s.dbg := rfl
@[simp] theorem bindPend_pins (p : BPend) : (bindPend p s).pins = s.pins := rfl
@[simp] theorem bindPend_free (p : BPend) : (bindPend p s).free = s.free := rfl
@[simp] theorem bindPend_out (p : BPend) : (bindPend p s).out = s.out := rfl
@[simp] theorem bindPend_pending (p : BPend) : (bindPend p s).pending = s.pending := rfl

@[simp] theorem latchEntry_time (n i : Nat) : (latchEntry n i s).time = s.time := rfl
@[simp] theorem latchEntry_tick (n i : Nat) : (latchEntry n i s).tick = s.tick := rfl
@[simp] theorem latchEntry_mode (n i : Nat) : (latchEntry n i s).mode = s.mode := rfl
@[simp] theorem latchEntry_regs (n i : Nat) : (latchEntry n i s).regs = s.regs := rfl
@[simp] theorem latchEntry_w1cNow (n i : Nat) : (latchEntry n i s).w1cNow = s.w1cNow := rfl
@[simp] theorem latchEntry_rwe (n i : Nat) : (latchEntry n i s).rwe = s.rwe := rfl
@[simp] theorem latchEntry_ftm (n i : Nat) : (latchEntry n i s).ftm = s.ftm := rfl
@[simp] theorem latchEntry_sched (n i : Nat) : (latchEntry n i s).sched = s.sched := rfl
@[simp] theorem latchEntry_trail (n i : Nat) : (latchEntry n i s).trail = s.trail := rfl
@[simp] theorem latchEntry_ports (n i : Nat) : (latchEntry n i s).ports = s.ports := rfl
@[simp] theorem latchEntry_core (n i : Nat) : (latchEntry n i s).core = s.core := rfl
@[simp] theorem latchEntry_parts (n i : Nat) : (latchEntry n i s).parts = s.parts := rfl
@[simp] theorem latchEntry_wab (n i : Nat) : (latchEntry n i s).wab = s.wab := rfl
@[simp] theorem latchEntry_home (n i : Nat) : (latchEntry n i s).home = s.home := rfl
@[simp] theorem latchEntry_egr (n i : Nat) : (latchEntry n i s).egr = s.egr := rfl
@[simp] theorem latchEntry_mq (n i : Nat) : (latchEntry n i s).mq = s.mq := rfl
@[simp] theorem latchEntry_flt (n i : Nat) : (latchEntry n i s).flt = s.flt := rfl
@[simp] theorem latchEntry_tel (n i : Nat) : (latchEntry n i s).tel = s.tel := rfl
@[simp] theorem latchEntry_glr (n i : Nat) : (latchEntry n i s).glr = s.glr := rfl
@[simp] theorem latchEntry_pwr (n i : Nat) : (latchEntry n i s).pwr = s.pwr := rfl
@[simp] theorem latchEntry_rst (n i : Nat) : (latchEntry n i s).rst = s.rst := rfl
@[simp] theorem latchEntry_i3c (n i : Nat) : (latchEntry n i s).i3c = s.i3c := rfl
@[simp] theorem latchEntry_sec (n i : Nat) : (latchEntry n i s).sec = s.sec := rfl
@[simp] theorem latchEntry_dbg (n i : Nat) : (latchEntry n i s).dbg = s.dbg := rfl
@[simp] theorem latchEntry_pins (n i : Nat) : (latchEntry n i s).pins = s.pins := rfl
@[simp] theorem latchEntry_free (n i : Nat) : (latchEntry n i s).free = s.free := rfl
@[simp] theorem latchEntry_out (n i : Nat) : (latchEntry n i s).out = s.out := rfl
@[simp] theorem latchEntry_pending (n i : Nat) : (latchEntry n i s).pending = s.pending := rfl

@[simp] theorem slotMark_time : (slotMark s).time = s.time := rfl
@[simp] theorem slotMark_tick : (slotMark s).tick = s.tick := rfl
@[simp] theorem slotMark_mode : (slotMark s).mode = s.mode := rfl
@[simp] theorem slotMark_regs : (slotMark s).regs = s.regs := rfl
@[simp] theorem slotMark_w1cNow : (slotMark s).w1cNow = s.w1cNow := rfl
@[simp] theorem slotMark_rwe : (slotMark s).rwe = s.rwe := rfl
@[simp] theorem slotMark_sched : (slotMark s).sched = s.sched := rfl
@[simp] theorem slotMark_trail : (slotMark s).trail = s.trail := rfl
@[simp] theorem slotMark_ports : (slotMark s).ports = s.ports := rfl
@[simp] theorem slotMark_core : (slotMark s).core = s.core := rfl
@[simp] theorem slotMark_maps : (slotMark s).maps = s.maps := rfl
@[simp] theorem slotMark_parts : (slotMark s).parts = s.parts := rfl
@[simp] theorem slotMark_wab : (slotMark s).wab = s.wab := rfl
@[simp] theorem slotMark_home : (slotMark s).home = s.home := rfl
@[simp] theorem slotMark_egr : (slotMark s).egr = s.egr := rfl
@[simp] theorem slotMark_mq : (slotMark s).mq = s.mq := rfl
@[simp] theorem slotMark_flt : (slotMark s).flt = s.flt := rfl
@[simp] theorem slotMark_tel : (slotMark s).tel = s.tel := rfl
@[simp] theorem slotMark_glr : (slotMark s).glr = s.glr := rfl
@[simp] theorem slotMark_pwr : (slotMark s).pwr = s.pwr := rfl
@[simp] theorem slotMark_rst : (slotMark s).rst = s.rst := rfl
@[simp] theorem slotMark_i3c : (slotMark s).i3c = s.i3c := rfl
@[simp] theorem slotMark_sec : (slotMark s).sec = s.sec := rfl
@[simp] theorem slotMark_dbg : (slotMark s).dbg = s.dbg := rfl
@[simp] theorem slotMark_pins : (slotMark s).pins = s.pins := rfl
@[simp] theorem slotMark_free : (slotMark s).free = s.free := rfl
@[simp] theorem slotMark_out : (slotMark s).out = s.out := rfl
@[simp] theorem slotMark_pending : (slotMark s).pending = s.pending := rfl

@[simp] theorem epochMark_time : (epochMark s).time = s.time := rfl
@[simp] theorem epochMark_tick : (epochMark s).tick = s.tick := rfl
@[simp] theorem epochMark_mode : (epochMark s).mode = s.mode := rfl
@[simp] theorem epochMark_regs : (epochMark s).regs = s.regs := rfl
@[simp] theorem epochMark_w1cNow : (epochMark s).w1cNow = s.w1cNow := rfl
@[simp] theorem epochMark_rwe : (epochMark s).rwe = s.rwe := rfl
@[simp] theorem epochMark_sched : (epochMark s).sched = s.sched := rfl
@[simp] theorem epochMark_trail : (epochMark s).trail = s.trail := rfl
@[simp] theorem epochMark_ports : (epochMark s).ports = s.ports := rfl
@[simp] theorem epochMark_core : (epochMark s).core = s.core := rfl
@[simp] theorem epochMark_maps : (epochMark s).maps = s.maps := rfl
@[simp] theorem epochMark_parts : (epochMark s).parts = s.parts := rfl
@[simp] theorem epochMark_wab : (epochMark s).wab = s.wab := rfl
@[simp] theorem epochMark_home : (epochMark s).home = s.home := rfl
@[simp] theorem epochMark_egr : (epochMark s).egr = s.egr := rfl
@[simp] theorem epochMark_mq : (epochMark s).mq = s.mq := rfl
@[simp] theorem epochMark_flt : (epochMark s).flt = s.flt := rfl
@[simp] theorem epochMark_tel : (epochMark s).tel = s.tel := rfl
@[simp] theorem epochMark_glr : (epochMark s).glr = s.glr := rfl
@[simp] theorem epochMark_pwr : (epochMark s).pwr = s.pwr := rfl
@[simp] theorem epochMark_rst : (epochMark s).rst = s.rst := rfl
@[simp] theorem epochMark_i3c : (epochMark s).i3c = s.i3c := rfl
@[simp] theorem epochMark_sec : (epochMark s).sec = s.sec := rfl
@[simp] theorem epochMark_dbg : (epochMark s).dbg = s.dbg := rfl
@[simp] theorem epochMark_pins : (epochMark s).pins = s.pins := rfl
@[simp] theorem epochMark_free : (epochMark s).free = s.free := rfl
@[simp] theorem epochMark_out : (epochMark s).out = s.out := rfl
@[simp] theorem epochMark_pending : (epochMark s).pending = s.pending := rfl

@[simp] theorem plrClear_time : (plrClear s).time = s.time := rfl
@[simp] theorem plrClear_tick : (plrClear s).tick = s.tick := rfl
@[simp] theorem plrClear_mode : (plrClear s).mode = s.mode := rfl
@[simp] theorem plrClear_regs : (plrClear s).regs = s.regs := rfl
@[simp] theorem plrClear_w1cNow : (plrClear s).w1cNow = s.w1cNow := rfl
@[simp] theorem plrClear_rwe : (plrClear s).rwe = s.rwe := rfl
@[simp] theorem plrClear_ftm : (plrClear s).ftm = s.ftm := rfl
@[simp] theorem plrClear_sched : (plrClear s).sched = s.sched := rfl
@[simp] theorem plrClear_trail : (plrClear s).trail = s.trail := rfl
@[simp] theorem plrClear_ports : (plrClear s).ports = s.ports := rfl
@[simp] theorem plrClear_core : (plrClear s).core = s.core := rfl
@[simp] theorem plrClear_maps : (plrClear s).maps = s.maps := rfl
@[simp] theorem plrClear_parts : (plrClear s).parts = s.parts := rfl
@[simp] theorem plrClear_home : (plrClear s).home = s.home := rfl
@[simp] theorem plrClear_egr : (plrClear s).egr = s.egr := rfl
@[simp] theorem plrClear_mq : (plrClear s).mq = s.mq := rfl
@[simp] theorem plrClear_flt : (plrClear s).flt = s.flt := rfl
@[simp] theorem plrClear_tel : (plrClear s).tel = s.tel := rfl
@[simp] theorem plrClear_glr : (plrClear s).glr = s.glr := rfl
@[simp] theorem plrClear_pwr : (plrClear s).pwr = s.pwr := rfl
@[simp] theorem plrClear_rst : (plrClear s).rst = s.rst := rfl
@[simp] theorem plrClear_i3c : (plrClear s).i3c = s.i3c := rfl
@[simp] theorem plrClear_sec : (plrClear s).sec = s.sec := rfl
@[simp] theorem plrClear_dbg : (plrClear s).dbg = s.dbg := rfl
@[simp] theorem plrClear_pins : (plrClear s).pins = s.pins := rfl
@[simp] theorem plrClear_free : (plrClear s).free = s.free := rfl
@[simp] theorem plrClear_out : (plrClear s).out = s.out := rfl
@[simp] theorem plrClear_pending : (plrClear s).pending = s.pending := rfl

@[simp] theorem setOver_time (q : Nat) (o : Option EvOver) : (setOver q o s).time = s.time := rfl
@[simp] theorem setOver_tick (q : Nat) (o : Option EvOver) : (setOver q o s).tick = s.tick := rfl
@[simp] theorem setOver_mode (q : Nat) (o : Option EvOver) : (setOver q o s).mode = s.mode := rfl
@[simp] theorem setOver_regs (q : Nat) (o : Option EvOver) : (setOver q o s).regs = s.regs := rfl
@[simp] theorem setOver_w1cNow (q : Nat) (o : Option EvOver) : (setOver q o s).w1cNow = s.w1cNow := rfl
@[simp] theorem setOver_rwe (q : Nat) (o : Option EvOver) : (setOver q o s).rwe = s.rwe := rfl
@[simp] theorem setOver_ftm (q : Nat) (o : Option EvOver) : (setOver q o s).ftm = s.ftm := rfl
@[simp] theorem setOver_sched (q : Nat) (o : Option EvOver) : (setOver q o s).sched = s.sched := rfl
@[simp] theorem setOver_trail (q : Nat) (o : Option EvOver) : (setOver q o s).trail = s.trail := rfl
@[simp] theorem setOver_ports (q : Nat) (o : Option EvOver) : (setOver q o s).ports = s.ports := rfl
@[simp] theorem setOver_core (q : Nat) (o : Option EvOver) : (setOver q o s).core = s.core := rfl
@[simp] theorem setOver_maps (q : Nat) (o : Option EvOver) : (setOver q o s).maps = s.maps := rfl
@[simp] theorem setOver_parts (q : Nat) (o : Option EvOver) : (setOver q o s).parts = s.parts := rfl
@[simp] theorem setOver_wab (q : Nat) (o : Option EvOver) : (setOver q o s).wab = s.wab := rfl
@[simp] theorem setOver_home (q : Nat) (o : Option EvOver) : (setOver q o s).home = s.home := rfl
@[simp] theorem setOver_egr (q : Nat) (o : Option EvOver) : (setOver q o s).egr = s.egr := rfl
@[simp] theorem setOver_flt (q : Nat) (o : Option EvOver) : (setOver q o s).flt = s.flt := rfl
@[simp] theorem setOver_tel (q : Nat) (o : Option EvOver) : (setOver q o s).tel = s.tel := rfl
@[simp] theorem setOver_glr (q : Nat) (o : Option EvOver) : (setOver q o s).glr = s.glr := rfl
@[simp] theorem setOver_pwr (q : Nat) (o : Option EvOver) : (setOver q o s).pwr = s.pwr := rfl
@[simp] theorem setOver_rst (q : Nat) (o : Option EvOver) : (setOver q o s).rst = s.rst := rfl
@[simp] theorem setOver_i3c (q : Nat) (o : Option EvOver) : (setOver q o s).i3c = s.i3c := rfl
@[simp] theorem setOver_sec (q : Nat) (o : Option EvOver) : (setOver q o s).sec = s.sec := rfl
@[simp] theorem setOver_dbg (q : Nat) (o : Option EvOver) : (setOver q o s).dbg = s.dbg := rfl
@[simp] theorem setOver_pins (q : Nat) (o : Option EvOver) : (setOver q o s).pins = s.pins := rfl
@[simp] theorem setOver_free (q : Nat) (o : Option EvOver) : (setOver q o s).free = s.free := rfl
@[simp] theorem setOver_out (q : Nat) (o : Option EvOver) : (setOver q o s).out = s.out := rfl
@[simp] theorem setOver_pending (q : Nat) (o : Option EvOver) : (setOver q o s).pending = s.pending := rfl

@[simp] theorem finishAt_time (epoch : Bool) (c : Ctx) (op : Nat) : (finishAt epoch c op s).time = s.time := rfl
@[simp] theorem finishAt_tick (epoch : Bool) (c : Ctx) (op : Nat) : (finishAt epoch c op s).tick = s.tick := rfl
@[simp] theorem finishAt_mode (epoch : Bool) (c : Ctx) (op : Nat) : (finishAt epoch c op s).mode = s.mode := rfl
@[simp] theorem finishAt_regs (epoch : Bool) (c : Ctx) (op : Nat) : (finishAt epoch c op s).regs = s.regs := rfl
@[simp] theorem finishAt_w1cNow (epoch : Bool) (c : Ctx) (op : Nat) : (finishAt epoch c op s).w1cNow = s.w1cNow := rfl
@[simp] theorem finishAt_rwe (epoch : Bool) (c : Ctx) (op : Nat) : (finishAt epoch c op s).rwe = s.rwe := rfl
@[simp] theorem finishAt_ftm (epoch : Bool) (c : Ctx) (op : Nat) : (finishAt epoch c op s).ftm = s.ftm := rfl
@[simp] theorem finishAt_sched (epoch : Bool) (c : Ctx) (op : Nat) : (finishAt epoch c op s).sched = s.sched := rfl
@[simp] theorem finishAt_trail (epoch : Bool) (c : Ctx) (op : Nat) : (finishAt epoch c op s).trail = s.trail := rfl
@[simp] theorem finishAt_ports (epoch : Bool) (c : Ctx) (op : Nat) : (finishAt epoch c op s).ports = s.ports := rfl
@[simp] theorem finishAt_core (epoch : Bool) (c : Ctx) (op : Nat) : (finishAt epoch c op s).core = s.core := rfl
@[simp] theorem finishAt_maps (epoch : Bool) (c : Ctx) (op : Nat) : (finishAt epoch c op s).maps = s.maps := rfl
@[simp] theorem finishAt_parts (epoch : Bool) (c : Ctx) (op : Nat) : (finishAt epoch c op s).parts = s.parts := rfl
@[simp] theorem finishAt_wab (epoch : Bool) (c : Ctx) (op : Nat) : (finishAt epoch c op s).wab = s.wab := rfl
@[simp] theorem finishAt_home (epoch : Bool) (c : Ctx) (op : Nat) : (finishAt epoch c op s).home = s.home := rfl
@[simp] theorem finishAt_egr (epoch : Bool) (c : Ctx) (op : Nat) : (finishAt epoch c op s).egr = s.egr := rfl
@[simp] theorem finishAt_flt (epoch : Bool) (c : Ctx) (op : Nat) : (finishAt epoch c op s).flt = s.flt := rfl
@[simp] theorem finishAt_tel (epoch : Bool) (c : Ctx) (op : Nat) : (finishAt epoch c op s).tel = s.tel := rfl
@[simp] theorem finishAt_glr (epoch : Bool) (c : Ctx) (op : Nat) : (finishAt epoch c op s).glr = s.glr := rfl
@[simp] theorem finishAt_pwr (epoch : Bool) (c : Ctx) (op : Nat) : (finishAt epoch c op s).pwr = s.pwr := rfl
@[simp] theorem finishAt_rst (epoch : Bool) (c : Ctx) (op : Nat) : (finishAt epoch c op s).rst = s.rst := rfl
@[simp] theorem finishAt_i3c (epoch : Bool) (c : Ctx) (op : Nat) : (finishAt epoch c op s).i3c = s.i3c := rfl
@[simp] theorem finishAt_sec (epoch : Bool) (c : Ctx) (op : Nat) : (finishAt epoch c op s).sec = s.sec := rfl
@[simp] theorem finishAt_dbg (epoch : Bool) (c : Ctx) (op : Nat) : (finishAt epoch c op s).dbg = s.dbg := rfl
@[simp] theorem finishAt_pins (epoch : Bool) (c : Ctx) (op : Nat) : (finishAt epoch c op s).pins = s.pins := rfl
@[simp] theorem finishAt_free (epoch : Bool) (c : Ctx) (op : Nat) : (finishAt epoch c op s).free = s.free := rfl
@[simp] theorem finishAt_out (epoch : Bool) (c : Ctx) (op : Nat) : (finishAt epoch c op s).out = s.out := rfl
@[simp] theorem finishAt_pending (epoch : Bool) (c : Ctx) (op : Nat) : (finishAt epoch c op s).pending = s.pending := rfl

@[simp] theorem spdmBegin_time (ep code : Nat) (data : List Nat) : (spdmBegin ep code data s).time = s.time := rfl
@[simp] theorem spdmBegin_tick (ep code : Nat) (data : List Nat) : (spdmBegin ep code data s).tick = s.tick := rfl
@[simp] theorem spdmBegin_mode (ep code : Nat) (data : List Nat) : (spdmBegin ep code data s).mode = s.mode := rfl
@[simp] theorem spdmBegin_regs (ep code : Nat) (data : List Nat) : (spdmBegin ep code data s).regs = s.regs := rfl
@[simp] theorem spdmBegin_w1cNow (ep code : Nat) (data : List Nat) : (spdmBegin ep code data s).w1cNow = s.w1cNow := rfl
@[simp] theorem spdmBegin_rwe (ep code : Nat) (data : List Nat) : (spdmBegin ep code data s).rwe = s.rwe := rfl
@[simp] theorem spdmBegin_ftm (ep code : Nat) (data : List Nat) : (spdmBegin ep code data s).ftm = s.ftm := rfl
@[simp] theorem spdmBegin_sched (ep code : Nat) (data : List Nat) : (spdmBegin ep code data s).sched = s.sched := rfl
@[simp] theorem spdmBegin_trail (ep code : Nat) (data : List Nat) : (spdmBegin ep code data s).trail = s.trail := rfl
@[simp] theorem spdmBegin_ports (ep code : Nat) (data : List Nat) : (spdmBegin ep code data s).ports = s.ports := rfl
@[simp] theorem spdmBegin_core (ep code : Nat) (data : List Nat) : (spdmBegin ep code data s).core = s.core := rfl
@[simp] theorem spdmBegin_maps (ep code : Nat) (data : List Nat) : (spdmBegin ep code data s).maps = s.maps := rfl
@[simp] theorem spdmBegin_parts (ep code : Nat) (data : List Nat) : (spdmBegin ep code data s).parts = s.parts := rfl
@[simp] theorem spdmBegin_wab (ep code : Nat) (data : List Nat) : (spdmBegin ep code data s).wab = s.wab := rfl
@[simp] theorem spdmBegin_home (ep code : Nat) (data : List Nat) : (spdmBegin ep code data s).home = s.home := rfl
@[simp] theorem spdmBegin_egr (ep code : Nat) (data : List Nat) : (spdmBegin ep code data s).egr = s.egr := rfl
@[simp] theorem spdmBegin_mq (ep code : Nat) (data : List Nat) : (spdmBegin ep code data s).mq = s.mq := rfl
@[simp] theorem spdmBegin_flt (ep code : Nat) (data : List Nat) : (spdmBegin ep code data s).flt = s.flt := rfl
@[simp] theorem spdmBegin_tel (ep code : Nat) (data : List Nat) : (spdmBegin ep code data s).tel = s.tel := rfl
@[simp] theorem spdmBegin_glr (ep code : Nat) (data : List Nat) : (spdmBegin ep code data s).glr = s.glr := rfl
@[simp] theorem spdmBegin_pwr (ep code : Nat) (data : List Nat) : (spdmBegin ep code data s).pwr = s.pwr := rfl
@[simp] theorem spdmBegin_rst (ep code : Nat) (data : List Nat) : (spdmBegin ep code data s).rst = s.rst := rfl
@[simp] theorem spdmBegin_i3c (ep code : Nat) (data : List Nat) : (spdmBegin ep code data s).i3c = s.i3c := rfl
@[simp] theorem spdmBegin_dbg (ep code : Nat) (data : List Nat) : (spdmBegin ep code data s).dbg = s.dbg := rfl
@[simp] theorem spdmBegin_pins (ep code : Nat) (data : List Nat) : (spdmBegin ep code data s).pins = s.pins := rfl
@[simp] theorem spdmBegin_free (ep code : Nat) (data : List Nat) : (spdmBegin ep code data s).free = s.free := rfl
@[simp] theorem spdmBegin_out (ep code : Nat) (data : List Nat) : (spdmBegin ep code data s).out = s.out := rfl
@[simp] theorem spdmBegin_pending (ep code : Nat) (data : List Nat) : (spdmBegin ep code data s).pending = s.pending := rfl

@[simp] theorem holdEmber_time : (holdEmber s).time = s.time := rfl
@[simp] theorem holdEmber_tick : (holdEmber s).tick = s.tick := rfl
@[simp] theorem holdEmber_mode : (holdEmber s).mode = s.mode := rfl
@[simp] theorem holdEmber_regs : (holdEmber s).regs = s.regs := rfl
@[simp] theorem holdEmber_w1cNow : (holdEmber s).w1cNow = s.w1cNow := rfl
@[simp] theorem holdEmber_rwe : (holdEmber s).rwe = s.rwe := rfl
@[simp] theorem holdEmber_ftm : (holdEmber s).ftm = s.ftm := rfl
@[simp] theorem holdEmber_sched : (holdEmber s).sched = s.sched := rfl
@[simp] theorem holdEmber_trail : (holdEmber s).trail = s.trail := rfl
@[simp] theorem holdEmber_ports : (holdEmber s).ports = s.ports := rfl
@[simp] theorem holdEmber_core : (holdEmber s).core = s.core := rfl
@[simp] theorem holdEmber_maps : (holdEmber s).maps = s.maps := rfl
@[simp] theorem holdEmber_parts : (holdEmber s).parts = s.parts := rfl
@[simp] theorem holdEmber_wab : (holdEmber s).wab = s.wab := rfl
@[simp] theorem holdEmber_home : (holdEmber s).home = s.home := rfl
@[simp] theorem holdEmber_egr : (holdEmber s).egr = s.egr := rfl
@[simp] theorem holdEmber_mq : (holdEmber s).mq = s.mq := rfl
@[simp] theorem holdEmber_tel : (holdEmber s).tel = s.tel := rfl
@[simp] theorem holdEmber_glr : (holdEmber s).glr = s.glr := rfl
@[simp] theorem holdEmber_pwr : (holdEmber s).pwr = s.pwr := rfl
@[simp] theorem holdEmber_rst : (holdEmber s).rst = s.rst := rfl
@[simp] theorem holdEmber_i3c : (holdEmber s).i3c = s.i3c := rfl
@[simp] theorem holdEmber_sec : (holdEmber s).sec = s.sec := rfl
@[simp] theorem holdEmber_dbg : (holdEmber s).dbg = s.dbg := rfl
@[simp] theorem holdEmber_pins : (holdEmber s).pins = s.pins := rfl
@[simp] theorem holdEmber_free : (holdEmber s).free = s.free := rfl
@[simp] theorem holdEmber_out : (holdEmber s).out = s.out := rfl
@[simp] theorem holdEmber_pending : (holdEmber s).pending = s.pending := rfl

@[simp] theorem settled_pending (q : List Instr) : (settled q s).pending = q := rfl
@[simp] theorem settled_pins (q : List Instr) : (settled q s).pins = pinsOf s := rfl
@[simp] theorem say_out (o : Out) : (s.say o).out = s.out ++ [o] := rfl

end Sys2Proof.Machine
end

