-- ==== Sys2Proof/Laws/Table.lean ====
section
/-!
SUPPORT. Sys2Proof/Laws/Table.lean: reading after writing, and the canonical form, of sparse tables and of byte stores.
-/
namespace Sys2Proof.Machine

variable {α : Type} [DecidableEq α]

omit [DecidableEq α] in
@[simp] theorem tget_nil (d : α) (i : Nat) : tget d [] i = d := rfl

omit [DecidableEq α] in
theorem tget_cons (d : α) (e : Nat × α) (m : Tbl α) (i : Nat) :
    tget d (e :: m) i = if e.1 = i then e.2 else tget d m i := by
  by_cases h : e.1 = i <;> simp [tget, h]

omit [DecidableEq α] in
theorem tget_filter_same (d : α) (m : Tbl α) (i : Nat) : tget d (m.filter fun e => !(e.1 == i)) i = d := by
  induction m with
  | nil => rfl
  | cons e t ih => by_cases h : e.1 = i <;> simp [h, tget_cons, ih]

omit [DecidableEq α] in
theorem tget_filter_other (d : α) (m : Tbl α) {i j : Nat} (h : i ≠ j) :
    tget d (m.filter fun e => !(e.1 == i)) j = tget d m j := by
  induction m with
  | nil => rfl
  | cons e t ih =>
    by_cases he : e.1 = i
    · have : e.1 ≠ j := he ▸ h
      simp [he, tget_cons, ih, h]
    · simp [he, tget_cons, ih]

omit [DecidableEq α] in
theorem tget_tins_same (d v : α) (m : Tbl α) {i : Nat} (h : ∀ e ∈ m, e.1 ≠ i) : tget d (tins i v m) i = v := by
  induction m with
  | nil => simp [tins, tget]
  | cons e t ih =>
    have he : e.1 ≠ i := h e (by simp)
    unfold tins
    split
    · simp [tget_cons]
    · rw [tget_cons, if_neg he]; exact ih fun x hx => h x (by simp [hx])

omit [DecidableEq α] in
theorem tget_tins_other (d v : α) (m : Tbl α) {i j : Nat} (h : i ≠ j) : tget d (tins i v m) j = tget d m j := by
  induction m with
  | nil => simp [tins, tget, h]
  | cons e t ih =>
    unfold tins
    split
    · simp [tget_cons, h]
    · simp [tget_cons, ih]

/-- A key reads what was last written to it. -/
@[simp] theorem tget_tput_same (d v : α) (m : Tbl α) (i : Nat) : tget d (tput d m i v) i = v := by
  unfold tput
  split
  · rw [tget_filter_same]; simp_all
  · exact tget_tins_same _ _ _ (by simp)

/-- A write leaves every other key alone, whatever an unlisted key reads as. -/
theorem tget_tput_other (d' d v : α) (m : Tbl α) {i j : Nat} (h : i ≠ j) :
    tget d' (tput d m i v) j = tget d' m j := by
  unfold tput
  dsimp only
  split
  · exact tget_filter_other _ _ h
  · rw [tget_tins_other _ _ _ h, tget_filter_other _ _ h]

omit [DecidableEq α] in
theorem mem_tins {i : Nat} {v : α} {m : Tbl α} {e : Nat × α} (h : e ∈ tins i v m) : e = (i, v) ∨ e ∈ m := by
  induction m with
  | nil => simpa [tins] using h
  | cons x t ih =>
    unfold tins at h
    split at h
    · simpa using h
    · rcases List.mem_cons.1 h with h | h
      · exact .inr (by simp [h])
      · rcases ih h with h | h
        · exact .inl h
        · exact .inr (by simp [h])

omit [DecidableEq α] in
theorem pairwise_tins {i : Nat} {v : α} {m : Tbl α} (hm : m.Pairwise fun a b => a.1 < b.1) (hi : ∀ e ∈ m, e.1 ≠ i) :
    (tins i v m).Pairwise fun a b => a.1 < b.1 := by
  induction m with
  | nil => simp [tins]
  | cons x t ih =>
    have hx : x.1 ≠ i := hi x (by simp)
    have ⟨h1, h2⟩ := List.pairwise_cons.1 hm
    unfold tins
    split
    · rename_i hlt
      refine List.pairwise_cons.2 ⟨fun e he => ?_, hm⟩
      rcases List.mem_cons.1 he with he | he
      · simpa [he] using hlt
      · exact lt_trans hlt (h1 e he)
    · rename_i hge
      refine List.pairwise_cons.2 ⟨fun e he => ?_, ih h2 fun e he => hi e (by simp [he])⟩
      rcases mem_tins he with he | he
      · simp only [he]; omega
      · exact h1 e he

/-- A write keeps the canonical form. -/
theorem twf_tput {d : α} {m : Tbl α} (v : α) (i : Nat) (h : twf d m = true) : twf d (tput d m i v) = true := by
  simp only [twf, Bool.and_eq_true, decide_eq_true_eq, List.all_eq_true, Bool.not_eq_true', decide_eq_false_iff_not] at h ⊢
  obtain ⟨hp, ha⟩ := h
  have hp' : (m.filter fun e => !(e.1 == i)).Pairwise fun a b => a.1 < b.1 := hp.filter _
  unfold tput
  dsimp only
  split
  · exact ⟨hp', fun e he => ha e (List.mem_filter.1 he).1⟩
  · rename_i hv
    refine ⟨pairwise_tins hp' (by simp), fun e he => ?_⟩
    rcases mem_tins he with he | he
    · simpa [he] using hv
    · exact ha e (List.mem_filter.1 he).1

/-- A change of one key keeps the canonical form. -/
theorem twf_tmod {d : α} {m : Tbl α} (f : α → α) (i : Nat) (h : twf d m = true) : twf d (tmod d m i f) = true :=
  twf_tput _ _ h

/-- Writing bytes keeps the canonical form of a store. -/
theorem memory_wf_putBytes (off : Nat) (bs : List Nat) (m : List Host.Cell) (h : Memory.wf m = true) :
    Memory.wf (putBytes off bs m) = true := by
  unfold putBytes
  generalize bs.zipIdx off = l
  induction l generalizing m with
  | nil => exact h
  | cons e t ih => exact ih _ (twf_tput _ _ h)

/-- Bytes outside the written range read as before. -/
theorem byteAt_putBytes_other {off a : Nat} {bs : List Nat} (m : List Host.Cell) (h : a < off ∨ off + bs.length ≤ a) :
    byteAt (putBytes off bs m) a = byteAt m a := by
  unfold putBytes byteAt
  induction bs generalizing off m with
  | nil => rfl
  | cons b t ih =>
    simp only [List.zipIdx_cons, List.foldl_cons, List.length_cons] at h ⊢
    rw [ih _ (by omega), tget_tput_other _ _ _ _ (by omega)]

/-- The stores of the state after reset are in canonical form: no byte of the staging store is listed. -/
theorem memory_wf_reset : Memory.wf State.reset.flt.staging = true := rfl

end Sys2Proof.Machine
end

