-- ==== Sys2Proof/Laws/Ops.lean ====
section
/-!
SUPPORT. Sys2Proof/Laws/Ops.lean: what the shared operations do and leave alone: register fields, events, completions, and the
end of every command.
-/
namespace Sys2Proof.Machine

variable (s : State)

/-! ### Register fields -/

theorem rd_congr {s t : State} (h : s.regs = t.regs) (pg : Page) (f : Fld) : rd s pg f = rd t pg f := by
  unfold rd; rw [h]

/-- A field reads what was last written, cut to its width. -/
@[simp] theorem rd_wr_same (pg : Page) (f : Fld) (v : Nat) : rd (wr pg f v s) pg f = v % 2 ^ f.width := by
  simp [rd, wr]

/-- A write leaves every other field alone. -/
theorem rd_wr_other {pg pg' : Page} {f f' : Fld} (v : Nat) (h : fkey pg f ≠ fkey pg' f') :
    rd (wr pg f v s) pg' f' = rd s pg' f' := by
  simp only [rd, wr]; exact tget_tput_other _ _ _ _ h

/-- Fields of one page at different places are different fields. -/
theorem rd_wr_field {pg : Page} {f f' : Fld} (v : Nat) (h : f.off * 8 + f.lo ≠ f'.off * 8 + f'.lo) :
    rd (wr pg f v s) pg f' = rd s pg f' :=
  rd_wr_other s v (by unfold fkey; omega)

/-- Every page begins at a multiple of 4 KiB. -/
theorem base_mod (pg : Page) : pg.base % 0x1000 = 0 := by
  cases pg <;> simp only [Page.base, niBase, tilePage, portBase, tileBase] <;> (try split) <;> (try split) <;> omega

/-- Fields of different pages are different fields. -/
theorem fkey_page {pg pg' : Page} {f f' : Fld} (h : pg.base ≠ pg'.base) (hf : f.off * 8 + f.lo < 0x8000)
    (hf' : f'.off * 8 + f'.lo < 0x8000) : fkey pg f ≠ fkey pg' f' := by
  have := base_mod pg; have := base_mod pg'; unfold fkey; omega

theorem rd_wr_page {pg pg' : Page} {f f' : Fld} (v : Nat) (h : pg.base ≠ pg'.base) (hf : f.off * 8 + f.lo < 0x8000)
    (hf' : f'.off * 8 + f'.lo < 0x8000) : rd (wr pg f v s) pg' f' = rd s pg' f' :=
  rd_wr_other s v (fkey_page h hf hf')

@[simp] theorem rdb_wrb_same (pg : Page) (f : Fld) (b : Bool) (hw : 0 < f.width) : rdb (wrb pg f b s) pg f = b := by
  have : (1 : Nat) < 2 ^ f.width := Nat.one_lt_two_pow (by omega)
  cases b <;> simp [rdb, wrb, Nat.mod_eq_of_lt this]

theorem rd_wrb_same (pg : Page) (f : Fld) (b : Bool) (hw : 0 < f.width) : rd (wrb pg f b s) pg f = b.toNat := by
  have : (1 : Nat) < 2 ^ f.width := Nat.one_lt_two_pow (by omega)
  cases b <;> simp [wrb, Nat.mod_eq_of_lt this]

/-- A saturating counter never passes the limit of its field. -/
theorem rd_bumpBy_same (pg : Page) (f : Fld) (n : Nat) :
    rd (bumpBy pg f n s) pg f = min (rd s pg f + n) (2 ^ f.width - 1) := by
  have : 0 < 2 ^ f.width := Nat.two_pow_pos _
  rw [bumpBy, rd_wr_same, Nat.mod_eq_of_lt (by omega)]

/-- A discarded write sets CFG_REJECT of its page. -/
theorem rd_reject (pg : Page) : rd (reject pg s) pg F.BLK_STS_CFG_REJECT = 1 := by
  unfold reject bump bumpBy
  rw [rd_wr_field _ _ (by decide)]; simp [F.BLK_STS_CFG_REJECT]


@[simp] theorem rd_say (o : Out) (pg : Page) (f : Fld) : rd (s.say o) pg f = rd s pg f := rfl
@[simp] theorem rd_setEv (q : Nat) (l : List Event) (pg : Page) (f : Fld) : rd (setEv q l s) pg f = rd s pg f := rfl
@[simp] theorem rd_setEvTimer (q : Nat) (t : Option Nat) (pg : Page) (f : Fld) : rd (setEvTimer q t s) pg f = rd s pg f := rfl
@[simp] theorem rd_setHeld (ep q : Nat) (l : List Cpl) (pg : Page) (f : Fld) : rd (setHeld ep q l s) pg f = rd s pg f := rfl
@[simp] theorem rd_setLink (lead : Nat) (l : LinkS) (pg : Page) (f : Fld) : rd (setLink lead l s) pg f = rd s pg f := rfl
@[simp] theorem rd_modLink (lead : Nat) (g : LinkS → LinkS) (pg : Page) (f : Fld) : rd (modLink lead g s) pg f = rd s pg f := rfl
@[simp] theorem rd_setBind (i : Nat) (b : Binding) (pg : Page) (f : Fld) : rd (setBind i b s) pg f = rd s pg f := rfl
@[simp] theorem rd_setVp (p v : Nat) (x : Vp) (pg : Page) (f : Fld) : rd (setVp p v x s) pg f = rd s pg f := rfl
@[simp] theorem rd_setPart (p : Nat) (x : PartS) (pg : Page) (f : Fld) : rd (setPart p x s) pg f = rd s pg f := rfl
@[simp] theorem rd_modPart (p : Nat) (g : PartS → PartS) (pg : Page) (f : Fld) : rd (modPart p g s) pg f = rd s pg f := rfl
@[simp] theorem rd_setSrc (n : Nat) (x : SrcS) (pg : Page) (f : Fld) : rd (setSrc n x s) pg f = rd s pg f := rfl
@[simp] theorem rd_modSrc (n : Nat) (g : SrcS → SrcS) (pg : Page) (f : Fld) : rd (modSrc n g s) pg f = rd s pg f := rfl
@[simp] theorem rd_setTrail (t : Trail) (pg : Page) (f : Fld) : rd (setTrail t s) pg f = rd s pg f := rfl
@[simp] theorem rd_setLane (n : Nat) (l : LaneS) (pg : Page) (f : Fld) : rd (setLane n l s) pg f = rd s pg f := rfl
@[simp] theorem rd_setCache (ep q : Nat) (l : List (BitVec 512)) (pg : Page) (f : Fld) : rd (setCache ep q l s) pg f = rd s pg f := rfl
@[simp] theorem rd_setMq (m : Mq) (pg : Page) (f : Fld) : rd (setMq m s) pg f = rd s pg f := rfl
@[simp] theorem rd_setGlr (g : Glr) (pg : Page) (f : Fld) : rd (setGlr g s) pg f = rd s pg f := rfl
@[simp] theorem rd_setFtm (x : Ftm) (pg : Page) (f : Fld) : rd (setFtm x s) pg f = rd s pg f := rfl
@[simp] theorem rd_setPwr (p : Pwr) (pg : Page) (f : Fld) : rd (setPwr p s) pg f = rd s pg f := rfl
@[simp] theorem rd_setRst (r : Rst) (pg : Page) (f : Fld) : rd (setRst r s) pg f = rd s pg f := rfl
@[simp] theorem rd_modCell (id : Nat) (g : Cell → Cell) (pg : Page) (f : Fld) : rd (modCell id g s) pg f = rd s pg f := rfl
@[simp] theorem rd_modLoq (id : Nat) (g : LoqE → LoqE) (pg : Page) (f : Fld) : rd (modLoq id g s) pg f = rd s pg f := rfl
@[simp] theorem rd_loqDone (id : Nat) (pg : Page) (f : Fld) : rd (loqDone id s) pg f = rd s pg f := rfl
@[simp] theorem rd_haloPut (a b : Nat) (m : HaloMsg) (pg : Page) (f : Fld) : rd (haloPut a b m s) pg f = rd s pg f := rfl
@[simp] theorem rd_haloDrop (id : Nat) (pg : Page) (f : Fld) : rd (haloDrop id s) pg f = rd s pg f := rfl
@[simp] theorem rd_modAlc (n : Nat) (l : LineId) (g : AlcL → AlcL) (pg : Page) (f : Fld) : rd (modAlc n l g s) pg f = rd s pg f := rfl
@[simp] theorem rd_modWab (n id : Nat) (g : WabE → WabE) (pg : Page) (f : Fld) : rd (modWab n id g s) pg f = rd s pg f := rfl
@[simp] theorem rd_setNote (i : Nat) (x : LossNote) (pg : Page) (f : Fld) : rd (setNote i x s) pg f = rd s pg f := rfl
@[simp] theorem rd_setShaper (k : Nat) (x : Shaper) (pg : Page) (f : Fld) : rd (setShaper k x s) pg f = rd s pg f := rfl
@[simp] theorem rd_setDeficit (k v : Nat) (pg : Page) (f : Fld) : rd (setDeficit k v s) pg f = rd s pg f := rfl
@[simp] theorem rd_setVisit (lead : Nat) (q : Option Nat) (pg : Page) (f : Fld) : rd (setVisit lead q s) pg f = rd s pg f := rfl
@[simp] theorem rd_setCtr (k v : Nat) (pg : Page) (f : Fld) : rd (setCtr k v s) pg f = rd s pg f := rfl
@[simp] theorem rd_setCore (c : Nat) (x : Core1) (pg : Page) (f : Fld) : rd (setCore c x s) pg f = rd s pg f := rfl
@[simp] theorem rd_setSpdm (ep v : Nat) (pg : Page) (f : Fld) : rd (setSpdm ep v s) pg f = rd s pg f := rfl
@[simp] theorem rd_noteAgain (p : Page) (g : Fld) (pg : Page) (f : Fld) : rd (noteAgain p g s) pg f = rd s pg f := rfl
@[simp] theorem rd_schedDrop (i : Nat) (pg : Page) (f : Fld) : rd (schedDrop i s) pg f = rd s pg f := rfl
@[simp] theorem rd_waitReq (why : IoWhy) (fence : Bool) (h : Held) (pg : Page) (f : Fld) : rd (waitReq why fence h s) pg f = rd s pg f := rfl
@[simp] theorem rd_uncache (i : Nat) (pg : Page) (f : Fld) : rd (uncache i s) pg f = rd s pg f := rfl
@[simp] theorem rd_bindPend (p : BPend) (pg : Page) (f : Fld) : rd (bindPend p s) pg f = rd s pg f := rfl
@[simp] theorem rd_latchEntry (n i : Nat) (pg : Page) (f : Fld) : rd (latchEntry n i s) pg f = rd s pg f := rfl
@[simp] theorem rd_slotMark (pg : Page) (f : Fld) : rd (slotMark s) pg f = rd s pg f := rfl
@[simp] theorem rd_epochMark (pg : Page) (f : Fld) : rd (epochMark s) pg f = rd s pg f := rfl
@[simp] theorem rd_plrClear (pg : Page) (f : Fld) : rd (plrClear s) pg f = rd s pg f := rfl
@[simp] theorem rd_setOver (q : Nat) (o : Option EvOver) (pg : Page) (f : Fld) : rd (setOver q o s) pg f = rd s pg f := rfl
@[simp] theorem rd_finishAt (epoch : Bool) (c : Ctx) (op : Nat) (pg : Page) (f : Fld) : rd (finishAt epoch c op s) pg f = rd s pg f := rfl
@[simp] theorem rd_spdmBegin (ep code : Nat) (data : List Nat) (pg : Page) (f : Fld) : rd (spdmBegin ep code data s) pg f = rd s pg f := rfl
@[simp] theorem rd_holdEmber (pg : Page) (f : Fld) : rd (holdEmber s) pg f = rd s pg f := rfl
@[simp] theorem rd_settled (q : List Instr) (pg : Page) (f : Fld) : rd (settled q s) pg f = rd s pg f := rfl
@[simp] theorem rd_passTicks (n : Nat) (pg : Page) (f : Fld) : rd (passTicks n s) pg f = rd s pg f := rd_congr (by simp) pg f
@[simp] theorem rd_advanceTo (n : Nat) (pg : Page) (f : Fld) : rd (advanceTo n s) pg f = rd s pg f := rd_congr (by simp) pg f

/-! ### Events -/

theorem when_split (b : Bool) (f : State → State) : (s.when b f = s ∧ b = false) ∨ (s.when b f = f s ∧ b = true) := by
  cases b <;> simp [State.when]

@[simp] theorem raiseVec_time (ep v : Nat) : (raiseVec ep v s).time = s.time := by unfold raiseVec; (repeat' split) <;> simp
@[simp] theorem evInterrupt_time (q : Nat) : (evInterrupt q s).time = s.time := by
  unfold evInterrupt State.when; dsimp only; (repeat' split) <;> simp
@[simp] theorem raiseVec_tick (ep v : Nat) : (raiseVec ep v s).tick = s.tick := by unfold raiseVec; (repeat' split) <;> simp
@[simp] theorem evInterrupt_tick (q : Nat) : (evInterrupt q s).tick = s.tick := by
  unfold evInterrupt State.when; dsimp only; (repeat' split) <;> simp
@[simp] theorem raiseVec_mode (ep v : Nat) : (raiseVec ep v s).mode = s.mode := by unfold raiseVec; (repeat' split) <;> simp
@[simp] theorem evInterrupt_mode (q : Nat) : (evInterrupt q s).mode = s.mode := by
  unfold evInterrupt State.when; dsimp only; (repeat' split) <;> simp
@[simp] theorem raiseVec_regs (ep v : Nat) : (raiseVec ep v s).regs = s.regs := by unfold raiseVec; (repeat' split) <;> simp
@[simp] theorem evInterrupt_regs (q : Nat) : (evInterrupt q s).regs = s.regs := by
  unfold evInterrupt State.when; dsimp only; (repeat' split) <;> simp
@[simp] theorem raiseVec_w1cNow (ep v : Nat) : (raiseVec ep v s).w1cNow = s.w1cNow := by unfold raiseVec; (repeat' split) <;> simp
@[simp] theorem evInterrupt_w1cNow (q : Nat) : (evInterrupt q s).w1cNow = s.w1cNow := by
  unfold evInterrupt State.when; dsimp only; (repeat' split) <;> simp
@[simp] theorem raiseVec_rwe (ep v : Nat) : (raiseVec ep v s).rwe = s.rwe := by unfold raiseVec; (repeat' split) <;> simp
@[simp] theorem evInterrupt_rwe (q : Nat) : (evInterrupt q s).rwe = s.rwe := by
  unfold evInterrupt State.when; dsimp only; (repeat' split) <;> simp
@[simp] theorem raiseVec_ftm (ep v : Nat) : (raiseVec ep v s).ftm = s.ftm := by unfold raiseVec; (repeat' split) <;> simp
@[simp] theorem evInterrupt_ftm (q : Nat) : (evInterrupt q s).ftm = s.ftm := by
  unfold evInterrupt State.when; dsimp only; (repeat' split) <;> simp
@[simp] theorem raiseVec_sched (ep v : Nat) : (raiseVec ep v s).sched = s.sched := by unfold raiseVec; (repeat' split) <;> simp
@[simp] theorem evInterrupt_sched (q : Nat) : (evInterrupt q s).sched = s.sched := by
  unfold evInterrupt State.when; dsimp only; (repeat' split) <;> simp
@[simp] theorem raiseVec_trail (ep v : Nat) : (raiseVec ep v s).trail = s.trail := by unfold raiseVec; (repeat' split) <;> simp
@[simp] theorem evInterrupt_trail (q : Nat) : (evInterrupt q s).trail = s.trail := by
  unfold evInterrupt State.when; dsimp only; (repeat' split) <;> simp
@[simp] theorem raiseVec_ports (ep v : Nat) : (raiseVec ep v s).ports = s.ports := by unfold raiseVec; (repeat' split) <;> simp
@[simp] theorem evInterrupt_ports (q : Nat) : (evInterrupt q s).ports = s.ports := by
  unfold evInterrupt State.when; dsimp only; (repeat' split) <;> simp
@[simp] theorem raiseVec_core (ep v : Nat) : (raiseVec ep v s).core = s.core := by unfold raiseVec; (repeat' split) <;> simp
@[simp] theorem evInterrupt_core (q : Nat) : (evInterrupt q s).core = s.core := by
  unfold evInterrupt State.when; dsimp only; (repeat' split) <;> simp
@[simp] theorem raiseVec_maps (ep v : Nat) : (raiseVec ep v s).maps = s.maps := by unfold raiseVec; (repeat' split) <;> simp
@[simp] theorem evInterrupt_maps (q : Nat) : (evInterrupt q s).maps = s.maps := by
  unfold evInterrupt State.when; dsimp only; (repeat' split) <;> simp
@[simp] theorem raiseVec_parts (ep v : Nat) : (raiseVec ep v s).parts = s.parts := by unfold raiseVec; (repeat' split) <;> simp
@[simp] theorem evInterrupt_parts (q : Nat) : (evInterrupt q s).parts = s.parts := by
  unfold evInterrupt State.when; dsimp only; (repeat' split) <;> simp
@[simp] theorem raiseVec_wab (ep v : Nat) : (raiseVec ep v s).wab = s.wab := by unfold raiseVec; (repeat' split) <;> simp
@[simp] theorem evInterrupt_wab (q : Nat) : (evInterrupt q s).wab = s.wab := by
  unfold evInterrupt State.when; dsimp only; (repeat' split) <;> simp
@[simp] theorem raiseVec_home (ep v : Nat) : (raiseVec ep v s).home = s.home := by unfold raiseVec; (repeat' split) <;> simp
@[simp] theorem evInterrupt_home (q : Nat) : (evInterrupt q s).home = s.home := by
  unfold evInterrupt State.when; dsimp only; (repeat' split) <;> simp
@[simp] theorem raiseVec_egr (ep v : Nat) : (raiseVec ep v s).egr = s.egr := by unfold raiseVec; (repeat' split) <;> simp
@[simp] theorem evInterrupt_egr (q : Nat) : (evInterrupt q s).egr = s.egr := by
  unfold evInterrupt State.when; dsimp only; (repeat' split) <;> simp
/-- Raising a vector changes no more of the queue engine than the pending bits. -/
theorem raiseVec_mq (ep v : Nat) : (raiseVec ep v s).mq = { s.mq with pba := (raiseVec ep v s).mq.pba } := by
  unfold raiseVec; (repeat' split) <;> simp
@[simp] theorem raiseVec_heldOf (ep v e q : Nat) : heldOf (raiseVec ep v s) e q = heldOf s e q := by
  unfold raiseVec; (repeat' split) <;> rfl
@[simp] theorem raiseVec_evList (ep v q : Nat) : evList (raiseVec ep v s) q = evList s q := by
  unfold raiseVec; (repeat' split) <;> rfl
@[simp] theorem raiseVec_timers (ep v : Nat) : (raiseVec ep v s).mq.timers = s.mq.timers := by
  unfold raiseVec; (repeat' split) <;> rfl
@[simp] theorem raiseVec_mgUp (ep v e : Nat) : mgUp (raiseVec ep v s) e = mgUp s e := by
  unfold raiseVec; (repeat' split) <;> rfl
/-- Raising a vector writes no register. -/
@[simp] theorem rd_raiseVec (ep v : Nat) (pg : Page) (f : Fld) : rd (raiseVec ep v s) pg f = rd s pg f := by
  simp [rd]
@[simp] theorem evInterrupt_evList (q q' : Nat) : evList (evInterrupt q s) q' = evList s q' := by
  unfold evInterrupt State.when; dsimp only; (repeat' split) <;> simp
@[simp] theorem raiseVec_flt (ep v : Nat) : (raiseVec ep v s).flt = s.flt := by unfold raiseVec; (repeat' split) <;> simp
@[simp] theorem evInterrupt_flt (q : Nat) : (evInterrupt q s).flt = s.flt := by
  unfold evInterrupt State.when; dsimp only; (repeat' split) <;> simp
@[simp] theorem raiseVec_tel (ep v : Nat) : (raiseVec ep v s).tel = s.tel := by unfold raiseVec; (repeat' split) <;> simp
@[simp] theorem evInterrupt_tel (q : Nat) : (evInterrupt q s).tel = s.tel := by
  unfold evInterrupt State.when; dsimp only; (repeat' split) <;> simp
@[simp] theorem raiseVec_glr (ep v : Nat) : (raiseVec ep v s).glr = s.glr := by unfold raiseVec; (repeat' split) <;> simp
@[simp] theorem evInterrupt_glr (q : Nat) : (evInterrupt q s).glr = s.glr := by
  unfold evInterrupt State.when; dsimp only; (repeat' split) <;> simp
@[simp] theorem raiseVec_pwr (ep v : Nat) : (raiseVec ep v s).pwr = s.pwr := by unfold raiseVec; (repeat' split) <;> simp
@[simp] theorem evInterrupt_pwr (q : Nat) : (evInterrupt q s).pwr = s.pwr := by
  unfold evInterrupt State.when; dsimp only; (repeat' split) <;> simp
@[simp] theorem raiseVec_rst (ep v : Nat) : (raiseVec ep v s).rst = s.rst := by unfold raiseVec; (repeat' split) <;> simp
@[simp] theorem evInterrupt_rst (q : Nat) : (evInterrupt q s).rst = s.rst := by
  unfold evInterrupt State.when; dsimp only; (repeat' split) <;> simp
@[simp] theorem raiseVec_i3c (ep v : Nat) : (raiseVec ep v s).i3c = s.i3c := by unfold raiseVec; (repeat' split) <;> simp
@[simp] theorem evInterrupt_i3c (q : Nat) : (evInterrupt q s).i3c = s.i3c := by
  unfold evInterrupt State.when; dsimp only; (repeat' split) <;> simp
@[simp] theorem raiseVec_sec (ep v : Nat) : (raiseVec ep v s).sec = s.sec := by unfold raiseVec; (repeat' split) <;> simp
@[simp] theorem evInterrupt_sec (q : Nat) : (evInterrupt q s).sec = s.sec := by
  unfold evInterrupt State.when; dsimp only; (repeat' split) <;> simp
@[simp] theorem raiseVec_dbg (ep v : Nat) : (raiseVec ep v s).dbg = s.dbg := by unfold raiseVec; (repeat' split) <;> simp
@[simp] theorem evInterrupt_dbg (q : Nat) : (evInterrupt q s).dbg = s.dbg := by
  unfold evInterrupt State.when; dsimp only; (repeat' split) <;> simp
@[simp] theorem raiseVec_pins (ep v : Nat) : (raiseVec ep v s).pins = s.pins := by unfold raiseVec; (repeat' split) <;> simp
@[simp] theorem evInterrupt_pins (q : Nat) : (evInterrupt q s).pins = s.pins := by
  unfold evInterrupt State.when; dsimp only; (repeat' split) <;> simp
@[simp] theorem raiseVec_free (ep v : Nat) : (raiseVec ep v s).free = s.free := by unfold raiseVec; (repeat' split) <;> simp
@[simp] theorem evInterrupt_free (q : Nat) : (evInterrupt q s).free = s.free := by
  unfold evInterrupt State.when; dsimp only; (repeat' split) <;> simp
@[simp] theorem raiseVec_pending (ep v : Nat) : (raiseVec ep v s).pending = s.pending := by unfold raiseVec; (repeat' split) <;> simp
@[simp] theorem evInterrupt_pending (q : Nat) : (evInterrupt q s).pending = s.pending := by
  unfold evInterrupt State.when; dsimp only; (repeat' split) <;> simp
@[simp] theorem rd_evInterrupt (q : Nat) (pg : Page) (f : Fld) : rd (evInterrupt q s) pg f = rd s pg f := rd_congr (by simp) pg f
@[simp] theorem evTrim_time (q n : Nat) : (evTrim q n s).time = s.time := by unfold evTrim; dsimp only; split <;> simp
@[simp] theorem evOverwrite_time (q n : Nat) : (evOverwrite q n s).time = s.time := by
  unfold evOverwrite; dsimp only; split <;> simp
@[simp] theorem evTrim_tick (q n : Nat) : (evTrim q n s).tick = s.tick := by unfold evTrim; dsimp only; split <;> simp
@[simp] theorem evOverwrite_tick (q n : Nat) : (evOverwrite q n s).tick = s.tick := by
  unfold evOverwrite; dsimp only; split <;> simp
@[simp] theorem evTrim_mode (q n : Nat) : (evTrim q n s).mode = s.mode := by unfold evTrim; dsimp only; split <;> simp
@[simp] theorem evOverwrite_mode (q n : Nat) : (evOverwrite q n s).mode = s.mode := by
  unfold evOverwrite; dsimp only; split <;> simp
@[simp] theorem evTrim_rwe (q n : Nat) : (evTrim q n s).rwe = s.rwe := by unfold evTrim; dsimp only; split <;> simp
@[simp] theorem evOverwrite_rwe (q n : Nat) : (evOverwrite q n s).rwe = s.rwe := by
  unfold evOverwrite; dsimp only; split <;> simp
@[simp] theorem evTrim_ftm (q n : Nat) : (evTrim q n s).ftm = s.ftm := by unfold evTrim; dsimp only; split <;> simp
@[simp] theorem evOverwrite_ftm (q n : Nat) : (evOverwrite q n s).ftm = s.ftm := by
  unfold evOverwrite; dsimp only; split <;> simp
@[simp] theorem evTrim_sched (q n : Nat) : (evTrim q n s).sched = s.sched := by unfold evTrim; dsimp only; split <;> simp
@[simp] theorem evOverwrite_sched (q n : Nat) : (evOverwrite q n s).sched = s.sched := by
  unfold evOverwrite; dsimp only; split <;> simp
@[simp] theorem evTrim_trail (q n : Nat) : (evTrim q n s).trail = s.trail := by unfold evTrim; dsimp only; split <;> simp
@[simp] theorem evOverwrite_trail (q n : Nat) : (evOverwrite q n s).trail = s.trail := by
  unfold evOverwrite; dsimp only; split <;> simp
@[simp] theorem evTrim_ports (q n : Nat) : (evTrim q n s).ports = s.ports := by unfold evTrim; dsimp only; split <;> simp
@[simp] theorem evOverwrite_ports (q n : Nat) : (evOverwrite q n s).ports = s.ports := by
  unfold evOverwrite; dsimp only; split <;> simp
@[simp] theorem evTrim_core (q n : Nat) : (evTrim q n s).core = s.core := by unfold evTrim; dsimp only; split <;> simp
@[simp] theorem evOverwrite_core (q n : Nat) : (evOverwrite q n s).core = s.core := by
  unfold evOverwrite; dsimp only; split <;> simp
@[simp] theorem evTrim_maps (q n : Nat) : (evTrim q n s).maps = s.maps := by unfold evTrim; dsimp only; split <;> simp
@[simp] theorem evOverwrite_maps (q n : Nat) : (evOverwrite q n s).maps = s.maps := by
  unfold evOverwrite; dsimp only; split <;> simp
@[simp] theorem evTrim_parts (q n : Nat) : (evTrim q n s).parts = s.parts := by unfold evTrim; dsimp only; split <;> simp
@[simp] theorem evOverwrite_parts (q n : Nat) : (evOverwrite q n s).parts = s.parts := by
  unfold evOverwrite; dsimp only; split <;> simp
@[simp] theorem evTrim_wab (q n : Nat) : (evTrim q n s).wab = s.wab := by unfold evTrim; dsimp only; split <;> simp
@[simp] theorem evOverwrite_wab (q n : Nat) : (evOverwrite q n s).wab = s.wab := by
  unfold evOverwrite; dsimp only; split <;> simp
@[simp] theorem evTrim_home (q n : Nat) : (evTrim q n s).home = s.home := by unfold evTrim; dsimp only; split <;> simp
@[simp] theorem evOverwrite_home (q n : Nat) : (evOverwrite q n s).home = s.home := by
  unfold evOverwrite; dsimp only; split <;> simp
@[simp] theorem evTrim_egr (q n : Nat) : (evTrim q n s).egr = s.egr := by unfold evTrim; dsimp only; split <;> simp
@[simp] theorem evOverwrite_egr (q n : Nat) : (evOverwrite q n s).egr = s.egr := by
  unfold evOverwrite; dsimp only; split <;> simp
@[simp] theorem evTrim_flt (q n : Nat) : (evTrim q n s).flt = s.flt := by unfold evTrim; dsimp only; split <;> simp
@[simp] theorem evOverwrite_flt (q n : Nat) : (evOverwrite q n s).flt = s.flt := by
  unfold evOverwrite; dsimp only; split <;> simp
@[simp] theorem evTrim_tel (q n : Nat) : (evTrim q n s).tel = s.tel := by unfold evTrim; dsimp only; split <;> simp
@[simp] theorem evOverwrite_tel (q n : Nat) : (evOverwrite q n s).tel = s.tel := by
  unfold evOverwrite; dsimp only; split <;> simp
@[simp] theorem evTrim_glr (q n : Nat) : (evTrim q n s).glr = s.glr := by unfold evTrim; dsimp only; split <;> simp
@[simp] theorem evOverwrite_glr (q n : Nat) : (evOverwrite q n s).glr = s.glr := by
  unfold evOverwrite; dsimp only; split <;> simp
@[simp] theorem evTrim_pwr (q n : Nat) : (evTrim q n s).pwr = s.pwr := by unfold evTrim; dsimp only; split <;> simp
@[simp] theorem evOverwrite_pwr (q n : Nat) : (evOverwrite q n s).pwr = s.pwr := by
  unfold evOverwrite; dsimp only; split <;> simp
@[simp] theorem evTrim_rst (q n : Nat) : (evTrim q n s).rst = s.rst := by unfold evTrim; dsimp only; split <;> simp
@[simp] theorem evOverwrite_rst (q n : Nat) : (evOverwrite q n s).rst = s.rst := by
  unfold evOverwrite; dsimp only; split <;> simp
@[simp] theorem evTrim_i3c (q n : Nat) : (evTrim q n s).i3c = s.i3c := by unfold evTrim; dsimp only; split <;> simp
@[simp] theorem evOverwrite_i3c (q n : Nat) : (evOverwrite q n s).i3c = s.i3c := by
  unfold evOverwrite; dsimp only; split <;> simp
@[simp] theorem evTrim_sec (q n : Nat) : (evTrim q n s).sec = s.sec := by unfold evTrim; dsimp only; split <;> simp
@[simp] theorem evOverwrite_sec (q n : Nat) : (evOverwrite q n s).sec = s.sec := by
  unfold evOverwrite; dsimp only; split <;> simp
@[simp] theorem evTrim_dbg (q n : Nat) : (evTrim q n s).dbg = s.dbg := by unfold evTrim; dsimp only; split <;> simp
@[simp] theorem evOverwrite_dbg (q n : Nat) : (evOverwrite q n s).dbg = s.dbg := by
  unfold evOverwrite; dsimp only; split <;> simp
@[simp] theorem evTrim_pins (q n : Nat) : (evTrim q n s).pins = s.pins := by unfold evTrim; dsimp only; split <;> simp
@[simp] theorem evOverwrite_pins (q n : Nat) : (evOverwrite q n s).pins = s.pins := by
  unfold evOverwrite; dsimp only; split <;> simp
@[simp] theorem evTrim_free (q n : Nat) : (evTrim q n s).free = s.free := by unfold evTrim; dsimp only; split <;> simp
@[simp] theorem evOverwrite_free (q n : Nat) : (evOverwrite q n s).free = s.free := by
  unfold evOverwrite; dsimp only; split <;> simp
@[simp] theorem evTrim_out (q n : Nat) : (evTrim q n s).out = s.out := by unfold evTrim; dsimp only; split <;> simp
@[simp] theorem evOverwrite_out (q n : Nat) : (evOverwrite q n s).out = s.out := by
  unfold evOverwrite; dsimp only; split <;> simp
@[simp] theorem evTrim_pending (q n : Nat) : (evTrim q n s).pending = s.pending := by unfold evTrim; dsimp only; split <;> simp
@[simp] theorem evOverwrite_pending (q n : Nat) : (evOverwrite q n s).pending = s.pending := by
  unfold evOverwrite; dsimp only; split <;> simp
@[simp] theorem postC_time (b : Bool) (q typ : Nat) (l : List (Nat × Nat)) : (postC b q typ l s).time = s.time := by
  unfold postC State.when; dsimp only; split <;> (try split) <;> simp
@[simp] theorem post_time (q typ : Nat) (l : List (Nat × Nat)) : (post q typ l s).time = s.time := postC_time s false q typ l
@[simp] theorem postC_tick (b : Bool) (q typ : Nat) (l : List (Nat × Nat)) : (postC b q typ l s).tick = s.tick := by
  unfold postC State.when; dsimp only; split <;> (try split) <;> simp
@[simp] theorem post_tick (q typ : Nat) (l : List (Nat × Nat)) : (post q typ l s).tick = s.tick := postC_tick s false q typ l
@[simp] theorem postC_mode (b : Bool) (q typ : Nat) (l : List (Nat × Nat)) : (postC b q typ l s).mode = s.mode := by
  unfold postC State.when; dsimp only; split <;> (try split) <;> simp
@[simp] theorem post_mode (q typ : Nat) (l : List (Nat × Nat)) : (post q typ l s).mode = s.mode := postC_mode s false q typ l
@[simp] theorem postC_rwe (b : Bool) (q typ : Nat) (l : List (Nat × Nat)) : (postC b q typ l s).rwe = s.rwe := by
  unfold postC State.when; dsimp only; split <;> (try split) <;> simp
@[simp] theorem post_rwe (q typ : Nat) (l : List (Nat × Nat)) : (post q typ l s).rwe = s.rwe := postC_rwe s false q typ l
@[simp] theorem postC_ftm (b : Bool) (q typ : Nat) (l : List (Nat × Nat)) : (postC b q typ l s).ftm = s.ftm := by
  unfold postC State.when; dsimp only; split <;> (try split) <;> simp
@[simp] theorem post_ftm (q typ : Nat) (l : List (Nat × Nat)) : (post q typ l s).ftm = s.ftm := postC_ftm s false q typ l
@[simp] theorem postC_sched (b : Bool) (q typ : Nat) (l : List (Nat × Nat)) : (postC b q typ l s).sched = s.sched := by
  unfold postC State.when; dsimp only; split <;> (try split) <;> simp
@[simp] theorem post_sched (q typ : Nat) (l : List (Nat × Nat)) : (post q typ l s).sched = s.sched := postC_sched s false q typ l
@[simp] theorem postC_trail (b : Bool) (q typ : Nat) (l : List (Nat × Nat)) : (postC b q typ l s).trail = s.trail := by
  unfold postC State.when; dsimp only; split <;> (try split) <;> simp
@[simp] theorem post_trail (q typ : Nat) (l : List (Nat × Nat)) : (post q typ l s).trail = s.trail := postC_trail s false q typ l
@[simp] theorem postC_ports (b : Bool) (q typ : Nat) (l : List (Nat × Nat)) : (postC b q typ l s).ports = s.ports := by
  unfold postC State.when; dsimp only; split <;> (try split) <;> simp
@[simp] theorem post_ports (q typ : Nat) (l : List (Nat × Nat)) : (post q typ l s).ports = s.ports := postC_ports s false q typ l
@[simp] theorem postC_core (b : Bool) (q typ : Nat) (l : List (Nat × Nat)) : (postC b q typ l s).core = s.core := by
  unfold postC State.when; dsimp only; split <;> (try split) <;> simp
@[simp] theorem post_core (q typ : Nat) (l : List (Nat × Nat)) : (post q typ l s).core = s.core := postC_core s false q typ l
@[simp] theorem postC_maps (b : Bool) (q typ : Nat) (l : List (Nat × Nat)) : (postC b q typ l s).maps = s.maps := by
  unfold postC State.when; dsimp only; split <;> (try split) <;> simp
@[simp] theorem post_maps (q typ : Nat) (l : List (Nat × Nat)) : (post q typ l s).maps = s.maps := postC_maps s false q typ l
@[simp] theorem postC_parts (b : Bool) (q typ : Nat) (l : List (Nat × Nat)) : (postC b q typ l s).parts = s.parts := by
  unfold postC State.when; dsimp only; split <;> (try split) <;> simp
@[simp] theorem post_parts (q typ : Nat) (l : List (Nat × Nat)) : (post q typ l s).parts = s.parts := postC_parts s false q typ l
@[simp] theorem postC_wab (b : Bool) (q typ : Nat) (l : List (Nat × Nat)) : (postC b q typ l s).wab = s.wab := by
  unfold postC State.when; dsimp only; split <;> (try split) <;> simp
@[simp] theorem post_wab (q typ : Nat) (l : List (Nat × Nat)) : (post q typ l s).wab = s.wab := postC_wab s false q typ l
@[simp] theorem postC_home (b : Bool) (q typ : Nat) (l : List (Nat × Nat)) : (postC b q typ l s).home = s.home := by
  unfold postC State.when; dsimp only; split <;> (try split) <;> simp
@[simp] theorem post_home (q typ : Nat) (l : List (Nat × Nat)) : (post q typ l s).home = s.home := postC_home s false q typ l
@[simp] theorem postC_egr (b : Bool) (q typ : Nat) (l : List (Nat × Nat)) : (postC b q typ l s).egr = s.egr := by
  unfold postC State.when; dsimp only; split <;> (try split) <;> simp
@[simp] theorem post_egr (q typ : Nat) (l : List (Nat × Nat)) : (post q typ l s).egr = s.egr := postC_egr s false q typ l
@[simp] theorem postC_flt (b : Bool) (q typ : Nat) (l : List (Nat × Nat)) : (postC b q typ l s).flt = s.flt := by
  unfold postC State.when; dsimp only; split <;> (try split) <;> simp
@[simp] theorem post_flt (q typ : Nat) (l : List (Nat × Nat)) : (post q typ l s).flt = s.flt := postC_flt s false q typ l
@[simp] theorem postC_tel (b : Bool) (q typ : Nat) (l : List (Nat × Nat)) : (postC b q typ l s).tel = s.tel := by
  unfold postC State.when; dsimp only; split <;> (try split) <;> simp
@[simp] theorem post_tel (q typ : Nat) (l : List (Nat × Nat)) : (post q typ l s).tel = s.tel := postC_tel s false q typ l
@[simp] theorem postC_glr (b : Bool) (q typ : Nat) (l : List (Nat × Nat)) : (postC b q typ l s).glr = s.glr := by
  unfold postC State.when; dsimp only; split <;> (try split) <;> simp
@[simp] theorem post_glr (q typ : Nat) (l : List (Nat × Nat)) : (post q typ l s).glr = s.glr := postC_glr s false q typ l
@[simp] theorem postC_pwr (b : Bool) (q typ : Nat) (l : List (Nat × Nat)) : (postC b q typ l s).pwr = s.pwr := by
  unfold postC State.when; dsimp only; split <;> (try split) <;> simp
@[simp] theorem post_pwr (q typ : Nat) (l : List (Nat × Nat)) : (post q typ l s).pwr = s.pwr := postC_pwr s false q typ l
@[simp] theorem postC_rst (b : Bool) (q typ : Nat) (l : List (Nat × Nat)) : (postC b q typ l s).rst = s.rst := by
  unfold postC State.when; dsimp only; split <;> (try split) <;> simp
@[simp] theorem post_rst (q typ : Nat) (l : List (Nat × Nat)) : (post q typ l s).rst = s.rst := postC_rst s false q typ l
@[simp] theorem postC_i3c (b : Bool) (q typ : Nat) (l : List (Nat × Nat)) : (postC b q typ l s).i3c = s.i3c := by
  unfold postC State.when; dsimp only; split <;> (try split) <;> simp
@[simp] theorem post_i3c (q typ : Nat) (l : List (Nat × Nat)) : (post q typ l s).i3c = s.i3c := postC_i3c s false q typ l
@[simp] theorem postC_sec (b : Bool) (q typ : Nat) (l : List (Nat × Nat)) : (postC b q typ l s).sec = s.sec := by
  unfold postC State.when; dsimp only; split <;> (try split) <;> simp
@[simp] theorem post_sec (q typ : Nat) (l : List (Nat × Nat)) : (post q typ l s).sec = s.sec := postC_sec s false q typ l
@[simp] theorem postC_dbg (b : Bool) (q typ : Nat) (l : List (Nat × Nat)) : (postC b q typ l s).dbg = s.dbg := by
  unfold postC State.when; dsimp only; split <;> (try split) <;> simp
@[simp] theorem post_dbg (q typ : Nat) (l : List (Nat × Nat)) : (post q typ l s).dbg = s.dbg := postC_dbg s false q typ l
@[simp] theorem postC_pins (b : Bool) (q typ : Nat) (l : List (Nat × Nat)) : (postC b q typ l s).pins = s.pins := by
  unfold postC State.when; dsimp only; split <;> (try split) <;> simp
@[simp] theorem post_pins (q typ : Nat) (l : List (Nat × Nat)) : (post q typ l s).pins = s.pins := postC_pins s false q typ l
@[simp] theorem postC_free (b : Bool) (q typ : Nat) (l : List (Nat × Nat)) : (postC b q typ l s).free = s.free := by
  unfold postC State.when; dsimp only; split <;> (try split) <;> simp
@[simp] theorem post_free (q typ : Nat) (l : List (Nat × Nat)) : (post q typ l s).free = s.free := postC_free s false q typ l
@[simp] theorem postC_pending (b : Bool) (q typ : Nat) (l : List (Nat × Nat)) : (postC b q typ l s).pending = s.pending := by
  unfold postC State.when; dsimp only; split <;> (try split) <;> simp
@[simp] theorem post_pending (q typ : Nat) (l : List (Nat × Nat)) : (post q typ l s).pending = s.pending := postC_pending s false q typ l

/-- Posting an event writes no page but that of its queue. -/
theorem rd_postC (b : Bool) (q typ : Nat) (l : List (Nat × Nat)) {pg : Page} {f : Fld} (h : (Page.evq q).base ≠ pg.base)
    (hf : f.off * 8 + f.lo < 0x8000) : rd (postC b q typ l s) pg f = rd s pg f := by
  have e (v t) : rd (wr (.evq q) F.MQ_EVQ_NEXT_SEQ v t) pg f = rd t pg f := rd_wr_page t v h (by decide) hf
  have e' (v t) : rd (wr (.evq q) F.MQ_EVQ_LOST_EVQ_LOST v t) pg f = rd t pg f := rd_wr_page t v h (by decide) hf
  have tr (n) (u : State) : rd (evTrim q n u) pg f = rd u pg f := by
    unfold evTrim; dsimp only; split
    · rfl
    · simp [bumpBy, e']
  have ov (n) : rd (evOverwrite q n s) pg f = rd s pg f := by
    unfold evOverwrite; dsimp only; split
    · rfl
    · simp [tr]
  unfold postC State.when; dsimp only; split <;> (try split) <;> simp [e, ov]

theorem rd_post (q typ : Nat) (l : List (Nat × Nat)) {pg : Page} {f : Fld} (h : (Page.evq q).base ≠ pg.base)
    (hf : f.off * 8 + f.lo < 0x8000) : rd (post q typ l s) pg f = rd s pg f := rd_postC s false q typ l h hf

/-! ### Completions -/

@[simp] theorem cqPut_time (c : Cpl) : (cqPut c s).time = s.time := by unfold cqPut State.when; dsimp only; split <;> simp
@[simp] theorem cqWrite_time (c : Cpl) (l : List Cpl) : (cqWrite c l s).time = s.time := by
  unfold cqWrite; dsimp only; split <;> simp [qHalt]
@[simp] theorem cplOut_time (c : Cpl) : (cplOut c s).time = s.time := by
  unfold cplOut; dsimp only; (repeat' split) <;> simp
@[simp] theorem complete_time (c : Ctx) (op st a b : Nat) : (complete c op st a b s).time = s.time := by
  unfold complete; dsimp only; (repeat' split) <;> simp
@[simp] theorem finish_time (c : Ctx) (op st : Nat) : (finish c op st s).time = s.time := complete_time s c op st 0 0
@[simp] theorem cqPut_tick (c : Cpl) : (cqPut c s).tick = s.tick := by unfold cqPut State.when; dsimp only; split <;> simp
@[simp] theorem cqWrite_tick (c : Cpl) (l : List Cpl) : (cqWrite c l s).tick = s.tick := by
  unfold cqWrite; dsimp only; split <;> simp [qHalt]
@[simp] theorem cplOut_tick (c : Cpl) : (cplOut c s).tick = s.tick := by
  unfold cplOut; dsimp only; (repeat' split) <;> simp
@[simp] theorem complete_tick (c : Ctx) (op st a b : Nat) : (complete c op st a b s).tick = s.tick := by
  unfold complete; dsimp only; (repeat' split) <;> simp
@[simp] theorem finish_tick (c : Ctx) (op st : Nat) : (finish c op st s).tick = s.tick := complete_tick s c op st 0 0
@[simp] theorem cqPut_mode (c : Cpl) : (cqPut c s).mode = s.mode := by unfold cqPut State.when; dsimp only; split <;> simp
@[simp] theorem cqWrite_mode (c : Cpl) (l : List Cpl) : (cqWrite c l s).mode = s.mode := by
  unfold cqWrite; dsimp only; split <;> simp [qHalt]
@[simp] theorem cplOut_mode (c : Cpl) : (cplOut c s).mode = s.mode := by
  unfold cplOut; dsimp only; (repeat' split) <;> simp
@[simp] theorem complete_mode (c : Ctx) (op st a b : Nat) : (complete c op st a b s).mode = s.mode := by
  unfold complete; dsimp only; (repeat' split) <;> simp
@[simp] theorem finish_mode (c : Ctx) (op st : Nat) : (finish c op st s).mode = s.mode := complete_mode s c op st 0 0
@[simp] theorem cqPut_rwe (c : Cpl) : (cqPut c s).rwe = s.rwe := by unfold cqPut State.when; dsimp only; split <;> simp
@[simp] theorem cqWrite_rwe (c : Cpl) (l : List Cpl) : (cqWrite c l s).rwe = s.rwe := by
  unfold cqWrite; dsimp only; split <;> simp [qHalt]
@[simp] theorem cplOut_rwe (c : Cpl) : (cplOut c s).rwe = s.rwe := by
  unfold cplOut; dsimp only; (repeat' split) <;> simp
@[simp] theorem complete_rwe (c : Ctx) (op st a b : Nat) : (complete c op st a b s).rwe = s.rwe := by
  unfold complete; dsimp only; (repeat' split) <;> simp
@[simp] theorem finish_rwe (c : Ctx) (op st : Nat) : (finish c op st s).rwe = s.rwe := complete_rwe s c op st 0 0
@[simp] theorem cqPut_ftm (c : Cpl) : (cqPut c s).ftm = s.ftm := by unfold cqPut State.when; dsimp only; split <;> simp
@[simp] theorem cqWrite_ftm (c : Cpl) (l : List Cpl) : (cqWrite c l s).ftm = s.ftm := by
  unfold cqWrite; dsimp only; split <;> simp [qHalt]
@[simp] theorem cplOut_ftm (c : Cpl) : (cplOut c s).ftm = s.ftm := by
  unfold cplOut; dsimp only; (repeat' split) <;> simp
@[simp] theorem complete_ftm (c : Ctx) (op st a b : Nat) : (complete c op st a b s).ftm = s.ftm := by
  unfold complete; dsimp only; (repeat' split) <;> simp
@[simp] theorem finish_ftm (c : Ctx) (op st : Nat) : (finish c op st s).ftm = s.ftm := complete_ftm s c op st 0 0
@[simp] theorem cqPut_sched (c : Cpl) : (cqPut c s).sched = s.sched := by unfold cqPut State.when; dsimp only; split <;> simp
@[simp] theorem cqWrite_sched (c : Cpl) (l : List Cpl) : (cqWrite c l s).sched = s.sched := by
  unfold cqWrite; dsimp only; split <;> simp [qHalt]
@[simp] theorem cplOut_sched (c : Cpl) : (cplOut c s).sched = s.sched := by
  unfold cplOut; dsimp only; (repeat' split) <;> simp
@[simp] theorem complete_sched (c : Ctx) (op st a b : Nat) : (complete c op st a b s).sched = s.sched := by
  unfold complete; dsimp only; (repeat' split) <;> simp
@[simp] theorem finish_sched (c : Ctx) (op st : Nat) : (finish c op st s).sched = s.sched := complete_sched s c op st 0 0
@[simp] theorem cqPut_trail (c : Cpl) : (cqPut c s).trail = s.trail := by unfold cqPut State.when; dsimp only; split <;> simp
@[simp] theorem cqWrite_trail (c : Cpl) (l : List Cpl) : (cqWrite c l s).trail = s.trail := by
  unfold cqWrite; dsimp only; split <;> simp [qHalt]
@[simp] theorem cplOut_trail (c : Cpl) : (cplOut c s).trail = s.trail := by
  unfold cplOut; dsimp only; (repeat' split) <;> simp
@[simp] theorem complete_trail (c : Ctx) (op st a b : Nat) : (complete c op st a b s).trail = s.trail := by
  unfold complete; dsimp only; (repeat' split) <;> simp
@[simp] theorem finish_trail (c : Ctx) (op st : Nat) : (finish c op st s).trail = s.trail := complete_trail s c op st 0 0
@[simp] theorem cqPut_ports (c : Cpl) : (cqPut c s).ports = s.ports := by unfold cqPut State.when; dsimp only; split <;> simp
@[simp] theorem cqWrite_ports (c : Cpl) (l : List Cpl) : (cqWrite c l s).ports = s.ports := by
  unfold cqWrite; dsimp only; split <;> simp [qHalt]
@[simp] theorem cplOut_ports (c : Cpl) : (cplOut c s).ports = s.ports := by
  unfold cplOut; dsimp only; (repeat' split) <;> simp
@[simp] theorem complete_ports (c : Ctx) (op st a b : Nat) : (complete c op st a b s).ports = s.ports := by
  unfold complete; dsimp only; (repeat' split) <;> simp
@[simp] theorem finish_ports (c : Ctx) (op st : Nat) : (finish c op st s).ports = s.ports := complete_ports s c op st 0 0
@[simp] theorem cqPut_core (c : Cpl) : (cqPut c s).core = s.core := by unfold cqPut State.when; dsimp only; split <;> simp
@[simp] theorem cqWrite_core (c : Cpl) (l : List Cpl) : (cqWrite c l s).core = s.core := by
  unfold cqWrite; dsimp only; split <;> simp [qHalt]
@[simp] theorem cplOut_core (c : Cpl) : (cplOut c s).core = s.core := by
  unfold cplOut; dsimp only; (repeat' split) <;> simp
@[simp] theorem complete_core (c : Ctx) (op st a b : Nat) : (complete c op st a b s).core = s.core := by
  unfold complete; dsimp only; (repeat' split) <;> simp
@[simp] theorem finish_core (c : Ctx) (op st : Nat) : (finish c op st s).core = s.core := complete_core s c op st 0 0
@[simp] theorem cqPut_maps (c : Cpl) : (cqPut c s).maps = s.maps := by unfold cqPut State.when; dsimp only; split <;> simp
@[simp] theorem cqWrite_maps (c : Cpl) (l : List Cpl) : (cqWrite c l s).maps = s.maps := by
  unfold cqWrite; dsimp only; split <;> simp [qHalt]
@[simp] theorem cplOut_maps (c : Cpl) : (cplOut c s).maps = s.maps := by
  unfold cplOut; dsimp only; (repeat' split) <;> simp
@[simp] theorem complete_maps (c : Ctx) (op st a b : Nat) : (complete c op st a b s).maps = s.maps := by
  unfold complete; dsimp only; (repeat' split) <;> simp
@[simp] theorem finish_maps (c : Ctx) (op st : Nat) : (finish c op st s).maps = s.maps := complete_maps s c op st 0 0
@[simp] theorem cqPut_parts (c : Cpl) : (cqPut c s).parts = s.parts := by unfold cqPut State.when; dsimp only; split <;> simp
@[simp] theorem cqWrite_parts (c : Cpl) (l : List Cpl) : (cqWrite c l s).parts = s.parts := by
  unfold cqWrite; dsimp only; split <;> simp [qHalt]
@[simp] theorem cplOut_parts (c : Cpl) : (cplOut c s).parts = s.parts := by
  unfold cplOut; dsimp only; (repeat' split) <;> simp
@[simp] theorem complete_parts (c : Ctx) (op st a b : Nat) : (complete c op st a b s).parts = s.parts := by
  unfold complete; dsimp only; (repeat' split) <;> simp
@[simp] theorem finish_parts (c : Ctx) (op st : Nat) : (finish c op st s).parts = s.parts := complete_parts s c op st 0 0
@[simp] theorem cqPut_wab (c : Cpl) : (cqPut c s).wab = s.wab := by unfold cqPut State.when; dsimp only; split <;> simp
@[simp] theorem cqWrite_wab (c : Cpl) (l : List Cpl) : (cqWrite c l s).wab = s.wab := by
  unfold cqWrite; dsimp only; split <;> simp [qHalt]
@[simp] theorem cplOut_wab (c : Cpl) : (cplOut c s).wab = s.wab := by
  unfold cplOut; dsimp only; (repeat' split) <;> simp
@[simp] theorem complete_wab (c : Ctx) (op st a b : Nat) : (complete c op st a b s).wab = s.wab := by
  unfold complete; dsimp only; (repeat' split) <;> simp
@[simp] theorem finish_wab (c : Ctx) (op st : Nat) : (finish c op st s).wab = s.wab := complete_wab s c op st 0 0
@[simp] theorem cqPut_home (c : Cpl) : (cqPut c s).home = s.home := by unfold cqPut State.when; dsimp only; split <;> simp
@[simp] theorem cqWrite_home (c : Cpl) (l : List Cpl) : (cqWrite c l s).home = s.home := by
  unfold cqWrite; dsimp only; split <;> simp [qHalt]
@[simp] theorem cplOut_home (c : Cpl) : (cplOut c s).home = s.home := by
  unfold cplOut; dsimp only; (repeat' split) <;> simp
@[simp] theorem complete_home (c : Ctx) (op st a b : Nat) : (complete c op st a b s).home = s.home := by
  unfold complete; dsimp only; (repeat' split) <;> simp
@[simp] theorem finish_home (c : Ctx) (op st : Nat) : (finish c op st s).home = s.home := complete_home s c op st 0 0
@[simp] theorem cqPut_egr (c : Cpl) : (cqPut c s).egr = s.egr := by unfold cqPut State.when; dsimp only; split <;> simp
@[simp] theorem cqWrite_egr (c : Cpl) (l : List Cpl) : (cqWrite c l s).egr = s.egr := by
  unfold cqWrite; dsimp only; split <;> simp [qHalt]
@[simp] theorem cplOut_egr (c : Cpl) : (cplOut c s).egr = s.egr := by
  unfold cplOut; dsimp only; (repeat' split) <;> simp
@[simp] theorem complete_egr (c : Ctx) (op st a b : Nat) : (complete c op st a b s).egr = s.egr := by
  unfold complete; dsimp only; (repeat' split) <;> simp
@[simp] theorem finish_egr (c : Ctx) (op st : Nat) : (finish c op st s).egr = s.egr := complete_egr s c op st 0 0
@[simp] theorem cqPut_flt (c : Cpl) : (cqPut c s).flt = s.flt := by unfold cqPut State.when; dsimp only; split <;> simp
@[simp] theorem cqWrite_flt (c : Cpl) (l : List Cpl) : (cqWrite c l s).flt = s.flt := by
  unfold cqWrite; dsimp only; split <;> simp [qHalt]
@[simp] theorem cplOut_flt (c : Cpl) : (cplOut c s).flt = s.flt := by
  unfold cplOut; dsimp only; (repeat' split) <;> simp
@[simp] theorem complete_flt (c : Ctx) (op st a b : Nat) : (complete c op st a b s).flt = s.flt := by
  unfold complete; dsimp only; (repeat' split) <;> simp
@[simp] theorem finish_flt (c : Ctx) (op st : Nat) : (finish c op st s).flt = s.flt := complete_flt s c op st 0 0
@[simp] theorem cqPut_tel (c : Cpl) : (cqPut c s).tel = s.tel := by unfold cqPut State.when; dsimp only; split <;> simp
@[simp] theorem cqWrite_tel (c : Cpl) (l : List Cpl) : (cqWrite c l s).tel = s.tel := by
  unfold cqWrite; dsimp only; split <;> simp [qHalt]
@[simp] theorem cplOut_tel (c : Cpl) : (cplOut c s).tel = s.tel := by
  unfold cplOut; dsimp only; (repeat' split) <;> simp
@[simp] theorem complete_tel (c : Ctx) (op st a b : Nat) : (complete c op st a b s).tel = s.tel := by
  unfold complete; dsimp only; (repeat' split) <;> simp
@[simp] theorem finish_tel (c : Ctx) (op st : Nat) : (finish c op st s).tel = s.tel := complete_tel s c op st 0 0
@[simp] theorem cqPut_glr (c : Cpl) : (cqPut c s).glr = s.glr := by unfold cqPut State.when; dsimp only; split <;> simp
@[simp] theorem cqWrite_glr (c : Cpl) (l : List Cpl) : (cqWrite c l s).glr = s.glr := by
  unfold cqWrite; dsimp only; split <;> simp [qHalt]
@[simp] theorem cplOut_glr (c : Cpl) : (cplOut c s).glr = s.glr := by
  unfold cplOut; dsimp only; (repeat' split) <;> simp
@[simp] theorem complete_glr (c : Ctx) (op st a b : Nat) : (complete c op st a b s).glr = s.glr := by
  unfold complete; dsimp only; (repeat' split) <;> simp
@[simp] theorem finish_glr (c : Ctx) (op st : Nat) : (finish c op st s).glr = s.glr := complete_glr s c op st 0 0
@[simp] theorem cqPut_pwr (c : Cpl) : (cqPut c s).pwr = s.pwr := by unfold cqPut State.when; dsimp only; split <;> simp
@[simp] theorem cqWrite_pwr (c : Cpl) (l : List Cpl) : (cqWrite c l s).pwr = s.pwr := by
  unfold cqWrite; dsimp only; split <;> simp [qHalt]
@[simp] theorem cplOut_pwr (c : Cpl) : (cplOut c s).pwr = s.pwr := by
  unfold cplOut; dsimp only; (repeat' split) <;> simp
@[simp] theorem complete_pwr (c : Ctx) (op st a b : Nat) : (complete c op st a b s).pwr = s.pwr := by
  unfold complete; dsimp only; (repeat' split) <;> simp
@[simp] theorem finish_pwr (c : Ctx) (op st : Nat) : (finish c op st s).pwr = s.pwr := complete_pwr s c op st 0 0
@[simp] theorem cqPut_rst (c : Cpl) : (cqPut c s).rst = s.rst := by unfold cqPut State.when; dsimp only; split <;> simp
@[simp] theorem cqWrite_rst (c : Cpl) (l : List Cpl) : (cqWrite c l s).rst = s.rst := by
  unfold cqWrite; dsimp only; split <;> simp [qHalt]
@[simp] theorem cplOut_rst (c : Cpl) : (cplOut c s).rst = s.rst := by
  unfold cplOut; dsimp only; (repeat' split) <;> simp
@[simp] theorem complete_rst (c : Ctx) (op st a b : Nat) : (complete c op st a b s).rst = s.rst := by
  unfold complete; dsimp only; (repeat' split) <;> simp
@[simp] theorem finish_rst (c : Ctx) (op st : Nat) : (finish c op st s).rst = s.rst := complete_rst s c op st 0 0
@[simp] theorem cqPut_i3c (c : Cpl) : (cqPut c s).i3c = s.i3c := by unfold cqPut State.when; dsimp only; split <;> simp
@[simp] theorem cqWrite_i3c (c : Cpl) (l : List Cpl) : (cqWrite c l s).i3c = s.i3c := by
  unfold cqWrite; dsimp only; split <;> simp [qHalt]
@[simp] theorem cplOut_i3c (c : Cpl) : (cplOut c s).i3c = s.i3c := by
  unfold cplOut; dsimp only; (repeat' split) <;> simp
@[simp] theorem complete_i3c (c : Ctx) (op st a b : Nat) : (complete c op st a b s).i3c = s.i3c := by
  unfold complete; dsimp only; (repeat' split) <;> simp
@[simp] theorem finish_i3c (c : Ctx) (op st : Nat) : (finish c op st s).i3c = s.i3c := complete_i3c s c op st 0 0
@[simp] theorem cqPut_sec (c : Cpl) : (cqPut c s).sec = s.sec := by unfold cqPut State.when; dsimp only; split <;> simp
@[simp] theorem cqWrite_sec (c : Cpl) (l : List Cpl) : (cqWrite c l s).sec = s.sec := by
  unfold cqWrite; dsimp only; split <;> simp [qHalt]
@[simp] theorem cplOut_sec (c : Cpl) : (cplOut c s).sec = s.sec := by
  unfold cplOut; dsimp only; (repeat' split) <;> simp
@[simp] theorem complete_sec (c : Ctx) (op st a b : Nat) : (complete c op st a b s).sec = s.sec := by
  unfold complete; dsimp only; (repeat' split) <;> simp
@[simp] theorem finish_sec (c : Ctx) (op st : Nat) : (finish c op st s).sec = s.sec := complete_sec s c op st 0 0
@[simp] theorem cqPut_dbg (c : Cpl) : (cqPut c s).dbg = s.dbg := by unfold cqPut State.when; dsimp only; split <;> simp
@[simp] theorem cqWrite_dbg (c : Cpl) (l : List Cpl) : (cqWrite c l s).dbg = s.dbg := by
  unfold cqWrite; dsimp only; split <;> simp [qHalt]
@[simp] theorem cplOut_dbg (c : Cpl) : (cplOut c s).dbg = s.dbg := by
  unfold cplOut; dsimp only; (repeat' split) <;> simp
@[simp] theorem complete_dbg (c : Ctx) (op st a b : Nat) : (complete c op st a b s).dbg = s.dbg := by
  unfold complete; dsimp only; (repeat' split) <;> simp
@[simp] theorem finish_dbg (c : Ctx) (op st : Nat) : (finish c op st s).dbg = s.dbg := complete_dbg s c op st 0 0
@[simp] theorem cqPut_pins (c : Cpl) : (cqPut c s).pins = s.pins := by unfold cqPut State.when; dsimp only; split <;> simp
@[simp] theorem cqWrite_pins (c : Cpl) (l : List Cpl) : (cqWrite c l s).pins = s.pins := by
  unfold cqWrite; dsimp only; split <;> simp [qHalt]
@[simp] theorem cplOut_pins (c : Cpl) : (cplOut c s).pins = s.pins := by
  unfold cplOut; dsimp only; (repeat' split) <;> simp
@[simp] theorem complete_pins (c : Ctx) (op st a b : Nat) : (complete c op st a b s).pins = s.pins := by
  unfold complete; dsimp only; (repeat' split) <;> simp
@[simp] theorem finish_pins (c : Ctx) (op st : Nat) : (finish c op st s).pins = s.pins := complete_pins s c op st 0 0
@[simp] theorem cqPut_free (c : Cpl) : (cqPut c s).free = s.free := by unfold cqPut State.when; dsimp only; split <;> simp
@[simp] theorem cqWrite_free (c : Cpl) (l : List Cpl) : (cqWrite c l s).free = s.free := by
  unfold cqWrite; dsimp only; split <;> simp [qHalt]
@[simp] theorem cplOut_free (c : Cpl) : (cplOut c s).free = s.free := by
  unfold cplOut; dsimp only; (repeat' split) <;> simp
@[simp] theorem complete_free (c : Ctx) (op st a b : Nat) : (complete c op st a b s).free = s.free := by
  unfold complete; dsimp only; (repeat' split) <;> simp
@[simp] theorem finish_free (c : Ctx) (op st : Nat) : (finish c op st s).free = s.free := complete_free s c op st 0 0
@[simp] theorem cqPut_pending (c : Cpl) : (cqPut c s).pending = s.pending := by unfold cqPut State.when; dsimp only; split <;> simp
@[simp] theorem cqWrite_pending (c : Cpl) (l : List Cpl) : (cqWrite c l s).pending = s.pending := by
  unfold cqWrite; dsimp only; split <;> simp [qHalt]
@[simp] theorem cplOut_pending (c : Cpl) : (cplOut c s).pending = s.pending := by
  unfold cplOut; dsimp only; (repeat' split) <;> simp
@[simp] theorem complete_pending (c : Ctx) (op st a b : Nat) : (complete c op st a b s).pending = s.pending := by
  unfold complete; dsimp only; (repeat' split) <;> simp
@[simp] theorem finish_pending (c : Ctx) (op st : Nat) : (finish c op st s).pending = s.pending := complete_pending s c op st 0 0

/-- A completion writes no page but that of its queue and that of event queue 128. -/
theorem rd_complete (c : Ctx) (op st a b : Nat) {pg : Page} {f : Fld} (h : (Page.mq c.ep c.q).base ≠ pg.base)
    (h' : (Page.evq 128).base ≠ pg.base) (hf : f.off * 8 + f.lo < 0x8000) :
    rd (complete c op st a b s) pg f = rd s pg f := by
  have p (t y l) : rd (post 128 y l t) pg f = rd t pg f := rd_post t 128 y l h' hf
  have w (t : State) (g : Fld) (v) (hg : g.off * 8 + g.lo < 0x8000) : rd (wr (.mq c.ep c.q) g v t) pg f = rd t pg f :=
    rd_wr_page t v h hg hf
  have m (t : State) (m : Mq) : rd { t with mq := m } pg f = rd t pg f := rfl
  have u (t : State) (x) : rd (cqPut ⟨c, op, st, false, a, b, x⟩ t) pg f = rd t pg f := by
    unfold cqPut State.when; dsimp only
    split <;> simp [w _ F.MQ_Q_CQ_TAIL _ (by decide), w _ F.MQ_QSEQ_CPL_LAST _ (by decide)]
  have o (t : State) (x) : rd (cplOut ⟨c, op, st, false, a, b, x⟩ t) pg f = rd t pg f := by
    unfold cplOut cqWrite; dsimp only
    (repeat' split) <;> simp [qHalt, u, p, m, w _ F.MQ_Q_STS_CQ_PAUSED _ (by decide), w _ F.MQ_Q_STS_DMA_ERR _ (by decide)]
  unfold complete; dsimp only
  (repeat' split) <;> simp [p, o, m]

theorem rd_finish (c : Ctx) (op st : Nat) {pg : Page} {f : Fld} (h : (Page.mq c.ep c.q).base ≠ pg.base)
    (h' : (Page.evq 128).base ≠ pg.base) (hf : f.off * 8 + f.lo < 0x8000) :
    rd (finish c op st s) pg f = rd s pg f := rd_complete s c op st 0 0 h h' hf

/-! ### The end of a command -/

/-- Every command answers a next state, in which the queue is as it was and the pins follow the state. -/
theorem exec_done (c : Instr) (s : State) : ∃ t, exec c s = done s t := by
  cases c <;> exact ⟨_, rfl⟩

theorem done_next (s t : State) : done s t = .next (settled s.pending t) := rfl

end Sys2Proof.Machine
end

