-- ==== Sys2Proof/WellFormed.lean ====
section
/-!
DEFINITION. Sys2Proof/WellFormed.lean: the bounds of the numbers that commands carry.
-/
namespace Sys2Proof

/-- Port controllers P000 to P511 (00 Table 0.2). -/
def okPort (n : Nat) : Bool := decide (n < 512)
/-- Partitions (00 Table 0.2). -/
def okPart (n : Nat) : Bool := decide (n < 128)
/-- Tiles (01 Table 1.1). -/
def okTile (n : Nat) : Bool := decide (n < 8)
/-- Management endpoints MGA and MGB, management cores (11, 12). -/
def okEp (n : Nat) : Bool := decide (n < 2)
/-- Queues of an endpoint (11 R206). -/
def okQueue (n : Nat) : Bool := decide (n < 64)
/-- Event queues (11 R223). -/
def okEvq (n : Nat) : Bool := decide (n < 129)
/-- Virtual ports of a partition (06 R125). -/
def okVp (n : Nat) : Bool := decide (n < 64)
/-- Lanes (00 Table 0.2). -/
def okLane (n : Nat) : Bool := decide (n < 1024)
/-- Port groups (01 R22). -/
def okGroup (n : Nat) : Bool := decide (n < 64)
/-- Binding indices (06 R112). -/
def okBind (n : Nat) : Bool := decide (n < 262144)
/-- Sharing groups (08 R160). -/
def okSg (n : Nat) : Bool := decide (n < 4096)
/-- Fault source numbers (12 Table 12.1). -/
def okSrc (n : Nat) : Bool := decide (n < 2560)
/-- Module identifiers (04 Table 4.17). -/
def okModid (n : Nat) : Bool := decide (n < 254)
/-- Trail destinations (01 Table 1.6). -/
def okNi (n : Nat) : Bool := decide (n < 208)
/-- Trail routers: M0 to M3, then t.0 to t.3 of each tile (01, Topology). -/
def okRouter (n : Nat) : Bool := decide (n < 36)
/-- Groups of four controllers that share a PRSNT_N pin (03 R53). -/
def okPrsnt (n : Nat) : Bool := decide (n < 128)
/-- Output selectors of a router (01 Table 1.7). -/
def okOutSel (n : Nat) : Bool := decide (n < 8)
/-- Bank numbers: BAR0 page numbers (13 R249). -/
def okBank (n : Nat) : Bool := decide (n < 16384)
/-- Rails of the power page (15 Table 15.25). -/
def okRail (n : Nat) : Bool := decide (n < 16)
/-- Bytes. -/
def okByte (n : Nat) : Bool := decide (n < 256)
/-- One bit. -/
def okBit (n : Nat) : Bool := decide (n < 2)
/-- Key-hash slots (16). -/
def okKeySlot (n : Nat) : Bool := decide (n < 4)
/-- Points of the time-current curve, request slots of the ring (15 Table 15.4, 14 R283). -/
def okCurve (n : Nat) : Bool := decide (n < 8)
/-- The queue and place that a command names (11 R206, R207, R208). -/
def okCtx (c : Ctx) : Bool := okEp c.ep && okQueue c.q && decide (c.seq < 65536) && decide (c.sqidx < 8192)
/-- The fields of a packet fit (01 Table 1.7). -/
def okPkt (p : TPkt) : Bool := decide (p.typ < 16) && decide (p.hops < 16) && decide (p.src < 256) && decide (p.tag < 64) &&
  decide (p.len < 16)
/-- CXL.mem requests name a host physical address, configuration requests a register, and other CXL.io requests anything else
(06 R114, R126). -/
def okSpace (op : ReqOp) (sp : Space) : Bool :=
  match op, sp with
  | .memRd, .mem | .memInv, .mem | .memWr, .mem | .memWrPtl, .mem | .memClnEvct, .mem => true
  | .memRd, _ | .memInv, _ | .memWr, _ | .memWrPtl, _ | .memClnEvct, _ => false
  | .cfgRead, .dev _ | .cfgRead, .cap _ | .cfgRead, .bridge _ _ | .cfgWrite, .dev _ | .cfgWrite, .cap _
  | .cfgWrite, .bridge _ _ => true
  | .cfgRead, _ | .cfgWrite, _ => false
  | _, .mem | _, .dev _ | _, .cap _ | _, .bridge _ _ => false
  | _, _ => true
/-- A request of 1 to 4,096 bytes, to a space that its kind may name (06 R114, R361). -/
def okReq (r : Req) : Bool := decide (0 < r.size) && decide (r.size ≤ 4096) && okSpace r.op r.space
/-- Sources of a register access: MGA, MGB, the debug master (17 R320). -/
def okSource (n : Nat) : Bool := decide (n < 3)
/-- Bytes of a write: 1 to 8, of which 17 Table 17.1 takes some. -/
def okSize (n : Nat) : Bool := decide (0 < n) && decide (n ≤ 8)

/-- A command whose operands are in range. -/
def Instr.wf : Instr → Bool
  | .trailPacket router p o => okRouter router && okOutSel p.inp && okPkt p.pkt && decide (o.cred.length ≤ 4)
  | .packetAged router out => okRouter router && okOutSel out
  | .timeMessage ni _ _ _ => okNi ni
  | .niRequestTimeout ni _ => okNi ni
  | .niRtHiCommit ni _ => okNi ni
  | .domainPowerDown g => okGroup g
  | .powerDownComplete g => okGroup g
  | .boundaryPacket g p => okGroup g && okPkt p
  | .wakeStart => true
  | .wakeComplete g => okGroup g
  | .refillSlotBoundary _ _ _ => true
  | .epochBoundary _ => true
  | .fsyncEdge => true
  | .fsyncLost => true
  | .ringLost => true
  | .ftmRelock => true
  | .ringTimeLoad => true
  | .ftmCfgWrite _ => true
  | .ftmTimeLoRead => true
  | .timeSet c _ => okCtx c
  | .timeSetLoad => true
  | .timeSetExpire => true
  | .scheduledCommandFire => true
  | .ftmSchedCancel idx => okByte idx
  | .schedCancel c idx => okCtx c && okByte idx
  | .partitionRestart part => okPart part
  | .moduleWatchdogExpire => true
  | .coreWatchdogExpire core => okEp core
  | .fltWdogFeed core => okEp core
  | .phyLinkCfgWrite p _ => okPort p
  | .portCfg c lead _ => okCtx c && okPort lead
  | .portState c _ lead _ => okCtx c && okPort lead
  | .portCtl c lead _ => okCtx c && okPort lead
  | .portPm c _ lead _ => okCtx c && okPort lead
  | .linkQuiesced lead => okPort lead
  | .linkOff lead _ => okPort lead
  | .laneClr lead => okPort lead
  | .retrain lead => okPort lead
  | .perst lead _ => okPort lead
  | .linkTrained lead _ => okPort lead
  | .linkRetryTimer lead => okPort lead
  | .linkDown lead => okPort lead
  | .prsntChange group _ => okPrsnt group
  | .laneLos lane => okLane lane
  | .laneLol lane => okLane lane
  | .laneFailTimeout lane => okLane lane
  | .laneSignalRestored lane _ _ => okLane lane
  | .linkRecoveryDone x => okPort x.lead
  | .narrowEntry lead => okPort lead
  | .l0pRequest lead _ => okPort lead
  | .dozeEntry lead _ => okPort lead
  | .dozeExit lead _ => okPort lead
  | .l1Entry lead _ => okPort lead
  | .l1Exit lead => okPort lead
  | .powerStateExitDone lead _ => okPort lead
  | .marginStart p _ => okPort p
  | .margin c p _ => okCtx c && okPort p
  | .marginStepDone p _ => okPort p
  | .laneMarginCommand p lane _ => okPort p && okBit lane
  | .flitReceive lead f clk => okPort lead && decide (f.phase ≤ 2) && decide (clk < 13)
  | .flitAcknowledge lead _ _ => okPort lead
  | .replayRequest lead _ => okPort lead
  | .replayTimerExpire x => okPort x.lead
  | .egressSelect lead _ => okPort lead
  | .trunkFlitReceive lead _ f q => okPort lead && decide (f.phase ≤ 2) && decide (q.clk < 13)
  | .lnkInjArm lead _ => okPort lead
  | .inject c _ lead _ => okCtx c && okPort lead
  | .schedDecision d => okTile d.tile
  | .cellTransferDone _ _ => true
  | .bundleArrival tile peer => okTile tile && okTile peer
  | .openCellIdleClose lead => okPort lead
  | .hostRequest lead r _ => okPort lead && okReq r
  | .targetResponse lead _ _ _ _ => okPort lead
  | .bindTc idx => okBind idx
  | .bindAdd c _ idx _ _ _ _ => okCtx c && okBind idx
  | .bindDel c idx _ => okCtx c && okBind idx
  | .bindDelTimeout idx => okBind idx
  | .bindStop c _ idx => okCtx c && okBind idx
  | .bindStopped idx => okBind idx
  | .bindStart c _ idx => okCtx c && okBind idx
  | .holdTimeout _ => true
  | .dcResponse idx _ => okBind idx
  | .releaseDynamicCapacity part _ _ => okPart part
  | .decoderCommit part _ _ _ => okPart part
  | .hpAdd c part vp lead => okCtx c && okPart part && okVp vp && okPort lead
  | .hpRemove c part vp _ => okCtx c && okPart part && okVp vp
  | .hpRemoveTimeout part vp => okPart part && okVp vp
  | .slotPower part vp _ => okPart part && okVp vp
  | .wabTargetAck tile _ _ => okTile tile
  | .wabAckTimeout tile _ => okTile tile
  | .wabReissue lead => okPort lead
  | .wabDiscard c part idx => okCtx c && okPart part && okBind idx
  | .drainComplete _ => true
  | .fenceRead lead _ _ _ => okPort lead
  | .wabWaitExpire => true
  | .powerDrainWindowEnd => true
  | .plrClear => true
  | .sgCommit c group _ => okCtx c && okSg group
  | .homeSgMem3Commit _ => true
  | .loqEntry _ a => decide (a.clk < 13)
  | .loqService _ _ => true
  | .haloBcast _ _ => true
  | .haloResp _ _ => true
  | .wbAck _ _ => true
  | .haloFence _ _ => true
  | .birsp lead _ _ => okPort lead
  | .biconflict lead _ => okPort lead
  | .snoopTimeout _ => true
  | .atomicOp _ _ => true
  | .nearMemoryCompletion _ _ _ => true
  | .reserveRead _ _ => true
  | .conditionalWrite _ => true
  | .shaperSet c _ lead part _ _ _ => okCtx c && okPort lead && okPart part
  | .quantumSet c _ lead part _ _ => okCtx c && okPort lead && okPart part
  | .schedShpCfgCommit tile _ => okTile tile
  | .partStop c part => okCtx c && okPart part
  | .partBlkCtlWrite part _ => okPart part
  | .partQuiesced part => okPart part
  | .quiesceTimeout part => okPart part
  | .partRestartAt c _ part => okCtx c && okPart part
  | .partReset c part => okCtx c && okPart part
  | .partCtlReset part => okPart part
  | .hotReset lead => okPort lead
  | .partResetDone part => okPart part
  | .sqTailDoorbell ep q _ => okEp ep && okQueue q
  | .cqHeadDoorbell ep q _ => okEp ep && okQueue q
  | .qinvDoorbell ep q => okEp ep && okQueue q
  | .commandDispatch ep es _ _ => okEp ep && decide (es.length ≤ 8)
  | .queueBlkCtlWrite src ep q _ => okSource src && okEp ep && okQueue q
  | .functionLevelReset ep => okEp ep
  | .mgmtLinkLoss ep => okEp ep
  | .mgmtLinkUp ep => okEp ep
  | .nop c => okCtx c
  | .identify c => okCtx c
  | .modeSet c _ => okCtx c
  | .regRead c _ => okCtx c
  | .regWrite c _ _ _ _ => okCtx c
  | .snapshot c _ _ _ => okCtx c
  | .evqReset c queue => okCtx c && okEvq queue
  | .tableRead c _ _ _ _ _ => okCtx c
  | .evqConsumeDoorbell d _ => d.ep < 2 ∧ okEvq d.queue
  | .evqIdleTimeout queue => okEvq queue
  | .evqWindowRead ep queue => okEp ep && okEvq queue
  | .faultAssertion src part link _ => okSrc src && okPart part && okPort link
  | .wireBroken src => okSrc src
  | .wireRestored src => okSrc src
  | .fatalFreeze => true
  | .dumpWritten => true
  | .errInject _ _ => true
  | .errStickyClear _ _ => true
  | .errMaskWrite _ _ => true
  | .fltSrcReactWrite _ => true
  | .fltDsegCfgWrite _ => true
  | .dumpBufSet c _ _ => okCtx c
  | .dumpFetch c _ _ _ _ => okCtx c
  | .fwStage c _ _ _ => okCtx c
  | .fwActivate c => okCtx c
  | .fwStandbyReady => true
  | .fwStandbyTimeout => true
  | .formerCoreStandby => true
  | .flashWriteDone _ => true
  | .ctrBankClear bank => okBank bank
  | .ctrLoRead bank _ _ => okBank bank
  | .ctrFilter c bank _ _ _ => okCtx c && okBank bank
  | .tagSet c _ _ => okCtx c
  | .snapshotCollected _ => true
  | .skylightSet c _ _ => okCtx c
  | .telSkyHeadWrite _ => true
  | .lockLoss _ => true
  | .glrPortDown _ => true
  | .blockLockRegained _ => true
  | .bypassClose => true
  | .bypassOpen _ => true
  | .hello h modid => okByte modid && (h.carries 0x01 [modid, 0] || h.carries 0x01 [modid, 1])
  | .dlyReq h num _ => h.carries 0x02 [num]
  | .dlyRsp h num turnaround _ => h.carries 0x03 [num, turnaround]
  | .dlyExchangeSend => true
  | .heartbeat h b => h.carries 0x10 b.body
  | .heartbeatSend => true
  | .memberLapse modid => okModid modid
  | .time h epoch dep corr _ _ => h.carries 0x11 [epoch, dep, corr]
  | .timeSend _ => true
  | .rstReq h part slot t => h.carries 0x20 [part, slot, t]
  | .rstCancel h slot => h.carries 0x21 [slot]
  | .rstRsp h slot status final sidx => h.carries 0x22 [slot, status, final.toNat, sidx]
  | .ack h next nak resync => h.carries 0x30 [next, nak.toNat, resync.toNat]
  | .glrAckTimeout modid => okModid modid
  | .glrReplayTimeout modid => okModid modid
  | .go _ => true
  | .cancel _ => true
  | .noFinal slot => okCurve slot
  | .vinOn _ => true
  | .prechargeDone => true
  | .prechargeTimeout => true
  | .railTimeout rail => okRail rail
  | .pgIntAssert => true
  | .fastTrip => true
  | .curvePointTrip x => okCurve x.k
  | .backoffEnd => true
  | .curveCommit => true
  | .selftest => true
  | .selftestDone _ => true
  | .measPathFault => true
  | .measPathRestore => true
  | .pwrwarnAssert _ => true
  | .pwrwarnDeassert _ => true
  | .vinUv _ => true
  | .vinOv _ => true
  | .vinOvClear _ => true
  | .vinBelowVstby _ => true
  | .vinAboveVstby _ => true
  | .retryCountClear => true
  | .powerDown => true
  | .reclosure _ => true
  | .reclosureDone => true
  | .holdupFull _ => true
  | .storeNotFull _ => true
  | .phaseLost rail _ => okRail rail
  | .regulationFault rail => okRail rail
  | .tjTrip _ => true
  | .temperatureRead _ _ => true
  | .refclkLoss => true
  | .refclkReturn => true
  | .bootDone => true
  | .cold key => okByte key
  | .coldResetStart => true
  | .warm => true
  | .resetNFall => true
  | .resetNRise => true
  | .warmReset => true
  | .pwrEnergyLoRead => true
  | .i3cCcc _ _ => true
  | .i3cPrivateWrite _ _ => true
  | .i3cPrivateRead _ => true
  | .sbLatchClr _ => true
  | .secKeyRevoke _ => true
  | .keyRevocationDone slot => okKeySlot slot
  | .svnCommit _ => true
  | .svnFuseDone => true
  | .getVersion ep => okEp ep
  | .getCapabilities ep => okEp ep
  | .negotiateAlgorithms ep _ => okEp ep
  | .getDigests ep => okEp ep
  | .getCertificate ep _ _ _ => okEp ep
  | .challenge ep _ _ => okEp ep
  | .getMeasurements ep _ _ _ => okEp ep
  | .spdmUnsupportedRequest ep _ => okEp ep
  | .dbgToken c _ _ _ => okCtx c
  | .jtagToken _ => true
  | .tokenVerified => true
  | .jtagBootStatus => true
  | .jtagFlashProgram copy _ => okBit copy
  | .dbgLifetimeExpire => true
  | .relock => true
  | .dbgMemGo _ => true
  | .dbgMemDone _ _ => true
  | .blkCtlWrite _ _ => true
  | .blockQuiesced _ => true
  | .bindWindowRead p _ _ => okSource p.src
  | .registerWrite p _ size _ => okSource p.src && okSize size

end Sys2Proof
end

