-- ==== Sys2Proof/Tests/Slice0.lean ====
section
/-!
SUPPORT. Sys2Proof/Tests/Slice0.lean: the model's own tests: small effects worked out by hand from the manual, terms that the
well-formedness check refuses, and for every statement states and operands that meet its hypotheses.
-/
set_option linter.unusedVariables false
set_option Elab.async false

namespace Sys2Proof.Tests

open Machine

/-- The module in STANDBY, its cores active and its boundaries acted on, with nothing else changed since reset. -/
def up : State := { State.reset with
  mode := .standby, ftm := { Ftm.reset with slotDone := 0, epochDone := 0 }
  flt := { Flt.reset with cores := [(0, ⟨true, 0⟩), (1, ⟨true, 0⟩)] } }

/-- A command of queue 0 of MGA. -/
def c0 : Ctx := ⟨0, 0, 5, 0, 0⟩

/-- `s` with command `c0` in flight and its queue in RUN. -/
def sent (s : State) : State :=
  { wr (.mq 0 0) F.BLK_CTL_RUN 0 s with mq := { s.mq with flying := [⟨c0, 0, false, false⟩] } }

/-! ### Trail -/

def pkt1 : TPkt := ⟨2, 3, 0o321, 0, 0, 7, [5]⟩

def trailW : State := setTrail { Trail.reset with
  reqs := [⟨0x13, 4, 0, 50⟩], wait := [⟨6, 1, 0, pkt1, 0, some 0⟩, ⟨6, 1, 0, pkt1, 0, none⟩], agedSeq := 1, wakes := [⟨3, 2, 0, 0⟩]
  doms := [(1, .down 7), (2, .asleep), (3, .asleep), (4, .waking 9)] } up


/-- A reply, which any network interface passes. -/
def pkt2 : TPkt := { pkt1 with typ := 2 }

theorem niHolds_pkt2 (s : State) (r i h : Nat) : niHolds s r i { pkt2 with hops := h } = false := by
  unfold niHolds; split <;> simp [pkt2]

/-- With every domain on, every network interface gives credit. -/
theorem niCred_up (n : Option Nat) (lvl : Nat) : (n.all fun n => niCred up n lvl) = true := by
  cases n <;> simp [niCred, domOf, up, State.reset, Trail.reset, tget]

/-- A state and operands that meet the hypotheses of TrailRouters, part 1. -/
theorem wit_TrailRouters_1 : ∃ (s : State) (router inp : Nat) (p : TPkt) (cred : List Nat), niHolds s router inp p = false ∧
    1 ≤ p.hops ∧ p.hops ≤ 12 ∧
    (∀ x ∈ s.trail.wait, ¬ (x.router = router ∧ (x.out = p.route % 8 ∨ x.inp = inp ∧ typPrio x.pkt.typ = typPrio p.typ))) ∧
    tget 0 s.trail.used (credKey router (p.route % 8) (typPrio p.typ)) < 4 + cred.getD (typPrio p.typ) 0 ∧
    ((Config.localNi router (p.route % 8)).all fun n => niCred s n (typPrio p.typ)) = true :=
  ⟨up, 5, 0, pkt2, [], niHolds_pkt2 _ _ _ _, by decide, by decide, by decide, by decide, niCred_up _ _⟩

/-- A state and operands that meet the hypotheses of TrailRouters, part 3. -/
theorem wit_TrailRouters_3 : ∃ (s : State) (router inp : Nat) (p : TPkt) (free : Bool) (cred : List Nat),
    niHolds s router inp p = false ∧ (p.hops = 0 ∨ 12 < p.hops) ∧ srcMasked s 0x0F = true :=
  ⟨wr .flt F.ERR_MASK_MASK (2 ^ 15) up, 5, 0, { pkt2 with hops := 13 }, true, [], niHolds_pkt2 _ _ _ _, by decide⟩

/-- A state and operands that meet the hypotheses of TrailRouters, part 2. -/
theorem wit_TrailRouters_2 : ∃ (s : State) (router out : Nat) (l r : List RWait) (x : RWait),
    s.trail.wait = l ++ x :: r ∧
    RWait.young router out s.trail.wait x = true ∧
    ((∀ y ∈ l, RWait.young router out s.trail.wait y = false)) ∧
    clockRuns s = true :=
  ⟨trailW, 6, 1, [⟨6, 1, 0, pkt1, 0, some 0⟩], [], ⟨6, 1, 0, pkt1, 0, none⟩, by decide⟩

/-- A state and operands that meet the hypotheses of TrailInterfaces, part 1. -/
theorem wit_TrailInterfaces_1 : ∃ (s : State) (ni value inst : Nat),
    clockRuns s = true ∧
    s.time < 2 ^ 64 ∧
    value < 2 ^ 64 :=
  ⟨trailW, 0x13, 77, 20, by decide⟩

/-- A state and operands that meet the hypotheses of TrailInterfaces, part 2. -/
theorem wit_TrailInterfaces_2 : ∃ (s : State) (ni inst : Nat),
    inst = s.tick :=
  ⟨trailW, 0x13, 0, by decide⟩

/-- A state and operands that meet the hypotheses of TrailInterfaces, part 3. -/
theorem wit_TrailInterfaces_3 : ∃ (s : State) (r : NiReq),
    (s.trail.reqs.find? fun x => x.ni == r.ni && x.tag == r.tag) = some r ∧
    clockRuns s = true :=
  ⟨trailW, ⟨0x13, 4, 0, 50⟩, by decide⟩

/-- A state and operands that meet the hypotheses of TrailInterfaces, part 4. -/
theorem wit_TrailInterfaces_4 : ∃ (s : State) (ni : Nat) (v : Word),
    NoneDue s ∧
    Takes s (.ni ni) ∧
    rd s (.ni ni) F.BLK_CTL_RUN = 2 ∧
    1 ≤ F.NI_RT_HI_HOPS.of v.toNat ∧
    F.NI_RT_HI_HOPS.of v.toNat ≤ 12 :=
  ⟨trailW, 0x13, 0x115#32, by decide⟩

/-- A state and operands that meet the hypotheses of TrailInterfaces, part 5. -/
theorem wit_TrailInterfaces_5 : ∃ (s : State) (ni : Nat) (v : Word),
    NoneDue s ∧
    Takes s (.ni ni) ∧
    rd s (.ni ni) F.BLK_CTL_RUN ≠ 2 :=
  ⟨wr (.ni 3) F.BLK_CTL_RUN 0 up, 3, 0#32, by decide⟩

/-- A state and operands that meet the hypotheses of PortGroupDomains, part 1. -/
theorem wit_PortGroupDomains_1 : ∃ (s : State) (g : Nat),
    domOf s g = .on ∧
    domIdle s g = true :=
  ⟨trailW, 0, by decide⟩

/-- A state and operands that meet the hypotheses of PortGroupDomains, part 2. -/
theorem wit_PortGroupDomains_2 : ∃ (s : State) (g since : Nat),
    domOf s g = .down since ∧
    bufOf s g = [] ∧
    clockRuns s = true :=
  ⟨trailW, 1, 7, by decide⟩

/-- A state and operands that meet the hypotheses of PortGroupDomains, part 3. -/
theorem wit_PortGroupDomains_3 : ∃ (s : State) (g : Nat) (p : TPkt),
    domOf s g = .on :=
  ⟨trailW, 0, pkt1, by decide⟩

/-- A state and operands that meet the hypotheses of PortGroupDomains, part 4. -/
theorem wit_PortGroupDomains_4 : ∃ (s : State) (g : Nat) (p : TPkt),
    domOf s g = .asleep ∧
    wakingTyp p.typ = true ∧
    (bufOf s g).length < 15 :=
  ⟨trailW, 2, { pkt1 with typ := 0 }, by decide⟩

/-- A state and operands that meet the hypotheses of PortGroupDomains, part 5. -/
theorem wit_PortGroupDomains_5 : ∃ (s : State) (w : Wake),
    wakeFirst s.trail.wakes = some w ∧
    s.trail.tokUsed + tokCost s ≤ tokBudget s :=
  ⟨trailW, ⟨3, 2, 0, 0⟩, by decide⟩

/-- A state and operands that meet the hypotheses of PortGroupDomains, part 6. -/
theorem wit_PortGroupDomains_6 : ∃ (s : State) (g since : Nat),
    domOf s g = .waking since ∧
    clockRuns s = true :=
  ⟨trailW, 4, 9, by decide⟩

/-! ### Fabric time -/

def loadW : State := { up with tick := 10, ftm := { Ftm.reset with tset := some ⟨c0, 3, 4, 4⟩, ringPend := some (77, 20), agreeFs := some 5, lastFs := 5 + 2 ^ 17 } }

def srcW : State := { up with ftm := { Ftm.reset with fsRun := 3, ringRun := 2, slotDone := 0, epochDone := 0 } }
  |> wr .ftm F.FTM_STS_STATE 1 |> wr .ftm F.FTM_STS_FSYNC_OK 1 |> wr .ftm F.FTM_STS_RING_OK 1

def entW : SchedEnt := ⟨9, 600, 0, .quantum 0 1 0 5, .cmd c0 0x46⟩
def schedW : State := { wr (.phy 0) F.PHY_LINK_CFG_ROLE 1 up with sched := [entW] }


/-- States that meet the hypotheses of ScheduleAcceptance, at the bounds of its rows. -/
theorem wit_ScheduleAcceptance :
    rd up .ftm F.FTM_STS_STATE = 0 ∧ rd srcW .ftm F.FTM_STS_STATE ≠ 0 ∧ (511 < srcW.time + 512) ∧
    (srcW.time + 2 ^ 32 < 2 ^ 32 + 1) ∧ (srcW.time + 512 ≤ 512 ∧ 512 ≤ srcW.time + 2 ^ 32 ∧ srcW.sched.length < 256) ∧
    256 ≤ (List.replicate 256 entW).length := by
  refine ⟨by decide, by decide, by decide, by decide, by decide, le_of_eq List.length_replicate.symm⟩

/-- A state and operands that meet the hypotheses of IdleStepCountsOne. -/
theorem wit_IdleStepCountsOne : ∃ (s : State),
    NoneHeld s ∧
    s.trail.wait = [] ∧
    s.pending = [] ∧
    clockRuns s = true ∧
    s.time + 1 < 2 ^ 64 :=
  ⟨up, by decide⟩

/-- A state and operands that meet the hypotheses of Boundaries, part 1. -/
theorem wit_Boundaries_1 : ∃ (s : State) (peakI vmin : Nat) (runs : List CurRun),
    NoneHeld s ∧
    (runs = [] ∨ s.pwr.path ≠ .closed ∨ (∀ x ∈ s.pwr.curve, x.1 = false)) ∧
    clockRuns s = true ∧
    s.maps.pend = [] ∧
    s.sched = [] ∧
    s.mq.due = [] ∧
    s.time + 2 ^ 17 < 2 ^ 64 ∧
    (s.ftm.slotDone ≤ s.time ∨ s.ftm.slotDone = 2 ^ 64) ∧
    s.time % 2 ^ 17 < 2 ^ 17 - 2 ^ 7 ∧
    ((s.time % 2 ^ 17 = 0 → s.ftm.epochDone = s.time)) :=
  ⟨up, 2000, 5, [⟨3, 100, 900⟩], by decide⟩

/-- A state and operands that meet the hypotheses of Boundaries, part 2. -/
theorem wit_Boundaries_2 : ∃ (s : State),
    NoneHeld s ∧
    clockRuns s = true ∧
    s.mode = .standby ∧
    s.wab.ents = [] ∧
    s.wab.notes = [] ∧
    s.home.alc = [] ∧
    s.glr.queue = [] ∧
    s.mq.due = [] ∧
    s.flt.srcs = [] ∧
    s.maps.pend = [] ∧
    s.sched = [] ∧
    s.time + 2 ^ 17 < 2 ^ 64 ∧
    (s.ftm.epochDone ≤ s.time ∨ s.ftm.epochDone = 2 ^ 64) :=
  ⟨up, by decide⟩

/-- A state and operands that meet the hypotheses of FabricTimeLoads, part 1. -/
theorem wit_FabricTimeLoads_1 : ∃ (s : State) (x : TSet),
    fsSel s = true ∧
    clockRuns s = true ∧
    s.ftm.tset = some x ∧
    s.tick ≤ x.tick + 4 * 2 ^ 17 :=
  ⟨loadW, ⟨c0, 3, 4, 4⟩, by decide⟩

/-- A state and operands that meet the hypotheses of FabricTimeLoads, part 2. -/
theorem wit_FabricTimeLoads_2 : ∃ (s : State) (v n : Nat),
    s.ftm.ringPend = some (v, n) ∧
    s.tick ≤ n ∧
    clockRuns s = true ∧
    ((∀ x ∈ s.ftm.tset, n ≤ x.tick + 4 * 2 ^ 17)) :=
  ⟨loadW, 77, 20, by decide⟩

/-- A state and operands that meet the hypotheses of FabricTimeLoads, part 3. -/
theorem wit_FabricTimeLoads_3 : ∃ (s : State) (x : TSet),
    s.ftm.tset = some x ∧
    rd s .ftm F.FTM_CFG_SRC = 3 ∧
    clockRuns s = true ∧
    s.time % 2 ^ 17 = 0 ∧
    x.tick < s.tick ∧
    s.tick ≤ x.tick + 4 * 2 ^ 17 :=
  ⟨wr .ftm F.FTM_CFG_SRC 3 loadW, ⟨c0, 3, 4, 4⟩, by decide⟩

/-- A state and operands that meet the hypotheses of FabricTimeLoads, part 4. -/
theorem wit_FabricTimeLoads_4 : ∃ (s : State) (x : TSet),
    s.ftm.tset = some x ∧
    clockRuns s = true ∧
    s.time < 2 ^ 64 ∧
    s.tick ≤ x.tick + 4 * 2 ^ 17 :=
  ⟨loadW, ⟨c0, 3, 4, 4⟩, by decide⟩

/-- A state and operands that meet the hypotheses of FabricTimeLoads, part 5. -/
theorem wit_FabricTimeLoads_5 : ∃ (s : State) (n : Nat),
    rd s .ftm F.FTM_STS_STATE = 2 ∧
    s.ftm.agreeFs = some n ∧
    s.ftm.agreeRing = none ∧
    n + 2 ^ 17 ≤ s.ftm.lastFs + 2 ∧
    clockRuns s = true :=
  ⟨wr .ftm F.FTM_STS_STATE 2 loadW, 5, by decide⟩

/-- A state and operands that meet the hypotheses of FabricTimeSources, part 1. -/
theorem wit_FabricTimeSources_1 : ∃ (s : State),
    fsSel s = true ∧
    ftmUnset s = false ∧
    rdb s .ftm F.FTM_STS_FSYNC_OK = true ∧
    rd s .ftm F.FTM_CFG_MISS_LIM ≤ missRun s ∧
    ringSel s = true ∧
    rdb s .ftm F.FTM_STS_RING_OK = true :=
  ⟨srcW, by decide⟩

/-- A state and operands that meet the hypotheses of FabricTimeSources, part 2. -/
theorem wit_FabricTimeSources_2 : ∃ (s : State),
    ringSel s = true ∧
    ftmUnset s = false ∧
    rdb s .ftm F.FTM_STS_RING_OK = true ∧
    2 ≤ s.ftm.ringRun ∧
    fsSel s = true ∧
    rdb s .ftm F.FTM_STS_FSYNC_OK = true :=
  ⟨srcW, by decide⟩

/-- A state and operands that meet the hypotheses of FabricTimeSources, part 3. -/
theorem wit_FabricTimeSources_3 : ∃ (s : State) (v : Word),
    NoneDue s ∧
    Takes s .ftm ∧
    rd s .ftm F.BLK_CTL_RUN = 2 ∧
    rd s .ftm F.FTM_CFG_SRC = 1 ∧
    F.FTM_CFG_SRC.of v.toNat = 0 ∧
    rdb s .ftm F.FTM_STS_RING_OK = true :=
  ⟨wr .ftm F.FTM_CFG_SRC 1 srcW, 0x30#32, by decide⟩

/-- A state and operands that meet the hypotheses of ScheduleCommands, part 1. -/
theorem wit_ScheduleCommands_1 : ∃ (s : State) (c : Ctx) (e : Nat),
    CoreActs s ∧
    e < 2 ^ 47 ∧
    rd s .ftm F.FTM_STS_STATE ≠ 1 ∧
    s.sched = [] ∧
    s.ftm.tset = none :=
  ⟨up, c0, 9, by decide⟩

/-- A state and operands that meet the hypotheses of ScheduleCommands, part 2. -/
theorem wit_ScheduleCommands_2 : ∃ (s : State) (e : SchedEnt),
    Takes s .ftm ∧
    schedEnt s e.idx = some e ∧
    s.time + 512 ≤ e.inst ∧
    e.owner = .none :=
  ⟨{ up with sched := [{ entW with owner := .none }] }, { entW with owner := .none }, by decide⟩

/-- A state and operands that meet the hypotheses of ScheduleCommands, part 3. -/
theorem wit_ScheduleCommands_3 : ∃ (s : State) (e : SchedEnt) (c d : Ctx) (op : Nat),
    CoreActs s ∧
    schedEnt s e.idx = some e ∧
    s.time + 512 ≤ e.inst ∧
    e.owner = .cmd d op :=
  ⟨schedW, entW, c0, c0, 0x46, by decide⟩

/-- A state and operands that meet the hypotheses of ScheduleCommands, part 4. -/
theorem wit_ScheduleCommands_4 : ∃ (s : State),
    s.mode.isUp = true :=
  ⟨up, by decide⟩

/-- A state and operands that meet the hypotheses of ScheduleCommands, part 5. -/
theorem wit_ScheduleCommands_5 : ∃ (s : State) (e : SchedEnt) (lead part tc q op : Nat) (c : Ctx),
    schedNext (fun _ => true) s = some e ∧
    e.act = .quantum lead part tc q ∧
    e.owner = .cmd c op ∧
    clockRuns s = true ∧
    s.time ≤ e.inst ∧
    e.inst < 2 ^ 64 ∧
    NoneHeld s ∧
    entTime s e = s.time ∧
    s.maps.pend = [] ∧
    e.inst % 2 ^ 7 ≠ 0 ∧
    frozen s = false ∧
    isLead s lead = true :=
  ⟨schedW, entW, 0, 1, 0, 5, 0x46, c0, by decide⟩

/-- A state and operands that meet the hypotheses of ScheduleCancel, part 1. -/
theorem wit_ScheduleCancel_1 : ∃ (s : State) (e : SchedEnt) (d : Ctx) (op : Nat),
    Takes s .ftm ∧
    schedEnt s e.idx = some e ∧
    s.time + 512 ≤ e.inst ∧
    e.owner = .cmd d op ∧
    Hears s d :=
  ⟨{ sent schedW with mode := .standby }, entW, c0, 0x46, by decide⟩

/-- A state and operands that meet the hypotheses of ScheduleCancel, part 2. -/
theorem wit_ScheduleCancel_2 : ∃ (s : State) (e : SchedEnt),
    Takes s .ftm ∧
    schedEnt s e.idx = some e ∧
    e.inst < s.time + 512 :=
  ⟨{ schedW with time := 89 }, entW, by decide⟩

/-- A state and operands that meet the hypotheses of ScheduleCancel, part 3. -/
theorem wit_ScheduleCancel_3 : ∃ (s : State) (i : Nat),
    Takes s .ftm ∧
    schedEnt s i = none :=
  ⟨schedW, 10, by decide⟩

/-- A state and operands that meet the hypotheses of ScheduleCancel, part 4. -/
theorem wit_ScheduleCancel_4 : ∃ (s : State) (c : Ctx) (e : SchedEnt),
    CoreActs s ∧
    schedEnt s e.idx = some e ∧
    s.time + 512 ≤ e.inst ∧
    e.owner = .none ∧
    Hears s c :=
  ⟨{ sent up with sched := [{ entW with owner := .none }] }, c0, { entW with owner := .none }, by decide⟩

/-- A state and operands that meet the hypotheses of ScheduleCancel, part 5. -/
theorem wit_ScheduleCancel_5 : ∃ (s : State) (c : Ctx) (e : SchedEnt),
    CoreActs s ∧
    schedEnt s e.idx = some e ∧
    e.inst < s.time + 512 ∧
    Hears s c :=
  ⟨{ sent schedW with time := 89 }, c0, entW, by decide⟩

/-- A state and operands that meet the hypotheses of ScheduleCancel, part 6. -/
theorem wit_ScheduleCancel_6 : ∃ (s : State) (c : Ctx) (i : Nat),
    CoreActs s ∧
    schedEnt s i = none ∧
    Hears s c :=
  ⟨sent schedW, c0, 10, by decide⟩

/-! ### Ports -/

/-- 64 credits of every class. -/
def cr64 : Tbl Nat := (List.range 8).map fun c => (c, 64)

/-- Link 8 of role `role` in L0, four controllers wide, in run state `run`. -/
def linkW (role run : Nat) : State := up |> wr (.phy 8) F.PHY_LINK_CFG_ROLE role |> wr (.phy 8) F.PHY_LINK_CFG_WIDTH 2
  |> wr (.phy 8) F.BLK_CTL_RUN run |> setLink 8 { LinkS.reset with phase := .l0, fullW := 8, credit := cr64, idleTx := 100, idleRx := 100 }
  |> wr (.phy 8) F.PHY_LINK_STS_TX_STATE 0 |> wr (.phy 8) F.PHY_LINK_STS_RX_STATE 0 |> wr (.phy 8) F.PHY_LINK_STS_CUR_RATE 4
  |> wr (.phy 8) F.PHY_LINK_STS_CUR_WIDTH 2

/-- PHY_LINK_CFG: DEVICE, eight lanes. -/
def devV : Word := 0x00008202#32

def farW : FarEnd := ⟨.osoryr, [4, 5], 2, false, false, false, true⟩
def detW (retry : Option Nat) : State := { linkW 3 0 with mode := .run } |> wr (.phy 8) F.PHY_LINK_CFG_MAX_RATE 5 |> wr (.phy 8) F.PHY_LINK_CTL_OFF 0
  |> modLink 8 (fun l => { l with phase := .detect, retryAt := retry })

def laneW : State := linkW 3 0 |> setLane 17 { LaneS.reset with los := true, since := some 3 }
  |> wr (.phy 8) F.ERR_MASK_MASK 1 |> wr (.phy 8) F.PHY_LANE_FAIL_LOL_LIM 0

def marginV : Word := 0x80200064#32
def marginW : State := { linkW 3 2 with mode := .maintenance }
def scanW : State := { marginW with ports := { marginW.ports with scans := [⟨8, none, 1, 100⟩] } }



/-- A state and operands that meet the hypotheses of PortConfiguration, part 1. -/
theorem wit_PortConfiguration_1 : ∃ (s : State) (p : Nat) (v : Word),
    NoneDue s ∧
    Takes s (.phy p) ∧
    memberOf s p = none ∧
    cfgErr s p (.of v.toNat) = 0 ∧
    hpartHeld s p (.of v.toNat) = false ∧
    guarSum (putCfg p (.of v.toNat) s) (tileOf p) ≤ 49152 :=
  ⟨up, 8, devV, by decide +kernel⟩

/-- A state and operands that meet the hypotheses of PortConfiguration, part 2. -/
theorem wit_PortConfiguration_2 : ∃ (s : State) (c : Ctx) (p : Nat) (v : Word),
    CoreActs s ∧
    NoneDue s ∧
    p < 512 ∧
    frozen s = false ∧
    memberOf s p = none ∧
    cfgErr s p (.of v.toNat) = 0 ∧
    hpartHeld s p (.of v.toNat) = false ∧
    guarSum (putCfg p (.of v.toNat) s) (tileOf p) ≤ 49152 :=
  ⟨up, c0, 8, devV, by decide +kernel⟩

/-- A state and operands that meet the hypotheses of PortConfiguration, part 3. -/
theorem wit_PortConfiguration_3 : ∃ (s : State) (c : Ctx) (p : Nat) (v : Word),
    NoneDue s ∧
    CoreActs s ∧
    p < 512 ∧
    frozen s = false ∧
    s.mode = .standby ∧
    memberOf s p = none ∧
    v.toNat < 2 :=
  ⟨up, c0, 8, 1#32, by decide⟩

/-- A state and operands that meet the hypotheses of PortConfiguration, part 4. -/
theorem wit_PortConfiguration_4 : ∃ (s : State) (p : Nat) (on : Bool),
    NoneDue s ∧
    Takes s (.phy p) ∧
    memberOf s p = none :=
  ⟨up, 8, false, by decide⟩

/-- A state and operands that meet the hypotheses of PortConfiguration, part 5. -/
theorem wit_PortConfiguration_5 : ∃ (s : State) (p : Nat),
    NoneDue s ∧
    Takes s (.phy p) ∧
    memberOf s p = none :=
  ⟨up, 8, by decide⟩

/-- A state and operands that meet the hypotheses of PortConfiguration, part 6. -/
theorem wit_PortConfiguration_6 : ∃ (s : State) (p : Nat),
    NoneDue s ∧
    Takes s (.phy p) ∧
    memberOf s p = none ∧
    linkUp s p = true ∧
    s.ports.scans = [] :=
  ⟨linkW 3 0, 8, by decide⟩

/-- A state and operands that meet the hypotheses of PortConfiguration, part 7. -/
theorem wit_PortConfiguration_7 : ∃ (s : State) (p : Nat),
    NoneDue s ∧
    Takes s (.phy p) ∧
    memberOf s p = none ∧
    pageRun s (.phy p) = 2 ∧
    Quiet s ∧
    roleOf s p = 3 :=
  ⟨linkW 3 2, 8, by decide⟩

/-- A state and operands that meet the hypotheses of PortConfiguration, part 8. -/
theorem wit_PortConfiguration_8 : ∃ (s : State) (c : Ctx) (p : Nat) (v : Word),
    NoneDue s ∧
    CoreActs s ∧
    p < 512 ∧
    frozen s = false ∧
    memberOf s p = none :=
  ⟨up, c0, 8, 0x48000000#32, by decide⟩

/-- A state and operands that meet the hypotheses of PortConfiguration, part 9. -/
theorem wit_PortConfiguration_9 : ∃ (s : State) (c : Ctx) (p : Nat),
    NoneDue s ∧
    CoreActs s ∧
    p < 512 ∧
    frozen s = false ∧
    memberOf s p = none ∧
    rd s (.phy p) F.BLK_CTL_RUN = 2 ∧
    Quiet s :=
  ⟨up, c0, 8, by decide⟩

/-- A state and operands that meet the hypotheses of PortConfigurationRejected. -/
theorem wit_PortConfigurationRejected : ∃ (s : State) (p : Nat) (v : Word),
    NoneDue s ∧
    Takes s (.phy p) ∧
    memberOf s p = none ∧
    cfgErr s p (.of v.toNat) ≠ 0 :=
  ⟨up, 9, 0x301#32, by decide⟩

/-- A state and operands that meet the hypotheses of LinkLifecycle, part 1. -/
theorem wit_LinkLifecycle_1 : ∃ (s : State) (p : Nat),
    NoneDue s ∧
    frozen s = false ∧
    rd s (.phy p) F.BLK_CTL_RUN = 1 ∧
    linkUp s p = true ∧
    rd s (.phy p) F.PHY_LINK_STS_TX_STATE ≠ 3 ∧
    linkEmpty s p = true :=
  ⟨linkW 3 1, 8, by decide⟩

/-- A state and operands that meet the hypotheses of LinkLifecycle, part 2. -/
theorem wit_LinkLifecycle_2 : ∃ (s : State) (p rate w : Nat) (rev : Bool) (far : FarEnd),
    NoneDue s ∧
    frozen s = false ∧
    Quiet s ∧
    (linkOf s p).phase = .detect ∧
    (linkOf s p).retryAt = none ∧
    offNow s p = false ∧
    protoOk (roleOf s p) far = true ∧
    commonRate s p far = some rate ∧
    keepBlock (modLink p (fun l => { l with far := some far }) s) p (min (2 * ctrlsOf s p) (lanesOf far.width)) = some (w, rev) ∧
    roleOf s p = 3 :=
  ⟨detW none, 8, 5, 8, false, farW, by decide +kernel⟩

/-- A state and operands that meet the hypotheses of LinkLifecycle, part 3. -/
theorem wit_LinkLifecycle_3 : ∃ (s : State) (p n : Nat),
    NoneDueBy n s ∧
    frozen s = false ∧
    (linkOf s p).retryAt = some n ∧
    clockRuns s = true ∧
    s.ports.scans = [] :=
  ⟨detW (some 7), 8, 7, by decide⟩

/-- A state and operands that meet the hypotheses of LinkLifecycle, part 4. -/
theorem wit_LinkLifecycle_4 : ∃ (s : State) (p : Nat),
    NoneDue s ∧
    frozen s = false ∧
    Quiet s ∧
    roleOf s p = 3 ∧
    linkUp s p = true :=
  ⟨linkW 3 0, 8, by decide⟩

/-- A state and operands that meet the hypotheses of LinkLifecycle, part 5. -/
theorem wit_LinkLifecycle_5 : ∃ (s : State) (g : Nat),
    NoneDue s ∧
    g ∉ s.ports.prsnt ∧
    ((∀ l ∈ List.range' (4 * g) 4, (vpOfLead s l).all (fun x => (vpOf s x.1 x.2).add.isNone) = true)) :=
  ⟨up, 5, by decide⟩

/-- A state and operands that meet the hypotheses of LinkLifecycle, part 6. -/
theorem wit_LinkLifecycle_6 : ∃ (s : State) (p w : Nat) (rev : Bool) (reads : List (Nat × CellRead)),
    NoneDue s ∧
    frozen s = false ∧
    (linkOf s p).phase = .recovery ∧
    keepBlock s p (linkOf s p).fullW = some (w, rev) ∧
    (linkOf s p).replay = [] :=
  ⟨modLink 8 (fun l => { l with phase := .recovery }) (detW none), 8, 8, false, [(3, CellRead.clean)], by decide⟩

/-- A state and operands that meet the hypotheses of LinkLifecycle, part 7. -/
theorem wit_LinkLifecycle_7 : ∃ (s : State) (p : Nat) (far : FarEnd),
    NoneDue s ∧
    frozen s = false ∧
    (linkOf s p).phase = .detect ∧
    (linkOf s p).retryAt = none ∧
    offNow s p = false ∧
    protoOk (roleOf s p) far = false :=
  ⟨detW none, 8, { farW with kind := .pcie }, by decide⟩

/-- A state and operands that meet the hypotheses of LaneHealth, part 1. -/
theorem wit_LaneHealth_1 : ∃ (s : State) (n : Nat),
    NoneDue s ∧
    frozen s = false ∧
    expectedActive s n = true ∧
    (laneOf s n).los = false ∧
    n % 2 = 0 :=
  ⟨laneW, 16, by decide⟩

/-- A state and operands that meet the hypotheses of LaneHealth, part 2. -/
theorem wit_LaneHealth_2 : ∃ (s : State) (n : Nat),
    NoneDue s ∧
    frozen s = false ∧
    expectedActive s n = true ∧
    (laneOf s n).lol = false ∧
    n % 2 = 1 ∧
    rd s (.phy (laneLead s n)) F.PHY_LANE_FAIL_LOL_LIM = 0 :=
  ⟨laneW, 17, by decide⟩

/-- A state and operands that meet the hypotheses of LaneHealth, part 3. -/
theorem wit_LaneHealth_3 : ∃ (s : State) (n k : Nat),
    NoneDueBy (k + rd s (.phy (laneLead s n)) F.PHY_LANE_FAIL_TMO) s ∧
    frozen s = false ∧
    (laneOf s n).since = some k ∧
    clockRuns s = true ∧
    expectedActive s n = true ∧
    (laneOf s n).failed = false ∧
    s.ports.scans = [] ∧
    srcMasked s (portSrcNo (laneLead s n) 0) = true ∧
    rd s (.phy (laneLead s n)) F.PHY_LINK_CTL_LANE_CLR = 0 ∧
    (keepBlock (setLane n { laneOf s n with failed := true } s) (laneLead s n) (linkOf s (laneLead s n)).fullW).isSome = true :=
  ⟨laneW, 17, 3, by decide⟩

/-- A state and operands that meet the hypotheses of LaneHealth, part 4. -/
theorem wit_LaneHealth_4 : ∃ (s : State) (n : Nat),
    NoneDue s ∧
    frozen s = false :=
  ⟨laneW, 17, by decide⟩

/-- A state and operands that meet the hypotheses of LinkPowerStates, part 1. -/
theorem wit_LinkPowerStates_1 : ∃ (s : State) (p : Nat),
    NoneDue s ∧
    frozen s = false ∧
    linkUp s p = true ∧
    4 ≤ rd s (.phy p) F.PHY_LINK_STS_CUR_RATE ∧
    rdf s (.phy p) F.PHY_PM_CFG_NARROW_EN = 1 ∧
    txState s p = 0 ∧
    rdf s (.phy p) F.PHY_PM_CFG_NARROW_IDLE ≤ (linkOf s p).idleTx ∧
    lanesOf (rdf s (.phy p) F.PHY_PM_CFG_NARROW_WIDTH) < lanesOf (rd s (.phy p) F.PHY_LINK_STS_CUR_WIDTH) :=
  ⟨wr (.phy 8) F.PHY_PM_CFG_NARROW_EN 1 (linkW 3 0), 8, by decide⟩

/-- A state and operands that meet the hypotheses of LinkPowerStates, part 2. -/
theorem wit_LinkPowerStates_2 : ∃ (s : State) (p w : Nat),
    NoneDue s ∧
    frozen s = false ∧
    linkUp s p = true ∧
    rxState s p ≤ 1 ∧
    lanesOf w < lanesOf (rd s (.phy p) F.PHY_LINK_STS_CUR_WIDTH) :=
  ⟨linkW 3 0, 8, 4, by decide⟩

/-- A state and operands that meet the hypotheses of LinkPowerStates, part 3. -/
theorem wit_LinkPowerStates_3 : ∃ (s : State) (p : Nat),
    NoneDue s ∧
    frozen s = false ∧
    linkUp s p = true ∧
    roleOf s p = 3 ∧
    rxState s p ≤ 1 :=
  ⟨linkW 3 0, 8, by decide⟩

/-- A state and operands that meet the hypotheses of LinkPowerStates, part 4. -/
theorem wit_LinkPowerStates_4 : ∃ (s : State) (p : Nat),
    NoneDue s ∧
    frozen s = false ∧
    rxState s p = 2 :=
  ⟨wr (.phy 8) F.PHY_LINK_STS_RX_STATE 2 (linkW 3 0), 8, by decide⟩

/-- A state and operands that meet the hypotheses of LinkPowerStates, part 5. -/
theorem wit_LinkPowerStates_5 : ∃ (s : State) (p : Nat),
    NoneDue s ∧
    frozen s = false ∧
    linkUp s p = true ∧
    roleOf s p ≠ 3 ∧
    rdf s (.phy p) F.PHY_PM_CFG_L1_EN = 1 ∧
    rdf s (.phy p) F.PHY_PM_CFG_L1_IDLE ≤ (linkOf s p).idleTx ∧
    rdf s (.phy p) F.PHY_PM_CFG_L1_IDLE ≤ (linkOf s p).idleRx ∧
    txState s p ≤ 1 ∧
    rxState s p ≤ 1 ∧
    ready s p = false ∧
    (linkOf s p).busyRx = false :=
  ⟨wr (.phy 8) F.PHY_PM_CFG_L1_EN 1 (linkW 1 0), 8, by decide⟩

/-- A state and operands that meet the hypotheses of LinkPowerStates, part 6. -/
theorem wit_LinkPowerStates_6 : ∃ (s : State) (p : Nat),
    NoneDue s ∧
    frozen s = false ∧
    txState s p = 3 :=
  ⟨wr (.phy 8) F.PHY_LINK_STS_TX_STATE 3 (linkW 1 0), 8, by decide⟩

/-- A state and operands that meet the hypotheses of LinkPowerStates, part 7. -/
theorem wit_LinkPowerStates_7 : ∃ (s : State) (p : Nat) (rx : Bool),
    NoneDue s ∧
    frozen s = false ∧
    txState s p = 3 ∧
    (linkOf s p).exTx = true :=
  ⟨modLink 8 (fun l => { l with exTx := true }) (wr (.phy 8) F.PHY_LINK_STS_TX_STATE 3 (linkW 1 0)), 8, true, by decide⟩

/-- A state and operands that meet the hypotheses of Margining, part 1. -/
theorem wit_Margining_1 : ∃ (s : State) (p : Nat) (v : Word),
    NoneDue s ∧
    Takes s (.phy p) ∧
    s.mode = .maintenance ∧
    pageRun s (.phy p) = 2 ∧
    linkUp s (leadOf s p) = true ∧
    txState s (leadOf s p) = 0 ∧
    rxState s (leadOf s p) = 0 ∧
    F.PHY_MARGIN_CTL_START.of v.toNat = 1 ∧
    F.PHY_MARGIN_CTL_AXIS.of v.toNat ≤ 1 ∧
    F.PHY_MARGIN_CTL_DIR.of v.toNat ≤ 1 ∧
    1 ≤ F.PHY_MARGIN_CTL_STEPS.of v.toNat ∧
    F.PHY_MARGIN_CTL_STEPS.of v.toNat ≤ 127 ∧
    1 ≤ F.PHY_MARGIN_CTL_DWELL.of v.toNat ∧
    scanning s p = false :=
  ⟨marginW, 8, marginV, by decide⟩

/-- A state and operands that meet the hypotheses of Margining, part 2. -/
theorem wit_Margining_2 : ∃ (s : State) (c : Ctx) (p : Nat) (v : Word),
    NoneDue s ∧
    CoreActs s ∧
    p < 512 ∧
    s.mode = .maintenance ∧
    pageRun s (.phy p) = 2 ∧
    linkUp s (leadOf s p) = true ∧
    txState s (leadOf s p) = 0 ∧
    rxState s (leadOf s p) = 0 ∧
    F.PHY_MARGIN_CTL_START.of v.toNat = 1 ∧
    F.PHY_MARGIN_CTL_AXIS.of v.toNat ≤ 1 ∧
    F.PHY_MARGIN_CTL_DIR.of v.toNat ≤ 1 ∧
    1 ≤ F.PHY_MARGIN_CTL_STEPS.of v.toNat ∧
    F.PHY_MARGIN_CTL_STEPS.of v.toNat ≤ 127 ∧
    1 ≤ F.PHY_MARGIN_CTL_DWELL.of v.toNat ∧
    scanning s p = false :=
  ⟨marginW, c0, 8, marginV, by decide⟩

/-- A state and operands that meet the hypotheses of Margining, part 3. -/
theorem wit_Margining_3 : ∃ (s : State) (p errs : Nat) (m : MarginS),
    NoneDueBy m.due s ∧
    frozen s = false ∧
    clockRuns s = true ∧
    (s.ports.scans.find? fun x => x.ctl == p) = some m ∧
    m.ctx = none ∧
    errs ≠ 0 ∧
    againNow (advanceTo m.due s) (.phy p) F.PHY_MARGIN_CTL_START = false :=
  ⟨scanW, 8, 3, ⟨8, none, 1, 100⟩, by decide⟩

/-- A state and operands that meet the hypotheses of Margining, part 4. -/
theorem wit_Margining_4 : ∃ (s : State) (p lane cmd : Nat),
    frozen s = false ∧
    scanning s p = false :=
  ⟨up, 8, 16, 0, by decide⟩

/-! ### Links and the core -/

def msgA : RxMsg := ⟨12, 5, 1, 3, false, 2, 0, 0, 9, [1, 2], false⟩
def flitA : Flit := ⟨0, 0, true, true, 0, false, [msgA]⟩
def cellA : Cell := { Cell.blank with id := 0, inp := .link 8, allow := .egr 8, out := 8, tc := 3, oc := 3, slots := 2, stage := .egress, words := List.replicate 32 0 }
def replayW : State := modLink 8 (fun l => { l with replay := [⟨4, 0, 0, false, false, false, false⟩, ⟨5, 1, 0, false, false, false, false⟩], ackFrom := some 2 })
  (wr (.lnk 8) F.ERR_MASK_MASK 2 (linkW 1 0))
def egrW : State := { wr (.lnk 8) F.LNK_STS_MODE 2 (linkW 1 0) with core := { Core.reset with cells := [cellA], nextId := 1 } }

/-- Link 8 a trunk of module 1, port 9 a host in RUN. -/
def trunkW : State := linkW 3 0 |> wr (.lnk 8) F.LNK_STS_MODE 3 |> wr .trnk F.TRNK_MOD_CFG_MODID 1
  |> wr (.phy 16) F.PHY_LINK_CFG_ROLE 1 |> wr (.phy 16) F.BLK_CTL_RUN 0

def voqW : State := { wr (.cnp 0) F.BLK_CTL_RUN 0 (wr (.phy 12) F.PHY_LINK_CFG_ROLE 2 (linkW 1 0)) with
  core := { Core.reset with cells := [{ cellA with out := 12, stage := .voq, allow := .ing 8 }], nextId := 1 } }

/-- A state and operands that meet the hypotheses of LinkReceiveAndReplay, part 1. -/
theorem wit_LinkReceiveAndReplay_1 : ∃ (s : State) (p draw : Nat) (f : Flit) (m : RxMsg),
    NoneDue s ∧
    canReceive s p = true ∧
    s.core.cells = [] ∧
    s.core.grps = [] ∧
    f.phase = 0 ∧
    f.crc1 = true ∧
    f.crc2 = true ∧
    f.fecFail = false ∧
    f.seq % 1024 = rd s (.lnk p) F.LNK_SEQ_STS_NEXT_RX ∧
    rd s (.lnk p) F.LNK_STS_MODE = 2 ∧
    f.msgs = [m] ∧
    m.slots ≤ 15 :=
  ⟨wr (.lnk 8) F.LNK_STS_MODE 2 (linkW 1 0), 8, 3, flitA, msgA, by decide⟩

/-- A state and operands that meet the hypotheses of LinkReceiveAndReplay, part 2. -/
theorem wit_LinkReceiveAndReplay_2 : ∃ (s : State) (p seq : Nat) (credits : List Nat),
    NoneDue s ∧
    frozen s = false ∧
    linkUp s p = true ∧
    s.core.cells = [] :=
  ⟨replayW, 8, 4, [0, 3], by decide⟩

/-- A state and operands that meet the hypotheses of LinkReceiveAndReplay, part 3. -/
theorem wit_LinkReceiveAndReplay_3 : ∃ (s : State) (p seq : Nat) (reads : List (Nat × CellRead)),
    NoneDue s ∧
    canReceive s p = true ∧
    s.core.cells = [] ∧
    ((linkOf s p).replay.any fun e => decide ((e.seq + 1024 - seq % 1024) % 1024 < 512)) = true ∧
    (linkOf s p).replays < rd s (.lnk p) F.LNK_REPLAY_CFG_LIM ∧
    srcMasked s (portSrcNo p 1) = true :=
  ⟨replayW, 8, 4, [(0, CellRead.clean)], by decide⟩

/-- A state and operands that meet the hypotheses of LinkReceiveAndReplay, part 4. -/
theorem wit_LinkReceiveAndReplay_4 : ∃ (s : State) (p n : Nat) (reads : List (Nat × CellRead)),
    NoneDueBy (n + rd s (.lnk p) F.LNK_REPLAY_CFG_TMO) s ∧
    frozen s = false ∧
    linkUp s p = true ∧
    s.core.cells = [] ∧
    clockRuns s = true ∧
    (linkOf s p).ackFrom = some n ∧
    (linkOf s p).replay ≠ [] ∧
    (linkOf s p).replays < rd s (.lnk p) F.LNK_REPLAY_CFG_LIM ∧
    srcMasked s (portSrcNo p 1) = true :=
  ⟨replayW, 8, 2, [], by decide⟩

/-- A state and operands that meet the hypotheses of BadFlitDiscarded. -/
theorem wit_BadFlitDiscarded : ∃ (s : State) (p draw : Nat) (f : Flit),
    NoneDue s ∧
    canReceive s p = true ∧
    (linkOf s p).rxHalf = none ∧
    f.phase = 0 ∧
    f.crc1 = false ∧
    f.fecFail = false :=
  ⟨linkW 1 0, 8, 3, { flitA with crc1 := false }, by decide⟩

/-- A state and operands that meet the hypotheses of LinkSendTrunkAndInject, part 1. -/
theorem wit_LinkSendTrunkAndInject_1 : ∃ (s : State) (p : Nat) (c : Cell),
    NoneDue s ∧
    frozen s = false ∧
    isLead s p = true ∧
    noSelect s p = false ∧
    onWire s p = false ∧
    roleOf s p ≠ 3 ∧
    wholeFlits s p = true ∧
    linkUp s p = true ∧
    queueHead s p 384 (listHeads (egressCells s p)) = some c ∧
    cellOf s c.id = some c ∧
    c.tc = 3 ∧
    (linkOf s p).inj = none :=
  ⟨egrW, 8, cellA, by decide⟩

/-- A state and operands that meet the hypotheses of LinkSendTrunkAndInject, part 2. -/
theorem wit_LinkSendTrunkAndInject_2 : ∃ (s : State) (p : Nat) (h : DWord) (f : Flit) (m : RxMsg) (u : Upset) (clk : Nat),
    NoneDue s ∧
    canReceive s p = true ∧
    s.core.cells = [] ∧
    s.core.grps = [] ∧
    f.phase = 0 ∧
    f.crc1 = true ∧
    f.crc2 = true ∧
    f.fecFail = false ∧
    f.seq % 1024 = rd s (.lnk p) F.LNK_SEQ_STS_NEXT_RX ∧
    rd s (.lnk p) F.LNK_STS_MODE = 3 ∧
    f.msgs = [m] ∧
    m.slots ≤ 15 ∧
    trunkJudge s h = .deliver (hdrPort h) :=
  ⟨trunkW, 8, mkHdr 1 16 5 1 2 3, flitA, msgA, Upset.none, 7, by decide⟩

/-- A state and operands that meet the hypotheses of LinkSendTrunkAndInject, part 3. -/
theorem wit_LinkSendTrunkAndInject_3 : ∃ (s : State) (p : Nat) (v : Word),
    Takes s (.lnk p) ∧
    memberOf s p = none ∧
    F.LNK_INJ_CTL_ARM.of v.toNat = 1 ∧
    s.mode = .maintenance ∧
    linkUp s p = true ∧
    1 ≤ F.LNK_INJ_CTL_N.of v.toNat :=
  ⟨{ linkW 1 0 with mode := .maintenance }, 8, 0x84050700#32, by decide⟩

/-- A state and operands that meet the hypotheses of LinkSendTrunkAndInject, part 4. -/
theorem wit_LinkSendTrunkAndInject_4 : ∃ (s : State) (c : Ctx) (p : Nat) (v : Word),
    CoreActs s ∧
    p < 512 ∧
    memberOf s p = none ∧
    F.LNK_INJ_CTL_ARM.of v.toNat = 1 ∧
    s.mode = .maintenance ∧
    linkUp s p = true ∧
    1 ≤ F.LNK_INJ_CTL_N.of v.toNat :=
  ⟨{ linkW 1 0 with mode := .maintenance }, c0, 8, 0x84050700#32, by decide⟩

/-- A state and operands that meet the hypotheses of CellsMove, part 1. -/
theorem wit_CellsMove_1 : ∃ (s : State) (p : Nat) (c : Cell),
    NoneDue s ∧
    frozen s = false ∧
    s.core.cells = [c] ∧
    c.inp = .link p ∧
    c.isOpen = true ∧
    c.stage = .opened :=
  ⟨{ up with core := { Core.reset with cells := [{ cellA with stage := .opened, isOpen := true }], nextId := 1 } }, 8, { cellA with stage := .opened, isOpen := true }, by decide⟩

/-- A state and operands that meet the hypotheses of CellsMove, part 2. -/
theorem wit_CellsMove_2 : ∃ (s : State) (c d : Cell) (o : Nat) (rx : List (Nat × DWord × Nat)),
    NoneDue s ∧
    frozen s = false ∧
    s.core.cells = [c, d] ∧
    c.id ≠ d.id ∧
    c.bad = false ∧
    c.stage = .moving d.id ∧
    d.stage = .copy c.id ∧
    d.allow = .egr o ∧
    s.core.doneHeld = [] ∧
    unsure s c = false ∧
    dropsAtHost s d = false ∧
    transferOk c rx = true :=
  ⟨{ up with core := { Core.reset with cells := [{ cellA with stage := .moving 1 }, { cellA with id := 1, stage := .copy 0, allow := .egr 9 }], nextId := 2 } }, { cellA with stage := .moving 1 }, { cellA with id := 1, stage := .copy 0, allow := .egr 9 }, 9, [], by decide⟩

/-- A state and operands that meet the hypotheses of CellsMove, part 3. -/
theorem wit_CellsMove_3 : ∃ (s : State) (tile peer : Nat) (c : Cell),
    NoneDue s ∧
    frozen s = false ∧
    s.core.cells = [c] ∧
    c.tile = tile ∧
    c.allow = .arr peer ∧
    c.stage = .unlinked ∧
    tget 0 s.core.bseqRx (8 * tile + peer) = c.bseq ∧
    c.bseq < 1023 ∧
    tget 0 s.core.bseqTx (8 * peer + tile) = c.bseq + 1 :=
  ⟨{ up with core := { Core.reset with cells := [{ cellA with stage := .unlinked, allow := .arr 2 }], nextId := 1, bseqTx := [(16, 1)] } }, 0, 2, { cellA with stage := .unlinked, allow := .arr 2 }, by decide⟩

/-- A state and operands that meet the hypotheses of SchedulerMatchesLoneCell. -/
theorem wit_SchedulerMatchesLoneCell : ∃ (s : State) (p : Nat) (c : Cell),
    NoneDue s ∧
    frozen s = false ∧
    rd s (.cnp c.tile) F.BLK_CTL_RUN = 0 ∧
    s.core.cells = [c] ∧
    s.core.repeats = [] ∧
    s.core.starve = [] ∧
    s.core.gptr = [] ∧
    s.core.aptr = [] ∧
    s.core.rot = [] ∧
    c.inp = .link p ∧
    c.allow = .ing p ∧
    c.stage = .voq ∧
    c.bad = false ∧
    c.hdrBad = false ∧
    c.out < 512 ∧
    c.tc < 4 ∧
    c.oc = 3 ∧
    tileOf c.out = c.tile ∧
    1 ≤ linkPaths s p ∧
    1 ≤ linkPaths s c.out ∧
    c.id < s.core.nextId ∧
    (canAllocate s c.tile (.egr c.out) c.tc).isSome = true ∧
    1 ≤ rdf s (.cnp c.tile) F.CNP_SCHED_CFG_LOCAL_STARVE :=
  ⟨voqW, 8, { cellA with out := 12, stage := .voq, allow := .ing 8 }, by decide +kernel⟩

/-! ### Bindings -/

/-- Link 16 a device in L0 and in RUN beside host link 8. -/
def vpW : State := linkW 1 0 |> wr (.phy 16) F.PHY_LINK_CFG_ROLE 2 |> wr (.phy 16) F.PHY_LINK_CFG_WIDTH 2
  |> wr (.phy 16) F.BLK_CTL_RUN 0 |> setLink 16 { LinkS.reset with phase := .l0, fullW := 8, credit := cr64 }

def bindA : Binding := { Binding.empty with valid := true, part := 3, rights := 0x1B6, out := 16, dpa := 4 }

/-- Partition 3 on host link 8 in RUN, with entry 7: 2 MiB at offset 0, device 16. -/
def bindW : State := vpW |> wr (.phy 8) F.PHY_LINK_CFG_HPART 3 |> setPartSt 3 0 |> setBind 7 bindA
  |> wr (.pmd 3) F.PMD_CFG_CAP 8 |> wr (.pmd 3) F.PMD_STS_DEC_COMMIT 1 |> wr (.pmd 3) F.PMD_BASE_HI_BASE 0x200

def readA : Req := ⟨.memRd, .mem, 0x20000000040, 64, 0, 0, 0, .any, 5, 0, none, false, false, false, false⟩
def fwdA : Fwd := ⟨1, .host, 3, some 7, 8, none, readA, 16, 0, 0x800040, false, false, false, false, false, none, 1, none⟩

/-- A device of tile 1 on link 80 too. -/
def farBindW : State := bindW |> wr (.phy 80) F.PHY_LINK_CFG_ROLE 2 |> wr (.phy 80) F.PHY_LINK_CFG_WIDTH 2
  |> wr (.phy 80) F.BLK_CTL_RUN 0 |> setLink 80 { LinkS.reset with phase := .l0, fullW := 8, credit := cr64 }

def heldA : Held := ⟨4, 0, 8, 3, none, some 7, readA, some 40, false, none⟩

/-- A state and operands that meet the hypotheses of HostReadForwarded. -/
theorem wit_HostReadForwarded : ∃ (s : State) (p idx : Nat) (r : Req) (b : Binding),
    NoneDue s ∧
    canReceive s p = true ∧
    Quiet s ∧
    roleOf s p = 1 ∧
    resetting s (hpartOf s p) = false ∧
    partSt s (hpartOf s p) = 0 ∧
    r.op = .memRd ∧
    r.space = .mem ∧
    pmdOff s (hpartOf s p) r < rd s (.pmd (hpartOf s p)) F.PMD_CFG_CAP * 2 ^ 21 ∧
    pmdOff s (hpartOf s p) r ≠ noOff ∧
    lookupOff s (hpartOf s p) (pmdOff s (hpartOf s p) r) = some (idx, b) ∧
    b.stopped = false ∧
    r.allowed b = true ∧
    b.kind = 0 ∧
    b.shared = false ∧
    usable s b.out = true :=
  ⟨bindW, 8, 7, readA, bindA, by decide +kernel⟩

/-- A state and operands that meet the hypotheses of UnboundRequest, part 1. -/
theorem wit_UnboundRequest_1 : ∃ (s : State) (p : Nat) (r : Req) (u : Upset),
    NoneDue s ∧
    canReceive s p = true ∧
    s.home.alc = [] ∧
    roleOf s p = 1 ∧
    resetting s (hpartOf s p) = false ∧
    partSt s (hpartOf s p) = 0 ∧
    r.space = .mem ∧
    r.op = .memRd ∧
    (rd s (.pmd (hpartOf s p)) F.PMD_STS_DEC_COMMIT = 0 ∨
      rd s (.pmd (hpartOf s p)) F.PMD_CFG_CAP * 2 ^ 21 ≤ pmdOff s (hpartOf s p) r) :=
  ⟨bindW, 8, { readA with addr := 5 }, Upset.none, by decide +kernel⟩

/-- A state and operands that meet the hypotheses of UnboundRequest, part 2. -/
theorem wit_UnboundRequest_2 : ∃ (s : State) (p : Nat) (r : Req) (u : Upset),
    NoneDue s ∧
    canReceive s p = true ∧
    s.home.alc = [] ∧
    roleOf s p = 1 ∧
    resetting s (hpartOf s p) = false ∧
    partSt s (hpartOf s p) = 0 ∧
    r.space = .mem ∧
    r.op ∈ [.memInv, .memWr, .memWrPtl, .memClnEvct] ∧
    (rd s (.pmd (hpartOf s p)) F.PMD_STS_DEC_COMMIT = 0 ∨
      rd s (.pmd (hpartOf s p)) F.PMD_CFG_CAP * 2 ^ 21 ≤ pmdOff s (hpartOf s p) r) :=
  ⟨wr (.pmd 3) F.PMD_STS_DEC_COMMIT 0 bindW, 8, { readA with op := .memWr }, Upset.none, by decide +kernel⟩

/-- A state and operands that meet the hypotheses of TargetAnswers, part 1. -/
theorem wit_TargetAnswers_1 : ∃ (s : State) (f : Fwd) (data : LineData),
    NoneDue s ∧
    canReceive s f.out = true ∧
    s.home.found = [] ∧
    s.dbg.waiting = none ∧
    s.maps.fwds = [f] ∧
    s.core.cells = [] ∧
    s.core.rob = [] ∧
    s.maps.ioWait = [] ∧
    s.maps.held = [] ∧
    s.maps.waits = [] ∧
    s.home.loq = [] ∧
    f.agent = .host ∧
    f.dropped = false ∧
    f.job = none ∧
    f.fromVp = none ∧
    f.req.op = .memRd ∧
    resetting s f.part = false ∧
    (512 ≤ f.lead ∨ tileOf f.lead = tileOf f.out) :=
  ⟨{ bindW with maps := { bindW.maps with fwds := [fwdA] } }, fwdA, 5#512, by decide⟩

/-- A state and operands that meet the hypotheses of TargetAnswers, part 2. -/
theorem wit_TargetAnswers_2 : ∃ (s : State) (f : Fwd) (data : LineData),
    NoneDue s ∧
    canReceive s f.out = true ∧
    s.home.found = [] ∧
    s.dbg.waiting = none ∧
    s.maps.fwds = [f] ∧
    s.core.cells = [] ∧
    s.core.rob = [] ∧
    s.maps.ioWait = [] ∧
    s.maps.held = [] ∧
    s.maps.waits = [] ∧
    s.home.loq = [] ∧
    f.agent = .host ∧
    f.dropped = false ∧
    f.job = none ∧
    f.fromVp = none ∧
    f.req.op = .memRd ∧
    resetting s f.part = false ∧
    f.lead < 512 ∧
    tileOf f.lead ≠ tileOf f.out :=
  ⟨{ farBindW with maps := { farBindW.maps with fwds := [{ fwdA with out := 80 }] } }, { fwdA with out := 80 }, 5#512, by decide⟩

/-- A state and operands that meet the hypotheses of BindAddAccepted, part 1. -/
theorem wit_BindAddAccepted_1 : ∃ (s : State) (c : Ctx) (q0 q1 q2 q3 : DWord),
    NoneDue s ∧
    CoreActs s ∧
    Quiet s ∧
    partSt s (Binding.ofWords q0.toNat q1.toNat q2.toNat q3.toNat).part ≠ 1 ∧
    bindJudge s (.ofWords q0.toNat q1.toNat q2.toNat q3.toNat) none = none ∧
    (s.maps.binds.filter fun e => e.2.valid).length < 262144 :=
  ⟨bindW, c0, 0xC000008600000000#64, 0x200000#64, 0x400000#64, 0x800000000000000#64, by decide +kernel⟩

/-- A state and operands that meet the hypotheses of BindAddAccepted, part 2. -/
theorem wit_BindAddAccepted_2 : ∃ (s : State) (idx op n : Nat) (c : Ctx) (b : Binding),
    NoneDue s ∧
    frozen s = false ∧
    s.maps.pend = [⟨idx, .place b, some c, op, false, n⟩] ∧
    (bindOf s idx).valid = false :=
  ⟨{ bindW with maps := { bindW.maps with pend := [⟨9, .place bindA, some c0, 0x20, false, 3⟩] } }, 9, 0x20, 3, c0, bindA, by decide⟩

/-- A state and operands that meet the hypotheses of BindingChanges, part 1. -/
theorem wit_BindingChanges_1 : ∃ (s : State) (c : Ctx) (idx tmo : Nat),
    NoneDue s ∧
    CoreActs s ∧
    0 < tmo ∧
    tmo < 2 ^ 32 ∧
    (bindOf s idx).valid = true ∧
    bindBusy s idx = false ∧
    partSt s (bindOf s idx).part = 2 :=
  ⟨setPartSt 3 2 bindW, c0, 7, 5, by decide⟩

/-- A state and operands that meet the hypotheses of BindingChanges, part 2. -/
theorem wit_BindingChanges_2 : ∃ (s : State) (c : Ctx) (idx tmo : Nat),
    NoneDue s ∧
    CoreActs s ∧
    0 < tmo ∧
    tmo < 2 ^ 32 ∧
    (bindOf s idx).valid = true ∧
    bindBusy s idx = false ∧
    partSt s (bindOf s idx).part = 0 ∧
    (bindOf s idx).kind = 0 :=
  ⟨bindW, c0, 7, 5, by decide⟩

/-- A state and operands that meet the hypotheses of BindingChanges, part 3. -/
theorem wit_BindingChanges_3 : ∃ (s : State) (idx op n : Nat) (c : Ctx),
    NoneDue s ∧
    frozen s = false ∧
    s.maps.pend = [⟨idx, .remove, some c, op, false, n⟩] ∧
    s.maps.held = [] ∧
    s.maps.waits = [] ∧
    s.maps.ioWait = [] ∧
    (bindOf s idx).valid = true :=
  ⟨{ bindW with maps := { bindW.maps with pend := [⟨7, .remove, some c0, 0x21, false, 3⟩] } }, 7, 0x21, 3, c0, by decide⟩

/-- A state and operands that meet the hypotheses of BindingChanges, part 4. -/
theorem wit_BindingChanges_4 : ∃ (s : State) (idx n : Nat) (w : BWait),
    NoneDueBy n s ∧
    clockRuns s = true ∧
    (s.maps.waits.find? fun w => w.idx == idx && w.del && w.deadline.isSome) = some w ∧
    w.deadline = some n :=
  ⟨{ bindW with maps := { bindW.maps with waits := [⟨7, true, some c0, some 9, false, 0, bindA⟩] } }, 7, 9, ⟨7, true, some c0, some 9, false, 0, bindA⟩, by decide⟩

/-- A state and operands that meet the hypotheses of BindingChanges, part 5. -/
theorem wit_BindingChanges_5 : ∃ (s : State) (c : Ctx) (idx : Nat),
    NoneDue s ∧
    CoreActs s ∧
    (bindOf s idx).valid = true ∧
    bindBusy s idx = false :=
  ⟨bindW, c0, 7, by decide⟩

/-- A state and operands that meet the hypotheses of BindingChanges, part 6. -/
theorem wit_BindingChanges_6 : ∃ (s : State) (idx op n : Nat) (c : Ctx),
    NoneDue s ∧
    frozen s = false ∧
    s.maps.pend = [⟨idx, .stop, some c, op, false, n⟩] ∧
    (bindOf s idx).valid = true ∧
    (bindOf s idx).stopped = false :=
  ⟨{ bindW with maps := { bindW.maps with pend := [⟨7, .stop, some c0, 0x22, false, 3⟩] } }, 7, 0x22, 3, c0, by decide⟩

/-- A state and operands that meet the hypotheses of BindingChanges, part 7. -/
theorem wit_BindingChanges_7 : ∃ (s : State) (idx : Nat) (w : BWait),
    NoneDue s ∧
    (s.maps.waits.find? fun w => w.idx == idx && !w.del) = some w ∧
    bindIdle s idx (some w.tc) = true :=
  ⟨{ bindW with maps := { bindW.maps with waits := [⟨7, false, some c0, none, false, 0, bindA⟩] } }, 7, ⟨7, false, some c0, none, false, 0, bindA⟩, by decide⟩

/-- A state and operands that meet the hypotheses of BindingChanges, part 8. -/
theorem wit_BindingChanges_8 : ∃ (s : State) (c : Ctx) (idx : Nat),
    NoneDue s ∧
    CoreActs s ∧
    (bindOf s idx).valid = true ∧
    bindBusy s idx = false :=
  ⟨bindW, c0, 7, by decide⟩

/-- A state and operands that meet the hypotheses of DynamicCapacityAndDecoder, part 1. -/
theorem wit_DynamicCapacityAndDecoder_1 : ∃ (s : State) (idx : Nat),
    NoneDue s ∧
    frozen s = false ∧
    s.maps.offers.contains idx = true :=
  ⟨{ bindW with maps := { bindW.maps with offers := [7] } }, 7, by decide⟩

/-- A state and operands that meet the hypotheses of DynamicCapacityAndDecoder, part 2. -/
theorem wit_DynamicCapacityAndDecoder_2 : ∃ (s : State) (part off len idx : Nat) (b : Binding),
    NoneDue s ∧
    frozen s = false ∧
    s.maps.waits = [] ∧
    s.maps.pend = [] ∧
    (s.maps.binds.find? fun e =>
      e.2.valid && e.2.hasOff && e.2.part == part && e.2.base == off && e.2.bytes == len) = some (idx, b) :=
  ⟨bindW, 3, 0, 2097152, 7, bindA, by decide⟩

/-- A state and operands that meet the hypotheses of DynamicCapacityAndDecoder, part 3. -/
theorem wit_DynamicCapacityAndDecoder_3 : ∃ (s : State) (h : Held) (n i : Nat),
    NoneDueBy n s ∧
    frozen s = false ∧
    clockRuns s = true ∧
    s.maps.held = [h] ∧
    s.maps.ioWait = [] ∧
    h.deadline = some n ∧
    h.bind = some i ∧
    (bindOf s i).stopped = true ∧
    h.via = none ∧
    h.fromVp = none ∧
    h.req.op = .memRd :=
  ⟨{ setBind 7 { bindA with stopped := true } bindW with maps := { (setBind 7 { bindA with stopped := true } bindW).maps with held := [heldA] } }, heldA, 40, 7, by decide⟩

/-- A state and operands that meet the hypotheses of DynamicCapacityAndDecoder, part 4. -/
theorem wit_DynamicCapacityAndDecoder_4 : ∃ (s : State) (part base : Nat),
    NoneDue s ∧
    frozen s = false ∧
    base % 2 ^ 40 = 0 ∧
    base < 2 ^ 64 :=
  ⟨up, 3, 0x20000000000, by decide⟩

/-- A state and operands that meet the hypotheses of DynamicCapacityAndDecoder, part 5. -/
theorem wit_DynamicCapacityAndDecoder_5 : ∃ (s : State) (part base size ways : Nat),
    NoneDue s ∧
    frozen s = false ∧
    (base % 2 ^ 40 ≠ 0 ∨ ways ≠ 1) :=
  ⟨up, 3, 5, 0, 1, by decide⟩

/-- A state and operands that meet the hypotheses of HotPlug, part 1. -/
theorem wit_HotPlug_1 : ∃ (s : State) (c : Ctx) (part vp lead : Nat),
    NoneDue s ∧
    CoreActs s ∧
    vp ≠ 0 ∧
    vp < 64 ∧
    part < 128 ∧
    lead < 512 ∧
    roleOf s lead = 2 ∧
    isLead s lead = true ∧
    vpOfLead s lead = none ∧
    isTarget s lead = false ∧
    (vpOf s part vp).lead = none :=
  ⟨vpW, c0, 3, 1, 16, by decide +kernel⟩

/-- A state and operands that meet the hypotheses of HotPlug, part 2. -/
theorem wit_HotPlug_2 : ∃ (s : State) (c : Ctx) (part vp tmo lead : Nat),
    NoneDue s ∧
    CoreActs s ∧
    vp ≠ 0 ∧
    vp < 64 ∧
    part < 128 ∧
    (vpOf s part vp).lead = some lead ∧
    (vpOf s part vp).rm = none ∧
    (vpOf s part vp).pwr = true :=
  ⟨setVp 3 1 { Vp.reset with lead := some 16 } vpW, c0, 3, 1, 50, 16, by decide⟩

/-- A state and operands that meet the hypotheses of HotPlug, part 3. -/
theorem wit_HotPlug_3 : ∃ (s : State) (c : Ctx) (part vp n : Nat),
    NoneDueBy n s ∧
    (vpOf s part vp).rm = some (c, n) ∧
    clockRuns s = true :=
  ⟨setVp 3 1 { Vp.reset with lead := some 16, rm := some (c0, 60) } vpW, c0, 3, 1, 60, by decide⟩

/-- A state and operands that meet the hypotheses of HotPlug, part 4. -/
theorem wit_HotPlug_4 : ∃ (s : State) (c : Ctx) (part vp n lead : Nat),
    NoneDue s ∧
    frozen s = false ∧
    vp ≠ 0 ∧
    vp < 64 ∧
    (vpOf s part vp).lead = some lead ∧
    (vpOf s part vp).rm = some (c, n) :=
  ⟨setVp 3 1 { Vp.reset with lead := some 16, rm := some (c0, 60) } vpW, c0, 3, 1, 60, 16, by decide⟩

/-! ### Write acceptance and coherence -/

def ackW : State := setBind 7 { bindA with earlyAck := true } bindW |> wr (.pmd 3) F.PMD_WAB_CFG_LIMIT 100
def writeA : Req := { readA with op := .memWr, data := 77, mask := fullMask }
def entA : WabE := ⟨5, 0, 3, 7, 16, 0, 0x800040, fullMask, 77#512, false, 1, 0, 90, false, false, 0, false⟩
def fwdB : Fwd := { fwdA with agent := .wab 0 5, req := writeA }
def wabW (e : WabE) : State := { ackW with wab := { ackW.wab with ents := [e], nextId := 6 } }
def wabF : State := { wabW entA with maps := { (wabW entA).maps with fwds := [fwdB] } }
def fenceA : IoWait := ⟨4, 8, 3, none, { readA with op := .ioRead, space := .bar0, addr := 0x1F000, size := 8 }, .drain [6], true⟩
def fenceW : State := { ackW with
  wab := { ackW.wab with drains := [⟨6, 3, 0, [], .fence⟩], ents := [{ entA with stranded := true }] }
  maps := { ackW.maps with ioWait := [fenceA] } }

/-- A state and operands that meet the hypotheses of EarlyAckedWrites, part 1. -/
theorem wit_EarlyAckedWrites_1 : ∃ (s : State) (p idx : Nat) (r : Req) (b : Binding),
    NoneDue s ∧
    canReceive s p = true ∧
    Quiet s ∧
    roleOf s p = 1 ∧
    resetting s (hpartOf s p) = false ∧
    partSt s (hpartOf s p) = 0 ∧
    r.op = .memWr ∧
    r.space = .mem ∧
    pmdOff s (hpartOf s p) r < rd s (.pmd (hpartOf s p)) F.PMD_CFG_CAP * 2 ^ 21 ∧
    pmdOff s (hpartOf s p) r ≠ noOff ∧
    lookupOff s (hpartOf s p) (pmdOff s (hpartOf s p) r) = some (idx, b) ∧
    b.valid = true ∧
    b.stopped = false ∧
    b.earlyAck = true ∧
    r.allowed b = true ∧
    b.kind = 0 ∧
    b.shared = false ∧
    usable s b.out = true ∧
    0 < rd s (.pmd (hpartOf s p)) F.PMD_WAB_CFG_LIMIT ∧
    rdb s .wabM F.WAB_MOD_STS_EA_OFF = false :=
  ⟨ackW, 8, 7, writeA, { bindA with earlyAck := true }, by decide +kernel⟩

/-- A state and operands that meet the hypotheses of EarlyAckedWrites, part 2. -/
theorem wit_EarlyAckedWrites_2 : ∃ (s : State) (e : WabE) (f : Fwd),
    NoneDue s ∧
    canReceive s f.out = true ∧
    s.wab.ents = [e] ∧
    s.maps.fwds = [f] ∧
    f.agent = .wab e.tile e.id ∧
    f.own = false ∧
    unanswered s f = true ∧
    s.home.alc = [] ∧
    s.home.found = [] ∧
    s.dbg.waiting = none ∧
    s.core.cells = [] ∧
    s.maps.ioWait = [] ∧
    s.maps.held = [] ∧
    s.maps.waits = [] ∧
    s.home.loq = [] ∧
    e.stranded = false ∧
    e.err = false ∧
    e.outs = 1 ∧
    e.re = 0 ∧
    e.det = false :=
  ⟨wabF, entA, fwdB, by decide +kernel⟩

/-- A state and operands that meet the hypotheses of EarlyAckedWrites, part 3. -/
theorem wit_EarlyAckedWrites_3 : ∃ (s : State) (e : WabE) (f : Fwd),
    NoneDue s ∧
    canReceive s f.out = true ∧
    s.wab.ents = [e] ∧
    s.maps.fwds = [f] ∧
    f.agent = .wab e.tile e.id ∧
    f.own = false ∧
    unanswered s f = true ∧
    s.home.alc = [] ∧
    s.home.found = [] ∧
    s.dbg.waiting = none ∧
    s.core.cells = [] ∧
    s.maps.ioWait = [] ∧
    s.maps.held = [] ∧
    s.maps.waits = [] ∧
    s.home.loq = [] ∧
    e.stranded = false ∧
    e.err = false ∧
    e.outs = 1 ∧
    e.re = 0 ∧
    e.det = false :=
  ⟨wabF, entA, fwdB, by decide +kernel⟩

/-- A state and operands that meet the hypotheses of EarlyAckedWrites, part 4. -/
theorem wit_EarlyAckedWrites_4 : ∃ (s : State) (e : WabE),
    NoneDueBy e.deadline s ∧
    frozen s = false ∧
    clockRuns s = true ∧
    s.wab.ents = [e] ∧
    e.stranded = false ∧
    s.maps.ioWait = [] ∧
    s.maps.held = [] ∧
    s.home.loq = [] ∧
    s.home.alc = [] ∧
    s.home.found = [] ∧
    s.dbg.waiting = none :=
  ⟨wabW entA, entA, by decide +kernel⟩

/-- A state and operands that meet the hypotheses of EarlyAckedWrites, part 5. -/
theorem wit_EarlyAckedWrites_5 : ∃ (s : State) (e : WabE),
    NoneDue s ∧
    frozen s = false ∧
    linkUp s e.out = true ∧
    linkRun s e.out = true ∧
    s.wab.ents = [e] ∧
    e.stranded = true ∧
    e.det = true ∧
    s.wab.bad = [] ∧
    s.home.alc = [] :=
  ⟨wabW { entA with stranded := true, outs := 0, det := true }, { entA with stranded := true, outs := 0, det := true }, by decide +kernel⟩

/-- A state and operands that meet the hypotheses of EarlyAckedWrites, part 6. -/
theorem wit_EarlyAckedWrites_6 : ∃ (s : State) (c : Ctx) (part idx : Nat),
    NoneDue s ∧
    CoreActs s ∧
    part < 128 ∧
    idx < 2 ^ 18 ∧
    s.maps.ioWait = [] ∧
    s.maps.held = [] ∧
    s.maps.waits = [] ∧
    s.home.loq = [] ∧
    s.home.found = [] ∧
    s.dbg.waiting = none :=
  ⟨wabW { entA with stranded := true, outs := 0 }, c0, 3, 7, by decide +kernel⟩

/-- A state and operands that meet the hypotheses of DrainsAndFence, part 1. -/
theorem wit_DrainsAndFence_1 : ∃ (s : State) (p tag : Nat),
    NoneDue s ∧
    canReceive s p = true ∧
    Quiet s ∧
    roleOf s p = 1 ∧
    resetting s (hpartOf s p) = false ∧
    partSt s (hpartOf s p) = 0 :=
  ⟨ackW, 8, 9, by decide +kernel⟩

/-- A state and operands that meet the hypotheses of DrainsAndFence, part 2. -/
theorem wit_DrainsAndFence_2 : ∃ (s : State) (p tag : Nat),
    NoneDue s ∧
    canReceive s p = true ∧
    Quiet s ∧
    roleOf s p = 1 ∧
    resetting s (hpartOf s p) = false ∧
    partSt s (hpartOf s p) = 0 :=
  ⟨ackW, 8, 9, by decide +kernel⟩

/-- A state and operands that meet the hypotheses of DrainsAndFence, part 3. -/
theorem wit_DrainsAndFence_3 : ∃ (s : State) (d : Drain) (w : IoWait),
    NoneDue s ∧
    frozen s = false ∧
    s.wab.drains = [d] ∧
    cutDone s d = true ∧
    s.maps.ioWait = [w] ∧
    s.maps.held = [] ∧
    w.why = .drain [d.id] ∧
    w.fence = true ∧
    w.req.size = 8 ∧
    resetting s w.part = false :=
  ⟨fenceW, ⟨6, 3, 0, [], .fence⟩, fenceA, by decide +kernel⟩

/-- A state and operands that meet the hypotheses of DrainsAndFence, part 4. -/
theorem wit_DrainsAndFence_4 : ∃ (s : State) (n : Nat) (f : Fatal),
    NoneDueBy (n + 10000) s ∧
    clockRuns s = true ∧
    s.wab.wait = some n ∧
    s.flt.fatal = some f :=
  ⟨{ up with wab := { up.wab with wait := some 5 }, flt := { up.flt with fatal := some ⟨1, 1, 2, 5, none, false⟩ } }, 5, ⟨1, 1, 2, 5, none, false⟩, by decide⟩

/-- A state and operands that meet the hypotheses of DrainsAndFence, part 5. -/
theorem wit_DrainsAndFence_5 : ∃ (s : State) (n : Nat),
    NoneDueBy (n + 10000) s ∧
    clockRuns s = true ∧
    s.wab.pwrDrain = some n :=
  ⟨{ wabW entA with wab := { (wabW entA).wab with pwrDrain := some 5 } }, 5, by decide +kernel⟩

/-- A state and operands that meet the hypotheses of DrainsAndFence, part 6. -/
theorem wit_DrainsAndFence_6 : ∃ (s : State),
    Takes s .wabM :=
  ⟨wabW entA, by decide +kernel⟩

def lineA : LineId := ⟨16, 0, 5⟩
def loqA : LoqE := { LoqE.start 2 3 8 none lineA 7 4 .mem { readA with tag := 6 } false false none with id := 9 }
def homeW (l : List LoqE) (h : List HaloE) (n : List Snoop) : State :=
  { vpW with home := { vpW.home with loq := l, halo := h, snoops := n, nextId := 20, sgMem := [(4, 8)] } }
    |> wr (.phy 8) F.PHY_LINK_CFG_HPART 3
def snpA : Snoop := ⟨11, 0, 3, 8, 9, lineA, .inv, 70, false, none, 0, false, none⟩
def loqB : LoqE := { loqA with stage := .snooping, stations := [0, 1] }
def alcA : AlcL := ⟨2, lineA, true, false, false, false, 3, 7, 0x0102030405060708#512, 0, false, false⟩
def loqC (k : LoqKind) (op : ReqOp) : LoqE :=
  { loqA with stage := .queued, kind := k, req := { readA with op := op, addr := 2, size := 4, data := 0xFFFFFFFF, reqId := 3 } }
def alcW (k : LoqKind) (op : ReqOp) (r : List Resv) : State :=
  let s := homeW [loqC k op] [] []
  { s with home := { s.home with alc := [alcA], slots := r } }
def resvA : Resv := ⟨3, 3, none, 2, lineA, 7, .valid, 0⟩

/-- A state and operands that meet the hypotheses of HomeOrderAndHalo, part 1. -/
theorem wit_HomeOrderAndHalo_1 : ∃ (s : State) (e : LoqE) (clk : Nat) (r : CellRead),
    NoneDue s ∧
    frozen s = false ∧
    ((∀ c ∈ s.core.cells, e.id ∉ c.homes)) ∧
    s.home.loq = [e] ∧
    e.stage = .travel ∧
    e.isWb = false :=
  ⟨homeW [{ loqA with kind := .io }] [] [], { loqA with kind := .io }, 3, CellRead.clean, by decide +kernel⟩

/-- A state and operands that meet the hypotheses of HomeOrderAndHalo, part 2. -/
theorem wit_HomeOrderAndHalo_2 : ∃ (s : State) (e : LoqE) (clk : Nat) (r : CellRead),
    NoneDue s ∧
    frozen s = false ∧
    ((∀ c ∈ s.core.cells, e.id ∉ c.homes)) ∧
    s.home.loq = [e] ∧
    e.stage = .travel ∧
    e.isWb = true ∧
    s.home.snoops = [] :=
  ⟨homeW [{ loqA with req := writeA }] [] [], { loqA with req := writeA }, 3, CellRead.clean, by decide +kernel⟩

/-- A state and operands that meet the hypotheses of HomeOrderAndHalo, part 3. -/
theorem wit_HomeOrderAndHalo_3 : ∃ (s : State) (e : LoqE),
    NoneDue s ∧
    frozen s = false ∧
    s.home.loq = [e] ∧
    e.stage = .queued ∧
    e.kind = .mem ∧
    s.home.alc = [] ∧
    e.tile < 8 ∧
    e.group < 4096 ∧
    e.req.op = .memRd ∧
    e.req.md = .any :=
  ⟨homeW [{ loqA with stage := .queued }] [] [], { loqA with stage := .queued }, by decide +kernel⟩

/-- A state and operands that meet the hypotheses of HomeOrderAndHalo, part 4. -/
theorem wit_HomeOrderAndHalo_4 : ∃ (s : State) (e : LoqE) (m : HaloE) (k : SnoopKind) (x : Option Nat),
    NoneDue s ∧
    frozen s = false ∧
    s.home.halo = [m] ∧
    (haloWay s m.src m.dst).isSome = true ∧
    m.msg = .bcast e.id e.line e.group k x ∧
    s.home.loq = [e] ∧
    m.dst ≠ e.tile ∧
    s.home.snoops = [] ∧
    membersAt s m.dst e.group x e.part = [] :=
  ⟨homeW [loqB] [⟨12, 2, 1, .bcast 9 lineA 4 .inv none, 0, true⟩] [], loqB, ⟨12, 2, 1, .bcast 9 lineA 4 .inv none, 0, true⟩, .inv, none, by decide +kernel⟩

/-- A state and operands that meet the hypotheses of HomeOrderAndHalo, part 5. -/
theorem wit_HomeOrderAndHalo_5 : ∃ (s : State) (e : LoqE) (m : HaloE) (k : SnoopKind) (x : Option Nat) (p l : Nat),
    NoneDue s ∧
    frozen s = false ∧
    s.home.halo = [m] ∧
    (haloWay s m.src m.dst).isSome = true ∧
    m.msg = .bcast e.id e.line e.group k x ∧
    s.home.loq = [e] ∧
    m.dst ≠ e.tile ∧
    s.home.snoops = [] ∧
    membersAt s m.dst e.group x e.part = [(p, l)] :=
  ⟨homeW [loqB] [⟨12, 2, 0, .bcast 9 lineA 4 .inv none, 0, true⟩] [], loqB, ⟨12, 2, 0, .bcast 9 lineA 4 .inv none, 0, true⟩, .inv, none, 3, 8, by decide +kernel⟩

/-- A state and operands that meet the hypotheses of HomeOrderAndHalo, part 6. -/
theorem wit_HomeOrderAndHalo_6 : ∃ (s : State) (m : HaloE) (loq st : Nat) (l : List (Nat × HRsp)) (k x : Nat) (up : Bool),
    NoneDue s ∧
    frozen s = false ∧
    s.home.halo = [m] ∧
    m.msg = .resp loq st l ∧
    (haloWay s m.src m.dst).bind (fun w => w[k]?) = some (x, up) ∧
    (if x = m.src ∧ up = m.up then m.fails + 1 else 1) < rd s (.halo x) F.HALO_CFG_LIM ∧
    srcMasked s (tileSrcNo x 14) = true :=
  ⟨wr (.halo 1) F.ERR_MASK_MASK 0xFFFFFFFF (wr (.halo 1) F.HALO_CFG_LIM 3 (homeW [loqB] [⟨12, 1, 2, .resp 9 1 [], 0, true⟩] [])), ⟨12, 1, 2, .resp 9 1 [], 0, true⟩, 9, 1, [], 0, 1, true, by decide +kernel⟩

/-- A state and operands that meet the hypotheses of HomeOrderAndHalo, part 7. -/
theorem wit_HomeOrderAndHalo_7 : ∃ (s : State) (e : LoqE) (m : HaloE) (st : Nat),
    NoneDue s ∧
    frozen s = false ∧
    s.home.halo = [m] ∧
    (haloWay s m.src m.dst).isSome = true ∧
    m.msg = .resp e.id st [] ∧
    s.home.loq = [e] ∧
    e.localDone = false :=
  ⟨homeW [loqB] [⟨12, 1, 2, .resp 9 1 [], 0, true⟩] [], loqB, ⟨12, 1, 2, .resp 9 1 [], 0, true⟩, 1, by decide +kernel⟩

/-- A state and operands that meet the hypotheses of HomeOrderAndHalo, part 8. -/
theorem wit_HomeOrderAndHalo_8 : ∃ (s : State) (e : LoqE) (m : HaloE) (st : Nat),
    NoneDue s ∧
    frozen s = false ∧
    s.home.halo = [m] ∧
    (haloWay s m.src m.dst).isSome = true ∧
    m.msg = .resp e.id st [] ∧
    s.home.loq = [e] ∧
    e.stations = [st] ∧
    e.localDone = true ∧
    e.stage = .snooping ∧
    e.timedOut = [] ∧
    e.kind = .mem ∧
    e.req.op = .memRd ∧
    s.home.alc = [] ∧
    s.wab.ents = [] ∧
    usable s e.line.out = true :=
  ⟨homeW [{ loqB with stations := [1], localDone := true }] [⟨12, 1, 2, .resp 9 1 [], 0, true⟩] [], { loqB with stations := [1], localDone := true }, ⟨12, 1, 2, .resp 9 1 [], 0, true⟩, 1, by decide +kernel⟩

/-- A state and operands that meet the hypotheses of SnoopsAndGroups, part 1. -/
theorem wit_SnoopsAndGroups_1 : ∃ (s : State) (n : Snoop) (e : LoqE) (sh : Bool),
    NoneDue s ∧
    canReceive s n.lead = true ∧
    s.home.snoops = [n] ∧
    n.got = none ∧
    n.heldRsp = none ∧
    s.home.wbs = [] ∧
    s.home.loq = [e] ∧
    n.loq = e.id ∧
    n.tile = e.tile ∧
    e.stage = .snooping ∧
    e.stations ≠ [] :=
  ⟨homeW [loqB] [] [{ snpA with tile := 2 }], { snpA with tile := 2 }, loqB, true, by decide +kernel⟩

/-- A state and operands that meet the hypotheses of SnoopsAndGroups, part 2. -/
theorem wit_SnoopsAndGroups_2 : ∃ (s : State) (n : Snoop) (sh : Bool),
    NoneDue s ∧
    canReceive s n.lead = true ∧
    s.home.snoops = [n] ∧
    n.got = none ∧
    n.heldRsp = none ∧
    (n.lead, n.line) ∈ s.home.wbs :=
  ⟨{ homeW [loqB] [] [snpA] with home := { (homeW [loqB] [] [snpA]).home with wbs := [(8, lineA)] } }, snpA, true, by decide +kernel⟩

/-- A state and operands that meet the hypotheses of SnoopsAndGroups, part 3. -/
theorem wit_SnoopsAndGroups_3 : ∃ (s : State) (lead id : Nat) (sh : Bool),
    NoneDue s ∧
    canReceive s lead = true ∧
    s.home.snoops = [] :=
  ⟨homeW [] [] [], 8, 7, false, by decide +kernel⟩

/-- A state and operands that meet the hypotheses of SnoopsAndGroups, part 4. -/
theorem wit_SnoopsAndGroups_4 : ∃ (s : State) (m : HaloE) (n : Snoop) (e : LoqE) (r : HRsp),
    NoneDue s ∧
    frozen s = false ∧
    s.home.halo = [m] ∧
    (haloWay s m.src m.dst).isSome = true ∧
    m.msg = .wback n.lead n.line ∧
    s.home.wbs = [(n.lead, n.line)] ∧
    s.home.snoops = [n] ∧
    n.heldRsp = some r ∧
    n.wbLeft = 1 ∧
    n.got = none ∧
    s.home.loq = [e] ∧
    n.loq = e.id ∧
    n.tile ≠ e.tile :=
  ⟨{ homeW [loqB] [⟨12, 2, 0, .wback 8 lineA, 0, true⟩] [{ snpA with heldRsp := some .shared, wbLeft := 1 }] with home := { (homeW [loqB] [⟨12, 2, 0, .wback 8 lineA, 0, true⟩] [{ snpA with heldRsp := some .shared, wbLeft := 1 }]).home with wbs := [(8, lineA)] } }, ⟨12, 2, 0, .wback 8 lineA, 0, true⟩, { snpA with heldRsp := some .shared, wbLeft := 1 }, loqB, .shared, by decide +kernel⟩

/-- A state and operands that meet the hypotheses of SnoopsAndGroups, part 5. -/
theorem wit_SnoopsAndGroups_5 : ∃ (s : State) (n : Snoop),
    NoneDue s ∧
    canReceive s n.lead = true ∧
    s.home.snoops = [n] ∧
    n.got = none ∧
    (s.home.loq.filter fun x => x.tile == ((loqOf s n.loq).map (·.tile)).getD n.tile && x.stage != .travel).length < 4096 :=
  ⟨homeW [loqB] [] [snpA], snpA, by decide +kernel⟩

/-- A state and operands that meet the hypotheses of SnoopsAndGroups, part 6. -/
theorem wit_SnoopsAndGroups_6 : ∃ (s : State) (n : Snoop) (e : LoqE),
    NoneDueBy n.deadline s ∧
    frozen s = false ∧
    clockRuns s = true ∧
    s.home.snoops = [n] ∧
    n.got = none ∧
    n.heldRsp = none ∧
    s.home.loq = [e] ∧
    n.loq = e.id ∧
    n.tile ≠ e.tile ∧
    e.group < 4096 :=
  ⟨homeW [loqB] [] [snpA], snpA, loqB, by decide +kernel⟩

/-- A state and operands that meet the hypotheses of SnoopsAndGroups, part 7. -/
theorem wit_SnoopsAndGroups_7 : ∃ (s : State) (m : HaloE) (p g : Nat),
    NoneDue s ∧
    frozen s = false ∧
    s.home.halo = [m] ∧
    (haloWay s m.src m.dst).isSome = true ∧
    m.msg = .fence p g :=
  ⟨homeW [] [⟨12, 2, 0, .fence 3 4, 0, true⟩] [], ⟨12, 2, 0, .fence 3 4, 0, true⟩, 3, 4, by decide +kernel⟩

/-- A state and operands that meet the hypotheses of SnoopsAndGroups, part 8. -/
theorem wit_SnoopsAndGroups_8 : ∃ (s : State) (c : Ctx) (g : Nat) (mem : BitVec 128),
    CoreActs s ∧
    NoneDue s ∧
    g < 4096 ∧
    s.maps.binds = [] ∧
    s.maps.pend = [] ∧
    ((List.range 128).filter fun p => bit mem.toNat p).length ≤ 32 ∧
    ((∀ p, p < 128 → bit mem.toNat p ≠ bit (tget 0 s.home.sgMem g) p → partSt s p = 2)) :=
  ⟨up, c0, 5, 6, by decide +kernel⟩

/-- A state and operands that meet the hypotheses of SnoopsAndGroups, part 9. -/
theorem wit_SnoopsAndGroups_9 : ∃ (s : State) (c : Ctx) (g p : Nat) (mem : BitVec 128),
    CoreActs s ∧
    NoneDue s ∧
    g < 4096 ∧
    p < 128 ∧
    bit mem.toNat p ≠ bit (tget 0 s.home.sgMem g) p ∧
    partSt s p ≠ 2 :=
  ⟨setPartSt 3 0 up, c0, 5, 3, 8, by decide +kernel⟩

/-- A state and operands that meet the hypotheses of SnoopsAndGroups, part 10. -/
theorem wit_SnoopsAndGroups_10 : ∃ (s : State) (v : Word),
    NoneDue s ∧
    Takes s .homeM ∧
    s.home.sgStage = [] ∧
    s.maps.binds = [] ∧
    s.maps.pend = [] ∧
    tget 0 s.home.sgMem (rd s .homeM F.HOME_SG_IDX_GRP) = 0 ∧
    ((List.range 32).filter fun p => bit v.toNat p).length ≤ 32 ∧
    ((∀ p, 96 ≤ p → p < 128 → partSt s p = 2)) :=
  ⟨up, 5, by decide +kernel⟩

/-- A state and operands that meet the hypotheses of AtomicsAndReservations, part 1. -/
theorem wit_AtomicsAndReservations_1 : ∃ (s : State) (e : LoqE) (a : AlcL),
    NoneDue s ∧
    frozen s = false ∧
    s.home.loq = [e] ∧
    e.stage = .queued ∧
    e.kind = .atomic ∧
    s.home.alc = [a] ∧
    a.tile = e.tile ∧
    a.line = e.line ∧
    a.wback = false ∧
    s.home.alcBad = [] ∧
    s.home.found = [] ∧
    a.excl = true ∧
    a.pois = false ∧
    e.plan ≠ 3 ∧
    e.dropRsp = false ∧
    e.job = none ∧
    e.req.op = .fetchAdd ∧
    resetting s e.part = false ∧
    e.lead < 512 ∧
    8 * (e.req.addr % 64) + 8 * e.req.size ≤ 512 :=
  ⟨alcW .atomic .fetchAdd [], loqC .atomic .fetchAdd, alcA, by decide +kernel⟩

/-- A state and operands that meet the hypotheses of AtomicsAndReservations, part 2. -/
theorem wit_AtomicsAndReservations_2 : ∃ (s : State) (e : LoqE) (f : Fwd) (data : LineData),
    NoneDue s ∧
    canReceive s f.out = true ∧
    unanswered s f = true ∧
    s.home.found = [] ∧
    s.dbg.waiting = none ∧
    s.maps.fwds = [f] ∧
    f.agent = .atomic e.tile e.id ∧
    s.home.loq = [e] ∧
    e.dropRsp = false ∧
    e.job = none ∧
    e.req.op = .swap ∧
    resetting s e.part = false ∧
    e.lead < 512 ∧
    s.maps.ioWait = [] ∧
    s.maps.held = [] ∧
    s.maps.waits = [] :=
  ⟨{ homeW [loqC .atomic .swap] [] [] with maps := { (homeW [] [] []).maps with fwds := [{ fwdA with agent := .atomic 2 9 }] } }, loqC .atomic .swap, { fwdA with agent := .atomic 2 9 }, 33, by decide +kernel⟩

/-- A state and operands that meet the hypotheses of AtomicsAndReservations, part 3. -/
theorem wit_AtomicsAndReservations_3 : ∃ (s : State) (e : LoqE) (a : AlcL),
    NoneDue s ∧
    frozen s = false ∧
    s.home.loq = [e] ∧
    e.stage = .queued ∧
    e.kind = .reserve ∧
    s.home.alc = [a] ∧
    a.tile = e.tile ∧
    a.line = e.line ∧
    a.wback = false ∧
    s.home.alcBad = [] ∧
    s.home.found = [] ∧
    a.pois = false ∧
    e.dropRsp = false ∧
    e.job = none ∧
    e.req.op = .ioRead ∧
    resetting s e.part = false ∧
    e.lead < 512 ∧
    s.home.slots = [] :=
  ⟨alcW .reserve .ioRead [], loqC .reserve .ioRead, alcA, by decide +kernel⟩

/-- A state and operands that meet the hypotheses of AtomicsAndReservations, part 4. -/
theorem wit_AtomicsAndReservations_4 : ∃ (s : State) (e : LoqE) (a : AlcL) (r : Resv),
    NoneDue s ∧
    frozen s = false ∧
    s.home.loq = [e] ∧
    e.stage = .queued ∧
    e.kind = .cond ∧
    s.home.alc = [a] ∧
    a.tile = e.tile ∧
    a.line = e.line ∧
    a.wback = false ∧
    s.home.alcBad = [] ∧
    s.home.found = [] ∧
    a.excl = true ∧
    s.home.slots = [r] ∧
    (r.part, r.reqId, r.pasid) = (e.part, e.req.reqId, e.req.pasid) ∧
    r.line = e.line ∧
    r.st = .valid ∧
    e.dropRsp = false ∧
    e.job = none ∧
    e.req.op = .swap ∧
    resetting s e.part = false ∧
    e.lead < 512 ∧
    8 * (e.req.addr % 64) + 8 * e.req.size ≤ 512 :=
  ⟨alcW .cond .swap [resvA], loqC .cond .swap, alcA, resvA, by decide +kernel⟩

/-- A state and operands that meet the hypotheses of AtomicsAndReservations, part 5. -/
theorem wit_AtomicsAndReservations_5 : ∃ (s : State) (e : LoqE),
    NoneDue s ∧
    frozen s = false ∧
    s.home.loq = [e] ∧
    e.stage = .queued ∧
    e.kind = .cond ∧
    s.home.slots = [] ∧
    ((∀ a ∈ s.home.alc, a.wback = false)) ∧
    e.dropRsp = false ∧
    e.job = none ∧
    e.req.op = .swap ∧
    resetting s e.part = false ∧
    e.lead < 512 :=
  ⟨alcW .cond .swap [], loqC .cond .swap, by decide +kernel⟩

/-- The states that ScheduledForms speaks of, with operands at the ends of each form's range. -/
theorem wit_ScheduledForms_forms :
    let s := { wr .ftm F.FTM_STS_STATE 1 vpW with time := 5 }
    frozen s = false ∧ rd s .ftm F.FTM_STS_STATE ≠ 0 ∧ s.time + 512 ≤ 517 ∧ 517 ≤ s.time + 2 ^ 32 ∧ s.sched.length < 256 ∧
      (511 < 512 ∧ 2 ≤ 2 ∧ memberOf s 511 = none) ∧ (16 < 512 ∧ memberOf s 16 = none) ∧ s.mq.parked = [] ∧ NoneDue s ∧
      0x03FFFFFC % 4 = 0 ∧ 0x03FFFFFC < 0x04000000 := by decide

/-- A state and operands that meet the hypotheses of EgressSettings, part 1. -/
theorem wit_EgressSettings_1 : ∃ (s : State) (c : Ctx) (lead part rate burst : Nat) (en : Bool),
    NoneDue s ∧
    CoreActs s ∧
    frozen s = false ∧
    lead < 512 ∧
    part < 128 ∧
    rate < 2 ^ 20 ∧
    isLead s lead = true ∧
    tget none s.egr.shpNew (shpKey lead part) = none :=
  ⟨vpW, c0, 16, 3, 100, 9000, true, by decide⟩

/-- A state and operands that meet the hypotheses of EgressSettings, part 2. -/
theorem wit_EgressSettings_2 : ∃ (s : State) (c : Ctx) (lead part rate burst : Nat) (en : Bool),
    NoneDue s ∧
    CoreActs s ∧
    frozen s = false ∧
    lead < 512 ∧
    part < 128 ∧
    rate < 2 ^ 20 ∧
    isLead s lead = false :=
  ⟨vpW, c0, 17, 3, 100, 9000, true, by decide⟩

/-- A state and operands that meet the hypotheses of EgressSettings, part 3. -/
theorem wit_EgressSettings_3 : ∃ (s : State) (c : Ctx) (lead part tc q : Nat),
    NoneDue s ∧
    CoreActs s ∧
    frozen s = false ∧
    lead < 512 ∧
    part < 128 ∧
    tc < 3 ∧
    q < 2 ^ 16 ∧
    isLead s lead = true ∧
    tget none s.egr.quantaNew (queueKey lead (128 * tc + part)) = none :=
  ⟨vpW, c0, 16, 3, 2, 65535, by decide⟩

/-- A state and operands that meet the hypotheses of EgressSettings, part 4. -/
theorem wit_EgressSettings_4 : ∃ (s : State) (tile l : Nat) (v : Word),
    NoneDue s ∧
    Takes s (.sched tile) ∧
    l = 64 * tile + rd s (.sched tile) F.SCHED_IDX_LPORT ∧
    isLead s l = true ∧
    tget none s.egr.shpNew (shpKey l (rd s (.sched tile) F.SCHED_IDX_PART)) = none :=
  ⟨wr (.sched 0) F.SCHED_IDX_PART 3 (wr (.sched 0) F.SCHED_IDX_LPORT 16 vpW), 0, 16, 0x80000010#32, by decide⟩

/-- A state and operands that meet the hypotheses of EgressSettings, part 5. -/
theorem wit_EgressSettings_5 : ∃ (s : State) (tile : Nat) (v : Word),
    NoneDue s ∧
    Takes s (.sched tile) ∧
    isLead s (64 * tile + rd s (.sched tile) F.SCHED_IDX_LPORT) = false :=
  ⟨wr (.sched 0) F.SCHED_IDX_LPORT 17 vpW, 0, 0x80000010#32, by decide⟩

/-- A state and operands that meet the hypotheses of ScheduledForms. -/
theorem wit_ScheduledForms : ∃ (s : State) (c : Ctx) (inst : Nat),
    NoneDue s ∧
    CoreActs s ∧
    frozen s = false ∧
    rd s .ftm F.FTM_STS_STATE ≠ 0 ∧
    s.time + 512 ≤ inst ∧
    inst ≤ s.time + 2 ^ 32 ∧
    s.sched.length < 256 :=
  ⟨wr .ftm F.FTM_STS_STATE 1 vpW, c0, 512, by decide⟩

/-! ### Partitions -/

def partW (st : Nat) (x : PartS) : State :=
  { setPartSt 3 st bindW with parts := [(3, x)] } |> wr .ftm F.FTM_STS_STATE 1 |> wr (.part 3) F.PART_CFG_QTMO 50
def restA : SchedEnt := ⟨5, 641, 0, .restart 3, .cmd c0 0x11⟩

/-- A state and operands that meet the hypotheses of PartitionStopAndRestart, part 1. -/
theorem wit_PartitionStopAndRestart_1 : ∃ (s : State) (c : Ctx) (p : Nat),
    CoreActs s ∧
    NoneDue s ∧
    frozen s = false ∧
    p < 128 ∧
    restartEnt s p = none ∧
    resetting s p = false ∧
    partSt s p = 0 :=
  ⟨partW 0 PartS.reset, c0, 3, by decide +kernel⟩

/-- A state and operands that meet the hypotheses of PartitionStopAndRestart, part 2. -/
theorem wit_PartitionStopAndRestart_2 : ∃ (s : State) (p : Nat) (v : Word),
    NoneDue s ∧
    Takes s (.part p) ∧
    F.BLK_CTL_RUN.of v.toNat = 2 ∧
    restartEnt s p = none ∧
    resetting s p = false ∧
    partSt s p = 0 :=
  ⟨partW 0 PartS.reset, 3, 2, by decide +kernel⟩

/-- A state and operands that meet the hypotheses of PartitionStopAndRestart, part 3. -/
theorem wit_PartitionStopAndRestart_3 : ∃ (s : State) (p : Nat) (v : Word),
    NoneDue s ∧
    Takes s (.part p) ∧
    F.BLK_CTL_RUN.of v.toNat = 0 ∧
    restartEnt s p = none ∧
    resetting s p = false ∧
    partSt s p = 2 ∧
    holdsPiece s p = true ∧
    rd s .ftm F.FTM_STS_STATE ≠ 0 ∧
    s.sched.length < 256 :=
  ⟨partW 2 PartS.reset, 3, 0, by decide +kernel⟩

/-- A state and operands that meet the hypotheses of PartitionStopAndRestart, part 4. -/
theorem wit_PartitionStopAndRestart_4 : ∃ (s : State) (p : Nat),
    NoneDue s ∧
    frozen s = false ∧
    partSt s p = 1 ∧
    resetting s p = false ∧
    ((∀ f ∈ s.maps.fwds, f.part ≠ p)) ∧
    ((∀ d ∈ s.wab.drains, d.part ≠ p)) ∧
    ((∀ e ∈ s.home.loq, e.part ≠ p)) ∧
    (partOf s p).later = [] ∧
    (partOf s p).laterDel = [] :=
  ⟨partW 1 { PartS.reset with stopAt := some 0, qDue := some 50, stopCtx := [c0] }, 3, by decide +kernel⟩

/-- A state and operands that meet the hypotheses of PartitionStopAndRestart, part 5. -/
theorem wit_PartitionStopAndRestart_5 : ∃ (s : State) (p n : Nat) (f : Fwd),
    NoneDueBy n s ∧
    frozen s = false ∧
    clockRuns s = true ∧
    partSt s p = 1 ∧
    resetting s p = false ∧
    (partOf s p).qDue = some n ∧
    s.maps.fwds = [f] ∧
    f.part = p ∧
    f.agent = .host ∧
    f.late = false ∧
    f.dropped = false ∧
    f.job = none ∧
    f.req.op = .memRd ∧
    f.fromVp = none ∧
    (partOf s p).later = [] ∧
    (partOf s p).laterDel = [] ∧
    s.home.loq = [] ∧
    s.home.alc = [] :=
  ⟨{ partW 1 { PartS.reset with stopAt := some 0, qDue := some 50, stopCtx := [c0] } with maps := { bindW.maps with fwds := [fwdA] } }, 3, 50, fwdA, by decide +kernel⟩

/-- A state and operands that meet the hypotheses of PartitionStopAndRestart, part 6. -/
theorem wit_PartitionStopAndRestart_6 : ∃ (s : State) (c : Ctx) (inst p : Nat),
    CoreActs s ∧
    NoneDue s ∧
    p < 128 ∧
    rd s .ftm F.FTM_STS_STATE ≠ 0 ∧
    s.time + 512 ≤ inst ∧
    inst ≤ s.time + 2 ^ 32 ∧
    s.sched.length < 256 ∧
    holdsPiece s p = true ∧
    resetting s p = false ∧
    partSt s p = 2 ∧
    restartEnt s p = none :=
  ⟨partW 2 PartS.reset, c0, 512, 3, by decide +kernel⟩

/-- A state and operands that meet the hypotheses of PartitionStopAndRestart, part 7. -/
theorem wit_PartitionStopAndRestart_7 : ∃ (s : State) (c : Ctx) (inst p : Nat),
    CoreActs s ∧
    NoneDue s ∧
    ((partSt s p ≠ 2 ∨ holdsPiece s p = false ∨ resetting s p = true)) :=
  ⟨partW 0 PartS.reset, c0, 512, 3, by decide +kernel⟩

/-- A state and operands that meet the hypotheses of PartitionStopAndRestart, part 8. -/
theorem wit_PartitionStopAndRestart_8 : ∃ (s : State) (p : Nat) (e : SchedEnt),
    frozen s = false ∧
    clockRuns s = true ∧
    s.sched = [e] ∧
    e.act = .restart p ∧
    s.maps.held = [] ∧
    s.maps.ioWait = [] ∧
    s.maps.pend = [] ∧
    (((s.time + entLeft s e) % 2 ^ 7 = 0 → entLeft s e = 0 ∧ s.ftm.slotDone = s.time ∧
      (s.time % 2 ^ 17 = 0 → s.ftm.epochDone = s.time))) :=
  ⟨{ partW 2 PartS.reset with sched := [restA] }, 3, restA, by decide +kernel⟩

/-- A state and operands that meet the hypotheses of PartitionReset, part 1. -/
theorem wit_PartitionReset_1 : ∃ (s : State) (c : Ctx) (p : Nat),
    CoreActs s ∧
    NoneDue s ∧
    frozen s = false ∧
    p < 128 ∧
    resetting s p = false :=
  ⟨{ partW 2 PartS.reset with sched := [restA], maps := { bindW.maps with fwds := [fwdA], held := [heldA] } }, c0, 3, by decide +kernel⟩

/-- A state and operands that meet the hypotheses of PartitionReset, part 2. -/
theorem wit_PartitionReset_2 : ∃ (s : State) (p : Nat),
    NoneDue s ∧
    Takes s (.part p) ∧
    resetting s p = false :=
  ⟨partW 0 PartS.reset, 3, by decide +kernel⟩

/-- A state and operands that meet the hypotheses of PartitionReset, part 3. -/
theorem wit_PartitionReset_3 : ∃ (s : State) (lead : Nat),
    NoneDue s ∧
    canReceive s lead = true ∧
    roleOf s lead = 1 ∧
    resetting s (hpartOf s lead) = false :=
  ⟨partW 0 PartS.reset, 8, by decide +kernel⟩

/-- A state and operands that meet the hypotheses of PartitionReset, part 4. -/
theorem wit_PartitionReset_4 : ∃ (s : State) (p : Nat),
    NoneDue s ∧
    frozen s = false ∧
    resetting s p = true ∧
    ((∀ d ∈ s.wab.drains, d.part ≠ p)) ∧
    ((∀ e ∈ s.home.loq, e.part ≠ p)) ∧
    (partOf s p).snoops = [] ∧
    (partOf s p).intoStop = false ∧
    partSt s p ≠ 1 :=
  ⟨partW 2 { PartS.reset with resetAt := some 0 }, 3, by decide +kernel⟩

/-! ### Management -/

def evA : Event := ⟨4, 6, 3, false, 9, [(20, 7)]⟩
def cplA : Cpl := ⟨c0, 0, 0, false, 0, 0, 0⟩
def qW : State := wr (.mq 0 0) F.BLK_CTL_RUN 0 (wr (.mq 0 0) F.MQ_Q_CFG_SCOPE_MOD 1 up)
def coreW : State :=
  { wr (.mq 0 0) F.MQ_Q_SQ_TAIL 3 qW with flt := { up.flt with cores := [(0, ⟨true, 0⟩), (1, ⟨true, 0⟩)] } }
def cA : Ctx := ⟨0, 0, 0, 0, 0⟩
def evW (q n : Nat) : State := wr (.evq q) F.MQ_EVQ_NEXT_SEQ 5 { up with
  mq := { up.mq with evqs := [(q, List.replicate n evA)], mgmtUp := [0], timers := [(q, some 3)] } }

/-- A state and operands that meet the hypotheses of QueuesAndDoorbells, part 1. -/
theorem wit_QueuesAndDoorbells_1 : ∃ (s : State) (ep q v n : Nat),
    qRun s ep q = true ∧
    rd s (.mq ep q) F.MQ_Q_CFG_SQ_LOG2 ≤ 12 ∧
    n = sqN s ep q ∧
    v < 2 * n ∧
    (rd s (.mq ep q) F.MQ_Q_SQ_TAIL + 2 * n - rd s (.mq ep q) F.MQ_Q_SQ_HEAD) % (2 * n) ≤
      (v + 2 * n - rd s (.mq ep q) F.MQ_Q_SQ_HEAD) % (2 * n) ∧
    (v + 2 * n - rd s (.mq ep q) F.MQ_Q_SQ_HEAD) % (2 * n) ≤ n :=
  ⟨qW, 0, 0, 16, 16, by decide⟩

/-- A state and operands that meet the hypotheses of QueuesAndDoorbells, part 2. -/
theorem wit_QueuesAndDoorbells_2 : ∃ (s : State) (ep q v : Nat),
    qRun s ep q = true ∧
    (2 * sqN s ep q ≤ v ∨ sqN s ep q <
      (v + 2 * sqN s ep q - rd s (.mq ep q) F.MQ_Q_SQ_HEAD) % (2 * sqN s ep q)) :=
  ⟨qW, 0, 0, 17, by decide⟩

/-- A state and operands that meet the hypotheses of QueuesAndDoorbells, part 3. -/
theorem wit_QueuesAndDoorbells_3 : ∃ (s : State) (ep q v : Nat),
    qRun s ep q = false :=
  ⟨up, 0, 0, 3, by decide⟩

/-- A state and operands that meet the hypotheses of QueuesAndDoorbells, part 4. -/
theorem wit_QueuesAndDoorbells_4 : ∃ (s : State) (ep q v n : Nat) (x : Cpl),
    qRun s ep q = true ∧
    rd s (.mq ep q) F.MQ_Q_CFG_CQ_LOG2 ≤ 12 ∧
    n = cqN s ep q ∧
    v < 2 * n ∧
    heldOf s ep q = [x] ∧
    (x.ctx.ep, x.ctx.q) = (ep, q) ∧
    rdb s (.mq ep q) F.MQ_Q_STS_DMA_ERR = false ∧
    tget none s.mq.cplErr (qkey ep q) = none ∧
    v ≠ rd s (.mq ep q) F.MQ_Q_CQ_HEAD ∧
    rd s (.mq ep q) F.MQ_Q_CQ_HEAD < 2 * n ∧
    rd s (.mq ep q) F.MQ_Q_CQ_TAIL < 2 * n ∧
    (v + 2 * n - rd s (.mq ep q) F.MQ_Q_CQ_HEAD) % (2 * n) ≤
      (rd s (.mq ep q) F.MQ_Q_CQ_TAIL + 2 * n - rd s (.mq ep q) F.MQ_Q_CQ_HEAD) % (2 * n) ∧
    (rd s (.mq ep q) F.MQ_Q_CQ_TAIL + 2 * n - rd s (.mq ep q) F.MQ_Q_CQ_HEAD) % (2 * n) ≤ n :=
  ⟨wr (.mq 0 0) F.MQ_Q_STS_CQ_PAUSED 1 (wr (.mq 0 0) F.MQ_Q_CQ_TAIL 16 (setHeld 0 0 [cplA] qW)), 0, 0, 2, 16, cplA, by decide +kernel⟩

/-- A state and operands that meet the hypotheses of QueuesAndDoorbells, part 5. -/
theorem wit_QueuesAndDoorbells_5 : ∃ (s : State) (ep q : Nat),
    qRun s ep q = true :=
  ⟨{ qW with mq := { qW.mq with ordWait := [(0, 0)] } }, 0, 0, by decide⟩

/-- A state and operands that meet the hypotheses of QueuesAndDoorbells, part 6. -/
theorem wit_QueuesAndDoorbells_6 : ∃ (s : State) (ep q : Nat) (v : Word),
    Takes s (.mq ep q) ∧
    rd s (.mq ep q) F.BLK_CTL_RUN = 2 ∧
    F.BLK_CTL_RUN.of v.toNat = 0 ∧
    4 ≤ rd s (.mq ep q) F.MQ_Q_CFG_SQ_LOG2 ∧
    rd s (.mq ep q) F.MQ_Q_CFG_SQ_LOG2 ≤ 12 ∧
    4 ≤ rd s (.mq ep q) F.MQ_Q_CFG_CQ_LOG2 ∧
    rd s (.mq ep q) F.MQ_Q_CFG_CQ_LOG2 ≤ 12 :=
  ⟨up, 0, 0, 0, by decide⟩

/-- A state and operands that meet the hypotheses of QueuesAndDoorbells, part 7. -/
theorem wit_QueuesAndDoorbells_7 : ∃ (s : State) (ep q : Nat) (v : Word),
    Takes s (.mq ep q) ∧
    ep < 2 :=
  ⟨up, 0, 0, 0, by decide⟩

/-- A state and operands that meet the hypotheses of QueuesAndDoorbells, part 8. -/
theorem wit_QueuesAndDoorbells_8 : ∃ (s : State) (ep : Nat),
    ep < 2 :=
  ⟨sent up, 0, by decide⟩

/-- A state and operands that meet the hypotheses of QueuesAndDoorbells, part 9. -/
theorem wit_QueuesAndDoorbells_9 : ∃ (s : State) (ep : Nat),
    ep < 2 ∧
    ep ∉ s.mq.lost :=
  ⟨{ sent up with mq := { (sent up).mq with mgmtUp := [0] } }, 0, by decide⟩

/-- A state and operands that meet the hypotheses of QueuesAndDoorbells, part 10. -/
theorem wit_QueuesAndDoorbells_10 : ∃ (s : State) (ep : Nat),
    s.mode.isUp = true ∧
    s.rst.refOut = true ∧
    ep ∉ s.mq.mgmtUp :=
  ⟨{ up with rst := { up.rst with refOut := true } }, 1, by decide⟩

/-- A state and operands that meet the hypotheses of QueueCommands, part 1. -/
theorem wit_QueueCommands_1 : ∃ (s : State) (ep q : Nat) (r : Rr) (es rest : List (BitVec 512)) (w : BitVec 512) (e : SqEntry) (c : Ctx),
    NoneDue s ∧
    coreLeft s = true ∧
    s.flt.takeover = false ∧
    rrPick s ep = some (q, r) ∧
    cacheOf s ep q ++ es = w :: rest ∧
    0 < ringDiff (sqN s ep q) (rd s (.mq ep q) F.MQ_Q_SQ_TAIL) (rd s (.mq ep q) F.MQ_Q_SQ_HEAD) ∧
    e = sqEntryOf w ∧
    s.mq.flying = [] ∧
    heldOf s ep q = [] ∧
    cqFull s ep q = false ∧
    s.mq.cplErr = [] ∧
    e.opcode = 0 ∧
    e.atT = false ∧
    e.seq = rd s (.mq ep q) F.MQ_QSEQ_CMD_EXP ∧
    c.ep = ep ∧
    c.q = q ∧
    c.seq = e.seq ∧
    c.sqidx = rd s (.mq ep q) F.MQ_Q_SQ_HEAD % sqN s ep q ∧
    c.gen = genOf s ep :=
  ⟨coreW, 0, 0, ⟨[(0, 15, 8)], 0, 7⟩, [0, 7], [7], 0, sqEntryOf 0, cA, by decide +kernel⟩

/-- A state and operands that meet the hypotheses of QueueCommands, part 2. -/
theorem wit_QueueCommands_2 : ∃ (s : State) (ep q : Nat) (r : Rr) (es rest : List (BitVec 512)) (w : BitVec 512) (e : SqEntry) (c : Ctx),
    NoneDue s ∧
    coreLeft s = true ∧
    rrPick s ep = some (q, r) ∧
    cacheOf s ep q ++ es = w :: rest ∧
    0 < ringDiff (sqN s ep q) (rd s (.mq ep q) F.MQ_Q_SQ_TAIL) (rd s (.mq ep q) F.MQ_Q_SQ_HEAD) ∧
    e = sqEntryOf w ∧
    s.mq.flying = [] ∧
    heldOf s ep q = [] ∧
    cqFull s ep q = false ∧
    s.mq.cplErr = [] ∧
    rdb s (.mq ep q) F.MQ_Q_CFG_SEQ_CHK = true ∧
    e.seq ≠ rd s (.mq ep q) F.MQ_QSEQ_CMD_EXP ∧
    c.ep = ep ∧
    c.q = q ∧
    c.seq = e.seq ∧
    c.sqidx = rd s (.mq ep q) F.MQ_Q_SQ_HEAD % sqN s ep q ∧
    c.gen = genOf s ep :=
  ⟨coreW, 0, 0, ⟨[(0, 15, 8)], 0, 7⟩, [0x90000], [], 0x90000, sqEntryOf 0x90000, { cA with seq := 9 }, by decide +kernel⟩

/-- A state and operands that meet the hypotheses of QueueCommands, part 3. -/
theorem wit_QueueCommands_3 : ∃ (s : State) (ep q : Nat) (r : Rr) (es : List (BitVec 512)) (k : Option Nat),
    NoneDue s ∧
    coreLeft s = true ∧
    rrPick s ep = some (q, r) :=
  ⟨coreW, 0, 0, ⟨[(0, 15, 8)], 0, 7⟩, [0], none, by decide +kernel⟩

/-- A state and operands that meet the hypotheses of QueueCommands, part 4. -/
theorem wit_QueueCommands_4 : ∃ (s : State) (c : Ctx),
    CoreActs s ∧
    Hears s c :=
  ⟨sent up, c0, by decide⟩

/-- A state and operands that meet the hypotheses of QueueCommands, part 5. -/
theorem wit_QueueCommands_5 : ∃ (s : State) (c : Ctx),
    CoreActs s ∧
    Hears s c :=
  ⟨sent up, c0, by decide⟩

/-- A state and operands that meet the hypotheses of QueueCommands, part 6. -/
theorem wit_QueueCommands_6 : ∃ (s : State) (c : Ctx),
    CoreActs s ∧
    s.flt.fatal = none ∧
    s.mode = .maintenance ∧
    degCond s = false :=
  ⟨{ coreW with mode := .maintenance, glr := { up.glr with bypass := true } }, c0, by decide +kernel⟩

/-- A state and operands that meet the hypotheses of QueueCommands, part 7. -/
theorem wit_QueueCommands_7 : ∃ (s : State) (c : Ctx),
    CoreActs s ∧
    Hears s c ∧
    s.flt.fatal = none ∧
    s.mode = .run :=
  ⟨{ sent up with mode := .run }, c0, by decide⟩

/-- A state and operands that meet the hypotheses of QueueCommands, part 8. -/
theorem wit_QueueCommands_8 : ∃ (s : State) (c : Ctx),
    CoreActs s ∧
    Hears s c ∧
    s.mode = .standby ∧
    rd s .ftm F.FTM_STS_STATE = 0 :=
  ⟨sent up, c0, by decide⟩

/-- A state and operands that meet the hypotheses of QueueCommands, part 9. -/
theorem wit_QueueCommands_9 : ∃ (s : State) (c : Ctx) (p : Nat),
    NoneDue s ∧
    CoreActs s ∧
    Hears s c ∧
    s.mode.isUp = true ∧
    p < 128 :=
  ⟨sent up, c0, 127, by decide⟩

/-- A state and operands that meet the hypotheses of QueueCommands, part 10. -/
theorem wit_QueueCommands_10 : ∃ (s : State) (c : Ctx) (off : Nat) (lost : Bool),
    NoneDue s ∧
    CoreActs s ∧
    Hears s c ∧
    (off % 4 ≠ 0 ∨ 0x4000000 ≤ off) :=
  ⟨sent up, c0, 2, false, by decide⟩

/-- A state and operands that meet the hypotheses of QueueCommands, part 11. -/
theorem wit_QueueCommands_11 : ∃ (s : State) (c : Ctx) (p : Nat) (v : Word),
    CoreActs s ∧
    NoneDue s ∧
    Hears s c ∧
    Takes s (.part p) ∧
    p < 128 ∧
    c.ep < 2 ∧
    c.q < 64 ∧
    s.mq.parked = [] ∧
    rd s (.part p) F.BLK_STS_CFG_REJECT_CNT = 0 :=
  ⟨sent up, c0, 127, 0, by decide⟩

/-- A state and operands that meet the hypotheses of EventQueues, part 1. -/
theorem wit_EventQueues_1 : ∃ (s : State) (q typ : Nat) (pay : List (Nat × Nat)),
    1 ≤ rd s (.evq q) F.MQ_EVQ_CFG_CAP ∧
    (evList s q).length = rd s (.evq q) F.MQ_EVQ_CFG_CAP :=
  ⟨wr (.evq 3) F.MQ_EVQ_CFG_CAP 4 (evW 3 4), 3, 6, [], by decide +kernel⟩

/-- A state and operands that meet the hypotheses of EventQueues, part 2. -/
theorem wit_EventQueues_2 : ∃ (s : State) (q ep x k : Nat),
    (tget none s.mq.ovw q).all (·.tick != s.tick) = true ∧
    (evList s q).length ≤ 32768 ∧
    k ≤ (evList s q).length ∧
    x % 2 ^ 32 = (rd s (.evq q) F.MQ_EVQ_NEXT_SEQ + 2 ^ 33 - (evList s q).length + k - 1) % 2 ^ 32 :=
  ⟨evW 3 4, 3, 0, 2, 2, by decide +kernel⟩

/-- A state and operands that meet the hypotheses of EventQueues, part 3. -/
theorem wit_EventQueues_3 : ∃ (s : State) (q ep typ : Nat) (pay : List (Nat × Nat)) (e : Event) (l : List Event),
    (tget none s.mq.ovw q).all (·.tick != s.tick) = true ∧
    rd s (.evq q) F.MQ_EVQ_CFG_CAP ≤ 32768 ∧
    evList s q = e :: l ∧
    l.length + 1 = rd s (.evq q) F.MQ_EVQ_CFG_CAP :=
  ⟨wr (.evq 3) F.MQ_EVQ_CFG_CAP 4 (evW 3 4), 3, 0, 6, [], evA, List.replicate 3 evA, by decide +kernel⟩

/-- A state and operands that meet the hypotheses of EventQueues, part 4. -/
theorem wit_EventQueues_4 : ∃ (s : State) (q ep : Nat),
    (tget none s.mq.ovw q).all (·.tick != s.tick) = true ∧
    q ≠ 128 ∧
    (evList s q).length ≤ 32768 :=
  ⟨evW 3 4, 3, 0, by decide +kernel⟩

/-- A state and operands that meet the hypotheses of EventQueues, part 5. -/
theorem wit_EventQueues_5 : ∃ (s : State) (c : Ctx) (q : Nat),
    CoreActs s ∧
    Hears s c ∧
    q ≤ 128 :=
  ⟨sent (evW 3 4), c0, 3, by decide +kernel⟩

/-- A state and operands that meet the hypotheses of EventQueues, part 6. -/
theorem wit_EventQueues_6 : ∃ (s : State) (q n ep vec : Nat),
    ep = rd s (.evq q) F.MQ_EVQ_CFG_EP ∧
    vec = rd s (.evq q) F.MQ_EVQ_VEC_VEC ∧
    clockRuns s = true ∧
    rd s (.evq q) F.MQ_EVQ_TMO_TMO ≠ 0 ∧
    evList s q ≠ [] ∧
    tget none s.mq.timers q = some n ∧
    rdb s (.evq q) F.MQ_EVQ_VEC_INT_EN = true ∧
    mgUp s ep = true :=
  ⟨wr (.evq 3) F.MQ_EVQ_VEC_INT_EN 1 (evW 3 4), 3, 3, 0, 0, by decide +kernel⟩

/-- A state and operands that meet the hypotheses of EventQueues, part 7. -/
theorem wit_EventQueues_7 : ∃ (s : State) (ep q : Nat) (e : Event) (l : List Event),
    s.mode.isUp = true ∧
    evList s q = e :: l :=
  ⟨evW 3 4, 1, 3, evA, List.replicate 3 evA, by decide +kernel⟩

/-- A state and operands that meet the hypotheses of EventQueues, part 8. -/
theorem wit_EventQueues_8 : ∃ (s : State) (c : Ctx) (first n buf : Nat),
    NoneDue s ∧
    CoreActs s ∧
    Hears s c ∧
    mgUp s c.ep = true ∧
    first + n ≤ 4096 :=
  ⟨sent (evW 3 4), c0, 4094, 2, 0x1000, by decide +kernel⟩

/-- A state and operands that meet the hypotheses of EventQueues, part 9. -/
theorem wit_EventQueues_9 : ∃ (s : State) (c : Ctx) (buf : Nat),
    CoreActs s ∧
    Hears s c ∧
    mgUp s c.ep = true ∧
    s.tel.snapWin = none :=
  ⟨sent (evW 3 4), c0, 0x1000, by decide +kernel⟩

/-- A state and operands that meet the hypotheses of EventQueues, part 10. -/
theorem wit_EventQueues_10 : ∃ (s : State) (c : Ctx) (buf len : Nat),
    CoreActs s ∧
    Hears s c :=
  ⟨sent (evW 3 4), c0, 0x1000, 9, by decide +kernel⟩

/-! ### Faults, dumps, cores -/

def srcX (x : SrcS) : State := { up with flt := { up.flt with srcs := [(15, x)] } }
def infoOf (n : Nat) : SrcInfo := (srcInfo n).getD ⟨0, 0, 0, false⟩
def dumpA : Dump := ⟨7, 0, 3, 0, 0, 0, none, 5, false, 1, 2, 0, [], [], false⟩
def fatalA : Fatal := ⟨1, 1, 2, 5, none, false⟩
def segW : State :=
  let s := wr .flt F.FLT_DSEG_CFG_EN 1 (sent up)
  { s with flt := { s.flt with segDumps := [dumpA] }, mq := { s.mq with mgmtUp := [0] }
           ports := { s.ports with links := [(0, { LinkS.reset with phase := .l0 })] } }
def imgA : RunImg := ⟨9, 3, 0, 0⟩
def fwW (j : Option FwJob) : State :=
  { sent coreW with mode := .run, flt := { coreW.flt with fw := j } }
def jobA (n : Nat) : FwJob := ⟨c0, n, 4, 1, imgA⟩

/-- A state and operands that meet the hypotheses of FaultCollection, part 1. -/
theorem wit_FaultCollection_1 : ∃ (s : State) (n l : Nat) (i : SrcInfo) (x : Page × Nat),
    n < 0x200 ∧
    srcInfo n = some i ∧
    srcPage n = some x ∧
    srcMasked s n = false ∧
    (srcOf s n).pair ≠ 2 ∧
    s.mode.isUp = true ∧
    s.flt.fatal = none ∧
    (srcOf s n).sticky = false ∧
    (reactOf s n = 0 ∨ reactOf s n = 1) ∧
    2 ≤ rd s (.evq 128) F.MQ_EVQ_CFG_CAP :=
  ⟨up, 15, 0, infoOf 15, (.flt, 15), by decide⟩

/-- A state and operands that meet the hypotheses of FaultCollection, part 2. -/
theorem wit_FaultCollection_2 : ∃ (s : State) (n l : Nat) (i : SrcInfo) (x : Page × Nat),
    n < 0x200 ∧
    srcInfo n = some i ∧
    srcPage n = some x ∧
    srcMasked s n = false ∧
    (srcOf s n).pair ≠ 2 ∧
    s.mode.isUp = true ∧
    s.flt.fatal = none ∧
    (srcOf s n).sticky = true ∧
    (reactOf s n = 0 ∨ reactOf s n = 1) :=
  ⟨srcX { SrcS.reset with sticky := true, cnt := 4 }, 15, 0, infoOf 15, (.flt, 15), by decide⟩

/-- A state and operands that meet the hypotheses of FaultCollection, part 3. -/
theorem wit_FaultCollection_3 : ∃ (s : State) (n l : Nat),
    n < 0x200 ∧
    srcMasked s n = true :=
  ⟨wr .flt F.ERR_MASK_MASK (2 ^ 15) up, 15, 0, by decide⟩

/-- A state and operands that meet the hypotheses of FaultCollection, part 4. -/
theorem wit_FaultCollection_4 : ∃ (s : State) (n l : Nat) (i : SrcInfo) (x : Page × Nat),
    n < 0x200 ∧
    srcInfo n = some i ∧
    srcPage n = some x ∧
    srcMasked s n = false ∧
    (srcOf s n).pair ≠ 2 ∧
    s.mode.isUp = true ∧
    s.flt.fatal = none ∧
    reactOf s n = 4 :=
  ⟨up, 13, 0, infoOf 13, (.mod, 13), by decide⟩

/-- A state and operands that meet the hypotheses of FaultCollection, part 5. -/
theorem wit_FaultCollection_5 : ∃ (s : State) (n : Nat) (i : SrcInfo),
    srcInfo n = some i ∧
    (srcOf s n).pair ≠ 2 :=
  ⟨up, 0x202, infoOf 0x202, by decide⟩

/-- A state and operands that meet the hypotheses of FaultCollection, part 6. -/
theorem wit_FaultCollection_6 : ∃ (s : State) (n : Nat),
    (srcOf s n).pair = 2 ∧
    (srcOf s n).drive = none :=
  ⟨srcX { SrcS.reset with pair := 2, cnt := 4 }, 15, by decide⟩

/-- A state and operands that meet the hypotheses of FaultCollection, part 7. -/
theorem wit_FaultCollection_7 : ∃ (s : State) (n d : Nat),
    (srcOf s n).pair = 2 ∧
    (srcOf s n).drive = some d ∧
    clockRuns s = true :=
  ⟨srcX { SrcS.reset with pair := 2, drive := some 80 }, 15, 80, by decide⟩

/-- A state and operands that meet the hypotheses of FaultCollection, part 8. -/
theorem wit_FaultCollection_8 : ∃ (s : State) (pg : Page) (v : Word),
    pageAt (pg.base / 0x1000) = some pg ∧
    pg.base % 0x1000 = 0 ∧
    Takes s pg ∧
    s.mode ≠ .maintenance :=
  ⟨up, .halo 7, 0x4000#32, by decide⟩

/-- A state and operands that meet the hypotheses of FaultCollection, part 9. -/
theorem wit_FaultCollection_9 : ∃ (s : State) (pg : Page) (k n : Nat) (i : SrcInfo),
    pageAt (pg.base / 0x1000) = some pg ∧
    pg.base % 0x1000 = 0 ∧
    s.mode = .maintenance ∧
    k ∈ pg.srcBits ∧
    n = pg.srcNum k ∧
    n < 0x200 ∧
    srcInfo n = some i ∧
    srcPage n = some (pg, k) ∧
    srcMasked s n = false ∧
    (srcOf s n).pair ≠ 2 ∧
    s.flt.fatal = none ∧
    (srcOf s n).sticky = false ∧
    (reactOf s n = 0 ∨ reactOf s n = 1) :=
  ⟨{ up with mode := .maintenance }, .halo 7, 14, 0x10E, infoOf 0x10E, by decide⟩

/-- A state and operands that meet the hypotheses of FaultCollection, part 10. -/
theorem wit_FaultCollection_10 : ∃ (s : State) (pg : Page) (k : Nat),
    pageAt (pg.base / 0x1000) = some pg ∧
    pg.base % 0x1000 = 0 ∧
    Takes s pg ∧
    k ∈ pg.srcBits ∧
    (srcOf s (pg.srcNum k)).asTick ≠ some s.tick :=
  ⟨srcX { SrcS.reset with sticky := true, cnt := 4 }, .flt, 15, by decide⟩

/-- A state and operands that meet the hypotheses of FaultCollection, part 11. -/
theorem wit_FaultCollection_11 : ∃ (s : State) (pg : Page) (k : Nat),
    pageAt (pg.base / 0x1000) = some pg ∧
    pg.base % 0x1000 = 0 ∧
    Takes s pg ∧
    k ∈ pg.srcBits ∧
    (srcOf s (pg.srcNum k)).asTick = some s.tick ∧
    (srcOf s (pg.srcNum k)).asOpen = true :=
  ⟨srcX { SrcS.reset with sticky := true, asTick := some 0, asOpen := true }, .flt, 15, by decide⟩

/-- A state and operands that meet the hypotheses of FaultCollection, part 12. -/
theorem wit_FaultCollection_12 : ∃ (s : State) (pg : Page) (k : Nat),
    pageAt (pg.base / 0x1000) = some pg ∧
    pg.base % 0x1000 = 0 ∧
    Takes s pg ∧
    k ∈ pg.srcBits ∧
    reactOf s (pg.srcNum k) ≠ 4 :=
  ⟨up, .phy 511, 0, by decide⟩

/-- A state and operands that meet the hypotheses of FaultCollection, part 13. -/
theorem wit_FaultCollection_13 : ∃ (s : State) (pg : Page) (k : Nat),
    pageAt (pg.base / 0x1000) = some pg ∧
    pg.base % 0x1000 = 0 ∧
    Takes s pg ∧
    k ∈ pg.srcBits ∧
    reactOf s (pg.srcNum k) = 4 :=
  ⟨up, .cell 7, 2, by decide⟩

/-- A state and operands that meet the hypotheses of FaultCollection, part 14. -/
theorem wit_FaultCollection_14 : ∃ (s : State) (n r : Nat) (i : SrcInfo),
    r < 8 ∧
    n = rd s .flt F.FLT_SRC_IDX_SRC ∧
    srcInfo n = some i ∧
    bit i.allowed r = true :=
  ⟨wr .flt F.FLT_SRC_IDX_SRC 0x24 up, 0x24, 4, infoOf 0x24, by decide⟩

/-- A state and operands that meet the hypotheses of FaultCollection, part 15. -/
theorem wit_FaultCollection_15 : ∃ (s : State) (n r : Nat) (i : SrcInfo),
    r < 8 ∧
    n = rd s .flt F.FLT_SRC_IDX_SRC ∧
    srcInfo n = some i ∧
    bit i.allowed r = false :=
  ⟨wr .flt F.FLT_SRC_IDX_SRC 0x24 up, 0x24, 3, infoOf 0x24, by decide⟩

/-- A state and operands that meet the hypotheses of FatalHoldAndDumps, part 1. -/
theorem wit_FatalHoldAndDumps_1 : ∃ (s : State) (f : Fatal),
    s.flt.fatal = some f ∧
    f.frozen = none ∧
    s.mode.isUp = true ∧
    fatalDrained s f = true :=
  ⟨{ up with flt := { coreW.flt with fatal := some fatalA } }, fatalA, by decide⟩

/-- A state and operands that meet the hypotheses of FatalHoldAndDumps, part 2. -/
theorem wit_FatalHoldAndDumps_2 : ∃ (s : State) (d : Dump),
    s.flt.dump = some d ∧
    d.done = false ∧
    s.rst.warmHeld = none :=
  ⟨{ up with flt := { up.flt with dump := some dumpA } }, dumpA, by decide⟩

/-- A state and operands that meet the hypotheses of FatalHoldAndDumps, part 3. -/
theorem wit_FatalHoldAndDumps_3 : ∃ (s : State) (c : Ctx) (buf len : Nat),
    CoreActs s ∧
    Hears s c :=
  ⟨sent up, c0, 0x1000, 64, by decide⟩

/-- A state and operands that meet the hypotheses of FatalHoldAndDumps, part 4. -/
theorem wit_FatalHoldAndDumps_4 : ∃ (s : State) (c : Ctx) (num buf len : Nat) (good : Bool),
    CoreActs s ∧
    Hears s c ∧
    (s.flt.fatal.any fun f => f.frozen.isNone) = false ∧
    (rd s .flt F.FLT_DSEG_CFG_EN = 0 ∨ (s.flt.segDumps.all fun d => d.seq != num) = true) :=
  ⟨sent up, c0, 7, 0x1000, 64, true, by decide⟩

/-- A state and operands that meet the hypotheses of FatalHoldAndDumps, part 5. -/
theorem wit_FatalHoldAndDumps_5 : ∃ (s : State) (c : Ctx) (d : Dump) (buf len : Nat),
    CoreActs s ∧
    Hears s c ∧
    frozen s = false ∧
    s.flt.fatal = none ∧
    s.flt.segDumps = [d] ∧
    rd s .flt F.FLT_DSEG_CFG_EN = 1 ∧
    d.lead = rd s .flt F.FLT_DSEG_CFG_LEAD ∧
    d.ld = rd s .flt F.FLT_DSEG_CFG_LD ∧
    d.addr = rd s .flt F.FLT_DSEG_DPA_LO_DPA_LO * 2 ^ 21 + rd s .flt F.FLT_DSEG_DPA_HI_DPA_HI * 2 ^ 32 ∧
    d.total ≤ 2 ^ (21 + rd s .flt F.FLT_DSEG_CFG_SIZE) ∧
    linkUp s d.lead = true ∧
    mgUp s c.ep = true :=
  ⟨segW, c0, dumpA, 0x1000, 64, by decide⟩

/-- A state and operands that meet the hypotheses of FatalHoldAndDumps, part 6. -/
theorem wit_FatalHoldAndDumps_6 : ∃ (s : State) (c : Ctx) (num buf len : Nat) (good : Bool) (f : Fatal),
    CoreActs s ∧
    s.flt.fatal = some f ∧
    f.frozen = none :=
  ⟨{ up with flt := { up.flt with fatal := some fatalA } }, c0, 7, 0x1000, 64, true, fatalA, by decide⟩

/-- A state and operands that meet the hypotheses of FatalHoldAndDumps, part 7. -/
theorem wit_FatalHoldAndDumps_7 : ∃ (s : State) (v : Word),
    F.FLT_DSEG_CFG_EN.of v.toNat = 1 ∧
    s.maps.binds = [] :=
  ⟨up, 0x80100007#32, by decide⟩

/-- A state and operands that meet the hypotheses of FatalHoldAndDumps, part 8. -/
theorem wit_FatalHoldAndDumps_8 : ∃ (s : State) (v : Word) (i : Nat) (b : Binding),
    F.FLT_DSEG_CFG_EN.of v.toNat = 1 ∧
    (i, b) ∈ s.maps.binds ∧
    b.valid = true ∧
    b.kind = 0 ∧
    b.out = F.FLT_DSEG_CFG_LEAD.of v.toNat ∧
    b.ld = F.FLT_DSEG_CFG_LD.of v.toNat ∧
    b.dpaBase = rd s .flt F.FLT_DSEG_DPA_LO_DPA_LO * 2 ^ 21 + rd s .flt F.FLT_DSEG_DPA_HI_DPA_HI * 2 ^ 32 :=
  ⟨setBind 7 { bindA with dpa := 0 } up, 0x80100000#32, 7, { bindA with dpa := 0 }, by decide⟩

/-- A state and operands that meet the hypotheses of FatalHoldAndDumps, part 9. -/
theorem wit_FatalHoldAndDumps_9 : ∃ (s : State),
    s.flt.wdogOut = false ∧
    s.mode.isUp = true ∧
    clockRuns s = true :=
  ⟨up, by decide⟩

/-- A state and operands that meet the hypotheses of CoresAndFirmware, part 1. -/
theorem wit_CoresAndFirmware_1 : ∃ (s : State) (c : Nat),
    c < 2 ∧
    c = s.flt.active ∧
    (coreOf s c).alive = true ∧
    (coreOf s (1 - c)).alive = true ∧
    s.flt.fw = none ∧
    s.mode.isUp = true ∧
    clockRuns s = true ∧
    srcMasked s (3 + c) = true :=
  ⟨wr .flt F.ERR_MASK_MASK 0x18 coreW, 0, by decide⟩

/-- A state and operands that meet the hypotheses of CoresAndFirmware, part 2. -/
theorem wit_CoresAndFirmware_2 : ∃ (s : State),
    (coreOf s s.flt.active).alive = true ∧
    s.flt.takeover = false ∧
    s.mq.parked = [] :=
  ⟨coreW, by decide⟩

/-- A state and operands that meet the hypotheses of CoresAndFirmware, part 3. -/
theorem wit_CoresAndFirmware_3 : ∃ (s : State) (c : Nat),
    c ≠ s.flt.active ∧
    (coreOf s c).alive = true ∧
    s.flt.takeover = true ∧
    s.flt.fw = none ∧
    s.mq.parked = [] :=
  ⟨{ coreW with flt := { coreW.flt with takeover := true } }, 1, by decide⟩

/-- A state and operands that meet the hypotheses of CoresAndFirmware, part 4. -/
theorem wit_CoresAndFirmware_4 : ∃ (s : State) (c : Ctx) (off : Nat) (bs : List Nat),
    CoreActs s ∧
    Hears s c ∧
    off + bs.length ≤ 2 ^ 24 ∧
    s.sec.flashBusy = false ∧
    mgUp s c.ep = true :=
  ⟨{ sent up with mq := { (sent up).mq with mgmtUp := [0] } }, c0, 0xFFFFFE, [1, 256], by decide⟩

/-- A state and operands that meet the hypotheses of CoresAndFirmware, part 5. -/
theorem wit_CoresAndFirmware_5 : ∃ (s : State) (c : Ctx),
    CoreActs s ∧
    coresHealthy s = true ∧
    s.mode = .run ∧
    s.sec.flashBusy = false :=
  ⟨fwW none, c0, by decide⟩

/-- A state and operands that meet the hypotheses of CoresAndFirmware, part 6. -/
theorem wit_CoresAndFirmware_6 : ∃ (s : State) (c : Ctx),
    CoreActs s ∧
    Hears s c ∧
    coresHealthy s = true ∧
    s.mode = .run ∧
    s.sec.flashBusy = false ∧
    s.flt.staging = [] :=
  ⟨fwW none, c0, by decide⟩

/-- A state and operands that meet the hypotheses of CoresAndFirmware, part 7. -/
theorem wit_CoresAndFirmware_7 : ∃ (s : State) (c : Ctx),
    CoreActs s ∧
    Hears s c ∧
    s.mode = .standby :=
  ⟨sent up, c0, by decide⟩

/-- A state and operands that meet the hypotheses of CoresAndFirmware, part 8. -/
theorem wit_CoresAndFirmware_8 : ∃ (s : State) (j : FwJob),
    s.flt.fw = some j ∧
    j.step = 3 ∧
    s.tick < j.since + 50000000 ∧
    s.flt.active < 2 ∧
    (coreOf s s.flt.active).alive = true :=
  ⟨fwW (some (jobA 3)), jobA 3, by decide⟩

/-- A state and operands that meet the hypotheses of CoresAndFirmware, part 9. -/
theorem wit_CoresAndFirmware_9 : ∃ (s : State) (j : FwJob),
    s.flt.fw = some j ∧
    j.step = 3 ∧
    clockRuns s = true ∧
    s.flt.active < 2 :=
  ⟨fwW (some (jobA 3)), jobA 3, by decide⟩

/-- A state and operands that meet the hypotheses of CoresAndFirmware, part 10. -/
theorem wit_CoresAndFirmware_10 : ∃ (s : State) (j : FwJob),
    s.flt.fw = some j ∧
    j.step = 5 :=
  ⟨fwW (some (jobA 5)), jobA 5, by decide⟩

/-- A state and operands that meet the hypotheses of CoresAndFirmware, part 11. -/
theorem wit_CoresAndFirmware_11 : ∃ (s : State) (r : Nat),
    s.sec.flashBusy = true ∧
    s.sec.flashCopy < 2 :=
  ⟨{ up with sec := { up.sec with flashBusy := true, flashCopy := 1 } }, 2, by decide⟩

/-! ### Telemetry -/

def snapA : Snap := ⟨5, 9, 0, 0, [(8192, 7)], [], []⟩
def skyW : State :=
  let s := wr .tel F.TEL_SKY_CFG_LOG2 6 (wr .tel F.TEL_SKY_TAIL_IDX 64 up)
  { s with tel := { s.tel with skyWait := [⟨0, 0, [9]⟩] }, mq := { s.mq with mgmtUp := [0] } }
def telW (en : Nat) : State :=
  { wr .tel F.TEL_SNAP_CFG_EN en up with tel := { up.tel with snapNow := some snapA, ctrs := [(8192, 2 ^ 40 + 3)] }
                                         mq := { up.mq with mgmtUp := [0] } }

/-- A state and operands that meet the hypotheses of Telemetry, part 1. -/
theorem wit_Telemetry_1 : ∃ (s : State) (b : Nat) (pg : Page),
    bankPage b = some pg ∧
    Takes s pg ∧
    bankHidden s pg = false :=
  ⟨up, 0x1100, .cnp 0, by decide⟩

/-- A state and operands that meet the hypotheses of Telemetry, part 2. -/
theorem wit_Telemetry_2 : ∃ (s : State) (b i slot : Nat) (pg : Page),
    bankPage b = some pg ∧
    s.mode.isUp = true ∧
    bankSlot pg = some slot ∧
    bankHidden s pg = false ∧
    i < 8 :=
  ⟨telW 0, 0x1100, 0, 1024, .cnp 0, by decide⟩

/-- A state and operands that meet the hypotheses of Telemetry, part 3. -/
theorem wit_Telemetry_3 : ∃ (s : State) (c : Ctx) (b : Nat) (f0 f1 f2 : Word) (pg : Page),
    CoreActs s ∧
    bankPage b = some pg ∧
    pg.general = true ∧
    frozen s = false ∧
    bankHidden s pg = false ∧
    tget none s.rwe (rweKey pg F.CTR_FILT0_PART) = none :=
  ⟨up, c0, 0x1100, 0xFE00#32, 0#32, 0#32, .cnp 0, by decide⟩

/-- A state and operands that meet the hypotheses of Telemetry, part 4. -/
theorem wit_Telemetry_4 : ∃ (s : State) (c : Ctx) (n : Nat) (en : Bool),
    CoreActs s ∧
    8 ≤ n ∧
    n ≤ 24 :=
  ⟨up, c0, 24, true, by decide⟩

/-- A state and operands that meet the hypotheses of Telemetry, part 5. -/
theorem wit_Telemetry_5 : ∃ (s : State) (c : Ctx) (n : Nat) (en : Bool),
    CoreActs s ∧
    Hears s c ∧
    (n < 8 ∨ 24 < n) :=
  ⟨sent up, c0, 25, true, by decide⟩

/-- A state and operands that meet the hypotheses of Telemetry, part 6. -/
theorem wit_Telemetry_6 : ∃ (s : State) (x : Snap) (ok : Bool),
    s.tel.snapNow = some x ∧
    rdf s .tel F.TEL_SNAP_CFG_EN = 0 :=
  ⟨telW 0, snapA, true, by decide⟩

/-- A state and operands that meet the hypotheses of Telemetry, part 7. -/
theorem wit_Telemetry_7 : ∃ (s : State) (x : Snap),
    s.tel.snapNow = some x ∧
    rdf s .tel F.TEL_SNAP_CFG_EN = 1 ∧
    mgUp s (rdf s .tel F.TEL_SNAP_CFG_EP) = true :=
  ⟨telW 1, snapA, by decide⟩

/-- A state and operands that meet the hypotheses of Telemetry, part 8. -/
theorem wit_Telemetry_8 : ∃ (s : State) (x : Snap),
    s.tel.snapNow = some x ∧
    rdf s .tel F.TEL_SNAP_CFG_EN = 1 :=
  ⟨telW 1, snapA, by decide⟩

/-- A state and operands that meet the hypotheses of Telemetry, part 9. -/
theorem wit_Telemetry_9 : ∃ (s : State) (c : Ctx) (base k : Nat),
    CoreActs s ∧
    6 ≤ k ∧
    k ≤ 15 ∧
    base % 4096 = 0 ∧
    base < 2 ^ 64 :=
  ⟨up, c0, 0xFFFFFFFFFFFFF000, 15, by decide⟩

/-- A state and operands that meet the hypotheses of Telemetry, part 10. -/
theorem wit_Telemetry_10 : ∃ (s : State) (v n : Nat),
    s.tel.skyWait = [] ∧
    s.mode.isUp = true ∧
    v < 2 ^ 21 ∧
    n = 2 ^ rdf s .tel F.TEL_SKY_CFG_LOG2 ∧
    v < 2 * n ∧
    (v + 2 * n - rd s .tel F.TEL_SKY_HEAD_IDX) % (2 * n) ≤
      (rd s .tel F.TEL_SKY_TAIL_IDX + 2 * n - rd s .tel F.TEL_SKY_HEAD_IDX) % (2 * n) :=
  ⟨wr .tel F.TEL_SKY_TAIL_IDX 8191 up, 8191, 4096, by decide⟩

/-- A state and operands that meet the hypotheses of Telemetry, part 11. -/
theorem wit_Telemetry_11 : ∃ (s : State) (v n : Nat) (w : SkyHeld),
    s.tel.skyWait = [w] ∧
    w.tick = s.tick ∧
    s.mode.isUp = true ∧
    v < 2 ^ 21 ∧
    n = 2 ^ rdf s .tel F.TEL_SKY_CFG_LOG2 ∧
    v = (rd s .tel F.TEL_SKY_HEAD_IDX + 1) % (2 * n) ∧
    (rd s .tel F.TEL_SKY_TAIL_IDX + 2 * n - rd s .tel F.TEL_SKY_HEAD_IDX) % (2 * n) = n ∧
    rdb s .tel F.TEL_STS_SKY_DMA = false ∧
    mgUp s (rdf s .tel F.TEL_SKY_CFG_EP) = true :=
  ⟨skyW, 1, 64, ⟨0, 0, [9]⟩, by decide⟩

/-- A state and operands that meet the hypotheses of Telemetry, part 12. -/
theorem wit_Telemetry_12 : ∃ (s : State) (v : Nat),
    s.mode.isUp = true ∧
    v < 2 ^ 21 ∧
    2 * 2 ^ rdf s .tel F.TEL_SKY_CFG_LOG2 ≤ v :=
  ⟨up, 8192, by decide⟩

/-! ### Guyline -/

def portUp : GPort := { GPort.reset with st := 2, nbr := 7 }
def ringW (i o : GPort) : State :=
  { wr .trnk F.TRNK_MOD_CFG_MODID 9 up with glr := { up.glr with bypass := false, inP := i, outP := o } }
def beatA : Beat := ⟨4, 1, true, true, true, false, 77⟩
def hdrB (hops : Nat) (sync : Bool) (d : Nat) : GHdr := ⟨false, frameBytes 0x10 4 d hops 0 6 sync false beatA.body⟩
def hdrA : Nat → GHdr := hdrB 30 false
def frameA : GFrame := ⟨4, 65535, true, 0x20, [1, 2, 3]⟩
def slotW (x : GSlot) : State := { ringW portUp portUp with glr := { (ringW portUp portUp).glr with slots := [(0, x)] } }
def restW : State :=
  let s := partW 2 PartS.reset
  { s with glr := (ringW portUp portUp).glr } |> wr .trnk F.TRNK_MOD_CFG_MODID 9

/-- A state and operands that meet the hypotheses of GuylinePorts, part 1. -/
theorem wit_GuylinePorts_1 : ∃ (s : State) (o : Bool),
    s.glr.bypass = false ∧
    (gport s o).st ≠ 0 ∧
    (gport s o).lostAt = none :=
  ⟨ringW portUp portUp, true, by decide⟩

/-- A state and operands that meet the hypotheses of GuylinePorts, part 2. -/
theorem wit_GuylinePorts_2 : ∃ (s : State) (o : Bool) (n : Nat),
    (gport s o).lostAt = some n ∧
    clockRuns s = true :=
  ⟨ringW { portUp with lostAt := some 5 } portUp, false, 5, by decide⟩

/-- A state and operands that meet the hypotheses of GuylinePorts, part 3. -/
theorem wit_GuylinePorts_3 : ∃ (s : State) (o : Bool),
    s.glr.bypass = false ∧
    (gport s o).st = 0 ∧
    (gport s o).lostAt = none :=
  ⟨ringW GPort.reset portUp, false, by decide⟩

/-- A state and operands that meet the hypotheses of GuylinePorts, part 4. -/
theorem wit_GuylinePorts_4 : ∃ (s : State) (o : Bool) (n : Nat),
    s.glr.bypass = false ∧
    (gport s o).lostAt = some n ∧
    s.tick < n + rd s .glr F.GLR_LOCK_TMO_TMO :=
  ⟨ringW { portUp with lostAt := some 5 } portUp, false, 5, by decide⟩

/-- A state and operands that meet the hypotheses of GuylinePorts, part 5. -/
theorem wit_GuylinePorts_5 : ∃ (s : State) (n : Nat),
    s.glr.taps = some n ∧
    bypassCond s = false :=
  ⟨{ up with pwr := { up.pwr with pgInt := true }, glr := { up.glr with taps := some 5 } }, 5, by decide⟩

/-- A state and operands that meet the hypotheses of GuylinePorts, part 6. -/
theorem wit_GuylinePorts_6 : ∃ (s : State) (n : Nat),
    s.glr.taps = some n ∧
    bypassCond s = false ∧
    clockRuns s = true :=
  ⟨{ up with pwr := { up.pwr with pgInt := true }, glr := { up.glr with taps := some 5 } }, 5, by decide⟩

/-- A state and operands that meet the hypotheses of GuylinePorts, part 7. -/
theorem wit_GuylinePorts_7 : ∃ (s : State),
    s.glr.bypass = false ∧
    bypassCond s = true :=
  ⟨ringW portUp portUp, by decide⟩

/-- A state and operands that meet the hypotheses of GuylinePorts, part 8. -/
theorem wit_GuylinePorts_8 : ∃ (s : State) (h : GHdr) (m : Nat),
    s.glr.bypass = false ∧
    (gport s h.onOut).st ≠ 0 ∧
    (gport s h.onOut).lostAt = none ∧
    h.crcOk = true :=
  ⟨ringW { portUp with st := 1 } portUp, hdrA 0xFE, 8, by decide +kernel⟩

/-- A state and operands that meet the hypotheses of GuylinePorts, part 9. -/
theorem wit_GuylinePorts_9 : ∃ (s : State) (h : GHdr) (num turn : Nat),
    s.glr.bypass = false ∧
    (gport s h.onOut).st ≠ 0 ∧
    (gport s h.onOut).lostAt = none ∧
    h.crcOk = true :=
  ⟨ringW { portUp with st := 1 } portUp, hdrA 0xFE, 3, 50, by decide +kernel⟩

/-- A state and operands that meet the hypotheses of GuylinePorts, part 10. -/
theorem wit_GuylinePorts_10 : ∃ (s : State) (h : GHdr) (num turn : Nat),
    s.glr.bypass = false ∧
    (gport s h.onOut).st ≠ 0 ∧
    (gport s h.onOut).lostAt = none ∧
    h.crcOk = false :=
  ⟨ringW { portUp with st := 1 } portUp, { hdrA 0xFE with bytes := [1, 2, 3] }, 3, 50, by decide +kernel⟩

/-- A state and operands that meet the hypotheses of GuylinePorts, part 11. -/
theorem wit_GuylinePorts_11 : ∃ (s : State) (h : GHdr) (turn rt : Nat),
    s.glr.bypass = false ∧
    (gport s h.onOut).st = 2 ∧
    (gport s h.onOut).lostAt = none ∧
    h.crcOk = true ∧
    (gport s h.onOut).delays.length = 15 :=
  ⟨ringW { portUp with delays := List.replicate 15 40 } portUp, hdrA 0xFE, 10, 90, by decide +kernel⟩

/-- A state and operands that meet the hypotheses of GuylinePorts, part 12. -/
theorem wit_GuylinePorts_12 : ∃ (s : State),
    s.glr.bypass = false ∧
    clockRuns s = true ∧
    s.time < 2 ^ 64 ∧
    s.glr.inP.st = 2 ∧
    s.glr.outP.st = 0 :=
  ⟨ringW portUp GPort.reset, by decide⟩

/-- A state and operands that meet the hypotheses of GuylineMembers, part 1. -/
theorem wit_GuylineMembers_1 : ∃ (o : Bool) (typ src dst hops turns seq : Nat) (sync cinv : Bool) (body : List Nat),
    typ < 256 ∧
    src < 256 ∧
    dst < 256 ∧
    hops < 256 ∧
    turns < 4 ∧
    seq < 65536 :=
  ⟨true, 0x10, 4, 255, 64, 3, 65535, true, false, [4, 1, 7, 77], by decide⟩

/-- A state and operands that meet the hypotheses of GuylineMembers, part 2. -/
theorem wit_GuylineMembers_2 : ∃ (o : Bool) (src dst hops turns seq e dep corr corr' : Nat) (sync cinv inv : Bool),
    src < 256 ∧
    dst < 256 ∧
    hops < 256 ∧
    turns < 4 ∧
    seq < 65536 ∧
    e < 2 ^ 64 ∧
    dep < 2 ^ 32 ∧
    corr < 2 ^ 32 :=
  ⟨false, 4, 255, 64, 0, 0, 2 ^ 64 - 1, 2 ^ 32 - 1, 0, 5, false, true, false, by decide⟩

/-- A state and operands that meet the hypotheses of GuylineMembers, part 3. -/
theorem wit_GuylineMembers_3 : ∃ (s : State) (h : GHdr) (b : Beat),
    s.glr.bypass = false ∧
    (gport s h.onOut).st ≠ 0 ∧
    (gport s h.onOut).lostAt = none ∧
    (gport s (!h.onOut)).st ≠ 0 ∧
    h.crcOk = true ∧
    h.src ≠ modid s ∧
    h.src < 0xFE ∧
    h.dst = 0xFF ∧
    modid s ≠ 0xFF ∧
    1 < h.hops ∧
    s.glr.members = [] :=
  ⟨ringW portUp portUp, hdrA 0xFF, beatA, by decide +kernel⟩

/-- A state and operands that meet the hypotheses of GuylineMembers, part 4. -/
theorem wit_GuylineMembers_4 : ∃ (s : State) (h : GHdr) (b : Beat),
    s.glr.bypass = false ∧
    (gport s h.onOut).st ≠ 0 ∧
    (gport s h.onOut).lostAt = none ∧
    h.crcOk = true ∧
    h.src ≠ modid s ∧
    h.hops ≤ 1 :=
  ⟨ringW portUp portUp, hdrB 1 false 0xFF, beatA, by decide +kernel⟩

/-- A state and operands that meet the hypotheses of GuylineMembers, part 5. -/
theorem wit_GuylineMembers_5 : ∃ (s : State),
    RingSends s ∧
    clockRuns s = true ∧
    s.time < 2 ^ 64 :=
  ⟨ringW portUp portUp, by decide⟩

/-- A state and operands that meet the hypotheses of GuylineMembers, part 6. -/
theorem wit_GuylineMembers_6 : ∃ (s : State) (m : Member),
    s.glr.members = [m] ∧
    rd s .glr F.GLR_CFG_HB_MISS ≤ m.missed ∧
    s.glr.waitSeq = [] :=
  ⟨{ slotW ⟨4, 3, 0, 1, 0, 0⟩ with glr := { (slotW ⟨4, 3, 0, 1, 0, 0⟩).glr with members := [⟨4, beatA, 3, false⟩], frames := [frameA] } }, ⟨4, beatA, 3, false⟩, by decide⟩

/-- A state and operands that meet the hypotheses of GuylineMembers, part 7. -/
theorem wit_GuylineMembers_7 : ∃ (s : State) (h : GHdr) (e dep corr arr res : Nat),
    s.glr.bypass = false ∧
    (gport s h.onOut).st ≠ 0 ∧
    (gport s h.onOut).lostAt = none ∧
    (gport s (!h.onOut)).st ≠ 0 ∧
    h.crcOk = true ∧
    h.src ≠ modid s ∧
    h.dst = 0xFF ∧
    modid s ≠ 0xFF ∧
    1 < h.hops ∧
    s.glr.lowMaster = none ∧
    ftmUnset s = true ∧
    s.ftm.tset = none :=
  ⟨ringW portUp portUp, hdrA 0xFF, 5, 6, 7, 8, 9, by decide +kernel⟩

/-- A state and operands that meet the hypotheses of GuylineMembers, part 8. -/
theorem wit_GuylineMembers_8 : ∃ (s : State) (dep : Nat),
    RingSends s ∧
    clockRuns s = true ∧
    isMaster s = true ∧
    rdb s .glr F.GLR_STS_YIELD = false ∧
    s.time < 2 ^ 64 ∧
    s.time % 2 ^ 17 < 4096 ∧
    s.glr.sentEpoch ≠ some (s.time / 2 ^ 17) :=
  ⟨wr .ftm F.FTM_STS_STATE 1 (wr .glr F.GLR_CFG_TMASTER 1 (ringW portUp portUp)), 6, by decide⟩

/-- A state and operands that meet the hypotheses of GuylineMembers, part 9. -/
theorem wit_GuylineMembers_9 : ∃ (s : State) (dep : Nat),
    s.glr.bypass = false ∧
    clockRuns s = true ∧
    rdb s .glr F.GLR_STS_YIELD = true :=
  ⟨wr .glr F.GLR_STS_YIELD 1 (ringW portUp portUp), 6, by decide⟩

/-- A state and operands that meet the hypotheses of GuylineRestart, part 1. -/
theorem wit_GuylineRestart_1 : ∃ (s : State) (h : GHdr) (p slot inst : Nat),
    RingTakes s h ∧
    h.sync = true ∧
    RingSends s ∧
    s.glr.frames = [] ∧
    rd s .glr F.GLR_CFG_RST_RX_EN = 1 ∧
    p < 128 ∧
    rd s .ftm F.FTM_STS_STATE ≠ 0 ∧
    s.time + 512 ≤ inst ∧
    inst ≤ s.time + 2 ^ 32 ∧
    s.sched.length < 256 ∧
    holdsPiece s p = true ∧
    resetting s p = false ∧
    partSt s p = 2 ∧
    restartEnt s p = none :=
  ⟨wr .glr F.GLR_CFG_RST_RX_EN 1 restW, hdrB 30 true 9, 3, 2, 512, by decide +kernel⟩

/-- A state and operands that meet the hypotheses of GuylineRestart, part 2. -/
theorem wit_GuylineRestart_2 : ∃ (s : State) (h : GHdr) (p slot inst : Nat),
    RingTakes s h ∧
    h.sync = true ∧
    RingSends s ∧
    s.glr.frames = [] ∧
    rd s .glr F.GLR_CFG_RST_RX_EN = 0 :=
  ⟨ringW portUp portUp, hdrB 30 true 9, 3, 2, 512, by decide +kernel⟩

/-- A state and operands that meet the hypotheses of GuylineRestart, part 3. -/
theorem wit_GuylineRestart_3 : ∃ (s : State) (h : GHdr) (slot : Nat) (e : SchedEnt),
    RingTakes s h ∧
    h.sync = true ∧
    s.sched = [e] ∧
    e.owner = .ring h.src slot ∧
    s.time + 512 ≤ e.inst :=
  ⟨{ ringW portUp portUp with sched := [⟨5, 640, 0, .restart 3, .ring 4 2⟩] }, hdrB 30 true 9, 2, ⟨5, 640, 0, .restart 3, .ring 4 2⟩, by decide +kernel⟩

/-- A state and operands that meet the hypotheses of GuylineRestart, part 4. -/
theorem wit_GuylineRestart_4 : ∃ (s : State) (h : GHdr) (slot st i : Nat) (final : Bool),
    RingTakes s h ∧
    h.sync = true ∧
    slot < 8 :=
  ⟨slotW ⟨4, 3, 0, 5, 0, 0⟩, hdrB 30 true 9, 0, 0x10, 5, true, by decide +kernel⟩

/-- A state and operands that meet the hypotheses of GuylineRestart, part 5. -/
theorem wit_GuylineRestart_5 : ∃ (s : State) (h : GHdr) (f : GFrame),
    RingTakes s h ∧
    s.glr.frames = [f] ∧
    f.dst = h.src ∧
    f.seq < 65536 ∧
    s.glr.waitSeq = [] :=
  ⟨{ ringW portUp portUp with glr := { (ringW portUp portUp).glr with frames := [frameA] } }, hdrB 30 true 9, frameA, by decide +kernel⟩

/-- A state and operands that meet the hypotheses of GuylineRestart, part 6. -/
theorem wit_GuylineRestart_6 : ∃ (s : State) (src k n e : Nat),
    tget none s.glr.ackDue src = some (k, n) ∧
    clockRuns s = true ∧
    RingSends s ∧
    tget none s.glr.rxExp src = some e :=
  ⟨{ ringW portUp portUp with glr := { (ringW portUp portUp).glr with ackDue := [(4, some (1, 5))], rxExp := [(4, some 7)] } }, 4, 1, 5, 7, by decide⟩

/-- A state and operands that meet the hypotheses of GuylineRestart, part 7. -/
theorem wit_GuylineRestart_7 : ∃ (s : State) (n : Nat) (f : GFrame),
    tget none s.glr.rplFrom f.dst = some n ∧
    clockRuns s = true ∧
    RingSends s ∧
    s.glr.frames = [f] :=
  ⟨{ ringW portUp portUp with glr := { (ringW portUp portUp).glr with rplFrom := [(4, some 5)], frames := [frameA] } }, 5, frameA, by decide⟩

/-- A state and operands that meet the hypotheses of GuylineRestart, part 8. -/
theorem wit_GuylineRestart_8 : ∃ (s : State) (v : Word) (i d p : Nat),
    s.mode.isUp = true ∧
    i = rd s .glr F.GLR_RST_IDX_SLOT ∧
    d = F.GLR_RST_REQ_DST.of v.toNat ∧
    p = F.GLR_RST_REQ_PART.of v.toNat ∧
    F.GLR_RST_REQ_CANCEL.of v.toNat = 0 ∧
    (gslot s i).st = 0 ∧
    d ≠ modid s ∧
    ((∃ m ∈ s.glr.members, m.modid = d)) ∧
    hasModid s = true ∧
    s.glr.frames = [] :=
  ⟨{ ringW portUp portUp with glr := { (ringW portUp portUp).glr with members := [⟨4, beatA, 3, false⟩] } }, 0x80040003#32, 0, 4, 3, by decide⟩

/-- A state and operands that meet the hypotheses of GuylineRestart, part 9. -/
theorem wit_GuylineRestart_9 : ∃ (s : State) (v : Word) (i : Nat),
    s.mode.isUp = true ∧
    i = rd s .glr F.GLR_RST_IDX_SLOT ∧
    F.GLR_RST_REQ_CANCEL.of v.toNat = 0 ∧
    (gslot s i).st = 2 :=
  ⟨slotW ⟨4, 3, 0, 2, 0, 0⟩, 0x80040003#32, 0, by decide⟩

/-- A state and operands that meet the hypotheses of GuylineRestart, part 10. -/
theorem wit_GuylineRestart_10 : ∃ (s : State) (v : Word) (i : Nat),
    s.mode.isUp = true ∧
    i = rd s .glr F.GLR_RST_IDX_SLOT ∧
    F.GLR_RST_REQ_GO.of v.toNat = 0 ∧
    (gslot s i).st = 2 ∧
    hasModid s = true ∧
    s.glr.frames = [] :=
  ⟨slotW ⟨4, 3, 0, 2, 0, 0⟩, 0x40040003#32, 0, by decide⟩

/-- A state and operands that meet the hypotheses of GuylineRestart, part 11. -/
theorem wit_GuylineRestart_11 : ∃ (s : State) (i : Nat),
    (gslot s i).st = 2 ∧
    clockRuns s = true ∧
    s.time < (gslot s i).inst + 2 ^ 17 ∧
    (gslot s i).inst + 2 ^ 17 < 2 ^ 64 :=
  ⟨slotW ⟨4, 3, 9, 2, 0, 0⟩, 0, by decide⟩

/-! ### Power and resets -/

def pwrS (p : Pwr) (m : Mode) : State := { State.reset with mode := m, pwr := { p with lowAt := none, vin := 12000 } }
def runW : State :=
  { up with mode := .run, pwr := { Pwr.reset with lowAt := none, vin := 12000, path := .closed, brk := 1, pgInt := true } }
def bootW : State := { runW with mode := .boot, rst := { Rst.reset with resetN := false } }
def wabE1 : WabE := ⟨5, 0, 3, 7, 16, 0, 0x800040, fullMask, 77#512, false, 1, 0, 90, false, false, 0, false⟩

/-- A state and operands that meet the hypotheses of PowerStart, part 1. -/
theorem wit_PowerStart_1 : ∃ (s : State) (mv : Nat),
    s.mode = .off ∧
    s.pwr.path = .opened ∧
    s.pwr.latched = false ∧
    s.pwr.ov = false ∧
    s.rst.coldAt = none ∧
    s.pwr.lowAt = none ∧
    4400 ≤ mv :=
  ⟨pwrS Pwr.reset .off, 4400, by decide⟩

/-- A state and operands that meet the hypotheses of PowerStart, part 2. -/
theorem wit_PowerStart_2 : ∃ (s : State),
    s.pwr.path = .precharge :=
  ⟨pwrS { Pwr.reset with path := .precharge } .precharge, by decide⟩

/-- A state and operands that meet the hypotheses of PowerStart, part 3. -/
theorem wit_PowerStart_3 : ∃ (s : State),
    s.pwr.path = .precharge ∧
    s.pwr.latched = false ∧
    s.pwr.fails < 3 ∧
    clockRuns s = true :=
  ⟨pwrS { Pwr.reset with path := .precharge, fails := 2 } .precharge, by decide⟩

/-- A state and operands that meet the hypotheses of PowerStart, part 4. -/
theorem wit_PowerStart_4 : ∃ (s : State),
    s.pwr.path = .precharge ∧
    3 ≤ s.pwr.fails :=
  ⟨pwrS { Pwr.reset with path := .precharge, fails := 3 } .precharge, by decide⟩

/-- A state and operands that meet the hypotheses of PowerStart, part 5. -/
theorem wit_PowerStart_5 : ∃ (s : State) (rail : Nat),
    s.pwr.path = .ramp ∧
    s.pwr.reclose = false ∧
    rail < 12 ∧
    s.pwr.latched = false ∧
    s.pwr.fails < 3 ∧
    clockRuns s = true :=
  ⟨pwrS { Pwr.reset with path := .ramp } .precharge, 11, by decide⟩

/-- A state and operands that meet the hypotheses of PowerStart, part 6. -/
theorem wit_PowerStart_6 : ∃ (s : State) (n ms : Nat),
    (n, ms) ∈ [(1, 10), (2, 40), (3, 160)] ∧
    s.pwr.path = .backoff ∧
    s.pwr.fails = n ∧
    s.mode = .off ∧
    s.pwr.latched = false ∧
    s.pwr.ov = false ∧
    s.rst.coldAt = none ∧
    4400 ≤ s.pwr.vin ∧
    clockRuns s = true :=
  ⟨pwrS { Pwr.reset with path := .backoff, fails := 3 } .off, 3, 160, by decide⟩

/-- A state and operands that meet the hypotheses of PowerStart, part 7. -/
theorem wit_PowerStart_7 : ∃ (s : State),
    s.pwr.pgInt = true ∧
    clockRuns s = true :=
  ⟨runW, by decide⟩

/-- A state and operands that meet the hypotheses of PowerStart, part 8. -/
theorem wit_PowerStart_8 : ∃ (s : State) (n : Nat),
    s.rst.coldAt = some n ∧
    s.mode = .off ∧
    s.pwr.path = .opened ∧
    s.pwr.latched = false ∧
    s.pwr.ov = false ∧
    4400 ≤ s.pwr.vin ∧
    clockRuns s = true :=
  ⟨{ pwrS Pwr.reset .off with rst := { Rst.reset with coldAt := some 5 } }, 5, by decide⟩

/-- A state and operands that meet the hypotheses of PowerStart, part 9. -/
theorem wit_PowerStart_9 : ∃ (s : State),
    s.pwr.pgInt = false ∧
    s.pwr.ran = false ∧
    s.mode = .precharge ∧
    s.pwr.path = .ramp ∧
    s.rst.resetN = true ∧
    s.rst.refclk = true ∧
    clockRuns s = true ∧
    s.pwr.lowAt = none :=
  ⟨pwrS { Pwr.reset with path := .ramp } .precharge, by decide⟩

/-- A state and operands that meet the hypotheses of PowerStart, part 10. -/
theorem wit_PowerStart_10 : ∃ (s : State),
    s.pwr.pgInt = false ∧
    s.pwr.ran = false ∧
    s.mode = .precharge ∧
    s.pwr.path = .ramp ∧
    s.rst.resetN = false :=
  ⟨{ pwrS { Pwr.reset with path := .ramp } .precharge with rst := { Rst.reset with resetN := false } }, by decide⟩

/-- A state and operands that meet the hypotheses of PowerStart, part 11. -/
theorem wit_PowerStart_11 : ∃ (s : State),
    s.pwr.pgInt = false ∧
    s.pwr.ran = true :=
  ⟨pwrS { Pwr.reset with path := .closed, ran := true } .boot, by decide⟩

/-- A state and operands that meet the hypotheses of PowerStart, part 12. -/
theorem wit_PowerStart_12 : ∃ (s : State),
    s.pwr.pgInt = false ∧
    s.pwr.ran = false ∧
    s.pwr.path = .closed ∧
    s.mode ≠ .off ∧
    s.mode ≠ .precharge :=
  ⟨pwrS { Pwr.reset with path := .closed } .boot, by decide⟩

/-- A state and operands that meet the hypotheses of PowerStart, part 13. -/
theorem wit_PowerStart_13 : ∃ (s : State) (failed : Bool),
    s.pwr.stTest = true ∧
    s.tick < s.pwr.stFrom + 5000 ∧
    clockRuns s = true :=
  ⟨pwrS { Pwr.reset with path := .closed, stTest := true } .boot, true, by decide⟩

/-- A state and operands that meet the hypotheses of PowerStart, part 14. -/
theorem wit_PowerStart_14 : ∃ (s : State) (failed : Bool),
    s.pwr.stTest = true ∧
    s.pwr.stFrom + 5000 ≤ s.tick ∧
    s.pwr.path = .closed :=
  ⟨{ pwrS { Pwr.reset with path := .closed, stTest := true } .boot with tick := 5000 }, true, by decide⟩

/-- A state and operands that meet the hypotheses of PowerStart, part 15. -/
theorem wit_PowerStart_15 : ∃ (s : State),
    s.mode = .boot ∧
    s.rst.refclk = false ∧
    s.rst.refOut = false ∧
    s.rst.resetN = true ∧
    s.pwr.lowAt = none :=
  ⟨{ runW with mode := .boot, rst := { Rst.reset with refclk := false } }, by decide⟩

/-- A state and operands that meet the hypotheses of PowerStart, part 16. -/
theorem wit_PowerStart_16 : ∃ (s : State),
    s.mode = .boot ∧
    s.rst.refOk = true ∧
    s.pwr.stTest = false ∧
    s.sec.running ≠ none ∧
    s.rst.warmAt = none ∧
    s.rst.resetN = true :=
  ⟨{ runW with mode := .boot, rst := { Rst.reset with refOk := true }, sec := { Sec.reset with running := some ⟨9, 3, 0, 0⟩ } }, by decide⟩

/-- A state and operands that meet the hypotheses of InputFailure, part 1. -/
theorem wit_InputFailure_1 : ∃ (s : State) (mv : Nat),
    mv < rd s .pwr F.PWR_WARN_CFG_WARN * 50 ∧
    s.pwr.lowAt = none ∧
    s.pwr.warn = false ∧
    s.mode.isUp = true ∧
    s.home.alc = [] ∧
    s.home.found = [] :=
  ⟨runW, 4299, by decide⟩

/-- A state and operands that meet the hypotheses of InputFailure, part 2. -/
theorem wit_InputFailure_2 : ∃ (s : State) (mv : Nat),
    rd s .pwr F.PWR_WARN_CFG_WARN * 50 + 200 ≤ mv ∧
    s.pwr.path = .closed ∧
    s.pwr.warn = true ∧
    s.rst.warmHeld = none :=
  ⟨{ runW with pwr := { runW.pwr with warn := true } }, 4500, by decide⟩

/-- A state and operands that meet the hypotheses of InputFailure, part 3. -/
theorem wit_InputFailure_3 : ∃ (s : State) (mv : Nat),
    mv < 4000 ∧
    s.pwr.path = .closed ∧
    s.pwr.lowAt = none ∧
    s.home.alc = [] ∧
    s.home.found = [] :=
  ⟨runW, 3999, by decide⟩

/-- A state and operands that meet the hypotheses of InputFailure, part 4. -/
theorem wit_InputFailure_4 : ∃ (s : State) (mv : Nat),
    mv < 4000 ∧
    s.pwr.path = .precharge :=
  ⟨pwrS { Pwr.reset with path := .precharge } .precharge, 3999, by decide⟩

/-- A state and operands that meet the hypotheses of InputFailure, part 5. -/
theorem wit_InputFailure_5 : ∃ (s : State) (mv : Nat),
    19000 ≤ mv ∧
    s.pwr.path = .closed ∧
    s.pwr.lowAt = none ∧
    s.home.alc = [] ∧
    s.home.found = [] :=
  ⟨runW, 19000, by decide⟩

/-- A state and operands that meet the hypotheses of InputFailure, part 6. -/
theorem wit_InputFailure_6 : ∃ (s : State) (mv : Nat),
    4400 ≤ mv ∧
    mv ≤ 18000 ∧
    s.mode = .off ∧
    s.pwr.path = .opened ∧
    s.pwr.latched = false ∧
    s.pwr.ov = true ∧
    s.rst.coldAt = none :=
  ⟨pwrS { Pwr.reset with ov := true } .off, 18000, by decide⟩

/-- A state and operands that meet the hypotheses of InputFailure, part 7. -/
theorem wit_InputFailure_7 : ∃ (s : State) (mv : Nat),
    rd s .pwr F.PWR_WARN_CFG_WARN * 50 + 200 ≤ mv ∧
    s.pwr.path = .holdup ∧
    s.pwr.why = 0 ∧
    s.tick < s.pwr.pathFrom + 200000 :=
  ⟨{ runW with pwr := { runW.pwr with path := .holdup } }, 4500, by decide⟩

/-- A state and operands that meet the hypotheses of InputFailure, part 8. -/
theorem wit_InputFailure_8 : ∃ (s : State),
    s.pwr.path = .ramp ∧
    s.pwr.reclose = true ∧
    s.rst.warmHeld = none :=
  ⟨{ runW with pwr := { runW.pwr with path := .ramp, reclose := true, warn := true } }, by decide⟩

/-- A state and operands that meet the hypotheses of InputFailure, part 9. -/
theorem wit_InputFailure_9 : ∃ (s : State),
    s.pwr.path = .holdup ∧
    s.pwr.why ≠ 1 :=
  ⟨{ runW with pwr := { runW.pwr with path := .holdup } }, by decide⟩

/-- A state and operands that meet the hypotheses of InputFailure, part 10. -/
theorem wit_InputFailure_10 : ∃ (s : State),
    s.pwr.path = .holdup ∧
    s.pwr.why = 1 ∧
    s.pwr.latched = false :=
  ⟨{ runW with pwr := { runW.pwr with path := .holdup, why := 1, fails := 1 } }, by decide⟩

/-- A state and operands that meet the hypotheses of InputFailure, part 11. -/
theorem wit_InputFailure_11 : ∃ (s : State) (mv : Nat),
    mv < 3000 ∧
    s.pwr.path = .opened :=
  ⟨pwrS Pwr.reset .off, 2999, by decide⟩

/-- A state and operands that meet the hypotheses of InputFailure, part 12. -/
theorem wit_InputFailure_12 : ∃ (s : State) (mv n : Nat),
    3000 ≤ mv ∧
    s.pwr.lowAt = some n ∧
    clockRuns s = true ∧
    n + 1000000 ≤ s.tick :=
  ⟨{ State.reset with tick := 1000000 }, 3000, 0, by decide⟩

/-- A state and operands that meet the hypotheses of InputFailure, part 13. -/
theorem wit_InputFailure_13 : ∃ (s : State) (mv n : Nat),
    3000 ≤ mv ∧
    s.pwr.lowAt = some n ∧
    clockRuns s = true ∧
    s.tick < n + 1000000 :=
  ⟨{ State.reset with tick := 999999 }, 3000, 0, by decide⟩

/-- A state and operands that meet the hypotheses of InputFailure, part 14. -/
theorem wit_InputFailure_14 : ∃ (s : State) (mv : Nat),
    35000 ≤ mv :=
  ⟨runW, 35000, by decide⟩

/-- A state and operands that meet the hypotheses of InputFailure, part 15. -/
theorem wit_InputFailure_15 : ∃ (s : State) (mv : Nat),
    mv < 35000 :=
  ⟨runW, 34999, by decide⟩

/-- A state and operands that meet the hypotheses of BreakerAndRails, part 1. -/
theorem wit_BreakerAndRails_1 : ∃ (s : State),
    s.pwr.path = .closed ∧
    s.pwr.latched = false ∧
    s.pwr.fails < 3 ∧
    s.pwr.lowAt = none ∧
    s.home.alc = [] ∧
    s.home.found = [] :=
  ⟨runW, by decide⟩

/-- A state and operands that meet the hypotheses of BreakerAndRails, part 2. -/
theorem wit_BreakerAndRails_2 : ∃ (s : State),
    s.pwr.path = .precharge ∧
    s.pwr.latched = false ∧
    s.pwr.fails < 3 :=
  ⟨pwrS { Pwr.reset with path := .precharge } .precharge, by decide⟩

/-- A state and operands that meet the hypotheses of BreakerAndRails, part 3. -/
theorem wit_BreakerAndRails_3 : ∃ (s : State) (x k i d c n main adc : Nat),
    s.pwr.path = .closed ∧
    s.pwr.brk = 1 ∧
    s.pwr.stTest = false ∧
    s.pwr.measFb = false ∧
    s.pwr.curve[k]? = some (true, i, d) ∧
    s.pwr.timers[k]? = some c ∧
    0 < n ∧
    (d ≤ c ∨ (i * 25 < main ∧ d ≤ c + n)) ∧
    ((∀ j < s.pwr.curve.length, j ≠ k → (s.pwr.curve.getD j (false, 0, 0)).1 = true →
      s.pwr.timers.getD j 0 < (s.pwr.curve.getD j (false, 0, 0)).2.2 ∧
      ((s.pwr.curve.getD j (false, 0, 0)).2.1 * 25 < main → s.pwr.timers.getD j 0 + n < (s.pwr.curve.getD j (false, 0, 0)).2.2))) ∧
    s.pwr.latched = false ∧
    s.pwr.fails < 3 ∧
    s.pwr.lowAt = none ∧
    s.home.alc = [] ∧
    s.home.found = [] :=
  ⟨{ runW with pwr := { runW.pwr with curve := [(true, 900, 40), (true, 960, 2)], timers := [30, 0] } }, 1, 1, 960, 2, 0, 2, 24001, 0, by decide⟩

/-- A state and operands that meet the hypotheses of BreakerAndRails, part 4. -/
theorem wit_BreakerAndRails_4 : ∃ (s : State) (x : CurveTrip),
    (s.pwr.brk ≠ 1 ∨ s.pwr.stTest = true) :=
  ⟨{ runW with pwr := { runW.pwr with brk := 2 } }, ⟨0, []⟩, by decide⟩

/-- A state and operands that meet the hypotheses of BreakerAndRails, part 5. -/
theorem wit_BreakerAndRails_5 : ∃ (s : State) (k n main adc : Nat),
    (s.pwr.brk ≠ 1 ∨ s.pwr.stTest = true) ∧
    s.pwr.lowAt = none ∧
    0 < n :=
  ⟨{ runW with pwr := { runW.pwr with brk := 2 } }, 0, 1, 24001, 0, by decide⟩

/-- A state and operands that meet the hypotheses of BreakerAndRails, part 6. -/
theorem wit_BreakerAndRails_6 : ∃ (s : State),
    curveOk (stagedCurve s) = true :=
  ⟨runW, by decide⟩

/-- A state and operands that meet the hypotheses of BreakerAndRails, part 7. -/
theorem wit_BreakerAndRails_7 : ∃ (s : State),
    curveOk (stagedCurve s) = false :=
  ⟨wr .pwr F.PWR_CURVE0_I_TRIP 500 runW, by decide⟩

/-- A state and operands that meet the hypotheses of BreakerAndRails, part 9. -/
theorem wit_BreakerAndRails_9 : ∃ (s : State),
    s.mode = .maintenance :=
  ⟨{ runW with mode := .maintenance }, by decide⟩

/-- A state and operands that meet the hypotheses of BreakerAndRails, part 10. -/
theorem wit_BreakerAndRails_10 : ∃ (s : State),
    s.mode ≠ .maintenance :=
  ⟨runW, by decide⟩

/-- A state and operands that meet the hypotheses of BreakerAndRails, part 11. -/
theorem wit_BreakerAndRails_11 : ∃ (s : State),
    s.pwr.measFb = false ∧
    1000 ≤ s.pwr.diffFor :=
  ⟨{ runW with pwr := { runW.pwr with diffFor := 1000 } }, by decide⟩

/-- A state and operands that meet the hypotheses of BreakerAndRails, part 12. -/
theorem wit_BreakerAndRails_12 : ∃ (s : State),
    s.pwr.diffFor < 1000 :=
  ⟨runW, by decide⟩

/-- A state and operands that meet the hypotheses of BreakerAndRails, part 13. -/
theorem wit_BreakerAndRails_13 : ∃ (s : State),
    1000000 ≤ s.pwr.sameFor :=
  ⟨{ runW with pwr := { runW.pwr with sameFor := 1000000 } }, by decide⟩

/-- A state and operands that meet the hypotheses of BreakerAndRails, part 14. -/
theorem wit_BreakerAndRails_14 : ∃ (s : State),
    s.pwr.sameFor < 1000000 :=
  ⟨runW, by decide⟩

/-- A state and operands that meet the hypotheses of BreakerAndRails, part 15. -/
theorem wit_BreakerAndRails_15 : ∃ (s : State) (rail phase : Nat),
    rail < 12 ∧
    phase < railNeeds rail + 2 ∧
    (rail, phase) ∉ s.pwr.drops ∧
    (s.pwr.drops.filter fun d => d.1 == rail).length < 2 :=
  ⟨runW, 11, 2, by decide⟩

/-- A state and operands that meet the hypotheses of BreakerAndRails, part 16. -/
theorem wit_BreakerAndRails_16 : ∃ (s : State) (rail phase : Nat),
    rail < 12 ∧
    phase < railNeeds rail + 2 ∧
    (rail, phase) ∉ s.pwr.drops ∧
    2 ≤ (s.pwr.drops.filter fun d => d.1 == rail).length :=
  ⟨{ runW with pwr := { runW.pwr with drops := [(11, 0), (11, 1)] } }, 11, 2, by decide⟩

/-- A state and operands that meet the hypotheses of BreakerAndRails, part 17. -/
theorem wit_BreakerAndRails_17 : ∃ (s : State) (rail : Nat),
    rail < 12 ∧
    rail ∉ s.pwr.unreg :=
  ⟨runW, 11, by decide⟩

/-- A state and operands that meet the hypotheses of BreakerAndRails, part 19. -/
theorem wit_BreakerAndRails_19 : ∃ (s : State) (die temp : Nat),
    temp < 105 :=
  ⟨runW, 3, 104, by decide⟩

/-- A state and operands that meet the hypotheses of BreakerAndRails, part 20. -/
theorem wit_BreakerAndRails_20 : ∃ (s : State) (die temp : Nat),
    105 ≤ temp ∧
    temp < 115 ∧
    s.i3c.tjWarn = [] ∧
    s.i3c.ibi = true ∧
    s.i3c.addr ≠ none :=
  ⟨{ runW with i3c := { I3c.reset with ibi := true, addr := some 9 } }, 3, 105, by decide⟩

/-- A state and operands that meet the hypotheses of BreakerAndRails, part 21. -/
theorem wit_BreakerAndRails_21 : ∃ (s : State) (die temp : Nat),
    115 ≤ temp ∧
    temp < 128 :=
  ⟨runW, 3, 115, by decide⟩

/-- A state and operands that meet the hypotheses of Resets, part 1. -/
theorem wit_Resets_1 : ∃ (s : State),
    s.mode.isUp = true ∧
    s.rst.warmAt = none ∧
    s.pwr.warn = false ∧
    dumpBusy s = false ∧
    s.home.alc = [] ∧
    s.home.found = [] :=
  ⟨runW, by decide⟩

/-- A state and operands that meet the hypotheses of Resets, part 2. -/
theorem wit_Resets_2 : ∃ (s : State),
    s.mode.isUp = true ∧
    s.rst.warmAt = none ∧
    s.pwr.warn = true :=
  ⟨{ runW with pwr := { runW.pwr with warn := true } }, by decide⟩

/-- A state and operands that meet the hypotheses of Resets, part 3. -/
theorem wit_Resets_3 : ∃ (s : State),
    s.mode.isUp = true ∧
    s.rst.warmAt = none ∧
    s.pwr.warn = false ∧
    dumpBusy s = false ∧
    s.home.alc = [] ∧
    s.home.found = [] :=
  ⟨runW, by decide⟩

/-- A state and operands that meet the hypotheses of Resets, part 4. -/
theorem wit_Resets_4 : ∃ (s : State) (n : Nat),
    s.rst.warmAt = some n ∧
    s.wab.ents = [] ∧
    s.home.alc = [] ∧
    dumpBusy s = false ∧
    s.rst.resetN = true ∧
    s.rst.refclk = true ∧
    s.pwr.lowAt = none :=
  ⟨{ runW with rst := { Rst.reset with warmAt := some 0 } }, 0, by decide⟩

/-- A state and operands that meet the hypotheses of Resets, part 5. -/
theorem wit_Resets_5 : ∃ (s : State) (n : Nat),
    s.rst.warmAt = some n ∧
    s.wab.ents = [] ∧
    s.home.alc = [] ∧
    dumpBusy s = false ∧
    s.rst.resetN = false :=
  ⟨{ runW with rst := { Rst.reset with warmAt := some 0, resetN := false } }, 0, by decide⟩

/-- A state and operands that meet the hypotheses of Resets, part 6. -/
theorem wit_Resets_6 : ∃ (s : State) (n : Nat) (e : WabE),
    s.rst.warmAt = some n ∧
    e ∈ s.wab.ents ∧
    e.stranded = false ∧
    s.tick < n + wabWaitLimit :=
  ⟨{ runW with rst := { Rst.reset with warmAt := some 0 }, wab := { runW.wab with ents := [wabE1] } }, 0, wabE1, by decide +kernel⟩

/-- A state and operands that meet the hypotheses of Resets, part 7. -/
theorem wit_Resets_7 : ∃ (s : State),
    s.mode = .boot ∧
    s.rst.resetN = false ∧
    s.rst.refclk = true ∧
    s.pwr.pgInt = true ∧
    s.pwr.lowAt = none :=
  ⟨bootW, by decide⟩

/-- A state and operands that meet the hypotheses of Resets, part 8. -/
theorem wit_Resets_8 : ∃ (s : State),
    s.mode.isUp = true :=
  ⟨runW, by decide⟩

/-- A state and operands that meet the hypotheses of Resets, part 9. -/
theorem wit_Resets_9 : ∃ (s : State) (key : Nat),
    key ≠ 0xC0 :=
  ⟨runW, 0xC1, by decide⟩

/-- A state and operands that meet the hypotheses of Resets, part 10. -/
theorem wit_Resets_10 : ∃ (s : State),
    s.rst.refclk = true ∧
    s.mode.isUp = true :=
  ⟨runW, by decide⟩

/-! ### Security -/

def secS (r : List Nat) : State := { up with sec := { Sec.reset with
  keysSet := true, keys := [(0, 1), (3, 1)], revoking := r, svnNew := some 4, running := some ⟨9, 3, 0, 0⟩,
  flash0 := some [], flash1 := some [] } }
def spdmW (n : Nat) : State := { up with mq := { up.mq with mgmtUp := [0] }, sec := { Sec.reset with spdm := [(0, n)] } }
def tokA : Token := ⟨1, 1, 1, 1, 1, 1, [], 0, 0⟩
def dbgW (b : Bool) : State := { bindW with dbg := { Dbg.reset with unlocked := b, scope := 1, expires := some 9 } }
def dbgV : Word := 0x80000003#32
def dbgF : State :=
  { up with
    dbg := { Dbg.reset with busy := true, access := some (0, 4) }
    maps := { up.maps with fwds := [{ fwdA with agent := .dma }] } }

/-- A state and operands that meet the hypotheses of KeysAndSpdm, part 1. -/
theorem wit_KeysAndSpdm_1 : ∃ (s : State) (v : Word) (slot other : Nat),
    s.mode.isUp = true ∧
    slot = F.SEC_KEY_REVOKE_SLOT.of v.toNat ∧
    F.SEC_KEY_REVOKE_KEY.of v.toNat = 0xA5 ∧
    keySt s slot = 1 ∧
    slot ∉ s.sec.revoking ∧
    slotUsed s slot = false ∧
    other < 4 ∧
    other ≠ slot ∧
    keySt s other = 1 ∧
    other ∉ s.sec.revoking :=
  ⟨secS [], 0xA503#32, 3, 0, by decide⟩

/-- A state and operands that meet the hypotheses of KeysAndSpdm, part 2. -/
theorem wit_KeysAndSpdm_2 : ∃ (s : State) (v : Word),
    s.mode.isUp = true ∧
    F.SEC_KEY_REVOKE_KEY.of v.toNat ≠ 0xA5 :=
  ⟨secS [], 0xA403#32, by decide⟩

/-- A state and operands that meet the hypotheses of KeysAndSpdm, part 3. -/
theorem wit_KeysAndSpdm_3 : ∃ (s : State) (v : Word) (slot : Nat),
    s.mode.isUp = true ∧
    slot = F.SEC_KEY_REVOKE_SLOT.of v.toNat ∧
    ((∀ i, i < 4 → i ≠ slot → keySt s i ≠ 1)) :=
  ⟨{ secS [] with sec := { (secS []).sec with keys := [(3, 1)] } }, 0xA503#32, 3, by decide⟩

/-- A state and operands that meet the hypotheses of KeysAndSpdm, part 4. -/
theorem wit_KeysAndSpdm_4 : ∃ (s : State) (slot : Nat),
    slot ∈ s.sec.revoking ∧
    s.mode.isUp = true ∧
    2 ≤ rd s (.evq 128) F.MQ_EVQ_CFG_CAP :=
  ⟨secS [3], 3, by decide⟩

/-- A state and operands that meet the hypotheses of KeysAndSpdm, part 5. -/
theorem wit_KeysAndSpdm_5 : ∃ (s : State) (v : Word) (r : RunImg),
    s.mode.isUp = true ∧
    s.sec.running = some r ∧
    F.SEC_SVN_CTL_COMMIT.of v.toNat = 1 ∧
    F.SEC_SVN_CTL_KEY.of v.toNat = 0x5A :=
  ⟨secS [], 0x8000005A#32, ⟨9, 3, 0, 0⟩, by decide⟩

/-- A state and operands that meet the hypotheses of KeysAndSpdm, part 6. -/
theorem wit_KeysAndSpdm_6 : ∃ (s : State) (v : Word),
    s.mode.isUp = true ∧
    F.SEC_SVN_CTL_COMMIT.of v.toNat = 1 ∧
    F.SEC_SVN_CTL_KEY.of v.toNat ≠ 0x5A :=
  ⟨secS [], 0x8000005B#32, by decide⟩

/-- A state and operands that meet the hypotheses of KeysAndSpdm, part 7. -/
theorem wit_KeysAndSpdm_7 : ∃ (s : State) (n : Nat),
    s.sec.svnNew = some n ∧
    s.mode.isUp = true ∧
    2 ≤ rd s (.evq 128) F.MQ_EVQ_CFG_CAP :=
  ⟨secS [], 4, by decide⟩

/-- A state and operands that meet the hypotheses of KeysAndSpdm, part 8. -/
theorem wit_KeysAndSpdm_8 : ∃ (s : State) (ep : Nat),
    mgUp s ep = true ∧
    s.mode.isUp = true :=
  ⟨spdmW 0, 0, by decide⟩

/-- A state and operands that meet the hypotheses of KeysAndSpdm, part 9. -/
theorem wit_KeysAndSpdm_9 : ∃ (s : State) (ep : Nat),
    mgUp s ep = true ∧
    s.mode.isUp = true ∧
    1 ≤ spdmSt s ep ∧
    spdmSt s ep ≠ 4 :=
  ⟨spdmW 1, 0, by decide⟩

/-- A state and operands that meet the hypotheses of KeysAndSpdm, part 10. -/
theorem wit_KeysAndSpdm_10 : ∃ (s : State) (ep : Nat),
    mgUp s ep = true ∧
    s.mode.isUp = true ∧
    2 ≤ spdmSt s ep ∧
    spdmSt s ep ≠ 4 :=
  ⟨spdmW 2, 0, by decide⟩

/-- A state and operands that meet the hypotheses of KeysAndSpdm, part 11. -/
theorem wit_KeysAndSpdm_11 : ∃ (s : State) (ep : Nat),
    mgUp s ep = true ∧
    s.mode.isUp = true ∧
    2 ≤ spdmSt s ep ∧
    spdmSt s ep ≠ 4 :=
  ⟨spdmW 2, 0, by decide⟩

/-- A state and operands that meet the hypotheses of KeysAndSpdm, part 12. -/
theorem wit_KeysAndSpdm_12 : ∃ (s : State) (ep : Nat),
    mgUp s ep = true ∧
    s.mode.isUp = true ∧
    spdmSt s ep = 3 :=
  ⟨spdmW 3, 0, by decide⟩

/-- A state and operands that meet the hypotheses of KeysAndSpdm, part 13. -/
theorem wit_KeysAndSpdm_13 : ∃ (s : State) (ep : Nat),
    mgUp s ep = true ∧
    s.mode.isUp = true ∧
    spdmSt s ep < 3 :=
  ⟨spdmW 2, 0, by decide⟩

/-- A state and operands that meet the hypotheses of KeysAndSpdm, part 14. -/
theorem wit_KeysAndSpdm_14 : ∃ (s : State) (ep : Nat),
    mgUp s ep = true ∧
    s.mode.isUp = true ∧
    spdmSt s ep = 4 :=
  ⟨spdmW 4, 0, by decide⟩

/-- A state and operands that meet the hypotheses of KeysAndSpdm, part 15. -/
theorem wit_KeysAndSpdm_15 : ∃ (s : State) (ep slot offset length : Nat),
    mgUp s ep = true ∧
    s.mode.isUp = true ∧
    spdmSt s ep = 3 ∧
    slot < 2 :=
  ⟨spdmW 3, 0, 1, 0, 16, by decide⟩

/-- A state and operands that meet the hypotheses of KeysAndSpdm, part 16. -/
theorem wit_KeysAndSpdm_16 : ∃ (s : State) (ep slot nonce : Nat),
    mgUp s ep = true ∧
    s.mode.isUp = true ∧
    spdmSt s ep = 3 ∧
    slot < 2 :=
  ⟨spdmW 3, 0, 1, 99, by decide⟩

/-- A state and operands that meet the hypotheses of KeysAndSpdm, part 17. -/
theorem wit_KeysAndSpdm_17 : ∃ (s : State) (ep slot nonce : Nat),
    mgUp s ep = true ∧
    s.mode.isUp = true ∧
    spdmSt s ep = 3 ∧
    2 ≤ slot :=
  ⟨spdmW 3, 0, 2, 99, by decide⟩

/-- A state and operands that meet the hypotheses of KeysAndSpdm, part 18. -/
theorem wit_KeysAndSpdm_18 : ∃ (s : State) (ep nonce : Nat),
    mgUp s ep = true ∧
    s.mode.isUp = true ∧
    spdmSt s ep = 3 :=
  ⟨spdmW 3, 0, 99, by decide⟩

/-- A state and operands that meet the hypotheses of KeysAndSpdm, part 19. -/
theorem wit_KeysAndSpdm_19 : ∃ (s : State) (ep index nonce : Nat),
    mgUp s ep = true ∧
    s.mode.isUp = true ∧
    spdmSt s ep = 3 ∧
    1 ≤ index ∧
    index ≤ 4 :=
  ⟨spdmW 3, 0, 1, 99, by decide⟩

/-- A state and operands that meet the hypotheses of KeysAndSpdm, part 20. -/
theorem wit_KeysAndSpdm_20 : ∃ (s : State) (ep code : Nat),
    mgUp s ep = true ∧
    s.mode.isUp = true ∧
    spdmSt s ep ≠ 4 :=
  ⟨spdmW 3, 0, 5, by decide⟩

/-- A state and operands that meet the hypotheses of KeysAndSpdm, part 21. -/
theorem wit_KeysAndSpdm_21 : ∃ (s : State),
    jtagAlive s = true :=
  ⟨up, by decide⟩

/-- A state and operands that meet the hypotheses of KeysAndSpdm, part 22. -/
theorem wit_KeysAndSpdm_22 : ∃ (s : State) (copy : Nat) (bytes : List Nat),
    jtagAlive s = true ∧
    copy < 2 :=
  ⟨up, 1, [1, 2], by decide⟩

/-- A state and operands that meet the hypotheses of TokensAndDebugMaster, part 1. -/
theorem wit_TokensAndDebugMaster_1 : ∃ (s : State) (c : Ctx) (len : Nat) (good : Bool) (k : Token),
    CoreActs s ∧
    Hears s c ∧
    len ≠ 7952 :=
  ⟨sent up, c0, 7951, true, tokA, by decide⟩

/-- A state and operands that meet the hypotheses of TokensAndDebugMaster, part 2. -/
theorem wit_TokensAndDebugMaster_2 : ∃ (s : State) (c : Ctx) (k : Token),
    CoreActs s ∧
    Hears s c ∧
    mgUp s c.ep = true :=
  ⟨{ sent up with mq := { (sent up).mq with mgmtUp := [0] } }, c0, tokA, by decide⟩

/-- A state and operands that meet the hypotheses of TokensAndDebugMaster, part 3. -/
theorem wit_TokensAndDebugMaster_3 : ∃ (s : State) (k : Token),
    jtagAlive s = true :=
  ⟨up, tokA, by decide⟩

/-- A state and operands that meet the hypotheses of TokensAndDebugMaster, part 4. -/
theorem wit_TokensAndDebugMaster_4 : ∃ (s : State) (c : Ctx) (p n : Nat) (k : Token) (rest : List TokJob),
    s.dbg.jobs = ⟨p, some c, k, n⟩ :: rest ∧
    Hears s c :=
  ⟨{ sent up with dbg := { Dbg.reset with jobs := [⟨0, some c0, tokA, 0⟩] } }, c0, 0, 0, tokA, [], by decide⟩

/-- A state and operands that meet the hypotheses of TokensAndDebugMaster, part 6. -/
theorem wit_TokensAndDebugMaster_6 : ∃ (s : State) (n : Nat),
    s.dbg.expires = some n ∧
    s.dbg.unlocked = true ∧
    clockRuns s = true ∧
    s.mode.isUp = true ∧
    2 ≤ rd s (.evq 128) F.MQ_EVQ_CFG_CAP :=
  ⟨dbgW true, 9, by decide⟩

/-- A state and operands that meet the hypotheses of TokensAndDebugMaster, part 7. -/
theorem wit_TokensAndDebugMaster_7 : ∃ (s : State),
    s.mode.isUp = true ∧
    s.dbg.unlocked = true ∧
    2 ≤ rd s (.evq 128) F.MQ_EVQ_CFG_CAP :=
  ⟨dbgW true, by decide⟩

/-- A state and operands that meet the hypotheses of TokensAndDebugMaster, part 8. -/
theorem wit_TokensAndDebugMaster_8 : ∃ (s : State),
    s.mode.isUp = true ∧
    s.dbg.unlocked = false :=
  ⟨dbgW false, by decide⟩

/-- A state and operands that meet the hypotheses of TokensAndDebugMaster, part 9. -/
theorem wit_TokensAndDebugMaster_9 : ∃ (s : State) (v : Word) (rep : List (Nat × Nat)),
    s.mode.isUp = true ∧
    F.DBG_MEM_CTL_GO.of v.toNat = 1 ∧
    s.dbg.busy = false ∧
    (s.dbg.unlocked = false ∨ bit s.dbg.scope 0 = false) :=
  ⟨dbgW false, dbgV, [(0, 1)], by decide⟩

/-- A state and operands that meet the hypotheses of TokensAndDebugMaster, part 10. -/
theorem wit_TokensAndDebugMaster_10 : ∃ (s : State) (v : Word) (rep : List (Nat × Nat)) (raw : Nat),
    s.mode.isUp = true ∧
    F.DBG_MEM_CTL_GO.of v.toNat = 1 ∧
    s.dbg.busy = false ∧
    s.dbg.unlocked = true ∧
    bit s.dbg.scope 0 = true ∧
    F.DBG_MEM_CTL_SIZE8.of v.toNat = 0 ∧
    F.DBG_MEM_CTL_WRITE.of v.toNat = 0 ∧
    raw = rd s .dbg F.DBG_MEM_ADDR_HI_ADDR * 2 ^ 32 + rd s .dbg F.DBG_MEM_ADDR_LO_ADDR * 4 ∧
    lookupOff s (F.DBG_MEM_CTL_PART.of v.toNat) raw = none :=
  ⟨dbgW true, 0x80000004#32, [(0, 1)], 0, by decide⟩

/-- A state and operands that meet the hypotheses of TokensAndDebugMaster, part 11. -/
theorem wit_TokensAndDebugMaster_11 : ∃ (s : State) (v : Word) (rep : List (Nat × Nat)) (raw idx : Nat) (b : Binding),
    s.mode.isUp = true ∧
    F.DBG_MEM_CTL_GO.of v.toNat = 1 ∧
    s.dbg.busy = false ∧
    s.dbg.unlocked = true ∧
    bit s.dbg.scope 0 = true ∧
    F.DBG_MEM_CTL_SIZE8.of v.toNat = 0 ∧
    raw = rd s .dbg F.DBG_MEM_ADDR_HI_ADDR * 2 ^ 32 + rd s .dbg F.DBG_MEM_ADDR_LO_ADDR * 4 ∧
    lookupOff s (F.DBG_MEM_CTL_PART.of v.toNat) raw = some (idx, b) ∧
    badWords (hostTile s (F.DBG_MEM_CTL_PART.of v.toNat)) rep = [] ∧
    b.locked = true :=
  ⟨{ dbgW true with maps := { (dbgW true).maps with binds := [(7, { bindA with locked := true })] } }, dbgV, [(7, 1)], 0, 7, { bindA with locked := true }, by decide +kernel⟩

/-- A state and operands that meet the hypotheses of TokensAndDebugMaster, part 12. -/
theorem wit_TokensAndDebugMaster_12 : ∃ (s : State) (v : Word) (rep : List (Nat × Nat)) (raw idx out : Nat) (b : Binding),
    s.mode.isUp = true ∧
    F.DBG_MEM_CTL_GO.of v.toNat = 1 ∧
    s.dbg.busy = false ∧
    s.dbg.unlocked = true ∧
    bit s.dbg.scope 0 = true ∧
    F.DBG_MEM_CTL_SIZE8.of v.toNat = 0 ∧
    F.DBG_MEM_CTL_WRITE.of v.toNat = 0 ∧
    raw = rd s .dbg F.DBG_MEM_ADDR_HI_ADDR * 2 ^ 32 + rd s .dbg F.DBG_MEM_ADDR_LO_ADDR * 4 ∧
    lookupOff s (F.DBG_MEM_CTL_PART.of v.toNat) raw = some (idx, b) ∧
    badWords (hostTile s (F.DBG_MEM_CTL_PART.of v.toNat)) rep = [] ∧
    b.locked = false ∧
    b.right 0 0 = true ∧
    b.kind = 0 ∧
    b.shared = false ∧
    s.home.alc = [] ∧
    s.home.loq = [] ∧
    s.wab.ents = [] ∧
    b.lead s = some out ∧
    usable s out = true :=
  ⟨dbgW true, dbgV, [], 0, 7, 16, bindA, by decide +kernel⟩

/-- A state and operands that meet the hypotheses of TokensAndDebugMaster, part 13. -/
theorem wit_TokensAndDebugMaster_13 : ∃ (s : State) (v : Word) (rep : List (Nat × Nat)),
    s.mode.isUp = true ∧
    s.dbg.busy = true :=
  ⟨{ up with dbg := { Dbg.reset with busy := true } }, dbgV, [], by decide⟩

/-- A state and operands that meet the hypotheses of TokensAndDebugMaster, part 14. -/
theorem wit_TokensAndDebugMaster_14 : ∃ (s : State) (data : LineData) (down : Bool) (off : Nat) (a : DbgAns),
    s.dbg.access = some (0, off) ∧
    s.dbg.answer = some a :=
  ⟨{ up with dbg := { Dbg.reset with busy := true, access := some (0, 4), answer := some ⟨false, 0xAA00000000#512⟩ } }, 0xFF00000000#512, true, 4, ⟨false, 0xAA00000000#512⟩, by decide +kernel⟩

/-- A state and operands that meet the hypotheses of TokensAndDebugMaster, part 15. -/
theorem wit_TokensAndDebugMaster_15 : ∃ (s : State) (data : LineData) (down : Bool) (off : Nat),
    s.dbg.access = some (0, off) ∧
    s.dbg.waiting = none ∧
    s.dbg.answer = none ∧
    (s.maps.fwds.any fun f => decide (f.agent = .dma)) = true :=
  ⟨dbgF, 0xFF00000000#512, false, 4, by decide +kernel⟩

/-- A state and operands that meet the hypotheses of TokensAndDebugMaster, part 16. -/
theorem wit_TokensAndDebugMaster_16 : ∃ (s : State) (data : LineData) (down : Bool),
    s.dbg.answer = none ∧
    (s.dbg.waiting ≠ none ∨ (s.maps.fwds.any fun f => decide (f.agent = .dma)) = false) :=
  ⟨{ up with dbg := { Dbg.reset with busy := true, access := some (0, 4), waiting := some (3, 7, bindA) } }, 0#512, true, by decide⟩

/-! ### Registers and the sideband -/

def i3cW (i : I3c) (p : Pwr) : State := { pwrS p .off with i3c := i }
def moveA : Cell := { cellA with stage := .moving 1 }
def moveW : State := { wr (.phy 8) F.PHY_LINK_CFG_ROLE 3 up with core := { Core.reset with cells := [moveA] } }

/-- A state and operands that meet the hypotheses of RegisterPages, part 2. -/
theorem wit_RegisterPages_2 : ∃ (s : State) (p : Nat) (v : Word),
    NoneDue s ∧
    p < 128 :=
  ⟨up, 127, 2#32, by decide⟩

/-- A state and operands that meet the hypotheses of RegisterPages, part 3. -/
theorem wit_RegisterPages_3 : ∃ (s : State) (ep q : Nat) (v : Word),
    NoneDue s ∧
    ep < 2 ∧
    q < 64 :=
  ⟨up, 1, 63, 0#32, by decide⟩

/-- A state and operands that meet the hypotheses of RegisterPages, part 5. -/
theorem wit_RegisterPages_5 : ∃ (s : State) (pg : Page),
    NoneDue s ∧
    pageAt (pg.base / 0x1000) = some pg ∧
    ownRun pg = true ∧
    rd s pg F.BLK_CTL_RUN = 1 ∧
    stopCond s pg = true :=
  ⟨wr (.ni 3) F.BLK_CTL_RUN 1 up, .ni 3, by decide⟩

/-- A state and operands that meet the hypotheses of RegisterPages, part 6. -/
theorem wit_RegisterPages_6 : ∃ (s : State) (p : Nat),
    NoneDue s ∧
    p < 512 :=
  ⟨up, 511, by decide⟩

/-- A state and operands that meet the hypotheses of RegisterPages, part 7. -/
theorem wit_RegisterPages_7 : ∃ (s : State) (p : Nat),
    NoneDue s ∧
    p < 128 :=
  ⟨up, 127, by decide⟩

/-- A state and operands that meet the hypotheses of RegisterPages, part 9. -/
theorem wit_RegisterPages_9 : ∃ (s : State) (ep addr size : Nat),
    NoneDue s ∧
    ((ep = 2 → jtagRegs s = true)) ∧
    accessFits addr size = true :=
  ⟨{ up with dbg := { Dbg.reset with unlocked := true, scope := 2 } }, 2, 0x3820000, 65536, by decide⟩

/-- A state and operands that meet the hypotheses of RegisterPages, part 10. -/
theorem wit_RegisterPages_10 : ∃ (s : State) (addr size : Nat),
    NoneDue s ∧
    jtagRegs s = false :=
  ⟨up, 0x3000000, 4, by decide⟩

/-- A state and operands that meet the hypotheses of RegisterPages, part 11. -/
theorem wit_RegisterPages_11 : ∃ (s : State) (src addr size : Nat),
    NoneDue s ∧
    src < 2 ∧
    clockRuns s = true ∧
    accessFits addr size = true :=
  ⟨up, 1, 0x3820000, 65536, by decide⟩

/-- A state and operands that meet the hypotheses of RegisterPages, part 12. -/
theorem wit_RegisterPages_12 : ∃ (s : State) (src p : Nat) (v : BitVec 64),
    NoneDue s ∧
    NoneParked s ∧
    src < 2 ∧
    p < 128 ∧
    clockRuns s = true :=
  ⟨up, 1, 127, 9#64, by decide⟩

/-- A state and operands that meet the hypotheses of RegisterPages, part 13. -/
theorem wit_RegisterPages_13 : ∃ (s : State) (ep off : Nat),
    NoneDue s ∧
    ep < 2 ∧
    off + 4 ≤ bar2Size :=
  ⟨up, 1, 0xF0000, by decide⟩

/-- A state and operands that meet the hypotheses of RegisterPages, part 14. -/
theorem wit_RegisterPages_14 : ∃ (s : State) (pg : Page) (v : Word),
    pageAt (pg.base / 0x1000) = some pg ∧
    pg.base % 0x1000 = 0 ∧
    NoneDue s ∧
    Takes s pg ∧
    ownRun pg = true ∧
    rd s pg F.BLK_CTL_RUN = 0 ∧
    (v.toNat % 4 = 1 ∨ v.toNat % 4 = 2) :=
  ⟨wr .ftm F.BLK_CTL_RUN 0 up, .ftm, 2#32, by decide⟩

/-- A state and operands that meet the hypotheses of RegisterPages, part 15. -/
theorem wit_RegisterPages_15 : ∃ (s : State) (pg : Page) (v : Word),
    pageAt (pg.base / 0x1000) = some pg ∧
    pg.base % 0x1000 = 0 ∧
    NoneDue s ∧
    Takes s pg ∧
    ownRun pg = true ∧
    rd s pg F.BLK_CTL_RUN = 2 ∧
    v.toNat % 4 = 0 :=
  ⟨up, .cnp 7, 0#32, by decide⟩

/-- A state and operands that meet the hypotheses of RegisterPages, part 16. -/
theorem wit_RegisterPages_16 : ∃ (s : State) (pg : Page) (v : Word),
    pageAt (pg.base / 0x1000) = some pg ∧
    pg.base % 0x1000 = 0 ∧
    NoneDue s ∧
    Takes s pg ∧
    ownRun pg = true ∧
    (v.toNat % 4 = 3 ∨ (v.toNat % 4 = 0 ∧ rd s pg F.BLK_CTL_RUN = 1)) :=
  ⟨wr (.ni 3) F.BLK_CTL_RUN 1 up, .ni 3, 0#32, by decide⟩

/-- A state and operands that meet the hypotheses of RegisterPages, part 17. -/
theorem wit_RegisterPages_17 : ∃ (s : State) (pg : Page) (v : Word),
    pageAt (pg.base / 0x1000) = some pg ∧
    pg.base % 0x1000 = 0 ∧
    NoneDue s ∧
    Takes s pg ∧
    pg.follow = true :=
  ⟨up, .cell 3, 1#32, by decide⟩

/-- A state and operands that meet the hypotheses of RegisterPages, part 18. -/
theorem wit_RegisterPages_18 : ∃ (s : State),
    NoneDue s ∧
    clockRuns s = true ∧
    rd s .ftm F.BLK_CTL_RUN = 1 :=
  ⟨wr .ftm F.BLK_CTL_RUN 1 up, by decide⟩

/-- A state and operands that meet the hypotheses of RegisterPages, part 19. -/
theorem wit_RegisterPages_19 : ∃ (s : State),
    NoneDue s ∧
    s.core.cells = [] ∧
    rd s .trnk F.BLK_CTL_RUN = 1 :=
  ⟨wr .trnk F.BLK_CTL_RUN 1 up, by decide⟩

/-- A state and operands that meet the hypotheses of RegisterPages, part 20. -/
theorem wit_RegisterPages_20 : ∃ (s : State) (c : Cell),
    NoneDue s ∧
    c ∈ s.core.cells ∧
    c.inMove = true ∧
    trunkCell s c = true :=
  ⟨moveW, moveA, by decide⟩

/-- A state and operands that meet the hypotheses of RegisterPages, part 21. -/
theorem wit_RegisterPages_21 : ∃ (s : State) (src : Nat) (v : BitVec 64),
    NoneDue s ∧
    NoneParked s ∧
    src < 2 :=
  ⟨up, 1, 0x1FF#64, by decide⟩

/-- A state and operands that meet the hypotheses of RegisterPages, part 22. -/
theorem wit_RegisterPages_22 : ∃ (s : State) (src : Nat) (v : BitVec 64),
    NoneDue s ∧
    NoneParked s ∧
    src < 2 ∧
    v.toNat % 128 ≤ 79 :=
  ⟨up, 1, 79#64, by decide⟩

/-- A state and operands that meet the hypotheses of RegisterPages, part 23. -/
theorem wit_RegisterPages_23 : ∃ (s : State) (src : Nat) (v : BitVec 64),
    NoneDue s ∧
    NoneParked s ∧
    src < 2 ∧
    79 < v.toNat % 128 :=
  ⟨up, 1, 80#64, by decide⟩

/-- A state and operands that meet the hypotheses of RegisterPages, part 24. -/
theorem wit_RegisterPages_24 : ∃ (s : State) (src : Nat) (v : BitVec 64),
    NoneDue s ∧
    NoneParked s ∧
    src < 2 ∧
    s.mode.isUp = true ∧
    rd s .trnk F.BLK_CTL_RUN = 2 :=
  ⟨up, 1, 0x1234#64, by decide⟩

/-- A state and operands that meet the hypotheses of RegisterPages, part 25. -/
theorem wit_RegisterPages_25 : ∃ (s : State) (src : Nat) (v : BitVec 64),
    NoneDue s ∧
    NoneParked s ∧
    src < 2 ∧
    s.mode.isUp = true ∧
    rd s .trnk F.BLK_CTL_RUN ≠ 2 :=
  ⟨wr .trnk F.BLK_CTL_RUN 0 up, 1, 0x1234#64, by decide⟩

/-- A state and operands that meet the hypotheses of RegisterPages, part 26. -/
theorem wit_RegisterPages_26 : ∃ (s : State) (src : Nat) (v : BitVec 64),
    NoneDue s ∧
    NoneParked s ∧
    src < 2 ∧
    tget none s.rwe (rweKey .pwr F.PWR_TOK_CFG_COST) = none ∧
    tget none s.rwe (rweKey .pwr F.PWR_TOK_CFG_BUDGET) = none :=
  ⟨up, 1, 0x810#64, by decide⟩

/-- A state and operands that meet the hypotheses of RegisterPages, part 27. -/
theorem wit_RegisterPages_27 : ∃ (s : State) (src : Nat) (v : BitVec 64),
    NoneDue s ∧
    NoneParked s ∧
    src < 2 :=
  ⟨up, 1, 0x812345678#64, by decide⟩

/-- A state and operands that meet the hypotheses of RegisterPages, part 28. -/
theorem wit_RegisterPages_28 : ∃ (s : State) (src : Nat) (v : BitVec 64),
    NoneDue s ∧
    NoneParked s ∧
    src < 2 ∧
    (fkey .pwr F.BLK_STS_CFG_REJECT, s.tick) ∉ s.w1cNow ∧
    v.toNat / 2 % 2 = 1 :=
  ⟨{ wr .pwr F.BLK_STS_CFG_REJECT 1 up with w1cNow := [] }, 1, 2#64, by decide⟩

/-- A state and operands that meet the hypotheses of RegisterPages, part 29. -/
theorem wit_RegisterPages_29 : ∃ (s : State) (src addr size : Nat) (v : BitVec 64),
    NoneDue s ∧
    NoneParked s ∧
    src < 2 ∧
    accessFits addr size = false ∧
    ((addr < bar0Size ∨ bar0Size + bar2Size < addr + size)) :=
  ⟨up, 1, 0x1042, 4, 2#64, by decide⟩

/-- A state and operands that meet the hypotheses of RegisterPages, part 30. -/
theorem wit_RegisterPages_30 : ∃ (s : State) (src addr : Nat) (v : BitVec 64),
    NoneDue s ∧
    NoneParked s ∧
    src < 2 ∧
    accessFits addr 4 = true ∧
    pageAt (addr / 0x1000) = none :=
  ⟨up, 1, 0xD000, 2#64, by decide⟩

/-- A state and operands that meet the hypotheses of RegisterPages, part 31. -/
theorem wit_RegisterPages_31 : ∃ (s : State) (src addr : Nat) (v : BitVec 64) (pg : Page),
    NoneDue s ∧
    NoneParked s ∧
    src < 2 ∧
    accessFits addr 4 = true ∧
    pageAt (addr / 0x1000) = some pg ∧
    s.mode.isUp = false ∧
    earlyPage pg = false :=
  ⟨State.reset, 1, 0x2048, 2#64, .ftm, by decide⟩

/-- A state and operands that meet the hypotheses of RegisterPages, part 32. -/
theorem wit_RegisterPages_32 : ∃ (s : State) (src addr : Nat) (v : BitVec 64) (pg : Page),
    NoneDue s ∧
    NoneParked s ∧
    src < 2 ∧
    accessFits addr 4 = true ∧
    pageAt (addr / 0x1000) = some pg ∧
    s.mode = .fatalHold ∧
    pg.scope ≠ 0 :=
  ⟨{ up with mode := .fatalHold }, 1, 0x2000040, 2#64, .part 0, by decide⟩

/-- A state and operands that meet the hypotheses of RegisterPages, part 33. -/
theorem wit_RegisterPages_33 : ∃ (s : State) (addr size : Nat) (v : BitVec 64),
    NoneDue s ∧
    NoneParked s ∧
    s.dbg.unlocked = false :=
  ⟨up, 0x1040, 4, 2#64, by decide⟩

/-- A state and operands that meet the hypotheses of RegisterPages, part 34. -/
theorem wit_RegisterPages_34 : ∃ (s : State) (ep i : Nat),
    NoneDue s ∧
    ((ep = 2 → jtagRegs s = true)) ∧
    s.mode.isUp = true ∧
    i < 0x40000 :=
  ⟨bindW, 1, 7, by decide⟩

/-- A state and operands that meet the hypotheses of RegisterPages, part 35. -/
theorem wit_RegisterPages_35 : ∃ (s : State) (ep i : Nat) (b : Binding),
    NoneDue s ∧
    ((ep = 2 → jtagRegs s = true)) ∧
    s.mode.isUp = true ∧
    i < 0x40000 ∧
    latched s ep = some (i, b) :=
  ⟨{ bindW with maps := { bindW.maps with window := [(1, 7, bindA)] } }, 1, 7, bindA, by decide⟩

/-- A state and operands that meet the hypotheses of RegisterPages, part 36. -/
theorem wit_RegisterPages_36 : ∃ (s : State) (ep addr size : Nat),
    NoneDue s ∧
    ((ep = 2 → jtagRegs s = true)) ∧
    windowAt addr ≠ none ∧
    (size = 0 ∨ size % 4 ≠ 0 ∨
    addr % 4 ≠ 0) :=
  ⟨up, 1, 0x3000000, 0, by decide⟩

/-- A state and operands that meet the hypotheses of SidebandTarget, part 1. -/
theorem wit_SidebandTarget_1 : ∃ (s : State) (code a : Nat),
    s.pwr.lowAt = none :=
  ⟨i3cW I3c.reset Pwr.reset, 0x07, 9, by decide⟩

/-- A state and operands that meet the hypotheses of SidebandTarget, part 2. -/
theorem wit_SidebandTarget_2 : ∃ (s : State) (reg a : Nat) (bytes : List Nat),
    s.pwr.lowAt = none ∧
    s.i3c.addr = some a :=
  ⟨i3cW { I3c.reset with addr := some 9 } { Pwr.reset with latched := true }, 14, 9, [1, 0xC3], by decide⟩

/-- A state and operands that meet the hypotheses of SidebandTarget, part 3. -/
theorem wit_SidebandTarget_3 : ∃ (s : State) (n a : Nat),
    s.pwr.lowAt = none ∧
    s.i3c.addr = some a :=
  ⟨i3cW { I3c.reset with addr := some 9, sel := 0x08 } Pwr.reset, 4, 9, by decide⟩

/-- A state and operands that meet the hypotheses of SidebandTarget, part 4. -/
theorem wit_SidebandTarget_4 : ∃ (s : State) (reg n : Nat) (bytes : List Nat),
    s.pwr.lowAt = none ∧
    s.i3c.addr = none :=
  ⟨i3cW I3c.reset Pwr.reset, 14, 4, [1, 0xC3], by decide⟩

/-- A state and operands that meet the hypotheses of SidebandTarget, part 5. -/
theorem wit_SidebandTarget_5 : ∃ (s : State) (v : Nat),
    s.pwr.lowAt = none :=
  ⟨i3cW I3c.reset { Pwr.reset with latched := true }, 0xC3, by decide⟩

/-- A state and operands that meet the hypotheses of SidebandTarget, part 6. -/
theorem wit_SidebandTarget_6 : ∃ (s : State) (a : Nat),
    s.pwr.lowAt = none ∧
    s.i3c.addr = none :=
  ⟨i3cW I3c.reset Pwr.reset, 9, by decide⟩

/-- A state and operands that meet the hypotheses of SidebandTarget, part 7. -/
theorem wit_SidebandTarget_7 : ∃ (s : State) (a b : Nat),
    s.pwr.lowAt = none ∧
    s.i3c.addr = some b :=
  ⟨i3cW { I3c.reset with addr := some 9 } Pwr.reset, 0, 9, by decide⟩

/-- A state and operands that meet the hypotheses of SidebandTarget, part 8. -/
theorem wit_SidebandTarget_8 : ∃ (s : State) (a b : Nat),
    s.pwr.lowAt = none ∧
    s.i3c.addr = some b :=
  ⟨i3cW { I3c.reset with addr := some 9 } Pwr.reset, 0, 9, by decide⟩

/-- A state and operands that meet the hypotheses of SidebandTarget, part 9. -/
theorem wit_SidebandTarget_9 : ∃ (s : State) (a b : Nat),
    s.pwr.lowAt = none ∧
    s.i3c.addr = some b ∧
    a % 2 = 1 :=
  ⟨i3cW { I3c.reset with addr := some 9 } Pwr.reset, 1, 9, by decide⟩

/-- A state and operands that meet the hypotheses of SidebandTarget, part 10. -/
theorem wit_SidebandTarget_10 : ∃ (s : State) (code a : Nat),
    s.pwr.lowAt = none ∧
    s.i3c.addr = none ∧
    code ≠ 0x07 :=
  ⟨i3cW I3c.reset Pwr.reset, 0x06, 9, by decide⟩

/-- A state and operands that meet the hypotheses of SidebandTarget, part 11. -/
theorem wit_SidebandTarget_11 : ∃ (s : State) (n code a reg m v : Nat) (bytes : List Nat),
    s.pwr.lowAt = some n :=
  ⟨State.reset, 0, 7, 9, 15, 1, 0xC3, [0xC3], by decide⟩

/-- A state and operands that meet the hypotheses of SidebandTarget, part 12. -/
theorem wit_SidebandTarget_12 : ∃ (s : State),
    s.pwr.lowAt = none ∧
    s.pwr.latched = true ∧
    4400 ≤ s.pwr.vin ∧
    s.mode = .off ∧
    s.pwr.path = .opened ∧
    s.pwr.ov = false ∧
    s.rst.coldAt = none :=
  ⟨i3cW I3c.reset { Pwr.reset with latched := true, fails := 4 }, by decide⟩

/-- A state and operands that meet the hypotheses of SidebandTarget, part 13. -/
theorem wit_SidebandTarget_13 : ∃ (s : State) (v : Nat),
    s.pwr.lowAt = none ∧
    (v ≠ 0xC3 ∨ s.pwr.latched = false ∨ s.pwr.vin < 4400) :=
  ⟨i3cW I3c.reset { Pwr.reset with latched := true, fails := 4 }, 0xC2, by decide⟩

/-- A state and operands that meet the hypotheses of SidebandTarget, part 14. -/
theorem wit_SidebandTarget_14 : ∃ (s : State) (reg a : Nat),
    s.pwr.lowAt = none ∧
    s.i3c.addr = some a :=
  ⟨i3cW { I3c.reset with addr := some 9 } Pwr.reset, 2, 9, by decide⟩

/-- A state and operands that meet the hypotheses of SidebandTarget, part 15. -/
theorem wit_SidebandTarget_15 : ∃ (s : State) (a v : Nat),
    s.pwr.lowAt = none ∧
    s.i3c.addr = some a ∧
    v % 256 ≠ 0xC3 :=
  ⟨i3cW { I3c.reset with addr := some 9 } Pwr.reset, 9, 0xC2, by decide⟩

/-- A state and operands that meet the hypotheses of SidebandTarget, part 16. -/
theorem wit_SidebandTarget_16 : ∃ (s : State) (a : Nat),
    s.pwr.lowAt = none ∧
    s.i3c.addr = some a ∧
    s.i3c.sel = 0x02 :=
  ⟨i3cW { I3c.reset with addr := some 9, sel := 2 } Pwr.reset, 9, by decide⟩

/-- A state and operands that meet the hypotheses of SidebandTarget, part 17. -/
theorem wit_SidebandTarget_17 : ∃ (s : State) (a : Nat),
    s.pwr.lowAt = none ∧
    s.i3c.addr = some a ∧
    s.i3c.sel = 0x06 ∧
    s.pwr.vin < 65536 :=
  ⟨i3cW { I3c.reset with addr := some 9, sel := 6 } Pwr.reset, 9, by decide⟩

/-- A state and operands that meet the hypotheses of RunStatesAfterReset, part 1. -/
theorem wit_RunStatesAfterReset_1 : ∃ (s : State),
    s.pwr.path = .holdup :=
  ⟨{ runW with pwr := { runW.pwr with path := .holdup } }, by decide⟩

/-- A state and operands that meet the hypotheses of RunStatesAfterReset, part 2. -/
theorem wit_RunStatesAfterReset_2 : ∃ (s : State) (n : Nat),
    s.rst.warmAt = some n ∧
    s.wab.ents = [] ∧
    s.home.alc = [] ∧
    dumpBusy s = false :=
  ⟨{ runW with rst := { Rst.reset with warmAt := some 0 } }, 0, by decide⟩

/-- A state and operands that meet the hypotheses of RunStatesAfterReset, part 3. -/
theorem wit_RunStatesAfterReset_3 : ∃ (s : State),
    s.mode = .boot ∧
    s.rst.refOk = true ∧
    s.pwr.stTest = false ∧
    s.sec.running ≠ none ∧
    s.rst.warmAt = none ∧
    s.rst.resetN = true :=
  ⟨{ runW with mode := .boot, rst := { Rst.reset with refOk := true }, sec := { Sec.reset with running := some ⟨9, 3, 0, 0⟩ } }, by decide⟩

/-! ### Steps -/

/-- A step that ends in a next state, for PinsFollowState. -/
theorem wit_PinsFollowState : ∃ s t : State, step s = .next t := ⟨State.reset, _, rfl⟩

/-- A state with a command waiting, for EveryQueueDrains. -/
theorem wit_EveryQueueDrains : ∃ (s : State) (c : Instr) (rest : List Instr), s.pending = c :: rest :=
  ⟨{ up with pending := [.warm] }, .warm, [], rfl⟩


/-! ### Terms that the well-formedness check refuses -/

theorem test_wf_accepts : (Instr.niRtHiCommit 207 0).wf = true ∧ (Instr.pwrwarnAssert 0).wf = true := by decide
theorem test_wf_port : (Instr.linkDown 512).wf = false := by decide
theorem test_wf_part : (Instr.partQuiesced 128).wf = false := by decide
theorem test_wf_tile : (Instr.schedDecision ⟨8, []⟩).wf = false := by decide
theorem test_wf_ep : (Instr.mgmtLinkUp 2).wf = false := by decide
theorem test_wf_queue : (Instr.qinvDoorbell 0 64).wf = false := by decide
theorem test_wf_evq : (Instr.evqIdleTimeout 129).wf = false := by decide
theorem test_wf_vp : (Instr.hpRemoveTimeout 0 64).wf = false := by decide
theorem test_wf_lane : (Instr.laneLos 1024).wf = false := by decide
theorem test_wf_group : (Instr.wakeComplete 64).wf = false := by decide
theorem test_wf_bind : (Instr.bindStopped 262144).wf = false := by decide
theorem test_wf_sharing_group : (Instr.sgCommit c0 4096 0).wf = false := by decide
theorem test_wf_source : (Instr.wireBroken 2560).wf = false := by decide
theorem test_wf_modid : (Instr.memberLapse 254).wf = false := by decide
theorem test_wf_ni : (Instr.niRtHiCommit 208 0).wf = false := by decide
theorem test_wf_router : (Instr.packetAged 36 0).wf = false := by decide
theorem test_wf_selector : (Instr.packetAged 0 8).wf = false := by decide
theorem test_wf_presence : (Instr.prsntChange 128 true).wf = false := by decide
theorem test_wf_bank : (Instr.ctrBankClear 16384).wf = false := by decide
theorem test_wf_rail : (Instr.railTimeout 16).wf = false := by decide
theorem test_wf_byte : (Instr.cold 256).wf = false := by decide
theorem test_wf_bit : (Instr.jtagFlashProgram 2 []).wf = false := by decide
theorem test_wf_key_slot : (Instr.keyRevocationDone 4).wf = false := by decide
theorem test_wf_curve : (Instr.curvePointTrip ⟨8, []⟩).wf = false := by decide
theorem test_wf_context : (Instr.nop { c0 with seq := 65536 }).wf = false := by decide
theorem test_wf_packet : (Instr.boundaryPacket 0 { pkt1 with hops := 16 }).wf = false := by decide
theorem test_wf_space : (Instr.hostRequest 0 { readA with space := .bar2 } Upset.none).wf = false := by decide
theorem test_wf_request_size : (Instr.hostRequest 0 { readA with size := 0 } Upset.none).wf = false := by decide
theorem test_wf_entry : (Instr.commandDispatch 0 (List.replicate 9 0) false none).wf = false := by decide
theorem test_wf_access_source : (Instr.registerWrite ⟨3, false⟩ 0 4 0).wf = false := by decide
theorem test_wf_access_size : (Instr.registerWrite ⟨0, false⟩ 0 9 0).wf = false := by decide

/-! ### Worked examples of the manual -/

/-- The binding of the first example of 06: Q0 to Q3. -/
def exampleBinding : Binding := { Binding.empty with
  valid := true, earlyAck := true, part := 3, size := 9, rights := 0x1B4, ld := 5, ldv := true, hoff := 0x1200, dpa := 0x8000, out := 200 }

/-- 06, the example of R113: the four words of the entry. -/
theorem test_binding_words : exampleBinding.toWords =
    [0x8401A768000B0000, 0x0000000240000000, 0x0000001000000000, 0x6400000000000000] := by decide

/-- 06, the same example: offset 2_4012_3440h goes to device address 10_0012_3440h, and P1 may read while P2 may not write. -/
theorem test_binding_address : exampleBinding.dpaOf 0x240123440 = 0x1000123440 ∧ exampleBinding.right 1 0 = true ∧
    exampleBinding.right 2 1 = false := by decide

/-- 08, the example of R150: LD 4 of P200 at DPA 10_0012_3440h hashes to T5, and LD 5 to T4. -/
theorem test_home_tile : homeHash (lineAt 200 4 0x1000123440) = 5 ∧ homeHash (lineAt 200 5 0x1000123440) = 4 := by decide

/-- 17, the example of R340: 016A_2000h is the ING page of P232, and its BLK_ID reads 1220_E801h. -/
theorem test_block_id : pageAt 0x16A2 = some (.ing 232) ∧ viewWord up (.ing 232) 0 = 0x1220E801 := by decide +kernel

/-- 07, the example of R137: an x8 target link at 64 GT/s with TGT_LIM 256 takes 1,024 lines a tile. -/
theorem test_target_limit : tgtLimit (wr (.phy 8) F.PHY_LINK_CFG_ROLE 2 (linkW 2 0)) 8 = 1024 := by decide +kernel

/-- 03, the example of R55: without logical lane 6 of an x8 link lanes 0 to 3 stay, and without lane 2 lanes 4 to 7, reversed. -/
theorem test_degrade :
    keepBlock (setLane 22 { LaneS.reset with failed := true } (linkW 1 0)) 8 8 = some (4, false) ∧
      keepBlock (setLane 18 { LaneS.reset with failed := true } (linkW 1 0)) 8 8 = some (4, true) := by decide +kernel

/-- 02, the example of R42: 1,000,000,000 ticks lie in epoch 7,629. -/
theorem test_epoch : epochOf 1000000000 = 7629 := by decide

/-- 15, Table 15.3: the retries after the first three failures. -/
theorem test_backoff : [1, 2, 3].map backoffMs = [10, 40, 160] := by decide

/-- 15, Table 15.4: the reset values of the curve registers meet the conditions of a commit and are the curve at reset. -/
theorem test_curve : stagedCurve up = curveReset ∧ curveOk curveReset = true := by decide

/-- 16, Table 16.3: a token whose MAGIC is wrong changes nothing but the queue of tokens. -/
theorem test_token_magic : tokenOk up tokA = false := by
  unfold tokenOk tokA
  simp

/-- 15, Table 15.5: PWRWARN_N at tick 0 begins the power drain and stops early acknowledgement. -/
theorem test_power_drain : (pwrwarnAssert 4200 runW).wab.pwrDrain = some 0 ∧
    rd (pwrwarnAssert 4200 runW) .wabM F.WAB_MOD_STS_EA_OFF = 1 := by decide

/-- 18, R353: C3h with a latched path starts the module, anything else sets LATCH_ERR. -/
theorem test_latch_clear :
    (sbLatchClr 0xC3 (i3cW I3c.reset { Pwr.reset with latched := true })).mode = .precharge ∧
      (sbLatchClr 0xC2 (i3cW I3c.reset { Pwr.reset with latched := true })).i3c.latchErr = true := by decide

/-- 14, R270: the CRC-32 of IEEE 802.3 over the nine digits "123456789" is its check value. -/
theorem test_crc32 : crc32 [0x31, 0x32, 0x33, 0x34, 0x35, 0x36, 0x37, 0x38, 0x39] = 0xCBF43926#32 := by decide +kernel

/-- The table of steps spells no command as a word. -/
theorem test_no_words : decodeTableWord 32 0 = none := by decide

end Sys2Proof.Tests
end

section
/-!
SUPPORT. What a command meets before it acts, and a completion that its ring takes at once. The statements about commands of the
queues rest on these.
-/
namespace Sys2Proof.Machine

/-! ### The gates of a command -/

theorem regGate_of_takes {s : State} {pg : Page} (f : State → State) (h : Takes s pg) : regGate pg f s = f s := by
  obtain ⟨hup | hearly, hheld⟩ := h
  · simp [regGate, hup, hheld]
  · simp [regGate, hearly, hheld]

theorem byCore_of_coreActs {s : State} (f : State → State) (h : CoreActs s) : byCore f s = f s := by
  obtain ⟨htake, hleft⟩ := h
  simp [byCore, htake, hleft]

/-! ### The page of fabric time and the pages of the queues -/

theorem base_mq_ne_ftm (ep q : Nat) : (Page.mq ep q).base ≠ Page.ftm.base := by
  simp only [Page.base]; omega

theorem rd_mq_wr_ftm (s : State) (ep q v : Nat) {f g : Fld} (hf : f.off * 8 + f.lo < 0x8000) (hg : g.off * 8 + g.lo < 0x8000) :
    rd (wr .ftm f v s) (.mq ep q) g = rd s (.mq ep q) g :=
  rd_wr_page s v (base_mq_ne_ftm ep q).symm hf hg

theorem rd_ftm_complete (s : State) (c : Ctx) (op st r0 r1 : Nat) {f : Fld} (hf : f.off * 8 + f.lo < 0x8000) :
    rd (complete c op st r0 r1 s) .ftm f = rd s .ftm f :=
  rd_complete s c op st r0 r1 (base_mq_ne_ftm c.ep c.q) (by decide) hf

/-- Whether a ring takes a completion does not rest on the page of fabric time. -/
theorem hears_wr_ftm {s : State} {c : Ctx} {f : Fld} (v : Nat) (hf : f.off * 8 + f.lo < 0x8000) (h : Hears s c) :
    Hears (wr .ftm f v s) c := by
  obtain ⟨hfly, herr, hheld, hfull, hcpl⟩ := h
  have hrd (g : Fld) (hg : g.off * 8 + g.lo < 0x8000) : rd (wr .ftm f v s) (.mq c.ep c.q) g = rd s (.mq c.ep c.q) g :=
    rd_mq_wr_ftm s c.ep c.q v hf hg
  refine ⟨hfly, ?_, hheld, ?_, hcpl⟩
  · rwa [rdb, hrd _ (by decide)]
  · rwa [cqFull, cqN, hrd _ (by decide), hrd _ (by decide), hrd _ (by decide)]

/-! ### A completion that is written at once (11 R209) -/

theorem raiseVec_out_extends (s : State) (ep v : Nat) : s.out <+: (raiseVec ep v s).out := by
  unfold raiseVec
  split
  · exact List.prefix_append _ _
  · split <;> exact List.prefix_rfl

theorem when_out_extends {s : State} {l : List Out} {f : State → State} (b : Bool) (hl : l <+: s.out)
    (hf : s.out <+: (f s).out) : l <+: (s.when b f).out := by
  cases b
  · exact hl
  · exact hl.trans hf

/-- What is said first when a completion is put into its ring is the completion. -/
theorem cqPut_out_begins (s : State) (c : Cpl) :
    ∃ i ph hd addr image, s.out ++ [.cpl c.ctx.ep c.ctx.q i ph hd c addr image] <+: (cqPut c s).out :=
  ⟨_, _, _, _, _, when_out_extends _ List.prefix_rfl (raiseVec_out_extends _ _ _)⟩

/-- With no halt, nothing held, room in the ring and no error to come, a completion is put into the ring, and nothing is said before. -/
theorem cplOut_of_room {s : State} {c : Cpl} (herr : rdb s (.mq c.ctx.ep c.ctx.q) F.MQ_Q_STS_DMA_ERR = false)
    (hheld : heldOf s c.ctx.ep c.ctx.q = []) (hfull : cqFull s c.ctx.ep c.ctx.q = false)
    (hcpl : tget none s.mq.cplErr (qkey c.ctx.ep c.ctx.q) = none) :
    ∃ u : State, cplOut c s = cqPut c u ∧ u.out = s.out := by
  simp only [cplOut, cqWrite, herr, hheld, hfull, hcpl, Bool.false_eq_true, List.isEmpty_nil, Bool.not_true, Bool.or_self,
    if_false, reduceCtorEq]
  exact ⟨_, rfl, rfl⟩

/-- A command that its ring hears is no orphan. -/
theorem isOrphan_of_hears {s : State} {c : Ctx} (h : Hears s c) : isOrphan s c = false := by
  obtain ⟨hfly, -⟩ := h
  obtain ⟨f, hf, ho⟩ := Option.map_eq_some_iff.mp hfly
  simp [isOrphan, hf, ho]

/-- A ring that hears a completion has it put in at once: it is neither held nor sent to the event queue as an orphan's. -/
theorem complete_of_hears {s : State} {c : Ctx} (op st r0 r1 : Nat) (h : Hears s c) :
    ∃ u : State, complete c op st r0 r1 s = cqPut ⟨c, op, st, false, r0, r1, s.time⟩ u ∧ u.out = s.out := by
  have horph := isOrphan_of_hears h
  obtain ⟨-, herr, hheld, hfull, hcpl⟩ := h
  simp only [complete, horph, Bool.false_eq_true, if_false]
  exact cplOut_of_room herr hheld hfull hcpl

/-- A command that its ring hears is completed, whatever it did before in silence. -/
theorem completed_of_hears {s u : State} {c : Ctx} (op st r0 r1 : Nat) (hout : u.out = s.out) (h : Hears u c) :
    Completed s (complete c op st r0 r1 u) c op st r0 r1 := by
  obtain ⟨w, heq, hw⟩ := complete_of_hears op st r0 r1 h
  obtain ⟨i, ph, hd, addr, image, l, hl⟩ := cqPut_out_begins w ⟨c, op, st, false, r0, r1, u.time⟩
  refine ⟨i, ph, hd, u.time, addr, image, ?_⟩
  rw [heq, ← hl, hw, hout]
  simp

end Sys2Proof.Machine
end

section
/-!
SUPPORT. Cancelling an entry of the schedule table (02 R41): what the shared operation does in each case, and the two commands that
call it.
-/
namespace Sys2Proof.Machine

/-! ### The shared operation -/

section
variable {s : State} {e : SchedEnt} {c : Ctx} {i : Nat}

theorem schedDrop_sched (i : Nat) (s : State) : (schedDrop i s).sched = s.sched.filter (fun x => x.idx != i) := rfl

theorem schedCancelAt_of_none (h : schedEnt s i = none) : schedCancelAt i s = (false, s) := by
  simp [schedCancelAt, h]

theorem schedCancelAt_of_late (h : schedEnt s i = some e) (hlate : e.inst < s.time + 512) :
    schedCancelAt i s = (false, wr .ftm F.FTM_SCHED_STS_CANCEL_LATE 1 s) := by
  simp [schedCancelAt, h, hlate]

theorem schedCancelAt_of_early (h : schedEnt s i = some e) (hearly : s.time + 512 ≤ e.inst) :
    schedCancelAt i s = (true, ownerDone e St.cancelled 0 (schedDrop i s)) := by
  simp [schedCancelAt, h, Nat.not_lt.mpr hearly]

theorem ownerDone_of_cmd {op : Nat} (st r0 : Nat) (s : State) (h : e.owner = .cmd c op) :
    ownerDone e st r0 s = complete c op st r0 0 s := by
  simp [ownerDone, h]

theorem ownerDone_of_none (st r0 : Nat) (s : State) (h : e.owner = .none) : ownerDone e st r0 s = s := by
  simp [ownerDone, h]

/-! ### The two commands -/

theorem exec_ftmSchedCancel (i : Nat) (h : Takes s .ftm) :
    exec (.ftmSchedCancel i) s = .next (settled s.pending (schedCancelAt i s).2) :=
  congrArg (done s) (regGate_of_takes _ h)

theorem exec_schedCancel (c : Ctx) (i : Nat) (h : CoreActs s) :
    exec (.schedCancel c i) s =
      .next (settled s.pending (complete c 0x03 St.ok (schedCancelAt i s).1.toNat 0 (schedCancelAt i s).2)) :=
  congrArg (done s) (byCore_of_coreActs _ h)

/-- SCHED_CANCEL does what the shared operation does, when that is done in silence and leaves the command's ring open, and then
completes with OK and the operation's answer. -/
theorem schedCancel_completes {u : State} {b : Bool} (hcore : CoreActs s) (hcancel : schedCancelAt i s = (b, u))
    (hout : u.out = s.out) (hhears : Hears u c) :
    ∃ t, exec (.schedCancel c i) s = .next t ∧ t.sched = u.sched ∧
      rd t .ftm F.FTM_SCHED_STS_CANCEL_LATE = rd u .ftm F.FTM_SCHED_STS_CANCEL_LATE ∧ Completed s t c 0x03 St.ok b.toNat 0 := by
  refine ⟨_, exec_schedCancel c i hcore, ?_, ?_, ?_⟩
  · simp [hcancel]
  · rw [hcancel, rd_settled, rd_ftm_complete _ _ _ _ _ _ (by decide)]
  · rw [hcancel]
    exact completed_of_hears 0x03 St.ok b.toNat 0 hout hhears

end

/-! ### The statement -/

/-- Settles O9, by the three cases of the shared operation (no entry, too late, early enough) for each of the two commands. -/
theorem scheduleCancel : Obligations.ScheduleCancel := by
  refine ⟨?ftmEarly, ?ftmLate, ?ftmNone, ?cmdEarly, ?cmdLate, ?cmdNone⟩
  case ftmEarly =>
    intro s e d op htakes hent hearly hown hhears
    have hcancel := schedCancelAt_of_early hent hearly
    rw [ownerDone_of_cmd _ _ _ hown] at hcancel
    refine ⟨_, exec_ftmSchedCancel e.idx htakes, ?_, ?_, ?_⟩
    · simp [hcancel, schedDrop_sched]
    · rw [hcancel]
      exact completed_of_hears op St.cancelled 0 0 (schedDrop_out s e.idx) hhears
    · rw [hcancel, rd_settled, rd_ftm_complete _ _ _ _ _ _ (by decide), rd_schedDrop]
  case ftmLate =>
    intro s e htakes hent hlate
    refine ⟨_, exec_ftmSchedCancel e.idx htakes, ?_⟩
    simp [schedCancelAt_of_late hent hlate, F.FTM_SCHED_STS_CANCEL_LATE]
  case ftmNone =>
    intro s i htakes hent
    refine ⟨_, exec_ftmSchedCancel i htakes, ?_⟩
    simp [schedCancelAt_of_none hent]
  case cmdEarly =>
    intro s c e hcore hent hearly hown hhears
    have hcancel := schedCancelAt_of_early hent hearly
    rw [ownerDone_of_none _ _ _ hown] at hcancel
    obtain ⟨t, hexec, hsched, -, hdone⟩ := schedCancel_completes hcore hcancel (schedDrop_out s e.idx) hhears
    exact ⟨t, hexec, hsched.trans (schedDrop_sched e.idx s), hdone⟩
  case cmdLate =>
    intro s c e hcore hent hlate hhears
    obtain ⟨t, hexec, hsched, hrd, hdone⟩ := schedCancel_completes hcore (schedCancelAt_of_late hent hlate) (wr_out ..)
      (hears_wr_ftm 1 (by decide) hhears)
    exact ⟨t, hexec, hsched, hrd.trans (rd_wr_same ..), hdone⟩
  case cmdNone =>
    intro s c i hcore hent hhears
    obtain ⟨t, hexec, hsched, -, hdone⟩ := schedCancel_completes hcore (schedCancelAt_of_none hent) rfl hhears
    exact ⟨t, hexec, hsched, hdone⟩

end Sys2Proof.Machine
end

section
/-!
SUPPORT. A CXL.mem request that meets no binding (06 R111, Table 6.4): what counting an event can change, the way of such a request to
the NOBIND outcome, and what that outcome changes.
-/
namespace Sys2Proof.Machine

/-! ### Counting changes the counters alone (13 R248-R251) -/

/-- Updates that change telemetry alone change telemetry alone when made one after another. -/
theorem each_tel_only {α : Type} {f : α → State → State} (hf : ∀ a s, ∃ x, f a s = { s with tel := x }) (l : List α) (s : State) :
    ∃ x, s.each l f = { s with tel := x } := by
  induction l generalizing s with
  | nil => exact ⟨s.tel, rfl⟩
  | cons a l ih =>
    obtain ⟨x, hx⟩ := hf a s
    obtain ⟨y, hy⟩ := ih { s with tel := x }
    exact ⟨y, (congrArg (State.each l f) hx).trans hy⟩

theorem ctrStrike_tel_only (k : Nat) (s : State) : ∃ x, ctrStrike k s = { s with tel := x } := by
  unfold ctrStrike
  split
  · exact ⟨_, rfl⟩
  · exact ⟨s.tel, rfl⟩

theorem addCtr_tel_only (k n : Nat) (s : State) : ∃ x, addCtr k n s = { s with tel := x } := by
  obtain ⟨x, hx⟩ := ctrStrike_tel_only k s
  simp only [addCtr, hx]
  split <;> exact ⟨_, rfl⟩

theorem count_tel_only (pg : Page) (code n : Nat) (e : Attr) (s : State) : ∃ x, count pg code n e s = { s with tel := x } := by
  unfold count
  cases bankSlot pg with
  | none => exact ⟨s.tel, rfl⟩
  | some slot =>
    dsimp only
    split_ifs
    · exact ⟨s.tel, rfl⟩
    · exact each_tel_only (fun i => addCtr_tel_only (ctrKey slot i) n) _ s

theorem countReq_tel_only (lead part : Nat) (r : Req) (s : State) : ∃ x, countReq lead part r s = { s with tel := x } := by
  obtain ⟨x, hx⟩ := count_tel_only (.ing lead) 0x01 1 _ s
  obtain ⟨y, hy⟩ := count_tel_only (.ing lead) 0x02 (reqUnits r) _ { s with tel := x }
  exact ⟨y, (congrArg (count (.ing lead) 0x02 (reqUnits r) _) hx).trans hy⟩

/-! ### The way to the outcome (06 R111, R114) -/

/-- The request of a partition's host meets no binding: the decoder is uncommitted, or the PMD offset is not below the capacity. -/
def Unbound (s : State) (part : Nat) (r : Req) : Prop :=
  rd s (.pmd part) F.PMD_STS_DEC_COMMIT = 0 ∨ rd s (.pmd part) F.PMD_CFG_CAP * 2 ^ 21 ≤ pmdOff s part r

section
variable {s : State} {h : Held} {u : Upset}

/-- While the decoder is uncommitted, a CXL.mem request has no PMD offset. -/
theorem pmdOff_of_uncommitted {part : Nat} {r : Req} (hspace : r.space = .mem)
    (hdec : rd s (.pmd part) F.PMD_STS_DEC_COMMIT = 0) : pmdOff s part r = noOff := by
  simp [pmdOff, hspace, rdb, hdec]

theorem memAccess_of_unbound (hspace : h.req.space = .mem) (hub : Unbound s h.part h.req) :
    memAccess u h s = failReq h.part h.lead h.fromVp FK.nobind noIdx false (pmdOff s h.part h.req) h.req s :=
  if_pos (hub.imp_left (pmdOff_of_uncommitted hspace))

/-- A host's CXL.mem request to a partition in RUN goes straight to its lookup. -/
theorem takeIn_of_mem (hreset : resetting s h.part = false) (hrun : partSt s h.part = 0) (hio : h.req.op.isIo = false)
    (hvia : h.via = none) (hvp : h.fromVp = none) (hspace : h.req.space = .mem) : takeIn u h s = memAccess u h s := by
  have hother : ¬ (h.req.op = .otherNp ∨ h.req.op = .otherP) := by
    rintro (hop | hop) <;> simp [hop, ReqOp.isIo] at hio
  simp [takeIn, hreset, hrun, hio, hvia, hother, badSource, hvp, hspace]

end

/-- A host's request is counted, takes its name, and is taken in. -/
theorem hostRequest_of_host {s : State} {p : Nat} (r : Req) (u : Upset) (hrecv : canReceive s p = true) (hrole : roleOf s p = 1) :
    ∃ x m, m.fwds = s.maps.fwds ∧ m.held = s.maps.held ∧
      hostRequest p r u s =
        takeIn u (Held.arrive s.maps.nextId p (hpartOf s p) none r none) { s with tel := x, maps := m } := by
  obtain ⟨x, hx⟩ := countReq_tel_only p (hpartOf s p) r s
  refine ⟨x, { s.maps with nextId := s.maps.nextId + 1 }, rfl, rfl, ?_⟩
  simp [hostRequest, hrecv, hrole, hx, arrive]

/-! ### The outcome (06 R120, Table 6.4) -/

/-- What the NOBIND outcome does in the module, whatever its requester is told: the fault is counted, and no request is sent on or held,
nothing of the core and the homes changes, and no write is accepted early. That the state of the partitions stays keeps the way to the
requester open. -/
structure NobindEffect (part : Nat) (s t : State) : Prop where
  count : rd t (.pmd part) F.PMD_FAULT_CNT0_NOBIND = min (rd s (.pmd part) F.PMD_FAULT_CNT0_NOBIND + 1) 0xFFFF
  parts : t.parts = s.parts
  fwds  : t.maps.fwds = s.maps.fwds
  held  : t.maps.held = s.maps.held
  core  : t.core = s.core
  home  : t.home = s.home
  ents  : t.wab.ents = s.wab.ents

/-- With no line in the ALC, a drain has nothing to write back: it is only entered. -/
theorem startDrain_of_no_lines {s : State} (part : Nat) (why : DrainFor) (halc : s.home.alc = []) :
    startDrain part why s = { s with wab := { s.wab with
      drains := s.wab.drains ++ [⟨s.wab.nextId, part, s.tick, [], why⟩], nextId := s.wab.nextId + 1 } } := by
  simp [startDrain, halc, State.each]

theorem base_evq_ne_pmd (part : Nat) : (Page.evq part).base ≠ (Page.pmd part).base := by
  simp only [Page.base]; split <;> omega

theorem nobindEffect_bump (part : Nat) (s : State) :
    NobindEffect part s (bump (.pmd part) F.PMD_FAULT_CNT0_NOBIND s) :=
  ⟨rd_bumpBy_same s _ _ 1, rfl, rfl, rfl, rfl, rfl, rfl⟩

theorem NobindEffect.after_postError {part : Nat} {s t : State} (h : NobindEffect part s t) (halc : t.home.alc = []) (typ : Nat)
    (payload : List (Nat × Nat)) : NobindEffect part s (postError part typ payload t) := by
  have hdrain := startDrain_of_no_lines (s := post part typ payload t) part .error (by simp [halc])
  have hcnt := rd_post t part typ payload (f := F.PMD_FAULT_CNT0_NOBIND) (base_evq_ne_pmd part) (by decide)
  obtain ⟨hcount, hparts, hfwds, hheld, hcore, hhome, hents⟩ := h
  rw [postError, hdrain]
  exact ⟨hcnt.trans hcount, by simp [hparts], by simp [hfwds], by simp [hheld], by simp [hcore], by simp [hhome], by simp [hents]⟩

theorem nobindEffect_accessFault {s : State} (part reqKind level idx off : Nat) (halc : s.home.alc = []) :
    NobindEffect part s (accessFault part FK.nobind reqKind level idx off s) := by
  have hbump := nobindEffect_bump part s
  simp only [accessFault, FK.nobind]
  split
  · exact hbump
  · refine NobindEffect.after_postError ?kept ?alc _ _
    case kept => exact { hbump with }
    case alc => exact halc

/-- The NOBIND outcome, once it is known what the requester gets: it is told that, and the fault is counted. -/
theorem failReq_of_nobind {s : State} {part p idx off data : Nat} {r : Req} {k : Rsp} {poison : Bool} (halc : s.home.alc = [])
    (hreset : resetting s part = false)
    (hreply : ∀ v, failReply part p none FK.nobind false r v = respond part p none r.tag k data poison r.md v) :
    .rsp p r.tag k data poison r.md ∈ (failReq part p none FK.nobind idx false off r s).out ∧
      NobindEffect part s (failReq part p none FK.nobind idx false off r s) := by
  have hfault := nobindEffect_accessFault part r.op.eventKind r.level idx off halc
  obtain ⟨x, hx⟩ := count_tel_only (.ing p) 0x05 1 (reqAttr part p off r) (accessFault part FK.nobind r.op.eventKind r.level idx off s)
  have hopen : resetting { accessFault part FK.nobind r.op.eventKind r.level idx off s with tel := x } part = false := by
    simpa [resetting, partOf, hfault.parts] using hreset
  simp only [failReq, hreply, hx, respond, hopen, Bool.false_and, Bool.false_eq_true, if_false]
  exact ⟨by simp [State.say], { hfault with }⟩

/-- A read that meets no binding returns all-ones data with poison. -/
theorem failReply_nobind_memRd {r : Req} (hop : r.op = .memRd) (part p : Nat) (s : State) :
    failReply part p none FK.nobind false r s = respond part p none r.tag .drs allOnesLine.toNat true r.md s := by
  simp [failReply, hop]

/-- A write that meets no binding completes as one that proceeds. -/
theorem failReply_nobind_memWrite {r : Req} (hop : r.op ∈ [.memInv, .memWr, .memWrPtl, .memClnEvct]) (part p : Nat) (s : State) :
    failReply part p none FK.nobind false r s = respond part p none r.tag .ndr 0 false r.md s := by
  simp only [List.mem_cons, List.not_mem_nil, or_false] at hop
  rcases hop with hop | hop | hop | hop <;> simp [failReply, hop]

theorem isIo_of_memWrite {op : ReqOp} (hop : op ∈ [.memInv, .memWr, .memWrPtl, .memClnEvct]) : op.isIo = false := by
  revert op; decide

/-- A host's CXL.mem request that meets no binding is answered as Table 6.4 has it, and counted. -/
theorem exec_hostRequest_of_unbound {s : State} {p data : Nat} {r : Req} {k : Rsp} {poison : Bool} (u : Upset) (hdue : NoneDue s)
    (hrecv : canReceive s p = true) (halc : s.home.alc = []) (hrole : roleOf s p = 1)
    (hreset : resetting s (hpartOf s p) = false) (hrun : partSt s (hpartOf s p) = 0) (hspace : r.space = .mem)
    (hio : r.op.isIo = false) (hub : Unbound s (hpartOf s p) r)
    (hreply : ∀ v, failReply (hpartOf s p) p none FK.nobind false r v = respond (hpartOf s p) p none r.tag k data poison r.md v) :
    ∃ t, exec (.hostRequest p r u) s = .next t ∧ .rsp p r.tag k data poison r.md ∈ t.out ∧ NobindEffect (hpartOf s p) s t := by
  obtain ⟨x, m, hmf, hmh, hreq⟩ := hostRequest_of_host r u hrecv hrole
  have hfail : hostRequest p r u s =
      failReq (hpartOf s p) p none FK.nobind noIdx false (pmdOff s (hpartOf s p) r) r { s with tel := x, maps := m } := by
    rw [hreq]
    calc takeIn u (Held.arrive s.maps.nextId p (hpartOf s p) none r none) { s with tel := x, maps := m }
      _ = memAccess u (Held.arrive s.maps.nextId p (hpartOf s p) none r none) { s with tel := x, maps := m } :=
        takeIn_of_mem hreset hrun hio rfl rfl hspace
      _ = _ := memAccess_of_unbound hspace hub
  have hexec : exec (.hostRequest p r u) s = done s (hostRequest p r u s) :=
    congrArg (fun v => done s (hostRequest p r u v)) (dueFirst_none hdue)
  rw [hexec, hfail]
  obtain ⟨hout, heff⟩ := failReq_of_nobind (s := { s with tel := x, maps := m }) (idx := noIdx)
    (off := pmdOff s (hpartOf s p) r) halc hreset hreply
  exact ⟨_, rfl, hout, { heff with fwds := heff.fwds.trans hmf, held := heff.held.trans hmh }⟩

/-! ### The statement -/

/-- Settles O23: with no binding met, the request goes straight to the NOBIND outcome, whose answer alone tells a read from a write. -/
theorem unboundRequest : Obligations.UnboundRequest := by
  refine ⟨?read, ?write⟩
  case read =>
    intro s p r u hdue hrecv halc hrole hreset hrun hspace hop hub
    obtain ⟨t, hexec, hout, hn⟩ := exec_hostRequest_of_unbound u hdue hrecv halc hrole hreset hrun hspace (by simp [hop, ReqOp.isIo])
      hub (failReply_nobind_memRd hop _ p)
    exact ⟨t, hexec, hout, hn.count, hn.fwds, hn.held, hn.core, hn.home⟩
  case write =>
    intro s p r u hdue hrecv halc hrole hreset hrun hspace hop hub
    obtain ⟨t, hexec, hout, hn⟩ := exec_hostRequest_of_unbound u hdue hrecv halc hrole hreset hrun hspace (isIo_of_memWrite hop)
      hub (failReply_nobind_memWrite hop _ p)
    exact ⟨t, hexec, hout, hn.count, hn.fwds, hn.held, hn.core, hn.home, hn.ents⟩

end Sys2Proof.Machine
end

section
/-!
SUPPORT. Where the pages of BAR0 lie (17 R333-R336): a page found at a page number begins there, so that pages which are found are
told apart by where they begin.
-/
namespace Sys2Proof.Machine

/-- The number of an NI, a tile or a controller is one that the module has. -/
def Page.Placed : Page → Prop
  | .ni d => d < 0xD0
  | .cnp t => t < 8
  | .phy p => p < 512
  | _ => True

/-- The pages of a tile: those of its controllers, its own, and its NIs' (17 R335). -/
theorem pageAt_tile {t r : Nat} (ht : t < 8) (hr : r < 0x200) :
    pageAt (0x1000 + (t * 0x200 + r)) =
      if r < 0x100 then
        some (match r % 4 with
          | 0 => .lnk (64 * t + r / 4) | 1 => .phy (64 * t + r / 4) | 2 => .ing (64 * t + r / 4) | _ => .egr (64 * t + r / 4))
      else if r - 0x100 < 7 then [Page.cnp t, .cell t, .bindT t, .wabT t, .homeT t, .halo t, .sched t][r - 0x100]?
      else if 0x10 ≤ r - 0x100 ∧ r - 0x100 < 0x20 then some (.ni (0x10 + 16 * t + (r - 0x100 - 0x10)))
      else if 0x20 ≤ r - 0x100 ∧ r - 0x100 < 0x28 then some (.ni (0x90 + 8 * t + (r - 0x100 - 0x20)))
      else none := by
  have hdiv : (0x1000 + (t * 0x200 + r) - 0x1000) / 0x200 = t := by omega
  have hmod : (0x1000 + (t * 0x200 + r) - 0x1000) % 0x200 = r := by omega
  unfold pageAt
  dsimp only
  rw [hdiv, hmod, if_neg (by omega), if_neg (by omega), if_neg (by omega)]
  exact if_pos (by omega)

theorem portBase_of_lt {t k : Nat} (h : k < 64) : portBase (64 * t + k) = tileBase t + k * 0x4000 := by
  simp only [portBase, tileBase]; omega

/-- A page found in a tile begins at its page number. -/
theorem pageAt_tile_inv {t r : Nat} {pg : Page} (ht : t < 8) (hr : r < 0x200) (h : pageAt (0x1000 + (t * 0x200 + r)) = some pg) :
    pg.base = (0x1000 + (t * 0x200 + r)) * 0x1000 ∧ pg.Placed := by
  rw [pageAt_tile ht hr] at h
  split_ifs at h with hlink hown hniA hniB
  case pos =>
    have hport := portBase_of_lt (t := t) (show r / 4 < 64 by omega)
    have hfour : r % 4 = 0 ∨ r % 4 = 1 ∨ r % 4 = 2 ∨ r % 4 = 3 := by omega
    rcases hfour with hk | hk | hk | hk <;> rw [hk] at h <;> cases h <;>
      simp only [Page.base, hport, tileBase, Page.Placed, and_true] <;> omega
  case pos =>
    generalize hk : r - 0x100 = k at h hown
    interval_cases k <;> cases h <;> simp only [Page.base, tilePage, tileBase, Page.Placed, and_true] <;> omega
  all_goals
    cases h
    simp only [Page.base, niBase, tilePage, tileBase, Page.Placed]
    split_ifs <;> omega

/-- A page found at a page number begins there. -/
theorem pageAt_inv {n : Nat} {pg : Page} (h : pageAt n = some pg) : pg.base = n * 0x1000 ∧ pg.Placed := by
  by_cases htile : 0x1000 ≤ n ∧ n < 0x2000
  · obtain ⟨m, rfl⟩ := Nat.exists_eq_add_of_le htile.1
    rw [← Nat.div_add_mod' m 0x200] at h ⊢
    exact pageAt_tile_inv (by omega) (by omega) h
  unfold pageAt at h
  rw [if_neg htile] at h
  split_ifs at h with hmod hni hmq hpart
  case pos =>
    interval_cases n <;> cases h <;> exact ⟨rfl, trivial⟩
  case pos =>
    cases h
    simp only [Page.base, niBase, Page.Placed]
    split_ifs <;> omega
  case pos =>
    cases h
    simp only [Page.base, Page.Placed, and_true]
    omega
  case pos =>
    dsimp only at h
    split at h <;> cases h <;> simp only [Page.base, Page.Placed, and_true] <;> (try split_ifs) <;> omega

/-- Pages that begin at one place are one page. -/
theorem pageAt_base_inj {m n : Nat} {a b : Page} (ha : pageAt m = some a) (hb : pageAt n = some b) (h : a.base = b.base) : a = b := by
  have hmn : m = n := by
    have := (pageAt_inv ha).1; have := (pageAt_inv hb).1; omega
  subst hmn
  exact Option.some.inj (ha.symm.trans hb)

theorem pageAt_base_div {n : Nat} {pg : Page} (h : pageAt n = some pg) : pageAt (pg.base / 0x1000) = some pg := by
  rw [(pageAt_inv h).1, Nat.mul_div_cancel _ (by omega), h]

/-- The PHY page of each of the 512 controllers is found. -/
theorem pageAt_phy {p : Nat} (h : p < 512) : pageAt ((Page.phy p).base / 0x1000) = some (.phy p) := by
  have hn : (Page.phy p).base / 0x1000 = 0x1000 + (p / 64 * 0x200 + (4 * (p % 64) + 1)) := by
    simp only [Page.base, portBase, tileBase]; omega
  have hmod : (4 * (p % 64) + 1) % 4 = 1 := by omega
  have hlink : 64 * (p / 64) + (4 * (p % 64) + 1) / 4 = p := by omega
  rw [hn, pageAt_tile (by omega) (by omega), if_pos (by omega), hmod]
  exact congrArg (fun q => some (Page.phy q)) hlink

end Sys2Proof.Machine
end

section
/-!
SUPPORT. The run states of the pages over a reset (17 R332): which cells they are read from, and that a reset leaves those cells at
their reset values.
-/
namespace Sys2Proof.Machine

/-! ### The cells that run states are read from (17 R324, Table 17.12) -/

/-- Fields at different places are different fields, whatever pages they are of. -/
theorem fkey_ne_of_place {f g : Fld} (a b : Page) (hf : f.off * 8 + f.lo < 0x8000) (hg : g.off * 8 + g.lo < 0x8000)
    (h : f.off * 8 + f.lo ≠ g.off * 8 + g.lo) : fkey a f ≠ fkey b g := by
  have := base_mod a; have := base_mod b; unfold fkey; omega

/-- A cell of BLK_CTL.RUN of some page, or of the state of some partition. -/
def IsRunKey (k : Nat) : Prop := (∃ pg, k = fkey pg F.BLK_CTL_RUN) ∨ ∃ p, k = fkey (.part p) F.PART_STS_STATE

theorem not_isRunKey_of_place {f : Fld} (pg : Page) (hf : f.off * 8 + f.lo < 0x8000)
    (hrun : F.BLK_CTL_RUN.off * 8 + F.BLK_CTL_RUN.lo ≠ f.off * 8 + f.lo)
    (hpart : F.PART_STS_STATE.off * 8 + F.PART_STS_STATE.lo ≠ f.off * 8 + f.lo) : ¬ IsRunKey (fkey pg f) := by
  rintro (⟨pg', h⟩ | ⟨p, h⟩)
  · exact fkey_ne_of_place pg' pg (by decide) hf hrun h.symm
  · exact fkey_ne_of_place (.part p) pg (by decide) hf hpart h.symm

theorem not_isRunKey_of_module_page {f : Fld} {pg : Page} (hpg : pg.base < 0x02000000) (hf : f.off * 8 + f.lo < 0x8000)
    (hrun : F.BLK_CTL_RUN.off * 8 + F.BLK_CTL_RUN.lo ≠ f.off * 8 + f.lo) : ¬ IsRunKey (fkey pg f) := by
  rintro (⟨pg', h⟩ | ⟨p, h⟩)
  · exact fkey_ne_of_place pg' pg (by decide) hf hrun h.symm
  · have hbase : (Page.part p).base ≠ pg.base := by
      show 0x02000000 + p * 0x10000 ≠ pg.base
      omega
    exact fkey_page hbase (by decide) hf h.symm

/-- Every run state is at its reset value. -/
structure RunsReset (s : State) : Prop where
  block : ∀ pg, rd s pg F.BLK_CTL_RUN = resetVal pg F.BLK_CTL_RUN
  part  : ∀ p, rd s (.part p) F.PART_STS_STATE = resetVal (.part p) F.PART_STS_STATE

theorem RunsReset.congr {s t : State} (h : RunsReset s) (hregs : t.regs = s.regs) : RunsReset t :=
  ⟨fun pg => (rd_congr hregs pg _).trans (h.block pg), fun p => (rd_congr hregs _ _).trans (h.part p)⟩

theorem RunsReset.setPwr {s : State} (h : RunsReset s) (p : Pwr) : RunsReset (setPwr p s) := h.congr rfl

theorem RunsReset.setRst {s : State} (h : RunsReset s) (r : Rst) : RunsReset (setRst r s) := h.congr rfl

theorem RunsReset.wr {s : State} {pg : Page} {f : Fld} (h : RunsReset s) (v : Nat) (hk : ¬ IsRunKey (fkey pg f)) :
    RunsReset (wr pg f v s) where
  block pg' := (rd_wr_other s v fun heq => hk (.inl ⟨pg', heq⟩)).trans (h.block pg')
  part p := (rd_wr_other s v fun heq => hk (.inr ⟨p, heq⟩)).trans (h.part p)

theorem RunsReset.when {s : State} {b : Bool} {f : State → State} (h : RunsReset s) (hf : RunsReset (f s)) :
    RunsReset (s.when b f) := by
  cases b
  · exact h
  · exact hf

/-- At the reset values every page with RUNCTL 1 is STOPPED: a PHY page reads its link's lead, a PART page its partition. -/
theorem RunsReset.stopped {s : State} (h : RunsReset s) {pg : Page} (hctl : pg.runctl = true) : pageRun s pg = 2 := by
  obtain ⟨hblock, hpart⟩ := h
  cases pg <;> cases hctl
  case part p => exact hpart p
  all_goals exact hblock _

/-! ### What a reset does to them (15 R301, R302; 17 R331, R332) -/

theorem tget_filter_dropped {α : Type} (d : α) (m : Tbl α) {keep : List Nat} {i : Nat} (h : i ∉ keep) :
    tget d (m.filter fun e => keep.contains e.1) i = d := by
  have hnone : (m.filter fun e => keep.contains e.1).find? (fun e => e.1 == i) = none := by
    simp only [List.find?_eq_none, List.mem_filter, List.contains_iff_mem, beq_iff_eq]
    rintro e ⟨-, he⟩ rfl
    exact h he
  rw [tget, hnone]
  rfl

/-- A reset leaves at its value every field that it does not keep. -/
theorem rd_resetBlocks {keep : List Nat} {pg : Page} {f : Fld} (s : State) (h : fkey pg f ∉ keep) :
    rd (resetBlocks keep s) pg f = resetVal pg f :=
  tget_filter_dropped _ _ h

theorem runsReset_resetBlocks {keep : List Nat} (s : State) (h : ∀ k ∈ keep, ¬ IsRunKey k) : RunsReset (resetBlocks keep s) where
  block pg := rd_resetBlocks s fun hk => h _ hk (.inl ⟨pg, rfl⟩)
  part p := rd_resetBlocks s fun hk => h _ hk (.inr ⟨p, rfl⟩)

theorem not_isRunKey_of_mem_map {l : List Fld} {pg : Page} {k : Nat} (hpg : pg.base < 0x02000000)
    (hl : ∀ f ∈ l, f.off * 8 + f.lo < 0x8000 ∧ F.BLK_CTL_RUN.off * 8 + F.BLK_CTL_RUN.lo ≠ f.off * 8 + f.lo)
    (hk : k ∈ l.map (fkey pg)) : ¬ IsRunKey k := by
  obtain ⟨f, hf, rfl⟩ := List.mem_map.mp hk
  obtain ⟨hlt, hne⟩ := hl f hf
  exact not_isRunKey_of_module_page hpg hlt hne

/-- No run state is among the fields that a warm reset keeps: they are of the FLT and FTM pages, and the causes of the partitions'
resets. -/
theorem warmKeep_not_isRunKey : ∀ k ∈ warmKeep, ¬ IsRunKey k := by
  intro k hk
  rw [warmKeep, List.mem_append, List.mem_append] at hk
  obtain (hflt | hftm) | hpart := hk
  · exact not_isRunKey_of_mem_map (by decide) (by decide) hflt
  · exact not_isRunKey_of_mem_map (by decide) (by decide) hftm
  · obtain ⟨p, -, rfl⟩ := List.mem_map.mp hpart
    exact not_isRunKey_of_place _ (by decide) (by decide) (by decide)

theorem RunsReset.eaOff {s : State} (h : RunsReset s) : RunsReset (eaOff s) :=
  h.wr 1 (not_isRunKey_of_module_page (by decide) (by decide) (by decide))

theorem RunsReset.eaFollow {s : State} (h : RunsReset s) : RunsReset (eaFollow s) := h.when h.eaOff

theorem RunsReset.warnFollow {s : State} (h : RunsReset s) : RunsReset (warnFollow s) := by
  refine h.when (RunsReset.wr (RunsReset.eaOff ?_) 1 (not_isRunKey_of_module_page (by decide) (by decide) (by decide)))
  exact h.congr rfl

/-- A cold reset stops every page. -/
theorem runsReset_coldReset (cause : Nat) (s : State) : RunsReset (coldReset cause s) := by
  have hblocks : RunsReset (resetBlocks [] (fuseCut s)) := runsReset_resetBlocks _ (by simp)
  exact RunsReset.eaFollow (hblocks.congr rfl)

/-- The power-down at the end of the hold-up is a cold reset. -/
theorem runsReset_powerDown {s : State} (h : s.pwr.path = .holdup) : RunsReset (powerDown s) := by
  simp only [powerDown, h, true_or, if_true]
  exact (runsReset_coldReset 5 _).when ((runsReset_coldReset 5 _).congr rfl)

/-! ### A change of mode and the beginning of BOOT -/

theorem disarmAll_of_no_links {s : State} (h : s.ports.links = []) : disarmAll s = s := by
  simp [disarmAll, h, State.each]

/-- A change of mode that disarms nothing and posts nothing changes the mode alone. -/
theorem setMode_of_silent {s : State} {m : Mode} (hlinks : s.mode = .maintenance → s.ports.links = [])
    (hup : m.isUp = false ∨ s.mode.isUp = false) : setMode m s = { s with mode := m } := by
  have hdisarm : s.when (s.mode == .maintenance) disarmAll = s := by
    by_cases hm : s.mode = .maintenance
    · simp [State.when, disarmAll_of_no_links (hlinks hm)]
    · simp [State.when, hm]
  have hpost : (m.isUp && s.mode.isUp) = false := by
    rcases hup with hup | hup <;> simp [hup]
  unfold setMode
  split
  case isTrue hm => simp [← hm]
  case isFalse =>
    simp only [hdisarm]
    simp only [hpost, State.when, Bool.false_eq_true, if_false]

theorem RunsReset.setMode {s : State} {m : Mode} (h : RunsReset s) (hlinks : s.mode = .maintenance → s.ports.links = [])
    (hup : m.isUp = false ∨ s.mode.isUp = false) : RunsReset (setMode m s) := by
  rw [setMode_of_silent hlinks hup]
  exact h.congr rfl

theorem imageValidate_regs (s : State) : (imageValidate s).regs = s.regs := by
  unfold imageValidate; extract_lets p a b sec; split
  · rfl
  · split <;> rfl

theorem bootGo_regs (s : State) : (bootGo s).regs = s.regs := by
  unfold bootGo
  dsimp only
  split_ifs
  · rfl
  · rfl
  · exact imageValidate_regs _

theorem startBypassOpen_regs (s : State) : (startBypassOpen s).regs = s.regs := by
  unfold startBypassOpen; split_ifs <;> rfl

theorem startBypassOpen_mode (s : State) : (startBypassOpen s).mode = s.mode := by
  unfold startBypassOpen; split_ifs <;> rfl

/-! ### The warm reset (15 R302) -/

theorem eaFollow_ports (s : State) : (eaFollow s).ports = s.ports := by
  unfold eaFollow State.when eaOff; split_ifs <;> rfl

/-- A warm reset that goes on to BOOT stops every page. -/
theorem runsReset_warmBoot (s : State) : RunsReset (warmBoot s) := by
  have hblocks : RunsReset (resetBlocks warmKeep s) := runsReset_resetBlocks s warmKeep_not_isRunKey
  refine RunsReset.congr (RunsReset.warnFollow ?mode) (bootGo_regs _)
  refine RunsReset.setMode ((hblocks.setPwr _).setRst _).eaFollow (fun _ => ?links) (.inl rfl)
  rw [eaFollow_ports]; rfl

/-- With nothing in the WAB and the ALC the wait of R144 has ended, and nothing is left to discard. -/
theorem warmReset_of_empty {s : State} {n : Nat} (hwarm : s.rst.warmAt = some n) (hents : s.wab.ents = []) (halc : s.home.alc = [])
    (hdump : dumpBusy s = false) : warmReset s = warmBoot s := by
  have hdrained : warmDrained s n = true := by simp [warmDrained, wabWaits, hents, halc]
  simp [warmReset, hwarm, hdrained, hdump, hents, halc]

end Sys2Proof.Machine
end

section
/-!
SUPPORT. The run states of the pages over the end of BOOT (17 R332): which pages Harcen starts, that its writes reach no other page,
and the statement on the run states after a reset.
-/
namespace Sys2Proof.Machine

/-! ### The pages that Harcen starts (17 R332) -/

/-- A field of a page that no write of a series meets. -/
theorem rd_each_wr_other {l : List Page} {f g : Fld} {pg : Page} (v : Nat) (s : State) (h : ∀ a ∈ l, fkey a f ≠ fkey pg g) :
    rd (s.each l fun a => wr a f v) pg g = rd s pg g := by
  induction l generalizing s with
  | nil => rfl
  | cons a l ih =>
    calc rd ((wr a f v s).each l fun a => wr a f v) pg g
      _ = rd (wr a f v s) pg g := ih _ fun b hb => h b (List.mem_cons_of_mem a hb)
      _ = rd s pg g := rd_wr_other s v (h a List.mem_cons_self)

/-- A page of a series of writes to pages that lie apart. -/
theorem rd_each_wr_mem {l : List Page} {f : Fld} {pg : Page} (v : Nat) (s : State) (hpg : pg ∈ l)
    (h : ∀ a ∈ l, fkey a f = fkey pg f → a = pg) : rd (s.each l fun a => wr a f v) pg f = v % 2 ^ f.width := by
  induction l generalizing s with
  | nil => cases hpg
  | cons a l ih =>
    have htail : ∀ b ∈ l, fkey b f = fkey pg f → b = pg := fun b hb => h b (List.mem_cons_of_mem a hb)
    by_cases hmem : pg ∈ l
    · exact ih (wr a f v s) hmem htail
    · obtain rfl : pg = a := (List.mem_cons.mp hpg).resolve_right hmem
      calc rd ((wr pg f v s).each l fun a => wr a f v) pg f
        _ = rd (wr pg f v s) pg f := rd_each_wr_other v _ fun b hb heq => hmem (htail b hb heq ▸ hb)
        _ = v % 2 ^ f.width := rd_wr_same s pg f v

theorem pageAt_of_mem_harcenPages {pg : Page} (h : pg ∈ harcenPages) : pageAt (pg.base / 0x1000) = some pg := by
  simp only [harcenPages, List.mem_append, List.mem_cons, List.not_mem_nil, or_false, List.mem_map, List.mem_filter,
    decide_eq_true_eq, List.mem_range] at h
  obtain ((rfl | rfl) | ⟨d, ⟨-, hd⟩, rfl⟩) | ⟨t, ht, rfl⟩ := h
  · rfl
  · rfl
  · exact hd
  · interval_cases t <;> rfl

theorem ownRun_of_mem_harcenPages {pg : Page} (h : pg ∈ harcenPages) : ownRun pg = true ∧ pg ≠ .trnk := by
  simp only [harcenPages, List.mem_append, List.mem_cons, List.not_mem_nil, or_false, List.mem_map] at h
  obtain ((rfl | rfl) | ⟨d, -, rfl⟩) | ⟨t, -, rfl⟩ := h <;> exact ⟨rfl, by simp⟩

/-- Harcen starts every page that has a run state of its own, but the TRNK page. -/
theorem mem_harcenPages {n : Nat} {pg : Page} (hat : pageAt n = some pg) (hown : ownRun pg = true) (htrnk : pg ≠ .trnk) :
    pg ∈ harcenPages := by
  have hplaced := (pageAt_inv hat).2
  have hdiv := pageAt_base_div hat
  cases pg <;> cases hown
  case trnk => exact absurd rfl htrnk
  case ftm => simp [harcenPages]
  case glr => simp [harcenPages]
  case ni d => simpa [harcenPages] using ⟨hplaced, hdiv⟩
  case cnp t => simpa [harcenPages, Page.Placed] using hplaced

/-- Pages found in BAR0 whose run states have one cell are one page. -/
theorem eq_of_run_key {m n : Nat} {a b : Page} (ha : pageAt m = some a) (hb : pageAt n = some b)
    (h : fkey a F.BLK_CTL_RUN = fkey b F.BLK_CTL_RUN) : a = b := by
  refine pageAt_base_inj ha hb ?_
  by_contra hne
  exact fkey_page hne (by decide) (by decide) h

/-- The state once Harcen has set its pages to RUN. -/
def harcenRuns (s : State) : State := s.each harcenPages fun pg => wr pg F.BLK_CTL_RUN 0

theorem rd_harcenRuns_mem (s : State) {pg : Page} (h : pg ∈ harcenPages) : rd (harcenRuns s) pg F.BLK_CTL_RUN = 0 :=
  rd_each_wr_mem 0 s h fun _ ha => eq_of_run_key (pageAt_of_mem_harcenPages ha) (pageAt_of_mem_harcenPages h)

theorem rd_harcenRuns_other (s : State) {n : Nat} {pg : Page} (hat : pageAt n = some pg) (h : pg ∉ harcenPages) :
    rd (harcenRuns s) pg F.BLK_CTL_RUN = rd s pg F.BLK_CTL_RUN :=
  rd_each_wr_other 0 s fun _ ha heq => h (eq_of_run_key (pageAt_of_mem_harcenPages ha) hat heq ▸ ha)

theorem rd_harcenRuns_field (s : State) (pg : Page) {f : Fld} (hf : f.off * 8 + f.lo < 0x8000)
    (h : F.BLK_CTL_RUN.off * 8 + F.BLK_CTL_RUN.lo ≠ f.off * 8 + f.lo) : rd (harcenRuns s) pg f = rd s pg f :=
  rd_each_wr_other 0 s fun a _ => fkey_ne_of_place a pg (by decide) hf h

/-! ### The end of BOOT (15 Table 15.10) -/

/-- The lead of a controller's link rests on ROLE and WIDTH alone. -/
theorem leadOf_congr {s t : State} (hrole : ∀ p, rd t (.phy p) F.PHY_LINK_CFG_ROLE = rd s (.phy p) F.PHY_LINK_CFG_ROLE)
    (hwidth : ∀ p, rd t (.phy p) F.PHY_LINK_CFG_WIDTH = rd s (.phy p) F.PHY_LINK_CFG_WIDTH) (p : Nat) : leadOf t p = leadOf s p := by
  have hroles : roleOf t = roleOf s := funext hrole
  have hctrls : ctrlsOf t = ctrlsOf s := funext fun p => congrArg (2 ^ ·) (hwidth p)
  rw [leadOf, leadOf, memberOf, memberOf, hroles, hctrls]

theorem leadOf_le (s : State) (p : Nat) : leadOf s p ≤ p := by
  unfold leadOf
  cases h : memberOf s p with
  | none => exact le_rfl
  | some l =>
    have hmem := List.mem_of_find?_eq_some h
    simp only [List.mem_cons, List.not_mem_nil, or_false] at hmem
    simp only [Option.getD_some]
    omega

/-- What BOOT_DONE waits for has come. -/
structure BootEnds (s : State) : Prop where
  mode    : s.mode = .boot
  refOk   : s.rst.refOk = true
  tested  : s.pwr.stTest = false
  image   : s.sec.running ≠ none
  noWarm  : s.rst.warmAt = none
  resetN  : s.rst.resetN = true

theorem harcenRuns_mode (s : State) : (harcenRuns s).mode = s.mode := by
  unfold harcenRuns
  generalize harcenPages = l
  induction l generalizing s with
  | nil => rfl
  | cons a l ih => exact ih (wr a F.BLK_CTL_RUN 0 s)

theorem wr_regs_congr {s t : State} (pg : Page) (f : Fld) (v : Nat) (h : s.regs = t.regs) : (wr pg f v s).regs = (wr pg f v t).regs :=
  congrArg (fun r => tput (resetVal pg f) r (fkey pg f) (v % 2 ^ f.width)) h

/-- STANDBY, which the bypass opens in, is entered from BOOT in silence. -/
theorem enterStandby {s : State} (h : s.mode = .boot) :
    (startBypassOpen (setMode .standby s)).mode = .standby ∧ (startBypassOpen (setMode .standby s)).regs = s.regs := by
  rw [setMode_of_silent (by simp [h]) (.inr (by simp [h, Mode.isUp]))]
  exact ⟨startBypassOpen_mode _, startBypassOpen_regs _⟩

/-- At the end of BOOT STANDBY begins, and of the registers only the time of the boot changes beside what Harcen starts. -/
theorem bootDone_of_ends {s : State} (h : BootEnds s) :
    (bootDone s).mode = .standby ∧ ∃ v, (bootDone s).regs = (wr .mod F.MOD_BOOT_TIME_MS v (harcenRuns s)).regs := by
  obtain ⟨hmode, href, htested, himage, hwarm, hreset⟩ := h
  have hopen : ¬ (s.mode ≠ .boot ∨ (!s.rst.refOk) = true ∨ s.pwr.stTest = true ∨ s.sec.running.isNone = true ∨
      s.rst.warmAt.isSome = true ∨ (!s.rst.resetN) = true) := by
    simp [hmode, href, htested, himage, hwarm, hreset]
  have hboot := (harcenRuns_mode s).trans hmode
  unfold bootDone
  rw [if_neg hopen]
  generalize hu : s.each harcenPages (fun pg => wr pg F.BLK_CTL_RUN 0) = u
  rw [harcenRuns, hu] at hboot
  rw [harcenRuns, hu]
  constructor
  · refine (enterStandby ?_).1
    exact hboot
  · refine ⟨_, (enterStandby ?_).2.trans (wr_regs_congr _ _ _ ?_)⟩
    · exact hboot
    · rfl

theorem rd_bootDone {s : State} (h : BootEnds s) (pg : Page) {f : Fld} (hf : f.off * 8 + f.lo < 0x8000)
    (hne : F.MOD_BOOT_TIME_MS.off * 8 + F.MOD_BOOT_TIME_MS.lo ≠ f.off * 8 + f.lo) :
    rd (bootDone s) pg f = rd (harcenRuns s) pg f := by
  obtain ⟨-, v, hregs⟩ := bootDone_of_ends h
  exact (rd_congr hregs pg f).trans (rd_wr_other _ v (fkey_ne_of_place .mod pg (by decide) hf hne))

theorem rd_bootDone_field {s : State} (h : BootEnds s) (pg : Page) {f : Fld} (hf : f.off * 8 + f.lo < 0x8000)
    (hne : F.MOD_BOOT_TIME_MS.off * 8 + F.MOD_BOOT_TIME_MS.lo ≠ f.off * 8 + f.lo)
    (hrun : F.BLK_CTL_RUN.off * 8 + F.BLK_CTL_RUN.lo ≠ f.off * 8 + f.lo) : rd (bootDone s) pg f = rd s pg f :=
  (rd_bootDone h pg hf hne).trans (rd_harcenRuns_field s pg hf hrun)

/-- A page whose BLK_CTL.RUN Harcen does not set keeps it over the end of BOOT. -/
theorem rd_bootDone_run_other {s : State} (h : BootEnds s) {n : Nat} {pg : Page} (hat : pageAt n = some pg)
    (hother : ¬ (ownRun pg = true ∧ pg ≠ .trnk)) : rd (bootDone s) pg F.BLK_CTL_RUN = rd s pg F.BLK_CTL_RUN :=
  (rd_bootDone h pg (by decide) (by decide)).trans
    (rd_harcenRuns_other s hat fun hmem => hother (ownRun_of_mem_harcenPages hmem))

/-- Every page that Harcen starts is in RUN at the end of BOOT. -/
theorem pageRun_bootDone_started {s : State} (h : BootEnds s) {n : Nat} {pg : Page} (hat : pageAt n = some pg)
    (hown : ownRun pg = true) (htrnk : pg ≠ .trnk) : pageRun (bootDone s) pg = 0 := by
  have hrun : rd (bootDone s) pg F.BLK_CTL_RUN = 0 :=
    (rd_bootDone h pg (by decide) (by decide)).trans (rd_harcenRuns_mem s (mem_harcenPages hat hown htrnk))
  cases pg <;> cases hown <;> exact hrun

/-- Every other page keeps its run state over the end of BOOT: the TRNK page, the PHY pages by the lead of their link, the pages of the
command queues, and the PART pages. -/
theorem pageRun_bootDone_other {s : State} (h : BootEnds s) {n : Nat} {pg : Page} (hat : pageAt n = some pg)
    (hctl : pg.runctl = true) (hother : ownRun pg = false ∨ pg = .trnk) : pageRun (bootDone s) pg = pageRun s pg := by
  have hnot : ¬ (ownRun pg = true ∧ pg ≠ .trnk) := by
    rintro ⟨hown, htrnk⟩
    exact hother.elim (by simp [hown]) htrnk
  cases pg <;> cases hctl
  case trnk => exact rd_bootDone_run_other h hat hnot
  case mq ep q => exact rd_bootDone_run_other h hat hnot
  case part p => exact rd_bootDone_field h (.part p) (by decide) (by decide) (by decide)
  case phy p =>
    have hlead : leadOf (bootDone s) p = leadOf s p :=
      leadOf_congr (fun p => rd_bootDone_field h (.phy p) (by decide) (by decide) (by decide))
        (fun p => rd_bootDone_field h (.phy p) (by decide) (by decide) (by decide)) p
    have hlt : leadOf s p < 512 := (leadOf_le s p).trans_lt (pageAt_inv hat).2
    calc rd (bootDone s) (.phy (leadOf (bootDone s) p)) F.BLK_CTL_RUN
      _ = rd (bootDone s) (.phy (leadOf s p)) F.BLK_CTL_RUN := by rw [hlead]
      _ = rd s (.phy (leadOf s p)) F.BLK_CTL_RUN := rd_bootDone_run_other h (pageAt_phy hlt) (by simp [ownRun])
  all_goals exact absurd hother (by simp [ownRun])

/-! ### The statement -/

/-- The run states do not rest on the pins and the queue of commands. -/
theorem pageRun_settled (q : List Instr) (s : State) (pg : Page) : pageRun (settled q s) pg = pageRun s pg := by
  cases pg <;> rfl

/-- Settles O56: a reset leaves the cells of the run states at their reset values, and Harcen's writes at the end of BOOT meet the cells
of its own pages alone. -/
theorem runStatesAfterReset : Obligations.RunStatesAfterReset := by
  refine ⟨?cold, ?warm, ?boot⟩
  case cold =>
    intro s hpath
    exact ⟨_, rfl, fun pg _ hctl => (pageRun_settled _ _ pg).trans ((runsReset_powerDown hpath).stopped hctl)⟩
  case warm =>
    intro s n hwarm hents halc hdump
    refine ⟨_, rfl, fun pg _ hctl => ?_⟩
    rw [pageRun_settled, warmReset_of_empty hwarm hents halc hdump]
    exact (runsReset_warmBoot s).stopped hctl
  case boot =>
    intro s hmode href htested himage hwarm hreset
    have hends : BootEnds s := ⟨hmode, href, htested, himage, hwarm, hreset⟩
    refine ⟨_, rfl, (bootDone_of_ends hends).1, fun pg hpg hown htrnk => ?started, fun pg hpg hctl hother => ?other⟩
    case started =>
      obtain ⟨n, -, hat⟩ := List.mem_filterMap.mp hpg
      exact (pageRun_settled _ _ pg).trans (pageRun_bootDone_started hends hat hown htrnk)
    case other =>
      obtain ⟨n, -, hat⟩ := List.mem_filterMap.mp hpg
      exact (pageRun_settled _ _ pg).trans (pageRun_bootDone_other hends hat hctl hother)

end Sys2Proof.Machine
end

section
/-!
SUPPORT. Every step: it ends in a state whose pins follow it, with the queue one command shorter; what the levels of the pins say.
-/
namespace Sys2Proof.Machine

/-! ### The queue (95, every row) -/

/-- A step ends in some state with the rest of the queue left and the pins brought up to date. -/
theorem step_settled (s : State) : ∃ u, step s = .next (settled s.pending.tail u) := by
  unfold step
  cases hq : s.pending with
  | nil => exact ⟨idleTick s, by simp [done, hq]⟩
  | cons c rest =>
    obtain ⟨u, hu⟩ := exec_done c { s with pending := rest }
    exact ⟨u, hu.trans (done_next _ _)⟩

/-- The levels of the pins do not depend on what the pins were nor on the queue. -/
theorem pinsOf_settled (q : List Instr) (u : State) : pinsOf (settled q u) = pinsOf u := rfl

theorem pinsFollow_settled (q : List Instr) (u : State) : PinsFollow (settled q u) := (pinsOf_settled q u).symm

theorem pinsFollow_of_step {s t : State} (h : step s = .next t) : PinsFollow t := by
  obtain ⟨u, hu⟩ := step_settled s
  cases hu.symm.trans h
  exact pinsFollow_settled _ u

theorem runSteps_drains (n : Nat) (s : State) : ∃ t, runSteps n s = .next t ∧ t.pending = s.pending.drop n := by
  induction n generalizing s with
  | zero => exact ⟨s, rfl, rfl⟩
  | succ n ih =>
    obtain ⟨u, hu⟩ := step_settled s
    obtain ⟨t, ht, hp⟩ := ih (settled s.pending.tail u)
    exact ⟨t, by rw [runSteps, hu]; exact ht, by rw [hp]; exact List.drop_tail⟩

/-- Settles O60: a step takes one command and ends settled; the run follows by induction on its steps. -/
theorem everyQueueDrains : Obligations.EveryQueueDrains := by
  refine ⟨fun s c rest hq => ?_, fun s n => runSteps_drains n s⟩
  obtain ⟨u, hu⟩ := step_settled s
  exact ⟨_, hu, by simp [settled, hq], pinsFollow_settled _ u⟩

/-- Settles O57: a step takes the command at the front of the queue. -/
theorem stepRunsFront : Obligations.StepRunsFront := fun _ _ => rfl

/-! ### The levels of the pins (15 Table 15.11) -/

theorem islandOn_iff (s : State) : islandOn s = true ↔ s.pwr.lowAt = none := by simp [islandOn]

theorem perstN_iff (s : State) (g : Nat) : perstN s g = true ↔
    ¬ (s.mode = .standby ∨ s.mode = .run ∨ s.mode = .degraded ∨ s.mode = .maintenance) ∨
      ∃ p, 4 * g ≤ p ∧ p < 4 * g + 4 ∧ roleOf s (leadOf s p) ≠ 0 ∧ rd s (.phy (leadOf s p)) F.PHY_LINK_CTL_PERST ≠ 0 := by
  have hmode : (s.mode == .standby || s.mode.isLive) = true ↔
      (s.mode = .standby ∨ s.mode = .run ∨ s.mode = .degraded ∨ s.mode = .maintenance) := by
    cases s.mode <;> decide
  rw [← hmode]
  simp only [perstN, Bool.or_eq_true (!_), Bool.not_eq_true', Bool.not_eq_true, List.any_eq_true, List.mem_range'_1, Bool.and_eq_true,
    bne_iff_ne, rdb, and_assoc]

theorem emberLevel_of_runs {s : State} (hup : s.mode.isUp = true) (hrst : s.rst.inReset = false)
    (hset : rd s .ftm F.FTM_STS_STATE ≠ 0) :
    emberLevel s = if s.flt.emberHeld then s.flt.ember else s.time.testBit 15 := by
  simp [emberLevel, hup, hrst, bne_iff_ne.mpr hset, bit, Nat.testBit_eq_decide_div_mod_eq, Bool.beq_eq_decide_eq]

theorem emberLevel_of_not_runs {s : State} (h : s.mode.isUp = false ∨ s.rst.inReset = true ∨ rd s .ftm F.FTM_STS_STATE = 0) :
    emberLevel s = false := by
  rcases h with h | h | h <;> simp [emberLevel, h]

/-- Settles O59: the pins follow the state after every step, and each of their levels says what the table says. -/
theorem pinsFollowState : Obligations.PinsFollowState := by
  intro s t hstep
  rw [show t.pins = pinsOf t from pinsFollow_of_step hstep]
  refine ⟨?pg, ?warn, ?ember, ?emberLow, ?emberRuns, ?bypass, ?refclk, ?released, ?driven, ?i3c, rfl, rfl, ?perst⟩
  case pg => simp [pinsOf, pgPin, islandOn_iff, and_assoc]
  case warn => simp [pinsOf, islandOn_iff]
  case ember => simp [pinsOf, islandOn_iff]
  case emberLow => intro h; simp [pinsOf, emberLevel_of_not_runs h]
  case emberRuns =>
    intro hlow hup hrst hset
    simp [pinsOf, (islandOn_iff t).mpr hlow, emberLevel_of_runs hup hrst hset]
  case bypass => simp [pinsOf, ← islandOn_iff, or_assoc]
  case refclk => simp [pinsOf, islandOn_iff]
  case released => by_cases h : islandOn t = true <;> simp [pinsOf, h, ← islandOn_iff]; split <;> simp
  case driven => by_cases h : islandOn t = true <;> simp [pinsOf, h, ← islandOn_iff]
  case i3c => exact islandOn_iff t
  case perst => intro g; simp [pinsOf, ← islandOn_iff, perstN_iff]

/-! ### The state after a cold reset (15 R301; 17 R331) -/

/-- After a cold reset every field has its reset value. -/
theorem rd_stateReset (pg : Page) (f : Fld) : rd State.reset pg f = resetVal pg f := rfl

theorem pageRun_stateReset {pg : Page} (h : pg.runctl = true) : pageRun State.reset pg = 2 := by
  revert h
  cases pg <;> simp [Page.runctl, pageRun, partSt, rd_stateReset, resetVal]
  case part => exact fun _ => rfl

/-- Without power every group has PERST_N asserted and every other output is released or low. -/
theorem pinsFollow_stateReset : PinsFollow State.reset := by
  simp [PinsFollow, pinsOf, islandOn, State.reset, Pwr.reset, Pins.reset]

/-- Settles O58: each part of the state after reset is read off its definition. -/
theorem resetState : Obligations.ResetState :=
  ⟨pinsFollow_stateReset, rfl, rfl, rfl, rfl, rfl, rfl, rfl, rfl, rfl, fun _ => pageRun_stateReset, fun _ => rfl, fun _ => rfl,
    fun _ => rfl, rfl, rfl, rfl, fun _ _ => rfl, memory_wf_reset, rfl, rfl, rfl⟩

/-! ### An idle step (02 R27) -/

/-- A module that holds nothing waiting has nothing due. -/
theorem noneWaits_of_noneHeld {s : State} (h : NoneHeld s) : NoneWaits s := by
  obtain ⟨hpar, hspdm, -⟩ := h
  simp [NoneWaits, hpar, hspdm]

theorem passTicks_of_clock {s : State} (n : Nat) (h : clockRuns s = true) :
    passTicks n s = { s with time := (s.time + n) % 2 ^ 64, tick := s.tick + n } := if_pos h

/-- With no telemetry record held and no packet waiting, an idle tick moves the count alone. -/
theorem idleTick_of_noneHeld {s : State} (h : NoneHeld s) (hwait : s.trail.wait = []) (hclk : clockRuns s = true) :
    idleTick s = { s with time := (s.time + 1) % 2 ^ 64, tick := s.tick + 1 } := by
  have hw := noneWaits_of_noneHeld h
  rw [idleTick, if_pos hclk, parDue_none hw, spdmDue_none hw, passTicks_of_clock 1 hclk, skySettle_none (by simp [h.2.2])]
  simp [trailTick, hwait, State.each]

/-- Settles O4: the step is the idle tick, which moves the count alone, and the pins then follow. -/
theorem idleStepCountsOne : Obligations.IdleStepCountsOne := by
  intro s hheld hwait hq hclk htime
  have hstep : step s = done s (idleTick s) := by simp only [step, hq]
  refine ⟨_, hstep, ?_, ?_, ?_⟩ <;> rw [idleTick_of_noneHeld hheld hwait hclk]
  · exact Nat.mod_eq_of_lt htime
  · rfl
  · rfl

end Sys2Proof.Machine
end

section
/-!
SUPPORT. Rules that the statements below share: the tick of a timer, reading a field after a write elsewhere, a masked fault source.
-/
namespace Sys2Proof.Machine

/-! ### Time and fault sources -/

theorem advanceTo_tick {s : State} (n : Nat) (h : clockRuns s = true) : (advanceTo n s).tick = max s.tick n := by
  unfold advanceTo
  split
  · rw [passTicks_of_clock _ h]; dsimp only; omega
  · omega

/-- With the clock running a timer's action comes to the state of its tick. -/
theorem atTick_of_clock {s : State} (n : Nat) (f : State → State) (h : clockRuns s = true) : atTick n f s = f (advanceTo n s) := by
  simp [atTick, h]

/-- At its own tick a timer's action comes to the state as it is. -/
theorem atTick_now {s : State} {n : Nat} (f : State → State) (h : n ≤ s.tick) : atTick n f s = f s := by
  simp [atTick, advanceTo, Nat.not_lt.mpr h]

/-- Fields at different places of their pages are different fields, whatever the pages. -/
theorem rd_wr_place {pg pg' : Page} {f g : Fld} (v : Nat) (s : State)
    (h : f.off * 8 + f.lo < 0x8000 ∧ g.off * 8 + g.lo < 0x8000 ∧ f.off * 8 + f.lo ≠ g.off * 8 + g.lo) :
    rd (wr pg f v s) pg' g = rd s pg' g :=
  rd_wr_other s v (fkey_ne_of_place pg pg' h.1 h.2.1 h.2.2)

theorem srcMasked_congr {s t : State} (n : Nat) (h : ∀ pg, rd t pg F.ERR_MASK_MASK = rd s pg F.ERR_MASK_MASK) :
    srcMasked t n = srcMasked s n := by
  simp only [srcMasked, h]

theorem srcMasked_wr {pg : Page} {f : Fld} {s : State} (v n : Nat)
    (h : f.off * 8 + f.lo < 0x8000 ∧ F.ERR_MASK_MASK.off * 8 + F.ERR_MASK_MASK.lo < 0x8000 ∧
      f.off * 8 + f.lo ≠ F.ERR_MASK_MASK.off * 8 + F.ERR_MASK_MASK.lo) : srcMasked (wr pg f v s) n = srcMasked s n :=
  srcMasked_congr n fun _ => rd_wr_place v s h

/-- A masked source that is raised against no partition changes nothing. -/
theorem raise_of_masked {s : State} {n : Nat} (link : Option Nat) (h : srcMasked s n = true) : raise n none link s = s := by
  unfold raise raiseAs
  cases hi : srcInfo n with
  | none => rfl
  | some info =>
    cases hp : srcPage n with
    | none => rfl
    | some x => simp [h, State.when]

/-- With nothing due, what a command does comes to the state as it is. -/
theorem dueThen_of_noneDue {s : State} (f : State → State) (h : NoneDue s) : dueThen f s = f s := congrArg f (dueFirst_none h)

/-- A value that fits its field is read back. -/
theorem rd_wr_of_lt {pg : Page} {f : Fld} {v : Nat} (s : State) (h : v < 2 ^ f.width) : rd (wr pg f v s) pg f = v :=
  (rd_wr_same s pg f v).trans (Nat.mod_eq_of_lt h)

@[simp] theorem srcMasked_say (o : Out) (s : State) (n : Nat) : srcMasked (s.say o) n = srcMasked s n := rfl

end Sys2Proof.Machine
end

section
/-!
SUPPORT. Trail routers (01 R17-R19): a packet that waits alone at its output is granted, ageing marks one packet, a bad hop count
discards.
-/
namespace Sys2Proof.Machine

@[simp] theorem setTrail_trail (t : Trail) (s : State) : (setTrail t s).trail = t := rfl

/-! ### Credits and requests on the way to an output (01 R18) -/

theorem credKey_inj {r o l r' o' l' : Nat} (hl : l < 4) (hl' : l' < 4) (h : credKey r o l = credKey r' o' l') : l = l' := by
  unfold credKey at h; omega

/-- The credits of one level come back. -/
def creditLevel (router out : Nat) (cred : List Nat) (l : Nat) (s : State) : State :=
  setTrail { s.trail with used := tput 0 s.trail.used (credKey router out l) (tget 0 s.trail.used (credKey router out l) - cred.getD l 0) } s

/-- The credits that come back of a list of different levels are taken off the counts of those levels. -/
theorem each_creditLevel (router out : Nat) (cred l : List Nat) (hl : ∀ x ∈ l, x < 4) (hn : l.Nodup) (s : State) :
    ∃ u, s.each l (creditLevel router out cred) = setTrail { s.trail with used := u } s ∧
      ∀ x, x < 4 → tget 0 u (credKey router out x) =
        if x ∈ l then tget 0 s.trail.used (credKey router out x) - cred.getD x 0 else tget 0 s.trail.used (credKey router out x) := by
  induction l generalizing s with
  | nil => exact ⟨s.trail.used, rfl, by simp⟩
  | cons a l ih =>
    obtain ⟨hna, hnl⟩ := List.nodup_cons.mp hn
    obtain ⟨u, hu, hv⟩ := ih (fun x hx => hl x (List.mem_cons_of_mem _ hx)) hnl (creditLevel router out cred a s)
    refine ⟨u, hu, fun x hx => (hv x hx).trans ?_⟩
    by_cases hxa : x = a
    · subst hxa; simp [hna, creditLevel]
    · have hk : credKey router out a ≠ credKey router out x := fun h => hxa (credKey_inj (hl a List.mem_cons_self) hx h).symm
      simp [hxa, creditLevel, tget_tput_other _ _ _ _ hk]

theorem credBack_used (router out : Nat) (cred : List Nat) (s : State) :
    ∃ u, credBack router out cred s = setTrail { s.trail with used := u } s ∧
      ∀ x, x < 4 → tget 0 u (credKey router out x) = tget 0 s.trail.used (credKey router out x) - cred.getD x 0 := by
  obtain ⟨u, hu, hv⟩ := each_creditLevel router out cred (List.range 4) (by simp) List.nodup_range s
  exact ⟨u, hu, fun x hx => by simpa [hx] using hv x hx⟩

theorem noteRequest_reqs (p : TPkt) (s : State) : ∃ r, noteRequest p s = setTrail { s.trail with reqs := r } s := by
  unfold noteRequest
  dsimp only
  split
  · exact ⟨s.trail.reqs, rfl⟩
  · exact ⟨_, rfl⟩

theorem typPrio_lt (typ : Nat) : typPrio typ < 4 := by
  unfold typPrio
  split <;> omega

/-! ### A packet that nothing stands before -/

/-- A packet is alone: nothing waits at its output, nor in its buffer. -/
def RWait.Alone (w : List RWait) (x : RWait) : Prop :=
  ∀ y ∈ w, ¬ (y.router = x.router ∧ (y.out = x.out ∨ y.inp = x.inp ∧ typPrio y.pkt.typ = typPrio x.pkt.typ))

theorem RWait.Alone.not_mem {w : List RWait} {x : RWait} (h : x.Alone w) : x ∉ w := fun hx => h x hx ⟨rfl, .inl rfl⟩

theorem ahead_append_of_mem {w : List RWait} {y : RWait} (z : List RWait) (h : y ∈ w) : ahead (w ++ z) y = ahead w y := by
  have htake : (w ++ z).takeWhile (fun x => x != y) = w.takeWhile (fun x => x != y) := by
    rw [List.takeWhile_append, if_neg]
    exact fun hlen => by simpa using List.takeWhile_eq_self_iff.mp (List.takeWhile_sublist _ |>.eq_of_length hlen) y h
  rw [ahead, ahead, htake]

theorem ahead_append_self {w : List RWait} {x : RWait} (h : x.Alone w) : ahead (w ++ [x]) x = 0 := by
  have htake : (w ++ [x]).takeWhile (fun y => y != x) = w := by
    rw [List.takeWhile_append_of_pos (by intro y hy; simpa using ne_of_mem_of_not_mem hy h.not_mem)]
    simp
  have hnone : w.filter x.sameBuf = [] := List.filter_eq_nil_iff.mpr fun y hy => by
    have := h y hy
    simp only [RWait.sameBuf, Bool.and_eq_true, beq_iff_eq]
    tauto
  simp [ahead, htake, hnone]

/-- Taking a packet off the end of the list lets no other into its buffer. -/
theorem enterBuf_append (tick : Nat) (w z : List RWait) : enterBuf tick (w ++ z) w = w :=
  (List.map_congr_left fun y hy => by simp [inBuf, ahead_append_of_mem z hy]).trans (List.map_id w)

/-- Of a packet that is alone and has credit, its free output makes it the one granted. -/
theorem trailServe_of_alone {s : State} {w : List RWait} {x : RWait} (hs : s.trail.wait = w ++ [x]) (h : x.Alone w)
    (hcred : trailCred s x.router x.out (typPrio x.pkt.typ) = true) (hage : x.aged = none) :
    trailServe x.router x.out s = trailGrant x s := by
  have hfilter : (s.trail.wait.filter fun y =>
      y.router == x.router && y.out == x.out && atFront s.trail.wait y && trailCred s x.router x.out (typPrio y.pkt.typ)) = [x] := by
    rw [hs, List.filter_append, List.filter_eq_nil_iff.mpr]
    · simp [atFront, ahead_append_self h, hcred]
    · intro y hy
      have := h y hy
      simp only [Bool.and_eq_true, beq_iff_eq]
      tauto
  have hpick (last : Bool) : trailPick last [x] = some x := by
    unfold trailPick
    cases last <;> by_cases h3 : typPrio x.pkt.typ == 3 <;> simp [hage, h3]
  simp only [trailServe, hfilter, hpick]

/-! ### What a grant does -/

theorem trailGrant_wait (x : RWait) (s : State) : (trailGrant x s).trail.wait = enterBuf s.tick s.trail.wait (s.trail.wait.erase x) := by
  unfold trailGrant; dsimp only; (repeat' split) <;> rfl

theorem trailGrant_out (x : RWait) (s : State) : (trailGrant x s).out = s.out ++
    [.trailCredit x.router x.inp (typPrio x.pkt.typ) (pktFlits x.pkt),
      (if x.pkt.hops = 0 then Out.trailDeliver else Out.trailHop) x.router x.out x.pkt] := by
  unfold trailGrant; dsimp only; (repeat' split) <;> simp [State.say, *]

theorem trailGrant_others (x : RWait) (s : State) :
    (trailGrant x s).regs = s.regs ∧ (trailGrant x s).maps = s.maps ∧ (trailGrant x s).core = s.core := by
  unfold trailGrant; dsimp only; (repeat' split) <;> exact ⟨rfl, rfl, rfl⟩

/-- A packet as it leaves its output: its route shifted and its hops counted down. -/
def sentPkt (p : TPkt) : TPkt := { p with route := p.route / 8, hops := p.hops - 1 }

/-- The place of a packet that comes to an input. -/
def waitOf (router inp tick : Nat) (p : TPkt) : RWait := ⟨router, p.route % 8, inp, sentPkt p, tick, none⟩

/-- A packet that comes in with a good hop count, alone and with credit, is granted by its free output at once. -/
theorem trailPacket_of_alone {s : State} {router inp : Nat} {p : TPkt} {cred : List Nat} (hni : niHolds s router inp p = false)
    (h1 : 1 ≤ p.hops) (h12 : p.hops ≤ 12) (halone : (waitOf router inp s.tick p).Alone s.trail.wait)
    (hused : tget 0 s.trail.used (credKey router (p.route % 8) (typPrio p.typ)) < 4 + cred.getD (typPrio p.typ) 0)
    (hcred : ((Config.localNi router (p.route % 8)).all fun n => niCred s n (typPrio p.typ)) = true) :
    ∃ tr, tr.wait = s.trail.wait ++ [waitOf router inp s.tick p] ∧
      trailPacket router inp p true cred s = trailGrant (waitOf router inp s.tick p) { s with trail := tr } := by
  obtain ⟨u, hcb, hu⟩ := credBack_used router (p.route % 8) cred s
  obtain ⟨r, hr⟩ := noteRequest_reqs p (setTrail { s.trail with used := u } s)
  have hhops : ¬ (p.hops = 0 ∨ 12 < p.hops) := by omega
  refine ⟨{ s.trail with used := u, reqs := r, wait := s.trail.wait ++ [waitOf router inp s.tick p] }, rfl, ?_⟩
  have hentered : trailPacket router inp p true cred s = trailServe router (p.route % 8) { s with trail :=
      { s.trail with used := u, reqs := r, wait := s.trail.wait ++ [waitOf router inp s.tick p] } } := by
    simp only [trailPacket, hni, hhops, hcb, hr, Bool.false_eq_true, if_false, if_true]
    rfl
  rw [hentered]
  refine trailServe_of_alone (x := waitOf router inp s.tick p) rfl halone ?_ rfl
  have hlt := hu _ (typPrio_lt p.typ)
  simp only [trailCred, waitOf, sentPkt, hlt, Bool.and_eq_true, decide_eq_true_eq]
  refine ⟨by omega, ?_⟩
  cases hl : Config.localNi router (p.route % 8) with
  | none => rfl
  | some n =>
    have hn : niCred s n (typPrio p.typ) = true := by simpa [hl] using hcred
    exact hn

theorem find?_append_cons_of_first {α : Type} {q : α → Bool} {l r : List α} {x : α} (hl : ∀ y ∈ l, q y = false) (hx : q x = true) :
    (l ++ x :: r).find? q = some x := by
  simp [List.find?_append, List.find?_eq_none.mpr fun y hy => ne_true_of_eq_false (hl y hy), hx]

theorem modFirst_append_cons_of_first {α : Type} {q : α → Bool} {f : α → α} {l r : List α} {x : α} (hl : ∀ y ∈ l, q y = false)
    (hx : q x = true) : modFirst q f (l ++ x :: r) = l ++ f x :: r := by
  induction l with
  | nil => simp [modFirst, hx]
  | cons a l ih => simp [modFirst, hl a List.mem_cons_self, ih fun y hy => hl y (List.mem_cons_of_mem a hy)]

/-! ### The statement -/

/-- Settles O1: the packet that is alone is granted; ageing marks the first young one; a bad hop count only returns the credit. -/
theorem trailRouters : Obligations.TrailRouters := by
  refine ⟨?granted, ?aged, ?discarded⟩
  case granted =>
    intro s router inp p cred hni h1 h12 halone hused hcred
    have hne : (waitOf router inp s.tick p).Alone s.trail.wait := halone
    obtain ⟨tr, htr, hp⟩ := trailPacket_of_alone hni h1 h12 hne hused hcred
    obtain ⟨hregs, hmaps, hcore⟩ := trailGrant_others (waitOf router inp s.tick p) { s with trail := tr }
    refine ⟨settled s.pending (trailPacket router inp p true cred s), rfl, ?_, ?_, ?_, ?_, ?_⟩ <;> rw [hp]
    · rw [settled_trail, trailGrant_wait, htr, List.erase_append_right _ hne.not_mem]
      simpa using enterBuf_append s.tick s.trail.wait [waitOf router inp s.tick p]
    · have hlast : p.hops - 1 = 0 ↔ p.hops = 1 := by omega
      simp [trailGrant_out, waitOf, sentPkt, hlast, pktFlits]
    · exact hregs
    · exact hmaps
    · exact hcore
  case aged =>
    intro s router out l r x hw hx hl hclk
    have hfind : s.trail.wait.find? (RWait.young router out s.trail.wait) = some x := by
      conv_lhs => rw [hw]
      exact find?_append_cons_of_first (by simpa [hw] using hl) (by simpa [hw] using hx)
    have hmod : modFirst (RWait.young router out s.trail.wait) (fun x => { x with aged := some s.trail.agedSeq }) s.trail.wait =
        l ++ { x with aged := some s.trail.agedSeq } :: r := by
      conv_lhs => arg 3; rw [hw]
      exact modFirst_append_cons_of_first (by simpa [hw] using hl) (by simpa [hw] using hx)
    refine ⟨settled s.pending (packetAged router out s), rfl, ?_⟩
    simp [packetAged, hfind, atTick_of_clock _ _ hclk, advanceTo_tick _ hclk, hmod, ageTicks]
  case discarded =>
    intro s router inp p free cred hni hhops hmask
    refine ⟨settled s.pending (trailPacket router inp p free cred s), rfl, ?_⟩
    have hmask' : srcMasked (wr (.ni (routerNi router)) F.NI_STS_ROUTE_ERR 1 s) 0x0F = true := by
      simpa (disch := decide) only [srcMasked_wr] using hmask
    have hraise := raise_of_masked (n := 0x0F) none (s := State.say (.trailCredit router inp (typPrio p.typ) (pktFlits p))
      (wr (.ni (routerNi router)) F.NI_STS_ROUTE_ERR 1 s)) hmask'
    simp (disch := decide) [trailPacket, hni, hhops, hraise]

end Sys2Proof.Machine
end

section
/-!
SUPPORT. Network interfaces of the Trail network (01 R20, R21; 02 R37) and the power domains behind their boundaries (01 R22-R26; 15
R298).
-/
namespace Sys2Proof.Machine

/-! ### The copy of fabric time and the requests of an interface -/

/-- What is added to `a` to make it read `v` below `m`. -/
theorem add_complement_mod {m v : Nat} (a : Nat) (h : v < m) : (a + (v + m - a % m) % m) % m = v := by
  have hdiv := Nat.div_add_mod a m
  have hlt := Nat.mod_lt a (Nat.zero_lt_of_lt h)
  have hsum : a + (v + m - a % m) = v + m * (a / m + 1) := by rw [Nat.mul_add]; omega
  rw [Nat.add_mod_mod, hsum, Nat.add_mul_mod_self_left, Nat.mod_eq_of_lt h]

theorem niTime_settled (q : List Instr) (s : State) (ni : Nat) : niTime (settled q s) ni = niTime s ni := rfl

theorem niTime_setNiTime {s : State} {ni value : Nat} (h : value < 2 ^ 64) : niTime (setNiTime ni value s) ni = value := by
  unfold niTime setNiTime
  rw [setTrail_trail, setTrail_tick, tget_tput_same]
  exact add_complement_mod _ h

theorem length_dropFirst {α : Type} {q : α → Bool} {l : List α} {x : α} (h : l.find? q = some x) :
    (dropFirst q l).length + 1 = l.length := by
  induction l with
  | nil => cases h
  | cons a l ih =>
    by_cases ha : q a = true
    · simp [dropFirst, ha]
    · rw [List.find?_cons_of_neg ha] at h
      simp [dropFirst, ha, ← ih h]

/-- Settles O2: each of the five accesses is run through its definition. -/
theorem trailInterfaces : Obligations.TrailInterfaces := by
  refine ⟨?message, ?check, ?timeout, ?commit, ?refused⟩
  case message =>
    intro s ni value inst hclk _ hvalue
    refine ⟨settled s.pending (timeMessage ni value inst false s), rfl, ?_⟩
    have hset : timeMessage ni value inst false s = setNiTime ni value (advanceTo inst s) := by
      simp [timeMessage, atTick_of_clock _ _ hclk]
    rw [hset]
    refine ⟨by simp [setNiTime, advanceTo_tick _ hclk], (niTime_settled ..).trans (niTime_setNiTime hvalue), fun n hn => ?_, by simp [setNiTime]⟩
    simp [setNiTime, tget_tput_other _ _ _ _ hn.symm]
  case check =>
    intro s ni inst hinst
    refine ⟨settled s.pending (timeMessage ni (niTime s ni) inst true s), rfl, ?_⟩
    simp [timeMessage, atTick_now _ (Nat.le_of_eq hinst)]
  case timeout =>
    intro s r hfind hclk
    refine ⟨settled s.pending (niRequestTimeout r.ni r.tag s), rfl, ?_⟩
    have hrun : niRequestTimeout r.ni r.tag s =
        (setTrail { s.trail with reqs := dropFirst (fun x => x.ni == r.ni && x.tag == r.tag) s.trail.reqs } (advanceTo r.deadline s)
          |> wr (.ni r.ni) F.NI_STS_TMO 1 |> State.say (.niReply r.ni r.typ r.tag (if r.typ = 0 then [0xFFFFFFFF] else []))) := by
      simp [niRequestTimeout, hfind, atTick_of_clock _ _ hclk]
    rw [hrun]
    refine ⟨by simp [advanceTo_tick _ hclk], by simp (disch := decide), by simp, ?_⟩
    simpa using length_dropFirst hfind
  case commit =>
    intro s ni v hdue htakes hstop h1 h12
    refine ⟨settled s.pending (dueThen (regGate (.ni ni) (niRtHiWrite ni v.toNat)) s), rfl, ?_⟩
    simp [dueThen_of_noneDue _ hdue, regGate_of_takes _ htakes, niRtHiWrite, hstop, routeOf, h1, h12]
  case refused =>
    intro s ni v hdue htakes hrun
    refine ⟨settled s.pending (dueThen (regGate (.ni ni) (niRtHiWrite ni v.toNat)) s), rfl, ?_⟩
    simp [dueThen_of_noneDue _ hdue, regGate_of_takes _ htakes, niRtHiWrite, hrun, rd_reject]

/-! ### Power domains -/

@[simp] theorem setDom_trail (g : Nat) (d : Dom) (s : State) :
    (setDom g d s).trail = { s.trail with doms := tput Dom.on s.trail.doms g d } := rfl

@[simp] theorem setDom_out (g : Nat) (d : Dom) (s : State) : (setDom g d s).out = s.out := rfl

@[simp] theorem setDom_tick (g : Nat) (d : Dom) (s : State) : (setDom g d s).tick = s.tick := rfl

@[simp] theorem setBuf_trail (g : Nat) (l : List TPkt) (s : State) :
    (setBuf g l s).trail = { s.trail with buf := tput [] s.trail.buf g l } := rfl

@[simp] theorem setBuf_tick (g : Nat) (l : List TPkt) (s : State) : (setBuf g l s).tick = s.tick := rfl

@[simp] theorem setBuf_out (g : Nat) (l : List TPkt) (s : State) : (setBuf g l s).out = s.out := rfl

/-- A wake request leaves one for its domain, and changes the other parts of the network in nothing. -/
theorem wakeRequest_wakes (g prio : Nat) (s : State) :
    (∃ w ∈ (wakeRequest g prio s).trail.wakes, w.g = g) ∧ (wakeRequest g prio s).trail.buf = s.trail.buf ∧
      (wakeRequest g prio s).out = s.out := by
  unfold wakeRequest
  split
  case isTrue h => exact ⟨by simpa using h, rfl, rfl⟩
  case isFalse => exact ⟨⟨_, List.mem_append_right _ (List.mem_singleton.mpr rfl), rfl⟩, rfl, rfl⟩

theorem each_say_out {α : Type} (l : List α) (f : α → Out) (s : State) :
    s.each l (fun a => State.say (f a)) = { s with out := s.out ++ l.map f } := by
  induction l generalizing s with
  | nil => simp [State.each]
  | cons a l ih =>
    have h := ih (s.say (f a))
    simp only [State.each, List.foldl_cons, State.say, List.append_assoc] at h ⊢
    exact h

/-- Settles O3: each row is run through its definition in the state of the domain that it needs. -/
theorem portGroupDomains : Obligations.PortGroupDomains := by
  refine ⟨?powerDown, ?asleep, ?passes, ?waits, ?wake, ?delivers⟩
  case powerDown =>
    intro s g hon hidle
    refine ⟨settled s.pending (domainPowerDown g s), rfl, ?_⟩
    have hrun : domainPowerDown g s = saveCounters g (setDom g (.down s.tick) s) := by simp [domainPowerDown, hon, hidle]
    rw [hrun]
    refine ⟨by simp [saveCounters, domOf], fun h hne => ?_⟩
    simp [saveCounters, domOf, tget_tput_other _ _ _ _ hne.symm]
  case asleep =>
    intro s g since hdown hbuf hclk
    refine ⟨settled s.pending (powerDownComplete g s), rfl, ?_⟩
    have hempty : bufOf (setDom g .asleep (advanceTo (since + 300) s)) g = [] := by simpa [bufOf] using hbuf
    have hrun : powerDownComplete g s = setDom g .asleep (advanceTo (since + 300) s) := by
      simp [powerDownComplete, hdown, atTick_of_clock _ _ hclk, hempty]
    rw [hrun]
    refine ⟨by simp [domOf], by simp [advanceTo_tick _ hclk], ?_⟩
    simp (disch := decide) [setDom, rd_wrb_same]
  case passes =>
    intro s g p hon
    refine ⟨settled s.pending (boundaryPacket g p s), rfl, ?_⟩
    simp [boundaryPacket, hon]
  case waits =>
    intro s g p hasleep hwakes hroom
    refine ⟨settled s.pending (boundaryPacket g p s), rfl, ?_⟩
    have hrun : boundaryPacket g p s = wakeRequest g (typPrio p.typ) (setBuf g (bufOf s g ++ [p]) s) := by
      simp [boundaryPacket, hasleep, hwakes, bufPut, bufTakes, hroom]
    obtain ⟨hw, hbuf, hout⟩ := wakeRequest_wakes g (typPrio p.typ) (setBuf g (bufOf s g ++ [p]) s)
    rw [hrun]
    refine ⟨?_, hout, hw⟩
    rw [bufOf, settled_trail, hbuf, setBuf_trail, tget_tput_same]
  case wake =>
    intro s w hfirst htok
    refine ⟨settled s.pending (wakeStart s), rfl, ?_⟩
    simp [wakeStart, hfirst, Nat.not_lt.mpr htok, showWaiting, domOf]
  case delivers =>
    intro s g since hwaking hclk
    refine ⟨settled s.pending (wakeComplete g s), rfl, ?_⟩
    have hrun : wakeComplete g s = deliverBuf g (setDom g .on (advanceTo (since + 600) s)) := by
      simp [wakeComplete, hwaking, atTick_of_clock _ _ hclk]
    rw [hrun]
    simp [deliverBuf, each_say_out, domOf, bufOf, heldBack, advanceTo_tick _ hclk]

end Sys2Proof.Machine
end

section
/-!
SUPPORT. Sources of fabric time (02 R31, R359), the schedule table and its entries (02 R38-R41): writing the fields of a register,
what an empty tick leaves, which instants are accepted.
-/
namespace Sys2Proof.Machine

/-! ### Register writes through a full mask (17 R328) -/

/-- A write through a full mask leaves its own bits in the field. -/
theorem merge_allBits {f : Fld} {m : Nat} (old v : Nat) (h : f.of m = 2 ^ f.width - 1) : f.merge old v m = f.of v := by
  have hlt : f.of v < 2 ^ f.width := Nat.mod_lt _ (Nat.two_pow_pos _)
  simp [Fld.merge, h, Nat.and_two_pow_sub_one_eq_mod, Nat.mod_eq_of_lt hlt]

theorem holdsWrites_of_not_frozen {s : State} (pg : Page) (h : frozen s = false) : holdsWrites s pg = false := by
  simp [holdsWrites, h]

/-! ### Losses and changes of a source -/

theorem settleMiss_time (s : State) : (settleMiss s).time = s.time := by
  unfold settleMiss State.when; split <;> rfl

theorem rd_settleMiss (s : State) (pg : Page) {f : Fld}
    (h : F.FTM_SRC_CNT_FSYNC_MISS.off * 8 + F.FTM_SRC_CNT_FSYNC_MISS.lo < 0x8000 ∧ f.off * 8 + f.lo < 0x8000 ∧
      F.FTM_SRC_CNT_FSYNC_MISS.off * 8 + F.FTM_SRC_CNT_FSYNC_MISS.lo ≠ f.off * 8 + f.lo) :
    rd (settleMiss s) pg f = rd s pg f := by
  unfold settleMiss State.when
  split
  · exact rd_wr_place _ _ h
  · rfl

/-- While a selected source is good, LOCKED stays. -/
theorem ftmLost_of_good {s : State}
    (h : (fsSel s && rdb s .ftm F.FTM_STS_FSYNC_OK) = true ∨ (ringSel s && rdb s .ftm F.FTM_STS_RING_OK) = true) : ftmLost s = s := by
  unfold ftmLost
  split
  · rfl
  · rw [if_pos (by simpa using h)]

/-- A value below the field's width is clamped into the range or refused, and never both. -/
theorem putField_rw_clamped {pg : Page} {f : Fld} {m : Nat} (v : Nat) (s : State) (hacc : f.acc = .rw) (hm : f.of m = 2 ^ f.width - 1)
    (hw : f.of m ≠ 0) (hbad : ∀ x, f.bad x = false) : putField pg v m f s = (false, wr pg f (f.clamp (f.of v)) s) := by
  simp [putField, hw, hacc, hbad, merge_allBits _ _ hm]

theorem putField_rwq_stopped {pg : Page} {f : Fld} {m : Nat} (v : Nat) (s : State) (hacc : f.acc = .rwq) (hm : f.of m = 2 ^ f.width - 1)
    (hw : f.of m ≠ 0) (hown : ownerStopped s pg f = true) (hbad : f.bad (f.of v) = false) :
    putField pg v m f s = (false, wr pg f (f.clamp (f.of v)) s) := by
  simp [putField, hw, hacc, hbad, hown, merge_allBits _ _ hm]

theorem ftmCfg_fields : Page.ftm.regFields F.FTM_CFG_SRC.off = [F.FTM_CFG_MISS_LIM, F.FTM_CFG_SRC] := rfl

/-- A field that clamps at both ends refuses no value. -/
theorem bad_of_clamped {f : Fld} (hlo : f.clampLo = true) (hhi : f.clampHi = true) (h : f.min ≤ f.max) (x : Nat) : f.bad x = false := by
  have hc : f.min ≤ f.clamp x ∧ f.clamp x ≤ f.max := by
    simp only [Fld.clamp, hlo, hhi, and_true]
    split_ifs <;> omega
  simp [Fld.bad, hc.1, hc.2]

/-- A write of FTM_CFG while the FTM is STOPPED, with both sources in SRC. -/
theorem putReg_ftmCfg_both {s : State} {v : Nat} (hstop : rd s .ftm F.BLK_CTL_RUN = 2) (hv : F.FTM_CFG_SRC.of v = 0) :
    ∃ x, putReg .ftm F.FTM_CFG_SRC.off v allBits s = wr .ftm F.FTM_CFG_SRC 0 (wr .ftm F.FTM_CFG_MISS_LIM x s) := by
  have hown (x : Nat) : ownerStopped (wr .ftm F.FTM_CFG_MISS_LIM x s) .ftm F.FTM_CFG_SRC = true := by
    have hrun : rd (wr .ftm F.FTM_CFG_MISS_LIM x s) .ftm F.BLK_CTL_RUN = 2 := by
      rw [rd_wr_place _ _ (by decide), hstop]
    have hnma : ¬ (F.FTM_CFG_SRC = F.HOME_NMA_LO_BASE_LO ∨ F.FTM_CFG_SRC = F.HOME_NMA_LO_EN ∨
      F.FTM_CFG_SRC = F.HOME_NMA_HI_BASE_HI) := by decide
    simp [ownerStopped, hnma, pageRun, hrun]
  refine ⟨F.FTM_CFG_MISS_LIM.clamp (F.FTM_CFG_MISS_LIM.of v), ?_⟩
  have hlim := putField_rw_clamped (pg := .ftm) (f := F.FTM_CFG_MISS_LIM) (m := allBits) v s rfl (by decide) (by decide)
    (bad_of_clamped rfl rfl (by decide))
  have hsrc := putField_rwq_stopped (pg := .ftm) (f := F.FTM_CFG_SRC) (m := allBits) v _ rfl (by decide) (by decide)
    (hown (F.FTM_CFG_MISS_LIM.clamp (F.FTM_CFG_MISS_LIM.of v))) (by rw [hv]; decide)
  rw [putReg, ftmCfg_fields, putSome]
  simp only [putFields, hlim, hsrc, hv]
  rfl

/-- FSYNC that comes to be selected counts as good, with no unconfirmed boundary. -/
def fsyncChosen (s : State) : State :=
  let s := wrb .ftm F.FTM_STS_FSYNC_OK true (settleMiss s)
  setFtm { s.ftm with fsRun := 0, fsConf := false, prov := none, agreeFs := none } s

theorem rd_fsyncChosen_src (s : State) : rd (fsyncChosen s) .ftm F.FTM_CFG_SRC = rd s .ftm F.FTM_CFG_SRC := by
  simp (disch := decide) only [fsyncChosen, wrb, rd_setFtm, rd_wr_place, rd_settleMiss]

theorem fsyncChosen_ok (s : State) : rdb (fsyncChosen s) .ftm F.FTM_STS_FSYNC_OK = true := by
  simp (disch := decide) only [fsyncChosen, rdb, rd_setFtm, rd_wrb_same]
  rfl

/-- From the ring alone to both sources: FSYNC is chosen, and the ring stays as it was. -/
theorem reselect_ring_to_both {s : State} (hsrc : rd s .ftm F.FTM_CFG_SRC = 0) : reselect 1 s = fsyncChosen s := by
  have hnew := (rd_fsyncChosen_src s).trans hsrc
  have hlost : ftmLost (fsyncChosen s) = fsyncChosen s := ftmLost_of_good (.inl (by simp [fsSel, hnew, fsyncChosen_ok]))
  have hfs : fsSel s = true := by simp [fsSel, hsrc]
  have hring : ringSel (fsyncChosen s) = true := by simp [ringSel, hnew]
  simp only [reselect, State.when, hfs]
  change ftmLost (if (ringSel (fsyncChosen s) != _) = true then _ else fsyncChosen s) = fsyncChosen s
  rw [hring, if_neg (by decide), hlost]

/-- Settles O7: the source is marked lost while the other keeps LOCKED; FSYNC that comes to be selected is marked good. -/
theorem fabricTimeSources : Obligations.FabricTimeSources := by
  refine ⟨?fsync, ?ring, ?config⟩
  case fsync =>
    intro s hsel hset hok hlim hring hrok
    refine ⟨settled s.pending (fsyncLost s), rfl, ?_⟩
    have hgood : (ringSel (setFtm { s.ftm with agreeFs := none } (wr .ftm F.FTM_STS_FSYNC_OK 0 s)) &&
        rdb (setFtm { s.ftm with agreeFs := none } (wr .ftm F.FTM_STS_FSYNC_OK 0 s)) .ftm F.FTM_STS_RING_OK) = true := by
      simpa (disch := decide) only [ringSel, rdb, rd_setFtm, rd_wr_place, Bool.and_eq_true] using And.intro hring hrok
    have hrun : fsyncLost s = setFtm { s.ftm with agreeFs := none } (wr .ftm F.FTM_STS_FSYNC_OK 0 s) := by
      simpa [fsyncLost, hsel, hset, hok, Nat.not_lt.mpr hlim] using ftmLost_of_good (.inr hgood)
    simp (disch := decide) [hrun, rdb, rd_wr_place]
  case ring =>
    intro s hsel hset hok hmiss hfs hfok
    refine ⟨settled s.pending (ringLost s), rfl, ?_⟩
    have hgood : (fsSel (setFtm { s.ftm with agreeRing := none } (wr .ftm F.FTM_STS_RING_OK 0 s)) &&
        rdb (setFtm { s.ftm with agreeRing := none } (wr .ftm F.FTM_STS_RING_OK 0 s)) .ftm F.FTM_STS_FSYNC_OK) = true := by
      simpa (disch := decide) only [fsSel, rdb, rd_setFtm, rd_wr_place, Bool.and_eq_true] using And.intro hfs hfok
    have hrun : ringLost s = setFtm { s.ftm with agreeRing := none } (wr .ftm F.FTM_STS_RING_OK 0 s) := by
      simpa [ringLost, hsel, hset, hok, Nat.not_lt.mpr hmiss] using ftmLost_of_good (.inl hgood)
    simp (disch := decide) [hrun, rdb, rd_wr_place]
  case config =>
    intro s v hdue htakes hstop hsrc hv hok
    refine ⟨settled s.pending (dueThen (regGate .ftm (ftmCfgWrite v.toNat allBits)) s), rfl, ?_⟩
    obtain ⟨x, hput⟩ := putReg_ftmCfg_both hstop hv
    have hnew : rd (wr .ftm F.FTM_CFG_SRC 0 (wr .ftm F.FTM_CFG_MISS_LIM x s)) .ftm F.FTM_CFG_SRC = 0 := rd_wr_same ..
    have hrun : ftmCfgWrite v.toNat allBits s = reselect 1 (wr .ftm F.FTM_CFG_SRC 0 (wr .ftm F.FTM_CFG_MISS_LIM x s)) := by
      simp [ftmCfgWrite, hsrc, hput, hnew]
    rw [dueThen_of_noneDue _ hdue, regGate_of_takes _ htakes, hrun, reselect_ring_to_both hnew]
    refine ⟨?_, fsyncChosen_ok _, rfl, settleMiss_time _⟩
    rw [rd_settled, rd_fsyncChosen_src, hnew]

/-! ### Acceptance by the schedule table (02 R39, Table 2.3) -/

/-- A table that is not full leaves an index free. -/
theorem exists_unused_index {l : List SchedEnt} (h : l.length < 256) : ∃ i, i < 256 ∧ ∀ e ∈ l, e.idx ≠ i := by
  have hcard : (l.map (·.idx)).toFinset.card < (Finset.range 256).card := by
    have := List.toFinset_card_le (l.map (·.idx))
    rw [List.length_map] at this
    rw [Finset.card_range]
    omega
  obtain ⟨i, hi, hn⟩ := Finset.exists_mem_notMem_of_card_lt_card hcard
  exact ⟨i, Finset.mem_range.mp hi, fun e he hei => hn (by simpa using ⟨e, he, hei⟩)⟩

/-- The search from any start comes to every index. -/
theorem mem_search_order (start : Nat) {i : Nat} (h : i < 256) : i ∈ (List.range 256).map fun k => (start + k) % 256 := by
  refine List.mem_map.mpr ⟨(i + 256 - start % 256) % 256, List.mem_range.mpr (Nat.mod_lt _ (by omega)), ?_⟩
  omega

theorem schedFree_of_room {s : State} (h : s.sched.length < 256) :
    ∃ i, schedFree s = some i ∧ i < 256 ∧ ∀ e ∈ s.sched, e.idx ≠ i := by
  obtain ⟨i, hi, hfree⟩ := exists_unused_index h
  have hsome : (schedFree s).isSome := List.find?_isSome.mpr ⟨i, mem_search_order _ hi, by simpa using hfree⟩
  obtain ⟨j, hj⟩ := Option.isSome_iff_exists.mp hsome
  have hj256 : j < 256 := by
    obtain ⟨k, -, hk⟩ := List.mem_map.mp (List.mem_of_find?_eq_some hj)
    exact hk ▸ Nat.mod_lt _ (by omega)
  exact ⟨j, hj, hj256, by simpa using List.find?_some hj⟩

/-- What passes every row of the table is judged acceptable. -/
theorem schedJudge_of_good {s : State} {inst : Nat} (hset : rd s .ftm F.FTM_STS_STATE ≠ 0) (hlate : s.time + 512 ≤ inst)
    (hfar : inst ≤ s.time + 2 ^ 32) (hroom : s.sched.length < 256) : schedJudge s inst = none := by
  simp only [schedJudge, hset, Nat.not_lt.mpr hlate, Nat.not_lt.mpr hfar, Nat.not_le.mpr hroom, if_false]

theorem schedAdd_of_refused {s : State} {inst st : Nat} (a : SchedAct) (o : SchedOwner) (h : schedJudge s inst = some st) :
    (schedAdd inst a o s).1 = .inr st := by
  simp [schedAdd, h]

/-- Settles O10: the rows of the table, first to last, and a free index where none of them matches. -/
theorem scheduleAcceptance : Obligations.ScheduleAcceptance := by
  intro s inst a o
  refine ⟨?notSet, ?late, ?far, ?full, ?accepted⟩
  case notSet => exact fun h => schedAdd_of_refused a o (if_pos h)
  case late => exact fun hset h => schedAdd_of_refused a o (by rw [schedJudge, if_neg hset, if_pos h]; rfl)
  case far =>
    intro hset h
    exact schedAdd_of_refused a o (by rw [schedJudge, if_neg hset, if_neg (by omega), if_pos h]; rfl)
  case full =>
    intro hset hlate hfar h
    exact schedAdd_of_refused a o
      (by rw [schedJudge, if_neg hset, if_neg (by omega), if_neg (Nat.not_lt.mpr hfar), if_pos h]; rfl)
  case accepted =>
    intro hset hlate hfar hroom
    obtain ⟨i, hi, hlt, hne⟩ := schedFree_of_room hroom
    have hj := schedJudge_of_good hset hlate hfar hroom
    exact ⟨i, hlt, by simp [schedAdd, hj, hi], hne, by simp [schedAdd, hj, hi]⟩

/-! ### A tick in which nothing of a boundary falls (02 R38) -/

/-- Where no boundary falls and nothing waits, the work of the boundaries is none. -/
theorem boundary_of_none {s : State} (perr : CtrStrikes) (meas : Option (Nat × Nat)) (scrub : List (Nat × Nat)) (h : NoneHeld s)
    (hslot : s.time % 2 ^ 7 ≠ 0) : boundary perr meas scrub s = s := by
  have hep : (s.time % 2 ^ 17 == 0 && s.ftm.epochDone != s.time) = false := by
    rw [beq_false_of_ne (by omega), Bool.false_and]
  have hsl : (s.time % 2 ^ 7 == 0 && s.ftm.slotDone != s.time) = false := by
    rw [beq_false_of_ne hslot, Bool.false_and]
  have hw := noneWaits_of_noneHeld h
  obtain ⟨-, -, hsky⟩ := h
  unfold boundary
  dsimp only
  rw [hep, hsl]
  simp [State.when, parDue_none hw, spdmDue_none hw, skySettle_none (s := s) (by simp [hsky])]

theorem tcsDue_of_no_pend {s : State} (n : Nat) (h : s.maps.pend = []) : tcsDue n s = s := tcsDue_none (by simp [h])

/-- A search that keeps what it has or takes the next one ends with one of the list. -/
theorem mem_of_foldl_pick {α : Type} {f : Option α → α → Option α} (hf : ∀ b x, f b x = b ∨ f b x = some x) {e : α} (l : List α)
    (b : Option α) (h : l.foldl f b = some e) : b = some e ∨ e ∈ l := by
  induction l generalizing b with
  | nil => exact .inl h
  | cons a l ih =>
    rcases ih (f b a) h with hb | hl
    · rcases hf b a with hfa | hfa
      · exact .inl (hfa ▸ hb)
      · exact .inr (by simp [Option.some.inj (hfa.symm.trans hb)])
    · exact .inr (List.mem_cons_of_mem a hl)

theorem schedNext_mem {p : SchedEnt → Bool} {s : State} {e : SchedEnt} (h : schedNext p s = some e) : e ∈ s.sched := by
  refine (mem_of_foldl_pick (fun b x => ?_) _ none h).elim (fun hn => by cases hn) fun he => (List.mem_filter.mp he).1
  cases b with
  | none => exact .inr rfl
  | some y => dsimp only; split_ifs <;> simp

/-- A quantum is committed in the egress scheduler alone. -/
theorem commitQuantum_egr_only (lead tc part v : Nat) (s : State) : ∃ x, commitQuantum lead tc part v s = { s with egr := x } := by
  unfold commitQuantum quantumInForce State.when
  dsimp only
  repeat' split
  all_goals exact ⟨_, rfl⟩

/-! ### The commands of the schedule (02 R34, R38, R41) -/

theorem clockRuns_passTicks (n : Nat) (s : State) : clockRuns (passTicks n s) = clockRuns s := by
  simp [clockRuns]

theorem passTicks_time {s : State} (n : Nat) (h : clockRuns s = true) : (passTicks n s).time = (s.time + n) % 2 ^ 64 := by
  rw [passTicks_of_clock n h]

/-- The entry that is next fires at its instant: where that is no boundary and nothing waits, it alone takes effect there. -/
theorem fireEnt_of_quiet {s : State} {e : SchedEnt} (hclk : clockRuns s = true) (hnow : s.time ≤ e.inst) (hlim : e.inst < 2 ^ 64)
    (hheld : NoneHeld s) (hent : entTime s e = s.time) (hpend : s.maps.pend = []) (hslot : e.inst % 2 ^ 7 ≠ 0) (hmem : e ∈ s.sched) :
    (passTicks (e.inst - s.time) s).time = e.inst ∧ fireEnt e s = schedAction e (passTicks (e.inst - s.time) s) := by
  have hleft : entLeft s e = e.inst - s.time := by rw [entLeft, hent]
  have htime : (passTicks (e.inst - s.time) s).time = e.inst := by
    rw [passTicks_time _ hclk, Nat.add_sub_cancel' hnow, Nat.mod_eq_of_lt hlim]
  have hclk' := (clockRuns_passTicks (e.inst - s.time) s).trans hclk
  have hheld' : NoneHeld (passTicks (e.inst - s.time) s) := by simpa [NoneHeld] using hheld
  have hb := boundary_of_none ⟨[], []⟩ none [] hheld' (by rwa [htime])
  have hsome : (schedEnt (passTicks (e.inst - s.time) s) e.idx).isSome = true :=
    List.find?_isSome.mpr ⟨e, by simpa using hmem, by simp⟩
  refine ⟨htime, ?_⟩
  simp [fireEnt, hclk, hleft, tcsDue_of_no_pend _ hpend, State.when, hclk', hb, hsome]

theorem isLead_congr {s t : State} (h : t.regs = s.regs) (p : Nat) : isLead t p = isLead s p := by
  simp only [isLead, memberOf, ctrlsOf, roleOf, rd_congr h]
  rfl

/-- Settles O8: the three commands of the table by their definitions, and the entry that fires alone at its instant. -/
theorem scheduleCommands : Obligations.ScheduleCommands := by
  refine ⟨?set, ?cancelReg, ?cancelCmd, ?read, ?fire⟩
  case set =>
    intro s c e hcore he hstate hsched htset
    refine ⟨_, congrArg (done s) (byCore_of_coreActs _ hcore), ?_⟩
    rw [timeSet, if_neg (Nat.not_le.mpr he), if_neg hstate, if_neg (by simp [hsched, htset])]
    exact ⟨rfl, rfl, rfl, rfl⟩
  case cancelReg =>
    intro s e htakes hent hearly hown
    refine ⟨_, exec_ftmSchedCancel e.idx htakes, ?_⟩
    simp [schedCancelAt_of_early hent hearly, ownerDone_of_none _ _ _ hown, schedDrop_sched]
  case cancelCmd =>
    intro s e c d op hcore hent hearly hown
    refine ⟨_, exec_schedCancel c e.idx hcore, ?_⟩
    simp [schedCancelAt_of_early hent hearly, ownerDone_of_cmd _ _ _ hown, schedDrop_sched]
  case read =>
    intro s hup
    refine ⟨_, rfl, ?_⟩
    simp [hup, ftmTimeLo, F.FTM_TIME_HI_TIME_HI]
  case fire =>
    intro s e lead part tc q op c hnext hact hown hclk hnow hlim hheld hent hpend hslot hfrozen hlead
    refine ⟨settled s.pending (scheduledCommandFire s), rfl, ?_⟩
    obtain ⟨htime, hfire⟩ := fireEnt_of_quiet hclk hnow hlim hheld hent hpend hslot (schedNext_mem hnext)
    have hfrozen' : frozen (schedDrop e.idx (passTicks (e.inst - s.time) s)) = false := by simpa [frozen] using hfrozen
    have hlead' : isLead (schedDrop e.idx (passTicks (e.inst - s.time) s)) lead = true := (isLead_congr (by simp) lead).trans hlead
    have haction : schedAction e (passTicks (e.inst - s.time) s) =
        quantumDo c lead part tc q (schedDrop e.idx (passTicks (e.inst - s.time) s)) := by
      simp [schedAction, hact, hown, SchedAct.page, actDo, holdsWrites_of_not_frozen _ hfrozen', Option.filter]
    obtain ⟨x, hx⟩ := commitQuantum_egr_only lead tc part q (schedDrop e.idx (passTicks (e.inst - s.time) s))
    simp [scheduledCommandFire, hnext, hfire, haction, quantumDo, hlead', hx, finishAt, htime, schedDrop_sched]

end Sys2Proof.Machine
end

section
/-!
SUPPORT. What the operations of links and lanes read and leave unchanged, and the statements about lanes and power states
(03 R54, R55, R58-R61, R63).
-/
namespace Sys2Proof.Machine

variable {s t : State}

theorem linkOf_congr (h : t.ports = s.ports) (p : Nat) : linkOf t p = linkOf s p := by rw [linkOf, h, linkOf]

theorem laneOf_congr (h : t.ports = s.ports) (n : Nat) : laneOf t n = laneOf s n := by rw [laneOf, h, laneOf]

@[simp] theorem linkOf_wr (pg : Page) (f : Fld) (v p : Nat) : linkOf (wr pg f v s) p = linkOf s p := linkOf_congr rfl p
@[simp] theorem linkOf_wrb (pg : Page) (f : Fld) (b : Bool) (p : Nat) : linkOf (wrb pg f b s) p = linkOf s p := linkOf_congr rfl p
@[simp] theorem linkOf_bump (pg : Page) (f : Fld) (p : Nat) : linkOf (bump pg f s) p = linkOf s p := linkOf_congr rfl p
@[simp] theorem linkOf_settled (q : List Instr) (p : Nat) : linkOf (settled q s) p = linkOf s p := linkOf_congr (by simp) p
@[simp] theorem linkOf_advanceTo (n p : Nat) : linkOf (advanceTo n s) p = linkOf s p := linkOf_congr (by simp) p
@[simp] theorem linkOf_setLane (n : Nat) (l : LaneS) (p : Nat) : linkOf (setLane n l s) p = linkOf s p := linkOf_congr rfl p
@[simp] theorem linkOf_modLink_same (p : Nat) (f : LinkS → LinkS) : linkOf (modLink p f s) p = f (linkOf s p) := tget_tput_same ..

@[simp] theorem laneOf_wr (pg : Page) (f : Fld) (v n : Nat) : laneOf (wr pg f v s) n = laneOf s n := laneOf_congr rfl n
@[simp] theorem laneOf_wrb (pg : Page) (f : Fld) (b : Bool) (n : Nat) : laneOf (wrb pg f b s) n = laneOf s n := laneOf_congr rfl n
@[simp] theorem laneOf_bump (pg : Page) (f : Fld) (n : Nat) : laneOf (bump pg f s) n = laneOf s n := laneOf_congr rfl n
@[simp] theorem laneOf_settled (q : List Instr) (n : Nat) : laneOf (settled q s) n = laneOf s n := laneOf_congr (by simp) n
@[simp] theorem laneOf_advanceTo (m n : Nat) : laneOf (advanceTo m s) n = laneOf s n := laneOf_congr (by simp) n
@[simp] theorem laneOf_modLink (p : Nat) (f : LinkS → LinkS) (n : Nat) : laneOf (modLink p f s) n = laneOf s n := laneOf_congr rfl n
@[simp] theorem laneOf_setLane_same (n : Nat) (l : LaneS) : laneOf (setLane n l s) n = l := tget_tput_same ..
theorem laneOf_setLane_ne {m n : Nat} (l : LaneS) (h : m ≠ n) : laneOf (setLane n l s) m = laneOf s m := tget_tput_other _ _ _ _ h.symm

theorem laneOf_setLane (m n : Nat) (l : LaneS) : laneOf (setLane n l s) m = if m = n then l else laneOf s m := by
  split
  · subst m; exact laneOf_setLane_same n l
  · exact laneOf_setLane_ne l ‹_›

/-- A command that waits for what is due, with nothing due and the module not frozen. -/
theorem dueThen_unfrozen (f : State → State) (hdue : NoneDue s) (hfrozen : frozen s = false) : dueThen (unfrozen f) s = f s := by
  simp [dueThen_of_noneDue _ hdue, unfrozen, hfrozen]

/-- A property of states that no member of a list changes is kept by the whole. -/
theorem each_keeps {α β : Type} (φ : State → β) {l : List α} {f : α → State → State} (h : ∀ a ∈ l, ∀ u, φ (f a u) = φ u)
    (s : State) : φ (s.each l f) = φ s := by
  induction l generalizing s with
  | nil => rfl
  | cons a l ih => exact (ih (fun b hb => h b (List.mem_cons_of_mem a hb)) (f a s)).trans (h a List.mem_cons_self s)

theorem endScan_of_none {p r : Nat} (h : s.ports.scans = []) : endScan p r s = s := by simp [endScan, h]

@[simp] theorem loseResvIf_ports (q : Resv → Bool) (st : ResvSt) : (loseResvIf q st s).ports = s.ports := rfl
@[simp] theorem loseResvIf_regs (q : Resv → Bool) (st : ResvSt) : (loseResvIf q st s).regs = s.regs := rfl
@[simp] theorem loseResvIf_tick (q : Resv → Bool) (st : ResvSt) : (loseResvIf q st s).tick = s.tick := rfl
@[simp] theorem rd_loseResvIf (q : Resv → Bool) (st : ResvSt) (pg : Page) (f : Fld) : rd (loseResvIf q st s) pg f = rd s pg f := rfl
@[simp] theorem linkOf_loseResvIf (q : Resv → Bool) (st : ResvSt) (p : Nat) : linkOf (loseResvIf q st s) p = linkOf s p := linkOf_congr rfl p
@[simp] theorem laneOf_loseResvIf (q : Resv → Bool) (st : ResvSt) (n : Nat) : laneOf (loseResvIf q st s) n = laneOf s n := laneOf_congr rfl n

@[simp] theorem rd_bump_same (pg : Page) (f : Fld) : rd (bump pg f s) pg f = min (rd s pg f + 1) (2 ^ f.width - 1) := rd_bumpBy_same ..

theorem modLink_ports_congr (h : t.ports = s.ports) (p : Nat) (f : LinkS → LinkS) : (modLink p f t).ports = (modLink p f s).ports := by
  simp only [modLink, setLink, linkOf_congr h, h]

/-- The status fields and the record of a link that moves to a phase. -/
def putPhase (p : Nat) (ph : Phase) (st : Nat) (s : State) : State :=
  s |> modLink p (fun l => { l with phase := ph }) |> wrb (.phy p) F.PHY_LINK_STS_UP (ph == .l0)
    |> wr (.phy p) F.PHY_LINK_STS_TX_STATE st |> wr (.phy p) F.PHY_LINK_STS_RX_STATE st

@[simp] theorem putPhase_scans (p st : Nat) (ph : Phase) : (putPhase p ph st s).ports.scans = s.ports.scans := rfl
@[simp] theorem putPhase_waits (p st : Nat) (ph : Phase) : (putPhase p ph st s).ports.waits = s.ports.waits := rfl
@[simp] theorem putPhase_tick (p st : Nat) (ph : Phase) : (putPhase p ph st s).tick = s.tick := rfl
@[simp] theorem laneOf_putPhase (p st n : Nat) (ph : Phase) : laneOf (putPhase p ph st s) n = laneOf s n := laneOf_congr rfl n
@[simp] theorem linkOf_putPhase_same (p st : Nat) (ph : Phase) : linkOf (putPhase p ph st s) p = { linkOf s p with phase := ph } := by
  simp [putPhase]

theorem rd_putPhase {p st : Nat} {ph : Phase} {pg : Page} {f : Fld}
    (hf : f.off * 8 + f.lo < 0x8000 ∧ f.off * 8 + f.lo ≠ F.PHY_LINK_STS_UP.off * 8 + F.PHY_LINK_STS_UP.lo ∧
      f.off * 8 + f.lo ≠ F.PHY_LINK_STS_TX_STATE.off * 8 + F.PHY_LINK_STS_TX_STATE.lo ∧
      f.off * 8 + f.lo ≠ F.PHY_LINK_STS_RX_STATE.off * 8 + F.PHY_LINK_STS_RX_STATE.lo) :
    rd (putPhase p ph st s) pg f = rd s pg f := by
  obtain ⟨hlt, hup, htx, hrx⟩ := hf
  rw [putPhase, rd_wr_place _ _ ⟨by decide, hlt, hrx.symm⟩, rd_wr_place _ _ ⟨by decide, hlt, htx.symm⟩, wrb,
    rd_wr_place _ _ ⟨by decide, hlt, hup.symm⟩, rd_modLink]

/-- The reservations on the lines of a link are lost. -/
def loseLink (p : Nat) (s : State) : State := loseResvIf (fun r => r.line.out == p) .lostError s

@[simp] theorem loseLink_ports (p : Nat) : (loseLink p s).ports = s.ports := rfl
@[simp] theorem loseLink_tick (p : Nat) : (loseLink p s).tick = s.tick := rfl
@[simp] theorem loseLink_regs (p : Nat) : (loseLink p s).regs = s.regs := rfl
@[simp] theorem rd_loseLink (p : Nat) (pg : Page) (f : Fld) : rd (loseLink p s) pg f = rd s pg f := rfl
@[simp] theorem linkOf_loseLink (p q : Nat) : linkOf (loseLink p s) q = linkOf s q := linkOf_congr rfl q
@[simp] theorem laneOf_loseLink (p n : Nat) : laneOf (loseLink p s) n = laneOf s n := laneOf_congr rfl n

theorem each_endScan_of_none {r : Nat} (l : List Nat) (h : s.ports.scans = []) : s.each l (fun p => endScan p r) = s := by
  induction l with
  | nil => rfl
  | cons p l ih => exact (congrArg (State.each l _) (endScan_of_none h)).trans ih

theorem setPhase_l0 (p : Nat) : setPhase p .l0 s = putPhase p .l0 0 s := by
  simp [setPhase, putPhase, State.when]

/-- TX_STATE and RX_STATE of a link in a phase (03 Table 3.3). -/
def phaseCode : Phase → Nat
  | .off => 4
  | .l0 => 0
  | _ => 5

theorem setPhase_of_ne_l0 {p : Nat} {ph : Phase} (hph : ph ≠ .l0) (hscan : s.ports.scans = []) :
    setPhase p ph s = (putPhase p ph (phaseCode ph) s).when (linkUp s p) (loseLink p) := by
  have hleft : ((linkOf s p).phase == .l0 && ph != .l0) = linkUp s p := by
    rw [bne_iff_ne.mpr hph, Bool.and_true, linkUp]
    exact beq_eq_decide _ _
  unfold setPhase
  dsimp only
  rw [hleft, if_neg hph]
  cases linkUp s p <;> exact each_endScan_of_none _ hscan

theorem laneReadmit_of_not_asked {p : Nat} (h : rd s (.phy p) F.PHY_LINK_CTL_LANE_CLR = 0) : laneReadmit p s = s := if_pos h

@[simp] theorem linkOf_laneReadmit (p q : Nat) : linkOf (laneReadmit p s) q = linkOf s q := by
  unfold laneReadmit
  split
  · rfl
  · exact each_keeps (linkOf · q) (fun _ _ _ => linkOf_setLane ..) _

@[simp] theorem laneReadmit_tick (p : Nat) : (laneReadmit p s).tick = s.tick := by
  unfold laneReadmit
  split
  · rfl
  · exact each_keeps State.tick (fun _ _ _ => setLane_tick ..) _

/-- The record of a link as it enters Recovery. -/
def LinkS.recovering (tick lanes : Nat) (l : LinkS) : LinkS :=
  { l with recAt := tick, recW := lanes, exTx := false, exRx := false, rxW := 0, txW := 0, sending := [] }

/-- A link in L0 with no scan running enters Recovery. -/
theorem enterRecovery_of_up {p : Nat} (hup : linkUp s p = true) (hscan : s.ports.scans = []) :
    enterRecovery p s = modLink p (.recovering s.tick (rxLanes s p))
      (wr (.phy p) F.PHY_LINK_CTL_RETRAIN 0 (laneReadmit p (loseLink p (putPhase p .recovery 5 s)))) := by
  have hphase : setPhase p .recovery s = loseLink p (putPhase p .recovery 5 s) := by
    rw [setPhase_of_ne_l0 (by decide) hscan, hup]
    rfl
  rw [enterRecovery, if_pos hup, hphase]
  rfl

theorem laneLead_congr (hregs : t.regs = s.regs) (n : Nat) : laneLead t n = laneLead s n := by
  simp only [laneLead, leadOf, memberOf, roleOf, ctrlsOf, rd_congr hregs]
  rfl

theorem expectedActive_congr (hregs : t.regs = s.regs) (hports : t.ports = s.ports) (n : Nat) :
    expectedActive t n = expectedActive s n := by
  simp only [expectedActive, laneLead_congr hregs, roleOf, linkUp, linkOf_congr hports, logicalLane, rxLanes, rd_congr hregs]
  rfl

theorem keepBlock_congr {p : Nat} (hwidth : rd t (.phy p) F.PHY_LINK_CFG_WIDTH = rd s (.phy p) F.PHY_LINK_CFG_WIDTH)
    (hrev : rd t (.phy p) F.PHY_LINK_CFG_LANE_REV_EN = rd s (.phy p) F.PHY_LINK_CFG_LANE_REV_EN)
    (hfar : (linkOf t p).far = (linkOf s p).far) (hlanes : ∀ n, (laneOf t n).failed = (laneOf s n).failed) (w : Nat) :
    keepBlock t p w = keepBlock s p w := by
  simp only [keepBlock, rdb, hrev, hfar, failedLanes, lanesAt, ctrlsOf, hwidth, hlanes]
  rfl

/-- A link in L0 in Recovery, with no lane to take back. -/
def recovered (p : Nat) (s : State) : State :=
  modLink p (.recovering s.tick (rxLanes s p)) (wr (.phy p) F.PHY_LINK_CTL_RETRAIN 0 (loseLink p (putPhase p .recovery 5 s)))

@[simp] theorem recovered_tick (p : Nat) : (recovered p s).tick = s.tick := rfl
@[simp] theorem laneOf_recovered (p n : Nat) : laneOf (recovered p s) n = laneOf s n := laneOf_congr rfl n
@[simp] theorem linkOf_recovered (p : Nat) :
    linkOf (recovered p s) p = .recovering s.tick (rxLanes s p) { linkOf s p with phase := .recovery } := by
  rw [recovered, linkOf_modLink_same, linkOf_wr, linkOf_loseLink, linkOf_putPhase_same]

theorem rd_recovered {p : Nat} {pg : Page} {f : Fld}
    (hf : f = F.PHY_LINK_CFG_WIDTH ∨ f = F.PHY_LINK_CFG_LANE_REV_EN ∨ f = F.ERR_MASK_MASK ∨ f = F.PHY_LINK_CTL_LANE_CLR) :
    rd (recovered p s) pg f = rd s pg f := by
  rcases hf with rfl | rfl | rfl | rfl <;>
    rw [recovered, rd_modLink, rd_wr_place _ _ (by decide), rd_loseLink, rd_putPhase (by decide)]

theorem enterRecovery_eq_recovered {p : Nat} (hup : linkUp s p = true) (hscan : s.ports.scans = [])
    (hclr : rd s (.phy p) F.PHY_LINK_CTL_LANE_CLR = 0) : enterRecovery p s = recovered p s := by
  have hclr' : rd (loseLink p (putPhase p .recovery 5 s)) (.phy p) F.PHY_LINK_CTL_LANE_CLR = 0 := by
    rw [rd_loseLink, putPhase]
    simpa (disch := decide) [wrb, rd_wr_place] using hclr
  rw [enterRecovery_of_up hup hscan, laneReadmit_of_not_asked hclr', recovered]

/-- A lane is declared failed. -/
def loseLane (n p : Nat) (s : State) : State :=
  s |> setLane n { laneOf s n with failed := true, sFail := true, since := none } |> wr (.phy p) F.PHY_LINK_STS_DEGRADED 1

theorem rd_loseLane {n p : Nat} {pg : Page} {f : Fld}
    (hf : f.off * 8 + f.lo < 0x8000 ∧ F.PHY_LINK_STS_DEGRADED.off * 8 + F.PHY_LINK_STS_DEGRADED.lo ≠ f.off * 8 + f.lo) :
    rd (loseLane n p s) pg f = rd s pg f := by
  rw [loseLane, rd_wr_place _ _ ⟨by decide, hf⟩, rd_setLane]

@[simp] theorem loseLane_tick (n p : Nat) : (loseLane n p s).tick = s.tick := rfl
@[simp] theorem linkOf_loseLane (n p q : Nat) : linkOf (loseLane n p s) q = linkOf s q := linkOf_congr rfl q
@[simp] theorem laneOf_loseLane_same (n p : Nat) :
    laneOf (loseLane n p s) n = { laneOf s n with failed := true, sFail := true, since := none } := by simp [loseLane]

theorem laneOf_loseLane_failed (n p m : Nat) :
    (laneOf (loseLane n p (recovered p s)) m).failed = (laneOf (setLane n { laneOf s n with failed := true } s) m).failed := by
  by_cases h : m = n
  · subst h
    simp
  · simp [loseLane, laneOf_setLane_ne _ h]

/-- A lane of a link in L0 fails while a block of lanes is left: Recovery, without an assertion of the masked source. -/
theorem laneFail_of_spare {n p : Nat} (hp : laneLead s n = p) (hfail : (laneOf s n).failed = false) (hup : linkUp s p = true)
    (hscan : s.ports.scans = []) (hclr : rd s (.phy p) F.PHY_LINK_CTL_LANE_CLR = 0)
    (hmask : srcMasked s (portSrcNo p 0) = true)
    (hkeep : (keepBlock (setLane n { laneOf s n with failed := true } s) p (linkOf s p).fullW).isSome = true) :
    laneFail n s = loseLane n p (recovered p s) := by
  have hlane : (keepBlock (loseLane n p (recovered p s)) p (linkOf s p).fullW).isSome = true := by
    rw [keepBlock_congr (s := setLane n { laneOf s n with failed := true } s)]
    · exact hkeep
    · rw [rd_loseLane (by decide), rd_recovered (.inl rfl), rd_setLane]
    · rw [rd_loseLane (by decide), rd_recovered (.inr (.inl rfl)), rd_setLane]
    · rw [linkOf_loseLane, linkOf_recovered, linkOf_setLane]; rfl
    · exact laneOf_loseLane_failed n p
  have hmasked : srcMasked (loseLane n p (recovered p s)) (portSrcNo p 0) = true := by
    rw [srcMasked_congr (s := s)]
    · exact hmask
    · intro pg
      rw [rd_loseLane (by decide), rd_recovered (.inr (.inr (.inl rfl)))]
  unfold laneFail
  rw [hp, if_neg (by simp [hfail])]
  dsimp only
  rw [enterRecovery_eq_recovered hup hscan hclr]
  exact (congrArg (raise _ none none) (if_pos (Bool.or_eq_true_iff.mpr (.inl hlane)))).trans (raise_of_masked none hmasked)

/-- Settles O14: each detector's step sets the lane's record and one counter; the timer's end is `laneFail_of_spare`. -/
theorem laneHealth : Obligations.LaneHealth := by
  refine ⟨?los, ?lol, ?fail, ?back⟩
  case los =>
    intro s n hdue hfrozen hact hlos heven
    refine ⟨_, congrArg (done s) (dueThen_unfrozen _ hdue hfrozen), ?_⟩
    simp +contextual [laneLos, watched, hact, hlos, heven, laneOf_setLane_ne, F.PHY_LANE_CNT0_LOS_CNT.eq_1]
  case lol =>
    intro s n hdue hfrozen hact hlol hodd hlim
    refine ⟨_, congrArg (done s) (dueThen_unfrozen _ hdue hfrozen), ?_⟩
    simp +contextual [laneLol, watched, hact, hlol, hodd, hlim, laneOf_setLane_ne, F.PHY_LANE_CNT1_LOL_CNT.eq_1]
  case fail =>
    intro s n k hdue hfrozen hsince hclk hact hfail hscan hmask hclr hkeep
    generalize hN : k + rd s (.phy (laneLead s n)) F.PHY_LANE_FAIL_TMO = N at *
    have hlead : laneLead (advanceTo N s) n = laneLead s n := laneLead_congr (by simp) n
    have hact' : expectedActive (advanceTo N s) n = true := (expectedActive_congr (by simp) (by simp) n).trans hact
    have hup : linkUp s (laneLead s n) = true := by
      simp only [expectedActive, Bool.and_eq_true] at hact
      exact hact.1.1.2
    have hrun : laneFailTimeout n s = loseLane n (laneLead s n) (recovered (laneLead s n) (advanceTo N s)) := by
      rw [laneFailTimeout, hsince]
      dsimp only
      rw [hN, atDue_none hdue (.inr hclk), watched, hact', laneOf_advanceTo, hsince, Bool.true_or, decide_eq_true rfl]
      refine laneFail_of_spare hlead ?_ ?_ ?_ ?_ ?_ ?_
      · simpa using hfail
      · simpa [linkUp] using hup
      · simpa using hscan
      · simpa using hclr
      · rwa [srcMasked_congr _ fun pg => rd_advanceTo _ N pg _]
      · rw [linkOf_advanceTo, keepBlock_congr (s := setLane n { laneOf s n with failed := true } s), hkeep] <;>
          simp [laneOf_setLane]
    refine ⟨settled s.pending (laneFailTimeout n s), congrArg (done s) (if_neg (by simp [hfrozen])), ?_⟩
    rw [hrun]
    simp [advanceTo_tick N hclk, LinkS.recovering]
  case back =>
    intro s n hdue hfrozen
    refine ⟨_, congrArg (done s) (dueThen_unfrozen _ hdue hfrozen), ?_⟩
    simp +contextual [laneSignalRestored, laneOf_setLane_ne]

@[simp] theorem noteIdle_regs (p : Nat) : (noteIdle p s).regs = s.regs := each_keeps State.regs (by intros; rfl) s
@[simp] theorem noteIdle_tick (p : Nat) : (noteIdle p s).tick = s.tick := each_keeps State.tick (by intros; rfl) s
@[simp] theorem rd_noteIdle (p : Nat) (pg : Page) (f : Fld) : rd (noteIdle p s) pg f = rd s pg f := rd_congr (noteIdle_regs p) pg f
@[simp] theorem linkOf_noteIdle (p q : Nat) : linkOf (noteIdle p s) q = linkOf s q :=
  each_keeps (linkOf · q) (fun _ _ _ => linkOf_setLane ..) s

/-- What a replay from cells that read clean keeps: all that neither the link's record but for its replay, REPLAYING, an output nor a
counter shows. -/
structure KeptByReplay {β : Type} (p : Nat) (φ : State → β) : Prop where
  link : ∀ g u, (∀ l : LinkS, (g l).exTx = l.exTx) → φ (modLink p g u) = φ u
  sts : ∀ v u, φ (wr (.lnk p) F.LNK_STS_REPLAYING v u) = φ u
  out : ∀ o u, φ (State.say o u) = φ u
  ctr : ∀ k n u, φ (addCtr k n u) = φ u

theorem resendOne_keeps {β : Type} {p : Nat} {φ : State → β} (h : KeptByReplay p φ) (e : REnt) (s : State) :
    φ (resendOne p .clean e s) = φ s := by
  unfold resendOne
  cases cellOf s e.cell with
  | none => rfl
  | some c =>
    simp [CellRead.clean, judgeData, badWordsOf, State.when]
    have hslot : ∀ cls u, φ (countSlot p cls u) = φ u := fun cls u => (h.ctr ..).trans (h.ctr ..)
    rw [h.link, each_keeps φ fun _ _ => hslot _, sayFlit, h.out]
    exact fun _ => rfl

theorem resend_keeps {β : Type} {p : Nat} {φ : State → β} (h : KeptByReplay p φ) (seen : List Nat) (es : List REnt) (s : State) :
    φ (resend p [] seen es s) = φ s := by
  induction es generalizing seen s with
  | nil => exact (h.sts ..).trans (h.link _ _ fun _ => rfl)
  | cons e es ih =>
    unfold resend
    cases cellOf s e.cell with
    | none => exact ih seen s
    | some c =>
      dsimp only
      split
      · exact (h.sts ..).trans (h.link _ _ fun _ => rfl)
      · have hread : (([].find? fun x : Nat × CellRead => x.1 == e.cell).map (·.2)).getD .clean = CellRead.clean := rfl
        have hnote : ∀ b u, State.when b (noteData c .clean) u = u := by intro b u; cases b <;> rfl
        rw [hread, hnote, hnote, ih, resendOne_keeps h]

theorem resumeReplay_keeps {β : Type} {p : Nat} {φ : State → β} (h : KeptByReplay p φ) (s : State) : φ (resumeReplay p s) = φ s := by
  unfold resumeReplay
  cases (linkOf s p).resume with
  | none => rfl
  | some q =>
    dsimp only
    split
    · exact resend_keeps h ..
    · rfl

theorem addCtr_ports (k n : Nat) (s : State) : (addCtr k n s).ports = s.ports := by
  obtain ⟨x, hx⟩ := addCtr_tel_only k n s
  rw [hx]

theorem rd_addCtr (k n : Nat) (s : State) (pg : Page) (f : Fld) : rd (addCtr k n s) pg f = rd s pg f := by
  obtain ⟨x, hx⟩ := addCtr_tel_only k n s
  rw [hx]
  rfl

theorem rd_keptByReplay (p : Nat) (pg : Page) {f : Fld} (hf : f.off * 8 + f.lo < 0x8000 ∧
    F.LNK_STS_REPLAYING.off * 8 + F.LNK_STS_REPLAYING.lo ≠ f.off * 8 + f.lo) : KeptByReplay p (rd · pg f) where
  link _ _ _ := rfl
  sts v u := rd_wr_place v u ⟨by decide, hf⟩
  out _ _ := rfl
  ctr k n u := rd_addCtr ..

theorem exTx_keptByReplay (p : Nat) : KeptByReplay p (fun s => (linkOf s p).exTx) where
  link g u h := by rw [linkOf_modLink_same, h]
  sts _ _ := by rw [linkOf_wr]
  out _ _ := rfl
  ctr k n u := congrArg LinkS.exTx (linkOf_congr (addCtr_ports ..) p)

/-- Settles O15: each step by its condition; a replay that an exit lets go on changes neither state. -/
theorem linkPowerStates : Obligations.LinkPowerStates := by
  refine ⟨?narrow, ?l0p, ?dozeIn, ?dozeOut, ?l1In, ?l1Out, ?exit, ?down⟩
  case narrow =>
    intro s p hdue hfrozen hup hrate hen htx hidle hw
    refine ⟨_, congrArg (done s) (dueThen_unfrozen _ hdue hfrozen), ?_⟩
    rw [narrowEntry, if_pos ⟨hup, hrate, hen, htx, hidle, hw⟩]
    simp (disch := decide) [txState, rxState, rd_wr_place, F.PHY_LINK_STS_TX_STATE.eq_1]
    exact modLink_ports_congr (by simp) p _
  case l0p =>
    intro s p w hdue hfrozen hup hrx hw
    refine ⟨_, congrArg (done s) (dueThen_unfrozen _ hdue hfrozen), ?_⟩
    have hcond : ¬ ((!linkUp s p) = true ∨ 1 < rxState s p) := by simp [hup, hrx]
    rw [l0pRequest, if_neg hcond]
    dsimp only
    rw [if_pos hw]
    simp (disch := decide) [txState, rxState, rd_wr_place]
  case dozeIn =>
    intro s p hdue hfrozen hup hrole hrx
    refine ⟨_, congrArg (done s) (dueThen_unfrozen _ hdue hfrozen), ?_⟩
    have hrun : dozeEntry p true s = wr (.phy p) F.PHY_LINK_STS_RX_STATE 2 s := by simp [dozeEntry, hup, hrole, hrx]
    rw [hrun]
    simp (disch := decide) [txState, rxState, rd_wr_place]
    decide
  case dozeOut =>
    intro s p hdue hfrozen hrx
    refine ⟨_, congrArg (done s) (dueThen_unfrozen _ hdue hfrozen), ?_⟩
    simp [dozeExit, hrx]
  case l1In =>
    intro s p hdue hfrozen hup hrole hen htxIdle hrxIdle htx hrx hready hbusy
    refine ⟨_, congrArg (done s) (dueThen_unfrozen _ hdue hfrozen), ?_⟩
    have hrun : l1Entry p true s = wr (.phy p) F.PHY_LINK_STS_RX_STATE 3 (wr (.phy p) F.PHY_LINK_STS_TX_STATE 3 s) := by
      simp [l1Entry, hup, hrole, hen, htxIdle, hrxIdle, htx, hrx, hready, hbusy]
    rw [hrun]
    simp (disch := decide) [txState, rxState, rd_wr_place]
    decide
  case l1Out =>
    intro s p hdue hfrozen htx
    refine ⟨_, congrArg (done s) (dueThen_unfrozen _ hdue hfrozen), ?_⟩
    rw [txState] at htx
    simp [l1Exit, txState, htx, startExit]
  case exit =>
    intro s p rx hdue hfrozen htx hex
    refine ⟨_, congrArg (done s) (dueThen_unfrozen _ hdue hfrozen), ?_⟩
    rw [powerStateExitDone, if_pos ⟨htx, hex⟩]
    simp only [txState, rxState, rd_settled, linkOf_settled]
    rw [resumeReplay_keeps (rd_keptByReplay p (.phy p) (by decide)), resumeReplay_keeps (rd_keptByReplay p (.phy p) (by decide)),
      resumeReplay_keeps (exTx_keptByReplay p)]
    simp (disch := decide) [rd_wr_place]
  case down =>
    intro s p w rx agree hdue hdown
    have hsame : ∀ f : State → State, f s = s → done s (dueThen (unfrozen f) s) = done s s := by
      intro f hf
      rw [dueThen_of_noneDue _ hdue, unfrozen, hf, ite_self]
    exact ⟨hsame _ (by simp [narrowEntry, hdown]), hsame _ (by simp [l0pRequest, hdown]), hsame _ (by simp [dozeEntry, hdown]),
      hsame _ (by simp [l1Entry, hdown])⟩

theorem putField_rw_good {pg : Page} {f : Fld} {m : Nat} (v : Nat) (s : State) (hacc : f.acc = .rw) (hm : f.of m = 2 ^ f.width - 1)
    (hw : f.of m ≠ 0) (hlo : f.min ≤ f.of v) (hhi : f.of v ≤ f.max) : putField pg v m f s = (false, wr pg f (f.of v) s) := by
  have hclamp : f.clamp (f.of v) = f.of v := by simp [Fld.clamp, Nat.not_lt.mpr hlo, Nat.not_lt.mpr hhi]
  have hbad : f.bad (f.of v) = false := by simp [Fld.bad, hclamp, hlo, hhi]
  simp [putField, hw, hacc, hbad, hclamp, merge_allBits _ _ hm]

/-- A field of all values that its width spells holds what a write of it gives. -/
theorem of_le_max {f : Fld} (h : f.max = 2 ^ f.width - 1) (v : Nat) : f.of v ≤ f.max := by
  rw [h]
  exact Nat.le_sub_one_of_lt (Nat.mod_lt _ (Nat.two_pow_pos _))

theorem of_mod {f : Fld} (v : Nat) : f.of v % 2 ^ f.width = f.of v := Nat.mod_mod ..

/-- The settings of a scan as a value of PHY_MARGIN_CTL spells them. -/
def putMargin (p v : Nat) (s : State) : State :=
  let pg := Page.phy p
  s |> wr pg F.PHY_MARGIN_CTL_LANE (F.PHY_MARGIN_CTL_LANE.of v) |> wr pg F.PHY_MARGIN_CTL_AXIS (F.PHY_MARGIN_CTL_AXIS.of v)
    |> wr pg F.PHY_MARGIN_CTL_DIR (F.PHY_MARGIN_CTL_DIR.of v) |> wr pg F.PHY_MARGIN_CTL_STEPS (F.PHY_MARGIN_CTL_STEPS.of v)
    |> wr pg F.PHY_MARGIN_CTL_DWELL (F.PHY_MARGIN_CTL_DWELL.of v)

theorem putFields_margin {p v : Nat} (hlo : 1 ≤ F.PHY_MARGIN_CTL_STEPS.of v) (hhi : F.PHY_MARGIN_CTL_STEPS.of v ≤ 127)
    (hdwell : 1 ≤ F.PHY_MARGIN_CTL_DWELL.of v) (s : State) :
    putFields (.phy p) v allBits ((Page.phy p).regFields 0x70) s = (false, putMargin p v s) := by
  have hfields : (Page.phy p).regFields 0x70 = [F.PHY_MARGIN_CTL_START, F.PHY_MARGIN_CTL_LANE, F.PHY_MARGIN_CTL_AXIS,
    F.PHY_MARGIN_CTL_DIR, F.PHY_MARGIN_CTL_STEPS, F.PHY_MARGIN_CTL_DWELL] := rfl
  have hstart : ∀ u : State, putField (.phy p) v allBits F.PHY_MARGIN_CTL_START u = (false, u) := fun u => rfl
  simp only [hfields, putFields, hstart]
  rw [putField_rw_good v _ rfl (by decide) (by decide) (Nat.zero_le _) (of_le_max (by decide) v),
    putField_rw_good v _ rfl (by decide) (by decide) (Nat.zero_le _) (of_le_max (by decide) v),
    putField_rw_good v _ rfl (by decide) (by decide) (Nat.zero_le _) (of_le_max (by decide) v),
    putField_rw_good v _ rfl (by decide) (by decide) hlo hhi,
    putField_rw_good v _ rfl (by decide) (by decide) hdwell (of_le_max (by decide) v)]
  rfl

/-- A write of a field leaves those of other registers, also where the other one is not named. -/
theorem rd_wr_off {pg pg' : Page} {f g : Fld} (v : Nat) (s : State)
    (hf : f.off % 4 = 0 ∧ f.off < 0x1000 ∧ f.lo < 32) (hg : g.off % 4 = 0 ∧ g.off < 0x1000 ∧ g.lo < 32) (h : f.off ≠ g.off) :
    rd (wr pg f v s) pg' g = rd s pg' g :=
  rd_wr_place v s (by omega)

theorem rd_putMargin {p v : Nat} {pg : Page} {f : Fld} (hf : f.off % 4 = 0 ∧ f.off < 0x1000 ∧ f.lo < 32) (hoff : 0x70 ≠ f.off)
    (s : State) : rd (putMargin p v s) pg f = rd s pg f := by
  rw [putMargin, rd_wr_off _ _ (by decide) hf hoff, rd_wr_off _ _ (by decide) hf hoff, rd_wr_off _ _ (by decide) hf hoff,
    rd_wr_off _ _ (by decide) hf hoff, rd_wr_off _ _ (by decide) hf hoff]

@[simp] theorem putMargin_ports (p v : Nat) (s : State) : (putMargin p v s).ports = s.ports := rfl
@[simp] theorem putMargin_tick (p v : Nat) (s : State) : (putMargin p v s).tick = s.tick := rfl
@[simp] theorem putMargin_mode (p v : Nat) (s : State) : (putMargin p v s).mode = s.mode := rfl

theorem rd_putMargin_dwell (p v : Nat) (s : State) :
    rd (putMargin p v s) (.phy p) F.PHY_MARGIN_CTL_DWELL = F.PHY_MARGIN_CTL_DWELL.of v := by
  rw [putMargin, rd_wr_same, of_mod]

theorem rd_putMargin_axis (p v : Nat) (s : State) : rd (putMargin p v s) (.phy p) F.PHY_MARGIN_CTL_AXIS = F.PHY_MARGIN_CTL_AXIS.of v := by
  rw [putMargin, rd_wr_place _ _ (by decide), rd_wr_place _ _ (by decide), rd_wr_place _ _ (by decide), rd_wr_same, of_mod]

theorem rd_putMargin_dir (p v : Nat) (s : State) : rd (putMargin p v s) (.phy p) F.PHY_MARGIN_CTL_DIR = F.PHY_MARGIN_CTL_DIR.of v := by
  rw [putMargin, rd_wr_place _ _ (by decide), rd_wr_place _ _ (by decide), rd_wr_same, of_mod]

/-- A link that takes a scan: STOPPED, in L0 and with both directions ACTIVE, in MAINTENANCE. -/
structure TakesScan (s : State) (p : Nat) : Prop where
  mode : s.mode = .maintenance
  run : pageRun s (.phy p) = 2
  up : linkUp s (leadOf s p) = true
  tx : txState s (leadOf s p) = 0
  rx : rxState s (leadOf s p) = 0
  free : scanning s p = false

/-- A value of PHY_MARGIN_CTL that starts a scan. -/
structure StartsScan (v : Nat) : Prop where
  start : F.PHY_MARGIN_CTL_START.of v = 1
  axis : F.PHY_MARGIN_CTL_AXIS.of v ≤ 1
  dir : F.PHY_MARGIN_CTL_DIR.of v ≤ 1
  low : 1 ≤ F.PHY_MARGIN_CTL_STEPS.of v
  high : F.PHY_MARGIN_CTL_STEPS.of v ≤ 127
  dwell : 1 ≤ F.PHY_MARGIN_CTL_DWELL.of v

theorem marginOk_putMargin {p v : Nat} (hs : TakesScan s p) (hv : StartsScan v) : marginOk (putMargin p v s) p = true := by
  have hlead : leadOf (putMargin p v s) p = leadOf s p :=
    leadOf_congr (fun _ => rd_putMargin (by decide) (by decide) s) (fun _ => rd_putMargin (by decide) (by decide) s) p
  have hrun : pageRun (putMargin p v s) (.phy p) = 2 := by
    rw [pageRun, hlead, rd_putMargin (by decide) (by decide)]
    exact hs.run
  have hup : linkUp (putMargin p v s) (leadOf s p) = true := hs.up
  have htx : txState (putMargin p v s) (leadOf s p) = 0 := by
    rw [txState, rd_putMargin (by decide) (by decide)]
    exact hs.tx
  have hrx : rxState (putMargin p v s) (leadOf s p) = 0 := by
    rw [rxState, rd_putMargin (by decide) (by decide)]
    exact hs.rx
  simp [marginOk, hs.mode, hrun, hlead, hup, htx, hrx, rd_putMargin_axis, rd_putMargin_dir, hv.axis, hv.dir]

/-- A scan that a write of PHY_MARGIN_CTL starts. -/
theorem marginWrite_of_start {p v : Nat} (hs : TakesScan s p) (hv : StartsScan v) (ctx : Option Ctx) :
    rd (marginWrite p v allBits ctx s) (.phy p) F.PHY_MARGIN_STS_BUSY = 1 ∧
      (marginWrite p v allBits ctx s).ports.scans = s.ports.scans ++ [⟨p, ctx, 1, s.tick + F.PHY_MARGIN_CTL_DWELL.of v⟩] := by
  have hbegin : F.PHY_MARGIN_CTL_START.of v &&& F.PHY_MARGIN_CTL_START.of allBits ≠ 0 := by
    rw [hv.start]
    decide
  have hfree : scanning (putMargin p v s) p = false := hs.free
  have hrun : marginWrite p v allBits ctx s = marginGo p ctx (putMargin p v s) := by
    rw [marginWrite, putFields_margin hv.low hv.high hv.dwell]
    simp only [State.when, Bool.false_and, Bool.false_eq_true, if_false, if_neg hbegin, hfree]
  rw [hrun, marginGo, marginOk_putMargin hs hv]
  simp (disch := decide) [rd_wr_place, rd_putMargin_dwell]

/-- A scan that ends with errors. -/
def endFailed (p errs : Nat) (s : State) : State :=
  let pg := Page.phy p
  { s with ports := { s.ports with scans := s.ports.scans.filter fun m => m.ctl != p } }
    |> wr pg F.PHY_MARGIN_STS_ERR_CNT (min errs 0xFFFF) |> wr pg F.PHY_MARGIN_STS_BUSY 0 |> wr pg F.PHY_MARGIN_STS_RESULT 1
    |> wr pg F.PHY_MARGIN_CTL_START 0

theorem endFailed_tick (p errs : Nat) : (endFailed p errs s).tick = s.tick := rfl
theorem endFailed_scans (p errs : Nat) : (endFailed p errs s).ports.scans = s.ports.scans.filter fun m => m.ctl != p := rfl

theorem marginStepEnd_of_errors {p errs : Nat} {m : MarginS} (hfind : (s.ports.scans.find? fun x => x.ctl == p) = some m)
    (hctx : m.ctx = none) (herr : errs ≠ 0) (hagain : againNow s (.phy p) F.PHY_MARGIN_CTL_START = false) :
    marginStepEnd p errs s = endFailed p errs s := by
  have hagain' : againNow (wr (.phy p) F.PHY_MARGIN_STS_ERR_CNT (min errs 0xFFFF) s) (.phy p) F.PHY_MARGIN_CTL_START = false := hagain
  simp [marginStepEnd, hfind, herr, marginEnd, hagain', endScan, hctx, completeO, State.when]
  rfl

/-- Settles O16: a scan's start by the two ways of asking for it, a step with errors that ends it, and the answer of a free lane. -/
theorem margining : Obligations.Margining := by
  refine ⟨?start, ?command, ?step, ?answer⟩
  case start =>
    intro s p v hdue htakes hmode hrun hup htx hrx hstart haxis hdir hlow hhigh hdwell hfree
    refine ⟨_, congrArg (done s) ((dueThen_of_noneDue _ hdue).trans (regGate_of_takes _ htakes)), ?_⟩
    simpa using marginWrite_of_start ⟨hmode, hrun, hup, htx, hrx, hfree⟩ ⟨hstart, haxis, hdir, hlow, hhigh, hdwell⟩ none
  case command =>
    intro s c p v hdue hcore hp hmode hrun hup htx hrx hstart haxis hdir hlow hhigh hdwell hfree
    have hcmd : marginCmd c p v s = marginWrite p v.toNat allBits (some c) s := by
      have hfrozen : frozen s = false := by simp [frozen, hmode]
      rw [marginCmd, mirrorGate, holdsWrites_of_not_frozen _ hfrozen, Bool.and_false, if_neg nofun, margin, if_neg (Nat.not_le.mpr hp)]
    refine ⟨_, congrArg (done s) ((dueThen_of_noneDue _ hdue).trans ((byCore_of_coreActs _ hcore).trans hcmd)), ?_⟩
    simpa using marginWrite_of_start ⟨hmode, hrun, hup, htx, hrx, hfree⟩ ⟨hstart, haxis, hdir, hlow, hhigh, hdwell⟩ (some c)
  case step =>
    intro s p errs m hdue hfrozen hclk hfind hctx herr hagain
    have hrun : marginStepDone p errs s = endFailed p errs (advanceTo m.due s) := by
      rw [marginStepDone, hfind]
      exact (atDue_none hdue (.inr hclk) _).trans (marginStepEnd_of_errors (by simpa using hfind) hctx herr hagain)
    refine ⟨settled s.pending (marginStepDone p errs s), congrArg (done s) (if_neg (by simp [hfrozen])), ?_⟩
    rw [hrun]
    refine ⟨?_, ?_, ?_, ?_, ?_⟩
    · rw [settled_tick, endFailed_tick, advanceTo_tick _ hclk]
    · rw [rd_settled, endFailed, rd_wr_place _ _ (by decide), rd_wr_place _ _ (by decide), rd_wr_place _ _ (by decide), rd_wr_same]
      exact Nat.mod_eq_of_lt (Nat.lt_succ_of_le (Nat.min_le_right ..))
    · rw [rd_settled, endFailed, rd_wr_place _ _ (by decide), rd_wr_same]
      rfl
    · rw [rd_settled, endFailed, rd_wr_place _ _ (by decide), rd_wr_place _ _ (by decide), rd_wr_same]
      rfl
    · rw [scanning, settled_ports, endFailed_scans]
      simp
  case answer =>
    intro s p lane cmd hfrozen hfree
    refine ⟨_, rfl, ?_⟩
    simp [unfrozen, hfrozen, laneMarginCommand, hfree]

end Sys2Proof.Machine
end

section
/-!
SUPPORT. What a completion leaves unchanged on every page, a link that leaves L0 in a quiet module, and the statements about port
configuration and the life of a link (03 R45-R51, R53, R56, R57).
-/
namespace Sys2Proof.Machine

variable {s t : State}

/-- A field that no completion writes on whichever page its queue's addresses fall. -/
abbrev OffQueue (f : Fld) : Prop :=
  f.off % 4 = 0 ∧ f.off < 0x1000 ∧ f.lo < 32 ∧ f.off ≠ 0x20 ∧ f.off ≠ 0x28 ∧ f.off ≠ 0x2C

theorem rd_complete_off (c : Ctx) (op st a b : Nat) {pg : Page} {f : Fld} (hf : OffQueue f) (hpg : (Page.evq 128).base ≠ pg.base)
    (s : State) : rd (complete c op st a b s) pg f = rd s pg f := by
  obtain ⟨h4, hlt, hlo, h20, h28, h2C⟩ := hf
  have hwr : ∀ (g : Fld) (v : Nat) (u : State), g ∈ [F.MQ_Q_STS_CQ_PAUSED, F.MQ_Q_STS_DMA_ERR, F.MQ_Q_CQ_TAIL, F.MQ_QSEQ_CPL_LAST] →
      rd (wr (.mq c.ep c.q) g v u) pg f = rd u pg f := by
    intro g v u hg
    simp only [List.mem_cons, List.not_mem_nil, or_false] at hg
    rcases hg with rfl | rfl | rfl | rfl
    · exact rd_wr_off v u (by decide) ⟨h4, hlt, hlo⟩ (Ne.symm h20)
    · exact rd_wr_off v u (by decide) ⟨h4, hlt, hlo⟩ (Ne.symm h20)
    · exact rd_wr_off v u (by decide) ⟨h4, hlt, hlo⟩ (Ne.symm h28)
    · exact rd_wr_off v u (by decide) ⟨h4, hlt, hlo⟩ (Ne.symm h2C)
  have hpost : ∀ typ l (u : State), rd (post 128 typ l u) pg f = rd u pg f := fun typ l u => rd_post u 128 typ l hpg (by omega)
  have hput : ∀ cpl (u : State), cpl.ctx = c → rd (cqPut cpl u) pg f = rd u pg f := by
    rintro cpl u rfl
    unfold cqPut State.when
    dsimp only
    split <;> simp [hwr]
  have hout : ∀ cpl (u : State), cpl.ctx = c → rd (cplOut cpl u) pg f = rd u pg f := by
    rintro cpl u rfl
    have hmq : ∀ (v : State) (m : Mq), rd { v with mq := m } pg f = rd v pg f := fun _ _ => rfl
    unfold cplOut cqWrite qHalt
    dsimp only
    split_ifs <;> simp [hpost, hput, hmq, hwr]
  unfold complete
  dsimp only
  split
  · exact hpost ..
  · exact hout _ _ rfl

theorem base_evq_ne_phy (p : Nat) : (Page.evq 128).base ≠ (Page.phy p).base := by
  simp only [Page.base, portBase, tileBase, if_true]
  omega

/-! ### The configuration of a link -/

theorem merge_linkCfg (v : Nat) (c : LinkCfg) :
    (⟨F.PHY_LINK_CFG_HPART.merge c.hpart v allBits, F.PHY_LINK_CFG_LANE_REV_EN.merge c.rev v allBits,
      F.PHY_LINK_CFG_MAX_RATE.merge c.rate v allBits, F.PHY_LINK_CFG_WIDTH.merge c.width v allBits,
      F.PHY_LINK_CFG_ROLE.merge c.role v allBits⟩ : LinkCfg) = .of v := by
  rw [merge_allBits _ _ (by decide), merge_allBits _ _ (by decide), merge_allBits _ _ (by decide), merge_allBits _ _ (by decide),
    merge_allBits _ _ (by decide), LinkCfg.of]

/-- A configuration whose values their fields hold. -/
def LinkCfg.Fits (c : LinkCfg) : Prop := c.hpart < 128 ∧ c.rev < 2 ∧ c.rate < 8 ∧ c.width < 8 ∧ c.role < 4

theorem fits_linkCfg_of (v : Nat) : (LinkCfg.of v).Fits :=
  ⟨Nat.mod_lt _ (by decide), Nat.mod_lt _ (by decide), Nat.mod_lt _ (by decide), Nat.mod_lt _ (by decide), Nat.mod_lt _ (by decide)⟩

theorem cfgOf_congr {p : Nat} (h : ∀ f : Fld, f.off = 0x40 → f.lo < 32 → rd t (.phy p) f = rd s (.phy p) f) : cfgOf t p = cfgOf s p := by
  simp only [cfgOf]
  rw [h _ rfl (by decide), h _ rfl (by decide), h _ rfl (by decide), h _ rfl (by decide), h _ rfl (by decide)]

theorem cfgOf_putCfg {p : Nat} {c : LinkCfg} (hc : c.Fits) : cfgOf (putCfg p c s) p = c := by
  obtain ⟨hhpart, hrev, hrate, hwidth, hrole⟩ := hc
  simp (disch := decide) only [cfgOf, putCfg, rd_wr_place, rd_wr_same]
  rw [LinkCfg.mk.injEq]
  exact ⟨Nat.mod_eq_of_lt hhpart, Nat.mod_eq_of_lt hrev, Nat.mod_eq_of_lt hrate, Nat.mod_eq_of_lt hwidth, Nat.mod_eq_of_lt hrole⟩

theorem cfgErr_le (p : Nat) (c : LinkCfg) : cfgErr s p c ≤ 3 := by
  unfold cfgErr
  dsimp only
  split_ifs <;> omega

theorem linkCfgWrite_of_bad {p v : Nat} (hmem : memberOf s p = none) (herr : cfgErr s p (.of v) ≠ 0) :
    linkCfgWrite p v allBits s = (false, reject (.phy p) (wr (.phy p) F.PHY_LINK_STS_CFG_ERR (cfgErr s p (.of v)) s)) := by
  rw [linkCfgWrite, hmem, if_neg nofun]
  dsimp only
  rw [merge_linkCfg v (cfgOf s p), if_pos herr]

theorem linkCfgWrite_of_good {p v : Nat} (hmem : memberOf s p = none) (herr : cfgErr s p (.of v) = 0)
    (hheld : hpartHeld s p (.of v) = false) (hguar : guarSum (putCfg p (.of v) s) (tileOf p) ≤ 49152) :
    linkCfgWrite p v allBits s = (true, applyCfg p (.of v) s) := by
  rw [linkCfgWrite, hmem, if_neg nofun]
  dsimp only
  rw [merge_linkCfg v (cfgOf s p), if_neg (not_not.mpr herr), hheld, if_neg nofun,
    if_neg fun h => Nat.not_lt.mpr hguar h.1]

/-- Settles O12: the first failed condition is named, and nothing else of the configuration is written. -/
theorem portConfigurationRejected : Obligations.PortConfigurationRejected := by
  intro s p v hdue htakes hmem herr
  refine ⟨_, congrArg (done s) ((dueThen_of_noneDue _ hdue).trans (regGate_of_takes _ htakes)), ?_⟩
  rw [phyLinkCfgWrite, linkCfgWrite_of_bad hmem herr]
  refine ⟨?_, ?_, ?_, ?_⟩
  · rw [rd_settled, reject, bump, bumpBy, rd_wr_place _ _ (by decide), rd_wr_place _ _ (by decide), rd_wr_same]
    exact Nat.mod_eq_of_lt (Nat.lt_succ_of_le (cfgErr_le p _))
  · rw [rd_settled, rd_reject]
  · refine cfgOf_congr fun f hoff hlo => ?_
    rw [rd_settled, reject, bump, bumpBy, rd_wr_off _ _ (by decide) (by omega) (by rw [hoff]; decide),
      rd_wr_off _ _ (by decide) (by omega) (by rw [hoff]; decide), rd_wr_off _ _ (by decide) (by omega) (by rw [hoff]; decide)]
  · simp

/-! ### What links that move between phases leave of their registers -/

/-- A field of a port's page that neither a completion, a scan's end nor a link's status is. -/
abbrev OffPhase (f : Fld) : Prop := OffQueue f ∧ 0x70 ≠ f.off ∧ 0x74 ≠ f.off

theorem OffPhase.place {f : Fld} (h : OffPhase f) : f.off % 4 = 0 ∧ f.off < 0x1000 ∧ f.lo < 32 := ⟨h.1.1, h.1.2.1, h.1.2.2.1⟩

theorem OffPhase.status {f : Fld} (h : OffPhase f) : 0x20 ≠ f.off := h.1.2.2.2.1.symm

theorem rd_completeO {c : Option Ctx} {op st a q : Nat} {f : Fld} (hf : OffQueue f) (s : State) :
    rd (completeO c op st a s) (.phy q) f = rd s (.phy q) f := by
  cases c with
  | none => rfl
  | some c => exact rd_complete_off c op st a 0 hf (base_evq_ne_phy q) s

theorem rd_endScan {f : Fld} (p r q : Nat) (hf : OffPhase f) (s : State) : rd (endScan p r s) (.phy q) f = rd s (.phy q) f := by
  unfold endScan
  cases s.ports.scans.find? fun m => m.ctl == p with
  | none => rfl
  | some m =>
    dsimp only
    rw [rd_completeO hf.1, rd_wr_off _ _ (by decide) hf.place hf.2.1, rd_wr_off _ _ (by decide) hf.place hf.2.2,
      rd_wr_off _ _ (by decide) hf.place hf.2.2]
    rfl

theorem rd_setPhase {f : Fld} (p q : Nat) (ph : Phase) (hf : OffPhase f) (s : State) :
    rd (setPhase p ph s) (.phy q) f = rd s (.phy q) f := by
  have hput : ∀ st, rd (putPhase p ph st s) (.phy q) f = rd s (.phy q) f := fun st => by
    rw [putPhase, rd_wr_off _ _ (by decide) hf.place hf.status, rd_wr_off _ _ (by decide) hf.place hf.status, wrb,
      rd_wr_off _ _ (by decide) hf.place hf.status, rd_modLink]
  have hlose : ∀ b st, rd (State.when b (loseLink p) (putPhase p ph st s)) (.phy q) f = rd s (.phy q) f := fun b st => by
    unfold State.when
    split
    · rw [rd_loseLink, hput]
    · exact hput st
  unfold setPhase
  dsimp only
  split
  · exact hlose ..
  · rw [each_keeps (rd · (.phy q) f) fun _ _ u => rd_endScan _ _ q hf u]
    exact hlose ..

theorem rd_laneReadmit {f : Fld} (p q : Nat) (hf : OffPhase f) (hctl : 0x44 ≠ f.off) (s : State) :
    rd (laneReadmit p s) (.phy q) f = rd s (.phy q) f := by
  unfold laneReadmit
  split
  · rfl
  · rw [each_keeps (rd · (.phy q) f) fun _ _ _ => rd_setLane .., rd_wr_off _ _ (by decide) hf.place hf.status, wrb,
      rd_wr_off _ _ (by decide) hf.place hctl]

theorem rd_toDetect {f : Fld} (p q : Nat) (hf : OffPhase f) (hctl : 0x44 ≠ f.off) (h50 : 0x50 ≠ f.off) (h54 : 0x54 ≠ f.off) (s : State) :
    rd (toDetect p s) (.phy q) f = rd s (.phy q) f := by
  have hclear : ∀ n u, rd (u |> wr (.phy n) F.PHY_LANE_CNT0_LOS_CNT 0 |> wr (.phy n) F.PHY_LANE_CNT0_LOL_CNT 0
      |> wr (.phy n) F.PHY_LANE_CNT1_LOS_CNT 0 |> wr (.phy n) F.PHY_LANE_CNT1_LOL_CNT 0) (.phy q) f = rd u (.phy q) f := fun n u => by
    rw [rd_wr_off _ _ (by decide) hf.place h54, rd_wr_off _ _ (by decide) hf.place h54, rd_wr_off _ _ (by decide) hf.place h50,
      rd_wr_off _ _ (by decide) hf.place h50]
  rw [toDetect, each_keeps (rd · (.phy q) f) fun n _ u => hclear n u, rd_modLink, rd_laneReadmit p q hf hctl, rd_setPhase p q _ hf]

theorem offPhase_of_cfg {f : Fld} (hoff : f.off = 0x40) (hlo : f.lo < 32) : OffPhase f := by
  refine ⟨⟨?_, ?_, hlo, ?_⟩, ?_⟩ <;> omega

theorem cfgOf_tryTrain (p q : Nat) : cfgOf (tryTrain p s) q = cfgOf s q := by
  unfold tryTrain
  split
  · exact cfgOf_congr fun f hoff hlo => rd_toDetect p q (offPhase_of_cfg hoff hlo) (by omega) (by omega) (by omega) s
  · rfl

theorem cfgOf_wr {pg : Page} {f : Fld} (v q : Nat) (hf : f.off % 4 = 0 ∧ f.off < 0x1000 ∧ f.lo < 32) (h : f.off ≠ 0x40) :
    cfgOf (wr pg f v s) q = cfgOf s q :=
  cfgOf_congr fun g hoff hlo => rd_wr_off v s hf (by omega) (by omega)

theorem cfgOf_noteDegraded (n p : Nat) : cfgOf (noteDegraded n s) p = cfgOf s p := cfgOf_wr _ _ (by decide) (by decide)

theorem cfgOf_modLink (n p : Nat) (g : LinkS → LinkS) : cfgOf (modLink n g s) p = cfgOf s p :=
  cfgOf_congr fun _ _ _ => rd_modLink ..

/-- Whatever a link was, the configuration that is put in force is the one that its register then holds. -/
theorem cfgOf_applyCfg {p : Nat} {c : LinkCfg} (hc : c.Fits) : cfgOf (applyCfg p c s) p = c := by
  unfold applyCfg
  dsimp only
  split
  · exact cfgOf_putCfg hc
  · rw [cfgOf_tryTrain, each_keeps (cfgOf · p) fun n _ u => cfgOf_wr (f := F.PHY_LINK_STS_DEGRADED) 0 p (by decide) (by decide),
      each_keeps (cfgOf · p) fun n _ u => cfgOf_noteDegraded n p, cfgOf_modLink, cfgOf_putCfg hc]

/-! ### A module that holds nothing -/

theorem Quiet.congr (h : Quiet s) (hcore : t.core.cells = s.core.cells) (hmaps : t.maps = s.maps) (hwab : t.wab = s.wab)
    (hhome : t.home = s.home) (hscans : t.ports.scans = s.ports.scans) (hwaits : t.ports.waits = s.ports.waits) (hdbg : t.dbg = s.dbg) :
    Quiet t := by
  rwa [Quiet, hcore, hmaps, hwab, hhome, hscans, hwaits, hdbg]

theorem alcReport_of_none_found (h : s.home.found = []) : alcReport s = s := by
  unfold alcReport
  rw [h]
  dsimp only [State.each, List.foldl]
  rw [h]
  exact congrArg (fun l => { s with home := { s.home with found := l } }) h.symm

theorem wakeLoq_of_empty (h : s.home.loq = []) : wakeLoq s = s := by simp [wakeLoq, h, State.each]

theorem settle_of_none_held (hio : s.maps.ioWait = []) (hheld : s.maps.held = []) : settle s = s := by
  simp [settle, hio, hheld, settleN]

theorem dbgWake_of_none_waits (h : s.dbg.waiting = none) : dbgWake s = s := by simp [dbgWake, h]

theorem delCheck_of_none_waits (h : s.maps.waits = []) : delCheck s = s := by simp [delCheck, h, State.each]

theorem afterRetire_of_quiet (h : Quiet s) : afterRetire s = s := by
  obtain ⟨-, hio, hheld, -, hwaits, -, -, -, hloq, -, -, -, -, -, hfound, hdbg⟩ := h
  rw [afterRetire, alcReport_of_none_found hfound, wakeLoq_of_empty hloq, settle_of_none_held hio hheld, dbgWake_of_none_waits hdbg,
    delCheck_of_none_waits hwaits]

theorem downCells_of_no_cells (p : Nat) (h : s.core.cells = []) : downCells s p = [] := by simp [downCells, h]

theorem transitLost_of_no_cells (l : List Nat) (h : s.core.cells = []) : transitLost l s = s := by simp [transitLost, h, State.each]

theorem dropLost_of_no_fwds (p : Nat) (l : List Nat) (h : s.maps.fwds = []) : dropLost p l s = s := by
  rw [dropLost, h]
  exact congrArg (fun l => { s with maps := { s.maps with fwds := l } }) h.symm

theorem dropHomes_of_empty (l : List Nat) (h : s.home.loq = []) : dropHomes l s = s := by
  rw [dropHomes, h]
  exact congrArg (fun l => { s with home := { s.home with loq := l } }) h.symm

theorem strand_of_no_ents (b : Bool) (q : WabE → Bool) (h : s.wab.ents = []) : strand b q s = s := by
  rw [strand, h]
  exact congrArg (fun l => { s with wab := { s.wab with ents := l } }) h.symm

theorem freeQueued_of_quiet (p : Nat) (h : Quiet s) : freeQueued p s = s := by
  obtain ⟨hcells, -, -, hfwds, -⟩ := h
  simp [freeQueued, transitLost_of_no_cells, hcells, hfwds, State.each]

theorem linkStopped_of_no_waits (p : Nat) (h : s.ports.waits = []) : linkStopped p s = wr (.phy p) F.BLK_CTL_RUN 2 s := by
  rw [linkStopped, h]
  exact congrArg (fun l => wr (.phy p) F.BLK_CTL_RUN 2 { s with ports := { s.ports with waits := l } }) h.symm

theorem loseLink_of_no_slots (p : Nat) (h : s.home.slots = []) : loseLink p s = s := by
  rw [loseLink, loseResvIf, h]
  exact congrArg (fun l => { s with home := { s.home with slots := l } }) h.symm

/-- With no scan to end and no reservation to lose, a link's phase moves alone. -/
theorem setPhase_of_quiet (p : Nat) (ph : Phase) (h : Quiet s) : setPhase p ph s = putPhase p ph (phaseCode ph) s := by
  obtain ⟨-, -, -, -, -, -, -, -, -, -, -, hslots, hscans, -⟩ := h
  by_cases hph : ph = .l0
  · subst hph
    exact setPhase_l0 p
  · rw [setPhase_of_ne_l0 hph hscans, State.when, loseLink_of_no_slots (s := putPhase p ph (phaseCode ph) s) p hslots, ite_self]

/-- A link that has left L0 or Recovery with nothing of its own in the module. -/
def downed (p : Nat) (ph : Phase) (s : State) : State :=
  putPhase p ph (phaseCode ph) s |> modLink p LinkS.fresh |> dropGrps p
    |> wr (.lnk p) F.LNK_STS_REPLAYING 0 |> wr (.lnk p) F.LNK_SEQ_STS_NEXT_TX 0 |> wr (.lnk p) F.LNK_SEQ_STS_NEXT_RX 0

/-- A link that is QUIESCING as it goes down is STOPPED. -/
def stopDown (p : Nat) (s : State) : State := if rd s (.phy p) F.BLK_CTL_RUN = 1 then wr (.phy p) F.BLK_CTL_RUN 2 s else s

theorem putPhase_quiet (h : Quiet s) (p st : Nat) (ph : Phase) : Quiet (putPhase p ph st s) := h.congr rfl rfl rfl rfl rfl rfl rfl

theorem modLink_quiet (h : Quiet s) (p : Nat) (g : LinkS → LinkS) : Quiet (modLink p g s) := h.congr rfl rfl rfl rfl rfl rfl rfl

theorem wr_quiet (h : Quiet s) (pg : Page) (f : Fld) (v : Nat) : Quiet (wr pg f v s) := h.congr rfl rfl rfl rfl rfl rfl rfl

theorem dropGrps_quiet (h : Quiet s) (p : Nat) : Quiet (dropGrps p s) := by
  refine h.congr ?_ rfl rfl rfl rfl rfl rfl
  obtain ⟨hcells, -⟩ := h
  simp [dropGrps, hcells]

theorem downed_quiet (h : Quiet s) (p : Nat) (ph : Phase) : Quiet (downed p ph s) :=
  wr_quiet (wr_quiet (wr_quiet (dropGrps_quiet (modLink_quiet (putPhase_quiet h ..) ..) p) ..) ..) ..

theorem each_nil {α : Type} (f : α → State → State) (s : State) : s.each [] f = s := rfl

theorem rd_dropGrps (p : Nat) (pg : Page) (f : Fld) : rd (dropGrps p s) pg f = rd s pg f := rfl

theorem rd_downed {p : Nat} {ph : Phase} {pg : Page} {f : Fld} (hf : f.off % 4 = 0 ∧ f.off < 0x1000 ∧ f.lo < 32) (h20 : 0x20 ≠ f.off)
    (h24 : 0x24 ≠ f.off) : rd (downed p ph s) pg f = rd s pg f := by
  rw [downed, rd_wr_off _ _ (by decide) hf h24, rd_wr_off _ _ (by decide) hf h24, rd_wr_off _ _ (by decide) hf h20, rd_dropGrps,
    rd_modLink, putPhase, rd_wr_off _ _ (by decide) hf h20, rd_wr_off _ _ (by decide) hf h20, wrb, rd_wr_off _ _ (by decide) hf h20,
    rd_modLink]

theorem rd_stopDown {p : Nat} {pg : Page} {f : Fld} (hf : f.off % 4 = 0 ∧ f.off < 0x1000 ∧ f.lo < 32) (h8 : 8 ≠ f.off) :
    rd (stopDown p s) pg f = rd s pg f := by
  unfold stopDown
  split
  · exact rd_wr_off _ _ (by decide) hf h8
  · rfl

theorem autoClear_flt_only (n : Nat) (s : State) : ∃ x, autoClear n s = { s with flt := x } := by
  unfold autoClear
  dsimp only
  split_ifs
  · exact ⟨_, rfl⟩
  · exact ⟨s.flt, rfl⟩

theorem closeHandling_flt_only (q : Handling → Bool) (n : Nat) (s : State) : ∃ x, closeHandling q n s = { s with flt := x } := by
  unfold closeHandling
  split
  · obtain ⟨x, hx⟩ := autoClear_flt_only n (modSrc n (fun x => { x with opens := x.opens.filter fun h => !q h }) s)
    exact ⟨x, hx⟩
  · exact ⟨s.flt, rfl⟩

/-- Handling that closes shows in the collector alone. -/
theorem closePort_flt_only (p : Nat) (s : State) : ∃ x, closePort p s = { s with flt := x } := by
  unfold closePort closeAll
  generalize openWith s _ = l
  induction l generalizing s with
  | nil => exact ⟨s.flt, rfl⟩
  | cons n l ih =>
    obtain ⟨x, hx⟩ := closeHandling_flt_only (fun h => h.react == React.port && decide (h.link = some p)) n s
    obtain ⟨y, hy⟩ := ih { s with flt := x }
    exact ⟨y, (congrArg (State.each l _) hx).trans hy⟩

theorem closePort_ports (p : Nat) : (closePort p s).ports = s.ports := by
  obtain ⟨x, hx⟩ := closePort_flt_only p s
  rw [hx]

theorem rd_closePort (p : Nat) (pg : Page) (f : Fld) : rd (closePort p s) pg f = rd s pg f := by
  obtain ⟨x, hx⟩ := closePort_flt_only p s
  rw [hx]
  rfl

theorem closePort_quiet (h : Quiet s) (p : Nat) : Quiet (closePort p s) := by
  obtain ⟨x, hx⟩ := closePort_flt_only p s
  rw [hx]
  exact h.congr rfl rfl rfl rfl rfl rfl rfl

theorem when_closePort_quiet (h : Quiet s) (b : Bool) (p : Nat) : Quiet (s.when b (closePort p)) := by
  cases b
  · exact h
  · exact closePort_quiet h p

theorem stopDown_quiet (h : Quiet s) (p : Nat) : Quiet (stopDown p s) := by
  unfold stopDown
  split
  · exact wr_quiet h ..
  · exact h

theorem goDown_of_quiet {p : Nat} {ph : Phase} (planned : Bool) (h : Quiet s) (hup : linkDown s p = false) (hrole : roleOf s p = 3) :
    goDown p planned ph s = ((stopDown p (downed p ph s)).when (ph == .off) (closePort p)) := by
  have hq : Quiet (downed p ph s) := downed_quiet h p ph
  have hphase : setPhase p ph s = putPhase p ph (phaseCode ph) s := setPhase_of_quiet p ph h
  have hstop : Quiet (stopDown p (downed p ph s)) := stopDown_quiet hq p
  have hrole' : roleOf (stopDown p (downed p ph s)) p = 3 := by
    rw [roleOf, rd_stopDown (by decide) (by decide), rd_downed (by decide) (by decide) (by decide)]
    exact hrole
  obtain ⟨hcells, -, -, hfwds, -, -, hents, -, hloq, -⟩ := h
  have htransit : ∀ l, transitLost l (putPhase p ph (phaseCode ph) s) = putPhase p ph (phaseCode ph) s := fun l =>
    transitLost_of_no_cells l hcells
  have hlost : dropLost p [] (putPhase p ph (phaseCode ph) s) = putPhase p ph (phaseCode ph) s := dropLost_of_no_fwds p [] hfwds
  have hhomes : dropHomes [] (putPhase p ph (phaseCode ph) s) = putPhase p ph (phaseCode ph) s := dropHomes_of_empty [] hloq
  have hstrand : strand true (fun e => e.out == p) (downed p ph s) = downed p ph s := strand_of_no_ents _ _ hents
  have hfree : freeQueued p (downed p ph s) = downed p ph s := freeQueued_of_quiet p hq
  have hwaits : linkStopped p (downed p ph s) = wr (.phy p) F.BLK_CTL_RUN 2 (downed p ph s) := by
    obtain ⟨-, -, -, -, -, -, -, -, -, -, -, -, -, hwaits, -⟩ := hq
    exact linkStopped_of_no_waits p hwaits
  rw [goDown, hup, if_neg nofun]
  simp only [downCells_of_no_cells p hcells, hcells, hfwds, hphase, List.filter_nil, List.map_nil, List.flatMap_nil, List.append_nil,
    each_nil, htransit, hlost, hhomes]
  rw [downed] at hstrand hfree hwaits hrole' hstop
  simp only [hstrand, hfree, hwaits]
  rw [← stopDown, hrole', if_neg (by decide), if_neg (by decide), afterRetire_of_quiet (when_closePort_quiet hstop _ p), downed]

theorem goDown_quiet {p : Nat} {ph : Phase} {planned : Bool} (h : Quiet s) (hrole : roleOf s p = 3) : Quiet (goDown p planned ph s) := by
  cases hdown : linkDown s p
  · rw [goDown_of_quiet planned h hdown hrole]
    exact when_closePort_quiet (stopDown_quiet (downed_quiet h p ph) p) _ p
  · rw [goDown, if_pos hdown]
    exact h

theorem rd_goDown_of_quiet {p : Nat} {ph : Phase} {planned : Bool} {pg : Page} {f : Fld} (h : Quiet s) (hrole : roleOf s p = 3)
    (hf : f.off % 4 = 0 ∧ f.off < 0x1000 ∧ f.lo < 32) (h8 : 8 ≠ f.off) (h20 : 0x20 ≠ f.off) (h24 : 0x24 ≠ f.off) :
    rd (goDown p planned ph s) pg f = rd s pg f := by
  cases hdown : linkDown s p
  · rw [goDown_of_quiet planned h hdown hrole]
    have hstop : rd (stopDown p (downed p ph s)) pg f = rd s pg f := (rd_stopDown hf h8).trans (rd_downed hf h20 h24)
    cases ph == .off
    · exact hstop
    · exact (rd_closePort p pg f).trans hstop
  · rw [goDown, if_pos hdown]

/-! ### PHY_LINK_CTL -/

theorem mirrorGate_of_not_frozen {ok : Bool} {pg : Page} {c : Ctx} {op : Nat} (f : State → State) (h : frozen s = false) :
    mirrorGate ok pg c op f s = f s := by
  rw [mirrorGate, holdsWrites_of_not_frozen _ h, Bool.and_false, if_neg nofun]

theorem cfgOf_settled (q : List Instr) (p : Nat) : cfgOf (settled q s) p = cfgOf s p := cfgOf_congr fun _ _ _ => rd_settled ..

theorem cfgOf_complete (c : Ctx) (op st a b p : Nat) : cfgOf (complete c op st a b s) p = cfgOf s p :=
  cfgOf_congr fun f hoff hlo => rd_complete_off c op st a b (by omega) (base_evq_ne_phy p) s

/-- A write asks for the bit of a field. -/
abbrev asks (f : Fld) (v m : Nat) : Bool := f.of v &&& f.of m != 0

/-- PERST as a write of PHY_LINK_CTL leaves it. -/
abbrev newPerst (p v m : Nat) (s : State) : Nat := F.PHY_LINK_CTL_PERST.merge (rd s (.phy p) F.PHY_LINK_CTL_PERST) v m

/-- What a write of PHY_LINK_CTL that leaves OFF alone does. -/
def ctlWrite (p v m : Nat) (s : State) : State :=
  let s := wr (.phy p) F.PHY_LINK_CTL_PERST (newPerst p v m s) s
  s |> State.when (asks F.PHY_LINK_CTL_LANE_CLR v m && rdb s (.phy p) F.PHY_LINK_CTL_LANE_CLR) (noteAgain (.phy p) F.PHY_LINK_CTL_LANE_CLR)
    |> State.when (asks F.PHY_LINK_CTL_LANE_CLR v m) (wr (.phy p) F.PHY_LINK_CTL_LANE_CLR 1)
    |> State.when (asks F.PHY_LINK_CTL_RETRAIN v m) (enterRecovery p)

theorem linkCtl_of_not_off {p v m : Nat} (hmem : memberOf s p = none) (hm : F.PHY_LINK_CTL_OFF.of m = 0) :
    linkCtl p v m s = ctlWrite p v m s := by
  rw [linkCtl, linkCtlWrite, hmem, if_neg nofun]
  simp only [hm, bne_self_eq_false, Bool.false_and, Bool.false_eq_true, if_false]
  rfl

/-- A write of OFF alone to a STOPPED link takes it down. -/
theorem linkCtl_off {p : Nat} (hmem : memberOf s p = none) (hrun : pageRun s (.phy p) = 2) :
    linkCtl p 8 8 s = (ctlWrite p 8 8 s |> wr (.phy p) F.PHY_LINK_CTL_OFF 1 |> goDown p true .off |> setOff p
            |> modLink p (fun l => { l with retryAt := none })) := by
  have hoff : ∀ old, F.PHY_LINK_CTL_OFF.merge old 8 8 = 1 := fun old => merge_allBits old 8 (by decide)
  have hm : F.PHY_LINK_CTL_OFF.of 8 = 1 ∧ F.PHY_LINK_CTL_LANE_CLR.of 8 = 0 ∧ F.PHY_LINK_CTL_RETRAIN.of 8 = 0 := by decide
  obtain ⟨hmOff, hmClr, hmRetrain⟩ := hm
  rw [linkCtl, linkCtlWrite, hmem, if_neg nofun]
  simp [hoff, hmOff, hmClr, hmRetrain, hrun, ctlWrite, State.when]

/-- A write of PHY_LINK_CTL in STANDBY that asks for neither OFF, LANE_CLR nor RETRAIN sets PERST and clears OFF. -/
theorem linkCtlWrite_of_standby {p v : Nat} (hmem : memberOf s p = none) (hmode : s.mode = .standby) (hv : v < 2) :
    linkCtlWrite p v allBits s =
      (true, wr (.phy p) F.PHY_LINK_CTL_OFF 0 (wr (.phy p) F.PHY_LINK_CTL_PERST v s)) := by
  have hbits : F.PHY_LINK_CTL_OFF.of v = 0 ∧ F.PHY_LINK_CTL_LANE_CLR.of v = 0 ∧ F.PHY_LINK_CTL_RETRAIN.of v = 0 ∧
      F.PHY_LINK_CTL_PERST.of v = v := by
    interval_cases v <;> decide
  obtain ⟨hoff, hclr, hretrain, hperst⟩ := hbits
  have hoffNow : ∀ u : State, u.mode = .standby → offNow u p = true := fun u hu => by simp [offNow, hu, Mode.isLive]
  have htrain : ∀ u : State, u.mode = .standby → tryTrain p u = u := fun u hu => by simp [tryTrain, hoffNow u hu]
  rw [linkCtlWrite, hmem, if_neg nofun]
  simp only [merge_allBits _ _ (show F.PHY_LINK_CTL_OFF.of allBits = _ by decide),
    merge_allBits _ _ (show F.PHY_LINK_CTL_PERST.of allBits = _ by decide), hoff, hclr, hretrain, hperst]
  simp [State.when, htrain, hmode, show F.PHY_LINK_CTL_OFF.of allBits = 1 by decide]

/-! ### PORT_PM and PORT_STATE -/

theorem rd_stage_same (pg : Page) (f : Fld) (v : Nat) (s : State) : rd (stage pg f v s) pg f = v % 2 ^ f.width := rd_wr_same s pg f v

theorem rd_stage_place {pg pg' : Page} {f g : Fld} (v : Nat) (s : State)
    (h : f.off * 8 + f.lo < 0x8000 ∧ g.off * 8 + g.lo < 0x8000 ∧ f.off * 8 + f.lo ≠ g.off * 8 + g.lo) :
    rd (stage pg f v s) pg' g = rd s pg' g := rd_wr_place v s h

theorem putField_staged {pg : Page} {f : Fld} {m : Nat} (v : Nat) (s : State) (hacc : f.acc = .rweSlot) (hm : f.of m = 2 ^ f.width - 1)
    (hw : f.of m ≠ 0) (hbad : f.bad (f.of v) = false) : putField pg v m f s = (false, stage pg f (f.clamp (f.of v)) s) := by
  simp [putField, hw, hacc, hbad, merge_allBits _ _ hm]

theorem clamp_of_range {f : Fld} {x : Nat} (hlo : f.min ≤ x) (hhi : x ≤ f.max) : f.clamp x = x := by
  simp [Fld.clamp, Nat.not_lt.mpr hlo, Nat.not_lt.mpr hhi]

theorem bad_of_full {f : Fld} (hmin : f.min = 0) (hmax : f.max = 2 ^ f.width - 1) (v : Nat) : f.bad (f.of v) = false := by
  have hlo : f.min ≤ f.of v := hmin ▸ Nat.zero_le _
  simp [Fld.bad, clamp_of_range hlo (of_le_max hmax v), hlo, of_le_max hmax v]

/-- The power settings of a link as a value of PHY_PM_CFG spells them, staged. -/
def stagePm (p v : Nat) (s : State) : State :=
  let set (f : Fld) : State → State := stage (.phy p) f (f.clamp (f.of v))
  s |> set F.PHY_PM_CFG_DOZE_EN |> set F.PHY_PM_CFG_L1_EN |> set F.PHY_PM_CFG_NARROW_EN |> set F.PHY_PM_CFG_NARROW_WIDTH
    |> set F.PHY_PM_CFG_NARROW_IDLE |> set F.PHY_PM_CFG_DOZE_IDLE |> set F.PHY_PM_CFG_L1_IDLE

theorem putStatus_pm (p v : Nat) (s : State) : putStatus (.phy p) ((Page.phy p).regFields 0x48) v s = (St.ok, stagePm p v s) := by
  have hfields : (Page.phy p).regFields 0x48 = [F.PHY_PM_CFG_DOZE_EN, F.PHY_PM_CFG_L1_EN, F.PHY_PM_CFG_NARROW_EN,
    F.PHY_PM_CFG_NARROW_WIDTH, F.PHY_PM_CFG_NARROW_IDLE, F.PHY_PM_CFG_DOZE_IDLE, F.PHY_PM_CFG_L1_IDLE] := rfl
  simp only [putStatus, hfields, putFields]
  rw [putField_staged v _ rfl (by decide) (by decide) (bad_of_full rfl rfl v),
    putField_staged v _ rfl (by decide) (by decide) (bad_of_full rfl rfl v),
    putField_staged v _ rfl (by decide) (by decide) (bad_of_full rfl rfl v),
    putField_staged v _ rfl (by decide) (by decide) (bad_of_full rfl rfl v),
    putField_staged v _ rfl (by decide) (by decide) (bad_of_clamped rfl rfl (by decide) _),
    putField_staged v _ rfl (by decide) (by decide) (bad_of_clamped rfl rfl (by decide) _),
    putField_staged v _ rfl (by decide) (by decide) (bad_of_clamped rfl rfl (by decide) _)]
  rfl

/-- Credit that a link returns shows in its record and in what it sends. -/
theorem returnCredits_cases (p : Nat) (s : State) :
    returnCredits p s = s ∨ ∃ l o, returnCredits p s = { setLink p l s with out := o } ∧ l.phase = (linkOf s p).phase ∧
      l.rev = (linkOf s p).rev := by
  unfold returnCredits
  dsimp only
  split_ifs
  · exact .inl rfl
  · exact .inr ⟨_, _, each_say_out _ (fun p' : Nat × Nat => Out.creditRet p p'.1 p'.2) _, rfl, rfl⟩

theorem rd_returnCredits (p : Nat) (pg : Page) (f : Fld) : rd (returnCredits p s) pg f = rd s pg f := by
  obtain h | ⟨l, o, h, -⟩ := returnCredits_cases p s
  · rw [h]
  · rw [h]
    rfl

theorem returnCredits_quiet (h : Quiet s) (p : Nat) : Quiet (returnCredits p s) := by
  obtain hs | ⟨l, o, hs, -⟩ := returnCredits_cases p s
  · rwa [hs]
  · rw [hs]
    exact h.congr rfl rfl rfl rfl rfl rfl rfl

/-- Settles O11: each write by what its fields ask for. -/
theorem portConfiguration : Obligations.PortConfiguration := by
  refine ⟨?cfg, ?cfgCmd, ?ctlCmd, ?perst, ?clr, ?retrain, ?off, ?pm, ?state⟩
  case cfg =>
    intro s p v hdue htakes hmem herr hheld hguar
    refine ⟨_, congrArg (done s) ((dueThen_of_noneDue _ hdue).trans (regGate_of_takes _ htakes)), ?_⟩
    rw [phyLinkCfgWrite, linkCfgWrite_of_good hmem herr hheld hguar, cfgOf_settled, cfgOf_applyCfg (fits_linkCfg_of _)]
  case cfgCmd =>
    intro s c p v hcore hdue hp hfrozen hmem herr hheld hguar
    refine ⟨_, congrArg (done s) ((dueThen_of_noneDue _ hdue).trans ((byCore_of_coreActs _ hcore).trans
      (mirrorGate_of_not_frozen _ hfrozen))), ?_⟩
    rw [portCfg, if_neg (Nat.not_le.mpr hp), linkCfgWrite_of_good hmem herr hheld hguar, cfgOf_settled]
    dsimp only
    rw [cfgOf_complete, cfgOf_applyCfg (fits_linkCfg_of _)]
  case ctlCmd =>
    intro s c p v hdue hcore hp hfrozen hmode hmem hv
    refine ⟨_, congrArg (done s) ((dueThen_of_noneDue _ hdue).trans ((byCore_of_coreActs _ hcore).trans
      (mirrorGate_of_not_frozen _ hfrozen))), ?_⟩
    rw [portCtl, if_neg (by simp [hmem, hp]), linkCtlWrite_of_standby hmem hmode hv]
    dsimp only
    rw [if_pos rfl]
    refine ⟨?_, ?_, by simp⟩
    · rw [rd_settled, finish, rd_complete_off c _ _ _ _ (by decide) (base_evq_ne_phy p), rd_wr_place _ _ (by decide), rd_wr_same]
      exact Nat.mod_eq_of_lt hv
    · rw [rd_settled, finish, rd_complete_off c _ _ _ _ (by decide) (base_evq_ne_phy p), rd_wr_same]
      rfl
  case perst =>
    intro s p on hdue htakes hmem
    refine ⟨_, congrArg (done s) ((dueThen_of_noneDue _ hdue).trans (regGate_of_takes _ htakes)), ?_⟩
    have hrun : ctlWrite p on.toNat 1 s = wr (.phy p) F.PHY_LINK_CTL_PERST on.toNat s := by
      have hnew : newPerst p on.toNat 1 s = on.toNat := by
        rw [newPerst, merge_allBits _ _ (by decide)]
        cases on <;> rfl
      rw [ctlWrite, hnew]
      cases on <;> rfl
    rw [linkCtl_of_not_off hmem (by decide), hrun]
    refine ⟨?_, by simp⟩
    rw [rd_settled, rd_wr_same]
    cases on <;> rfl
  case clr =>
    intro s p hdue htakes hmem
    refine ⟨_, congrArg (done s) ((dueThen_of_noneDue _ hdue).trans (regGate_of_takes _ htakes)), ?_⟩
    have hrun : ctlWrite p 4 4 s = wr (.phy p) F.PHY_LINK_CTL_LANE_CLR 1
        (State.when (rdb (wr (.phy p) F.PHY_LINK_CTL_PERST (newPerst p 4 4 s) s) (.phy p) F.PHY_LINK_CTL_LANE_CLR)
          (noteAgain (.phy p) F.PHY_LINK_CTL_LANE_CLR) (wr (.phy p) F.PHY_LINK_CTL_PERST (newPerst p 4 4 s) s)) := rfl
    rw [linkCtl_of_not_off hmem (by decide), hrun]
    refine ⟨?_, ?_⟩
    · rw [rd_settled, rd_wr_same]
      rfl
    · rw [settled_ports, wr_ports]
      obtain ⟨hwhen, -⟩ | ⟨hwhen, -⟩ := when_split (wr (.phy p) F.PHY_LINK_CTL_PERST (newPerst p 4 4 s) s)
        (rdb (wr (.phy p) F.PHY_LINK_CTL_PERST (newPerst p 4 4 s) s) (.phy p) F.PHY_LINK_CTL_LANE_CLR)
        (noteAgain (.phy p) F.PHY_LINK_CTL_LANE_CLR) <;>
      · rw [hwhen]
        rfl
  case retrain =>
    intro s p hdue htakes hmem hup hscan
    refine ⟨_, congrArg (done s) ((dueThen_of_noneDue _ hdue).trans (regGate_of_takes _ htakes)), ?_⟩
    have hrun : ctlWrite p 2 2 s = enterRecovery p (wr (.phy p) F.PHY_LINK_CTL_PERST (newPerst p 2 2 s) s) := rfl
    rw [linkCtl_of_not_off hmem (by decide), hrun, enterRecovery_of_up (s := wr _ _ _ s) hup hscan, linkOf_settled, linkOf_modLink_same, linkOf_wr,
      linkOf_laneReadmit, linkOf_loseLink, linkOf_putPhase_same]
    exact ⟨rfl, rfl⟩
  case off =>
    intro s p hdue htakes hmem hrun hquiet hrole
    refine ⟨_, congrArg (done s) ((dueThen_of_noneDue _ hdue).trans (regGate_of_takes _ htakes)), ?_⟩
    have hset : linkCtl p (8 * true.toNat) 8 s = _ := linkCtl_off hmem hrun
    have hq : Quiet (wr (.phy p) F.PHY_LINK_CTL_OFF 1 (ctlWrite p 8 8 s)) := wr_quiet (wr_quiet hquiet _ _ _) _ _ _
    have hrole' : roleOf (wr (.phy p) F.PHY_LINK_CTL_OFF 1 (ctlWrite p 8 8 s)) p = 3 := by
      have hctl : ctlWrite p 8 8 s = wr (.phy p) F.PHY_LINK_CTL_PERST (newPerst p 8 8 s) s := rfl
      rw [roleOf, hctl, rd_wr_place _ _ (by decide), rd_wr_place _ _ (by decide)]
      exact hrole
    rw [hset]
    refine ⟨?_, ?_⟩
    · rw [rd_settled, rd_modLink, setOff, rd_closePort, rd_setPhase p p _ (by decide),
        rd_goDown_of_quiet hq hrole' (by decide) (by decide) (by decide) (by decide), rd_wr_same]
      rfl
    · rw [linkOf_settled, linkOf_modLink_same, setOff, linkOf_congr (closePort_ports p), setPhase_of_quiet _ _ (goDown_quiet hq hrole'),
        linkOf_putPhase_same]
  case pm =>
    intro s c p v hdue hcore hp hfrozen hmem
    refine ⟨_, congrArg (done s) ((dueThen_of_noneDue _ hdue).trans ((byCore_of_coreActs _ hcore).trans
      (mirrorGate_of_not_frozen _ hfrozen))), ?_⟩
    rw [portPm, if_neg (by simp [hmem, hp]), portPmDo, putStatus_pm]
    have hdone : ∀ u : State, (if St.ok = St.ok then finishAt false c 0x43 u else finish c 0x43 St.ok u) = finishAt false c 0x43 u :=
      fun u => if_pos rfl
    dsimp only
    rw [hdone]
    refine ⟨?_, ?_, ?_⟩
    · rw [rd_settled, rd_finishAt, stagePm, rd_stage_place _ _ (by decide), rd_stage_place _ _ (by decide),
        rd_stage_place _ _ (by decide), rd_stage_place _ _ (by decide), rd_stage_place _ _ (by decide), rd_stage_same,
        clamp_of_range (Nat.zero_le _) (of_le_max rfl _), of_mod]
    · rw [rd_settled, rd_finishAt, stagePm, rd_stage_place _ _ (by decide), rd_stage_place _ _ (by decide),
        rd_stage_place _ _ (by decide), rd_stage_same, clamp_of_range (Nat.zero_le _) (of_le_max rfl _), of_mod]
    · simp [finishAt, stagePm]
  case state =>
    intro s c p hdue hcore hp hfrozen hmem hrun hquiet
    refine ⟨_, congrArg (done s) ((dueThen_of_noneDue _ hdue).trans ((byCore_of_coreActs _ hcore).trans
      (mirrorGate_of_not_frozen _ hfrozen))), ?_⟩
    have hq : Quiet (returnCredits p (wr (.phy p) F.BLK_CTL_RUN 0 s)) := returnCredits_quiet (wr_quiet hquiet ..) p
    have hset : setLinkRun p 0 s = (true, returnCredits p (wr (.phy p) F.BLK_CTL_RUN 0 s)) := by
      simp only [setLinkRun, hrun]
      rw [afterRetire_of_quiet hq]
      rfl
    have hzero : rd (returnCredits p (wr (.phy p) F.BLK_CTL_RUN 0 s)) (.phy p) F.BLK_CTL_RUN = 0 := by
      rw [rd_returnCredits, rd_wr_same]
      rfl
    rw [portState, if_neg (by simp [hmem, hp]), portStateDo, hset]
    dsimp only
    rw [if_neg (by decide), hzero, if_neg (by decide), rd_settled, finish, rd_complete_off c _ _ _ _ (by decide) (base_evq_ne_phy p), hzero]

end Sys2Proof.Machine
end

section
/-!
SUPPORT. A state whose table of virtual ports holds two entries of one key, and the refutation of the statement about the life of a
link (03 R53, 06 R125).
-/
namespace Sys2Proof.Machine

/-- Links 20 and 21 are DEVICE links of one group. The table of virtual ports holds two entries with the key 64, one for each of the
two links, and a later entry for link 21 with an HP_ADD that waits. -/
def doubledVp : State :=
  let s := State.reset |> wr (.phy 20) F.PHY_LINK_CFG_ROLE 2 |> wr (.phy 21) F.PHY_LINK_CFG_ROLE 2
  { s with maps := { s.maps with vps := [(64, { Vp.reset with lead := some 20 }), (64, { Vp.reset with lead := some 21 }),
    (65, { Vp.reset with lead := some 21, add := some ⟨0, 0, 0, 0, 0⟩ })] } }

theorem doubledVp_none_adds :
    ∀ l ∈ List.range' (4 * 5) 4, (vpOfLead doubledVp l).all (fun x => (vpOf doubledVp x.1 x.2).add.isNone) = true := by
  have hall : ((List.range' (4 * 5) 4).all fun l =>
      (vpOfLead doubledVp l).all fun x => (vpOf doubledVp x.1 x.2).add.isNone) = true := by decide
  exact List.all_eq_true.mp hall

/-- Registers that a step leaves. -/
def Ans.regsCount : Ans → Nat
  | .next t => t.regs.length
  | _ => 0

/-- The report of link 20 rewrites the key and drops the entry of link 21 with it, so that the later one is found, whose HP_ADD
completes: an event is posted for it. -/
theorem regsCount_prsntChange_doubledVp : Ans.regsCount (exec (.prsntChange 5 true) doubledVp) = doubledVp.regs.length + 1 := by decide

/-- Refutes O13: presence that arrives completes an HP_ADD, which writes a register, where the table of virtual ports holds two
entries of one key; the statement asks nothing of that table but that the entry found first for each link waits for no HP_ADD. -/
theorem not_linkLifecycle : ¬ Obligations.LinkLifecycle := by
  rintro ⟨-, -, -, -, hprsnt, -⟩
  obtain ⟨t, ht, -, hregs⟩ := hprsnt doubledVp 5 (by decide) (by decide) doubledVp_none_adds
  have hcount := regsCount_prsntChange_doubledVp
  rw [ht, Ans.regsCount, hregs] at hcount
  omega

end Sys2Proof.Machine
end

section
/-!
SUPPORT. What a received flit does before its cells: the tag draw, the judgement of its checks and the half it may follow; and the
statement about a flit that fails its CRC (04 R69, 13 R258).
-/
namespace Sys2Proof.Machine

variable {s t : State}

/-- The state of the ports changes. -/
def setPorts (x : Ports) (s : State) : State := { s with ports := x }

theorem rd_setPorts (x : Ports) (pg : Page) (f : Fld) : rd (setPorts x s) pg f = rd s pg f := rfl
@[simp] theorem setPorts_core (x : Ports) : (setPorts x s).core = s.core := rfl
@[simp] theorem setPorts_out (x : Ports) : (setPorts x s).out = s.out := rfl

/-- A link that has heard a flit, before it is judged. -/
def heardFlit (p : Nat) (f : Flit) (s : State) : State :=
  modLink p (fun l => { l with busyRx := true }) (bumpBy (.lnk p) F.LNK_FEC_CNT_FEC_CORR f.fecCorr s)

/-- A flit that fails its CRC as the receiver judges it. -/
def judgedBad (p : Nat) (f : Flit) (s : State) : State :=
  bump (.lnk p) F.LNK_RX_CNT_CRC_ERR ((heardFlit p f s).say (.replayReq p (rd (heardFlit p f s) (.lnk p) F.LNK_SEQ_STS_NEXT_RX)))

theorem rxJudge_of_bad {p : Nat} {f : Flit} (hphase : f.phase = 0) (hcrc : f.crc1 = false) (hfec : f.fecFail = false) (s : State) :
    rxJudge p f s = (.drop, judgedBad p f s) := by
  unfold rxJudge
  simp only [hphase, hcrc, hfec]
  rfl

/-- A draw of a tag shows in the record of the link alone. -/
theorem tagDraw_ports_only (p : Nat) (s : State) : ∃ x, (tagDraw p s).2 = setPorts x s := by
  unfold tagDraw
  split
  · exact ⟨s.ports, rfl⟩
  · exact ⟨_, rfl⟩

theorem takeAgain_ports_only (p q : Nat) (f : Flit) (s : State) : ∃ x, (takeAgain p q f s).2 = setPorts x s := by
  unfold takeAgain
  cases (linkOf s p).rxAgain with
  | none => exact ⟨s.ports, rfl⟩
  | some x => exact ⟨_, rfl⟩

theorem dropHalf_of_none {p : Nat} (h : (linkOf s p).rxHalf = none) : dropHalf p s = s := by rw [dropHalf, h]

/-- A flit that is discarded leaves what its tag and its judgement have made. -/
theorem flitReceive_of_bad {p draw : Nat} {f : Flit} (hcan : canReceive s p = true) (hhalf : (linkOf s p).rxHalf = none)
    (hphase : f.phase = 0) (hcrc : f.crc1 = false) (hfec : f.fecFail = false) :
    ∃ x y, flitReceive p f draw s = setPorts y (judgedBad p f (setPorts x s)) := by
  obtain ⟨x, hx⟩ := tagDraw_ports_only p s
  obtain ⟨y, hy⟩ := takeAgain_ports_only p (f.seq % 1024) f (judgedBad p f (setPorts x s))
  refine ⟨x, y, ?_⟩
  have hmsgs : ∀ u k m, newMsgs u p (f.seq % 1024) .drop k m = [] := fun _ _ _ => rfl
  unfold flitReceive
  rw [hcan, if_neg nofun]
  simp only [hphase, bne_iff_ne, ne_eq, OfNat.zero_ne_ofNat, not_false_eq_true, State.when, if_true, dropHalf_of_none hhalf,
    if_false, hx, rxJudge_of_bad hphase hcrc hfec, hmsgs]
  exact hy

/-- Settles O18: the flit is judged bad and nothing of it is used. -/
theorem badFlitDiscarded : Obligations.BadFlitDiscarded := by
  intro s p draw f hdue hcan hhalf hphase hcrc hfec
  refine ⟨_, congrArg (done s) (dueThen_of_noneDue _ hdue), ?_⟩
  obtain ⟨x, y, hrun⟩ := flitReceive_of_bad (draw := draw) hcan hhalf hphase hcrc hfec
  have hheard : ∀ g : Fld, g.off = 0x24 ∨ g.off = 0x4C → g.lo < 32 →
      rd (heardFlit p f (setPorts x s)) (.lnk p) g = rd s (.lnk p) g := by
    intro g hoff hlo
    rw [heardFlit, rd_modLink, bumpBy, rd_wr_off _ _ (by decide) (by omega) (by rcases hoff with h | h <;> rw [h] <;> decide), rd_setPorts]
  have hnext : rd (heardFlit p f (setPorts x s)) (.lnk p) F.LNK_SEQ_STS_NEXT_RX = rd s (.lnk p) F.LNK_SEQ_STS_NEXT_RX :=
    hheard _ (.inl rfl) (by decide)
  rw [hrun]
  refine ⟨?_, ?_, ?_, ?_⟩
  · simp [judgedBad, heardFlit]
  · simp [judgedBad, say_out, hnext]
    simp [heardFlit]
  · rw [rd_settled, rd_setPorts, judgedBad, bump, bumpBy, rd_wr_place _ _ (by decide), rd_say, hnext]
  · rw [rd_settled, rd_setPorts, judgedBad, rd_bump_same, rd_say, hheard _ (.inr rfl) (by decide)]

end Sys2Proof.Machine
end

section
/-! SUPPORT. What the cells, Skylight and the events of the module's own leave alone (05, 13): a frame for every operation that moves
cells, and for what the collector orders (12). -/
namespace Sys2Proof.Machine
variable {s t u : State}

/-- A page that no cell operation, writeback, record or module event writes. -/
def AsidePage (pg : Page) : Prop :=
  (Page.evq 128).base ≠ pg.base ∧ Page.tel.base ≠ pg.base ∧ ∀ n, (Page.cell n).base ≠ pg.base ∧ (Page.homeT n).base ≠ pg.base

/-- A field of the first registers of a page, but for ERR_MERGE_CNT. -/
abbrev AsideFld (f : Fld) : Prop :=
  f.off * 8 + f.lo < 0x8000 ∧ F.ERR_MERGE_CNT_MERGES.off * 8 + F.ERR_MERGE_CNT_MERGES.lo ≠ f.off * 8 + f.lo

theorem asidePage_of_base {pg : Page} (h : pg.base < 0xC000) (htel : pg.base ≠ 0x7000) : AsidePage pg := by
  have hevq : (Page.evq 128).base = 0xC000 := rfl
  have hcell (n : Nat) : (Page.cell n).base = 0x01000000 + n * 0x00200000 + 0x00100000 + 0x1000 := rfl
  have hhome (n : Nat) : (Page.homeT n).base = 0x01000000 + n * 0x00200000 + 0x00100000 + 0x4000 := rfl
  refine ⟨?_, fun e => htel e.symm, fun n => ⟨?_, ?_⟩⟩
  · omega
  · rw [hcell]
    omega
  · rw [hhome]
    omega

/-- The management queues but for their events. -/
def Mq.steady (m : Mq) : Mq := { m with ovw := [], evqs := [], timers := [], pba := [] }

/-- Two states agree on what no cell operation touches, and the later has said all that the earlier had. -/
structure Aside (s t : State) : Prop where
  time : t.time = s.time
  tick : t.tick = s.tick
  rwe : t.rwe = s.rwe
  ftm : t.ftm = s.ftm
  sched : t.sched = s.sched
  trail : t.trail = s.trail
  parts : t.parts = s.parts
  egr : t.egr = s.egr
  glr : t.glr = s.glr
  pwr : t.pwr = s.pwr
  rst : t.rst = s.rst
  i3c : t.i3c = s.i3c
  sec : t.sec = s.sec
  pins : t.pins = s.pins
  pending : t.pending = s.pending
  out : s.out <+: t.out
  rd : ∀ pg f, AsidePage pg → AsideFld f → rd t pg f = rd s pg f
  mq : t.mq.steady = s.mq.steady
  snap : t.tel.snapSeq = s.tel.snapSeq

namespace Aside

theorem refl (s : State) : Aside s s :=
  ⟨rfl, rfl, rfl, rfl, rfl, rfl, rfl, rfl, rfl, rfl, rfl, rfl, rfl, rfl, rfl, List.prefix_rfl, fun _ _ _ _ => rfl, rfl, rfl⟩

theorem trans (h : Aside s t) (g : Aside t u) : Aside s u where
  time := g.time.trans h.time
  tick := g.tick.trans h.tick
  rwe := g.rwe.trans h.rwe
  ftm := g.ftm.trans h.ftm
  sched := g.sched.trans h.sched
  trail := g.trail.trans h.trail
  parts := g.parts.trans h.parts
  egr := g.egr.trans h.egr
  glr := g.glr.trans h.glr
  pwr := g.pwr.trans h.pwr
  rst := g.rst.trans h.rst
  i3c := g.i3c.trans h.i3c
  sec := g.sec.trans h.sec
  pins := g.pins.trans h.pins
  pending := g.pending.trans h.pending
  out := h.out.trans g.out
  rd := fun pg f hp hf => (g.rd pg f hp hf).trans (h.rd pg f hp hf)
  mq := g.mq.trans h.mq
  snap := g.snap.trans h.snap

/-- The parts of the state that what is raised and ordered may change. -/
theorem of_parts (s : State) (co : Core) (p : Ports) (m : Maps) (h : Home) (te : Tel) (w : Wab) (fl : Flt) (d : Dbg)
    (mo : Mode) (fr : Nat) (hte : te.snapSeq = s.tel.snapSeq := by rfl) :
    Aside s { s with core := co, ports := p, maps := m, home := h, tel := te, wab := w, flt := fl, dbg := d, mode := mo, free := fr } :=
  ⟨rfl, rfl, rfl, rfl, rfl, rfl, rfl, rfl, rfl, rfl, rfl, rfl, rfl, rfl, rfl, List.prefix_rfl, fun _ _ _ _ => rfl, rfl, hte⟩

theorem say (o : Out) (s : State) : Aside s (s.say o) :=
  ⟨rfl, rfl, rfl, rfl, rfl, rfl, rfl, rfl, rfl, rfl, rfl, rfl, rfl, rfl, rfl, List.prefix_append _ _, fun _ _ _ _ => rfl, rfl, rfl⟩

theorem wr {pg : Page} {f : Fld} (v : Nat) (s : State) (h : ∀ pg' f', AsidePage pg' → AsideFld f' → fkey pg f ≠ fkey pg' f') :
    Aside s (wr pg f v s) :=
  ⟨rfl, rfl, rfl, rfl, rfl, rfl, rfl, rfl, rfl, rfl, rfl, rfl, rfl, rfl, rfl, List.prefix_rfl,
    fun _ _ hp hf => rd_wr_other s v (h _ _ hp hf), rfl, rfl⟩

theorem when {f : State → State} (b : Bool) (s : State) (h : Aside s (f s)) : Aside s (s.when b f) := by
  cases b
  · exact refl s
  · exact h

theorem each {α : Type} (l : List α) {f : α → State → State} (h : ∀ a s, Aside s (f a s)) (s : State) : Aside s (s.each l f) := by
  induction l generalizing s with
  | nil => exact refl s
  | cons a l ih => exact (h a s).trans (ih (f a s))

end Aside

/-- Two states agree too on what a fault or a warning would touch. -/
structure Beside (s t : State) : Prop where
  aside : Aside s t
  wab : t.wab = s.wab
  flt : t.flt = s.flt
  dbg : t.dbg = s.dbg
  mode : t.mode = s.mode

namespace Beside

theorem refl (s : State) : Beside s s := ⟨.refl s, rfl, rfl, rfl, rfl⟩

theorem trans (h : Beside s t) (g : Beside t u) : Beside s u :=
  ⟨h.aside.trans g.aside, g.wab.trans h.wab, g.flt.trans h.flt, g.dbg.trans h.dbg, g.mode.trans h.mode⟩

/-- The parts of the state that cells, links, requests, lines, records and free values leave. -/
theorem of_parts (s : State) (co : Core) (p : Ports) (m : Maps) (h : Home) (te : Tel) (fr : Nat)
    (hte : te.snapSeq = s.tel.snapSeq := by rfl) :
    Beside s { s with core := co, ports := p, maps := m, home := h, tel := te, free := fr } :=
  ⟨.of_parts s co p m h te s.wab s.flt s.dbg s.mode fr hte, rfl, rfl, rfl, rfl⟩

theorem maps (m : Maps) (s : State) : Beside s { s with maps := m } := of_parts s _ _ m ..

theorem when {f : State → State} (b : Bool) (s : State) (h : Beside s (f s)) : Beside s (s.when b f) := by
  cases b
  · exact refl s
  · exact h

theorem each {α : Type} (l : List α) {f : α → State → State} (h : ∀ a s, Beside s (f a s)) (s : State) : Beside s (s.each l f) := by
  induction l generalizing s with
  | nil => exact refl s
  | cons a l ih => exact (h a s).trans (ih (f a s))

end Beside

/-- What cells and credits never change of a link. -/
def LinkS.still (l : LinkS) : LinkS := { l with creditWait := false, owed := [], cells := 0, flit := 0 }

/-- Two states agree also on requests, lines and all of the links but their cells and credits. -/
structure CellStep (s t : State) : Prop where
  beside : Beside s t
  maps : t.maps = s.maps
  home : t.home = s.home
  ports : { t.ports with links := [] } = { s.ports with links := [] }
  link : ∀ k, (linkOf t k).still = (linkOf s k).still

namespace CellStep

theorem refl (s : State) : CellStep s s := ⟨.refl s, rfl, rfl, rfl, fun _ => rfl⟩

theorem trans (h : CellStep s t) (g : CellStep t u) : CellStep s u :=
  ⟨h.beside.trans g.beside, g.maps.trans h.maps, g.home.trans h.home, g.ports.trans h.ports, fun k => (g.link k).trans (h.link k)⟩

/-- The parts of the state that cells, records and free values leave. -/
theorem of_parts (s : State) (co : Core) (te : Tel) (fr : Nat) (hte : te.snapSeq = s.tel.snapSeq := by rfl) :
    CellStep s { s with core := co, tel := te, free := fr } :=
  ⟨.of_parts s co s.ports s.maps s.home te fr hte, rfl, rfl, rfl, fun _ => rfl⟩

/-- The events of the management queues. -/
theorem of_queues (s : State) (ov : Tbl (Option EvOver)) (ev : Tbl (List Event)) (ti : Tbl (Option Nat)) (pb : List Nat) :
    CellStep s { s with mq := { s.mq with ovw := ov, evqs := ev, timers := ti, pba := pb } } :=
  ⟨⟨⟨rfl, rfl, rfl, rfl, rfl, rfl, rfl, rfl, rfl, rfl, rfl, rfl, rfl, rfl, rfl, List.prefix_rfl, fun _ _ _ _ => rfl, rfl, rfl⟩,
    rfl, rfl, rfl, rfl⟩, rfl, rfl, rfl, fun _ => rfl⟩

/-- A change of a link's cells and credits. -/
theorem setLink {lead : Nat} {l : LinkS} (s : State) (h : l.still = (linkOf s lead).still) : CellStep s (setLink lead l s) where
  beside := .of_parts s s.core _ s.maps s.home s.tel s.free
  maps := rfl
  home := rfl
  ports := rfl
  link := fun k => by
    by_cases hk : k = lead
    · subst hk
      have hl : linkOf (Machine.setLink k l s) k = l := tget_tput_same ..
      rw [hl, h]
    · have hl : linkOf (Machine.setLink lead l s) k = linkOf s k := tget_tput_other _ _ _ _ (Ne.symm hk)
      rw [hl]

theorem modLink {lead : Nat} {f : LinkS → LinkS} (s : State) (h : ∀ l, (f l).still = l.still) : CellStep s (modLink lead f s) :=
  setLink s (h _)

theorem core (c : Core) (s : State) : CellStep s { s with core := c } := of_parts s c ..

theorem tel (x : Tel) (s : State) (hx : x.snapSeq = s.tel.snapSeq := by rfl) : CellStep s { s with tel := x } :=
  of_parts s _ x _ hx

theorem say (o : Out) (s : State) : CellStep s (s.say o) := ⟨⟨.say o s, rfl, rfl, rfl, rfl⟩, rfl, rfl, rfl, fun _ => rfl⟩

theorem wr {pg : Page} {f : Fld} (v : Nat) (s : State) (h : ∀ pg' f', AsidePage pg' → AsideFld f' → fkey pg f ≠ fkey pg' f') :
    CellStep s (wr pg f v s) := ⟨⟨.wr v s h, rfl, rfl, rfl, rfl⟩, rfl, rfl, rfl, fun _ => rfl⟩

theorem wr_tel {f : Fld} (v : Nat) (s : State) (hf : f.off * 8 + f.lo < 0x8000) : CellStep s (Machine.wr .tel f v s) :=
  wr v s fun _ _ hp hf' => fkey_page hp.2.1 hf hf'.1

theorem wr_cell {f : Fld} (n v : Nat) (s : State) (hf : f.off * 8 + f.lo < 0x8000) : CellStep s (Machine.wr (.cell n) f v s) :=
  wr v s fun _ _ hp hf' => fkey_page (hp.2.2 n).1 hf hf'.1

theorem wr_homeT {f : Fld} (n v : Nat) (s : State) (hf : f.off * 8 + f.lo < 0x8000) : CellStep s (Machine.wr (.homeT n) f v s) :=
  wr v s fun _ _ hp hf' => fkey_page (hp.2.2 n).2 hf hf'.1

theorem when {f : State → State} (b : Bool) (s : State) (h : CellStep s (f s)) : CellStep s (s.when b f) := by
  cases b
  · exact refl s
  · exact h

theorem each {α : Type} (l : List α) {f : α → State → State} (h : ∀ a s, CellStep s (f a s)) (s : State) : CellStep s (s.each l f) := by
  induction l generalizing s with
  | nil => exact refl s
  | cons a l ih => exact (h a s).trans (ih (f a s))

/-! ### Events and records (11, 13) -/

theorem raiseVec (ep v : Nat) (s : State) : CellStep s (raiseVec ep v s) := by
  unfold Machine.raiseVec
  split_ifs
  · exact say _ s
  · exact refl s
  · exact of_queues s s.mq.ovw s.mq.evqs s.mq.timers _

theorem evInterrupt (q : Nat) (s : State) : CellStep s (evInterrupt q s) := when _ s (raiseVec _ _ s)

theorem steady_evOverwrite (q cap : Nat) (s : State) : (evOverwrite q cap s).mq.steady = s.mq.steady := by
  have htrim (u : State) : (evTrim q cap u).mq.steady = u.mq.steady := by
    unfold evTrim
    dsimp only
    split <;> rfl
  unfold evOverwrite
  dsimp only
  split
  · rfl
  · exact htrim _

/-- An event changes the management queues only in their events. -/
theorem steady_post (q typ : Nat) (l : List (Nat × Nat)) (s : State) : (Machine.post q typ l s).mq.steady = s.mq.steady := by
  unfold Machine.post postC
  dsimp only
  split
  · exact (when _ _ (evInterrupt ..)).beside.aside.mq.trans (steady_evOverwrite ..)
  · exact steady_evOverwrite ..

/-- An event of the module's own queue. -/
theorem post (typ : Nat) (l : List (Nat × Nat)) (s : State) : CellStep s (post 128 typ l s) := by
  refine ⟨⟨⟨?_, ?_, ?_, ?_, ?_, ?_, ?_, ?_, ?_, ?_, ?_, ?_, ?_, ?_, ?_, ?_, fun pg f hp hf => rd_post s 128 typ l hp.1 hf.1,
    steady_post .., ?_⟩, ?_, ?_, ?_, ?_⟩, ?_, ?_, ?_, fun k => ?_⟩
  case refine_16 =>
    unfold Machine.post postC
    dsimp only
    split
    · refine List.IsPrefix.trans ?_ (when_out_extends (l := s.out) _ ?_ (evInterrupt 128 _).beside.aside.out) <;> simp
    · simp
  case refine_25 => rw [linkOf_congr (post_ports s 128 typ l)]
  all_goals simp

theorem skyDrop (reason : Nat) (s : State) : CellStep s (skyDrop reason s) := by
  unfold Machine.skyDrop
  have hbump : CellStep s (bump .tel (if reason = 0 then F.TEL_SKY_DROP_FULL else F.TEL_SKY_DROP_RATE) s) := by
    split <;> exact wr_tel _ s (by decide)
  have htold (u : State) : CellStep u (if u.tel.dropRun then u
      else Machine.post 128 0x0031 [(16, reason), (20, skyDropVal u)] { u with tel := { u.tel with dropRun := true } }) := by
    split
    · exact refl u
    · exact (of_parts ..).trans (post _ _ _)
  exact hbump.trans (htold _)

theorem skyIssue (bytes : List Nat) (s : State) : CellStep s (skyIssue bytes s) := by
  unfold Machine.skyIssue
  dsimp only
  split_ifs
  · exact refl s
  · exact (wr_tel _ s (by decide)).trans (post _ _ _)
  · exact (say _ s).trans ((of_parts ..).trans (wr_tel _ _ (by decide)))

/-- A step that another time stands in for, which is then put back. -/
theorem retimed {f : State → State} (n : Nat) (s : State) (h : CellStep { s with time := n } (f { s with time := n })) :
    CellStep s { f { s with time := n } with time := s.time } :=
  have a := h.beside.aside
  ⟨⟨⟨rfl, a.tick, a.rwe, a.ftm, a.sched, a.trail, a.parts, a.egr, a.glr, a.pwr, a.rst, a.i3c, a.sec, a.pins, a.pending, a.out, a.rd, a.mq, a.snap⟩,
    h.beside.wab, h.beside.flt, h.beside.dbg, h.beside.mode⟩, h.maps, h.home, h.ports, h.link⟩

theorem skySettle (s : State) : CellStep s (skySettle s) := by
  unfold Machine.skySettle
  dsimp only
  split
  · exact refl s
  · refine (tel _ s).trans (each _ (fun w u => ?_) _)
    exact retimed (f := Machine.skyDrop 0) w.time u (skyDrop 0 _)

theorem skyRecord (tile kind : Nat) (wasted discarded : Bool) (c : Cell) (s : State) :
    CellStep s (skyRecord tile kind wasted discarded c s) := by
  unfold Machine.skyRecord
  refine (skySettle s).trans ?_
  dsimp only
  split_ifs
  · exact refl _
  · exact skyDrop 1 _
  · exact (of_parts ..).trans (skyIssue _ _)
  · exact of_parts ..

theorem mirror (point id : Nat) (s : State) : CellStep s (mirror point id s) := by
  unfold Machine.mirror
  split
  · exact refl s
  · split
    · exact skyRecord ..
    · exact refl s

/-! ### Cells (05) -/

theorem tel_only {f : State → State} (s : State) (h : ∃ x, f s = { s with tel := x }) (hs : (f s).tel.snapSeq = s.tel.snapSeq) :
    CellStep s (f s) := by
  obtain ⟨x, hx⟩ := h
  rw [hx] at hs ⊢
  exact tel x s hs

/-- Counting does not number snapshots. -/
theorem snapSeq_count (pg : Page) (code n : Nat) (e : Attr) (s : State) : (Machine.count pg code n e s).tel.snapSeq = s.tel.snapSeq := by
  have hctr (k : Nat) (u : State) : (addCtr k n u).tel.snapSeq = u.tel.snapSeq := by
    have hstrike : (ctrStrike k u).tel.snapSeq = u.tel.snapSeq := by
      unfold ctrStrike
      split <;> rfl
    unfold addCtr
    dsimp only
    split <;> exact hstrike
  unfold Machine.count
  cases bankSlot pg with
  | none => rfl
  | some slot =>
    dsimp only
    split_ifs
    · rfl
    · exact each_keeps (·.tel.snapSeq) (fun _ _ _ => hctr _ _) s

theorem count (pg : Page) (code n : Nat) (e : Attr) (s : State) : CellStep s (count pg code n e s) :=
  tel_only s (count_tel_only pg code n e s) (snapSeq_count pg code n e s)

theorem stamp (id : Nat) (s : State) : CellStep s (stamp id s) := of_parts ..

theorem toTail (id : Nat) (f : Cell → Cell) (s : State) : CellStep s (toTail id f s) := by
  unfold Machine.toTail
  split
  · exact refl s
  · exact of_parts ..

theorem linkVoq (id : Nat) (s : State) : CellStep s (linkVoq id s) := by
  unfold Machine.linkVoq
  split
  · exact refl s
  · dsimp only
    split_ifs
    · exact (of_parts ..).trans (toTail ..)
    · exact toTail ..

theorem noteAlloc (c : Cell) (s : State) : CellStep s (noteAlloc c s) :=
  (wr_cell (f := F.CELL_FREE_MIN_MIN) c.tile _ s (by decide)).trans (count (.cnp c.tile) 0x10 1 _ _)

theorem useCredit (c : Cell) (s : State) : CellStep s (useCredit c s) := by
  unfold Machine.useCredit
  split
  · exact modLink s fun _ => rfl
  · exact refl s

theorem takeCell (c : Cell) (s : State) : CellStep s (takeCell c s) := by
  unfold Machine.takeCell
  split
  · exact (useCredit c s).trans ((of_parts ..).trans (noteAlloc ..))
  · exact of_parts ..

theorem takeWaiting (c : Cell) (s : State) : CellStep s (takeWaiting c s) := by
  unfold Machine.takeWaiting
  split
  · exact (useCredit c s).trans ((of_parts ..).trans ((noteAlloc ..).trans ((stamp ..).trans ((linkVoq ..).trans (mirror ..)))))
  · exact refl s

theorem returnCredits (lead : Nat) (s : State) : CellStep s (returnCredits lead s) := by
  unfold Machine.returnCredits
  dsimp only
  split_ifs
  · exact refl s
  · refine (setLink s ?_).trans (each _ (fun _ => say _) _)
    rfl

theorem returnOwed (n : Nat) (s : State) : CellStep s (returnOwed n s) := each _ returnCredits s

theorem endFlit (lead : Nat) (s : State) : CellStep s (endFlit lead s) := by
  unfold Machine.endFlit
  split
  · exact refl s
  · refine (modLink s ?_).trans (returnOwed ..)
    exact fun _ => rfl

theorem owe (lead : Nat) (l : List Nat) (s : State) : CellStep s (owe lead l s) := modLink s fun _ => rfl

theorem spend (lead n : Nat) (s : State) : CellStep s (spend lead n s) := modLink s fun _ => rfl

theorem grpDone (g : Nat) (s : State) : CellStep s (grpDone g s) := by
  unfold Machine.grpDone
  split
  · exact refl s
  · split
    · exact refl s
    · exact (core _ s).trans (owe ..)

theorem freeCell (id : Nat) (s : State) : CellStep s (freeCell id s) := by
  unfold Machine.freeCell
  split
  · exact refl s
  · refine CellStep.trans ?_ ((each _ takeWaiting _).trans (returnOwed ..))
    refine (core { s.core with cells := dropFirst (fun c => c.id == id) s.core.cells } s).trans ?_
    split
    · exact grpDone ..
    · exact owe ..
    · exact refl _

theorem postedGo (stage : Nat) (c : Cell) (s : State) : CellStep s (postedGo stage c s) := by
  unfold Machine.postedGo
  split
  · exact refl s
  · exact of_parts ..

theorem discardCell (id : Nat) (s : State) : CellStep s (discardCell id s) := by
  unfold Machine.discardCell
  split
  · exact refl s
  · exact (each _ (fun st => postedGo st _) s).trans ((when _ _ (skyRecord ..)).trans (freeCell ..))

theorem ownCells (e : Entry) (m : LMsg) (n units : Nat) (s : State) : CellStep s (ownCells e m n units s) := by
  induction n generalizing units s with
  | zero => exact refl s
  | succ n ih =>
    have hcell : CellStep s (Machine.takeCell (m.cell e (min 15 units) (decide (units ≤ 15)) s) { s with free := s.free + 1 }) :=
      (of_parts ..).trans (takeCell ..)
    unfold Machine.ownCells
    dsimp only
    split_ifs
    · exact hcell.trans ((stamp ..).trans ((linkVoq ..).trans (mirror ..)))
    · exact hcell
    · exact hcell.trans ((stamp ..).trans ((linkVoq ..).trans ((mirror ..).trans (ih ..))))
    · exact hcell.trans (ih ..)

theorem linkMessage (e : Entry) (m : LMsg) (s : State) : CellStep s (linkMessage e m s) := by
  unfold Machine.linkMessage
  split
  · exact (when _ s (each _ (fun x => say _) s)).trans (of_parts ..)
  · dsimp only
    split
    · split
      · exact (spend ..).trans ((ownCells ..).trans (endFlit ..))
      · exact ownCells ..
    · exact ownCells ..

end CellStep

namespace Beside

theorem wr_homeT {f : Fld} (n v : Nat) (s : State) (hf : f.off * 8 + f.lo < 0x8000) : Beside s (Machine.wr (.homeT n) f v s) :=
  (CellStep.wr_homeT n v s hf).beside

theorem forwardTo (own : Bool) (tc dmod dport dpart : Nat) (f : Fwd) (s : State) :
    Beside s (forwardTo own tc dmod dport dpart f s) := by
  unfold Machine.forwardTo
  dsimp only
  split
  · split
    case h_6 => exact maps _ s
    all_goals exact (maps _ s).trans (CellStep.linkMessage ..).beside
  · exact (maps _ s).trans (CellStep.linkMessage ..).beside

/-! ### Writebacks (08 R162-R165) -/

theorem home (h : Home) (s : State) : Beside s { s with home := h } := of_parts s _ _ _ h ..

theorem loseResv (l : LineId) (st : ResvSt) (keep : Resv → Bool) (s : State) : Beside s (loseResv l st keep s) := home _ s

theorem bumpBy_homeT {f : Fld} (n k : Nat) (s : State) (hf : f.off * 8 + f.lo < 0x8000) :
    Beside s (bumpBy (.homeT n) f k s) := wr_homeT n _ s hf

theorem alcFound (n : Nat) (l : LineId) (part : Nat) (s : State) : Beside s (alcFound n l part s) := by
  unfold Machine.alcFound
  split
  · exact refl s
  · dsimp only
    split
    · exact (home _ s).trans ((when _ _ (each _ (fun y => loseResv y _ _) _)).trans
        (bumpBy_homeT (f := F.HOME_ALC_PAR_UNCORR) _ _ _ (by decide)))
    · exact (home _ s).trans ((when _ _ (each _ (fun y => loseResv y _ _) _)).trans
        (bumpBy_homeT (f := F.HOME_ALC_PAR_CORR) _ _ _ (by decide)))

theorem alcWriteback (n : Nat) (l : LineId) (s : State) : Beside s (alcWriteback n l s) := by
  unfold Machine.alcWriteback
  split
  · exact refl s
  · dsimp only
    split
    · exact refl s
    · exact (alcFound ..).trans ((home _ _).trans (forwardTo ..))

theorem alcFlush (s : State) : Beside s (alcFlush s) := each s.home.alc (fun a : AlcL => alcWriteback a.tile a.line) s

end Beside

namespace Aside

theorem relockNow (reason : Nat) (s : State) : Aside s (relockNow reason s) := by
  unfold Machine.relockNow
  split
  · exact refl s
  · exact (of_parts s s.core s.ports s.maps s.home s.tel s.wab s.flt _ s.mode _).trans (CellStep.post ..).beside.aside

theorem fatalStart (n : Nat) (s : State) : Aside s (fatalStart n s) :=
  (of_parts s s.core s.ports s.maps s.home s.tel _ _ s.dbg s.mode s.free).trans
    ((relockNow 2 _).trans ((say ..).trans (Beside.alcFlush _).aside))

theorem setMode_up {m : Mode} {s : State} (h : s.mode ≠ .maintenance) : Aside s (setMode m s) := by
  unfold Machine.setMode
  split
  · exact refl s
  · rw [show (s.mode == Mode.maintenance) = false from beq_eq_false_iff_ne.mpr h]
    exact (of_parts s s.core s.ports s.maps s.home s.tel s.wab s.flt s.dbg m s.free).trans (when _ _ (CellStep.post ..).beside.aside)

end Aside

/-! ### Sources of the module blocks, raised against no partition and no link (12 R229-R236) -/

/-- A source at the beginning of a tick: what merged in another tick is gone. -/
def SrcS.fresh (tick : Nat) (x : SrcS) : SrcS :=
  if x.asTick = some tick then x else { x with asTick := some tick, asOpen := false, merged := [] }

/-- What the collector does not hear: a masked source, one of a broken pair, and any before power. -/
def unheard (s : State) (n : Nat) : Bool :=
  srcMasked s n || ((srcOf s n).fresh s.tick).pair == 2 || s.mode == .off || s.mode == .precharge

/-- The record of a source whose handling opens. -/
def SrcS.opening (r : Nat) (tick : Nat) (x : SrcS) : SrcS :=
  let ap := if r = React.partition ∨ r = React.port then React.corrected else r
  { x with sticky := true, cnt := min (x.cnt + 1) 0xFFFFFFFF, asOpen := true, opens := x.opens ++ [⟨ap, none, none, tick⟩] }

/-- Handling of a source opens: FAULT is posted, a degrading source degrades the module, and the reaction is ordered. -/
def openSource (n r : Nat) (info : SrcInfo) (wire : Nat) (s : State) : State :=
  let x := (srcOf s n).fresh s.tick
  let dom := if r = React.fatal then 3 else if info.domain = 1 then 1 else 0
  let who := if dom = 2 then 0 else if dom = 1 then (n - 0x200) / 4 else 0
  let s := s |> setSrc n (x.opening r s.tick)
    |> post 128 0x10 [(16, n), (18, r), (19, dom), (20, who), (22, wire), (24, min (x.cnt + 1) 0xFFFFFFFF)]
  (s.when (info.deg && r != React.fatal && decide (s.mode = .run)) (setMode .degraded)) |> react r n none none

/-- An assertion of a source of a module block or tile. -/
def assertSource (force : Option Nat) (n : Nat) (info : SrcInfo) (wire : Nat) (s : State) : State :=
  let r := force.getD (reactOf s n)
  let x := (srcOf s n).fresh s.tick
  if unheard s n then s
  else if s.flt.fatal.isSome then s |> setSrc n { x with sticky := true, asOpen := true } |> countMerge n
  else if r != React.fatal && x.sticky then s |> setSrc n { x with merged := x.merged ++ [(none, none, wire)] } |> countMerge n
  else openSource n r info wire s

theorem raiseAs_module {force : Option Nat} {n wire : Nat} {s : State} {info : SrcInfo} {x : Page × Nat} (hn : n < 0x200)
    (hi : srcInfo n = some info) (hp : srcPage n = some x) : raiseAs force n none none wire s = assertSource force n info wire s := by
  unfold raiseAs assertSource openSource unheard SrcS.opening SrcS.fresh
  rw [hi, hp]
  dsimp only
  rw [if_neg (by omega)]
  generalize (info.domain == 2) = b
  cases b <;> simp only [Option.isSome_none, Bool.and_false, Bool.false_eq_true, if_false, Bool.not_false, State.when,
    and_true, if_true, Nat.not_le.mpr hn, ite_self, Option.getD_none]

theorem raiseAs_cases (force : Option Nat) {n : Nat} (wire : Nat) (s : State) (hn : n < 0x200) :
    raiseAs force n none none wire s = s ∨
      ∃ info, srcInfo n = some info ∧ raiseAs force n none none wire s = assertSource force n info wire s := by
  cases hi : srcInfo n with
  | none => exact .inl (by simp only [raiseAs, hi])
  | some info =>
    cases hp : srcPage n with
    | none => exact .inl (by simp only [raiseAs, hi, hp])
    | some x => exact .inr ⟨info, rfl, raiseAs_module hn hi hp⟩

namespace Aside

theorem countMerge (n : Nat) (s : State) : Aside s (countMerge n s) := by
  unfold Machine.countMerge
  split
  · exact wr _ s fun pg' f' _ hf => fkey_ne_of_place _ pg' (by decide) hf.1 hf.2
  · exact refl s

theorem react (r n : Nat) (s : State) : Aside s (react r n none none s) := by
  unfold Machine.react
  split_ifs
  · exact refl s
  · exact refl s
  · exact fatalStart n s
  · exact refl s

theorem setSrc (n : Nat) (x : SrcS) (s : State) : Aside s (setSrc n x s) :=
  of_parts s s.core s.ports s.maps s.home s.tel s.wab _ s.dbg s.mode s.free

theorem degrade (b : Bool) (s : State) : Aside s (s.when (b && decide (s.mode = .run)) (setMode .degraded)) := by
  by_cases h : s.mode = .run
  · exact when _ s (setMode_up (by simp [h]))
  · simpa [h, State.when] using refl s

theorem openSource (n r : Nat) (info : SrcInfo) (wire : Nat) (s : State) : Aside s (openSource n r info wire s) :=
  (setSrc ..).trans ((CellStep.post ..).beside.aside.trans ((degrade ..).trans (react ..)))

theorem assertSource (force : Option Nat) (n : Nat) (info : SrcInfo) (wire : Nat) (s : State) :
    Aside s (assertSource force n info wire s) := by
  unfold Machine.assertSource
  dsimp only
  split_ifs
  · exact refl s
  · exact (setSrc ..).trans (countMerge ..)
  · exact (setSrc ..).trans (countMerge ..)
  · exact openSource ..

theorem raiseAs (force : Option Nat) {n : Nat} (wire : Nat) (s : State) (hn : n < 0x200) :
    Aside s (raiseAs force n none none wire s) := by
  obtain h | ⟨info, -, h⟩ := raiseAs_cases force wire s hn
  · rw [h]
    exact refl s
  · rw [h]
    exact assertSource ..

theorem raise {n : Nat} (s : State) (hn : n < 0x200) : Aside s (raise n none none s) := raiseAs none 0 s hn

end Aside

end Sys2Proof.Machine
end

section
/-! SUPPORT. The Guyline ring (14): its ports, what a frame does on its way, and O45. -/
namespace Sys2Proof.Machine
variable {s t : State}

/-! ### Ports (14 R266-R268) -/

@[simp] theorem gport_setGport_same (o : Bool) (p : GPort) (s : State) : gport (setGport o p s) o = p := by
  cases o <;> rfl

@[simp] theorem gport_setGport_other (o : Bool) (p : GPort) (s : State) : gport (setGport o p s) (!o) = gport s (!o) := by
  cases o <;> rfl

theorem gport_congr (h : t.glr = s.glr) (o : Bool) : gport t o = gport s o := by
  simp [gport, h]

@[simp] theorem setGport_tick (o : Bool) (p : GPort) (s : State) : (setGport o p s).tick = s.tick := rfl
@[simp] theorem setGport_regs (o : Bool) (p : GPort) (s : State) : (setGport o p s).regs = s.regs := rfl
@[simp] theorem setGport_out (o : Bool) (p : GPort) (s : State) : (setGport o p s).out = s.out := rfl
@[simp] theorem setGport_bypass (o : Bool) (p : GPort) (s : State) : (setGport o p s).glr.bypass = s.glr.bypass := by
  cases o <;> rfl
@[simp] theorem rd_setGport (o : Bool) (p : GPort) (s : State) (pg : Page) (f : Fld) : rd (setGport o p s) pg f = rd s pg f := rfl

theorem modid_congr (h : t.regs = s.regs) : modid t = modid s := rd_congr h _ _

/-- A port with block lock. -/
theorem locked_of {p : GPort} (hst : p.st ≠ 0) (hlost : p.lostAt = none) : p.locked = true := by
  simp [GPort.locked, hst, hlost]

/-- The entry into SPLIT adds no more than the raising of its source. -/
theorem aside_withSplit (f : State → State) (s : State) : Aside (f s) (withSplit f s) :=
  Aside.when _ _ (Aside.raise (n := 0x0B) _ (by decide))

/-- Outside SPLIT nothing is raised. -/
theorem withSplit_of_not_split {f : State → State} (h : glrState (f s) ≠ 2) : withSplit f s = f s := by
  simp [withSplit, State.when, h]

theorem glrState_of_few (h : glrBreaks s < 2) : glrState s ≠ 2 := by
  unfold glrState
  split
  · decide
  · match hb : glrBreaks s, h with
    | 0, _ => decide
    | 1, _ => decide

theorem glrBreaks_congr (h : t.glr.members = s.glr.members) : glrBreaks t = glrBreaks s := by
  simp [glrBreaks, h]

theorem lockLoss_of_locked {o : Bool} (hbyp : s.glr.bypass = false) (hlock : (gport s o).locked = true) :
    lockLoss o s = bump .glr F.GLR_CNT_LOCK_LOSS
      (setGport o { gport s o with lostAt := some s.tick, delays := [], dlyOk := false } s) := by
  simp [lockLoss, hbyp, hlock]

/-- A port that goes DOWN, with what is raised. -/
theorem aside_portDown (o : Bool) (s : State) : Aside (setGport o GPort.reset s) (portDown o s) :=
  (Aside.raise (n := 0x0A) _ (by decide)).trans
    (aside_withSplit (fun s => s |> setGport o GPort.reset |> raise 0x0A none none) s)

theorem glrPortDown_of_lost {o : Bool} {n : Nat} (hlost : (gport s o).lostAt = some n) (hclk : clockRuns s = true) :
    glrPortDown o s = portDown o (advanceTo (n + rd s .glr F.GLR_LOCK_TMO_TMO) s) := by
  unfold glrPortDown
  rw [hlost]
  exact atTick_of_clock _ _ hclk

theorem startLocking_out (o : Bool) (s : State) : (startLocking o s).out =
    s.out ++ [.frame o (frameBytes 1 (modid s) 0xFE 1 0 0 false false [modid s, o.toNat])] := rfl

theorem startLocking_regs (o : Bool) (s : State) : (startLocking o s).regs = s.regs := rfl
theorem startLocking_tick (o : Bool) (s : State) : (startLocking o s).tick = s.tick := rfl

theorem gport_startLocking (o : Bool) (s : State) : gport (startLocking o s) o = { GPort.reset with st := 1 } :=
  gport_setGport_same ..

theorem gport_startLocking_other (o : Bool) (s : State) : gport (startLocking o s) (!o) = gport s (!o) :=
  gport_setGport_other ..

theorem startLocking_members (o : Bool) (s : State) : (startLocking o s).glr.members = s.glr.members := by cases o <;> rfl

theorem startLocking_bypass (o : Bool) (s : State) : (startLocking o s).glr.bypass = s.glr.bypass := by cases o <;> rfl
theorem startLocking_taps (o : Bool) (s : State) : (startLocking o s).glr.taps = s.glr.taps := by cases o <;> rfl

/-- A DOWN port with block lock again. -/
theorem blockLockRegained_of_down {o : Bool} (hbyp : s.glr.bypass = false) (hst : (gport s o).st = 0)
    (hlost : (gport s o).lostAt = none) : blockLockRegained o s = withSplit (startLocking o) s := by
  unfold blockLockRegained withSplit
  simp [hbyp, hst, hlost]

/-- A short loss of lock ends. -/
theorem blockLockRegained_of_short {o : Bool} {n : Nat} (hbyp : s.glr.bypass = false) (hlost : (gport s o).lostAt = some n)
    (hshort : s.tick < n + rd s .glr F.GLR_LOCK_TMO_TMO) :
    blockLockRegained o s = withSplit (setGport o { gport s o with lostAt := none }) s := by
  unfold blockLockRegained withSplit
  simp [hbyp, hlost, Nat.not_le.mpr hshort]

theorem glrState_congr (hbyp : t.glr.bypass = s.glr.bypass) (hin : t.glr.inP.st = s.glr.inP.st)
    (hout : t.glr.outP.st = s.glr.outP.st) (hm : t.glr.members = s.glr.members) : glrState t = glrState s := by
  simp [glrState, hbyp, hin, hout, glrBreaks_congr hm]

/-- A change that leaves the ring's state as it is raises nothing. -/
theorem withSplit_of_same {f : State → State} (h : glrState (f s) = glrState s) : withSplit f s = f s := by
  simp [withSplit, State.when, h]

/-- The switches of the bypass open, and both ports send HELLO. -/
def unbypassed (s : State) : State :=
  setGlr { s.glr with bypass := false, taps := none } s |> startLocking false |> startLocking true

theorem unbypassed_inP (s : State) : (unbypassed s).glr.inP = { GPort.reset with st := 1 } := by
  rw [unbypassed]
  exact (gport_startLocking_other true _).trans (gport_startLocking false _)
theorem unbypassed_outP (s : State) : (unbypassed s).glr.outP = { GPort.reset with st := 1 } := by
  rw [unbypassed]
  exact gport_startLocking true _
theorem unbypassed_bypass (s : State) : (unbypassed s).glr.bypass = false := by
  rw [unbypassed, startLocking_bypass, startLocking_bypass, setGlr_glr]
theorem unbypassed_taps (s : State) : (unbypassed s).glr.taps = none := by
  rw [unbypassed, startLocking_taps, startLocking_taps, setGlr_glr]
theorem unbypassed_members (s : State) : (unbypassed s).glr.members = s.glr.members := by
  rw [unbypassed, startLocking_members, startLocking_members, setGlr_glr]
theorem unbypassed_tick (s : State) : (unbypassed s).tick = s.tick := by
  rw [unbypassed, startLocking_tick, startLocking_tick, setGlr_tick]

theorem openBypass_locked (s : State) : openBypass true s = withSplit unbypassed s := rfl

/-- The switches of the bypass open while no tap holds lock. -/
def unbypassedUnlocked (s : State) : State :=
  unbypassed s |> fun u => setGport false { u.glr.inP with lostAt := some u.tick } u |> fun u =>
    setGport true { u.glr.outP with lostAt := some u.tick } u

theorem unbypassedUnlocked_inP (s : State) : (unbypassedUnlocked s).glr.inP.lostAt = some s.tick := by
  rw [unbypassedUnlocked, ← unbypassed_tick s]
  exact congrArg GPort.lostAt ((gport_setGport_other true _ _).trans (gport_setGport_same false _ _))
theorem unbypassedUnlocked_outP (s : State) : (unbypassedUnlocked s).glr.outP.lostAt = some s.tick := by
  rw [unbypassedUnlocked, ← unbypassed_tick s]
  exact congrArg GPort.lostAt (gport_setGport_same true _ _)
theorem unbypassedUnlocked_bypass (s : State) : (unbypassedUnlocked s).glr.bypass = false := by
  rw [unbypassedUnlocked, setGport_bypass, setGport_bypass, unbypassed_bypass]
theorem unbypassedUnlocked_tick (s : State) : (unbypassedUnlocked s).tick = s.tick := by
  rw [unbypassedUnlocked, setGport_tick, setGport_tick, unbypassed_tick]

theorem openBypass_unlocked (s : State) : openBypass false s = withSplit unbypassedUnlocked s := by
  unfold openBypass unbypassedUnlocked unbypassed
  simp only [Bool.false_eq_true, if_false]

theorem bypassOpen_locked {n : Nat} (htaps : s.glr.taps = some n) (hcond : bypassCond s = false) :
    bypassOpen true s = withSplit unbypassed s := by
  simp [bypassOpen, htaps, hcond, openBypass_locked]

theorem bypassOpen_timed {n : Nat} (htaps : s.glr.taps = some n) (hcond : bypassCond s = false) (hclk : clockRuns s = true) :
    bypassOpen false s = withSplit unbypassedUnlocked (advanceTo (n + 10000000) s) := by
  unfold bypassOpen
  rw [htaps]
  dsimp only
  rw [hcond, if_neg Bool.false_ne_true, if_neg Bool.false_ne_true, atTick_of_clock _ _ hclk, openBypass_unlocked]

/-! ### Link-local frames (14 R266, R279) -/

/-- A link-local frame with good CRC on a port with lock. -/
theorem onLocal_of_good {h : GHdr} (f : State → State) (hbyp : s.glr.bypass = false) (hlock : (gport s h.onOut).locked = true)
    (hcrc : h.crcOk = true) : onLocal h f s = f s := by
  simp [onLocal, hbyp, hlock, hcrc]

theorem onLocal_of_bad {h : GHdr} (f : State → State) (hbyp : s.glr.bypass = false) (hlock : (gport s h.onOut).locked = true)
    (hcrc : h.crcOk = false) : onLocal h f s = bump .glr F.GLR_CNT_CRC_ERR s := by
  simp [onLocal, hbyp, hlock, hcrc]

/-- A multiple of a divisor of 2^64 that time advances to. -/
theorem advanceToMultiple_mod {p : Nat} (done : Nat) (hp : 0 < p) (hdvd : p ∣ 2 ^ 64) (hclk : clockRuns s = true) :
    (advanceToMultiple p done s).time % p = 0 := by
  unfold advanceToMultiple
  split
  case isTrue h => exact h.1
  case isFalse =>
    rw [passTicks_time _ hclk, Nat.mod_mod_of_dvd _ hdvd]
    have hlt := Nat.mod_lt s.time hp
    have hdiv := Nat.div_add_mod s.time p
    have hsum : s.time + (p - s.time % p) = p * (s.time / p + 1) := by
      rw [Nat.mul_add]
      omega
    rw [hsum, Nat.mul_mod_right]

theorem advanceToMultiple_glr (p done : Nat) (s : State) : (advanceToMultiple p done s).glr = s.glr := by
  unfold advanceToMultiple; split <;> simp
theorem advanceToMultiple_out (p done : Nat) (s : State) : (advanceToMultiple p done s).out = s.out := by
  unfold advanceToMultiple; split <;> simp
theorem advanceToMultiple_regs (p done : Nat) (s : State) : (advanceToMultiple p done s).regs = s.regs := by
  unfold advanceToMultiple; split <;> simp

/-- The number and the time of a delay exchange. -/
def dlyNumbered (s : State) : State := setGlr { s.glr with dlyNum := (s.glr.dlyNum + 1) % 2 ^ 32, dlyAt := s.time } s

theorem dlyNumbered_out (s : State) : (dlyNumbered s).out = s.out := rfl
theorem dlyNumbered_modid (s : State) : modid (dlyNumbered s) = modid s := rfl

theorem sendLocal_out (o : Bool) (typ : Nat) (body : List Nat) (s : State) : (sendLocal o typ body s).out =
    s.out ++ [.frame o (frameBytes typ (modid s) 0xFE 1 0 0 false false body)] := rfl

/-- A delay exchange that goes out on port IN. -/
def dlySent (s : State) : State :=
  sendLocal false G.dlyReq [(s.glr.dlyNum + 1) % 2 ^ 32] (dlyNumbered (advanceToMultiple 1024 s.glr.dlyAt s))

theorem dlyExchangeSend_of_in (hbyp : s.glr.bypass = false) (hclk : clockRuns s = true) (hin : s.glr.inP.st = 2)
    (hout : s.glr.outP.st = 0) : dlyExchangeSend s = dlySent s := by
  have hglr := advanceToMultiple_glr 1024 s.glr.dlyAt s
  simp [dlyExchangeSend, dlySent, dlyNumbered, hbyp, hclk, State.each, gport, hglr, hin, hout, sendLocal]

/-- What HELLO makes of its port. -/
def heardHello (h : GHdr) (m : Nat) (s : State) : State :=
  let p := gport s h.onOut
  setGport h.onOut (if p.st = 2 then { p with nbr := m } else { GPort.reset with st := 2, nbr := m }) s

theorem heardHello_st (h : GHdr) (m : Nat) (s : State) : (gport (heardHello h m s) h.onOut).st = 2 := by
  rw [heardHello, gport_setGport_same]
  split
  case isTrue hst => exact hst
  case isFalse => rfl

theorem heardHello_nbr (h : GHdr) (m : Nat) (s : State) : (gport (heardHello h m s) h.onOut).nbr = m := by
  rw [heardHello, gport_setGport_same]
  split <;> rfl

/-- The sixteenth delay of a port makes its delay valid. -/
theorem dlyRsp_of_due {h : GHdr} (turn rt : Nat) (hbyp : s.glr.bypass = false) (hst : (gport s h.onOut).st = 2)
    (hlost : (gport s h.onOut).lostAt = none) (hcrc : h.crcOk = true) (hlen : (gport s h.onOut).delays.length = 15) :
    dlyRsp h s.glr.dlyNum turn rt s = setGport h.onOut { gport s h.onOut with
      delays := (gport s h.onOut).delays ++ [(rt - turn) / 2], dlyOk := true } s := by
  rw [dlyRsp, onLocal_of_good _ hbyp (locked_of (by omega) hlost) hcrc]
  simp [hst, hlen]

/-- Settles O45: one lemma for what each command comes to; what the split source adds stands aside of the ring. -/
theorem guylinePorts : Obligations.GuylinePorts := by
  unfold Obligations.GuylinePorts
  refine ⟨?_, ?_, ?_, ?_, ?_, ?_, ?_, ?_, ?_, ?_, ?_, ?_⟩
  · intro s o hbyp hst hlost
    refine ⟨_, congrArg (done s) (lockLoss_of_locked hbyp (locked_of hst hlost)), ?_, ?_, ?_, rfl⟩
    · exact (gport_congr rfl o).trans (gport_setGport_same o _ s)
    · exact (gport_congr rfl _).trans (gport_setGport_other o _ s)
    · rw [rd_settled, rd_bump_same]
      rfl
  · intro s o n hlost hclk
    refine ⟨_, congrArg (done s) (glrPortDown_of_lost hlost hclk), ?_⟩
    have ha := aside_portDown o (advanceTo (n + rd s .glr F.GLR_LOCK_TMO_TMO) s)
    have hp (q : Bool) : gport (settled s.pending (portDown o (advanceTo (n + rd s .glr F.GLR_LOCK_TMO_TMO) s))) q = _ :=
      gport_congr ha.glr q
    refine ⟨ha.tick.trans (advanceTo_tick _ hclk), ?_, ?_, ?_⟩
    · rw [hp, gport_setGport_same]
      rfl
    · rw [hp, gport_setGport_same]
      rfl
    · rw [hp, gport_setGport_other]
      exact gport_congr (advanceTo_glr ..) _
  · intro s o hbyp hst hlost
    refine ⟨_, congrArg (done s) (blockLockRegained_of_down hbyp hst hlost), ?_⟩
    have ha := aside_withSplit (startLocking o) s
    have hp (q : Bool) : gport (settled s.pending (withSplit (startLocking o) s)) q = gport (startLocking o s) q :=
      gport_congr ha.glr q
    refine ⟨?_, ?_, ?_, fun hfew => ?_⟩
    · rw [hp, gport_startLocking]
    · rw [hp, gport_startLocking_other]
    · refine ha.out.subset ?_
      rw [startLocking_out]
      simp
    · rw [withSplit_of_not_split (glrState_of_few ((glrBreaks_congr (startLocking_members o s)).trans_lt hfew))]
      exact ⟨startLocking_regs o s, startLocking_out o s⟩
  · intro s o n hbyp hlost hshort
    have hsame : glrState (setGport o { gport s o with lostAt := none } s) = glrState s := by
      cases o <;> exact glrState_congr rfl rfl rfl rfl
    refine ⟨_, congrArg (done s) ((blockLockRegained_of_short hbyp hlost hshort).trans (withSplit_of_same hsame)), ?_, rfl⟩
    exact (gport_congr rfl o).trans (gport_setGport_same o _ s)
  · intro s n htaps hcond
    refine ⟨_, congrArg (done s) (bypassOpen_locked htaps hcond), ?_⟩
    have ha := aside_withSplit unbypassed s
    rw [settled_glr, settled_tick, settled_out, ha.glr]
    refine ⟨unbypassed_bypass s, unbypassed_taps s, by rw [unbypassed_inP], by rw [unbypassed_outP], fun hfew => ?_,
      ha.tick.trans (unbypassed_tick s)⟩
    rw [withSplit_of_not_split (glrState_of_few ((glrBreaks_congr (unbypassed_members s)).trans_lt hfew)), unbypassed,
      startLocking_out, startLocking_out]
    simp [setGlr]
  · intro s n htaps hcond hclk
    refine ⟨_, congrArg (done s) (bypassOpen_timed htaps hcond hclk), ?_⟩
    have ha := aside_withSplit unbypassedUnlocked (advanceTo (n + 10000000) s)
    have htick := ha.tick.trans (unbypassedUnlocked_tick _)
    rw [settled_glr, settled_tick, ha.glr, htick]
    exact ⟨advanceTo_tick _ hclk, unbypassedUnlocked_bypass _, unbypassedUnlocked_inP _, unbypassedUnlocked_outP _⟩
  · intro s hbyp hcond
    refine ⟨_, congrArg (done s) (if_pos (by simp [hbyp, hcond])), rfl, rfl, rfl, ?_, rfl⟩
    simp [pinsOf, closeBypass]
  · intro s h m hbyp hst hlost hcrc
    refine ⟨_, congrArg (done s) (onLocal_of_good _ hbyp (locked_of hst hlost) hcrc), ?_⟩
    have hp (q : Bool) : gport (settled s.pending (withSplit (heardHello h m) s)) q = gport (heardHello h m s) q :=
      gport_congr (aside_withSplit (heardHello h m) s).glr q
    exact ⟨(congrArg GPort.st (hp _)).trans (heardHello_st h m s), (congrArg GPort.nbr (hp _)).trans (heardHello_nbr h m s),
      (hp _).trans (gport_setGport_other ..)⟩
  · intro s h num turn hbyp hst hlost hcrc
    exact ⟨_, congrArg (done s) (onLocal_of_good _ hbyp (locked_of hst hlost) hcrc), rfl, rfl⟩
  · intro s h num turn hbyp hst hlost hcrc
    refine ⟨_, congrArg (done s) (onLocal_of_bad _ hbyp (locked_of hst hlost) hcrc), rfl, rfl, ?_⟩
    rw [rd_settled, rd_bump_same]
    rfl
  · intro s h turn rt hbyp hst hlost hcrc hlen
    refine ⟨_, congrArg (done s) (dlyRsp_of_due turn rt hbyp hst hlost hcrc hlen), ?_⟩
    have hp (p : GPort) : gport (settled s.pending (setGport h.onOut p s)) h.onOut = p :=
      (gport_congr rfl _).trans (gport_setGport_same ..)
    exact ⟨congrArg GPort.dlyOk (hp _), congrArg GPort.delays (hp _), rfl⟩
  · intro s hbyp hclk _ hin hout
    refine ⟨_, congrArg (done s) (dlyExchangeSend_of_in hbyp hclk hin hout), ?_⟩
    have hglr := advanceToMultiple_glr 1024 s.glr.dlyAt s
    have hout := advanceToMultiple_out 1024 s.glr.dlyAt s
    have hnum : (settled s.pending (dlySent s)).glr.dlyNum = (s.glr.dlyNum + 1) % 2 ^ 32 := by
      rw [settled_glr, dlySent, sendLocal, say_glr, dlyNumbered, setGlr_glr, hglr]
    refine ⟨?_, hnum, ?_⟩
    · rw [settled_time, dlySent, sendLocal, say_time, dlyNumbered, setGlr_time]
      exact advanceToMultiple_mod _ (by decide) ⟨2 ^ 54, by norm_num⟩ hclk
    rw [hnum, settled_out, dlySent, sendLocal_out, dlyNumbered_out, dlyNumbered_modid, hout,
      modid_congr (advanceToMultiple_regs 1024 s.glr.dlyAt s)]
    rfl

end Sys2Proof.Machine
end

section
/-! SUPPORT. The bytes of a Guyline frame (14 R270, Tables 14.1, 14.2). -/
namespace Sys2Proof.Machine
variable {s t : State}

theorem leBytes_succ (n v : Nat) : leBytes (n + 1) v = v % 256 :: leBytes n (v / 256) := by
  simp only [leBytes, List.range_succ_eq_map, List.map_cons, List.map_map]
  congr 1
  · simp [bits]
  · refine List.map_congr_left fun k _ => ?_
    simp only [Function.comp_apply, bits, Nat.div_div_eq_div_mul]
    rw [show (256 : Nat) = 2 ^ 8 from rfl, ← pow_add, Nat.mul_succ, Nat.add_comm]

@[simp] theorem length_leBytes (n v : Nat) : (leBytes n v).length = n := by simp [leBytes]

theorem leVal_leBytes (n v : Nat) (h : v < 256 ^ n) : leVal (leBytes n v) = v := by
  induction n generalizing v with
  | zero =>
    have hv : v = 0 := by omega
    rw [hv]
    rfl
  | succ n ih =>
    have hdiv : v / 256 < 256 ^ n := Nat.div_lt_of_lt_mul (by rw [← Nat.pow_succ']; exact h)
    rw [leBytes_succ, leVal, List.foldr_cons, ← leVal, ih _ hdiv]
    omega

theorem lt_of_mem_leBytes {n v b : Nat} (h : b ∈ leBytes n v) : b < 256 := by
  obtain ⟨k, -, rfl⟩ := List.mem_map.mp h
  exact Nat.mod_lt _ (by decide)

theorem length_glrPayload (typ : Nat) (body : List Nat) : (glrPayload typ body).length = gLen typ := by
  unfold glrPayload gLen
  split <;> simp

theorem gLen_le (typ : Nat) : gLen typ ≤ 16 := by
  unfold gLen
  split <;> decide

/-- Byte 1 of a header: TURNS, SEQD, SYNC and CORR_INV (14 Table 14.1). -/
def flagByte (typ turns : Nat) (sync cinv : Bool) : Nat :=
  turns * 64 + (typ == G.rstReq || typ == G.rstCancel || typ == G.rstRsp).toNat * 32 + sync.toNat * 16 + cinv.toNat * 8

/-- The bytes of a header that follow its first five. -/
def headerRest (typ seq : Nat) : List Nat := 0 :: (leBytes 2 seq ++ leBytes 2 (gLen typ) ++ List.replicate 6 0)

theorem glrHeader_eq (typ src dst hops turns seq : Nat) (sync cinv : Bool) : glrHeader typ src dst hops turns seq sync cinv =
    typ :: flagByte typ turns sync cinv :: src :: dst :: hops :: headerRest typ seq := rfl

@[simp] theorem length_headerRest (typ seq : Nat) : (headerRest typ seq).length = 11 := by simp [headerRest]

/-- A frame is its front and the CRC of that. -/
theorem front_crc (o : Bool) (l : List Nat) (c : Nat) : GHdr.front ⟨o, l ++ leBytes 4 c⟩ = l := by
  simp [GHdr.front]

theorem drop_crc (l : List Nat) (c : Nat) : (l ++ leBytes 4 c).drop ((l ++ leBytes 4 c).length - 4) = leBytes 4 c :=
  List.drop_left' (by simp)

theorem front_frameBytes (o : Bool) (typ src dst hops turns seq : Nat) (sync cinv : Bool) (body : List Nat) :
    GHdr.front ⟨o, frameBytes typ src dst hops turns seq sync cinv body⟩ =
      glrHeader typ src dst hops turns seq sync cinv ++ glrPayload typ body := front_crc ..

theorem crcOk_frameBytes (o : Bool) (typ src dst hops turns seq : Nat) (sync cinv : Bool) (body : List Nat) :
    GHdr.crcOk ⟨o, frameBytes typ src dst hops turns seq sync cinv body⟩ = true := by
  rw [GHdr.crcOk, front_frameBytes, beq_iff_eq]
  exact (drop_crc _ _).symm

theorem payload_frameBytes (o : Bool) (typ src dst hops turns seq : Nat) (sync cinv : Bool) (body : List Nat) :
    GHdr.payload ⟨o, frameBytes typ src dst hops turns seq sync cinv body⟩ = glrPayload typ body := by
  rw [GHdr.payload, front_frameBytes, glrHeader_eq]
  exact List.drop_left' (by simp)

theorem flagByte_turns {typ turns : Nat} (sync cinv : Bool) (h : turns < 4) : bits (flagByte typ turns sync cinv) 6 2 = turns := by
  have := Bool.toNat_le (typ == G.rstReq || typ == G.rstCancel || typ == G.rstRsp)
  have := Bool.toNat_le sync
  have := Bool.toNat_le cinv
  simp only [bits, flagByte]
  omega

theorem flagByte_sync (typ turns : Nat) (sync cinv : Bool) : bit (flagByte typ turns sync cinv) 4 = sync := by
  unfold flagByte bit
  generalize (typ == G.rstReq || typ == G.rstCancel || typ == G.rstRsp) = b
  cases b <;> cases sync <;> cases cinv <;> simp <;> omega

theorem flagByte_cinv (typ turns : Nat) (sync cinv : Bool) : bit (flagByte typ turns sync cinv) 3 = cinv := by
  unfold flagByte bit
  generalize (typ == G.rstReq || typ == G.rstCancel || typ == G.rstRsp) = b
  cases b <;> cases sync <;> cases cinv <;> simp <;> omega

theorem flagByte_lt {typ turns : Nat} (sync cinv : Bool) (h : turns < 4) : flagByte typ turns sync cinv < 256 := by
  have := Bool.toNat_le (typ == G.rstReq || typ == G.rstCancel || typ == G.rstRsp)
  have := Bool.toNat_le sync
  have := Bool.toNat_le cinv
  simp only [flagByte]
  omega

/-- TURNS of a frame that is not turned is written as it was. -/
theorem flagByte_kept {typ turns : Nat} (sync cinv : Bool) (_h : turns < 4) :
    flagByte typ turns sync cinv % 64 + turns * 64 = flagByte typ turns sync cinv := by
  have := Bool.toNat_le (typ == G.rstReq || typ == G.rstCancel || typ == G.rstRsp)
  have := Bool.toNat_le sync
  have := Bool.toNat_le cinv
  simp only [flagByte]
  omega

/-- CORR_INV is set in a byte that does not have it. -/
theorem flagByte_invalid (typ turns : Nat) (sync cinv inv : Bool) :
    (if inv && !cinv then flagByte typ turns sync cinv + 8 else flagByte typ turns sync cinv) =
      flagByte typ turns sync (cinv || inv) := by
  cases cinv <;> cases inv <;> simp [flagByte]

theorem seq_frameBytes (o : Bool) (typ src dst hops turns : Nat) {seq : Nat} (sync cinv : Bool) (body : List Nat)
    (h : seq < 65536) : GHdr.seq ⟨o, frameBytes typ src dst hops turns seq sync cinv body⟩ = seq :=
  leVal_leBytes 2 seq h

theorem len_frameBytes (o : Bool) (typ src dst hops turns seq : Nat) (sync cinv : Bool) (body : List Nat) :
    GHdr.len ⟨o, frameBytes typ src dst hops turns seq sync cinv body⟩ = gLen typ :=
  leVal_leBytes 2 (gLen typ) (by have := gLen_le typ; omega)

/-- What a frame that is not turned is before the patch: the same with one hop less. -/
theorem forwarded_frameBytes (o : Bool) (typ src dst hops : Nat) {turns : Nat} (seq : Nat) (sync cinv : Bool) (body : List Nat)
    (patch : List Nat → List Nat) (h : turns < 4) :
    GHdr.forwarded ⟨o, frameBytes typ src dst hops turns seq sync cinv body⟩ false patch =
      let l := patch (glrHeader typ src dst (hops - 1) turns seq sync cinv ++ glrPayload typ body)
      l ++ leBytes 4 (crc32 l).toNat := by
  have hturns : GHdr.turns ⟨o, frameBytes typ src dst hops turns seq sync cinv body⟩ = turns := flagByte_turns sync cinv h
  have hhops : GHdr.hops ⟨o, frameBytes typ src dst hops turns seq sync cinv body⟩ = hops := rfl
  have hflag : (frameBytes typ src dst hops turns seq sync cinv body).getD 1 0 = flagByte typ turns sync cinv := rfl
  rw [GHdr.forwarded, hturns, hhops, front_frameBytes]
  dsimp only
  rw [hflag, Bool.toNat_false, Nat.add_zero, flagByte_kept sync cinv h, glrHeader_eq, glrHeader_eq]
  rfl

/-- The header fields of a frame made of them. -/
theorem fields_frameBytes (o : Bool) (typ src dst hops : Nat) {turns seq : Nat} (sync cinv : Bool) (body : List Nat)
    (hturns : turns < 4) (hseq : seq < 65536) :
    let h : GHdr := ⟨o, frameBytes typ src dst hops turns seq sync cinv body⟩
    (h.typ, h.src, h.dst, h.hops, h.turns, h.seq, h.sync, h.cinv) = (typ, src, dst, hops, turns, seq, sync, cinv) := by
  intro h
  have hturns : h.turns = turns := flagByte_turns sync cinv hturns
  have hseq : h.seq = seq := seq_frameBytes o typ src dst hops turns sync cinv body hseq
  have hsync : h.sync = sync := flagByte_sync typ turns sync cinv
  have hcinv : h.cinv = cinv := flagByte_cinv typ turns sync cinv
  rw [hturns, hseq, hsync, hcinv]
  rfl

theorem glrBody_time {e dep corr : Nat} (he : e < 2 ^ 64) (hdep : dep < 2 ^ 32) (hcorr : corr < 2 ^ 32) :
    glrBody 0x11 (glrPayload 0x11 [e, dep, corr]) = [e, dep, corr] := by
  have hp : glrPayload 0x11 [e, dep, corr] = leBytes 8 e ++ leBytes 4 dep ++ leBytes 4 corr := rfl
  have h8 := leVal_leBytes 8 e he
  have h4 := leVal_leBytes 4 dep hdep
  have hc := leVal_leBytes 4 corr hcorr
  have d12 : (leBytes 8 e ++ leBytes 4 dep ++ leBytes 4 corr).drop 12 = leBytes 4 corr := List.drop_left' (by simp)
  simp only [glrBody, hp, d12]
  have t4 : (leBytes 4 corr).take 4 = leBytes 4 corr := List.take_of_length_le (by simp)
  simp [List.drop_append, h8, h4, hc, t4]

/-- A TIME frame made of its values carries them. -/
theorem carries_time (o : Bool) {src dst hops turns seq e dep corr : Nat} (sync cinv : Bool) (hsrc : src < 256) (hdst : dst < 256)
    (hhops : hops < 256) (hturns : turns < 4) (he : e < 2 ^ 64) (hdep : dep < 2 ^ 32) (hcorr : corr < 2 ^ 32) :
    GHdr.carries ⟨o, frameBytes 0x11 src dst hops turns seq sync cinv [e, dep, corr]⟩ 0x11 [e, dep, corr] = true := by
  have hflag := flagByte_lt (typ := 0x11) sync cinv hturns
  have hbytes : ∀ b ∈ frameBytes 0x11 src dst hops turns seq sync cinv [e, dep, corr], b < 256 := by
    have hle (n v : Nat) : ∀ b ∈ leBytes n v, b < 256 := fun _ hb => lt_of_mem_leBytes hb
    have hrest : ∀ b ∈ headerRest 0x11 seq, b < 256 := by
      simp only [headerRest, List.forall_mem_cons, List.forall_mem_append]
      exact ⟨by decide, ⟨hle 2 _, hle 2 _⟩, by decide⟩
    have hp : glrPayload 0x11 [e, dep, corr] = leBytes 8 e ++ leBytes 4 dep ++ leBytes 4 corr := rfl
    simp only [frameBytes, glrHeader_eq, hp, List.forall_mem_append, List.forall_mem_cons]
    exact ⟨⟨⟨by decide, hflag, hsrc, hdst, hhops, hrest⟩, ⟨hle 8 _, hle 4 _⟩, hle 4 _⟩, hle 4 _⟩
  have hall : (frameBytes 0x11 src dst hops turns seq sync cinv [e, dep, corr]).all (fun b => decide (b < 256)) = true := by
    simpa using hbytes
  rw [GHdr.carries, payload_frameBytes, len_frameBytes, glrBody_time he hdep hcorr, hall]
  simp [GHdr.typ, frameBytes, glrHeader_eq, gLen, length_glrPayload]

/-- Compensation of a TIME frame: CORR and CORR_INV are replaced, all else is as it was. -/
theorem timePatch_time (src dst hops turns seq e dep corr corr' : Nat) (sync cinv inv : Bool) :
    timePatch corr' inv (glrHeader 0x11 src dst hops turns seq sync cinv ++ glrPayload 0x11 [e, dep, corr]) =
      glrHeader 0x11 src dst hops turns seq sync (cinv || inv) ++ glrPayload 0x11 [e, dep, corr'] := by
  rw [timePatch]
  have hflag : (glrHeader 0x11 src dst hops turns seq sync cinv ++ glrPayload 0x11 [e, dep, corr]).getD 1 0 =
    flagByte 0x11 turns sync cinv := rfl
  rw [hflag, flagByte_cinv, flagByte_invalid]
  rfl

end Sys2Proof.Machine
end

section
/-! SUPPORT. Frames on their way round the ring, and its members (14 R270-R281); O46. -/
namespace Sys2Proof.Machine
variable {s t : State}

/-! ### Frames of others (14 R271, R272) -/

theorem isSelf_of_ne {m : Nat} (h : m ≠ modid s) : isSelf s m = false := by simp [isSelf, h]

theorem isSelf_of_eq {m : Nat} (hid : hasModid s = true) (h : m = modid s) : isSelf s m = true := by simp [isSelf, hid, h]

/-- A port by the state of the one that forwards. -/
theorem turn_eq (s : State) (o : Bool) : (if o then s.glr.inP.st == 0 else s.glr.outP.st == 0) = ((gport s (!o)).st == 0) := by
  cases o <;> rfl

/-- A frame for all modules is consumed, and goes on with one hop less. -/
theorem onRing_of_all {h : GHdr} (patch : List Nat → List Nat) (consume : State → State) (hbyp : s.glr.bypass = false)
    (hlock : (gport s h.onOut).locked = true) (hcrc : h.crcOk = true) (hsrc : h.src ≠ modid s) (hnext : (gport s (!h.onOut)).st ≠ 0)
    (hhops : 1 < h.hops) (hdst : h.dst = 0xFF) (hid : modid s ≠ 0xFF) :
    onRing h patch consume s = (consume s).say (.frame (!h.onOut) (h.forwarded false patch)) := by
  have hown : isSelf s h.dst = false := isSelf_of_ne (by rw [hdst]; exact hid.symm)
  have hturn : (if h.onOut then s.glr.inP.st == 0 else s.glr.outP.st == 0) = false := by
    rw [turn_eq]
    simpa using hnext
  unfold onRing
  dsimp only
  rw [hturn, hown, isSelf_of_ne hsrc]
  simp [hbyp, hlock, hcrc, hdst, State.when, Nat.not_le.mpr hhops]

/-- A frame for this module ends here. -/
theorem onRing_of_own {h : GHdr} (patch : List Nat → List Nat) (consume : State → State) (hr : RingTakes s h) :
    onRing h patch consume s = consume s := by
  obtain ⟨hbyp, hst, hlost, hcrc, hsrc, hdst, hid, hhops⟩ := hr
  have hlock := locked_of hst hlost
  unfold onRing
  dsimp only
  rw [isSelf_of_ne hsrc, isSelf_of_eq hid hdst]
  simp [hbyp, hlock, hcrc, State.when, Nat.not_le.mpr hhops]

/-- A frame with no hop left is discarded. -/
theorem onRing_of_spent {h : GHdr} (patch : List Nat → List Nat) (consume : State → State) (hbyp : s.glr.bypass = false)
    (hlock : (gport s h.onOut).locked = true) (hcrc : h.crcOk = true) (hsrc : h.src ≠ modid s) (hhops : h.hops ≤ 1) :
    onRing h patch consume s = bump .glr F.GLR_CNT_FWD_DISC s := by
  unfold onRing
  dsimp only
  rw [isSelf_of_ne hsrc]
  simp [hbyp, hlock, hcrc, hhops]

/-! ### Frames of the module's own (14 R272, R273) -/

/-- A frame is counted against the budget of its epoch. -/
def budgeted (f : GFrame) (s : State) : State := setGlr { s.glr with bytes := s.glr.bytes + (20 + gLen f.typ) } s

/-- A frame of the module's own within the budget. -/
def ringSent (f : GFrame) (s : State) : State :=
  (budgeted f s).say (.frame true (frameBytes f.typ (modid s) f.dst 64 0 f.seq f.sync false f.body))

theorem ownPort_budgeted (f : GFrame) (s : State) : ownPort (budgeted f s) = ownPort s := rfl

theorem glrPut_of_sends (f : GFrame) (h : RingSends s) : glrPut f s = ringSent f s := by
  obtain ⟨hbyp, hid, hout, hq, hbytes⟩ := h
  have hlen := gLen_le f.typ
  have hport : ownPort s = some true := by simp [ownPort, hbyp, hout]
  have hfits : ¬ 32768 < s.glr.bytes + (20 + gLen f.typ) := by omega
  unfold glrPut
  dsimp only
  rw [if_neg (by simp [hid, hport]), if_neg (by simp [hq, hfits]), ← budgeted, glrEmit, ownPort_budgeted, hport]
  rfl

theorem ringSent_out (f : GFrame) (s : State) : (ringSent f s).out =
    s.out ++ [.frame true (frameBytes f.typ (modid s) f.dst 64 0 f.seq f.sync false f.body)] := rfl
@[simp] theorem ringSent_regs (f : GFrame) (s : State) : (ringSent f s).regs = s.regs := rfl
@[simp] theorem ringSent_time (f : GFrame) (s : State) : (ringSent f s).time = s.time := rfl
@[simp] theorem ringSent_tick (f : GFrame) (s : State) : (ringSent f s).tick = s.tick := rfl
theorem ringSent_glr (f : GFrame) (s : State) :
    (ringSent f s).glr = { s.glr with bytes := s.glr.bytes + (20 + gLen f.typ) } := rfl

/-! ### Members (14 R277, R278) -/

/-- The first heartbeat of a module makes it a member. -/
theorem takeBeat_of_first {src : Nat} (b : Beat) (hsrc : src < 0xFE) (hm : s.glr.members = []) :
    takeBeat src b s = wr .glr F.GLR_STS_MEMB_CHG 1 (setGlr { s.glr with members := [⟨src, b, 0, true⟩] } s) := by
  simp [takeBeat, hm, Nat.not_le.mpr hsrc, insMember]

/-- What a heartbeat leaves of a state for the frames of the module's own. -/
structure SendsAlike (s t : State) : Prop where
  bypass : t.glr.bypass = s.glr.bypass
  outP : t.glr.outP = s.glr.outP
  queue : t.glr.queue = s.glr.queue
  bytes : t.glr.bytes = s.glr.bytes
  modid : modid t = modid s
  time : t.time = s.time

theorem SendsAlike.sends (h : SendsAlike s t) (hs : RingSends s) : RingSends t := by
  obtain ⟨hbyp, hid, hout, hq, hbytes⟩ := hs
  exact ⟨h.bypass.trans hbyp, by rwa [hasModid, h.modid], by rwa [h.outP], h.queue.trans hq, by rwa [h.bytes]⟩

theorem modid_wr_glr (f : Fld) (v : Nat) (s : State) (hf : f.off * 8 + f.lo < 0x8000) : modid (wr .glr f v s) = modid s :=
  rd_wr_page s v (by decide) hf (by decide)

theorem takeBeat_sends (src : Nat) (b : Beat) (s : State) : SendsAlike s (takeBeat src b s) := by
  unfold takeBeat
  dsimp only
  split_ifs
  · exact ⟨rfl, rfl, rfl, rfl, rfl, rfl⟩
  · exact ⟨rfl, rfl, rfl, rfl, rfl, rfl⟩
  · exact ⟨rfl, rfl, rfl, rfl, modid_wr_glr _ _ _ (by decide), rfl⟩
  · exact ⟨rfl, rfl, rfl, rfl, modid_wr_glr _ _ _ (by decide), rfl⟩

/-- Ticks since tick 8,192 of the epoch. -/
def beatPhase (s : State) : Nat := (s.time + epochTicks - 8192) % epochTicks

/-- Time goes on to the next tick of a phase. -/
def phaseOver (r : Nat) (s : State) : State := if r = 0 ∧ s.glr.hbAt ≠ s.time then s else passTicks (epochTicks - r) s

theorem phaseOver_glr (r : Nat) (s : State) : (phaseOver r s).glr = s.glr := by unfold phaseOver; split <;> simp
theorem phaseOver_regs (r : Nat) (s : State) : (phaseOver r s).regs = s.regs := by unfold phaseOver; split <;> simp

/-- The instant of the module's own heartbeat, tick 8,192 of an epoch. -/
def beatTime (s : State) : State := phaseOver (beatPhase s) s

theorem phaseOver_mod {r : Nat} (hclk : clockRuns s = true) (hr : r = (s.time + 122880) % 131072) :
    (phaseOver r s).time % 2 ^ 17 = 8192 := by
  have hepoch : epochTicks = 131072 := rfl
  unfold phaseOver
  split
  case isTrue h =>
    obtain ⟨h0, -⟩ := h
    omega
  case isFalse =>
    rw [passTicks_time _ hclk, Nat.mod_mod_of_dvd _ ⟨2 ^ 47, by norm_num⟩, hepoch]
    omega

theorem beatTime_mod (hclk : clockRuns s = true) : (beatTime s).time % 2 ^ 17 = 8192 := by
  refine phaseOver_mod hclk ?_
  unfold beatPhase epochTicks
  omega

theorem beatTime_glr (s : State) : (beatTime s).glr = s.glr := phaseOver_glr _ s
theorem beatTime_regs (s : State) : (beatTime s).regs = s.regs := phaseOver_regs _ s

/-- The state in which a heartbeat of the module's own goes out. -/
def beatNoted (s : State) : State := setGlr { (beatTime s).glr with hbAt := (beatTime s).time } (beatTime s)

theorem beatNoted_sends (h : RingSends s) : RingSends (beatNoted s) := by
  obtain ⟨hbyp, hid, hout, hq, hbytes⟩ := h
  have hglr := beatTime_glr s
  have hm : modid (beatNoted s) = modid s :=
    modid_congr (by rw [beatNoted, setGlr_regs, beatTime_regs])
  rw [RingSends, hasModid, hm, beatNoted, setGlr_glr, hglr]
  exact ⟨hbyp, hid, hout, hq, hbytes⟩

/-- The module hears its own heartbeat, and sends it. -/
def beatSent (b : Beat) (s : State) : State := s |> takeBeat (modid s) b |> glrPut ⟨0xFF, 0, false, G.heartbeat, b.body⟩

theorem heartbeatSend_of_sends (h : RingSends s) (hclk : clockRuns s = true) :
    heartbeatSend s = withSplit (beatSent (ownBeat (beatTime s))) (beatNoted s) := by
  obtain ⟨hbyp, hid, -⟩ := h
  unfold heartbeatSend
  rw [if_neg (by simp [hbyp, hid, hclk])]
  unfold beatNoted beatTime phaseOver beatPhase beatSent
  rfl

theorem beatSent_of_sends (b : Beat) (h : RingSends s) :
    beatSent b s = ringSent ⟨0xFF, 0, false, G.heartbeat, b.body⟩ (takeBeat (modid s) b s) :=
  glrPut_of_sends _ ((takeBeat_sends ..).sends h)

/-! ### A member that lapses (14 R276, R277) -/

@[simp] theorem gslot_setGslot_same (i : Nat) (x : GSlot) (s : State) : gslot (setGslot i x s) i = x := tget_tput_same ..

theorem gslot_setGslot_other {i j : Nat} (x : GSlot) (s : State) (h : i ≠ j) : gslot (setGslot i x s) j = gslot s j :=
  tget_tput_other _ _ _ _ h

/-- A slot that waits for a member fails when the member has left. -/
def slotLost (dst i : Nat) (s : State) : State :=
  let x := gslot s i
  if x.dst = dst ∧ (x.st = 1 ∨ x.st = 2) then setGslot i { x with st := 4 } s else s

theorem slotLost_cases (dst i : Nat) (s : State) : slotLost dst i s = s ∨ ∃ x, slotLost dst i s = setGslot i x s := by
  unfold slotLost
  dsimp only
  split
  · exact .inr ⟨_, rfl⟩
  · exact .inl rfl

theorem gslot_slotLost_other {dst i j : Nat} (s : State) (h : i ≠ j) : gslot (slotLost dst i s) j = gslot s j := by
  obtain hs | ⟨x, hs⟩ := slotLost_cases dst i s
  · rw [hs]
  · rw [hs, gslot_setGslot_other x s h]

theorem gslot_slotLost_same {dst i : Nat} (hdst : (gslot s i).dst = dst) (hst : (gslot s i).st = 1 ∨ (gslot s i).st = 2) :
    (gslot (slotLost dst i s) i).st = 4 := by
  rw [slotLost, if_pos ⟨hdst, hst⟩, gslot_setGslot_same]

theorem gslot_slotsLost {dst i : Nat} (l : List Nat) (s : State) (hnd : l.Nodup) (hi : i ∈ l) (hdst : (gslot s i).dst = dst)
    (hst : (gslot s i).st = 1 ∨ (gslot s i).st = 2) : (gslot (s.each l (slotLost dst)) i).st = 4 := by
  induction l generalizing s with
  | nil => simp at hi
  | cons a l ih =>
    obtain ⟨ha, hl⟩ := List.nodup_cons.mp hnd
    by_cases hai : a = i
    · subst hai
      have hkeep : gslot ((slotLost dst a s).each l (slotLost dst)) a = gslot (slotLost dst a s) a :=
        each_keeps (fun u => gslot u a) (fun b hb u => gslot_slotLost_other u (fun h => ha (h ▸ hb))) _
      exact (congrArg GSlot.st hkeep).trans (gslot_slotLost_same hdst hst)
    · have hkeep := gslot_slotLost_other (dst := dst) s hai
      exact ih (slotLost dst a s) hl ((List.mem_cons.mp hi).resolve_left (Ne.symm hai)) (by rwa [hkeep]) (by rwa [hkeep])

/-- What the slots' failure leaves: all of the ring but the slots. -/
theorem slotLost_keeps {β : Type} (φ : State → β) (h : ∀ i x u, φ (setGslot i x u) = φ u) (dst i : Nat) (s : State) :
    φ (slotLost dst i s) = φ s := by
  obtain hs | ⟨x, hs⟩ := slotLost_cases dst i s
  · rw [hs]
  · rw [hs, h]

/-- A member that leaves, with what waited for it. -/
def memberGone (dst : Nat) (s : State) : State :=
  s |> setGlr { s.glr with members := s.glr.members.filter (·.modid != dst) } |> wr .glr F.GLR_STS_MEMB_CHG 1 |> dropDest dst

theorem lapse_eq (dst : Nat) (s : State) : lapse dst s = (memberGone dst s).each (List.range 8) (slotLost dst) := rfl

/-- The ring's queues without the frames to a destination. -/
def cleared (dst : Nat) (g : Glr) : Glr :=
  { g with
    frames := g.frames.filter (·.dst != dst), waitSeq := g.waitSeq.filter (·.1 != dst)
    queue := g.queue.filter fun f => f.dst != dst || f.typ == G.ack
    txSeq := tput none g.txSeq dst none, rplFrom := tput none g.rplFrom dst none }

theorem glrUnwait_of_none (h : s.glr.waitSeq = []) : glrUnwait s = s := by
  unfold glrUnwait
  dsimp only
  rw [h]
  show setGlr { s.glr with waitSeq := [] } s = s
  rw [← h]
  rfl

/-- With no sequenced frame waiting for room, a destination's frames are dropped and perhaps counted. -/
theorem dropDest_cases (dst : Nat) (h : s.glr.waitSeq = []) : dropDest dst s = setGlr (cleared dst s.glr) s ∨
    dropDest dst s = bump .glr F.GLR_RPL_CNT_UNREACH (setGlr (cleared dst s.glr) s) := by
  have hw : (cleared dst s.glr).waitSeq = [] := by simp [cleared, h]
  unfold dropDest
  dsimp only
  rw [← cleared]
  cases s.glr.frames.any (·.dst == dst)
  · exact .inl (glrUnwait_of_none hw)
  · exact .inr (glrUnwait_of_none hw)

theorem dropDest_glr (dst : Nat) (h : s.glr.waitSeq = []) : (dropDest dst s).glr = cleared dst s.glr := by
  obtain hd | hd := dropDest_cases dst h
  · rw [hd, setGlr_glr]
  · rw [hd, bump_glr, setGlr_glr]

theorem rd_dropDest (dst : Nat) (h : s.glr.waitSeq = []) : rd (dropDest dst s) .glr F.GLR_STS_MEMB_CHG =
    rd s .glr F.GLR_STS_MEMB_CHG := by
  obtain hd | hd := dropDest_cases dst h
  · rw [hd, rd_setGlr]
  · rw [hd, bump, bumpBy, rd_wr_place _ _ (by decide), rd_setGlr]

theorem memberGone_glr (dst : Nat) (h : s.glr.waitSeq = []) :
    (memberGone dst s).glr = cleared dst { s.glr with members := s.glr.members.filter (·.modid != dst) } := by
  unfold memberGone
  rw [dropDest_glr dst (by rw [wr_glr, setGlr_glr]; exact h), wr_glr, setGlr_glr]

theorem rd_memberGone (dst : Nat) (h : s.glr.waitSeq = []) : rd (memberGone dst s) .glr F.GLR_STS_MEMB_CHG = 1 := by
  unfold memberGone
  rw [rd_dropDest dst (by rw [wr_glr, setGlr_glr]; exact h), rd_wr_of_lt _ (by decide)]

/-- What the failure of slots leaves of a lapse. -/
theorem lapse_keeps {β : Type} (φ : State → β) (h : ∀ i x u, φ (setGslot i x u) = φ u) (dst : Nat) (s : State) :
    φ (lapse dst s) = φ (memberGone dst s) := by
  rw [lapse_eq]
  exact each_keeps φ (fun i _ u => slotLost_keeps φ h dst i u) _

theorem gslot_memberGone (dst i : Nat) (h : s.glr.waitSeq = []) : gslot (memberGone dst s) i = gslot s i := by
  rw [gslot, memberGone_glr dst h]
  rfl

/-- A member without heartbeats leaves. -/
theorem memberLapse_of_missed {m : Member} (hm : s.glr.members = [m]) (hmiss : rd s .glr F.GLR_CFG_HB_MISS ≤ m.missed) :
    memberLapse m.modid s = withSplit (lapse m.modid) s := by
  simp [memberLapse, hm, Nat.not_lt.mpr hmiss]

/-! ### Time frames (14 R280, R281) -/

/-- A TIME frame states no more than a time that waits, while the module is UNSET. -/
theorem ringTime_of_unset (v i : Nat) (hunset : ftmUnset s = true) (htset : s.ftm.tset = none) :
    ∃ f, ringTime v i s = setFtm f s := by
  have hover : timeSetOverdue s = s := by simp [timeSetOverdue, htset]
  unfold ringTime
  split
  · exact ⟨s.ftm, rfl⟩
  · dsimp only
    rw [hover]
    cases (ftmUnset s || s.ftm.tset.isSome) && s.ftm.ringPend.isNone
    · exact ⟨s.ftm, if_pos hunset⟩
    · exact ⟨_, if_pos hunset⟩

/-- A TIME frame changes no more than the ring's masters and what waits for the count, while the module is UNSET. -/
theorem takeTime_of_unset {h : GHdr} (e dep corr arr : Nat) (hlow : s.glr.lowMaster = none) (hunset : ftmUnset s = true)
    (htset : s.ftm.tset = none) : ∃ g f, takeTime h e dep corr arr s = setFtm f (setGlr g s) ∧ g.lowMaster = some h.src := by
  have hmaster (g : Glr) : isMaster (setGlr g s) = false := by
    have : ftmUnset (setGlr g s) = true := hunset
    simp [isMaster, this]
  unfold takeTime
  dsimp only
  rw [hlow]
  simp only [State.when, if_true, hmaster, Bool.false_and, Bool.false_eq_true, if_false, Bool.not_true, Bool.false_or]
  split
  · exact ⟨{ s.glr with lowMaster := some h.src, lowAge := 0 }, s.ftm, rfl, rfl⟩
  · obtain ⟨f, hf⟩ := ringTime_of_unset (s := setGlr { s.glr with lowMaster := some h.src, lowAge := 0, timeSeen := true } s)
      ((e + 1) * epochTicks) ((s.tick * 160 + arr - corr - dep + 80) / 160 + epochTicks) hunset htset
    exact ⟨{ s.glr with lowMaster := some h.src, lowAge := 0, timeSeen := true }, f, hf, rfl⟩

/-- The master of an epoch is acting, and its TIME frame counts as sent. -/
def timeNoted (s : State) : State :=
  s |> setGlr { s.glr with sentEpoch := some (epochOf s.time) } |> wr .glr F.GLR_STS_MASTER_ACT 1

theorem timeNoted_sends (s : State) : SendsAlike s (timeNoted s) :=
  ⟨rfl, rfl, rfl, rfl, modid_wr_glr _ _ _ (by decide), rfl⟩

/-- A TIME frame of a master. -/
def timeFrame (dep : Nat) (s : State) : GFrame := ⟨0xFF, 0, false, G.timeT, [epochOf s.time, dep, 0]⟩

/-- The master of an epoch sends TIME at tick 4,096. -/
theorem timeSend_of_master (dep : Nat) (h : RingSends s) (hclk : clockRuns s = true) (hm : isMaster s = true)
    (hy : rdb s .glr F.GLR_STS_YIELD = false) (hlow : s.time % epochTicks < 4096)
    (hsent : s.glr.sentEpoch ≠ some (epochOf (passTicks (4096 - s.time % epochTicks) s).time)) :
    timeSend dep s = glrPut (timeFrame dep (passTicks (4096 - s.time % epochTicks) s))
      (timeNoted (passTicks (4096 - s.time % epochTicks) s)) := by
  unfold timeSend
  rw [if_neg (by simp [h.1, hclk]), if_neg (by simp [hm, hy])]
  dsimp only
  rw [if_pos hlow, if_neg (by rw [passTicks_glr]; exact hsent)]
  rfl

theorem timeSend_of_yield (dep : Nat) (hbyp : s.glr.bypass = false) (hclk : clockRuns s = true)
    (hy : rdb s .glr F.GLR_STS_YIELD = true) : timeSend dep s = wr .glr F.GLR_STS_MASTER_ACT 0 s := by
  simp [timeSend, hbyp, hclk, hy]

theorem passTicks_sends (n : Nat) (h : RingSends s) : RingSends (passTicks n s) := by
  have hm : modid (passTicks n s) = modid s := modid_congr (passTicks_regs s n)
  rwa [RingSends, hasModid, hm, passTicks_glr]

theorem slotEpoch_time {n : Nat} (hlow : n % 2 ^ 17 < 4096) (hn : n < 2 ^ 64) :
    (n + (4096 - n % 2 ^ 17)) % 2 ^ 64 % 2 ^ 17 = 4096 ∧ (n + (4096 - n % 2 ^ 17)) % 2 ^ 64 / 2 ^ 17 = n / 2 ^ 17 := by
  omega

theorem lapse_members {m : Member} (hm : s.glr.members = [m]) (hw : s.glr.waitSeq = []) :
    (lapse m.modid s).glr.members = [] := by
  rw [lapse_keeps (fun u => u.glr.members) (fun _ _ _ => rfl), memberGone_glr _ hw]
  simp [cleared, hm]

theorem lapse_frames (dst : Nat) (hw : s.glr.waitSeq = []) : (lapse dst s).glr.frames = s.glr.frames.filter (·.dst != dst) := by
  rw [lapse_keeps (fun u => u.glr.frames) (fun _ _ _ => rfl), memberGone_glr _ hw]
  rfl

theorem lapse_queue (dst : Nat) (hw : s.glr.waitSeq = []) :
    (lapse dst s).glr.queue = s.glr.queue.filter fun f => f.dst != dst || f.typ == G.ack := by
  rw [lapse_keeps (fun u => u.glr.queue) (fun _ _ _ => rfl), memberGone_glr _ hw]
  rfl

theorem rd_lapse (dst : Nat) (hw : s.glr.waitSeq = []) : rd (lapse dst s) .glr F.GLR_STS_MEMB_CHG = 1 := by
  rw [lapse_keeps (fun u => rd u .glr F.GLR_STS_MEMB_CHG) (fun _ _ _ => rfl), rd_memberGone _ hw]

theorem gslot_lapse {dst i : Nat} (hw : s.glr.waitSeq = []) (hi : i < 8) (hdst : (gslot s i).dst = dst)
    (hst : (gslot s i).st = 1 ∨ (gslot s i).st = 2) : (gslot (lapse dst s) i).st = 4 := by
  have hgone := gslot_memberGone dst i hw
  rw [lapse_eq]
  exact gslot_slotsLost _ _ List.nodup_range (List.mem_range.mpr hi) (by rwa [hgone]) (by rwa [hgone])

/-- A member without heartbeats leaves, and what waited for it is gone. -/
theorem memberLapse_leaves {m : Member} (hm : s.glr.members = [m]) (hmiss : rd s .glr F.GLR_CFG_HB_MISS ≤ m.missed)
    (hw : s.glr.waitSeq = []) :
    ∃ t, exec (.memberLapse m.modid) s = .next t ∧ t.glr.members = [] ∧ rd t .glr F.GLR_STS_MEMB_CHG = 1 ∧
      (∀ f ∈ t.glr.frames, f.dst ≠ m.modid) ∧ (∀ f ∈ t.glr.queue, f.dst = m.modid → f.typ = 0x30) ∧
      (∀ i, i < 8 → (gslot s i).dst = m.modid → (gslot s i).st = 1 ∨ (gslot s i).st = 2 → (gslot t i).st = 4) := by
  refine ⟨_, congrArg (done s) (memberLapse_of_missed hm hmiss), ?_⟩
  have ha := aside_withSplit (lapse m.modid) s
  have hslot (i : Nat) : gslot (settled s.pending (withSplit (lapse m.modid) s)) i = gslot (lapse m.modid s) i := by
    rw [gslot, settled_glr, ha.glr, ← gslot]
  rw [settled_glr, rd_settled, ha.glr, ha.rd _ _ (asidePage_of_base (by decide) (by decide)) (by decide)]
  refine ⟨lapse_members hm hw, rd_lapse _ hw, fun f hf => ?_, fun f hf hdst => ?_, fun i hi hdst hst => ?_⟩
  · rw [lapse_frames _ hw] at hf
    simpa using (List.mem_filter.mp hf).2
  · rw [lapse_queue _ hw] at hf
    simpa [hdst, G.ack] using (List.mem_filter.mp hf).2
  · rw [hslot]
    exact gslot_lapse hw hi hdst hst

/-- A master sends TIME at tick 4,096 of an epoch. -/
theorem timeSend_sends (dep : Nat) (h : RingSends s) (hclk : clockRuns s = true) (hm : isMaster s = true)
    (hy : rdb s .glr F.GLR_STS_YIELD = false) (htime : s.time < 2 ^ 64) (hlow : s.time % 2 ^ 17 < 4096)
    (hsent : s.glr.sentEpoch ≠ some (s.time / 2 ^ 17)) :
    ∃ t, exec (.timeSend dep) s = .next t ∧ t.time % 2 ^ 17 = 4096 ∧ rd t .glr F.GLR_STS_MASTER_ACT = 1 ∧
      t.glr.sentEpoch = some (s.time / 2 ^ 17) ∧
      t.out = s.out ++ [.frame true (frameBytes 0x11 (modid s) 0xFF 64 0 0 false false [s.time / 2 ^ 17, dep, 0])] := by
  obtain ⟨hmod, hdiv⟩ := slotEpoch_time hlow htime
  generalize hu : passTicks (4096 - s.time % epochTicks) s = u
  have htk : u.time = (s.time + (4096 - s.time % 2 ^ 17)) % 2 ^ 64 := by rw [← hu, passTicks_time _ hclk, epochTicks]
  have hepoch : epochOf u.time = s.time / 2 ^ 17 := by rw [epochOf, htk, hdiv]
  have hp : RingSends u := hu ▸ passTicks_sends _ h
  have hout : u.out = s.out := by rw [← hu, passTicks_out]
  have hid : modid u = modid s := by rw [← hu, modid_congr (passTicks_regs s _)]
  have hn := timeNoted_sends u
  have hrun : timeSend dep s = ringSent (timeFrame dep u) (timeNoted u) := by
    rw [timeSend_of_master dep h hclk hm hy hlow (by rw [hu, hepoch]; exact hsent), hu, glrPut_of_sends _ (hn.sends hp)]
  refine ⟨_, congrArg (done s) hrun, ?_⟩
  rw [settled_glr, settled_time, settled_out, rd_settled, ringSent_time, ringSent_out, hn.time, hn.modid, htk, hid, ringSent_glr,
    timeFrame, hepoch]
  refine ⟨hmod, ?_, ?_, ?_⟩
  · rw [rd_congr (ringSent_regs _ _), timeNoted, rd_wr_of_lt _ (by decide)]
  · rw [timeNoted, wr_glr, setGlr_glr, hepoch]
  · rw [timeNoted, wr_out, setGlr_out, hout]
    rfl

/-- Settles O46. -/
theorem guylineMembers : Obligations.GuylineMembers := by
  unfold Obligations.GuylineMembers
  refine ⟨?_, ?_, ?_, ?_, ?_, ?_, ?_, ?_, ?_⟩
  · intro o typ src dst hops turns seq sync cinv body _ _ _ _ hturns hseq
    refine ⟨fields_frameBytes o typ src dst hops sync cinv body hturns hseq, len_frameBytes .., payload_frameBytes ..,
      crcOk_frameBytes .., ?_⟩
    exact forwarded_frameBytes o typ src dst hops seq sync cinv body id hturns
  · intro o src dst hops turns seq e dep corr corr' sync cinv inv hsrc hdst hhops hturns _ he hdep hcorr
    refine ⟨carries_time o sync cinv hsrc hdst hhops hturns he hdep hcorr, ?_⟩
    rw [forwarded_frameBytes o 0x11 src dst hops seq sync cinv _ _ hturns, timePatch_time]
    rfl
  · intro s h b hbyp hst hlost hnext hcrc hsrc hlt hdst hid hhops hm
    refine ⟨_, rfl, ?_⟩
    have hrun := (onRing_of_all id (takeBeat h.src b) hbyp (locked_of hst hlost) hcrc hsrc hnext hhops hdst hid).trans
      (congrArg (State.say _) (takeBeat_of_first b hlt hm))
    have ha := aside_withSplit (onRing h id (takeBeat h.src b)) s
    rw [hrun] at ha
    rw [settled_glr, rd_settled, settled_out]
    refine ⟨(congrArg Glr.members ha.glr).trans ?_, (ha.rd _ _ (asidePage_of_base (by decide) (by decide)) (by decide)).trans ?_, ?_⟩
    · rw [say_glr, wr_glr, setGlr_glr]
    · rw [rd_say, rd_wr_of_lt _ (by decide)]
    · exact ha.out.subset (List.mem_append_right _ (List.mem_singleton_self _))
  · intro s h b hbyp hst hlost hcrc hsrc hhops
    have hrun := onRing_of_spent id (takeBeat h.src b) hbyp (locked_of hst hlost) hcrc hsrc hhops
    have hsame : glrState (onRing h id (takeBeat h.src b) s) = glrState s := by
      rw [hrun]
      exact glrState_congr rfl rfl rfl rfl
    refine ⟨_, congrArg (done s) ((withSplit_of_same hsame).trans hrun), rfl, rfl, ?_⟩
    rw [rd_settled, rd_bump_same]
    rfl
  · intro s h hclk _
    refine ⟨_, congrArg (done s) (heartbeatSend_of_sends h hclk), ?_⟩
    have hsend := beatSent_of_sends (ownBeat (beatTime s)) (beatNoted_sends h)
    have ha := aside_withSplit (beatSent (ownBeat (beatTime s))) (beatNoted s)
    have hm : modid (beatNoted s) = modid s := modid_congr (by rw [beatNoted, setGlr_regs, beatTime_regs])
    have ht := takeBeat_sends (modid (beatNoted s)) (ownBeat (beatTime s)) (beatNoted s)
    rw [hsend] at ha
    rw [settled_glr, settled_time, settled_out, ha.glr, ha.time, ringSent_time, ht.time, beatNoted, setGlr_time, ← beatNoted]
    refine ⟨beatTime_mod hclk, ⟨(ownBeat (beatTime s)).body, ?_⟩, fun hnone => ?_⟩
    · refine ha.out.subset ?_
      rw [ringSent_out, ht.modid, hm]
      exact List.mem_append_right _ (List.mem_singleton_self _)
    · have hlt : modid (beatNoted s) < 0xFE := by
        have hid := h.2.1
        rw [hm]
        simpa [hasModid] using hid
      have hnone' : (beatNoted s).glr.members = [] := by rw [beatNoted, setGlr_glr, beatTime_glr]; exact hnone
      rw [ringSent_glr, takeBeat_of_first _ hlt hnone', wr_glr, setGlr_glr, hm]
      rfl
  · intro s m hm hmiss hw
    exact memberLapse_leaves hm hmiss hw
  · intro s h e dep corr arr res hbyp hst hlost hnext hcrc hsrc hdst hid hhops hlow hunset htset
    obtain ⟨g, f, hrun, hg⟩ := takeTime_of_unset (h := h) e dep corr arr hlow hunset htset
    refine ⟨_, congrArg (done s) ((onRing_of_all _ (takeTime h e dep corr arr) hbyp (locked_of hst hlost) hcrc hsrc hnext hhops hdst
      hid).trans (congrArg (State.say _) hrun)), hg, rfl⟩
  · intro s dep h hclk hm hy htime hlow hsent
    exact timeSend_sends dep h hclk hm hy htime hlow hsent
  · intro s dep hbyp hclk hy
    refine ⟨_, congrArg (done s) (timeSend_of_yield dep hbyp hclk hy), rfl, rfl, ?_⟩
    rw [rd_settled, rd_wr_of_lt _ (by decide)]

end Sys2Proof.Machine
end

section
/-! SUPPORT. Sequenced delivery and restarts over the Guyline ring (14 R274-R276, R283, R284); O47. -/
namespace Sys2Proof.Machine
variable {s t : State}

/-- The ring's acknowledgement timers, its queue and its budget, and what has been said. -/
def ringWith (a : Tbl (Option (Nat × Nat))) (q : List GFrame) (b : Nat) (o : List Out) (s : State) : State :=
  { s with glr := { s.glr with ackDue := a, queue := q, bytes := b }, out := o }

/-- Originating a frame changes the queue, the budget and what has been said. -/
theorem glrPut_ring (f : GFrame) (s : State) : ∃ q b o, glrPut f s = ringWith s.glr.ackDue q b o s := by
  unfold glrPut
  dsimp only
  split_ifs
  · exact ⟨s.glr.queue, s.glr.bytes, s.out, rfl⟩
  · exact ⟨s.glr.queue ++ [f], s.glr.bytes, s.out, rfl⟩
  · unfold glrEmit
    split
    · exact ⟨s.glr.queue, s.glr.bytes + (20 + gLen f.typ), _, rfl⟩
    · exact ⟨s.glr.queue, s.glr.bytes + (20 + gLen f.typ), s.out, rfl⟩

/-- An acknowledgement falls due, or goes out at once. -/
theorem ackLater_ring (src n : Nat) (s : State) : ∃ a q b o, ackLater src n s = ringWith a q b o s := by
  unfold ackLater
  dsimp only
  split
  · unfold glrAck
    dsimp only
    obtain ⟨q, b, o, h⟩ := glrPut_ring ⟨src, 0, false, G.ack, [(tget none s.glr.rxExp src).getD 0, false.toNat, false.toNat]⟩
      (setGlr { s.glr with ackDue := tput none s.glr.ackDue src none } s)
    exact ⟨_, q, b, o, h⟩
  · exact ⟨_, s.glr.queue, s.glr.bytes, s.out, rfl⟩

/-- The number expected next of an originator. -/
def seqTaken (h : GHdr) (s : State) : State := setGlr { s.glr with rxExp := tput none s.glr.rxExp h.src (some ((h.seq + 1) % 65536)) } s

/-- A frame with SYNC is accepted, and its acknowledgement is due. -/
theorem onSeq_of_sync {h : GHdr} (accept : State → State) (hsync : h.sync = true) :
    ∃ a q b o, onSeq h accept s = accept (ringWith a q b o (seqTaken h s)) := by
  obtain ⟨a, q, b, o, hack⟩ := ackLater_ring h.src 1 (seqTaken h s)
  refine ⟨a, q, b, o, ?_⟩
  unfold onSeq
  rw [if_pos hsync]
  exact congrArg accept hack

/-- A sequenced frame for this module with SYNC. -/
theorem ringSeq_of_sync {h : GHdr} (accept : State → State) (hr : RingTakes s h) (hsync : h.sync = true) :
    ∃ a q b o, onRing h id (onSeq h accept) s = accept (ringWith a q b o (seqTaken h s)) := by
  rw [onRing_of_own id _ hr]
  exact onSeq_of_sync accept hsync

/-! ### Sending in sequence (14 R274, R276) -/

/-- The next frame to a destination, in its sequence. -/
def seqFrame (dst typ : Nat) (body : List Nat) (s : State) : GFrame :=
  match tget none s.glr.txSeq dst with
  | some n => ⟨dst, n, false, typ, body⟩
  | none => ⟨dst, 0, true, typ, body⟩

theorem seqFrame_fields (dst typ : Nat) (body : List Nat) (s : State) :
    (seqFrame dst typ body s).dst = dst ∧ (seqFrame dst typ body s).typ = typ ∧ (seqFrame dst typ body s).body = body := by
  unfold seqFrame
  split <;> exact ⟨rfl, rfl, rfl⟩

/-- A frame is kept for replay. -/
def seqKept (dst typ : Nat) (body : List Nat) (s : State) : State :=
  setGlr { s.glr with
    txSeq := tput none s.glr.txSeq dst (some (((seqFrame dst typ body s).seq + 1) % 65536))
    frames := s.glr.frames ++ [seqFrame dst typ body s]
    rplFrom := tput none s.glr.rplFrom dst (some ((tget none s.glr.rplFrom dst).getD s.tick)) } s

theorem glrSend_of_room (dst typ : Nat) (body : List Nat) (hid : hasModid s = true) (hroom : s.glr.frames.length < 1024) :
    glrSend dst typ body s = glrPut (seqFrame dst typ body s) (seqKept dst typ body s) := by
  unfold glrSend seqKept seqFrame
  rw [if_neg (by simp [hid]), if_neg (by omega)]
  dsimp only
  generalize tget none s.glr.txSeq dst = x
  cases x <;> rfl

/-- What a frame sent in sequence leaves: the queue, the budget and what has been said may differ. -/
theorem glrSend_ring (dst typ : Nat) (body : List Nat) (hid : hasModid s = true) (hroom : s.glr.frames.length < 1024) :
    ∃ q b o, glrSend dst typ body s = ringWith s.glr.ackDue q b o (seqKept dst typ body s) := by
  rw [glrSend_of_room dst typ body hid hroom]
  exact glrPut_ring _ _

theorem frames_seqKept (dst typ : Nat) (body : List Nat) (h : s.glr.frames = []) :
    (seqKept dst typ body s).glr.frames.map (fun f => (f.dst, f.typ, f.body)) = [(dst, typ, body)] := by
  obtain ⟨hd, ht, hb⟩ := seqFrame_fields dst typ body s
  rw [seqKept, setGlr_glr]
  simp [h, hd, ht, hb]

/-! ### A restart asked for over the ring (14 R284) -/

/-- What the ring does before a restart is judged leaves what the judgement reads. -/
theorem restartJudge_of_good {p inst : Nat} (hset : rd s .ftm F.FTM_STS_STATE ≠ 0) (hlate : s.time + 512 ≤ inst)
    (hfar : inst ≤ s.time + 2 ^ 32) (hroom : s.sched.length < 256) (hpiece : holdsPiece s p = true) (hres : resetting s p = false)
    (hst : partSt s p = 2) (hent : restartEnt s p = none) : restartJudge s p inst = none := by
  simp [restartJudge, schedJudge_of_good hset hlate hfar hroom, hpiece, hres, hst, hent]

theorem restartAdd_of_good {p inst : Nat} (owner : SchedOwner) (hset : rd s .ftm F.FTM_STS_STATE ≠ 0)
    (hlate : s.time + 512 ≤ inst) (hfar : inst ≤ s.time + 2 ^ 32) (hroom : s.sched.length < 256)
    (hjudge : restartJudge s p inst = none) : ∃ i v, restartAdd p inst owner s = (.inl i, v) ∧ v.glr = s.glr ∧ v.regs = s.regs ∧
      v.sched = s.sched ++ [⟨i, inst, s.ftm.order, .restart p, owner⟩] := by
  obtain ⟨i, hi, -, -⟩ := schedFree_of_room hroom
  refine ⟨i, (restartAdd p inst owner s).2, ?_⟩
  simp [restartAdd, hjudge, schedAdd, schedJudge_of_good hset hlate hfar hroom, hi]

/-- Whatever becomes of a frame sent in sequence, only the ring and what has been said change. -/
theorem glrSend_glr_only (dst typ : Nat) (body : List Nat) (s : State) :
    ∃ g o, glrSend dst typ body s = { s with glr := g, out := o } := by
  by_cases hid : hasModid s = true
  · by_cases hroom : s.glr.frames.length < 1024
    · obtain ⟨q, b, o, h⟩ := glrSend_ring dst typ body hid hroom
      exact ⟨_, o, h⟩
    · unfold glrSend
      rw [if_neg (by simp [hid]), if_pos (by omega)]
      exact ⟨_, s.out, rfl⟩
  · unfold glrSend
    rw [if_pos (by simp [hid])]
    exact ⟨s.glr, s.out, rfl⟩

/-- A cancel of the one entry of a slot that is early enough. -/
theorem takeRstCancel_of_entry {src slot : Nat} {e : SchedEnt} (hsched : s.sched = [e]) (hown : e.owner = .ring src slot)
    (hearly : s.time + 512 ≤ e.inst) : takeRstCancel src slot s = glrRstRsp src slot St.cancelled true e.idx (schedDrop e.idx s) := by
  have hent : schedEnt s e.idx = some e := by simp [schedEnt, hsched]
  unfold takeRstCancel
  simp [hsched, hown, schedCancelAt_of_early hent hearly, ownerDone]

theorem schedDrop_of_one {e : SchedEnt} (h : s.sched = [e]) : (schedDrop e.idx s).sched = [] := by
  simp [schedDrop, h]

/-! ### Request slots (14 R283) -/

theorem gslot_congr (h : t.glr.slots = s.glr.slots) (i : Nat) : gslot t i = gslot s i := by
  rw [gslot, h, gslot]

theorem takeRstRsp_of_slot {slot : Nat} (st i : Nat) (final : Bool) (h : slot < 8) : takeRstRsp slot st final i s =
    setGslot slot { gslot s slot with st := if final ∨ st ≠ 0 then 3 else 2, status := st, sidx := i } s := by
  have hst : (if final then 3 else if st = St.ok then 2 else 3) = if final = true ∨ st ≠ 0 then 3 else 2 := by
    have hok : St.ok = 0 := rfl
    rw [hok]
    cases final <;> simp
  unfold takeRstRsp
  rw [if_neg (by omega), hst]

/-- A write of the ring's page reaches it from STANDBY on. -/
theorem regGate_glr (f : State → State) (h : s.mode.isUp = true) : regGate .glr f s = f s :=
  regGate_of_takes f ⟨.inl h, by simp [holdsWrites, Page.scope]⟩

theorem bit_eq_testBit (v i : Nat) : bit v i = v.testBit i := by
  rw [Nat.testBit_eq_decide_div_mod_eq, bit]
  rfl

theorem testBit_bits (v lo w i : Nat) : (bits v lo w).testBit i = (decide (i < w) && v.testBit (lo + i)) := by
  rw [bits, Nat.testBit_mod_two_pow, Nat.testBit_div_two_pow, Nat.add_comm]

/-- A bit above a field leaves the field as it is. -/
theorem bits_or_above {v lo w k : Nat} (h : lo + w ≤ k) : bits (v ||| 2 ^ k) lo w = bits v lo w := by
  refine Nat.eq_of_testBit_eq fun i => ?_
  rw [testBit_bits, testBit_bits, Nat.testBit_or]
  by_cases hi : i < w
  · rw [Nat.testBit_two_pow_of_ne (by omega), Bool.or_false]
  · simp [hi]

/-- A single bit read as a field. -/
theorem bit_of_bits {v i : Nat} (h : bits v i 1 = 0) : v.testBit i = false := by
  have := testBit_bits v i 1 0
  rw [h] at this
  simpa using this.symm

/-- The slot that a write of GLR_RST_REQ names takes the destination and the partition written. -/
def slotNamed (i v : Nat) (s : State) : State :=
  setGslot i { gslot s i with dst := F.GLR_RST_REQ_DST.of v, part := F.GLR_RST_REQ_PART.of v } s

/-- GO of a slot, without CANCEL. -/
theorem rstReqWrite_go {v : Nat} (hc : F.GLR_RST_REQ_CANCEL.of v = 0) : rstReqWrite (v ||| 2 ^ 31) allBits s =
    slotGo (rd s .glr F.GLR_RST_IDX_SLOT) (slotNamed (rd s .glr F.GLR_RST_IDX_SLOT) v s) := by
  have hd : F.GLR_RST_REQ_DST.of (v ||| 2 ^ 31) = F.GLR_RST_REQ_DST.of v := bits_or_above (by decide)
  have hp : F.GLR_RST_REQ_PART.of (v ||| 2 ^ 31) = F.GLR_RST_REQ_PART.of v := bits_or_above (by decide)
  have hgo : bit ((v ||| 2 ^ 31) &&& allBits) 31 = true := by
    rw [bit_eq_testBit, Nat.testBit_and, Nat.testBit_or, Nat.testBit_two_pow_self, Bool.or_true]
    rfl
  have hcan : bit ((v ||| 2 ^ 31) &&& allBits) 30 = false := by
    rw [bit_eq_testBit, Nat.testBit_and, Nat.testBit_or, bit_of_bits (i := 30) hc, Nat.testBit_two_pow_of_ne (by decide)]
    rfl
  unfold rstReqWrite slotNamed
  rw [hgo, hcan]
  dsimp only
  rw [merge_allBits _ _ (by decide), merge_allBits _ _ (by decide), hd, hp]
  rfl

/-- CANCEL of a slot, without GO. -/
theorem rstReqWrite_cancel {v : Nat} (hg : F.GLR_RST_REQ_GO.of v = 0) : rstReqWrite (v ||| 2 ^ 30) allBits s =
    slotCancel (rd s .glr F.GLR_RST_IDX_SLOT) (slotNamed (rd s .glr F.GLR_RST_IDX_SLOT) v s) := by
  have hd : F.GLR_RST_REQ_DST.of (v ||| 2 ^ 30) = F.GLR_RST_REQ_DST.of v := bits_or_above (by decide)
  have hp : F.GLR_RST_REQ_PART.of (v ||| 2 ^ 30) = F.GLR_RST_REQ_PART.of v := bits_or_above (by decide)
  have hgo : bit ((v ||| 2 ^ 30) &&& allBits) 31 = false := by
    rw [bit_eq_testBit, Nat.testBit_and, Nat.testBit_or, bit_of_bits (i := 31) hg, Nat.testBit_two_pow_of_ne (by decide)]
    rfl
  have hcan : bit ((v ||| 2 ^ 30) &&& allBits) 30 = true := by
    rw [bit_eq_testBit, Nat.testBit_and, Nat.testBit_or, Nat.testBit_two_pow_self, Bool.or_true]
    rfl
  unfold rstReqWrite slotNamed
  rw [hgo, hcan]
  dsimp only
  rw [merge_allBits _ _ (by decide), merge_allBits _ _ (by decide), hd, hp]
  rfl

/-! ### Timers and acknowledgements (14 R275, R276) -/

/-- An acknowledgement with nothing further. -/
def ackSent (src e : Nat) (s : State) : State :=
  ringSent ⟨src, 0, false, G.ack, [e, 0, 0]⟩ (setGlr { s.glr with ackDue := tput none s.glr.ackDue src none } s)

theorem glrAck_of_sends {src e : Nat} (h : RingSends s) (he : tget none s.glr.rxExp src = some e) :
    glrAck src false false s = ackSent src e s := by
  unfold glrAck ackSent
  dsimp only
  rw [he]
  exact glrPut_of_sends _ h

theorem ackSent_out (src e : Nat) (s : State) : (ackSent src e s).out =
    s.out ++ [.frame true (frameBytes 0x30 (modid s) src 64 0 0 false false [e, 0, 0])] := rfl

theorem advanceTo_sends (n : Nat) (h : RingSends s) : RingSends (advanceTo n s) := by
  unfold advanceTo
  split
  · exact passTicks_sends _ h
  · exact h

theorem modid_advanceTo (n : Nat) (s : State) : modid (advanceTo n s) = modid s := modid_congr (advanceTo_regs s n)

theorem glrAckTimeout_of_due {src k n : Nat} (hdue : tget none s.glr.ackDue src = some (k, n)) (hclk : clockRuns s = true) :
    glrAckTimeout src s = glrAck src false false (advanceTo (n + rd s .glr F.GLR_SEQ_CFG_ACK_TMO) s) := by
  unfold glrAckTimeout
  rw [hdue]
  exact atTick_of_clock _ _ hclk

theorem glrReplayTimeout_of_due {dst n : Nat} (hdue : tget none s.glr.rplFrom dst = some n) (hclk : clockRuns s = true) :
    glrReplayTimeout dst s = glrReplay dst false (advanceTo (n + rd s .glr F.GLR_SEQ_CFG_RPL_TMO) s) := by
  unfold glrReplayTimeout
  rw [hdue]
  exact atTick_of_clock _ _ hclk

/-- The replay timer of a destination starts again, and the replay is counted. -/
def replayNoted (dst : Nat) (s : State) : State :=
  setGlr { s.glr with rplFrom := tput none s.glr.rplFrom dst (some s.tick) } s |> bump .glr F.GLR_RPL_CNT_REPLAYS

theorem replayNoted_out (dst : Nat) (s : State) : (replayNoted dst s).out = s.out := rfl
theorem replayNoted_modid (dst : Nat) (s : State) : modid (replayNoted dst s) = modid s := modid_wr_glr _ _ _ (by decide)

theorem glrReplay_of_one {f : GFrame} (h : RingSends s) (hf : s.glr.frames = [f]) :
    glrReplay f.dst false s = ringSent f (replayNoted f.dst s) := by
  have hsend : SendsAlike s (replayNoted f.dst s) := ⟨rfl, rfl, rfl, rfl, modid_wr_glr _ _ _ (by decide), rfl⟩
  have hmine : s.glr.frames.filter (·.dst == f.dst) = [f] := by simp [hf]
  unfold glrReplay
  dsimp only
  rw [if_neg Bool.false_ne_true, hmine]
  exact glrPut_of_sends _ (hsend.sends h)

/-- An acknowledgement that names the number after the only frame of its destination frees the frame. -/
theorem takeAck_of_next {f : GFrame} (hf : s.glr.frames = [f]) (hseq : f.seq < 65536) (hw : s.glr.waitSeq = []) :
    takeAck f.dst ((f.seq + 1) % 65536) false false s =
      setGlr { s.glr with frames := [], rplFrom := tput none s.glr.rplFrom f.dst none } s := by
  have hd : ((f.seq + 1) % 65536 + 65536 - f.seq) % 65536 = 1 := by omega
  unfold takeAck
  dsimp only
  rw [if_neg Bool.false_ne_true, hf]
  simp only [List.any_cons, List.any_nil, List.filter_cons, List.filter_nil, hd, beq_self_eq_true, State.when]
  exact glrUnwait_of_none hw

/-! ### A slot that hears no final response -/

theorem noFinal_of_armed {i : Nat} (hst : (gslot s i).st = 2) (hclk : clockRuns s = true)
    (htime : s.time < (gslot s i).inst + 2 ^ 17) (hmax : (gslot s i).inst + 2 ^ 17 < 2 ^ 64) :
    noFinal i s = setGslot i { gslot s i with st := 5 } (passTicks ((gslot s i).inst + 2 ^ 17 - s.time) s) := by
  have htk : (passTicks ((gslot s i).inst + 2 ^ 17 - s.time) s).time = (gslot s i).inst + 2 ^ 17 := by
    rw [passTicks_time _ hclk]
    omega
  unfold noFinal
  dsimp only
  rw [if_neg (by simp [hst]), epochTicks, if_pos htime, if_neg (by omega)]

theorem takeRstReq_of_good {src p slot inst i : Nat} {v : State} (hrx : rd s .glr F.GLR_CFG_RST_RX_EN = 1) (hp : p < 128)
    (hadd : restartAdd p inst (.ring src slot) s = (.inl i, v)) :
    takeRstReq src p slot inst s = glrRstRsp src slot St.ok false i v := by
  unfold takeRstReq
  rw [if_neg (by omega), if_neg (by omega), hadd]

theorem takeRstReq_of_refused {src slot : Nat} (p inst : Nat) (hrx : rd s .glr F.GLR_CFG_RST_RX_EN = 0) :
    takeRstReq src p slot inst s = glrRstRsp src slot St.refused true 0 s := if_pos hrx

/-- What an accepted request leaves of the ring, the table and the registers. -/
theorem takeRstReq_arms {src p slot inst : Nat} (hid : hasModid s = true) (hf : s.glr.frames = [])
    (hrx : rd s .glr F.GLR_CFG_RST_RX_EN = 1) (hp : p < 128) (hset : rd s .ftm F.FTM_STS_STATE ≠ 0) (hlate : s.time + 512 ≤ inst)
    (hfar : inst ≤ s.time + 2 ^ 32) (hroom : s.sched.length < 256) (hpiece : holdsPiece s p = true) (hres : resetting s p = false)
    (hst : partSt s p = 2) (hent : restartEnt s p = none) :
    (takeRstReq src p slot inst s).glr.rxExp = s.glr.rxExp ∧ (takeRstReq src p slot inst s).regs = s.regs ∧
      (takeRstReq src p slot inst s).sched.map (fun e => (e.inst, e.act, e.owner)) =
        s.sched.map (fun e => (e.inst, e.act, e.owner)) ++ [(inst, .restart p, .ring src slot)] ∧
      (takeRstReq src p slot inst s).glr.frames.map (fun f => (f.dst, f.typ, f.body.take 3)) = [(src, 0x22, [slot, 0, 0])] := by
  have hjudge := restartJudge_of_good hset hlate hfar hroom hpiece hres hst hent
  obtain ⟨i, v, hadd, hvglr, hvregs, hvsched⟩ := restartAdd_of_good (.ring src slot) hset hlate hfar hroom hjudge
  have hvid : hasModid v = true := by rw [hasModid, modid_congr hvregs]; exact hid
  obtain ⟨q, b, o, hsend⟩ := glrSend_ring src G.rstRsp [slot, St.ok, false.toNat, i] hvid (by simp [hvglr, hf])
  rw [takeRstReq_of_good hrx hp hadd, glrRstRsp, hsend]
  refine ⟨?_, hvregs, ?_, ?_⟩
  · show v.glr.rxExp = _
    rw [hvglr]
  · show v.sched.map _ = _
    rw [hvsched]
    simp
  · have hfr := congrArg (List.map fun x => (x.1, x.2.1, x.2.2.take 3))
      (frames_seqKept (s := v) src G.rstRsp [slot, St.ok, false.toNat, i] (by rw [hvglr]; exact hf))
    rw [List.map_map] at hfr
    exact hfr

theorem takeRstReq_refuses {src : Nat} (slot p inst : Nat) (hid : hasModid s = true) (hf : s.glr.frames = [])
    (hrx : rd s .glr F.GLR_CFG_RST_RX_EN = 0) : (takeRstReq src p slot inst s).sched = s.sched ∧
      (takeRstReq src p slot inst s).glr.frames.map (fun f => (f.dst, f.typ, f.body)) = [(src, 0x22, [slot, 0x1B, 1, 0])] := by
  obtain ⟨q, b, o, hsend⟩ := glrSend_ring src G.rstRsp [slot, St.refused, true.toNat, 0] hid (by simp [hf])
  rw [takeRstReq_of_refused p inst hrx, glrRstRsp, hsend]
  exact ⟨rfl, frames_seqKept (s := s) src G.rstRsp _ hf⟩

theorem glrAckTimeout_sends {src k n e : Nat} (hdue : tget none s.glr.ackDue src = some (k, n)) (hclk : clockRuns s = true)
    (hs : RingSends s) (he : tget none s.glr.rxExp src = some e) :
    ∃ t, exec (.glrAckTimeout src) s = .next t ∧ t.tick = max s.tick (n + rd s .glr F.GLR_SEQ_CFG_ACK_TMO) ∧
      tget none t.glr.ackDue src = none ∧ t.out = s.out ++ [.frame true (frameBytes 0x30 (modid s) src 64 0 0 false false [e, 0,
        0])] := by
  have hrun := glrAckTimeout_of_due hdue hclk
  have htick := advanceTo_tick (n + rd s .glr F.GLR_SEQ_CFG_ACK_TMO) hclk
  have hsend := advanceTo_sends (n + rd s .glr F.GLR_SEQ_CFG_ACK_TMO) hs
  have hglr := advanceTo_glr s (n + rd s .glr F.GLR_SEQ_CFG_ACK_TMO)
  have hout := advanceTo_out s (n + rd s .glr F.GLR_SEQ_CFG_ACK_TMO)
  have hid := modid_advanceTo (n + rd s .glr F.GLR_SEQ_CFG_ACK_TMO) s
  generalize advanceTo (n + rd s .glr F.GLR_SEQ_CFG_ACK_TMO) s = u at *
  rw [glrAck_of_sends hsend (by rw [hglr]; exact he)] at hrun
  refine ⟨_, congrArg (done s) hrun, htick, ?_, ?_⟩
  · rw [settled_glr, ackSent, ringSent_glr, setGlr_glr]
    exact tget_tput_same none none _ _
  · rw [settled_out, ackSent_out, hid, hout]

theorem glrReplayTimeout_replays {n : Nat} {f : GFrame} (hdue : tget none s.glr.rplFrom f.dst = some n) (hclk : clockRuns s = true)
    (hs : RingSends s) (hf : s.glr.frames = [f]) :
    ∃ t, exec (.glrReplayTimeout f.dst) s = .next t ∧ t.tick = max s.tick (n + rd s .glr F.GLR_SEQ_CFG_RPL_TMO) ∧
      t.out = s.out ++ [.frame true (frameBytes f.typ (modid s) f.dst 64 0 f.seq f.sync false f.body)] ∧ t.glr.frames = [f] ∧
      rd t .glr F.GLR_RPL_CNT_REPLAYS = min (rd s .glr F.GLR_RPL_CNT_REPLAYS + 1) 65535 := by
  have hrun := glrReplayTimeout_of_due hdue hclk
  have htick := advanceTo_tick (n + rd s .glr F.GLR_SEQ_CFG_RPL_TMO) hclk
  have hsend := advanceTo_sends (n + rd s .glr F.GLR_SEQ_CFG_RPL_TMO) hs
  have hglr := advanceTo_glr s (n + rd s .glr F.GLR_SEQ_CFG_RPL_TMO)
  have hout := advanceTo_out s (n + rd s .glr F.GLR_SEQ_CFG_RPL_TMO)
  have hid := modid_advanceTo (n + rd s .glr F.GLR_SEQ_CFG_RPL_TMO) s
  have hrd := rd_advanceTo s (n + rd s .glr F.GLR_SEQ_CFG_RPL_TMO) .glr F.GLR_RPL_CNT_REPLAYS
  generalize advanceTo (n + rd s .glr F.GLR_SEQ_CFG_RPL_TMO) s = u at *
  rw [glrReplay_of_one hsend (by rw [hglr]; exact hf)] at hrun
  refine ⟨_, congrArg (done s) hrun, htick, ?_, ?_, ?_⟩
  · rw [settled_out, ringSent_out, replayNoted_out, replayNoted_modid, hid, hout]
  · rw [settled_glr, ringSent_glr, replayNoted, bump_glr, setGlr_glr]
    exact (congrArg Glr.frames hglr).trans hf
  · rw [rd_settled, rd_congr (ringSent_regs _ _), replayNoted, rd_bump_same, rd_setGlr, hrd]
    rfl

theorem gslot_slotNamed (i v : Nat) (s : State) : gslot (slotNamed i v s) i =
    { gslot s i with dst := F.GLR_RST_REQ_DST.of v, part := F.GLR_RST_REQ_PART.of v } := gslot_setGslot_same ..

/-- A free slot's request goes to a member. -/
theorem slotGo_of_free {i : Nat} (hst : (gslot s i).st = 0) (hself : (gslot s i).dst ≠ modid s)
    (hmem : ∃ m ∈ s.glr.members, m.modid = (gslot s i).dst) : slotGo i s =
      glrSend (gslot s i).dst G.rstReq [(gslot s i).part, i, (gslot s i).inst] (setGslot i { gslot s i with st := 1 } s) := by
  have hany : s.glr.members.any (·.modid == (gslot s i).dst) = true := by simpa using hmem
  simp [slotGo, hst, hself, hany]

theorem go_sends {v : Word} (hup : s.mode.isUp = true) (hc : F.GLR_RST_REQ_CANCEL.of v.toNat = 0)
    (hst : (gslot s (rd s .glr F.GLR_RST_IDX_SLOT)).st = 0) (hself : F.GLR_RST_REQ_DST.of v.toNat ≠ modid s)
    (hmem : ∃ m ∈ s.glr.members, m.modid = F.GLR_RST_REQ_DST.of v.toNat) (hid : hasModid s = true) (hf : s.glr.frames = []) :
    ∃ t, exec (.go v) s = .next t ∧ gslot t (rd s .glr F.GLR_RST_IDX_SLOT) = { gslot s (rd s .glr F.GLR_RST_IDX_SLOT) with
        dst := F.GLR_RST_REQ_DST.of v.toNat, part := F.GLR_RST_REQ_PART.of v.toNat, st := 1 } ∧
      t.glr.frames.map (fun f => (f.dst, f.typ, f.body)) = [(F.GLR_RST_REQ_DST.of v.toNat, 0x20,
        [F.GLR_RST_REQ_PART.of v.toNat, rd s .glr F.GLR_RST_IDX_SLOT, (gslot s (rd s .glr F.GLR_RST_IDX_SLOT)).inst])] := by
  generalize hi : rd s .glr F.GLR_RST_IDX_SLOT = i at *
  have hx := gslot_slotNamed i v.toNat s
  have hgo := slotGo_of_free (s := slotNamed i v.toNat s) (i := i) (by rw [hx]; exact hst) (by rw [hx]; exact hself)
    (by rw [hx]; exact hmem)
  rw [hx] at hgo
  generalize hu : setGslot i _ (slotNamed i v.toNat s) = u at hgo
  have hslot : gslot u i = { gslot s i with dst := F.GLR_RST_REQ_DST.of v.toNat, part := F.GLR_RST_REQ_PART.of v.toNat, st := 1 } := by
    rw [← hu, gslot_setGslot_same]
  have huid : hasModid u = true := by rw [← hu]; exact hid
  have huf : u.glr.frames = [] := by rw [← hu]; exact hf
  obtain ⟨q, b, o, hsend⟩ := glrSend_ring (s := u) (F.GLR_RST_REQ_DST.of v.toNat) G.rstReq
    [F.GLR_RST_REQ_PART.of v.toNat, i, (gslot s i).inst] huid (by simp [huf])
  have hrun := (regGate_glr (rstReqWrite (v.toNat ||| 2 ^ 31) allBits) hup).trans ((rstReqWrite_go hc).trans
    ((congrArg (fun j => slotGo j (slotNamed j v.toNat s)) hi).trans (hgo.trans hsend)))
  refine ⟨_, congrArg (done s) hrun, ?_, ?_⟩
  · exact (gslot_congr rfl i).trans hslot
  · exact frames_seqKept _ G.rstReq _ huf

theorem go_rejected {v : Word} (hup : s.mode.isUp = true) (hc : F.GLR_RST_REQ_CANCEL.of v.toNat = 0)
    (hst : (gslot s (rd s .glr F.GLR_RST_IDX_SLOT)).st = 2) :
    ∃ t, exec (.go v) s = .next t ∧ (gslot t (rd s .glr F.GLR_RST_IDX_SLOT)).st = 2 ∧ t.glr.frames = s.glr.frames ∧
      rd t .glr F.BLK_STS_CFG_REJECT = 1 := by
  generalize hi : rd s .glr F.GLR_RST_IDX_SLOT = i at *
  have hx := gslot_slotNamed i v.toNat s
  have hrej : slotGo i (slotNamed i v.toNat s) = reject .glr (slotNamed i v.toNat s) := by simp [slotGo, hx, hst]
  have hrun := (regGate_glr (rstReqWrite (v.toNat ||| 2 ^ 31) allBits) hup).trans ((rstReqWrite_go hc).trans
    ((congrArg (fun j => slotGo j (slotNamed j v.toNat s)) hi).trans hrej))
  refine ⟨_, congrArg (done s) hrun, ?_, rfl, ?_⟩
  · exact (congrArg GSlot.st hx).trans hst
  · rw [rd_settled, rd_reject]

theorem cancel_sends {v : Word} (hup : s.mode.isUp = true) (hg : F.GLR_RST_REQ_GO.of v.toNat = 0)
    (hst : (gslot s (rd s .glr F.GLR_RST_IDX_SLOT)).st = 2) (hid : hasModid s = true) (hf : s.glr.frames = []) :
    ∃ t, exec (.cancel v) s = .next t ∧ (gslot t (rd s .glr F.GLR_RST_IDX_SLOT)).st = 2 ∧
      t.glr.frames.map (fun f => (f.dst, f.typ, f.body)) =
        [(F.GLR_RST_REQ_DST.of v.toNat, 0x21, [rd s .glr F.GLR_RST_IDX_SLOT])] := by
  generalize hi : rd s .glr F.GLR_RST_IDX_SLOT = i at *
  have hx := gslot_slotNamed i v.toNat s
  have huid : hasModid (slotNamed i v.toNat s) = true := hid
  have huf : (slotNamed i v.toNat s).glr.frames = [] := hf
  have hrun := (regGate_glr (rstReqWrite (v.toNat ||| 2 ^ 30) allBits) hup).trans ((rstReqWrite_cancel hg).trans
    (congrArg (fun j => slotCancel j (slotNamed j v.toNat s)) hi))
  generalize slotNamed i v.toNat s = u at *
  have hcan : slotCancel i u = glrSend (F.GLR_RST_REQ_DST.of v.toNat) G.rstCancel [i] u := by simp [slotCancel, hx, hst]
  obtain ⟨q, b, o, hsend⟩ := glrSend_ring (F.GLR_RST_REQ_DST.of v.toNat) G.rstCancel [i] huid (by simp [huf])
  refine ⟨_, congrArg (done s) (hrun.trans (hcan.trans hsend)), ?_, ?_⟩
  · exact (congrArg GSlot.st ((gslot_congr rfl i).trans hx)).trans hst
  · exact frames_seqKept _ G.rstCancel _ huf

/-- Settles O47. -/
theorem guylineRestart : Obligations.GuylineRestart := by
  unfold Obligations.GuylineRestart
  refine ⟨?_, ?_, ?_, ?_, ?_, ?_, ?_, ?_, ?_, ?_, ?_⟩
  · intro s h p slot inst hr hsync hs hf hrx hp hset hlate hfar hroom hpiece hres hst hent
    obtain ⟨a, q, b, o, hrun⟩ := ringSeq_of_sync (takeRstReq h.src p slot inst) hr hsync
    obtain ⟨hrxExp, hregs, hsched, hframes⟩ := takeRstReq_arms (s := ringWith a q b o (seqTaken h s)) (src := h.src) (slot := slot)
      hs.2.1 hf hrx hp hset hlate hfar hroom hpiece hres hst hent
    refine ⟨_, congrArg (done s) hrun, ?_, hsched, hframes, (rd_congr hregs _ _).trans hst⟩
    rw [settled_glr, hrxExp]
    exact tget_tput_same none (some ((h.seq + 1) % 65536)) s.glr.rxExp h.src
  · intro s h p slot inst hr hsync hs hf hrx
    obtain ⟨a, q, b, o, hrun⟩ := ringSeq_of_sync (takeRstReq h.src p slot inst) hr hsync
    obtain ⟨hsched, hframes⟩ := takeRstReq_refuses (s := ringWith a q b o (seqTaken h s)) (src := h.src) slot p inst hs.2.1 hf hrx
    exact ⟨_, congrArg (done s) hrun, hsched, hframes⟩
  · intro s h slot e hr hsync hsched hown hearly
    obtain ⟨a, q, b, o, hrun⟩ := ringSeq_of_sync (takeRstCancel h.src slot) hr hsync
    rw [takeRstCancel_of_entry (s := ringWith a q b o (seqTaken h s)) hsched hown hearly, glrRstRsp] at hrun
    obtain ⟨g, o', hsend⟩ := glrSend_glr_only h.src G.rstRsp [slot, St.cancelled, true.toNat, e.idx]
      (schedDrop e.idx (ringWith a q b o (seqTaken h s)))
    refine ⟨_, congrArg (done s) (hrun.trans hsend), ?_, rfl⟩
    exact schedDrop_of_one (s := ringWith a q b o (seqTaken h s)) hsched
  · intro s h slot st i final hr hsync hslot
    obtain ⟨a, q, b, o, hrun⟩ := ringSeq_of_sync (takeRstRsp slot st final i) hr hsync
    rw [takeRstRsp_of_slot st i final hslot] at hrun
    refine ⟨_, congrArg (done s) hrun, fun k hk => ?_, ?_⟩
    · exact gslot_setGslot_other _ (ringWith a q b o (seqTaken h s)) (Ne.symm hk)
    · exact gslot_setGslot_same _ _ (ringWith a q b o (seqTaken h s))
  · intro s h f hr hf hdst hseq hw
    have hrun := (onRing_of_own id (takeAck h.src ((f.seq + 1) % 65536) false false) hr).trans
      (hdst ▸ takeAck_of_next hf hseq hw)
    refine ⟨_, congrArg (done s) hrun, rfl, ?_, rfl⟩
    rw [settled_glr, setGlr_glr]
    exact tget_tput_same none none _ _
  · intro s src k n e hdue hclk hs he
    exact glrAckTimeout_sends hdue hclk hs he
  · intro s n f hdue hclk hs hf
    exact glrReplayTimeout_replays hdue hclk hs hf
  · intro s v i d p hup hi hd hp hc hst hself hmem hid hf
    subst hi hd hp
    exact go_sends hup hc hst hself hmem hid hf
  · intro s v i hup hi hc hst
    subst hi
    exact go_rejected hup hc hst
  · intro s v i hup hi hg hst hid hf
    subst hi
    exact cancel_sends hup hg hst hid hf
  · intro s i hst hclk htime hmax
    refine ⟨_, congrArg (done s) (noFinal_of_armed hst hclk htime hmax), gslot_setGslot_same .., ?_⟩
    show (passTicks ((gslot s i).inst + 2 ^ 17 - s.time) s).time = _
    rw [passTicks_time _ hclk]
    omega

end Sys2Proof.Machine
end

section
/-! SUPPORT. A state that shows what O48 leaves open: a rewrite of SELFTEST noted for a tick to come. -/
namespace Sys2Proof.Machine

/-- A module in MAINTENANCE in the middle of its breaker self-test, with a write of SELFTEST noted at the tick of the test's end. -/
def rewrittenTest : State :=
  { State.reset with
    mode := .maintenance
    pwr := { Pwr.reset with stTest := true }
    rst := { Rst.reset with refclk := true }
    w1cNow := [(fkey .pwr F.PWR_BRK_CTL_SELFTEST, 5000)] }

/-- The self-test runs in the state that a step reaches. -/
def Ans.testRuns : Ans → Bool
  | .next t => t.pwr.stTest
  | _ => false

/-- The end of the self-test comes to the tick of the noted write, which starts another. -/
theorem testRuns_selftestDone_rewrittenTest : Ans.testRuns (exec (.selftestDone false) rewrittenTest) = true := by decide

/-- Refutes O48: the self-test that ends 50 µs after its start is followed by another where the state holds a write of SELFTEST noted
at the tick of its end; the clause on a test in progress asks nothing of those notes, as the clause on one that is over does. -/
theorem not_powerStart : ¬ Obligations.PowerStart := by
  rintro ⟨-, -, -, -, -, -, -, -, -, -, -, -, htest, -⟩
  obtain ⟨t, ht, -, -, -, -, hover⟩ := htest rewrittenTest false rfl (by decide) rfl
  have hruns := testRuns_selftestDone_rewrittenTest
  rw [ht, Ans.testRuns, hover] at hruns
  exact Bool.false_ne_true hruns

end Sys2Proof.Machine
end

section
/-! SUPPORT. The resets of the module (15 R301, R302): what a cold and a warm reset leave; O51. -/
namespace Sys2Proof.Machine
variable {s t : State}

/-! ### What meets a reset: flash and fuse writes (15 R301; 16 R307, R311) -/

/-- Only keys, fuses and flash differ, and the free values drawn. -/
def SecOnly (s t : State) : Prop := ∃ x n, t = { s with sec := x, free := n }

theorem SecOnly.refl (s : State) : SecOnly s s := ⟨s.sec, s.free, rfl⟩

theorem SecOnly.trans {u : State} (h : SecOnly s t) (g : SecOnly t u) : SecOnly s u := by
  obtain ⟨x, n, rfl⟩ := h
  obtain ⟨y, m, rfl⟩ := g
  exact ⟨y, m, rfl⟩

theorem SecOnly.each {α : Type} {f : α → State → State} (hf : ∀ a u, SecOnly u (f a u)) (l : List α) (s : State) :
    SecOnly s (s.each l f) := by
  induction l generalizing s with
  | nil => exact refl s
  | cons a l ih => exact (hf a s).trans (ih (f a s))

/-- A field that keys, fuses, flash and free values do not hold. -/
theorem SecOnly.keeps {β : Type} (h : SecOnly s t) (φ : State → β) (hφ : ∀ x n u, φ { u with sec := x, free := n } = φ u) :
    φ t = φ s := by
  obtain ⟨x, n, rfl⟩ := h
  exact hφ x n s

theorem secOnly_flashCut (s : State) : SecOnly s (flashCut s) := by
  unfold flashCut setFlash
  split
  · split <;> exact ⟨_, _, rfl⟩
  · exact .refl s

theorem secOnly_fuseCut (s : State) : SecOnly s (fuseCut s) := by
  have hone (slot : Nat) (u : State) : SecOnly u ((u.draw.2).when (u.draw.1 % 2 == 1) (setKeySt slot 2)) := by
    unfold State.when
    split
    · exact ⟨_, u.free + 1, rfl⟩
    · exact ⟨u.sec, u.free + 1, rfl⟩
  have hkeys := SecOnly.each hone s.sec.revoking s
  unfold fuseCut
  dsimp only
  refine hkeys.trans ?_
  split
  · exact .refl _
  · split
    · exact ⟨_, _, rfl⟩
    · exact ⟨_, _, rfl⟩

theorem eaFollow_keeps {β : Type} (φ : State → β) (h : ∀ u, φ (eaOff u) = φ u) (s : State) : φ (eaFollow s) = φ s := by
  unfold eaFollow State.when
  split
  · exact h s
  · rfl

theorem flashCut_keeps {β : Type} (φ : State → β) (h : ∀ x n u, φ { u with sec := x, free := n } = φ u) (s : State) :
    φ (flashCut s) = φ s := (secOnly_flashCut s).keeps φ h

theorem fuseCut_keeps {β : Type} (φ : State → β) (h : ∀ x n u, φ { u with sec := x, free := n } = φ u) (s : State) :
    φ (fuseCut s) = φ s := (secOnly_fuseCut s).keeps φ h

theorem resetBlocks_pwr (keep : List Nat) (s : State) : (resetBlocks keep s).pwr = s.pwr :=
  flashCut_keeps State.pwr (fun _ _ _ => rfl) s
theorem resetBlocks_rst (keep : List Nat) (s : State) : (resetBlocks keep s).rst = s.rst :=
  flashCut_keeps State.rst (fun _ _ _ => rfl) s
theorem resetBlocks_tick (keep : List Nat) (s : State) : (resetBlocks keep s).tick = s.tick :=
  flashCut_keeps State.tick (fun _ _ _ => rfl) s
theorem resetBlocks_time (keep : List Nat) (s : State) : (resetBlocks keep s).time = s.time :=
  flashCut_keeps State.time (fun _ _ _ => rfl) s
theorem resetBlocks_plr (keep : List Nat) (s : State) : (resetBlocks keep s).wab.plr = s.wab.plr :=
  flashCut_keeps (fun u => u.wab.plr) (fun _ _ _ => rfl) s
theorem resetBlocks_seqs (keep : List Nat) (s : State) : (resetBlocks keep s).flt.seqs = s.flt.seqs :=
  flashCut_keeps (fun u => u.flt.seqs) (fun _ _ _ => rfl) s
theorem resetBlocks_stagingWin (keep : List Nat) (s : State) : (resetBlocks keep s).flt.stagingWin = s.flt.stagingWin :=
  flashCut_keeps (fun u => u.flt.stagingWin) (fun _ _ _ => rfl) s
theorem resetBlocks_core (keep : List Nat) (s : State) : (resetBlocks keep s).core = Core.reset := rfl
theorem resetBlocks_sched (keep : List Nat) (s : State) : (resetBlocks keep s).sched = [] := rfl
theorem resetBlocks_parts (keep : List Nat) (s : State) : (resetBlocks keep s).parts = [] := rfl
theorem resetBlocks_fatal (keep : List Nat) (s : State) : (resetBlocks keep s).flt.fatal = none := rfl

/-! ### A cold reset (15 R301) -/

/-- What a cold reset leaves is what its blocks do, but for EA_OFF. -/
theorem coldReset_mode (c : Nat) (s : State) : (coldReset c s).mode = .off := eaFollow_keeps State.mode (fun _ => rfl) _
theorem coldReset_time (c : Nat) (s : State) : (coldReset c s).time = 0 := eaFollow_keeps State.time (fun _ => rfl) _
theorem coldReset_core (c : Nat) (s : State) : (coldReset c s).core = Core.reset := eaFollow_keeps State.core (fun _ => rfl) _
theorem coldReset_sched (c : Nat) (s : State) : (coldReset c s).sched = [] := eaFollow_keeps State.sched (fun _ => rfl) _

theorem coldReset_tick (c : Nat) (s : State) : (coldReset c s).tick = s.tick :=
  (eaFollow_keeps State.tick (fun _ => rfl) _).trans ((resetBlocks_tick [] _).trans (fuseCut_keeps State.tick (fun _ _ _ => rfl) s))

theorem coldReset_plr (c : Nat) (s : State) : (coldReset c s).wab.plr = s.wab.plr :=
  (eaFollow_keeps (fun u => u.wab.plr) (fun _ => rfl) _).trans
    ((resetBlocks_plr [] _).trans (fuseCut_keeps (fun u => u.wab.plr) (fun _ _ _ => rfl) s))

theorem coldReset_seqs (c : Nat) (s : State) : (coldReset c s).flt.seqs = s.flt.seqs :=
  (eaFollow_keeps (fun u => u.flt.seqs) (fun _ => rfl) _).trans
    ((resetBlocks_seqs [] _).trans (fuseCut_keeps (fun u => u.flt.seqs) (fun _ _ _ => rfl) s))

theorem coldReset_rst (c : Nat) (s : State) : (coldReset c s).rst =
    { Rst.reset with cause := c, resetN := s.rst.resetN, refclk := s.rst.refclk } := by
  have hrst : (resetBlocks [] (fuseCut s)).rst = s.rst := (resetBlocks_rst [] _).trans (fuseCut_keeps State.rst (fun _ _ _ => rfl) s)
  refine (eaFollow_keeps State.rst (fun _ => rfl) _).trans ?_
  dsimp only
  rw [hrst]

/-- What a cold reset keeps of the power controller's state. -/
structure PwrKept (p q : Pwr) : Prop where
  vin : q.vin = p.vin
  lowAt : q.lowAt = p.lowAt
  path : q.path = p.path
  pathFrom : q.pathFrom = p.pathFrom
  ov : q.ov = p.ov
  fails : q.fails = p.fails
  trips : q.trips = p.trips
  cause : q.cause = p.cause
  latched : q.latched = p.latched
  pgInt : q.pgInt = false

theorem coldReset_pwr (c : Nat) (s : State) : PwrKept s.pwr (coldReset c s).pwr := by
  have hpwr : (resetBlocks [] (fuseCut s)).pwr = s.pwr := (resetBlocks_pwr [] _).trans (fuseCut_keeps State.pwr (fun _ _ _ => rfl) s)
  have hkept : PwrKept (resetBlocks [] (fuseCut s)).pwr (coldReset c s).pwr := by
    unfold coldReset
    dsimp only
    rw [eaFollow_keeps State.pwr (fun _ => rfl)]
    exact ⟨rfl, rfl, rfl, rfl, rfl, rfl, rfl, rfl, rfl, rfl⟩
  rwa [hpwr] at hkept

theorem coldReset_ftmState (c : Nat) (s : State) : rd (coldReset c s) .ftm F.FTM_STS_STATE = 0 := by
  refine (eaFollow_keeps (fun u => rd u .ftm F.FTM_STS_STATE) (fun u => rd_wr_page u 1 (by decide) (by decide) (by decide)) _).trans ?_
  exact (rd_resetBlocks (keep := []) (fuseCut s) (by simp)).trans (by decide)

/-- The pins of a module in OFF (15 Table 15.11). -/
theorem perst_of_off (h : s.mode = .off) : (pinsOf s).perst = List.range 128 := by
  have hp (g : Nat) : perstN s g = true := by simp [perstN, h, Mode.isLive]
  simp [pinsOf, hp]

theorem perst_of_boot (h : s.mode = .boot) : (pinsOf s).perst = List.range 128 := by
  have hp (g : Nat) : perstN s g = true := by simp [perstN, h, Mode.isLive]
  simp [pinsOf, hp]

theorem pg_of_low (h : s.pwr.pgInt = false) : (pinsOf s).pg = false := by simp [pinsOf, pgPin, h]

theorem pg_of_reset (h : s.rst.inReset = true) : (pinsOf s).pg = false := by simp [pinsOf, pgPin, h]

theorem not_down_of_up (h : s.mode.isUp = true) : s.mode ≠ .off ∧ s.mode ≠ .precharge := by
  constructor <;> intro hm <;> simp [hm, Mode.isUp] at h

theorem coldNow_of_up (h : s.mode.isUp = true) : coldNow s =
    setRst { (coldReset 3 (setPwr { s.pwr with path := .opened, pathFrom := s.tick } s)).rst with
      coldAt := some (coldReset 3 (setPwr { s.pwr with path := .opened, pathFrom := s.tick } s)).tick }
      (coldReset 3 (setPwr { s.pwr with path := .opened, pathFrom := s.tick } s)) := by
  unfold coldNow
  rw [if_neg (not_or.mpr (not_down_of_up h))]

/-! ### A warm reset (15 R302) -/

theorem alcFlush_of_empty (h : s.home.alc = []) : alcFlush s = s := by simp [alcFlush, h, State.each]

theorem alcReport_of_none (h : s.home.found = []) : alcReport s = s := by
  unfold alcReport
  rw [h]
  show { s with home := { s.home with found := s.home.found } } = s
  rfl

/-- A warm reset is taken, while nothing is in the ALC. -/
def warmTaken (cause : Nat) (s : State) : State :=
  { setRst { s.rst with inReset := true, warmHeld := none, warmAt := some s.tick, bootFrom := s.tick, cause := cause } s with
    wab := { s.wab with wait := some s.tick } }

theorem warmRequest_of_free (cause : Nat) (hup : s.mode.isUp = true) (hwarm : s.rst.warmAt = none) (hwarn : s.pwr.warn = false)
    (hdump : dumpBusy s = false) (halc : s.home.alc = []) (hfound : s.home.found = []) :
    warmRequest cause s = warmTaken cause s := by
  obtain ⟨hoff, hpre⟩ := not_down_of_up hup
  have htake : warmTake cause s = warmTaken cause s := by
    have ha : alcFlush (warmTaken cause s) = warmTaken cause s := alcFlush_of_empty halc
    have hr : alcReport (warmTaken cause s) = warmTaken cause s := alcReport_of_none hfound
    exact (congrArg alcReport ha).trans hr
  unfold warmRequest
  rw [if_neg (by simp [hoff, hpre, hwarm]), if_neg (by simp [hwarn, hdump]), htake]

theorem warmRequest_of_warned (cause : Nat) (hup : s.mode.isUp = true) (hwarm : s.rst.warmAt = none) (hwarn : s.pwr.warn = true) :
    warmRequest cause s = setRst { s.rst with warmHeld := some cause } s := by
  obtain ⟨hoff, hpre⟩ := not_down_of_up hup
  unfold warmRequest
  rw [if_neg (by simp [hoff, hpre, hwarm]), if_pos (by simp [hwarn])]

/-! ### The start of BOOT (15 Table 15.10) -/

/-- The boot steps, but for the choice of the image. -/
def booting (s : State) : State :=
  s |> setRst { s.rst with inReset := false, refOk := true, refOut := true } |> setPwr { s.pwr with stTest := true, stFrom := s.tick }

theorem booting_rst (s : State) : (booting s).rst = { s.rst with inReset := false, refOk := true, refOut := true } := rfl
theorem booting_pwr (s : State) : (booting s).pwr = { s.pwr with stTest := true, stFrom := s.tick } := rfl

theorem secOnly_imageValidate (s : State) : SecOnly s (imageValidate s) := by
  unfold imageValidate
  dsimp only
  split
  · exact ⟨_, s.free, rfl⟩
  · split
    · exact ⟨_, s.free, rfl⟩
    · exact ⟨_, s.free, rfl⟩

theorem bootGo_of_ready (hm : s.mode = .boot) (hn : s.rst.resetN = true) (href : s.rst.refclk = true) :
    bootGo s = imageValidate (booting s) := by
  unfold bootGo
  rw [if_neg (by simp [hm, hn])]
  dsimp only
  rw [if_neg (by simp [href])]
  rfl

theorem bootGo_of_held (hn : s.rst.resetN = false) : bootGo s = s := by simp [bootGo, hn]

/-- The blocks after a warm reset, with the breaker's test and the curve as they then are. -/
def warmBlocks (s : State) : State :=
  let u := resetBlocks warmKeep s
  let u := setPwr { u.pwr with stTest := false, stFail := false, curve := curveReset, curveNew := none } u
  setRst { u.rst with warmAt := none, refOk := false } u

/-- The module as BOOT begins after a warm reset. -/
def warmReady (s : State) : State := warnFollow (setMode .boot (eaFollow (warmBlocks s)))

theorem warmBoot_eq (s : State) : warmBoot s = bootGo (warmReady s) := rfl

theorem setMode_boot (h : s.ports.links = []) : setMode .boot s = { s with mode := .boot } :=
  setMode_of_silent (fun _ => h) (.inl rfl)

theorem warnFollow_keeps {β : Type} (φ : State → β) (hea : ∀ u, φ (eaOff u) = φ u)
    (hdrain : ∀ u, φ (wr .wabM F.WAB_MOD_STS_PWR_DRAIN 1 u) = φ u) (hwab : ∀ x u, φ { u with wab := x } = φ u) (s : State) :
    φ (warnFollow s) = φ s := by
  unfold warnFollow State.when
  split
  · rw [hdrain, hea, hwab]
  · rfl

theorem warmReady_keeps {β : Type} (φ : State → β) (hea : ∀ u, φ (eaOff u) = φ u)
    (hdrain : ∀ u, φ (wr .wabM F.WAB_MOD_STS_PWR_DRAIN 1 u) = φ u) (hwab : ∀ x u, φ { u with wab := x } = φ u)
    (hmode : ∀ u, φ { u with mode := .boot } = φ u) (s : State) : φ (warmReady s) = φ (warmBlocks s) := by
  have hlinks : (eaFollow (warmBlocks s)).ports.links = [] := eaFollow_keeps (fun u => u.ports.links) (fun _ => rfl) _
  rw [warmReady, warnFollow_keeps φ hea hdrain hwab, setMode_boot hlinks, hmode, eaFollow_keeps φ hea]

theorem warmReady_mode (s : State) : (warmReady s).mode = .boot := by
  have hlinks : (eaFollow (warmBlocks s)).ports.links = [] := eaFollow_keeps (fun u => u.ports.links) (fun _ => rfl) _
  rw [warmReady, warnFollow_keeps State.mode (fun _ => rfl) (fun _ => rfl) (fun _ _ => rfl), setMode_boot hlinks]

theorem warmReady_rst (s : State) : (warmReady s).rst = { s.rst with warmAt := none, refOk := false } := by
  rw [warmReady_keeps State.rst (fun _ => rfl) (fun _ => rfl) (fun _ _ => rfl) (fun _ => rfl)]
  have h := resetBlocks_rst warmKeep s
  unfold warmBlocks
  dsimp only [setRst_rst, setPwr_rst]
  rw [h]

theorem warmReady_pwr (s : State) : (warmReady s).pwr =
    { s.pwr with stTest := false, stFail := false, curve := curveReset, curveNew := none } := by
  rw [warmReady_keeps State.pwr (fun _ => rfl) (fun _ => rfl) (fun _ _ => rfl) (fun _ => rfl)]
  have h := resetBlocks_pwr warmKeep s
  unfold warmBlocks
  dsimp only [setRst_pwr, setPwr_pwr]
  rw [h]

theorem tget_filter_kept {α : Type} (d : α) (m : Tbl α) {keep : List Nat} {i : Nat} (h : i ∈ keep) :
    tget d (m.filter fun e => keep.contains e.1) i = tget d m i := by
  have hsame : (fun e : Nat × α => decide (keep.contains e.1 = true ∧ (e.1 == i) = true)) = fun e => e.1 == i := by
    funext e
    by_cases he : e.1 = i
    · simp [he, h]
    · simp [he]
  rw [tget, List.find?_filter, hsame, tget]

/-- A register that a warm reset keeps. -/
theorem rd_resetBlocks_kept {keep : List Nat} {pg : Page} {f : Fld} (s : State) (h : fkey pg f ∈ keep) :
    rd (resetBlocks keep s) pg f = rd s pg f :=
  (tget_filter_kept _ _ h).trans (rd_congr (flashCut_keeps State.regs (fun _ _ _ => rfl) s) pg f)

theorem warmReady_ftmState (s : State) : rd (warmReady s) .ftm F.FTM_STS_STATE = rd s .ftm F.FTM_STS_STATE := by
  have hw (f : Fld) (v : Nat) (u : State) (hf : f.off * 8 + f.lo < 0x8000) :
      rd (wr .wabM f v u) .ftm F.FTM_STS_STATE = rd u .ftm F.FTM_STS_STATE := rd_wr_page u v (by decide) hf (by decide)
  refine (warmReady_keeps (fun u => rd u .ftm F.FTM_STS_STATE) (fun u => hw F.WAB_MOD_STS_EA_OFF 1 u (by decide))
    (fun u => hw F.WAB_MOD_STS_PWR_DRAIN 1 u (by decide)) (fun _ _ => rfl) (fun _ => rfl) s).trans ?_
  exact rd_resetBlocks_kept s (by simp [warmKeep])

/-- A warm reset whose BOOT goes on at once. -/
theorem warmBoot_of_ready (hn : s.rst.resetN = true) (href : s.rst.refclk = true) :
    warmBoot s = imageValidate (booting (warmReady s)) := by
  rw [warmBoot_eq]
  exact bootGo_of_ready (warmReady_mode s) (by rw [warmReady_rst]; exact hn) (by rw [warmReady_rst]; exact href)

theorem warmBoot_of_held (hn : s.rst.resetN = false) : warmBoot s = warmReady s := by
  rw [warmBoot_eq]
  exact bootGo_of_held (by rw [warmReady_rst]; exact hn)

/-- An entry that may still retire keeps a warm reset waiting. -/
theorem warmReset_of_waiting {n : Nat} {e : WabE} (hwarm : s.rst.warmAt = some n) (he : e ∈ s.wab.ents) (hs : e.stranded = false)
    (hlim : s.tick < n + wabWaitLimit) : warmReset s = s := by
  have hwaits : wabWaits s none = true := by
    unfold wabWaits
    rw [List.any_eq_true.mpr ⟨e, he, by simp [hs]⟩, Bool.true_or]
  have hdrained : warmDrained s n = false := by simp [warmDrained, hwaits, Nat.not_le.mpr hlim]
  simp [warmReset, hwarm, hdrained]

/-- BOOT as it goes on after a warm reset. -/
def warmStarted (s : State) : State := imageValidate (booting (warmReady s))

/-- A part of the state that neither the power controller's fields, the store, EA_OFF, the WAB nor the mode are in. -/
structure BootDeaf {β : Type} (φ : State → β) : Prop where
  sec : ∀ x n u, φ { u with sec := x, free := n } = φ u := by intros; rfl
  rst : ∀ r u, φ (setRst r u) = φ u := by intros; rfl
  pwr : ∀ p u, φ (setPwr p u) = φ u := by intros; rfl
  eaOff : ∀ u, φ (eaOff u) = φ u := by intros; rfl
  drain : ∀ u, φ (wr .wabM F.WAB_MOD_STS_PWR_DRAIN 1 u) = φ u := by intros; rfl
  wab : ∀ x u, φ { u with wab := x } = φ u := by intros; rfl
  mode : ∀ u, φ { u with mode := .boot } = φ u := by intros; rfl

theorem warmStarted_keeps {β : Type} (φ : State → β) (h : BootDeaf φ) (s : State) :
    φ (warmStarted s) = φ (resetBlocks warmKeep s) := by
  rw [warmStarted, (secOnly_imageValidate _).keeps φ h.sec, booting, h.pwr, h.rst, warmReady_keeps φ h.eaOff h.drain h.wab h.mode,
    warmBlocks, h.rst, h.pwr]

theorem warmStarted_time (s : State) : (warmStarted s).time = s.time := (warmStarted_keeps State.time {} s).trans (resetBlocks_time _ s)
theorem warmStarted_tick (s : State) : (warmStarted s).tick = s.tick := (warmStarted_keeps State.tick {} s).trans (resetBlocks_tick _ s)
theorem warmStarted_core (s : State) : (warmStarted s).core = Core.reset := (warmStarted_keeps State.core {} s).trans (resetBlocks_core _ s)
theorem warmStarted_sched (s : State) : (warmStarted s).sched = [] := (warmStarted_keeps State.sched {} s).trans (resetBlocks_sched _ s)
theorem warmStarted_parts (s : State) : (warmStarted s).parts = [] := (warmStarted_keeps State.parts {} s).trans (resetBlocks_parts _ s)
theorem warmStarted_stagingWin (s : State) : (warmStarted s).flt.stagingWin = s.flt.stagingWin :=
  (warmStarted_keeps (fun u => u.flt.stagingWin) {} s).trans (resetBlocks_stagingWin _ s)
theorem warmStarted_fatal (s : State) : (warmStarted s).flt.fatal = none :=
  (warmStarted_keeps (fun u => u.flt.fatal) {} s).trans (resetBlocks_fatal _ s)

theorem warmStarted_mode (s : State) : (warmStarted s).mode = .boot :=
  ((secOnly_imageValidate _).keeps State.mode fun _ _ _ => rfl).trans (warmReady_mode s)

theorem warmStarted_rst (s : State) : (warmStarted s).rst =
    { s.rst with warmAt := none, refOk := true, inReset := false, refOut := true } := by
  have h := warmReady_rst s
  rw [warmStarted, (secOnly_imageValidate _).keeps State.rst fun _ _ _ => rfl, booting, setPwr_rst, setRst_rst, h]

theorem warmStarted_pwr (s : State) : ∃ f, (warmStarted s).pwr =
    { s.pwr with stTest := true, stFail := false, curve := curveReset, curveNew := none, stFrom := f } := by
  have h := warmReady_pwr s
  refine ⟨(warmReady s).tick, ?_⟩
  rw [warmStarted, (secOnly_imageValidate _).keeps State.pwr fun _ _ _ => rfl, booting, setPwr_pwr]
  dsimp only [setRst_pwr, setRst_tick]
  rw [h]

theorem warmStarted_ftmState (s : State) : rd (warmStarted s) .ftm F.FTM_STS_STATE = rd s .ftm F.FTM_STS_STATE :=
  ((secOnly_imageValidate _).keeps (fun u => rd u .ftm F.FTM_STS_STATE) fun _ _ _ => rfl).trans (warmReady_ftmState s)

theorem bypass_of_down (h : s.mode.isUp = false) : (pinsOf s).bypass = true := by simp [pinsOf, h]

theorem refclk_of_out (hlow : s.pwr.lowAt = none) (h : s.rst.refOut = true) : (pinsOf s).refclk = true := by
  simp [pinsOf, islandOn, hlow, h]

theorem pg_of_boot (hm : s.mode = .boot) (h : s.rst.resetN = false) : (pinsOf s).pg = false := by
  simp [pinsOf, pgPin, hm, h, Mode.isUp]

/-- A warm reset that has drained its buffer, with RESET_N high and REFCLK. -/
theorem warmReset_boots {n : Nat} (hwarm : s.rst.warmAt = some n) (hents : s.wab.ents = []) (halc : s.home.alc = [])
    (hdump : dumpBusy s = false) (hn : s.rst.resetN = true) (href : s.rst.refclk = true) (hlow : s.pwr.lowAt = none) :
    ∃ t, exec .warmReset s = .next t ∧ t.mode = .boot ∧ t.rst.warmAt = none ∧ t.rst.refOk = true ∧ t.time = s.time ∧
      t.tick = s.tick ∧ t.pwr.path = s.pwr.path ∧ t.pwr.stTest = true ∧ t.pwr.curve = curveReset ∧ t.pins.bypass = true ∧
      t.pins.perst = List.range 128 ∧ t.pins.refclk = true ∧ t.core = Core.reset ∧ t.sched = [] ∧ t.parts = [] ∧
      rd t .ftm F.FTM_STS_STATE = rd s .ftm F.FTM_STS_STATE ∧ t.flt.stagingWin = s.flt.stagingWin ∧ t.flt.fatal = none := by
  have hrun : exec .warmReset s = done s (warmStarted s) := congrArg (done s) ((warmReset_of_empty hwarm hents halc hdump).trans (warmBoot_of_ready hn href))
  have htime := warmStarted_time s
  have htick := warmStarted_tick s
  have hcore := warmStarted_core s
  have hsched := warmStarted_sched s
  have hparts := warmStarted_parts s
  have hwin := warmStarted_stagingWin s
  have hfatal := warmStarted_fatal s
  have hm := warmStarted_mode s
  have hrst := warmStarted_rst s
  obtain ⟨f, hpwr⟩ := warmStarted_pwr s
  have hftm := warmStarted_ftmState s
  generalize warmStarted s = u at *
  have hpins : u.pwr.lowAt = none ∧ u.rst.refOut = true := by
    rw [hpwr, hrst]
    exact ⟨hlow, rfl⟩
  refine ⟨_, hrun, (settled_mode _ _).trans hm, ?_, ?_, (settled_time _ _).trans htime,
    (settled_tick _ _).trans htick, ?_, ?_, ?_, bypass_of_down (by rw [hm]; rfl), perst_of_boot hm,
    refclk_of_out hpins.1 hpins.2, (settled_core _ _).trans hcore, (settled_sched _ _).trans hsched, (settled_parts _ _).trans hparts,
    (rd_settled _ _ _ _).trans hftm, ?_, ?_⟩
  · rw [settled_rst, hrst]
  · rw [settled_rst, hrst]
  · rw [settled_pwr, hpwr]
  · rw [settled_pwr, hpwr]
  · rw [settled_pwr, hpwr]
  · rw [settled_flt, hwin]
  · rw [settled_flt, hfatal]

/-- A cold reset that the module orders itself. -/
theorem coldNow_resets (h : s.mode.isUp = true) : (coldNow s).mode = .off ∧ (coldNow s).pwr.path = .opened ∧
    (coldNow s).rst = { Rst.reset with cause := 3, resetN := s.rst.resetN, refclk := s.rst.refclk, coldAt := some s.tick } ∧
    (coldNow s).time = 0 ∧ rd (coldNow s) .ftm F.FTM_STS_STATE = 0 ∧ (coldNow s).pwr.fails = s.pwr.fails ∧
    (coldNow s).wab.plr = s.wab.plr ∧ (coldNow s).core = Core.reset ∧ (coldNow s).pwr.pgInt = false := by
  rw [coldNow_of_up h]
  generalize hv : setPwr { s.pwr with path := .opened, pathFrom := s.tick } s = v
  have hvp : v.pwr = { s.pwr with path := .opened, pathFrom := s.tick } := by rw [← hv]; rfl
  have hvr : v.rst = s.rst := by rw [← hv]; rfl
  have hvt : v.tick = s.tick := by rw [← hv]; rfl
  have hvw : v.wab = s.wab := by rw [← hv]; rfl
  have hp := coldReset_pwr 3 v
  have hr := coldReset_rst 3 v
  have ht := coldReset_tick 3 v
  have hplr := coldReset_plr 3 v
  have hftm := coldReset_ftmState 3 v
  have hm := coldReset_mode 3 v
  have htime := coldReset_time 3 v
  have hcore := coldReset_core 3 v
  generalize coldReset 3 v = u at *
  refine ⟨hm, hp.path.trans (by rw [hvp]), ?_, htime, hftm, hp.fails.trans (by rw [hvp]), hplr.trans (by rw [hvw]), hcore, hp.pgInt⟩
  rw [setRst_rst, hr, ht, hvr, hvt]

/-- What BOOT comes to when RESET_N rises and REFCLK is there. -/
def riseBooted (s : State) : State := imageValidate (booting (setRst { s.rst with resetN := true } s))

theorem riseBooted_mode (s : State) : (riseBooted s).mode = s.mode := (secOnly_imageValidate _).keeps State.mode fun _ _ _ => rfl

theorem riseBooted_rst (s : State) : (riseBooted s).rst = { s.rst with resetN := true, inReset := false, refOk := true, refOut := true } :=
  ((secOnly_imageValidate _).keeps State.rst fun _ _ _ => rfl).trans (booting_rst _)

theorem riseBooted_pwr (s : State) : (riseBooted s).pwr = { s.pwr with stTest := true, stFrom := s.tick } :=
  ((secOnly_imageValidate _).keeps State.pwr fun _ _ _ => rfl).trans (booting_pwr _)

/-- RESET_N rises in BOOT, with REFCLK and power. -/
theorem resetNRise_boots (hm : s.mode = .boot) (href : s.rst.refclk = true) (hpg : s.pwr.pgInt = true)
    (hlow : s.pwr.lowAt = none) : ∃ t, exec .resetNRise s = .next t ∧ t.rst.resetN = true ∧ t.rst.refOk = true ∧
      t.pwr.stTest = true ∧ t.mode = .boot ∧ t.pins.pg = true := by
  have hrun : exec .resetNRise s = done s (riseBooted s) :=
    congrArg (done s) (bootGo_of_ready (s := setRst { s.rst with resetN := true } s) hm rfl href)
  have hrst := riseBooted_rst s
  have hpwr := riseBooted_pwr s
  have hmode := (riseBooted_mode s).trans hm
  generalize riseBooted s = u at *
  refine ⟨_, hrun, ?_, ?_, ?_, (settled_mode _ _).trans hmode, ?_⟩
  · rw [settled_rst, hrst]
  · rw [settled_rst, hrst]
  · rw [settled_pwr, hpwr]
  · change (pinsOf u).pg = true
    simp [pinsOf, islandOn, pgPin, hrst, hpwr, hlow, hpg]

/-- Settles O51: each reset by what it leaves of the state, the blocks' reset taken apart by field. -/
theorem resets : Obligations.Resets := by
  unfold Obligations.Resets
  refine ⟨?_, ?_, ?_, ?_, ?_, ?_, ?_, ?_, ?_, ?_, ?_⟩
  · intro s hup hwarm hwarn hdump halc hfound
    exact ⟨_, congrArg (done s) (warmRequest_of_free 2 hup hwarm hwarn hdump halc hfound), rfl, rfl, pg_of_reset rfl, rfl, rfl, rfl⟩
  · intro s hup hwarm hwarn
    exact ⟨_, congrArg (done s) (warmRequest_of_warned 2 hup hwarm hwarn), rfl, rfl, rfl⟩
  · intro s hup hwarm hwarn hdump halc hfound
    exact ⟨_, congrArg (done s) (warmRequest_of_free (s := setRst { s.rst with resetN := false } s) 1 hup hwarm hwarn hdump halc
      hfound), rfl, rfl, rfl, pg_of_reset rfl, rfl, rfl⟩
  · intro s n hwarm hents halc hdump hn href hlow
    exact warmReset_boots hwarm hents halc hdump hn href hlow
  · intro s n hwarm hents halc hdump hn
    have hrun := (warmReset_of_empty hwarm hents halc hdump).trans (warmBoot_of_held hn)
    have hrst := warmReady_rst s
    have hm := warmReady_mode s
    refine ⟨_, congrArg (done s) hrun, hm, pg_of_boot hm (by rw [hrst]; exact hn), ?_, ?_⟩
    · rw [settled_rst, hrst]
    · rw [settled_pwr, warmReady_pwr]
  · intro s n e hwarm he hs hlim
    exact ⟨_, congrArg (done s) (warmReset_of_waiting hwarm he hs hlim), rfl, rfl, rfl, rfl⟩
  · intro s hm hn href hpg hlow
    exact resetNRise_boots hm href hpg hlow
  · intro s hup
    have hrun : cold 0xC0 s = coldNow s := if_neg (by simp)
    obtain ⟨hm, hpath, hrst, htime, hftm, hfails, hplr, hcore, hpg⟩ := coldNow_resets hup
    generalize coldNow s = u at *
    refine ⟨_, congrArg (done s) hrun, hm, hpath, ?_, ?_, htime, hftm, hfails, hplr, hcore, pg_of_low hpg, perst_of_off hm⟩
    · rw [settled_rst, hrst]
    · rw [settled_rst, hrst]
  · intro s key hkey
    refine ⟨_, congrArg (done s) (if_pos hkey), ?_, rfl, rfl, rfl⟩
    rw [rd_settled, rd_reject]
  · intro s href hup
    have hrun : refclkLoss s = coldNow (setRst { s.rst with refclk := false, refOk := false } s) := by
      unfold refclkLoss
      rw [if_neg (by simp [href])]
      exact if_pos hup
    obtain ⟨hm, hpath, hrst, -⟩ := coldNow_resets (s := setRst { s.rst with refclk := false, refOk := false } s) hup
    generalize coldNow _ = u at *
    refine ⟨_, congrArg (done s) hrun, ?_, ?_, hm, hpath, ?_⟩
    · rw [settled_rst, hrst]
      rfl
    · rw [settled_rst, hrst]
      rfl
    · rw [settled_rst, hrst]
      rfl
  · intro s
    refine ⟨_, rfl, Nat.mod_lt _ (by decide), rfl, ?_, rfl⟩
    rw [rd_settled]
    exact rd_wr_of_lt _ (Nat.div_lt_of_lt_mul (Nat.mod_lt _ (by decide)))

end Sys2Proof.Machine
end

section
/-! SUPPORT. What a raised source and PWRWARN_N leave of the power controller, and the record of a source that is raised (12, 15). -/
namespace Sys2Proof.Machine
variable {s t : State}

theorem when_keeps {β : Type} (φ : State → β) {f : State → State} (h : ∀ u, φ (f u) = φ u) (b : Bool) (s : State) :
    φ (s.when b f) = φ s := by
  cases b
  · rfl
  · exact h s

theorem ite_keeps {β : Type} (φ : State → β) {x : β} {c : Prop} [Decidable c] (h : φ s = x) (g : φ t = x) :
    φ (if c then s else t) = x := by
  split
  · exact h
  · exact g

theorem completeO_pwr (c : Option Ctx) (op st r : Nat) (s : State) : (completeO c op st r s).pwr = s.pwr := by
  cases c with
  | none => rfl
  | some c => exact complete_pwr ..

theorem glrSend_pwr (dst typ : Nat) (body : List Nat) (s : State) : (glrSend dst typ body s).pwr = s.pwr := by
  obtain ⟨g, o, h⟩ := glrSend_glr_only dst typ body s
  rw [h]

theorem ownerDone_pwr (e : SchedEnt) (st r : Nat) (s : State) : (ownerDone e st r s).pwr = s.pwr := by
  unfold ownerDone
  split
  · exact complete_pwr ..
  · exact glrSend_pwr ..
  · rfl

theorem endScan_pwr (p r : Nat) (s : State) : (endScan p r s).pwr = s.pwr := by
  unfold endScan
  split
  · rfl
  · exact completeO_pwr ..

theorem setPhase_pwr (lead : Nat) (ph : Phase) (s : State) : (setPhase lead ph s).pwr = s.pwr := by
  have hresv (f : Resv → Bool) (u : State) : (loseResvIf f .lostError u).pwr = u.pwr := rfl
  unfold setPhase
  dsimp only
  split
  · rw [when_keeps State.pwr (hresv _), wr_pwr, wr_pwr, wrb_pwr, modLink_pwr]
  · rw [each_keeps State.pwr (fun p _ u => endScan_pwr p 3 u), when_keeps State.pwr (hresv _), wr_pwr, wr_pwr, wrb_pwr, modLink_pwr]

theorem laneReadmit_pwr (lead : Nat) (s : State) : (laneReadmit lead s).pwr = s.pwr := by
  unfold laneReadmit
  split
  · rfl
  · rw [each_keeps State.pwr (fun n _ u => setLane_pwr u n _), wr_pwr, wrb_pwr]

theorem enterRecovery_pwr (lead : Nat) (s : State) : (enterRecovery lead s).pwr = s.pwr := by
  unfold enterRecovery
  split
  · rw [modLink_pwr, wr_pwr, laneReadmit_pwr, setPhase_pwr]
  · rfl

theorem startDrain_pwr (part : Nat) (why : DrainFor) (s : State) : (startDrain part why s).pwr = s.pwr :=
  each_keeps State.pwr (fun (a : AlcL) _ u => (Beside.alcWriteback a.tile a.line u).aside.pwr) s

theorem restartFirst_pwr (part : Nat) (s : State) : (restartFirst part s).pwr = s.pwr := by
  unfold restartFirst
  split
  · split
    · rw [ownerDone_pwr]
      rfl
    · rfl
  · rfl

theorem countReset_pwr (part cause : Nat) (s : State) : (countReset part cause s).pwr = s.pwr := by
  unfold countReset
  dsimp only
  split <;> rw [bump_pwr, wr_pwr]

theorem partResetStart_pwr (part cause : Nat) (ctx : Option Ctx) (s : State) : (partResetStart part cause ctx s).pwr = s.pwr := by
  unfold partResetStart
  dsimp only
  have hbegun : ((countReset part cause (restartFirst part s)).when (cause == 1)
      (wr (.part part) F.PART_CTL_RESET 1)).pwr = s.pwr := by
    rw [when_keeps State.pwr (fun u => wr_pwr u _ _ _), countReset_pwr, restartFirst_pwr]
  generalize (countReset part cause (restartFirst part s)).when _ _ = u at *
  split
  · exact hbegun
  · refine (each_keeps State.pwr (fun l _ v => say_pwr v _) _).trans ((each_keeps State.pwr (fun i _ v =>
      (CellStep.discardCell i v).beside.aside.pwr) _).trans ((startDrain_pwr ..).trans ?_))
    split
    · rw [ownerDone_pwr]
      exact hbegun
    · exact hbegun

theorem react_pwr (r n : Nat) (part link : Option Nat) (s : State) : (react r n part link s).pwr = s.pwr := by
  unfold react
  split_ifs
  · split
    · exact enterRecovery_pwr ..
    · rfl
  · split
    · rw [partResetStart_pwr, startDrain_pwr]
    · rfl
  · exact (Aside.fatalStart n s).pwr
  · rfl

theorem disarmAll_pwr (s : State) : (disarmAll s).pwr = s.pwr := by
  unfold disarmAll
  exact each_keeps State.pwr (by intros; rfl) s

theorem setMode_pwr (m : Mode) (s : State) : (setMode m s).pwr = s.pwr := by
  unfold setMode
  dsimp only
  split
  · rfl
  · rw [when_keeps State.pwr (fun u => post_pwr u 128 0x11 _)]
    exact when_keeps State.pwr disarmAll_pwr _ s

theorem setMode_mode (m : Mode) (s : State) : (setMode m s).mode = m := by
  unfold setMode
  dsimp only
  split
  next h => exact h
  · rw [when_keeps State.mode (fun u => post_mode u 128 0x11 _)]

theorem countMerge_pwr (n : Nat) (s : State) : (countMerge n s).pwr = s.pwr := (Aside.countMerge n s).pwr

theorem raiseAs_pwr (force : Option Nat) (n : Nat) (part link : Option Nat) (wire : Nat) (s : State) :
    (raiseAs force n part link wire s).pwr = s.pwr := by
  unfold raiseAs
  split
  next info pg k _ _ =>
    dsimp only
    have herr := when_keeps State.pwr (f := setErrPart pg (part.getD 0) true) (fun _ => rfl) (info.domain == 2 && part.isSome) s
    generalize s.when (info.domain == 2 && part.isSome) (setErrPart pg (part.getD 0) true) = u at *
    refine ite_keeps State.pwr rfl (ite_keeps State.pwr herr (ite_keeps State.pwr ?_ (ite_keeps State.pwr ?_ ?_)))
    · rw [countMerge_pwr, setSrc_pwr, herr]
    · exact (countMerge_pwr ..).trans ((when_keeps State.pwr (fun v => setSrc_pwr v n _) _ u).trans herr)
    · exact (react_pwr ..).trans ((when_keeps State.pwr (setMode_pwr _) _ _).trans
        ((post_pwr ..).trans ((setSrc_pwr ..).trans herr)))
  · rfl

theorem raise_pwr (n : Nat) (part link : Option Nat) (s : State) : (raise n part link s).pwr = s.pwr := raiseAs_pwr ..

theorem alcReport_pwr (s : State) : (alcReport s).pwr = s.pwr := by
  refine (each_keeps State.pwr (l := s.home.found) (f := fun x => match x.2 with
    | some p => raise (tileSrcNo x.1 12) (some p) none
    | none => raise (tileSrcNo x.1 11) none none) (fun x _ u => ?_) s)
  obtain ⟨t, p⟩ := x
  cases p <;> exact raise_pwr ..

theorem warnOn_pwr (s : State) : (warnOn s).pwr = { s.pwr with warn := true } := by
  unfold warnOn
  split
  next h => rw [← h]
  · dsimp only
    refine ite_keeps State.pwr rfl ?_
    rw [alcReport_pwr, (Beside.alcFlush _).aside.pwr]
    rfl

/-! ### What the record of a raised source depends on -/

/-- The collector sees the same of two states: records, reactions in force, the mode and the tick. -/
structure SeenAlike (s t : State) : Prop where
  srcs : t.flt.srcs = s.flt.srcs
  fatal : t.flt.fatal.isSome = s.flt.fatal.isSome
  mode : t.mode = s.mode
  tick : t.tick = s.tick

theorem SeenAlike.srcOf (h : SeenAlike s t) (n : Nat) : srcOf t n = srcOf s n := by unfold Machine.srcOf; rw [h.srcs]

theorem SeenAlike.reactOf (h : SeenAlike s t) (n : Nat) : reactOf t n = reactOf s n := by
  unfold Machine.reactOf
  rw [h.srcOf]

theorem SeenAlike.setSrc (h : SeenAlike s t) (n : Nat) (x : SrcS) : SeenAlike (setSrc n x s) (setSrc n x t) where
  srcs := congrArg (fun l => tput SrcS.reset l n x) h.srcs
  fatal := h.fatal
  mode := h.mode
  tick := h.tick

theorem countMerge_flt (n : Nat) (s : State) : (countMerge n s).flt = s.flt := by
  unfold countMerge
  split <;> rfl

theorem countMerge_mode (n : Nat) (s : State) : (countMerge n s).mode = s.mode := by
  unfold countMerge
  split <;> rfl

theorem SeenAlike.countMerge (h : SeenAlike s t) (n : Nat) : SeenAlike (countMerge n s) (countMerge n t) where
  srcs := by rw [countMerge_flt, countMerge_flt, h.srcs]
  fatal := by rw [countMerge_flt, countMerge_flt, h.fatal]
  mode := by rw [countMerge_mode, countMerge_mode, h.mode]
  tick := by rw [(Aside.countMerge n t).tick, (Aside.countMerge n s).tick, h.tick]

theorem SeenAlike.post (h : SeenAlike s t) (typ : Nat) (l : List (Nat × Nat)) : SeenAlike (post 128 typ l s) (post 128 typ l t) where
  srcs := by rw [post_flt, post_flt, h.srcs]
  fatal := by rw [post_flt, post_flt, h.fatal]
  mode := by rw [post_mode, post_mode, h.mode]
  tick := by rw [post_tick, post_tick, h.tick]

theorem SeenAlike.with_mode (h : SeenAlike s t) (m : Mode) : SeenAlike { s with mode := m } { t with mode := m } :=
  ⟨h.srcs, h.fatal, rfl, h.tick⟩

theorem setMode_degraded_of_run (h : s.mode = .run) :
    setMode .degraded s = Machine.post 128 0x11 [(16, Mode.run.code), (17, Mode.degraded.code)] { s with mode := .degraded } := by
  have hne : ¬ s.mode = .degraded := by rw [h]; decide
  have hm : (s.mode == Mode.maintenance) = false := by rw [h]; rfl
  unfold setMode
  rw [if_neg hne, hm, show s.when false disarmAll = s from rfl]
  dsimp only
  rw [h]
  rfl

theorem SeenAlike.setMode_degraded (h : SeenAlike s t) (hrun : s.mode = .run) :
    SeenAlike (setMode .degraded s) (setMode .degraded t) := by
  rw [setMode_degraded_of_run hrun, setMode_degraded_of_run (h.mode.trans hrun)]
  exact (h.with_mode .degraded).post ..

theorem SeenAlike.degrade (h : SeenAlike s t) (b : Bool) :
    SeenAlike (s.when (b && decide (s.mode = .run)) (setMode .degraded)) (t.when (b && decide (t.mode = .run)) (setMode .degraded)) := by
  rw [h.mode]
  by_cases hb : (b && decide (s.mode = .run)) = true
  · rw [hb]
    exact h.setMode_degraded (of_decide_eq_true (Bool.and_eq_true_iff.mp hb).2)
  · rw [Bool.eq_false_iff.mpr hb]
    exact h

/-- FATAL handling abandons the handling of a link or a partition. -/
def Handling.stays (h : Handling) : Bool := h.react != React.port && h.react != React.partition

theorem relockNow_flt (r : Nat) (s : State) : (relockNow r s).flt = s.flt := by
  unfold relockNow
  split
  · rfl
  · rw [post_flt]

theorem relockNow_mode (r : Nat) (s : State) : (relockNow r s).mode = s.mode := by
  unfold relockNow
  split
  · rfl
  · rw [post_mode]

theorem fatalStart_flt (n : Nat) (s : State) : (fatalStart n s).flt = { (holdEmber s).flt with
    fatal := some ⟨s.tick, s.time, n, s.mode.code, none, false⟩
    srcs := s.flt.srcs.map fun e => (e.1, { e.2 with opens := e.2.opens.filter Handling.stays }) } := by
  unfold fatalStart
  dsimp only
  rw [(Beside.alcFlush _).flt, say_flt, relockNow_flt]
  rfl

theorem fatalStart_mode (n : Nat) (s : State) : (fatalStart n s).mode = s.mode := by
  unfold fatalStart
  dsimp only
  rw [(Beside.alcFlush _).mode, say_mode, relockNow_mode]
  rfl

theorem SeenAlike.react (h : SeenAlike s t) (r n : Nat) : SeenAlike (react r n none none s) (react r n none none t) := by
  unfold Machine.react
  split_ifs
  · exact h
  · exact h
  · exact ⟨by rw [fatalStart_flt, fatalStart_flt, h.srcs], by rw [fatalStart_flt, fatalStart_flt]; rfl, by rw [fatalStart_mode, fatalStart_mode, h.mode],
      by rw [(Aside.fatalStart n t).tick, (Aside.fatalStart n s).tick, h.tick]⟩
  · exact h

theorem SeenAlike.assertSource (h : SeenAlike s t) (force : Option Nat) {n : Nat} (info : SrcInfo) (wire : Nat)
    (hmask : srcMasked t n = srcMasked s n) : SeenAlike (assertSource force n info wire s) (assertSource force n info wire t) := by
  have hheard : unheard t n = unheard s n := by rw [unheard, unheard, hmask, h.srcOf, h.tick, h.mode]
  unfold Machine.assertSource
  dsimp only
  rw [hheard, h.fatal, h.reactOf, h.srcOf, h.tick]
  split_ifs
  · exact h
  · exact (h.setSrc ..).countMerge n
  · exact (h.setSrc ..).countMerge n
  · unfold openSource
    dsimp only
    rw [h.srcOf, h.tick]
    exact (((h.setSrc ..).post ..).degrade _).react ..

theorem SeenAlike.raiseAs (h : SeenAlike s t) (force : Option Nat) {n : Nat} (wire : Nat) (hn : n < 0x200)
    (hmask : srcMasked t n = srcMasked s n) : SeenAlike (raiseAs force n none none wire s) (raiseAs force n none none wire t) := by
  cases hi : srcInfo n with
  | none => simpa only [Machine.raiseAs, hi] using h
  | some info =>
    cases hp : srcPage n with
    | none => simpa only [Machine.raiseAs, hi, hp] using h
    | some x =>
      rw [raiseAs_module hn hi hp, raiseAs_module hn hi hp]
      exact h.assertSource force info wire hmask
end Sys2Proof.Machine
end

section
/-! SUPPORT. The input fails and returns (15 R285, R288, R293-R296). -/
namespace Sys2Proof.Machine
variable {s t : State}

theorem rd_eaOff (s : State) : rd (eaOff s) .wabM F.WAB_MOD_STS_EA_OFF = 1 := rd_wr_of_lt _ (by decide)

theorem alcReport_of_quiet (halc : s.home.alc = []) (hfound : s.home.found = []) : alcReport (alcFlush s) = s := by
  rw [alcFlush_of_empty halc, alcReport_of_none hfound]

/-- What the warning begins in a module whose core has power. -/
def warned (s : State) : State :=
  { setPwr { s.pwr with warn := true } s with wab := { s.wab with pwrDrain := some s.tick } }
    |> eaOff |> wr .wabM F.WAB_MOD_STS_PWR_DRAIN 1

theorem rd_warned_drain (s : State) : rd (warned s) .wabM F.WAB_MOD_STS_PWR_DRAIN = 1 := rd_wr_of_lt _ (by decide)

theorem rd_warned_eaOff (s : State) : rd (warned s) .wabM F.WAB_MOD_STS_EA_OFF = 1 :=
  (rd_wr_place _ _ (by decide)).trans (rd_eaOff _)

theorem warnOn_of_up (hwarn : s.pwr.warn = false) (hup : s.mode.isUp = true) (halc : s.home.alc = []) (hfound : s.home.found = []) :
    warnOn s = warned s := by
  unfold warnOn
  rw [if_neg (by simp [hwarn])]
  dsimp only
  rw [if_neg (by simp [hup])]
  exact alcReport_of_quiet halc hfound

theorem warnOn_cases (halc : s.home.alc = []) (hfound : s.home.found = []) :
    warnOn s = s ∨ warnOn s = setPwr { s.pwr with warn := true } s ∨ warnOn s = warned s := by
  unfold warnOn
  split
  · exact .inl rfl
  · dsimp only
    split
    · exact .inr (.inl rfl)
    · exact .inr (.inr (alcReport_of_quiet halc hfound))

/-- The path of a module opens: what the store and the discharger come to before PWRWARN_N. -/
def pathOpen (why : Nat) (s : State) : State :=
  setPwr { s.pwr with
    path := .holdup, pathFrom := s.tick, why := why, reclose := false, pgInt := false, full := false
    vstore := Config.freeNat s.free % 35000 } { s with free := s.free + 1 } |> eaOff

theorem openPath_eq (why : Nat) (s : State) : openPath why s = warnOn (pathOpen why s) := rfl

theorem pathOpen_pwr (why : Nat) (s : State) : (pathOpen why s).pwr = { s.pwr with
    path := .holdup, pathFrom := s.tick, why := why, reclose := false, pgInt := false, full := false
    vstore := Config.freeNat s.free % 35000 } := rfl

/-- The path of a module opens while its ALC holds nothing. -/
theorem openPath_of_quiet (why : Nat) (halc : s.home.alc = []) (hfound : s.home.found = []) :
    (openPath why s).mode = s.mode ∧ rd (openPath why s) .wabM F.WAB_MOD_STS_EA_OFF = 1 := by
  have hea : rd (pathOpen why s) .wabM F.WAB_MOD_STS_EA_OFF = 1 := rd_eaOff _
  rw [openPath_eq]
  obtain h | h | h := warnOn_cases (s := pathOpen why s) halc hfound
  · rw [h]
    exact ⟨rfl, hea⟩
  · rw [h]
    exact ⟨rfl, hea⟩
  · rw [h]
    exact ⟨rfl, rd_warned_eaOff _⟩

/-- The power controller's fields after the path has opened. -/
structure Opened (why tick : Nat) (p q : Pwr) : Prop where
  path : q.path = .holdup
  pathFrom : q.pathFrom = tick
  why : q.why = why
  pgInt : q.pgInt = false
  warn : q.warn = true
  ov : q.ov = p.ov
  fails : q.fails = p.fails
  trips : q.trips = p.trips
  cause : q.cause = p.cause
  point : q.point = p.point
  latched : q.latched = p.latched
  lowAt : q.lowAt = p.lowAt

theorem openPath_pwr (why : Nat) (s : State) : Opened why s.tick s.pwr (openPath why s).pwr := by
  rw [openPath_eq, warnOn_pwr, pathOpen_pwr]
  exact ⟨rfl, rfl, rfl, rfl, rfl, rfl, rfl, rfl, rfl, rfl, rfl, rfl⟩

theorem warn_of_on (hlow : s.pwr.lowAt = none) (h : s.pwr.warn = true) : (pinsOf s).warn = true := by simp [pinsOf, islandOn, hlow, h]

theorem warn_of_off (h : s.pwr.warn = false) : (pinsOf s).warn = false := by simp [pinsOf, h]

/-- What the end of the warning leaves, with no warm reset held. -/
theorem warnOff_ends (hheld : s.rst.warmHeld = none) (hwarn : s.pwr.warn = true) :
    (warnOff s).pwr = { s.pwr with warn := false } ∧ (warnOff s).wab.pwrDrain = none ∧
      rd (warnOff s) .wabM F.WAB_MOD_STS_PWR_DRAIN = 0 ∧ (warnOff s).mode = s.mode := by
  unfold warnOff
  rw [if_neg (by simp [hwarn])]
  have hb := (CellStep.each (List.range 8) CellStep.returnOwed
    (wr .wabM F.WAB_MOD_STS_PWR_DRAIN 0 { setPwr { s.pwr with warn := false } s with wab := { s.wab with pwrDrain := none } })).beside
  dsimp only
  generalize State.each _ _ _ = u at *
  have hgo : warmHeldGo u = u := by
    unfold warmHeldGo
    rw [show u.rst.warmHeld = none from (congrArg Rst.warmHeld hb.aside.rst).trans hheld]
  rw [hgo]
  refine ⟨hb.aside.pwr, congrArg Wab.pwrDrain hb.wab, ?_, hb.mode⟩
  rw [hb.aside.rd _ _ (asidePage_of_base (by decide) (by decide)) (by decide)]
  exact rd_wr_of_lt _ (by decide)

theorem warnOff_of_off (hwarn : s.pwr.warn = false) : warnOff s = s := by simp [warnOff, hwarn]

theorem islandUp_of_on (h : s.pwr.lowAt = none) : islandUp s = s := by
  unfold islandUp
  rw [h]

/-- The path opens below VIN_UV while a start is in precharge. -/
theorem pathLost_of_precharge (why : Nat) (h : s.pwr.path = .precharge) : (pathLost why s).mode = .off ∧
    (pathLost why s).pwr = { s.pwr with path := .opened, pathFrom := s.tick, warn := true } := by
  have hrun : pathLost why s = setMode .off (warnOn (setPwr { s.pwr with path := .opened, pathFrom := s.tick } s)) := by
    unfold pathLost
    rw [h]
  rw [hrun, setMode_pwr, warnOn_pwr]
  exact ⟨setMode_mode .., rfl⟩

theorem pathLost_of_closed (why : Nat) (h : s.pwr.path = .closed) : pathLost why s = openPath why s := by
  unfold pathLost
  rw [h]

theorem pathLost_of_opened (why : Nat) (h : s.pwr.path = .opened) : pathLost why s = s := by
  unfold pathLost
  rw [h]

theorem vinUv_holds (mv : Nat) (hmv : mv < 4000) (hpath : s.pwr.path = .closed) (hlow : s.pwr.lowAt = none) (halc : s.home.alc = [])
    (hfound : s.home.found = []) :
    ∃ t, exec (.vinUv mv) s = .next t ∧ t.pwr.path = .holdup ∧ t.pwr.pathFrom = s.tick ∧ t.pwr.why = 0 ∧ t.pwr.pgInt = false ∧
      t.pwr.warn = true ∧ t.pins.warn = true ∧ t.pins.pg = false ∧ rd t .wabM F.WAB_MOD_STS_EA_OFF = 1 ∧ t.mode = s.mode ∧
      t.pwr.fails = s.pwr.fails ∧ t.pwr.cause = s.pwr.cause := by
  have hrun : vinUv mv s = openPath 0 (setVin mv s) := (if_neg (Nat.not_le.mpr hmv)).trans (pathLost_of_closed 0 hpath)
  have hp := openPath_pwr 0 (setVin mv s)
  obtain ⟨hm, hea⟩ := openPath_of_quiet (s := setVin mv s) 0 halc hfound
  generalize openPath 0 (setVin mv s) = u at *
  exact ⟨_, congrArg (done s) hrun, hp.path, hp.pathFrom, hp.why, hp.pgInt, hp.warn, warn_of_on (hp.lowAt.trans hlow) hp.warn,
    pg_of_low hp.pgInt, hea, hm, hp.fails, hp.cause⟩

theorem vinOv_holds (mv : Nat) (hmv : 19000 ≤ mv) (hpath : s.pwr.path = .closed) (hlow : s.pwr.lowAt = none)
    (halc : s.home.alc = []) (hfound : s.home.found = []) :
    ∃ t, exec (.vinOv mv) s = .next t ∧ t.pwr.ov = true ∧ t.pwr.path = .holdup ∧ t.pwr.why = 2 ∧ t.pwr.pgInt = false ∧
      t.pwr.warn = true ∧ t.pwr.cause = 4 ∧ t.pwr.fails = s.pwr.fails ∧ t.pwr.trips = s.pwr.trips ∧ t.mode = s.mode := by
  obtain ⟨v, hv⟩ : ∃ v, v = setPwr { s.pwr with vin := mv, ov := true, cause := 4, point := 0 } s := ⟨_, rfl⟩
  have hvp : v.pwr = { s.pwr with vin := mv, ov := true, cause := 4, point := 0 } := by rw [hv, setPwr_pwr]
  have hrun : vinOv mv s = openPath 2 v := by
    rw [hv]
    unfold vinOv
    rw [if_neg (show ¬ mv < vinOvMv from Nat.not_lt.mpr hmv), islandUp_of_on hlow]
    dsimp only [setVin, setPwr_pwr]
    rw [hpath]
    exact pathLost_of_closed 2 rfl
  have hp := openPath_pwr 2 v
  obtain ⟨hm, -⟩ := openPath_of_quiet (s := v) 2 (by rw [hv]; exact halc) (by rw [hv]; exact hfound)
  rw [hvp] at hp
  generalize openPath 2 v = u at *
  exact ⟨_, congrArg (done s) hrun, hp.ov, hp.path, hp.why, hp.pgInt, hp.warn, hp.cause, hp.fails, hp.trips,
    hm.trans (by rw [hv]; rfl)⟩

theorem mayStart_of_good (hm : s.mode = .off) (hpath : s.pwr.path = .opened) (hl : s.pwr.latched = false) (hov : s.pwr.ov = false)
    (hcold : s.rst.coldAt = none) (hvin : 4400 ≤ s.pwr.vin) : mayStart s = true := by
  simp [mayStart, hm, hpath, hl, hov, hcold, vinOnMv, hvin]

theorem startPath_begins (c : Nat) (s : State) : (startPath c s).mode = .precharge ∧ (startPath c s).pwr = { s.pwr with
    path := .precharge, pathFrom := s.tick, brk := 0, why := 0, reclose := false, pgInt := false, rails := 0
    warn := decide (s.pwr.vin < warnMv s) } := by
  unfold startPath
  dsimp only
  rw [setMode_mode, setMode_pwr, setRst_pwr, setPwr_pwr]
  exact ⟨rfl, rfl⟩

theorem vinOvClear_starts (mv : Nat) (hlo : 4400 ≤ mv) (hhi : mv ≤ 18000) (hm : s.mode = .off) (hpath : s.pwr.path = .opened)
    (hl : s.pwr.latched = false) (hov : s.pwr.ov = true) (hcold : s.rst.coldAt = none) :
    ∃ t, exec (.vinOvClear mv) s = .next t ∧ t.pwr.ov = false ∧ t.mode = .precharge ∧ t.pwr.path = .precharge ∧
      t.pwr.fails = s.pwr.fails := by
  obtain ⟨v, hv⟩ : ∃ v, v = setPwr { s.pwr with vin := mv, ov := false } s := ⟨_, rfl⟩
  have hvp : v.pwr = { s.pwr with vin := mv, ov := false } := by rw [hv, setPwr_pwr]
  have hmay : mayStart v = true := mayStart_of_good (by rw [hv]; exact hm) (by rw [hvp]; exact hpath) (by rw [hvp]; exact hl)
    (by rw [hvp]) (by rw [hv]; exact hcold) (by rw [hvp]; exact hlo)
  have hclear : vinOvClear mv s = if s.pwr.ov && mayStart v then startPath v.rst.cause v else v := by
    rw [hv]
    exact if_neg (show ¬ vinOvOffMv < mv from Nat.not_lt.mpr hhi)
  have hrun : vinOvClear mv s = startPath v.rst.cause v := hclear.trans (if_pos (by rw [hov, hmay]; rfl))
  obtain ⟨hmode, hp⟩ := startPath_begins v.rst.cause v
  rw [hvp] at hp
  generalize startPath v.rst.cause v = u at *
  refine ⟨_, congrArg (done s) hrun, ?_, hmode, ?_, ?_⟩
  all_goals rw [settled_pwr, hp]

/-- The power-down of a module whose path is open. -/
theorem powerDown_holdup (hpath : s.pwr.path = .holdup) : powerDown s =
    (coldReset 5 (setPwr { s.pwr with path := .opened } (s.say (.rails false railOrder.reverse)))).when (decide (s.pwr.why = 1))
      (backoffOrLatch s.pwr.pathFrom) := if_pos (.inl hpath)

theorem powerDown_done (hpath : s.pwr.path = .holdup) (hwhy : s.pwr.why ≠ 1) :
    ∃ t, exec .powerDown s = .next t ∧ t.mode = .off ∧ t.pwr.path = .opened ∧ t.rst.cause = 5 ∧ t.time = 0 ∧
      t.pins.pg = false ∧ t.pins.bypass = true ∧ t.pins.refclk = false ∧ t.pins.perst = List.range 128 ∧
      rd t .ftm F.FTM_STS_STATE = 0 ∧ t.core = Core.reset ∧ t.sched = [] ∧ t.wab.plr = s.wab.plr ∧
      t.pwr.trips = s.pwr.trips ∧ t.pwr.cause = s.pwr.cause ∧ t.flt.seqs = s.flt.seqs := by
  generalize hv : setPwr { s.pwr with path := .opened } (s.say (.rails false railOrder.reverse)) = v
  have hrun : powerDown s = coldReset 5 v := by
    rw [powerDown_holdup hpath, hv, decide_eq_false hwhy]
    rfl
  have hp := coldReset_pwr 5 v
  have hr := coldReset_rst 5 v
  have hm := coldReset_mode 5 v
  have htime := coldReset_time 5 v
  have hftm := coldReset_ftmState 5 v
  have hcore := coldReset_core 5 v
  have hsched := coldReset_sched 5 v
  have hplr := (coldReset_plr 5 v).trans (show v.wab.plr = s.wab.plr by rw [← hv]; rfl)
  have hseqs := (coldReset_seqs 5 v).trans (show v.flt.seqs = s.flt.seqs by rw [← hv]; rfl)
  rw [show v.pwr = { s.pwr with path := .opened } by rw [← hv]; rfl] at hp
  generalize coldReset 5 v = u at *
  refine ⟨_, congrArg (done s) hrun, hm, hp.path, ?_, htime, pg_of_low hp.pgInt, bypass_of_down (by rw [hm]; rfl), ?_, perst_of_off hm,
    hftm, hcore, hsched, hplr, hp.trips, hp.cause, hseqs⟩
  · rw [settled_rst, hr]
  · change (pinsOf u).refclk = false
    simp [pinsOf, hr, Rst.reset]

theorem powerDown_backoff (hpath : s.pwr.path = .holdup) (hwhy : s.pwr.why = 1) (hl : s.pwr.latched = false) :
    ∃ t, exec .powerDown s = .next t ∧ t.mode = .off ∧ t.pwr.path = .backoff ∧ t.pwr.pathFrom = s.pwr.pathFrom ∧
      t.pwr.fails = s.pwr.fails ∧ t.rst.cause = 5 := by
  generalize hv : setPwr { s.pwr with path := .opened } (s.say (.rails false railOrder.reverse)) = v
  have hrun : powerDown s = backoffOrLatch s.pwr.pathFrom (coldReset 5 v) := by
    rw [powerDown_holdup hpath, hv, decide_eq_true hwhy]
    rfl
  have hp := coldReset_pwr 5 v
  have hr := coldReset_rst 5 v
  have hm := coldReset_mode 5 v
  rw [show v.pwr = { s.pwr with path := .opened } by rw [← hv]; rfl] at hp
  generalize coldReset 5 v = u at *
  have hlu : u.pwr.latched = false := hp.latched.trans hl
  have hb : backoffOrLatch s.pwr.pathFrom u = setPwr { u.pwr with path := .backoff, pathFrom := s.pwr.pathFrom, rails := 0 } u := by
    unfold backoffOrLatch
    rw [hlu]
    rfl
  exact ⟨_, congrArg (done s) (hrun.trans hb), hm, rfl, rfl, hp.fails, congrArg Rst.cause hr⟩

theorem vinBelowVstby_off (mv : Nat) (hmv : mv < 3000) (hpath : s.pwr.path = .opened) :
    ∃ t, exec (.vinBelowVstby mv) s = .next t ∧ t.pwr.trips = 0 ∧ t.pwr.cause = 0 ∧ t.pwr.ov = false ∧ t.pins.ember = none ∧
      t.pins.warn = false ∧ t.i3c.addr = none ∧ t.pwr.latched = s.pwr.latched ∧
      t.pwr.lowAt = some (s.pwr.lowAt.getD s.tick) := by
  have hlost := pathLost_of_opened (s := setVin mv s) 0 hpath
  have hwarn : (if s.pwr.path = .holdup then s.pwr.warn else false) = false := if_neg (by rw [hpath]; decide)
  refine ⟨_, congrArg (done s) (if_neg (show ¬ vstby ≤ mv from Nat.not_le.mpr hmv)), ?_⟩
  rw [hlost]
  exact ⟨rfl, rfl, rfl, rfl, warn_of_off hwarn, rfl, rfl, rfl⟩

/-- The always-on island is back: of a module in OFF, power is applied anew. -/
def islandBack (s : State) : State := (setPwr { s.pwr with lowAt := none } s).when (s.mode == .off) (setRst { s.rst with cause := 0 })

theorem islandBack_pwr (s : State) : (islandBack s).pwr = { s.pwr with lowAt := none } :=
  when_keeps State.pwr (fun u => setRst_pwr u _) _ _

theorem islandBack_cause (s : State) : (islandBack s).rst.cause = if s.mode = .off then 0 else s.rst.cause := by
  unfold islandBack State.when
  split_ifs with h1 h2 h2
  · rfl
  · exact absurd (eq_of_beq h1) h2
  · exact absurd (beq_iff_eq.mpr h2) h1
  · rfl

theorem aboveVstby_run {mv : Nat} (hmv : 3000 ≤ mv) :
    (if mv < vstby then s else s |> islandUp |> setVin mv) = setVin mv (islandUp s) :=
  if_neg (show ¬ mv < vstby from Nat.not_lt.mpr hmv)

theorem islandUp_of_long {n : Nat} (hlow : s.pwr.lowAt = some n) (hclk : clockRuns s = true) (hlong : n + 1000000 ≤ s.tick) :
    islandUp s = setPwr { (islandBack s).pwr with latched := false, fails := 0 } (islandBack s) := by
  unfold islandUp
  rw [hlow, hclk]
  exact if_pos (show 10 * msTicks ≤ s.tick - n by unfold msTicks; omega)

theorem islandUp_of_short {n : Nat} (hlow : s.pwr.lowAt = some n) (hclk : clockRuns s = true) (hshort : s.tick < n + 1000000) :
    islandUp s = islandBack s := by
  unfold islandUp
  rw [hlow, hclk]
  exact if_neg (show ¬ 10 * msTicks ≤ s.tick - n by unfold msTicks; omega)

/-- Settles O49: each command by what it leaves of the power controller; the blocks' reset and the warning each by one lemma. -/
theorem inputFailure : Obligations.InputFailure := by
  unfold Obligations.InputFailure
  refine ⟨?_, ?_, ?_, ?_, ?_, ?_, ?_, ?_, ?_, ?_, ?_, ?_, ?_, ?_, ?_⟩
  · intro s mv hmv hlow hwarn hup halc hfound
    have hrun : pwrwarnAssert mv s = warned (setVin mv s) :=
      (if_neg (by simp [warnMv, hmv, hlow])).trans (warnOn_of_up (s := setVin mv s) hwarn hup halc hfound)
    exact ⟨_, congrArg (done s) hrun, rfl, warn_of_on hlow rfl, rfl, rd_warned_eaOff _, rd_warned_drain _, rfl, rfl⟩
  · intro s mv hmv hpath hwarn hheld
    have hrun : pwrwarnDeassert mv s = warnOff (setVin mv s) := if_neg (by simp [warnMv, hpath]; omega)
    obtain ⟨hp, hdrain, hrd, hm⟩ := warnOff_ends (s := setVin mv s) hheld hwarn
    generalize warnOff (setVin mv s) = u at *
    exact ⟨_, congrArg (done s) hrun, hp, warn_of_off (by rw [hp]), hdrain, hrd, hm⟩
  · intro s mv hmv hpath hlow halc hfound
    exact vinUv_holds mv hmv hpath hlow halc hfound
  · intro s mv hmv hpath
    have hrun : vinUv mv s = pathLost 0 (setVin mv s) := if_neg (Nat.not_le.mpr hmv)
    obtain ⟨hm, hp⟩ := pathLost_of_precharge (s := setVin mv s) 0 hpath
    generalize pathLost 0 (setVin mv s) = u at *
    exact ⟨_, congrArg (done s) hrun, hm, congrArg Pwr.path hp, (congrArg Pwr.fails hp :)⟩
  · intro s mv hmv hpath hlow halc hfound
    exact vinOv_holds mv hmv hpath hlow halc hfound
  · intro s mv hlo hhi hm hpath hl hov hcold
    exact vinOvClear_starts mv hlo hhi hm hpath hl hov hcold
  · intro s mv hmv hpath hwhy hin
    have hrun : reclosure mv s = setPwr { s.pwr with vin := mv, path := .ramp, reclose := true, brk := 0 } s :=
      if_neg (by simp [hpath, hwhy, warnMv, holdTicks, msTicks]; omega)
    exact ⟨_, congrArg (done s) hrun, rfl, rfl⟩
  · intro s hpath hre hheld
    have hrun : reclosureDone s = warnOff (setPwr { s.pwr with path := .closed, pathFrom := s.tick, reclose := false, brk := 1 } s) :=
      if_pos ⟨hpath, hre⟩
    cases hwarn : s.pwr.warn with
    | false =>
      exact ⟨_, congrArg (done s) (hrun.trans (warnOff_of_off hwarn)), rfl, rfl, hwarn, warn_of_off hwarn, rfl⟩
    | true =>
      obtain ⟨hp, -, -, hm⟩ :=
        warnOff_ends (s := setPwr { s.pwr with path := .closed, pathFrom := s.tick, reclose := false, brk := 1 } s) hheld hwarn
      generalize warnOff _ = u at *
      exact ⟨_, congrArg (done s) hrun, congrArg Pwr.path hp, congrArg Pwr.brk hp, congrArg Pwr.warn hp,
        warn_of_off (congrArg Pwr.warn hp), hm⟩
  · intro s hpath hwhy
    exact powerDown_done hpath hwhy
  · intro s hpath hwhy hl
    exact powerDown_backoff hpath hwhy hl
  · intro s mv hmv hpath
    exact vinBelowVstby_off mv hmv hpath
  · intro s mv n hmv hlow hclk hlong
    have hrun := (aboveVstby_run hmv).trans
      (congrArg (setVin mv) (islandUp_of_long hlow hclk hlong))
    refine ⟨_, congrArg (done s) hrun, ?_, ?_⟩
    · rw [settled_pwr, setVin, setPwr_pwr, setPwr_pwr, islandBack_pwr]
    · rw [settled_rst, setVin, setPwr_rst, setPwr_rst, islandBack_cause]
  · intro s mv n hmv hlow hclk hshort
    have hrun := (aboveVstby_run hmv).trans
      (congrArg (setVin mv) (islandUp_of_short hlow hclk hshort))
    refine ⟨_, congrArg (done s) hrun, ?_⟩
    rw [settled_pwr, setVin, setPwr_pwr, islandBack_pwr]
  · intro s mv hmv
    have hrun : (if mv < 35000 then s else setPwr { s.pwr with full := true, vstore := min mv 65535 } s) =
      setPwr { s.pwr with full := true, vstore := min mv 65535 } s := if_neg (Nat.not_lt.mpr hmv)
    exact ⟨_, congrArg (done s) hrun, rfl, rfl⟩
  · intro s mv hmv
    have hrun : (if 35000 ≤ mv then s else eaOff (setPwr { s.pwr with full := false, vstore := mv } s)) =
      eaOff (setPwr { s.pwr with full := false, vstore := mv } s) := if_neg (Nat.not_le.mpr hmv)
    exact ⟨_, congrArg (done s) hrun, rfl, rd_eaOff _⟩

end Sys2Proof.Machine
end

section
/-! SUPPORT. Trips of the breaker, its curve, self-test, measurement and rails (15 R287-R291, R297; 18 R352). -/
namespace Sys2Proof.Machine
variable {s t : State}

theorem srcMasked_beside {n : Nat} (h : Aside s t) (hn : n ∈ [7, 8, 9]) : srcMasked t n = srcMasked s n := by
  have hp : srcPage n = some (.pwr, n) := by
    simp only [List.mem_cons, List.not_mem_nil, or_false] at hn
    rcases hn with rfl | rfl | rfl <;> rfl
  unfold srcMasked
  rw [hp]
  dsimp only
  rw [h.rd _ _ (asidePage_of_base (by decide) (by decide)) (by decide)]

/-- A source of the power controller's page raised after a change of nothing that the collector sees. -/
theorem raise_srcs_of_same {n : Nat} (hn : n < 0x200) (hflt : t.flt = s.flt) (hmode : t.mode = s.mode) (htick : t.tick = s.tick)
    (hregs : t.regs = s.regs) : (raise n none none t).flt.srcs = (raise n none none s).flt.srcs := by
  have h : SeenAlike s t := ⟨by rw [hflt], by rw [hflt], hmode, htick⟩
  refine (h.raiseAs none 0 hn ?_).srcs
  unfold srcMasked rd
  rw [hregs]

/-! ### The first point that trips -/

theorem pointReach_none {fb : Bool} {i n t : Nat} {p : Bool × Nat × Nat} (h : p.1 = true → t < pointTime fb p ∧
    (p.2.1 * 25 < i → t + n < pointTime fb p)) : pointReach fb i n p t = none := by
  unfold pointReach
  cases hp : p.1 with
  | false => rfl
  | true =>
    obtain ⟨hlt, hrun⟩ := h hp
    by_cases hn : n = 0
    · simp [hn]
    · rw [if_neg (by simp [hn]), if_neg (by omega), if_neg]
      rintro ⟨hi, ht⟩
      have := hrun hi
      omega

theorem pointReach_some {i n t d m : Nat} (hn : 0 < n) (h : d ≤ t ∨ (i * 25 < m ∧ d ≤ t + n)) :
    ∃ j, pointReach false m n (true, i, d) t = some j := by
  have htime : pointTime false (true, i, d) = d := rfl
  unfold pointReach
  rw [htime, if_neg (by simp; omega)]
  by_cases ht : d ≤ t
  · exact ⟨1, if_pos ht⟩
  · rw [if_neg ht, if_pos (h.resolve_left ht)]
    exact ⟨_, rfl⟩

/-- The choice of `firstReach` as it passes a list of points. -/
def reachStep (b : Option (Nat × Nat)) (x : Option Nat × Nat) : Option (Nat × Nat) :=
  match x.1, b with
  | some j, some (j0, _) => if j < j0 then some (j, x.2) else b
  | some j, none => some (j, x.2)
  | none, _ => b

theorem firstReach_eq (l : List (Option Nat)) : firstReach l = l.zipIdx.foldl reachStep none := rfl

theorem foldl_reachStep_of_none (b : Option (Nat × Nat)) {l : List (Option Nat)} (h : ∀ x ∈ l, x = none) (m : Nat) :
    (l.zipIdx m).foldl reachStep b = b := by
  induction l generalizing m with
  | nil => rfl
  | cons x l ih =>
    have hx : x = none := h x List.mem_cons_self
    rw [List.zipIdx_cons, List.foldl_cons, hx]
    exact ih (fun y hy => h y (List.mem_cons_of_mem x hy)) (m + 1)

/-- The only point of a list that trips is the first. -/
theorem firstReach_of_only {l : List (Option Nat)} {k j : Nat} (hk : l[k]? = some (some j))
    (h : ∀ i ≠ k, ∀ x, l[i]? = some x → x = none) : firstReach l = some (j, k) := by
  have hlt : k < l.length := (List.getElem?_eq_some_iff.mp hk).1
  have hget : l[k] = some j := (List.getElem?_eq_some_iff.mp hk).2
  have hsplit : l = l.take k ++ some j :: l.drop (k + 1) := by rw [← hget, List.cons_getElem_drop_succ, List.take_append_drop]
  have hbefore : ∀ x ∈ l.take k, x = none := by
    intro x hx
    obtain ⟨i, hi, rfl⟩ := List.getElem_of_mem hx
    rw [List.length_take] at hi
    exact h i (by omega) _ (by rw [List.getElem_take]; exact List.getElem?_eq_getElem (by omega))
  have hafter : ∀ x ∈ l.drop (k + 1), x = none := by
    intro x hx
    obtain ⟨i, hi, rfl⟩ := List.getElem_of_mem hx
    rw [List.length_drop] at hi
    exact h (k + 1 + i) (by omega) _ (by rw [List.getElem_drop]; exact List.getElem?_eq_getElem (by omega))
  rw [firstReach_eq, hsplit, List.zipIdx_append, List.zipIdx_cons, List.foldl_append, List.foldl_cons,
    foldl_reachStep_of_none none hbefore, foldl_reachStep_of_none _ hafter, List.length_take, Nat.min_eq_left hlt.le]
  simp [reachStep]

/-- What a trip that does not latch counts. -/
theorem serviceTrip_trips {cause point : Nat} (hl : s.pwr.latched = false) (hf : s.pwr.fails < 3) :
    serviceTrip cause point s = openPath 1 (countFailure cause point s) := by
  have hnew : (countFailure cause point s).pwr.latched = false := by simp [countFailure, setPwr, hl]; omega
  have hkept : (openPath 1 (countFailure cause point s)).pwr.latched = false := (openPath_pwr 1 _).latched.trans hnew
  unfold serviceTrip
  dsimp only
  rw [hkept]
  rfl

/-- A trip in SERVICE of a module whose path was closed. -/
theorem serviceTrip_opens {cause point : Nat} (hl : s.pwr.latched = false) (hf : s.pwr.fails < 3) (halc : s.home.alc = [])
    (hfound : s.home.found = []) : (serviceTrip cause point s).mode = s.mode ∧
      Opened 1 s.tick (countFailure cause point s).pwr (serviceTrip cause point s).pwr := by
  rw [serviceTrip_trips hl hf]
  exact ⟨(openPath_of_quiet (s := countFailure cause point s) 1 halc hfound).1, openPath_pwr 1 (countFailure cause point s)⟩

theorem fastTrip_closed (hpath : s.pwr.path = .closed) : fastTrip s = serviceTrip 1 0 s := by
  unfold fastTrip
  rw [hpath]

theorem fastTrip_precharge (hpath : s.pwr.path = .precharge) : fastTrip s = startFail 1 (warnOn s) := by
  unfold fastTrip
  rw [hpath]

/-- A start fails for the first, second or third time in a row. -/
theorem startFail_backs_off (cause : Nat) (hl : s.pwr.latched = false) (hf : s.pwr.fails < 3) :
    (startFail cause s).mode = .off ∧ (startFail cause s).pwr.path = .backoff ∧ (startFail cause s).pwr.cause = cause ∧
      (startFail cause s).pwr.fails = s.pwr.fails + 1 := by
  have hnew : (countFailure cause 0 s).pwr.latched = false := by simp [countFailure, setPwr, hl]; omega
  have hback : (backoffOrLatch s.tick (countFailure cause 0 s)).pwr =
      { (countFailure cause 0 s).pwr with path := .backoff, pathFrom := s.tick, rails := 0 } := by
    unfold backoffOrLatch
    rw [hnew]
    rfl
  have hp := (setMode_pwr .off (backoffOrLatch s.tick (countFailure cause 0 s))).trans hback
  have hrun : startFail cause s = setMode .off (backoffOrLatch s.tick (countFailure cause 0 s)) := by
    have hno : (setMode .off (backoffOrLatch s.tick (countFailure cause 0 s))).pwr.latched = false := (congrArg Pwr.latched hp).trans hnew
    unfold startFail
    dsimp only
    rw [hno]
    rfl
  rw [hrun, hp]
  exact ⟨setMode_mode .., rfl, rfl, rfl⟩

/-! ### Evaluation periods -/

theorem periodRuns_one (r : CurRun) (hlow : s.pwr.lowAt = none) : periodRuns [r] s = periodRun r s := by
  unfold periodRuns
  rw [hlow]
  rfl

/-- What the periods of one run leave alone. -/
structure PeriodsKept (s t : State) : Prop where
  brk : t.pwr.brk = s.pwr.brk
  stTest : t.pwr.stTest = s.pwr.stTest
  path : t.pwr.path = s.pwr.path
  trips : t.pwr.trips = s.pwr.trips
  regs : t.regs = s.regs
  mode : t.mode = s.mode

theorem PeriodsKept.refl (s : State) : PeriodsKept s s := ⟨rfl, rfl, rfl, rfl, rfl, rfl⟩

theorem PeriodsKept.trans {u : State} (h : PeriodsKept s t) (g : PeriodsKept t u) : PeriodsKept s u :=
  ⟨g.brk.trans h.brk, g.stTest.trans h.stTest, g.path.trans h.path, g.trips.trans h.trips, g.regs.trans h.regs, g.mode.trans h.mode⟩

/-- No point trips outside SERVICE. -/
theorem periodRun_of_unarmed (r : CurRun) (h : s.pwr.brk ≠ 1 ∨ s.pwr.stTest = true) : periodRun r s =
    if r.n = 0 then s else countPeriods (if s.pwr.measFb then r.adc else r.main) r.n r s := by
  have hoff : (s.pwr.brk == 1 && !s.pwr.stTest && decide (s.pwr.path = .closed)) = false := by
    obtain h | h := h
    · simp [h]
    · simp [h]
  unfold periodRun
  dsimp only
  rw [hoff]
  rfl

theorem periodsKept_periodRun (r : CurRun) (h : s.pwr.brk ≠ 1 ∨ s.pwr.stTest = true) : PeriodsKept s (periodRun r s) := by
  rw [periodRun_of_unarmed r h]
  split
  · exact .refl s
  · exact ⟨rfl, rfl, rfl, rfl, rfl, rfl⟩

theorem periodsKept_each (l : List CurRun) (h : s.pwr.brk ≠ 1 ∨ s.pwr.stTest = true) : PeriodsKept s (s.each l periodRun) := by
  induction l generalizing s with
  | nil => exact .refl s
  | cons r l ih =>
    have hr := periodsKept_periodRun r h
    exact hr.trans (ih (by rwa [hr.brk, hr.stTest]))

theorem periodsKept_periodRuns (l : List CurRun) (h : s.pwr.brk ≠ 1 ∨ s.pwr.stTest = true) : PeriodsKept s (periodRuns l s) := by
  unfold periodRuns
  cases s.pwr.lowAt.isNone
  · exact .refl s
  · exact periodsKept_each l h

/-- The period, if any, in which each point of the curve trips during a run. -/
def reaches (s : State) (i n : Nat) : List (Option Nat) := (pointTimers s).map fun x => pointReach s.pwr.measFb i n x.1 x.2

theorem reaches_getElem? {i n k : Nat} {x : Option Nat} : (reaches s i n)[k]? = some x ↔
    ∃ p c, s.pwr.curve[k]? = some p ∧ s.pwr.timers[k]? = some c ∧ pointReach s.pwr.measFb i n p c = x := by
  unfold reaches pointTimers
  rw [List.getElem?_map, Option.map_eq_some_iff]
  constructor
  · rintro ⟨⟨p, c⟩, h, hx⟩
    obtain ⟨hp, hc⟩ := List.getElem?_zip_eq_some.mp h
    exact ⟨p, c, hp, hc, hx⟩
  · rintro ⟨p, c, hp, hc, hx⟩
    exact ⟨(p, c), List.getElem?_zip_eq_some.mpr ⟨hp, hc⟩, hx⟩

/-- A point that reaches its time trips in SERVICE when no other point reaches its own. -/
theorem periodRun_trips {k i d c n main adc : Nat} (hpath : s.pwr.path = .closed) (hbrk : s.pwr.brk = 1) (htest : s.pwr.stTest = false)
    (hfb : s.pwr.measFb = false) (hk : s.pwr.curve[k]? = some (true, i, d)) (hc : s.pwr.timers[k]? = some c) (hn : 0 < n)
    (hreach : d ≤ c ∨ (i * 25 < main ∧ d ≤ c + n))
    (hothers : ∀ j < s.pwr.curve.length, j ≠ k → (s.pwr.curve.getD j (false, 0, 0)).1 = true →
      s.pwr.timers.getD j 0 < (s.pwr.curve.getD j (false, 0, 0)).2.2 ∧
      ((s.pwr.curve.getD j (false, 0, 0)).2.1 * 25 < main → s.pwr.timers.getD j 0 + n < (s.pwr.curve.getD j (false, 0, 0)).2.2)) :
    ∃ j, periodRun ⟨n, main, adc⟩ s = serviceTrip 2 k (countPeriods main j ⟨n, main, adc⟩ s) := by
  obtain ⟨j, hj⟩ := pointReach_some (i := i) (n := n) (t := c) (d := d) (m := main) hn hreach
  have hon : (s.pwr.brk == 1 && !s.pwr.stTest && decide (s.pwr.path = .closed)) = true := by simp [hbrk, htest, hpath]
  have hfirst : firstReach (reaches s main n) = some (j, k) := by
    refine firstReach_of_only (reaches_getElem?.mpr ⟨_, c, hk, hc, by rw [hfb]; exact hj⟩) fun m hm x hx => ?_
    obtain ⟨p, e, hp, he, rfl⟩ := reaches_getElem?.mp hx
    have hlen : m < s.pwr.curve.length := (List.getElem?_eq_some_iff.mp hp).1
    have hother := hothers m hlen hm
    rw [List.getD_eq_getElem?_getD, List.getD_eq_getElem?_getD, hp, he] at hother
    rw [hfb]
    exact pointReach_none hother
  refine ⟨j, ?_⟩
  unfold periodRun
  dsimp only
  have hi : (if s.pwr.measFb = true then adc else main) = main := by simp [hfb]
  rw [hon, if_neg (by omega), if_pos rfl, hi, ← reaches, hfirst]

/-- What a point's trip leaves of the power controller. -/
theorem curvePoint_opens {k j main n adc : Nat} (hl : s.pwr.latched = false) (hf : s.pwr.fails < 3) (halc : s.home.alc = [])
    (hfound : s.home.found = []) : (serviceTrip 2 k (countPeriods main j ⟨n, main, adc⟩ s)).mode = s.mode ∧
      Opened 1 s.tick (countFailure 2 k (countPeriods main j ⟨n, main, adc⟩ s)).pwr
        (serviceTrip 2 k (countPeriods main j ⟨n, main, adc⟩ s)).pwr :=
  serviceTrip_opens (s := countPeriods main j ⟨n, main, adc⟩ s) hl hf halc hfound

/-! ### The curve (15 R290) -/

theorem curveRises_iff (l : List (Bool × Nat × Nat)) :
    curveRises l = true ↔ l.Pairwise fun a b => a.2.1 < b.2.1 ∧ b.2.2 < a.2.2 := by
  have htrans : ∀ a b c : Bool × Nat × Nat, (a.2.1 < b.2.1 ∧ b.2.2 < a.2.2) → (b.2.1 < c.2.1 ∧ c.2.2 < b.2.2) →
      a.2.1 < c.2.1 ∧ c.2.2 < a.2.2 := fun a b c hab hbc => ⟨hab.1.trans hbc.1, hbc.2.trans hab.2⟩
  induction l with
  | nil => simp [curveRises]
  | cons a l ih =>
    cases l with
    | nil => simp [curveRises]
    | cons b l =>
      rw [curveRises, List.pairwise_cons (a := a)]
      simp only [Bool.and_eq_true, decide_eq_true_eq, ih]
      constructor
      · rintro ⟨hab, hl⟩
        refine ⟨fun c hc => ?_, hl⟩
        obtain rfl | hc := List.mem_cons.mp hc
        · exact hab
        · exact htrans a b c hab (List.rel_of_pairwise_cons hl hc)
      · rintro ⟨ha, hl⟩
        exact ⟨ha b List.mem_cons_self, hl⟩

theorem curveOk_iff (c : List (Bool × Nat × Nat)) : curveOk c = true ↔
    (c.filter (·.1) ≠ [] ∧ (∀ p ∈ c, p.1 = true → 501 ≤ p.2.1 ∧ p.2.1 ≤ 999) ∧
      (c.filter (·.1)).Pairwise fun a b => a.2.1 < b.2.1 ∧ b.2.2 < a.2.2) := by
  unfold curveOk
  rw [Bool.and_eq_true, Bool.and_eq_true, curveRises_iff, List.all_eq_true, Bool.not_eq_true', List.isEmpty_eq_false_iff, and_assoc]
  simp only [List.mem_filter, Bool.and_eq_true, decide_eq_true_eq, and_imp]

/-- A commit's curve is staged for the next boundary; one that is due in this tick takes effect first. -/
theorem curveCommit_of_ok (h : curveOk (stagedCurve s) = true) : ∃ p, curveCommit s =
    setPwr { p with curveNew := some (s.time, stagedCurve s) } (setPwr p s) ∧ (s.pwr.curveNew = none → p = s.pwr) := by
  have hdue : ∃ p, (if slotDue s then curveBoundary s else s) = setPwr p s ∧ (s.pwr.curveNew = none → p = s.pwr) := by
    unfold curveBoundary
    split
    · split
      next x e =>
        split
        · exact ⟨s.pwr, rfl, fun _ => rfl⟩
        · exact ⟨_, rfl, fun h => by rw [e] at h; cases h⟩
      · exact ⟨s.pwr, rfl, fun _ => rfl⟩
    · exact ⟨s.pwr, rfl, fun _ => rfl⟩
  obtain ⟨p, hp, hsame⟩ := hdue
  refine ⟨p, ?_, hsame⟩
  unfold curveCommit
  dsimp only
  rw [if_pos h, hp]
  rfl

/-! ### Sources of one core clock -/

theorem raiseSame_one (a : Assertion) (s : State) : raiseSame [a] s = raiseAs a.force a.src a.part a.link 0 s := by
  unfold raiseSame
  dsimp only
  split
  next b hb =>
    split at hb
    · cases hb
    · obtain rfl : b = a := List.mem_singleton.mp (List.mem_of_find?_eq_some hb)
      rw [List.erase_cons_head]
      rfl
  · rfl

theorem raiseSame_pwr (l : List Assertion) (s : State) : (raiseSame l s).pwr = s.pwr := by
  have hall (l : List Assertion) (u : State) :
      (u.each l fun a => raiseAs a.force a.src a.part a.link 0).pwr = u.pwr := each_keeps State.pwr (fun a _ v => raiseAs_pwr ..) u
  unfold raiseSame
  dsimp only
  split
  · rw [hall, raiseAs_pwr]
  · exact hall l s

/-- An assertion of a source of the power controller's page, against no partition and no link. -/
def Assertion.ofPower (a : Assertion) : Prop := a.src ∈ [7, 8, 9] ∧ a.part = none ∧ a.link = none

/-- Two states in which the power controller's sources are seen and masked alike. -/
def PowerSeenAlike (s t : State) : Prop := SeenAlike s t ∧ ∀ n ∈ [7, 8, 9], srcMasked t n = srcMasked s n

theorem PowerSeenAlike.raiseAs {a : Assertion} (h : PowerSeenAlike s t) (ha : a.ofPower) :
    PowerSeenAlike (raiseAs a.force a.src a.part a.link 0 s) (raiseAs a.force a.src a.part a.link 0 t) := by
  obtain ⟨hsrc, hpart, hlink⟩ := ha
  have hn : a.src < 0x200 := by
    simp only [List.mem_cons, List.not_mem_nil, or_false] at hsrc
    omega
  rw [hpart, hlink]
  refine ⟨h.1.raiseAs a.force 0 hn (h.2 _ hsrc), fun n hm => ?_⟩
  rw [srcMasked_beside (Aside.raiseAs a.force 0 t hn) hm, srcMasked_beside (Aside.raiseAs a.force 0 s hn) hm, h.2 n hm]

theorem PowerSeenAlike.each {l : List Assertion} (h : PowerSeenAlike s t) (hl : ∀ a ∈ l, a.ofPower) :
    PowerSeenAlike (s.each l fun a => Machine.raiseAs a.force a.src a.part a.link 0)
      (t.each l fun a => Machine.raiseAs a.force a.src a.part a.link 0) := by
  induction l generalizing s t with
  | nil => exact h
  | cons a l ih => exact ih (h.raiseAs (hl a List.mem_cons_self)) fun b hb => hl b (List.mem_cons_of_mem a hb)

theorem PowerSeenAlike.heard {n : Nat} (h : PowerSeenAlike s t) (hn : n ∈ [7, 8, 9]) : heard t n = heard s n := by
  have hlow : decide (0x200 ≤ n) = false := by
    simp only [List.mem_cons, List.not_mem_nil, or_false] at hn
    exact decide_eq_false (by omega)
  unfold Machine.heard
  rw [hlow, h.2 n hn, h.1.srcOf, h.1.mode]
  rfl

theorem PowerSeenAlike.raiseSame {l : List Assertion} (h : PowerSeenAlike s t) (hl : ∀ a ∈ l, a.ofPower) :
    PowerSeenAlike (raiseSame l s) (raiseSame l t) := by
  have hfind : (l.find? fun a => a.force.getD (reactOf t a.src) == React.fatal && Machine.heard t a.src) =
      l.find? fun a => a.force.getD (reactOf s a.src) == React.fatal && Machine.heard s a.src :=
    List.find?_congr fun a ha => by rw [h.1.reactOf, h.heard (hl a ha).1]
  unfold Machine.raiseSame
  dsimp only
  rw [hfind, h.1.fatal]
  split
  next a ha =>
    split at ha
    · cases ha
    · have hmem := List.mem_of_find?_eq_some ha
      exact (h.raiseAs (hl a hmem)).each fun b hb => hl b (List.mem_of_mem_erase hb)
  · exact h.each hl

theorem PowerSeenAlike.of_same (hflt : t.flt = s.flt) (hmode : t.mode = s.mode) (htick : t.tick = s.tick) (hregs : t.regs = s.regs) :
    PowerSeenAlike s t := by
  refine ⟨⟨by rw [hflt], by rw [hflt], hmode, htick⟩, fun n _ => ?_⟩
  unfold srcMasked rd
  rw [hregs]

/-! ### The clauses -/

/-- A rail's phase drops; `few`: fewer phases remain than the rail needs. -/
def phaseDropped (rail phase : Nat) (few : Bool) (s : State) : State :=
  setPwr { s.pwr with drops := s.pwr.drops ++ [(rail, phase)] } s |> State.when few (fun s => setPwr { s.pwr with pgInt := false } s)
    |> raiseSame (([0x07] ++ if few then [0x08] else []).map fun k => ⟨k, none, none, none⟩)

theorem phaseLost_drops {rail phase : Nat} (hr : rail < 12) (hp : phase < railNeeds rail + 2) (hd : (rail, phase) ∉ s.pwr.drops) :
    phaseLost rail phase s =
      phaseDropped rail phase (decide (2 < ((s.pwr.drops ++ [(rail, phase)]).filter fun d => d.1 == rail).length)) s :=
  if_neg (by simp [hd]; omega)

theorem phaseLost_keeps {rail phase : Nat} (hr : rail < 12) (hp : phase < railNeeds rail + 2) (hd : (rail, phase) ∉ s.pwr.drops)
    (hfew : (s.pwr.drops.filter fun d => d.1 == rail).length < 2) : phaseLost rail phase s =
    raise 0x07 none none (setPwr { s.pwr with drops := s.pwr.drops ++ [(rail, phase)] } s) := by
  have hcount : decide (2 < ((s.pwr.drops ++ [(rail, phase)]).filter fun d => d.1 == rail).length) = false := by
    simp [List.filter_append]
    omega
  rw [phaseLost_drops hr hp hd, hcount]
  exact raiseSame_one ⟨7, none, none, none⟩ _

theorem phaseLost_fails {rail phase : Nat} (hr : rail < 12) (hp : phase < railNeeds rail + 2) (hd : (rail, phase) ∉ s.pwr.drops)
    (hfew : 2 ≤ (s.pwr.drops.filter fun d => d.1 == rail).length) : phaseLost rail phase s =
    raiseSame [⟨0x07, none, none, none⟩, ⟨0x08, none, none, none⟩]
      (setPwr { s.pwr with drops := s.pwr.drops ++ [(rail, phase)], pgInt := false } s) := by
  have hcount : decide (2 < ((s.pwr.drops ++ [(rail, phase)]).filter fun d => d.1 == rail).length) = true := by
    simp [List.filter_append]
    omega
  rw [phaseLost_drops hr hp hd, hcount]
  rfl

theorem regulationFault_raises {rail : Nat} (hr : rail < 12) (hd : rail ∉ s.pwr.unreg) : regulationFault rail s =
    raise 0x08 none none (setPwr { s.pwr with unreg := s.pwr.unreg ++ [rail], pgInt := false } s) := by
  have hnew : (if s.pwr.unreg.contains rail then s.pwr.unreg else s.pwr.unreg ++ [rail]) = s.pwr.unreg ++ [rail] :=
    if_neg (by simp [hd])
  unfold regulationFault
  rw [if_neg (by omega), hnew]
  rfl

/-- A die's reading is noted. -/
def noteTemp (die temp : Nat) (warn : List Nat) (s : State) : State :=
  { s with i3c := { s.i3c with tj := tput none s.i3c.tj die (some temp), tjWarn := warn } }

theorem temperatureRead_cool {die temp : Nat} (h : temp < 105) :
    temperatureRead die temp s = noteTemp die temp (s.i3c.tjWarn.filter (· != die)) s := by
  have hmod : temp % 256 = temp := Nat.mod_eq_of_lt (by omega)
  have hquiet : (s.i3c.tjWarn.isEmpty && !(s.i3c.tjWarn.filter (· != die)).isEmpty) = false := by
    cases s.i3c.tjWarn <;> simp
  have hhot : (decide (105 ≤ temp) && decide (temp < 128)) = false := by simp; omega
  unfold temperatureRead
  dsimp only
  rw [hmod, hhot]
  simp only [Bool.false_eq_true, if_false, hquiet]
  rfl

theorem temperatureRead_warm {die temp : Nat} (hlo : 105 ≤ temp) (hhi : temp < 115) (hw : s.i3c.tjWarn = []) (hibi : s.i3c.ibi = true)
    (haddr : s.i3c.addr ≠ none) :
    temperatureRead die temp s = (noteTemp die temp [die] s).say (.ibi (sbSts (noteTemp die temp [die] s))) := by
  have hmod : temp % 256 = temp := Nat.mod_eq_of_lt (by omega)
  have hhot : (decide (105 ≤ temp) && decide (temp < 128)) = true := by simp; omega
  have htrip : decide (115 ≤ temp) = false := decide_eq_false (by omega)
  have hon : ((noteTemp die temp [die] s).i3c.ibi && (noteTemp die temp [die] s).i3c.addr.isSome) = true := by
    simp [noteTemp, hibi, Option.isSome_iff_ne_none, haddr]
  have hraise : raiseIbi (noteTemp die temp [die] s) = (noteTemp die temp [die] s).say (.ibi (sbSts (noteTemp die temp [die] s))) := by
    unfold raiseIbi
    rw [hon]
    rfl
  unfold temperatureRead
  dsimp only
  rw [hmod, hhot, htrip, hw]
  exact hraise

theorem tget_noteTemp (die temp : Nat) (w : List Nat) (s : State) : tget none (noteTemp die temp w s).i3c.tj die = some temp :=
  tget_tput_same none (some temp) s.i3c.tj die

/-- A die that reaches 115 °C raises the regulation source and keeps the trip. -/
theorem tjTrip_raises (hflt : t.flt = s.flt) (hmode : t.mode = s.mode) (htick : t.tick = s.tick) (hregs : t.regs = s.regs) :
    (tjTrip t).i3c = { t.i3c with tjTrip := true } ∧ (tjTrip t).pwr = t.pwr ∧
      (tjTrip t).flt.srcs = (raise 0x08 none none s).flt.srcs := by
  have ha := Aside.raise (n := 0x08) { t with i3c := { t.i3c with tjTrip := true } } (by decide)
  exact ⟨ha.i3c, ha.pwr, raise_srcs_of_same (by decide) hflt hmode htick hregs⟩

/-- The dies that warn, with one more. -/
def warnAlso (w : List Nat) (die : Nat) : List Nat := if w.contains die then w else w ++ [die]

theorem mem_warnAlso (w : List Nat) (die : Nat) : die ∈ warnAlso w die := by
  unfold warnAlso
  split
  next h => exact List.contains_iff_mem.mp h
  · simp

theorem temperatureRead_hot {die temp : Nat} (hlo : 115 ≤ temp) (hhi : temp < 128) : ∃ o, temperatureRead die temp s =
    tjTrip { noteTemp die temp (warnAlso s.i3c.tjWarn die) s with out := o } := by
  have hmod : temp % 256 = temp := Nat.mod_eq_of_lt (by omega)
  have hhot : (decide (105 ≤ temp) && decide (temp < 128)) = true := by simp; omega
  have htrip : decide (115 ≤ temp) = true := decide_eq_true hlo
  have hibi (b : Bool) (u : State) : ∃ o, u.when b raiseIbi = { u with out := o } := by
    cases b
    · exact ⟨u.out, rfl⟩
    · change ∃ o, raiseIbi u = _
      unfold raiseIbi
      cases u.i3c.ibi && u.i3c.addr.isSome
      · exact ⟨u.out, rfl⟩
      · exact ⟨_, rfl⟩
  unfold temperatureRead
  dsimp only
  rw [hmod, hhot, htrip, if_pos rfl]
  obtain ⟨o, ho⟩ := hibi (s.i3c.tjWarn.isEmpty && !(warnAlso s.i3c.tjWarn die).isEmpty)
    (noteTemp die temp (warnAlso s.i3c.tjWarn die) s)
  exact ⟨o, congrArg tjTrip ho⟩

/-- Settles O50: trips through what the opening of the path leaves, the curve through its sorted points, and the sources through what
the collector sees. -/
theorem breakerAndRails : Obligations.BreakerAndRails := by
  unfold Obligations.BreakerAndRails
  refine ⟨?_, ?_, ?_, ?_, ?_, ?_, ?_, ?_, ?_, ?_, ?_, ?_, ?_, ?_, ?_, ?_, ?_, ?_, ?_, ?_, ?_⟩
  · intro s hpath hl hf hlow halc hfound
    obtain ⟨hm, hp⟩ := serviceTrip_opens (cause := 1) (point := 0) hl hf halc hfound
    have hrun := fastTrip_closed hpath
    generalize serviceTrip 1 0 s = u at *
    exact ⟨_, congrArg (done s) hrun, hp.path, hp.why, hp.cause, hp.fails, hp.trips, hp.latched.trans (by simp [countFailure, setPwr, hl]; omega), hp.pgInt,
      warn_of_on (hp.lowAt.trans hlow) hp.warn, pg_of_low hp.pgInt, hm⟩
  · intro s hpath hl hf
    have hw := warnOn_pwr s
    obtain ⟨hm, hp, hc, hfails⟩ := startFail_backs_off (s := warnOn s) 1 (by rw [hw]; exact hl) (by rw [hw]; exact hf)
    rw [hw] at hfails
    have hrun := fastTrip_precharge hpath
    generalize startFail 1 (warnOn s) = u at *
    exact ⟨_, congrArg (done s) hrun, hm, hp, hc, hfails⟩
  · intro s x k i d c n main adc hpath hbrk htest hfb hk hc hn hreach hothers hl hf hlow halc hfound
    obtain ⟨j, hj⟩ := periodRun_trips (adc := adc) hpath hbrk htest hfb hk hc hn hreach hothers
    obtain ⟨hm, hp⟩ := curvePoint_opens (k := k) (j := j) (main := main) (n := n) (adc := adc) hl hf halc hfound
    have hrun := (periodRuns_one ⟨n, main, adc⟩ hlow).trans hj
    generalize serviceTrip 2 k _ = u at *
    exact ⟨_, congrArg (done s) hrun, hp.path, hp.why, hp.cause, hp.point, hp.fails, hp.pgInt,
      warn_of_on (hp.lowAt.trans hlow) hp.warn, hm⟩
  · intro s x hoff
    have h := periodsKept_periodRuns x.runs hoff
    exact ⟨_, rfl, h.path, h.trips, h.regs, h.mode⟩
  · intro s k n main adc hoff hlow hn
    have hrun := (periodRuns_one ⟨n, main, adc⟩ hlow).trans ((periodRun_of_unarmed ⟨n, main, adc⟩ hoff).trans (if_neg hn.ne'))
    exact ⟨_, congrArg (done s) hrun, rfl⟩
  · intro s hok
    obtain ⟨p, hrun, hsame⟩ := curveCommit_of_ok hok
    exact ⟨_, congrArg (done s) hrun, rfl, rfl, fun h => by rw [hsame h]; rfl⟩
  · intro s hbad
    have hrun : curveCommit s = wr .pwr F.PWR_CURVE_CTL_CURVE_ERR 1 (reject .pwr s) := if_neg (by simp [hbad])
    refine ⟨_, congrArg (done s) hrun, rfl, ?_, ?_⟩
    · rw [rd_settled]
      exact rd_wr_of_lt _ (by decide)
    · rw [rd_settled, rd_wr_place _ _ (by decide), rd_reject]
  · exact curveOk_iff
  · intro s hm
    cases ht : s.pwr.stTest with
    | true =>
      have hrun : selftest s = noteAgain .pwr F.PWR_BRK_CTL_SELFTEST s := by
        unfold selftest
        rw [if_neg (by simp [hm]), if_pos ht]
      exact ⟨_, congrArg (done s) hrun, ht, rfl, nofun, fun _ => rfl⟩
    | false =>
      have hrun : selftest s = setPwr { s.pwr with stTest := true, stFrom := s.tick } s := by
        unfold selftest
        rw [if_neg (by simp [hm]), if_neg (by simp [ht])]
      exact ⟨_, congrArg (done s) hrun, rfl, rfl, fun _ => rfl, nofun⟩
  · intro s hm
    refine ⟨_, congrArg (done s) (if_pos hm), rfl, ?_⟩
    rw [rd_settled, rd_reject]
  · intro s hfb hdiff
    have hrun : measPathFault s = measFault s := if_neg (by simp [hfb]; omega)
    refine ⟨_, congrArg (done s) (hrun.trans rfl), ?_, ?_⟩
    · exact raise_pwr ..
    · exact raise_srcs_of_same (by decide) rfl rfl rfl rfl
  · intro s hdiff
    exact ⟨_, congrArg (done s) (if_pos (.inr hdiff)), rfl, rfl⟩
  · intro s hsame
    exact ⟨_, congrArg (done s) (if_neg (Nat.not_lt.mpr hsame)), rfl, rfl, rfl⟩
  · intro s hsame
    exact ⟨_, congrArg (done s) (if_pos hsame), rfl, rfl⟩
  · intro s rail phase hr hp hd hfew
    exact ⟨_, congrArg (done s) (phaseLost_keeps hr hp hd hfew), raise_pwr .., raise_srcs_of_same (by decide) rfl rfl rfl rfl⟩
  · intro s rail phase hr hp hd hfew
    have hpwr := raiseSame_pwr [⟨0x07, none, none, none⟩, ⟨0x08, none, none, none⟩]
      (setPwr { s.pwr with drops := s.pwr.drops ++ [(rail, phase)], pgInt := false } s)
    have hseen : PowerSeenAlike s (setPwr { s.pwr with drops := s.pwr.drops ++ [(rail, phase)], pgInt := false } s) :=
      .of_same rfl rfl rfl rfl
    have hsrcs := (hseen.raiseSame (l := [⟨0x07, none, none, none⟩, ⟨0x08, none, none, none⟩])
      (by simp [Assertion.ofPower])).1.srcs
    exact ⟨_, congrArg (done s) (phaseLost_fails hr hp hd hfew), congrArg Pwr.drops hpwr, congrArg Pwr.pgInt hpwr, hsrcs⟩
  · intro s rail hr hd
    have hpwr := raise_pwr 0x08 none none (setPwr { s.pwr with unreg := s.pwr.unreg ++ [rail], pgInt := false } s)
    exact ⟨_, congrArg (done s) (regulationFault_raises hr hd), hpwr, pg_of_low (congrArg Pwr.pgInt hpwr),
      raise_srcs_of_same (by decide) rfl rfl rfl rfl⟩
  · intro s die
    obtain ⟨hi, hp, hsrcs⟩ := tjTrip_raises (s := s)
      (t := noteTemp die (tripReading (tget none s.i3c.tj die)) (warnAlso s.i3c.tjWarn die) s) rfl rfl rfl rfl
    have hrun : exec (.tjTrip die) s =
        done s (tjTrip (noteTemp die (tripReading (tget none s.i3c.tj die)) (warnAlso s.i3c.tjWarn die) s)) := rfl
    generalize tjTrip _ = u at *
    exact ⟨_, hrun, congrArg I3c.tjTrip hi, by rw [settled_i3c, hi]; exact mem_warnAlso .., hp, hsrcs⟩
  · intro s die temp h
    exact ⟨_, congrArg (done s) (temperatureRead_cool h), tget_noteTemp .., by simp [noteTemp], by simp +contextual [noteTemp], rfl, rfl, rfl⟩
  · intro s die temp hlo hhi hw hibi haddr
    exact ⟨_, congrArg (done s) (temperatureRead_warm hlo hhi hw hibi haddr), tget_noteTemp .., rfl, rfl, rfl, _, rfl⟩
  · intro s die temp hlo hhi
    obtain ⟨o, ho⟩ := temperatureRead_hot (s := s) (die := die) hlo hhi
    obtain ⟨hi, hp, hsrcs⟩ := tjTrip_raises (s := s)
      (t := { noteTemp die temp (warnAlso s.i3c.tjWarn die) s with out := o }) rfl rfl rfl rfl
    generalize tjTrip _ = u at *
    refine ⟨_, congrArg (done s) ho, ?_, ?_, congrArg I3c.tjTrip hi, hsrcs⟩
    · rw [settled_i3c, hi]
      exact tget_noteTemp die temp (warnAlso s.i3c.tjWarn die) s
    · rw [settled_i3c, hi]
      exact mem_warnAlso ..

end Sys2Proof.Machine
end

section
/-! SUPPORT. What a completion and an event leave of the management queues' state (11 R209-R213, R223-R225). -/
namespace Sys2Proof.Machine
variable {s t : State}

/-- The queues' state but for rings, held completions, events, their timers and pending vectors. -/
structure MqStill (s t : State) : Prop where
  flying : t.mq.flying = s.mq.flying
  rr : t.mq.rr = s.mq.rr
  lost : t.mq.lost = s.mq.lost
  mgmtUp : t.mq.mgmtUp = s.mq.mgmtUp
  dumpBuf : t.mq.dumpBuf = s.mq.dumpBuf
  due : t.mq.due = s.mq.due
  ordWait : t.mq.ordWait = s.mq.ordWait
  parked : t.mq.parked = s.mq.parked
  cache : t.mq.cache = s.mq.cache
  gens : t.mq.gens = s.mq.gens
  msixTab : t.mq.msixTab = s.mq.msixTab

namespace MqStill

theorem of_mq (h : t.mq = s.mq) : MqStill s t := by
  constructor <;> rw [h]

theorem refl (s : State) : MqStill s s := of_mq rfl

theorem trans {u : State} (h : MqStill s t) (g : MqStill t u) : MqStill s u :=
  ⟨g.flying.trans h.flying, g.rr.trans h.rr, g.lost.trans h.lost, g.mgmtUp.trans h.mgmtUp, g.dumpBuf.trans h.dumpBuf,
    g.due.trans h.due, g.ordWait.trans h.ordWait, g.parked.trans h.parked, g.cache.trans h.cache, g.gens.trans h.gens,
    g.msixTab.trans h.msixTab⟩

/-- The parts of the queues' state that completions and events write. -/
theorem of_rings (s : State) (o : Tbl (Option EvOver)) (h : Tbl (List Cpl)) (e : Tbl (List Event)) (x : Tbl (Option Nat))
    (c : Tbl (Option Nat)) (p : List Nat) :
    MqStill s { s with mq := { s.mq with ovw := o, heldCpl := h, evqs := e, timers := x, cplErr := c, pba := p } } :=
  ⟨rfl, rfl, rfl, rfl, rfl, rfl, rfl, rfl, rfl, rfl, rfl⟩

theorem when {f : State → State} (b : Bool) (s : State) (h : MqStill s (f s)) : MqStill s (s.when b f) := by
  cases b
  · exact refl s
  · exact h

theorem wr (pg : Page) (f : Fld) (v : Nat) (s : State) : MqStill s (wr pg f v s) := of_mq rfl

theorem raiseVec (ep v : Nat) (s : State) : MqStill s (raiseVec ep v s) := by
  unfold Machine.raiseVec
  split_ifs
  · exact of_mq rfl
  · exact refl s
  · exact of_rings s s.mq.ovw s.mq.heldCpl s.mq.evqs s.mq.timers s.mq.cplErr _

theorem setEv (q : Nat) (l : List Event) (s : State) : MqStill s (setEv q l s) :=
  of_rings s s.mq.ovw s.mq.heldCpl _ s.mq.timers s.mq.cplErr s.mq.pba

theorem setEvTimer (q : Nat) (x : Option Nat) (s : State) : MqStill s (setEvTimer q x s) :=
  of_rings s s.mq.ovw s.mq.heldCpl s.mq.evqs _ s.mq.cplErr s.mq.pba

theorem evOverwrite (q cap : Nat) (s : State) : MqStill s (evOverwrite q cap s) := by
  have htrim (u : State) : MqStill u (evTrim q cap u) := by
    unfold evTrim
    dsimp only
    split
    · exact refl u
    · exact (setEv ..).trans (wr ..)
  unfold Machine.evOverwrite
  dsimp only
  split
  · exact refl s
  · exact (of_rings s _ s.mq.heldCpl s.mq.evqs s.mq.timers s.mq.cplErr s.mq.pba).trans (htrim _)

theorem post (q typ : Nat) (l : List (Nat × Nat)) (s : State) : MqStill s (post q typ l s) := by
  unfold Machine.post postC
  dsimp only
  split
  · exact (evOverwrite ..).trans ((setEv ..).trans ((wr ..).trans ((setEvTimer ..).trans (when _ _ (when _ _ (raiseVec ..))))))
  · exact (evOverwrite ..).trans ((setEv ..).trans (wr ..))

theorem setHeld (ep q : Nat) (l : List Cpl) (s : State) : MqStill s (setHeld ep q l s) :=
  of_rings s s.mq.ovw _ s.mq.evqs s.mq.timers s.mq.cplErr s.mq.pba

theorem cqPut (c : Cpl) (s : State) : MqStill s (cqPut c s) :=
  (of_mq rfl : MqStill s (s.say _)).trans ((wr ..).trans ((wr ..).trans (when _ _ (raiseVec ..))))

theorem cqWrite (c : Cpl) (l : List Cpl) (s : State) : MqStill s (cqWrite c l s) := by
  unfold Machine.cqWrite qHalt
  dsimp only
  split
  · exact (of_rings s s.mq.ovw s.mq.heldCpl s.mq.evqs s.mq.timers _ s.mq.pba).trans ((setHeld ..).trans ((wr ..).trans (post ..)))
  · exact (of_rings s s.mq.ovw s.mq.heldCpl s.mq.evqs s.mq.timers _ s.mq.pba).trans ((setHeld ..).trans (cqPut ..))

/-- A completion that goes out or is held leaves the rest of the queues' state. -/
theorem cplOut (c : Cpl) (s : State) : MqStill s (cplOut c s) := by
  unfold Machine.cplOut
  dsimp only
  split_ifs
  · exact setHeld ..
  · exact setHeld ..
  · exact (setHeld ..).trans ((wr ..).trans (post ..))
  · exact cqWrite ..

end MqStill

/-! ### Commands that name an instant (11 R214) -/

/-- The armed entry of an accepted action. -/
def armed (i inst : Nat) (act : SchedAct) (owner : SchedOwner) (s : State) : State :=
  { s with
    sched := s.sched ++ [⟨i, inst, s.ftm.order, act, owner⟩], free := s.free + 1
    ftm := { s.ftm with order := s.ftm.order + 1 }
    out := s.out ++ [.armed i inst (actNis s act)] }

/-- A command that names an acceptable instant is armed, and its interim completion goes out. -/
theorem schedCmd_of_good (c : Ctx) (op : Nat) {inst : Nat} (act : SchedAct) (hset : rd s .ftm F.FTM_STS_STATE ≠ 0)
    (hlate : s.time + 512 ≤ inst) (hfar : inst ≤ s.time + 2 ^ 32) (hroom : s.sched.length < 256) :
    ∃ i, schedCmd c op inst act s = completeInterim c op i (armed i inst act (.cmd c op) s) := by
  obtain ⟨i, hi, -⟩ := schedFree_of_room hroom
  refine ⟨i, ?_⟩
  unfold schedCmd schedAdd
  rw [schedJudge_of_good hset hlate hfar hroom, hi]
  rfl

/-- What an interim completion leaves alone. -/
structure InterimKept (s t : State) : Prop where
  sched : t.sched = s.sched
  ports : t.ports = s.ports
  egr : t.egr = s.egr
  maps : t.maps = s.maps
  flt : t.flt = s.flt
  parked : t.mq.parked = s.mq.parked

theorem interimKept (c : Ctx) (op i : Nat) (s : State) : InterimKept s (completeInterim c op i s) := by
  unfold completeInterim
  dsimp only
  split
  · exact ⟨rfl, rfl, rfl, rfl, rfl, rfl⟩
  · exact ⟨cplOut_sched .., cplOut_ports .., cplOut_egr .., cplOut_maps .., cplOut_flt .., (MqStill.cplOut ..).parked⟩

/-- What is asked of a state and an instant for a command that names the instant to be armed. -/
structure Armable (s : State) (inst : Nat) : Prop where
  none : NoneDue s
  core : CoreActs s
  set : rd s .ftm F.FTM_STS_STATE ≠ 0
  late : s.time + 512 ≤ inst
  far : inst ≤ s.time + 2 ^ 32
  room : s.sched.length < 256

/-- A command that arms its action, as the active core executes it. -/
theorem armed_of_armable {c : Ctx} {op inst : Nat} {act : SchedAct} (h : Armable s inst) (g : State → State)
    (hg : g s = schedCmd c op inst act s) : ∃ t i, done s (dueThen (byCore g) s) = .next (settled s.pending t) ∧
      t.sched = s.sched ++ [⟨i, inst, s.ftm.order, act, .cmd c op⟩] ∧ t.ports = s.ports ∧ t.egr = s.egr ∧ t.maps = s.maps := by
  obtain ⟨i, hi⟩ := schedCmd_of_good c op act h.set h.late h.far h.room
  have hk := interimKept c op i (armed i inst act (.cmd c op) s)
  have hrun : dueThen (byCore g) s = completeInterim c op i (armed i inst act (.cmd c op) s) := by
    rw [dueThen_of_noneDue _ h.none, byCore_of_coreActs _ h.core, hg, hi]
  generalize completeInterim c op i _ = u at *
  exact ⟨u, i, congrArg (done s) hrun, hk.sched, hk.ports, hk.egr, hk.maps⟩

/-- REG_WRITE with an instant leaves nothing for the waiting commands, of which there are none. -/
theorem unpark_of_none (h : s.mq.parked = []) : unpark s = s := by
  unfold unpark
  rw [h]
  simp

/-- Settles O35: every command that names an acceptable instant comes to the same arming of its action. -/
theorem scheduledForms : Obligations.ScheduledForms := by
  unfold Obligations.ScheduledForms
  intro s c inst hnone hcore hfrozen hset hlate hfar hroom
  have h : Armable s inst := ⟨hnone, hcore, hset, hlate, hfar, hroom⟩
  refine ⟨?_, ?_, ?_, ?_, ?_, ?_, ?_⟩
  · intro lead run hlead hrun hmem
    have hg : portStateCmd c (some inst) lead run s = schedCmd c 0x41 inst (.portState lead run) s :=
      (mirrorGate_of_not_frozen _ hfrozen).trans (if_neg (by simp [hmem]; omega))
    obtain ⟨t, i, hx, hsched, hports, -, -⟩ := armed_of_armable h _ hg
    exact ⟨_, i, hx, hports, hsched⟩
  · intro lead v hlead hmem
    have hg : portPmCmd c (some inst) lead v s = schedCmd c 0x43 inst (.portPm lead v.toNat) s :=
      (mirrorGate_of_not_frozen _ hfrozen).trans (if_neg (by simp [hmem]; omega))
    obtain ⟨t, i, hx, hsched, -⟩ := armed_of_armable h _ hg
    exact ⟨_, i, hx, hsched⟩
  · intro lead part rate burst en hlead hpart hrate
    have hg : shaperSetCmd c (some inst) lead part rate burst en s = schedCmd c 0x45 inst (.shaper lead part rate burst en) s :=
      (mirrorGate_of_not_frozen _ hfrozen).trans (if_neg (by omega))
    obtain ⟨t, i, hx, hsched, -, hegr, -⟩ := armed_of_armable h _ hg
    exact ⟨_, i, hx, hegr, hsched⟩
  · intro lead part tc q hlead hpart htc hq
    have hg : quantumSetCmd c (some inst) lead part tc q s = schedCmd c 0x46 inst (.quantum lead part tc q) s :=
      (mirrorGate_of_not_frozen _ hfrozen).trans (if_neg (by omega))
    obtain ⟨t, i, hx, hsched, -, hegr, -⟩ := armed_of_armable h _ hg
    exact ⟨_, i, hx, hegr, hsched⟩
  · intro idx
    obtain ⟨t, i, hx, hsched, -, -, hmaps⟩ := armed_of_armable h (bindStop c (some inst) idx) rfl
    exact ⟨_, i, hx, hmaps, hsched⟩
  · intro idx
    obtain ⟨t, i, hx, hsched, -, -, hmaps⟩ := armed_of_armable h (bindStart c (some inst) idx) rfl
    exact ⟨_, i, hx, hmaps, hsched⟩
  · intro off lost v m halign hoff hparked
    have hok : regOffsetOk off = true := by simp [regOffsetOk, halign, bar0Size, hoff]
    have hwrite : regWrite c (some inst) ⟨off, lost⟩ v.toNat m.toNat s =
        schedCmd c 0x06 inst (.regWrite off v.toNat m.toNat) s := by
      unfold regWrite
      dsimp only
      rw [if_neg (by simp [hok]), if_neg (by simp)]
    obtain ⟨j, hj⟩ := schedCmd_of_good c 0x06 (.regWrite off v.toNat m.toNat) hset hlate hfar hroom
    have hg : unpark (regWrite c (some inst) ⟨off, lost⟩ v.toNat m.toNat s) =
        schedCmd c 0x06 inst (.regWrite off v.toNat m.toNat) s := by
      rw [hwrite, hj]
      exact unpark_of_none ((interimKept ..).parked.trans hparked)
    obtain ⟨t, i, hx, hsched, -⟩ := armed_of_armable h (fun u => unpark (regWrite c (some inst) ⟨off, lost⟩ v.toNat m.toNat u)) hg
    exact ⟨_, i, hx, hsched⟩

end Sys2Proof.Machine
end

section
/-! SUPPORT. Shaper and quantum settings as they are staged (09 R181, R187; 11 R214, R221). -/
namespace Sys2Proof.Machine
variable {s t : State}

/-- A shaper's setting waits for its boundary. -/
def shaperStaged (k : Nat) (en : Bool) (rate burst : Nat) (s : State) : State :=
  setShaper k { shaperOf s k with stage := rate }
    { s with egr := { s.egr with shpNew := tput none s.egr.shpNew k (some (en, rate, burst, s.time)) } }

theorem shaperStaged_new (k : Nat) (en : Bool) (rate burst : Nat) (s : State) :
    tget none (shaperStaged k en rate burst s).egr.shpNew k = some (en, rate, burst, s.time) :=
  tget_tput_same none (some (en, rate, burst, s.time)) s.egr.shpNew k

theorem shaperStaged_shaper (k : Nat) (en : Bool) (rate burst : Nat) (s : State) :
    shaperOf (shaperStaged k en rate burst s) k = { shaperOf s k with stage := rate } :=
  tget_tput_same Shaper.reset _ s.egr.shapers k

theorem commitShaper_of_fresh {lead part : Nat} (en : Bool) (rate burst : Nat) (h : tget none s.egr.shpNew (shpKey lead part) = none) :
    commitShaper lead part en rate burst s = shaperStaged (shpKey lead part) en rate (max 1 (min burst 4096)) s := by
  unfold commitShaper
  dsimp only
  rw [h]
  rfl

/-- A quantum waits for its boundary. -/
def quantumStaged (k v : Nat) (s : State) : State :=
  { s with egr := { s.egr with quantaNew := tput none s.egr.quantaNew k (some (v, s.time)) } }

theorem quantumStaged_new (k v : Nat) (s : State) : tget none (quantumStaged k v s).egr.quantaNew k = some (v, s.time) :=
  tget_tput_same none (some (v, s.time)) s.egr.quantaNew k

theorem commitQuantum_of_fresh {lead tc part : Nat} (v : Nat) (h : tget none s.egr.quantaNew (queueKey lead (128 * tc + part)) = none) :
    commitQuantum lead tc part v s = quantumStaged (queueKey lead (128 * tc + part)) (max 256 v) s := by
  unfold commitQuantum
  dsimp only
  rw [h]
  rfl

theorem base_evq_ne_sched (n : Nat) : (Page.evq 128).base ≠ (Page.sched n).base := by
  have h : (Page.sched n).base = 0x01000000 + n * 0x00200000 + 0x00100000 + 0x6000 := rfl
  have h' : (Page.evq 128).base = 0xC000 := rfl
  omega

theorem schedLead_of_lead {tile : Nat} (h : isLead s (64 * tile + rd s (.sched tile) F.SCHED_IDX_LPORT) = true) :
    schedLead s tile = some (64 * tile + rd s (.sched tile) F.SCHED_IDX_LPORT) := if_pos h

theorem schedLead_of_none {tile : Nat} (h : isLead s (64 * tile + rd s (.sched tile) F.SCHED_IDX_LPORT) = false) :
    schedLead s tile = none := if_neg (by simp [h])

/-- A write of all bits of SCHED_SHP_CFG with nothing staged for its shaper. -/
theorem shpCfgWrite_of_fresh {tile : Nat} (v : Nat) (his : isLead s (64 * tile + rd s (.sched tile) F.SCHED_IDX_LPORT) = true)
    (hfresh : tget none s.egr.shpNew (shpKey (64 * tile + rd s (.sched tile) F.SCHED_IDX_LPORT) (rd s (.sched tile) F.SCHED_IDX_PART))
      = none) :
    shpCfgWrite tile v 0xFFFFFFFF s =
      shaperStaged (shpKey (64 * tile + rd s (.sched tile) F.SCHED_IDX_LPORT) (rd s (.sched tile) F.SCHED_IDX_PART))
        (F.SCHED_SHP_CFG_EN.of v == 1)
        (shaperOf s (shpKey (64 * tile + rd s (.sched tile) F.SCHED_IDX_LPORT) (rd s (.sched tile) F.SCHED_IDX_PART))).stage
        (max 1 (min (F.SCHED_SHP_CFG_BURST.of v) 4096)) s := by
  unfold shpCfgWrite
  rw [schedLead_of_lead his]
  dsimp only
  rw [merge_allBits _ _ (by decide), merge_allBits _ _ (by decide), commitShaper_of_fresh _ _ _ hfresh]

/-- A command of the active core that no frozen page discards. -/
theorem run_mirrored {ok : Bool} {pg : Page} {c : Ctx} {op : Nat} (f : State → State) (hnone : NoneDue s) (hcore : CoreActs s)
    (hfrozen : frozen s = false) : dueThen (byCore (mirrorGate ok pg c op f)) s = f s := by
  rw [dueThen_of_noneDue _ hnone, byCore_of_coreActs _ hcore, mirrorGate_of_not_frozen _ hfrozen]

/-- Settles O34: a setting is staged for its boundary, and one for no link is discarded. -/
theorem egressSettings : Obligations.EgressSettings := by
  unfold Obligations.EgressSettings
  refine ⟨?_, ?_, ?_, ?_, ?_⟩
  · intro s c lead part rate burst en hnone hcore hfrozen hlead hpart hrate his hfresh
    have hset : shaperSet c none lead part rate burst en s = finishAt false c 0x45 (commitShaper lead part en rate burst s) :=
      (if_neg (by omega)).trans (if_neg (by simp [his]))
    rw [commitShaper_of_fresh en rate burst hfresh] at hset
    refine ⟨_, congrArg (done s) ((run_mirrored _ hnone hcore hfrozen).trans hset), shaperStaged_new .., ?_, ?_, rfl, rfl, rfl⟩
    · change (shaperOf (shaperStaged _ _ _ _ s) _).en = _
      rw [shaperStaged_shaper]
    · change (shaperOf (shaperStaged _ _ _ _ s) _).rate = _
      rw [shaperStaged_shaper]
  · intro s c lead part rate burst en hnone hcore hfrozen hlead hpart hrate his
    have hset : shaperSet c none lead part rate burst en s = finish c 0x45 St.cfgInvalid (reject (.sched (tileOf lead)) s) :=
      (if_neg (by omega)).trans (if_pos (by simp [his]))
    refine ⟨_, congrArg (done s) ((run_mirrored _ hnone hcore hfrozen).trans hset), finish_egr .., ?_⟩
    rw [rd_settled, finish, rd_complete_off c _ _ _ _ (by decide) (base_evq_ne_sched _), rd_reject]
  · intro s c lead part tc q hnone hcore hfrozen hlead hpart htc hq his hfresh
    have hset : quantumSet c none lead part tc q s = finishAt false c 0x46 (commitQuantum lead tc part q s) :=
      (if_neg (by omega)).trans (if_neg (by simp [his]))
    rw [commitQuantum_of_fresh q hfresh] at hset
    exact ⟨_, congrArg (done s) ((run_mirrored _ hnone hcore hfrozen).trans hset), quantumStaged_new .., rfl, rfl, rfl, rfl, rfl⟩
  · intro s tile l v hnone htakes hl his hfresh
    subst hl
    have hset := shpCfgWrite_of_fresh v.toNat his hfresh
    have hrun := (dueThen_of_noneDue (regGate (.sched tile) (shpCfgWrite tile v.toNat 0xFFFFFFFF)) hnone).trans
      ((regGate_of_takes _ htakes).trans hset)
    exact ⟨_, congrArg (done s) hrun, shaperStaged_new .., rfl⟩
  · intro s tile v hnone htakes his
    have hset : shpCfgWrite tile v.toNat 0xFFFFFFFF s = reject (.sched tile) s := by
      unfold shpCfgWrite
      rw [schedLead_of_none his]
    have hrun : dueThen (regGate (.sched tile) (shpCfgWrite tile v.toNat 0xFFFFFFFF)) s = reject (.sched tile) s := by
      rw [dueThen_of_noneDue _ hnone, regGate_of_takes _ htakes, hset]
    refine ⟨_, congrArg (done s) hrun, rfl, ?_⟩
    rw [rd_settled, rd_reject]

end Sys2Proof.Machine
end

section
/-! SUPPORT. Fuses, SPDM connections and JTAG (16 R305, R308-R313). -/
namespace Sys2Proof.Machine
variable {s t : State}

theorem takes_sec (h : s.mode.isUp = true) : Takes s .sec := ⟨.inl h, by simp [holdsWrites, Page.scope]⟩

theorem run_sec (f : State → State) (h : s.mode.isUp = true) : regGate .sec f s = f s := regGate_of_takes f (takes_sec h)

/-- A slot can be revoked, and another stays. -/
theorem secKeyRevoke_of_good {v other : Nat} (hkey : F.SEC_KEY_REVOKE_KEY.of v = 0xA5)
    (hactive : keySt s (F.SEC_KEY_REVOKE_SLOT.of v) = 1) (hnew : F.SEC_KEY_REVOKE_SLOT.of v ∉ s.sec.revoking)
    (hunused : slotUsed s (F.SEC_KEY_REVOKE_SLOT.of v) = false) (hother : other < 4) (hne : other ≠ F.SEC_KEY_REVOKE_SLOT.of v)
    (hst : keySt s other = 1) (hfree : other ∉ s.sec.revoking) :
    secKeyRevoke v s = { s with sec := { s.sec with revoking := s.sec.revoking ++ [F.SEC_KEY_REVOKE_SLOT.of v] } } := by
  have hleft : ((List.range 4).any fun i => i != F.SEC_KEY_REVOKE_SLOT.of v && (keySt s i == 1 && !s.sec.revoking.contains i)) = true :=
    List.any_eq_true.mpr ⟨other, List.mem_range.mpr hother, by simp [hne, hst, hfree]⟩
  unfold secKeyRevoke
  dsimp only
  rw [hleft]
  exact if_neg (by simp [hkey, hactive, hnew, hunused])

theorem secKeyRevoke_of_key {v : Nat} (h : F.SEC_KEY_REVOKE_KEY.of v ≠ 0xA5) : secKeyRevoke v s = reject .sec s := if_pos (.inl h)

theorem secKeyRevoke_of_last {v : Nat} (h : ∀ i, i < 4 → i ≠ F.SEC_KEY_REVOKE_SLOT.of v → keySt s i ≠ 1) :
    secKeyRevoke v s = reject .sec s := by
  have hnone : ((List.range 4).any fun i => i != F.SEC_KEY_REVOKE_SLOT.of v && (keySt s i == 1 && !s.sec.revoking.contains i)) = false := by
    rw [List.any_eq_false]
    intro i hi
    by_cases hne : i = F.SEC_KEY_REVOKE_SLOT.of v
    · simp [hne]
    · simp [h i (List.mem_range.mp hi) hne]
  exact if_pos (.inr (.inr (.inr (by rw [hnone]; rfl))))

/-- The key states before a fuse: those fused, or those of the module as it was made. -/
def keyTable (s : State) : Tbl Nat :=
  if s.sec.keysSet then s.sec.keys else (List.range 4).foldl (fun m i => tput 0 m i (Config.keyState i)) []

theorem tget_keyTable {i : Nat} (hi : i < 4) : tget 0 (keyTable s) i = keySt s i := by
  unfold keyTable keySt
  split
  · rfl
  · change tget 0 (tput 0 (tput 0 (tput 0 (tput 0 [] 0 (Config.keyState 0)) 1 (Config.keyState 1)) 2 (Config.keyState 2)) 3
      (Config.keyState 3)) i = Config.keyState i
    interval_cases i
    · rw [tget_tput_other _ _ _ _ (by decide), tget_tput_other _ _ _ _ (by decide), tget_tput_other _ _ _ _ (by decide), tget_tput_same]
    · rw [tget_tput_other _ _ _ _ (by decide), tget_tput_other _ _ _ _ (by decide), tget_tput_same]
    · rw [tget_tput_other _ _ _ _ (by decide), tget_tput_same]
    · rw [tget_tput_same]

theorem keySt_setKeySt_same (slot v : Nat) (s : State) : keySt (setKeySt slot v s) slot = v := tget_tput_same 0 v (keyTable s) slot

theorem keySt_setKeySt_other {i slot : Nat} (v : Nat) (hi : i < 4) (hne : i ≠ slot) : keySt (setKeySt slot v s) i = keySt s i :=
  (tget_tput_other 0 0 v (keyTable s) (Ne.symm hne)).trans (tget_keyTable hi)

/-- A posted event is the last of its queue. -/
theorem post_last (q typ : Nat) (l : List (Nat × Nat)) (s : State) :
    ∃ e ∈ evList (post q typ l s) q, e.typ = typ ∧ e.payload = l := by
  have hset (u v : State) (e : Event) (h : v.mq.evqs = tput [] u.mq.evqs q (evList u q ++ [e])) : e ∈ evList v q := by
    rw [evList, h, tget_tput_same]
    simp
  refine ⟨⟨rd s (.evq q) F.MQ_EVQ_NEXT_SEQ, typ, q, false, (evOverwrite q (rd s (.evq q) F.MQ_EVQ_CFG_CAP - 1) s).time, l⟩, ?_, rfl, rfl⟩
  unfold post postC
  dsimp only
  split
  · rw [when_keeps (fun u => evList u q) (fun u => evInterrupt_evList u q q)]
    exact hset (evOverwrite q (rd s (.evq q) F.MQ_EVQ_CFG_CAP - 1) s) _ _ rfl
  · exact hset (evOverwrite q (rd s (.evq q) F.MQ_EVQ_CFG_CAP - 1) s) _ _ rfl

theorem svnCommit_of_key {v : Nat} (hc : F.SEC_SVN_CTL_COMMIT.of v = 1) (hk : F.SEC_SVN_CTL_KEY.of v ≠ 0x5A) :
    svnCommit v s = reject .sec s := by
  unfold svnCommit
  rw [if_neg (by simp [hc])]
  exact if_neg fun h => hk h.1

/-- The version fuse takes the running version when both copies are valid at it or above. -/
theorem svnCommit_svnNew {v : Nat} {r : RunImg} (hr : s.sec.running = some r) (hc : F.SEC_SVN_CTL_COMMIT.of v = 1)
    (hk : F.SEC_SVN_CTL_KEY.of v = 0x5A) : (svnCommit v s).sec.svnNew =
      if (imageCheck s (flashOf s 0) = 0 ∧ r.svn ≤ (imageHdr (flashOf s 0)).svn) ∧
        imageCheck s (flashOf s 1) = 0 ∧ r.svn ≤ (imageHdr (flashOf s 1)).svn then some r.svn else s.sec.svnNew := by
  have hgood : ((List.range 2).all fun c => imageCheck s (flashOf s c) == 0 && decide (r.svn ≤ (imageHdr (flashOf s c)).svn)) = true ↔
      (imageCheck s (flashOf s 0) = 0 ∧ r.svn ≤ (imageHdr (flashOf s 0)).svn) ∧
        imageCheck s (flashOf s 1) = 0 ∧ r.svn ≤ (imageHdr (flashOf s 1)).svn := by
    simp [show List.range 2 = [0, 1] from rfl]
  have hrun : svnCommit v s = if (F.SEC_SVN_CTL_KEY.of v = 0x5A ∧
      ((List.range 2).all fun c => imageCheck s (flashOf s c) == 0 && decide (r.svn ≤ (imageHdr (flashOf s c)).svn)) = true)
      then { s with sec := { s.sec with svnNew := some r.svn } } else reject .sec s := by
    unfold svnCommit
    rw [if_neg (by simp [hc]), hr]
    rfl
  rw [hrun]
  by_cases h : ((List.range 2).all fun c => imageCheck s (flashOf s c) == 0 && decide (r.svn ≤ (imageHdr (flashOf s c)).svn)) = true
  · rw [if_pos ⟨hk, h⟩, if_pos (hgood.mp h)]
  · rw [if_neg (fun x => h x.2), if_neg (fun x => h (hgood.mpr x)), reject_sec]

/-! ### SPDM -/

theorem spdmReady_of_none {ep : Nat} (h : tget none s.sec.spdmProc ep = none) : spdmReady ep s = s := by
  unfold spdmReady
  rw [h]

/-- What the response owed leaves of the state. -/
theorem spdmReady_eq (ep : Nat) (s : State) : ∃ p, spdmReady ep s =
    { s with sec := { s.sec with spdmProc := p }, out := s.out ++ spdmOwed s ep } := by
  unfold spdmReady spdmOwed
  cases h : tget none s.sec.spdmProc ep with
  | none => exact ⟨s.sec.spdmProc, by simp⟩
  | some x => exact ⟨_, rfl⟩

/-- A request that its connection is ready for. -/
theorem spdmAt_of_ready {ep need : Nat} (f : State → State) (hep : mgUp s ep = true) (hm : s.mode.isUp = true) (hst : need ≤ spdmSt s ep)
    (h4 : spdmSt s ep ≠ 4) : spdmAt ep need f s = f (spdmReady ep s) := by
  obtain ⟨p, hp⟩ := spdmReady_eq ep s
  have hep' : mgUp (spdmReady ep s) ep = true := by rw [hp]; exact hep
  have hm' : (spdmReady ep s).mode.isUp = true := by rw [hp]; exact hm
  have hst' : spdmSt (spdmReady ep s) ep = spdmSt s ep := by rw [hp]; rfl
  unfold spdmAt
  dsimp only
  rw [if_neg (by simp [hep', hm']), hst', if_neg h4, if_neg (Nat.not_lt.mpr hst)]

/-- A request before its turn. -/
theorem spdmAt_of_early {ep need : Nat} (f : State → State) (hep : mgUp s ep = true) (hm : s.mode.isUp = true) (hst : spdmSt s ep < need)
    (h4 : spdmSt s ep ≠ 4) : spdmAt ep need f s = spdmError ep SpdmErr.unexpected (spdmReady ep s) := by
  obtain ⟨p, hp⟩ := spdmReady_eq ep s
  have hep' : mgUp (spdmReady ep s) ep = true := by rw [hp]; exact hep
  have hm' : (spdmReady ep s).mode.isUp = true := by rw [hp]; exact hm
  have hst' : spdmSt (spdmReady ep s) ep = spdmSt s ep := by rw [hp]; rfl
  unfold spdmAt
  dsimp only
  rw [if_neg (by simp [hep', hm']), hst', if_neg h4, if_pos hst]

/-- A request of a connection that is to resynchronise. -/
theorem spdmAt_of_resynch {ep need : Nat} (f : State → State) (hep : mgUp s ep = true) (hm : s.mode.isUp = true)
    (h4 : spdmSt s ep = 4) : spdmAt ep need f s = spdmError ep SpdmErr.resynch (spdmReady ep s) := by
  obtain ⟨p, hp⟩ := spdmReady_eq ep s
  have hep' : mgUp (spdmReady ep s) ep = true := by rw [hp]; exact hep
  have hm' : (spdmReady ep s).mode.isUp = true := by rw [hp]; exact hm
  have hst' : spdmSt (spdmReady ep s) ep = spdmSt s ep := by rw [hp]; rfl
  unfold spdmAt
  dsimp only
  rw [if_neg (by simp [hep', hm']), hst', if_pos h4]

/-- A request that only says something after the response that was owed. -/
theorem spdm_says {ep : Nat} {o : Out} {g : State → State} (hg : g s = (spdmReady ep s).say o) :
    ∃ t, done s (g s) = .next t ∧ (tget none s.sec.spdmProc ep = none → t.sec = s.sec) ∧ t.out = s.out ++ spdmOwed s ep ++ [o] := by
  obtain ⟨p, hp⟩ := spdmReady_eq ep s
  refine ⟨_, congrArg (done s) hg, fun h => ?_, ?_⟩
  · rw [spdmReady_of_none h]
    rfl
  · rw [hp]
    rfl

theorem spdmSt_setSpdm_same (ep v : Nat) (s : State) : spdmSt (setSpdm ep v s) ep = v := tget_tput_same 0 v s.sec.spdm ep

theorem spdmSt_setSpdm_other {e ep : Nat} (v : Nat) (h : e ≠ ep) : spdmSt (setSpdm ep v s) e = spdmSt s e :=
  tget_tput_other 0 0 v s.sec.spdm (Ne.symm h)

/-- A request that moves its connection on. -/
theorem spdm_moves {ep v : Nat} {o : Out} {g : State → State} (hg : g s = (setSpdm ep v (spdmReady ep s)).say o) :
    ∃ t, done s (g s) = .next t ∧ spdmSt t ep = v ∧ (∀ e, e ≠ ep → spdmSt t e = spdmSt s e) ∧
      t.out = s.out ++ spdmOwed s ep ++ [o] := by
  obtain ⟨p, hp⟩ := spdmReady_eq ep s
  rw [hp] at hg
  exact ⟨_, congrArg (done s) hg, spdmSt_setSpdm_same .., fun e he => spdmSt_setSpdm_other v he, rfl⟩

/-- A request whose response takes a signature. -/
theorem spdm_signs {ep code : Nat} {data : Nat → Nat → List Nat} {g : State → State}
    (hg : g s = spdmBegin ep code (data (Config.freeNat s.free) (Config.slhSign identityKey (BitVec.ofNat 256 (Config.freeNat (s.free + 1)))))
      { spdmReady ep s with free := s.free + 2 }) :
    ∃ t, done s (g s) = .next t ∧ t.out = s.out ++ spdmOwed s ep ∧
      (∃ own sig, tget none t.sec.spdmProc ep = some ⟨s.tick, code, data own sig⟩) := by
  obtain ⟨p, hp⟩ := spdmReady_eq ep s
  rw [hp] at hg
  refine ⟨_, congrArg (done s) hg, rfl, Config.freeNat s.free, Config.slhSign identityKey (BitVec.ofNat 256 (Config.freeNat (s.free + 1))), ?_⟩
  exact tget_tput_same none (some _) p ep

theorem measurement_congr (hsec : t.sec.running = s.sec.running) (hset : t.sec.keysSet = s.sec.keysSet) (hkeys : t.sec.keys = s.sec.keys)
    (hsvn : t.sec.svnMin = s.sec.svnMin) (hdbg : t.dbg = s.dbg) (i : Nat) : measurement t i = measurement s i := by
  have hk : keySt t = keySt s := by
    funext k
    rw [keySt, keySt, hset, hkeys]
  unfold measurement svnMinNow
  rw [hsec, hk, hsvn, hdbg]

theorem setFlash_same {copy : Nat} (m : List Host.Cell) (s : State) : flashOf (setFlash copy m s) copy = m := by
  unfold setFlash flashOf
  split <;> rfl

theorem setFlash_other {copy : Nat} (m : List Host.Cell) (s : State) (h : copy < 2) :
    flashOf (setFlash copy m s) (1 - copy) = flashOf s (1 - copy) := by
  obtain rfl | rfl : copy = 0 ∨ copy = 1 := by omega
  · rfl
  · rfl

theorem setFlash_out (copy : Nat) (m : List Host.Cell) (s : State) : (setFlash copy m s).out = s.out := by
  unfold setFlash
  split <;> rfl

theorem getCertificate_of_in {slot offset : Nat} (ep length : Nat) (hslot : slot < 2) (h : offset < (certChain slot).length) :
    getCertificate ep slot offset length s = s.say (.spdm ep 0x02 ([min length ((certChain slot).length - offset),
      (certChain slot).length - offset - min length ((certChain slot).length - offset)] ++
        ((certChain slot).drop offset).take length)) := by
  have htake : ((certChain slot).drop offset).take (min length ((certChain slot).length - offset)) =
      ((certChain slot).drop offset).take length := by
    rw [← List.length_drop, ← List.take_eq_take_min]
  unfold getCertificate
  dsimp only
  rw [if_neg (by omega), htake]

/-- Settles O52: fuses by what their writes leave, and every SPDM request through the response that was owed before it. -/
theorem keysAndSpdm : Obligations.KeysAndSpdm := by
  unfold Obligations.KeysAndSpdm
  refine ⟨?_, ?_, ?_, ?_, ?_, ?_, ?_, ?_, ?_, ?_, ?_, ?_, ?_, ?_, ?_, ?_, ?_, ?_, ?_, ?_, ?_, ?_⟩
  · intro s v slot other hup hslot hkey hactive hnew hunused hother hne hst hfree
    subst hslot
    exact ⟨_, congrArg (done s) ((run_sec _ hup).trans (secKeyRevoke_of_good hkey hactive hnew hunused hother hne hst hfree)), rfl, rfl⟩
  · intro s v hup hkey
    refine ⟨_, congrArg (done s) ((run_sec _ hup).trans (secKeyRevoke_of_key hkey)), rfl, ?_⟩
    rw [rd_settled, rd_reject]
  · intro s v slot hup hslot hlast
    subst hslot
    refine ⟨_, congrArg (done s) ((run_sec _ hup).trans (secKeyRevoke_of_last hlast)), rfl, ?_⟩
    rw [rd_settled, rd_reject]
  · intro s slot hmem hup hcap
    have hrun : keyRevocationDone slot s = post 128 0x0023 [(16, slot)]
        (setKeySt slot 2 { s with sec := { s.sec with revoking := s.sec.revoking.filter (· != slot) } }) :=
      if_pos (List.contains_iff_mem.mpr hmem)
    obtain ⟨e, he, htyp, hpay⟩ := post_last 128 0x0023 [(16, slot)]
      (setKeySt slot 2 { s with sec := { s.sec with revoking := s.sec.revoking.filter (· != slot) } })
    have hsec := post_sec (setKeySt slot 2 { s with sec := { s.sec with revoking := s.sec.revoking.filter (· != slot) } }) 128 0x0023
      [(16, slot)]
    generalize post 128 _ _ _ = u at *
    have hkey (i : Nat) : keySt u i = keySt (setKeySt slot 2 s) i := by
      unfold keySt
      rw [hsec]
      rfl
    refine ⟨_, congrArg (done s) hrun, (hkey slot).trans (keySt_setKeySt_same ..), ?_,
      fun i hi hne => (hkey i).trans (keySt_setKeySt_other 2 hi hne), e, he, htyp, by rw [hpay]; exact List.mem_singleton_self _⟩
    rw [settled_sec, hsec]
    exact fun h => by simpa using (List.mem_filter.mp h).2
  · intro s v r hup hr hc hk
    exact ⟨_, congrArg (done s) (run_sec _ hup), svnCommit_svnNew hr hc hk⟩
  · intro s v hup hc hk
    refine ⟨_, congrArg (done s) ((run_sec _ hup).trans (svnCommit_of_key hc hk)), rfl, ?_⟩
    rw [rd_settled, rd_reject]
  · intro s n hn hup hcap
    have hrun : svnFuseDone s = post 128 0x0024 [(16, max n (svnMinNow s))]
        { s with sec := { s.sec with svnMin := some (max n (svnMinNow s)), svnNew := none } } := by
      unfold svnFuseDone
      rw [hn]
    obtain ⟨e, he, htyp, -⟩ := post_last 128 0x0024 [(16, max n (svnMinNow s))]
      { s with sec := { s.sec with svnMin := some (max n (svnMinNow s)), svnNew := none } }
    have hsec := post_sec { s with sec := { s.sec with svnMin := some (max n (svnMinNow s)), svnNew := none } } 128 0x0024
      [(16, max n (svnMinNow s))]
    generalize post 128 _ _ _ = u at *
    refine ⟨_, congrArg (done s) hrun, ?_, ?_, e, he, htyp⟩
    · rw [svnMinNow, settled_sec, hsec]
      rfl
    · rw [settled_sec, hsec]
  · intro s ep hep hup
    exact spdm_moves (g := fun s => if !mgUp s ep ∨ !s.mode.isUp then s
      else s |> spdmReady ep |> setSpdm ep 1 |> State.say (.spdm ep 0x04 [0x12, 0x13])) (if_neg (by simp [hep, hup]))
  · intro s ep hep hup hst h4
    exact spdm_moves (spdmAt_of_ready _ hep hup hst h4)
  · intro s ep hep hup hst h4
    obtain ⟨t, ht, hst', -, hout⟩ := spdm_moves (spdmAt_of_ready (fun s =>
      if true then s |> setSpdm ep 3 |> State.say (.spdm ep 0x63 [0, 0x01, 0x02, 0x03, Config.vendorId, 0x0001])
      else spdmError ep SpdmErr.unsupported s) hep hup hst h4)
    exact ⟨t, ht, hst', hout⟩
  · intro s ep hep hup hst h4
    exact spdm_says (spdmAt_of_ready _ hep hup hst h4)
  · intro s ep hep hup hst
    exact spdm_says (spdmAt_of_ready _ hep hup hst.ge (by omega))
  · intro s ep hep hup hst
    exact spdm_says (spdmAt_of_early _ hep hup hst (by omega))
  · intro s ep hep hup hst
    exact spdm_says (spdmAt_of_resynch _ hep hup hst)
  · intro s ep slot offset length hep hup hst hslot
    by_cases h : offset < (certChain slot).length
    · rw [if_pos h]
      exact spdm_says ((spdmAt_of_ready _ hep hup hst.ge (by omega)).trans (getCertificate_of_in ep length hslot h))
    · rw [if_neg h]
      exact spdm_says ((spdmAt_of_ready _ hep hup hst.ge (by omega)).trans (if_pos (by omega)))
  · intro s ep slot nonce hep hup hst hslot
    refine spdm_signs (data := fun own sig => [slot, (chainDigest slot).toNat, nonce, own, sig])
      ((spdmAt_of_ready _ hep hup hst.ge (by omega)).trans ((if_neg (Nat.not_le.mpr hslot)).trans ?_))
    obtain ⟨p, hp⟩ := spdmReady_eq ep s
    rw [hp]
    rfl
  · intro s ep slot nonce hep hup hst hslot
    exact spdm_says ((spdmAt_of_ready _ hep hup hst.ge (by omega)).trans (if_pos hslot))
  · intro s ep nonce hep hup hst
    obtain ⟨p, hp⟩ := spdmReady_eq ep s
    obtain ⟨t, ht, -, hout⟩ := spdm_says (o := .spdm ep 0x60 [4, s.dbg.unlocked.toNat, s.dbg.scope, s.dbg.serial])
      (g := spdmAt ep 3 (getMeasurements ep 4 nonce false)) ((spdmAt_of_ready _ hep hup hst.ge (by omega)).trans (by rw [hp]; rfl))
    exact ⟨t, ht, hout⟩
  · intro s ep index nonce hep hup hst hlo hhi
    obtain ⟨p, hp⟩ := spdmReady_eq ep s
    refine spdm_signs (data := fun own sig => index :: measurement s index ++ [nonce, own, sig])
      ((spdmAt_of_ready _ hep hup hst.ge (by omega)).trans ?_)
    have hm : measurement (spdmReady ep s) index = measurement s index := by
      rw [hp]
      exact measurement_congr rfl rfl rfl rfl rfl index
    unfold getMeasurements
    dsimp only
    rw [if_neg (show ¬ (4 < index ∧ index ≠ 0xFF) by omega), if_neg (show ¬ index = 0 by omega), if_neg (show ¬ index = 0xFF by omega),
      if_pos rfl, hm, hp]
    rfl
  · intro s ep code hep hup h4
    exact spdm_says (spdmAt_of_ready _ hep hup (Nat.zero_le _) h4)
  · intro s hj
    exact ⟨_, congrArg (done s) (if_pos hj), rfl, rfl⟩
  · intro s copy bytes hj hcopy
    exact ⟨_, congrArg (done s) (if_pos (by simp [hj, hcopy])), setFlash_same .., setFlash_other _ _ hcopy, setFlash_out ..⟩

end Sys2Proof.Machine
end

section
/-! SUPPORT. What depends on the configuration of the links alone (03 R46; 06 R111). -/
namespace Sys2Proof.Machine
variable {s t u : State}

theorem asidePage_phy (p : Nat) : AsidePage (.phy p) := by
  refine ⟨base_evq_ne_phy p, ?_, fun n => ⟨?_, ?_⟩⟩ <;> simp only [Page.base, portBase, tilePage, tileBase] <;> omega

/-- Two states in which every port is configured alike and runs alike. -/
structure CfgSame (s t : State) : Prop where
  role : ∀ p, rd t (.phy p) F.PHY_LINK_CFG_ROLE = rd s (.phy p) F.PHY_LINK_CFG_ROLE
  width : ∀ p, rd t (.phy p) F.PHY_LINK_CFG_WIDTH = rd s (.phy p) F.PHY_LINK_CFG_WIDTH
  hpart : ∀ p, rd t (.phy p) F.PHY_LINK_CFG_HPART = rd s (.phy p) F.PHY_LINK_CFG_HPART
  run : ∀ p, rd t (.phy p) F.BLK_CTL_RUN = rd s (.phy p) F.BLK_CTL_RUN

namespace CfgSame

theorem of_regs (h : t.regs = s.regs) : CfgSame s t :=
  ⟨fun _ => rd_congr h _ _, fun _ => rd_congr h _ _, fun _ => rd_congr h _ _, fun _ => rd_congr h _ _⟩

theorem refl (s : State) : CfgSame s s := of_regs rfl

theorem trans (h : CfgSame s t) (g : CfgSame t u) : CfgSame s u :=
  ⟨fun p => (g.role p).trans (h.role p), fun p => (g.width p).trans (h.width p), fun p => (g.hpart p).trans (h.hpart p),
    fun p => (g.run p).trans (h.run p)⟩

/-- A write of a page that is no port's. -/
theorem wr {pg : Page} {f : Fld} (v : Nat) (s : State) (hf : f.off * 8 + f.lo < 0x8000) (h : ∀ p, pg.base ≠ (Page.phy p).base) :
    CfgSame s (wr pg f v s) :=
  ⟨fun p => rd_wr_page s v (h p) hf (by decide), fun p => rd_wr_page s v (h p) hf (by decide),
    fun p => rd_wr_page s v (h p) hf (by decide), fun p => rd_wr_page s v (h p) hf (by decide)⟩

theorem of_aside (h : Aside s t) : CfgSame s t := by
  have hpg := asidePage_phy
  exact ⟨fun p => h.rd _ _ (hpg p) (by decide), fun p => h.rd _ _ (hpg p) (by decide), fun p => h.rd _ _ (hpg p) (by decide),
    fun p => h.rd _ _ (hpg p) (by decide)⟩

theorem roleOf (h : CfgSame s t) : roleOf t = roleOf s := funext h.role

theorem ctrlsOf (h : CfgSame s t) : ctrlsOf t = ctrlsOf s := funext fun p => congrArg (2 ^ ·) (h.width p)

theorem hpartOf (h : CfgSame s t) : hpartOf t = hpartOf s := funext h.hpart

theorem memberOf (h : CfgSame s t) : memberOf t = memberOf s := by
  funext p
  unfold Machine.memberOf
  rw [h.roleOf, h.ctrlsOf]

theorem isLead (h : CfgSame s t) : isLead t = isLead s := by
  funext p
  unfold Machine.isLead
  rw [h.roleOf, h.memberOf]

theorem leadOf (h : CfgSame s t) : leadOf t = leadOf s := by
  funext p
  unfold Machine.leadOf
  rw [h.memberOf]

theorem linkRun (h : CfgSame s t) : linkRun t = linkRun s := by
  funext p
  unfold Machine.linkRun
  rw [h.leadOf, h.run]

theorem hostLead (h : CfgSame s t) : hostLead t = hostLead s := by
  funext p
  unfold Machine.hostLead
  rw [h.roleOf, h.hpartOf, h.isLead]

theorem hostTile (h : CfgSame s t) : hostTile t = hostTile s := by
  funext p
  unfold Machine.hostTile
  rw [h.hostLead]

theorem linkDown (h : CfgSame s t) (hphase : ∀ p, (linkOf t p).phase = (linkOf s p).phase) : linkDown t = linkDown s := by
  funext p
  unfold Machine.linkDown
  rw [h.roleOf, hphase]

theorem usable (h : CfgSame s t) (hphase : ∀ p, (linkOf t p).phase = (linkOf s p).phase) : usable t = usable s := by
  funext p
  unfold Machine.usable
  rw [h.linkDown hphase, h.linkRun]

end CfgSame
end Sys2Proof.Machine
end

section
/-! SUPPORT. Debug tokens and the debug master (16 R314-R318). -/
namespace Sys2Proof.Machine
variable {s t : State}

theorem tokenOk_iff (s : State) (k : Token) : tokenOk s k = true ↔
    (k.magic = 0x44424731 ∧ k.version = 1 ∧ Config.sha256 (leBytes 32 k.pubkey.toNat) = Config.authHash ∧
      Config.slhVerify k.pubkey (Config.sha256 (tokenBody k)) k.sig = true ∧ k.serial = Config.serial.toNat ∧
      k.nonce = nonceNow s ∧ k.scope < 8) := by
  unfold tokenOk
  simp only [Bool.and_eq_true, beq_iff_eq, decide_eq_true_eq, and_assoc]

theorem takes_dbg (h : s.mode.isUp = true) : Takes s .dbg := ⟨.inl h, by simp [holdsWrites, Page.scope]⟩

theorem run_dbg (f : State → State) (h : s.mode.isUp = true) : regGate .dbg f s = f s := regGate_of_takes f (takes_dbg h)

/-- The relock of an unlocked module, before its event. -/
def relocked (s : State) : State :=
  { s with
    dbg := { s.dbg with unlocked := false, scope := 0, serial := 0, expires := none, nonce := some (Config.freeNonce s.free) }
    free := s.free + 1 }

theorem relockNow_of_unlocked (reason : Nat) (h : s.dbg.unlocked = true) :
    relockNow reason s = post 128 0x0022 [(16, reason)] (relocked s) := by
  unfold relockNow
  rw [if_neg (by simp [h])]
  rfl

theorem relockNow_of_locked (reason : Nat) (h : s.dbg.unlocked = false) : relockNow reason s = s := if_pos (by simp [h])

/-- What a relock leaves: the module locked, and the event of its reason. -/
theorem relock_locks (reason : Nat) (h : s.dbg.unlocked = true) : (relockNow reason s).dbg = (relocked s).dbg ∧
    (relockNow reason s).tick = s.tick ∧ ∃ e ∈ evList (relockNow reason s) 128, e.typ = 0x22 ∧ (16, reason) ∈ e.payload := by
  rw [relockNow_of_unlocked reason h]
  obtain ⟨e, he, htyp, hpay⟩ := post_last 128 0x0022 [(16, reason)] (relocked s)
  exact ⟨post_dbg .., post_tick .., e, he, htyp, by rw [hpay]; exact List.mem_singleton_self _⟩

/-! ### What an event leaves of the queues -/

/-- Only events, their timers and pending vectors differ. -/
def EventsOnly (m n : Mq) : Prop := ∃ o e x p, n = { m with ovw := o, evqs := e, timers := x, pba := p }

theorem EventsOnly.refl (m : Mq) : EventsOnly m m := ⟨m.ovw, m.evqs, m.timers, m.pba, rfl⟩

theorem EventsOnly.trans {a b c : Mq} (h : EventsOnly a b) (g : EventsOnly b c) : EventsOnly a c := by
  obtain ⟨o, e, x, p, rfl⟩ := h
  obtain ⟨o', e', x', p', rfl⟩ := g
  exact ⟨o', e', x', p', rfl⟩

theorem eventsOnly_evInterrupt (q : Nat) (s : State) : EventsOnly s.mq (evInterrupt q s).mq := by
  unfold evInterrupt
  dsimp only
  cases rdb s (.evq q) F.MQ_EVQ_VEC_INT_EN && mgUp s _
  · exact .refl _
  · exact ⟨s.mq.ovw, s.mq.evqs, s.mq.timers, _, raiseVec_mq ..⟩

theorem eventsOnly_evOverwrite (q cap : Nat) (s : State) : EventsOnly s.mq (evOverwrite q cap s).mq := by
  have htrim (u : State) : EventsOnly u.mq (evTrim q cap u).mq := by
    unfold evTrim
    dsimp only
    split
    · exact .refl _
    · exact ⟨u.mq.ovw, _, u.mq.timers, u.mq.pba, rfl⟩
  unfold evOverwrite
  dsimp only
  split
  · exact .refl _
  · exact EventsOnly.trans ⟨_, s.mq.evqs, s.mq.timers, s.mq.pba, rfl⟩ (htrim _)

theorem eventsOnly_post (q typ : Nat) (l : List (Nat × Nat)) (s : State) : EventsOnly s.mq (post q typ l s).mq := by
  have hput (u : State) (x : List Event) (v : Nat) : EventsOnly u.mq (wr (.evq q) F.MQ_EVQ_NEXT_SEQ v (setEv q x u)).mq :=
    ⟨u.mq.ovw, _, u.mq.timers, u.mq.pba, rfl⟩
  have htimer (u : State) (x : Option Nat) : EventsOnly u.mq (setEvTimer q x u).mq := ⟨u.mq.ovw, u.mq.evqs, _, u.mq.pba, rfl⟩
  have hwhen (b : Bool) (u : State) : EventsOnly u.mq (u.when b (evInterrupt q)).mq := by
    cases b
    · exact .refl _
    · exact eventsOnly_evInterrupt q u
  have hover := eventsOnly_evOverwrite q (rd s (.evq q) F.MQ_EVQ_CFG_CAP - 1) s
  unfold post postC
  dsimp only
  generalize evOverwrite q _ s = u at *
  have hnew := hover.trans (hput u (evList u q ++ [⟨rd s (.evq q) F.MQ_EVQ_NEXT_SEQ, typ, q, false, u.time, l⟩])
    (rd s (.evq q) F.MQ_EVQ_NEXT_SEQ + 1))
  generalize wr (.evq q) F.MQ_EVQ_NEXT_SEQ _ _ = w at *
  split
  · exact hnew.trans ((htimer w _).trans (hwhen _ _))
  · exact hnew

/-- An event of the module's own queue leaves a ring that takes its completion at once as it is. -/
theorem hears_post {c : Ctx} (typ : Nat) (l : List (Nat × Nat)) (h : Hears s c) : Hears (post 128 typ l s) c := by
  obtain ⟨hfly, herr, hheld, hfull, hcpl⟩ := h
  obtain ⟨o, e, x, p, hmq⟩ := eventsOnly_post 128 typ l s
  have hbase : (Page.evq 128).base ≠ (Page.mq c.ep c.q).base := by simp only [Page.base, if_true]; omega
  have hrd (g : Fld) (hg : g.off * 8 + g.lo < 0x8000) : rd (post 128 typ l s) (.mq c.ep c.q) g = rd s (.mq c.ep c.q) g :=
    rd_post s 128 typ l hbase hg
  refine ⟨?_, ?_, ?_, ?_, ?_⟩
  · rwa [flyingOf, hmq]
  · rwa [rdb, hrd _ (by decide)]
  · rwa [heldOf, hmq]
  · rwa [cqFull, cqN, hrd _ (by decide), hrd _ (by decide), hrd _ (by decide)]
  · rwa [hmq]

/-- What completes in a later step's view completes in the earlier one's. -/
theorem completed_of_later {r : State} {c : Ctx} {op st r0 r1 : Nat} (h : s.out <+: t.out) (g : Completed t r c op st r0 r1) :
    Completed s r c op st r0 r1 := by
  obtain ⟨i, ph, hd, time, addr, image, hmem⟩ := g
  exact ⟨i, ph, hd, time, addr, image, List.drop_subset_drop_left _ h.length_le hmem⟩

/-! ### Tokens -/

theorem dbgToken_of_length {c : Ctx} {len : Nat} (good : Bool) (k : Token) (h : len ≠ 7952) :
    dbgToken c len good k s = finish c 0x54 St.badArg s := if_pos h

theorem dbgToken_of_disabled (c : Ctx) (k : Token) (h : Config.dbgDisable = true) :
    dbgToken c 7952 true k s = finish c 0x54 St.refused s := (if_neg (by simp)).trans (if_pos h)

theorem dbgToken_of_good {c : Ctx} (k : Token) (hep : mgUp s c.ep = true) (h : Config.dbgDisable = false) :
    dbgToken c 7952 true k s = tokenSubmit 0 (some c) k s :=
  (if_neg (by simp)).trans ((if_neg (by simp [h])).trans (if_neg (by simp [hep])))

/-- The module as a token that passed its checks unlocks it, before its event. -/
def unlockedBy (k : Token) (rest : List TokJob) (s : State) : State :=
  { s with
    dbg := { s.dbg with
      jobs := rest, unlocked := true, scope := k.scope, serial := k.serial, nonce := some (Config.freeNonce s.free)
      expires := if k.lifetime = 0 then none else some (s.tick + k.lifetime * msTicks) }
    free := s.free + 1 }

theorem tokenVerified_of_good {c : Ctx} {p n : Nat} {k : Token} {rest : List TokJob} (hj : s.dbg.jobs = ⟨p, some c, k, n⟩ :: rest)
    (hok : tokenOk s k = true) : tokenVerified s = complete c 0x54 St.ok 0 0
      (post 128 0x0021 [(16, p), (20, k.scope), (24, k.lifetime)] (unlockedBy k rest s)) := by
  unfold tokenVerified
  rw [hj]
  dsimp only
  rw [hok, if_pos rfl, if_pos rfl]
  rfl

theorem tokenVerified_of_bad {c : Ctx} {p n : Nat} {k : Token} {rest : List TokJob} (hj : s.dbg.jobs = ⟨p, some c, k, n⟩ :: rest)
    (hok : tokenOk s k = false) :
    tokenVerified s = complete c 0x54 St.authFail 0 0 { s with dbg := { s.dbg with jobs := rest } } := by
  unfold tokenVerified
  rw [hj]
  dsimp only
  rw [hok]
  rfl

/-! ### The debug master -/

/-- The settings of an access as a value of DBG_MEM_CTL spells them. -/
def putMem (v : Nat) (s : State) : State :=
  s |> wr .dbg F.DBG_MEM_CTL_WRITE (F.DBG_MEM_CTL_WRITE.of v) |> wr .dbg F.DBG_MEM_CTL_SIZE8 (F.DBG_MEM_CTL_SIZE8.of v)
    |> wr .dbg F.DBG_MEM_CTL_PART (F.DBG_MEM_CTL_PART.of v)

theorem putReg_mem (v : Nat) (s : State) : putReg .dbg F.DBG_MEM_CTL_GO.off v allBits s = putMem v s := by
  have hfields : Page.dbg.regFields F.DBG_MEM_CTL_GO.off = [F.DBG_MEM_CTL_GO, F.DBG_MEM_CTL_BUSY, F.DBG_MEM_CTL_STATUS,
    F.DBG_MEM_CTL_WRITE, F.DBG_MEM_CTL_SIZE8, F.DBG_MEM_CTL_PART] := rfl
  have hgo (u : State) : putField .dbg v allBits F.DBG_MEM_CTL_GO u = (false, u) := rfl
  have hbusy (u : State) : putField .dbg v allBits F.DBG_MEM_CTL_BUSY u = (false, u) := rfl
  have hst (u : State) : putField .dbg v allBits F.DBG_MEM_CTL_STATUS u = (false, u) := rfl
  have hput : putFields .dbg v allBits (Page.dbg.regFields F.DBG_MEM_CTL_GO.off) s = (false, putMem v s) := by
    simp only [hfields, putFields, hgo, hbusy, hst]
    rw [putField_rw_good v _ rfl (by decide) (by decide) (Nat.zero_le _) (of_le_max (by decide) v),
      putField_rw_good v _ rfl (by decide) (by decide) (Nat.zero_le _) (of_le_max (by decide) v),
      putField_rw_good v _ rfl (by decide) (by decide) (Nat.zero_le _) (of_le_max (by decide) v)]
    rfl
  unfold putReg putSome
  rw [hput]
  rfl

theorem rd_putMem_write (v : Nat) (s : State) : rd (putMem v s) .dbg F.DBG_MEM_CTL_WRITE = F.DBG_MEM_CTL_WRITE.of v := by
  rw [putMem, rd_wr_place _ _ (by decide), rd_wr_place _ _ (by decide), rd_wr_same, of_mod]

theorem rd_putMem_size (v : Nat) (s : State) : rd (putMem v s) .dbg F.DBG_MEM_CTL_SIZE8 = F.DBG_MEM_CTL_SIZE8.of v := by
  rw [putMem, rd_wr_place _ _ (by decide), rd_wr_same, of_mod]

theorem rd_putMem_part (v : Nat) (s : State) : rd (putMem v s) .dbg F.DBG_MEM_CTL_PART = F.DBG_MEM_CTL_PART.of v := by
  rw [putMem, rd_wr_same, of_mod]

/-- A register of another offset of any page. -/
theorem rd_putMem {pg : Page} {f : Fld} (v : Nat) (s : State) (hf : f.off % 4 = 0 ∧ f.off < 0x1000 ∧ f.lo < 32) (h : 0x54 ≠ f.off) :
    rd (putMem v s) pg f = rd s pg f := by
  rw [putMem, rd_wr_off _ _ (by decide) hf h, rd_wr_off _ _ (by decide) hf h, rd_wr_off _ _ (by decide) hf h]

theorem cfgSame_putMem (v : Nat) (s : State) : CfgSame s (putMem v s) :=
  ⟨fun _ => rd_putMem v s (by decide) (by decide), fun _ => rd_putMem v s (by decide) (by decide),
    fun _ => rd_putMem v s (by decide) (by decide), fun _ => rd_putMem v s (by decide) (by decide)⟩

/-- A write of GO while an access runs is ignored but for the settings. -/
theorem dbgMemGo_of_busy {rep : List (Nat × Nat)} {v : Nat} (h : s.dbg.busy = true) : dbgMemGo rep v allBits s = putMem v s := by
  unfold dbgMemGo
  dsimp only
  rw [putReg_mem]
  exact if_pos (.inr h)

theorem go_of_allBits {v : Nat} (h : F.DBG_MEM_CTL_GO.of v = 1) (hv : v < 2 ^ 32) : F.DBG_MEM_CTL_GO.of (v &&& allBits) = 1 := by
  rw [show allBits = 2 ^ 32 - 1 from rfl, Nat.and_two_pow_sub_one_eq_mod, Nat.mod_eq_of_lt hv, h]

/-- GO of a module whose debug master may not access. -/
theorem dbgMemGo_of_locked {rep : List (Nat × Nat)} {v : Nat} (hv : v < 2 ^ 32) (hgo : F.DBG_MEM_CTL_GO.of v = 1)
    (hbusy : s.dbg.busy = false) (h : s.dbg.unlocked = false ∨ bit s.dbg.scope 0 = false) :
    dbgMemGo rep v allBits s = wr .dbg F.DBG_MEM_CTL_STATUS DbgSt.locked (putMem v s) := by
  unfold dbgMemGo
  dsimp only
  rw [putReg_mem, if_neg]
  · exact if_pos (h.imp (fun e => by simp [putMem, e]) fun e => by simp [putMem, e])
  · rw [go_of_allBits hgo hv]
    simp [putMem, hbusy]

/-- What GO does in a module whose debug master may access: a lookup at the offset of a 4-byte access. -/
theorem dbgMemGo_of_open {rep : List (Nat × Nat)} {v raw : Nat} (hv : v < 2 ^ 32) (hgo : F.DBG_MEM_CTL_GO.of v = 1)
    (hbusy : s.dbg.busy = false) (hun : s.dbg.unlocked = true) (hscope : bit s.dbg.scope 0 = true)
    (hsize : F.DBG_MEM_CTL_SIZE8.of v = 0)
    (hraw : raw = rd s .dbg F.DBG_MEM_ADDR_HI_ADDR * 2 ^ 32 + rd s .dbg F.DBG_MEM_ADDR_LO_ADDR * 4) :
    dbgMemGo rep v allBits s =
      match lookupOff s (F.DBG_MEM_CTL_PART.of v) raw with
      | none => dbgFail DbgSt.nobind (F.DBG_MEM_CTL_WRITE.of v != 0) (putMem v s)
      | some (idx, b) =>
        let r := readReplica (hostTile s (F.DBG_MEM_CTL_PART.of v)) idx (some (F.DBG_MEM_CTL_PART.of v)) rep (putMem v s)
        if !r.1 then dbgFail DbgSt.nobind (F.DBG_MEM_CTL_WRITE.of v != 0) r.2
        else if b.locked then dbgDeny (F.DBG_MEM_CTL_PART.of v) idx raw (F.DBG_MEM_CTL_WRITE.of v != 0) r.2
        else if !b.right 0 (if (F.DBG_MEM_CTL_WRITE.of v != 0) then 1 else 0) then
          dbgFail DbgSt.rights (F.DBG_MEM_CTL_WRITE.of v != 0) r.2
        else dbgGo (F.DBG_MEM_CTL_PART.of v) idx b (F.DBG_MEM_CTL_WRITE.of v != 0) false raw r.2 := by
  have hcfg := cfgSame_putMem v s
  unfold dbgMemGo
  dsimp only
  rw [putReg_mem, if_neg, if_neg]
  · rw [rdb, rdb, rd_putMem_write, rd_putMem_size, rd_putMem_part, rd_putMem v s (by decide) (by decide),
      rd_putMem v s (by decide) (by decide), hsize, ← hraw, hcfg.hostTile]
    rfl
  · simp [putMem, hun, hscope]
  · rw [go_of_allBits hgo hv]
    simp [putMem, hbusy]

theorem readReplica_of_good {n idx : Nat} {part : Option Nat} {rep : List (Nat × Nat)} (h : badWords n rep = []) (s : State) :
    readReplica n idx part rep s = (true, s) := by
  unfold readReplica raiseSame
  rw [h]
  cases part <;> cases hf : s.flt.fatal <;> simp [State.each, State.when, hf]

/-- What a failed read or write of the debug master leaves: its status, and all ones for a read. -/
theorem dbgFail_keeps (st : Nat) (write : Bool) (s : State) :
    (dbgFail st write s).dbg = s.dbg ∧ (dbgFail st write s).maps = s.maps ∧ (dbgFail st write s).core = s.core := by
  cases write
  · exact ⟨rfl, rfl, rfl⟩
  · exact ⟨rfl, rfl, rfl⟩

theorem rd_dbgFail_status {st : Nat} (write : Bool) (s : State) (h : st < 8) :
    rd (dbgFail st write s) .dbg F.DBG_MEM_CTL_STATUS = st := rd_wr_of_lt _ h

theorem rd_dbgFail_ones (st : Nat) (s : State) : rd (dbgFail st false s) .dbg F.DBG_MEM_DATA_LO_DATA = 0xFFFFFFFF :=
  (rd_wr_place _ _ (by decide)).trans ((rd_wr_place _ _ (by decide)).trans (rd_wr_of_lt _ (by decide)))

theorem rd_dbgFail_denied (st : Nat) (write : Bool) (s : State) :
    rd (dbgFail st write s) .dbg F.DBG_DENY_CNT_DENIED = rd s .dbg F.DBG_DENY_CNT_DENIED := by
  unfold dbgFail dbgOnes
  rw [rd_wr_place _ _ (by decide)]
  cases write
  · exact (rd_wr_place _ _ (by decide)).trans (rd_wr_place _ _ (by decide))
  · rfl

/-- An access on a LOCKED segment, before its event. -/
def denied (write : Bool) (s : State) : State :=
  s |> dbgFail DbgSt.denied write |> wr .dbg F.DBG_STS_DBG_DENY 1 |> bump .dbg F.DBG_DENY_CNT_DENIED

theorem dbgDeny_eq (part idx off : Nat) (write : Bool) (s : State) : dbgDeny part idx off write s =
    if (denied write s).dbg.denySlot then denied write s
    else post 128 0x0020 [(16, part), (17, write.toNat), (20, idx), (24, off)]
      { denied write s with dbg := { (denied write s).dbg with denySlot := true } } := rfl

/-- What the refusal of an access on a LOCKED segment leaves. -/
structure DenyLeft (s t : State) : Prop where
  status : rd t .dbg F.DBG_MEM_CTL_STATUS = 3
  deny : rd t .dbg F.DBG_STS_DBG_DENY = 1
  count : rd t .dbg F.DBG_DENY_CNT_DENIED = min (rd s .dbg F.DBG_DENY_CNT_DENIED + 1) 0xFFFF
  busy : t.dbg.busy = s.dbg.busy
  maps : t.maps = s.maps
  core : t.core = s.core

theorem denied_left (write : Bool) (s : State) : DenyLeft s (denied write s) := by
  obtain ⟨hdbg, hmaps, hcore⟩ := dbgFail_keeps DbgSt.denied write s
  have hstatus := rd_dbgFail_status (st := DbgSt.denied) write s (by decide)
  have hcount := rd_dbgFail_denied DbgSt.denied write s
  unfold denied
  generalize dbgFail DbgSt.denied write s = u at *
  refine ⟨?_, ?_, ?_, congrArg Dbg.busy hdbg, hmaps, hcore⟩
  · rw [bump, bumpBy, rd_wr_place _ _ (by decide), rd_wr_place _ _ (by decide), hstatus]
    rfl
  · rw [bump, bumpBy, rd_wr_place _ _ (by decide)]
    exact rd_wr_of_lt _ (by decide)
  · rw [rd_bump_same, rd_wr_place _ _ (by decide), hcount]
    rfl

theorem dbgDeny_left (part idx off : Nat) (write : Bool) (s : State) : DenyLeft s (dbgDeny part idx off write s) := by
  obtain ⟨hst, hdeny, hcount, hbusy, hmaps, hcore⟩ := denied_left write s
  rw [dbgDeny_eq]
  generalize denied write s = u at *
  split
  · exact ⟨hst, hdeny, hcount, hbusy, hmaps, hcore⟩
  · have hrd (f : Fld) (hf : f.off * 8 + f.lo < 0x8000) (l : List (Nat × Nat)) :
        rd (post 128 0x0020 l { u with dbg := { u.dbg with denySlot := true } }) .dbg f = rd u .dbg f :=
      rd_post _ 128 0x0020 l (by decide) hf
    exact ⟨(hrd _ (by decide) _).trans hst, (hrd _ (by decide) _).trans hdeny, (hrd _ (by decide) _).trans hcount,
      (congrArg Dbg.busy (post_dbg ..)).trans hbusy, (post_maps ..).trans hmaps, (post_core ..).trans hcore⟩

/-- The request that an access of the debug master sends to a local target, for its forward. -/
def dbgFwd (part idx : Nat) (b : Binding) (write eight : Bool) (off : Nat) (s : State) : Fwd :=
  { lineFwd .dma part (some idx) (lineAt b.out b.ld (b.dpaOf off)) (dbgReq (lineAt b.out b.ld (b.dpaOf off)) write eight (b.dpaOf off) s) with
    out := b.out, ld := b.ld, dpa := b.dpaOf off }

theorem dbgGo_of_target {part idx off : Nat} {b : Binding} (hkind : b.kind = 0) (hshared : b.shared = false) (halc : s.home.alc = [])
    (hloq : s.home.loq = []) (hents : s.wab.ents = []) (huse : usable s b.out = true) :
    dbgGo part idx b false false off s = forward true 3 0 0 (dbgFwd part idx b false false off s)
      { s with dbg := { s.dbg with busy := true, access := some (0, off) } } := by
  have hhome (l : LineId) (n : Nat) : atHome s n l = false := by simp [atHome, halc, hloq]
  have hwab (l : LineId) (n : Nat) : wabAt s n part l = none := by simp [wabAt, hents]
  have hlead : b.lead s = some b.out := if_neg (by simp [hkind])
  unfold dbgGo
  dsimp only
  rw [if_neg (by simp [hkind]), if_neg (by simp [hshared]), hhome, hwab, hlead]
  simp only [Bool.false_eq_true, if_false, huse, if_true, hkind]
  rfl

/-- A request of the debug master is recorded until its response. -/
theorem forward_dma (f : Fwd) (hf : f.agent = .dma) (s : State) :
    (forward true 3 0 0 f s).dbg = s.dbg ∧
      (forward true 3 0 0 f s).maps.fwds = s.maps.fwds ++ [{ f with id := s.maps.nextId, own := true, tc := 3 }] := by
  unfold forward forwardTo
  dsimp only
  rw [if_pos rfl, hf]
  exact ⟨(CellStep.linkMessage ..).beside.dbg, congrArg Maps.fwds (CellStep.linkMessage ..).maps⟩

theorem dbgEnd_of_read {st off : Nat} (data : LineData) (h : s.dbg.access = some (0, off)) (hst : st < 8) :
    (dbgEnd st data s).dbg = { s.dbg with busy := false, access := none, waiting := none, answer := none } ∧
      (dbgEnd st data s).maps.fwds = s.maps.fwds.filter (fun f => decide (f.agent ≠ Agent.dma)) ∧
      rd (dbgEnd st data s) .dbg F.DBG_MEM_CTL_STATUS = st ∧
      rd (dbgEnd st data s) .dbg F.DBG_MEM_DATA_LO_DATA = if st = 0 then data.toNat / 2 ^ (8 * (off % 64)) % 2 ^ 32 else 0xFFFFFFFF := by
  unfold dbgEnd
  rw [h]
  dsimp only
  rw [show (!bit 0 0) = true from rfl, show bit 0 1 = false from rfl]
  by_cases h0 : st = 0
  · rw [if_pos h0, if_pos h0]
    refine ⟨rfl, rfl, rd_wr_of_lt _ hst, ?_⟩
    rw [rd_wr_place _ _ (by decide)]
    exact (rd_wr_same ..).trans (Nat.mod_mod ..)
  · rw [if_neg h0, if_neg h0]
    refine ⟨rfl, rfl, rd_wr_of_lt _ hst, ?_⟩
    rw [rd_wr_place _ _ (by decide)]
    exact (rd_wr_place _ _ (by decide)).trans (rd_wr_of_lt _ (by decide))

/-- Settles O53: tokens by the queue of their verification, the debug master by its lookup and by how its access ends. -/
theorem tokensAndDebugMaster : Obligations.TokensAndDebugMaster := by
  unfold Obligations.TokensAndDebugMaster
  refine ⟨?_, ?_, ?_, ?_, ?_, ?_, ?_, ?_, ?_, ?_, ?_, ?_, ?_, ?_, ?_, ?_⟩
  · intro s c len good k hcore hhears hlen
    exact ⟨_, congrArg (done s) ((byCore_of_coreActs _ hcore).trans (dbgToken_of_length good k hlen)),
      completed_of_hears _ _ _ _ rfl hhears, finish_dbg ..⟩
  · intro s c k hcore hhears hep
    cases hd : Config.dbgDisable with
    | false =>
      exact ⟨_, congrArg (done s) ((byCore_of_coreActs _ hcore).trans (dbgToken_of_good k hep hd)), fun _ => rfl, nofun⟩
    | true =>
      exact ⟨_, congrArg (done s) ((byCore_of_coreActs _ hcore).trans (dbgToken_of_disabled c k hd)), nofun,
        fun _ => ⟨finish_dbg .., completed_of_hears _ _ _ _ rfl hhears⟩⟩
  · intro s k hj
    cases hd : Config.dbgDisable with
    | false =>
      refine ⟨_, congrArg (done s) (if_neg (by simp [hd, hj])), ?_, rfl⟩
      simp [tokenSubmit]
    | true => exact ⟨_, congrArg (done s) (if_pos (by simp [hd])), rfl, rfl⟩
  · intro s c p n k rest hj hhears
    cases hok : tokenOk s k with
    | false =>
      exact ⟨_, congrArg (done s) (tokenVerified_of_bad hj hok), by rw [settled_dbg, complete_dbg], nofun,
        fun _ => ⟨complete_dbg .., completed_of_hears _ _ _ _ rfl hhears⟩⟩
    | true =>
      have hrun := tokenVerified_of_good hj hok
      have hpost := CellStep.post 0x0021 [(16, p), (20, k.scope), (24, k.lifetime)] (unlockedBy k rest s)
      have hlater := hears_post (s := unlockedBy k rest s) 0x0021 [(16, p), (20, k.scope), (24, k.lifetime)] hhears
      generalize post 128 _ _ (unlockedBy k rest s) = u at *
      have hdbg : (complete c 0x54 St.ok 0 0 u).dbg = (unlockedBy k rest s).dbg := (complete_dbg ..).trans hpost.beside.dbg
      have hdone := completed_of_hears 0x54 St.ok 0 0 rfl hlater
      generalize complete c 0x54 St.ok 0 0 u = w at *
      refine ⟨_, congrArg (done s) hrun, congrArg Dbg.jobs hdbg, fun _ => ?_, nofun⟩
      exact ⟨congrArg Dbg.unlocked hdbg, congrArg Dbg.scope hdbg, congrArg Dbg.serial hdbg, congrArg Dbg.expires hdbg,
        completed_of_later hpost.beside.aside.out hdone⟩
  · exact tokenOk_iff
  · intro s n hexp hun hclk hup hcap
    have hrun : (match s.dbg.expires with | some t => atPwr t (relockNow 0) s | none => s) = relockNow 0 (advanceTo n s) := by
      rw [hexp]
      rfl
    obtain ⟨hdbg, htick, hev⟩ := relock_locks (s := advanceTo n s) 0 (by rw [advanceTo_dbg]; exact hun)
    generalize relockNow 0 (advanceTo n s) = u at *
    refine ⟨_, congrArg (done s) hrun, htick.trans (advanceTo_tick n hclk), ?_, ?_, ?_, hev⟩
    all_goals rw [settled_dbg, hdbg]; rfl
  · intro s hup hun hcap
    obtain ⟨hdbg, -, hev⟩ := relock_locks 1 hun
    have hrun := run_dbg (relockNow 1) hup
    generalize relockNow 1 s = u at *
    refine ⟨_, congrArg (done s) hrun, ?_, ?_, ?_, hev⟩
    all_goals rw [settled_dbg, hdbg]; rfl
  · intro s hup hun
    exact ⟨_, congrArg (done s) ((run_dbg _ hup).trans (relockNow_of_locked 1 hun)), rfl, rfl⟩
  · intro s v rep hup hgo hbusy h
    refine ⟨_, congrArg (done s) ((run_dbg _ hup).trans (dbgMemGo_of_locked v.isLt hgo hbusy h)), ?_, rfl, rfl⟩
    exact rd_wr_of_lt (f := F.DBG_MEM_CTL_STATUS) (v := DbgSt.locked) _ (by decide)
  · intro s v rep raw hup hgo hbusy hun hscope hsize hwrite hraw hnone
    have hrun := dbgMemGo_of_open (rep := rep) v.isLt hgo hbusy hun hscope hsize hraw
    rw [hnone] at hrun
    obtain ⟨hdbg, hmaps, -⟩ := dbgFail_keeps DbgSt.nobind (F.DBG_MEM_CTL_WRITE.of v.toNat != 0) (putMem v.toNat s)
    have hst := rd_dbgFail_status (st := DbgSt.nobind) (F.DBG_MEM_CTL_WRITE.of v.toNat != 0) (putMem v.toNat s) (by decide)
    have hones := rd_dbgFail_ones DbgSt.nobind (putMem v.toNat s)
    rw [hwrite] at *
    exact ⟨_, congrArg (done s) ((run_dbg _ hup).trans hrun), hst, hones, hdbg, hmaps⟩
  · intro s v rep raw idx b hup hgo hbusy hun hscope hsize hraw hhit hbad hlocked
    have hrun := dbgMemGo_of_open (rep := rep) v.isLt hgo hbusy hun hscope hsize hraw
    rw [hhit] at hrun
    dsimp only at hrun
    rw [readReplica_of_good hbad, if_neg (by simp), if_pos hlocked] at hrun
    obtain ⟨hst, hdeny, hcount, hb, hmaps, hcore⟩ :=
      dbgDeny_left (F.DBG_MEM_CTL_PART.of v.toNat) idx raw (F.DBG_MEM_CTL_WRITE.of v.toNat != 0) (putMem v.toNat s)
    rw [rd_putMem v.toNat s (by decide) (by decide)] at hcount
    exact ⟨_, congrArg (done s) ((run_dbg _ hup).trans hrun), hst, hdeny, hcount, hb.trans hbusy, hmaps, hcore⟩
  · intro s v rep raw idx out b hup hgo hbusy hun hscope hsize hwrite hraw hhit hbad hlocked hright hkind hshared halc hloq hents hlead huse
    have hout : b.out = out := Option.some.inj ((if_neg (by simp [hkind])).symm.trans hlead)
    have huse' : usable (putMem v.toNat s) b.out = true := by
      rw [(cfgSame_putMem v.toNat s).usable fun _ => rfl, hout]
      exact huse
    have hrun := dbgMemGo_of_open (rep := rep) v.isLt hgo hbusy hun hscope hsize hraw
    rw [hhit] at hrun
    dsimp only at hrun
    rw [readReplica_of_good hbad, if_neg (by simp), if_neg (by simp [hlocked]), hwrite, if_neg (by simp [hright]),
      show ((0 : Nat) != 0) = false from rfl,
      dbgGo_of_target (s := putMem v.toNat s) hkind hshared halc hloq hents huse'] at hrun
    obtain ⟨hdbg, hfwds⟩ := forward_dma (dbgFwd (F.DBG_MEM_CTL_PART.of v.toNat) idx b false false raw (putMem v.toNat s)) rfl
      { putMem v.toNat s with dbg := { (putMem v.toNat s).dbg with busy := true, access := some (0, raw) } }
    generalize forward true 3 0 0 _ _ = u at *
    refine ⟨_, congrArg (done s) ((run_dbg _ hup).trans hrun), hdbg, ?_⟩
    rw [settled_maps, hfwds, List.map_append, ← hout]
    rfl
  · intro s v rep hup hbusy
    exact ⟨_, congrArg (done s) ((run_dbg _ hup).trans (dbgMemGo_of_busy hbusy)), rfl, rfl, rfl⟩
  · intro s data down off a hacc hans
    obtain ⟨hdbg, -, hst, hdata⟩ := dbgEnd_of_read (st := if a.down then DbgSt.tgtDown else DbgSt.ok) a.line hacc (by split <;> decide)
    have hrun : dbgMemDone data down s = dbgEnd (if a.down then DbgSt.tgtDown else DbgSt.ok) a.line s := by
      unfold dbgMemDone
      rw [hans]
    generalize dbgEnd _ a.line s = u at *
    refine ⟨_, congrArg (done s) hrun, hdbg, hst, hdata.trans ?_⟩
    cases a.down <;> rfl
  · intro s data down off hacc hwait hans hany
    obtain ⟨hdbg, hfwds, hst, hdata⟩ := dbgEnd_of_read (st := if down then DbgSt.tgtDown else DbgSt.ok) data hacc (by split <;> decide)
    have hrun : dbgMemDone data down s = dbgEnd (if down then DbgSt.tgtDown else DbgSt.ok) data s := by
      unfold dbgMemDone
      rw [hans]
      exact if_pos (by simp [hwait, hany])
    generalize dbgEnd _ data s = u at *
    refine ⟨_, congrArg (done s) hrun, ?_, ?_, hst, hdata.trans ?_⟩
    · rw [settled_dbg, hdbg, ← hwait, ← hans]
    · rw [settled_maps, hfwds]
      simp
    · cases down <;> rfl
  · intro s data down hans h
    have hrun : dbgMemDone data down s = s := by
      unfold dbgMemDone
      rw [hans]
      refine if_neg ?_
      obtain h | h := h
      · simp [h]
      · simp [h]
    exact ⟨_, congrArg (done s) hrun, rfl, rfl, rfl⟩

end Sys2Proof.Machine
end

section
/-! SUPPORT. The I3C sideband target: common commands, directed writes and reads (18 R351-R353). -/
namespace Sys2Proof.Machine
variable {s t : State}

theorem i3cAlive_of_power (h : s.pwr.lowAt = none) : i3cAlive s = true := by simp [i3cAlive, h]

theorem i3cAlive_of_low {n : Nat} (h : s.pwr.lowAt = some n) : i3cAlive s = false := by simp [i3cAlive, h]

/-- What no access over the sideband changes. -/
structure SbKept (s t : State) : Prop where
  regs : t.regs = s.regs
  out : t.out = s.out

/-- A start from OFF is silent: no block and no register hears of it. -/
theorem startPath_of_mayStart (c : Nat) (h : mayStart s = true) : SbKept s (startPath c s) ∧ (startPath c s).i3c = s.i3c := by
  have hm : s.mode = .off := by simp_all [mayStart]
  unfold startPath
  dsimp only
  rw [setMode_of_silent (by simp [hm]) (.inl rfl)]
  exact ⟨⟨rfl, rfl⟩, rfl⟩

/-- The value and the state that clear the latch (18 R353). -/
def clearsLatch (v : Nat) (s : State) : Bool := v == 0xC3 && s.pwr.latched && decide (4400 ≤ s.pwr.vin)

/-- The state with the latch cleared and no failure counted. -/
def unlatched (s : State) : State :=
  { s with i3c := { s.i3c with latchErr := false }, pwr := { s.pwr with latched := false, fails := 0 } }

theorem sbLatchClr_of_bad {v : Nat} (h : clearsLatch v s = false) : sbLatchClr v s = { s with i3c := { s.i3c with latchErr := true } } :=
  if_neg (by simp_all [clearsLatch, vinOnMv])

theorem sbLatchClr_of_good {v : Nat} (h : clearsLatch v s = true) :
    sbLatchClr v s = if mayStart (unlatched s) then startPath s.rst.cause (unlatched s) else unlatched s :=
  if_pos (by simp_all [clearsLatch, vinOnMv])

theorem sbLatchClr_keeps (v : Nat) (s : State) : SbKept s (sbLatchClr v s) ∧
    (sbLatchClr v s).i3c = { s.i3c with latchErr := !clearsLatch v s } ∧
    (sbLatchClr v s).pwr.latched = (s.pwr.latched && !clearsLatch v s) := by
  cases h : clearsLatch v s with
  | false =>
    rw [sbLatchClr_of_bad h]
    exact ⟨⟨rfl, rfl⟩, rfl, (Bool.and_true _).symm⟩
  | true =>
    rw [sbLatchClr_of_good h]
    split
    case isFalse => exact ⟨⟨rfl, rfl⟩, rfl, (Bool.and_false _).symm⟩
    case isTrue hmay =>
      obtain ⟨⟨hregs, hout⟩, hi⟩ := startPath_of_mayStart s.rst.cause hmay
      refine ⟨⟨hregs, hout⟩, hi, ?_⟩
      rw [(startPath_begins _ _).2]
      exact (Bool.and_false _).symm

theorem i3cWriteByte_keeps (b : Nat) (s : State) : SbKept s (i3cWriteByte b s) ∧
    (i3cWriteByte b s).i3c.sel = (s.i3c.sel + 1) % 256 ∧
    (s.i3c.sel ≠ 0x0F → (i3cWriteByte b s).pwr = s.pwr ∧ (i3cWriteByte b s).mode = s.mode) := by
  unfold i3cWriteByte
  dsimp only
  split
  case isFalse => exact ⟨⟨rfl, rfl⟩, rfl, fun _ => ⟨rfl, rfl⟩⟩
  case isTrue h =>
    obtain ⟨⟨hregs, hout⟩, hi, -⟩ := sbLatchClr_keeps (b % 256) { s with i3c := { s.i3c with sel := (s.i3c.sel + 1) % 256 } }
    exact ⟨⟨hregs, hout⟩, congrArg I3c.sel hi, fun hne => absurd h hne⟩

theorem eachWriteByte_keeps (bytes : List Nat) : ∀ s : State, s.i3c.sel < 256 →
    SbKept s (s.each bytes i3cWriteByte) ∧ (s.each bytes i3cWriteByte).i3c.sel = (s.i3c.sel + bytes.length) % 256 ∧
    ((∀ k, k < bytes.length → (s.i3c.sel + k) % 256 ≠ 0x0F) →
      (s.each bytes i3cWriteByte).pwr = s.pwr ∧ (s.each bytes i3cWriteByte).mode = s.mode) := by
  induction bytes with
  | nil => exact fun s h => ⟨⟨rfl, rfl⟩, (Nat.mod_eq_of_lt h).symm, fun _ => ⟨rfl, rfl⟩⟩
  | cons b bytes ih =>
    intro s hsel
    obtain ⟨⟨hregs, hout⟩, hnext, hother⟩ := i3cWriteByte_keeps b s
    obtain ⟨⟨hregs', hout'⟩, hnext', hother'⟩ := ih (i3cWriteByte b s) (by omega)
    refine ⟨⟨hregs'.trans hregs, hout'.trans hout⟩, hnext'.trans ?_, fun hk => ?_⟩
    · rw [hnext, List.length_cons]
      omega
    · obtain ⟨hp, hm⟩ := hother (fun h => hk 0 (by simp) (by rw [h]))
      obtain ⟨hp', hm'⟩ := hother' (fun k hlt => by
        rw [hnext]
        have := hk (k + 1) (by simpa using hlt)
        omega)
      exact ⟨hp'.trans hp, hm'.trans hm⟩

theorem i3cPrivateWrite_of_addressed {a : Nat} (reg : Nat) (bytes : List Nat) (hlow : s.pwr.lowAt = none)
    (haddr : s.i3c.addr = some a) :
    i3cPrivateWrite reg bytes s = ({ s with i3c := { s.i3c with sel := reg % 256 } }.say (.i3cAck true)).each bytes i3cWriteByte := by
  simp [i3cPrivateWrite, i3cAlive_of_power hlow, haddr]

/-- A selection leaves the values that a latch clear looks at. -/
theorem clearsLatch_false_of_value {v : Nat} (h : v ≠ 0xC3) (s : State) : clearsLatch v s = false := by simp [clearsLatch, h]

/-- What no read over the sideband changes. -/
structure SbRead (s t : State) : Prop extends SbKept s t where
  mode : t.mode = s.mode
  latched : t.pwr.latched = s.pwr.latched

theorem SbRead.trans {u : State} (a : SbRead s t) (b : SbRead t u) : SbRead s u :=
  ⟨⟨b.regs.trans a.regs, b.out.trans a.out⟩, b.mode.trans a.mode, b.latched.trans a.latched⟩

theorem adcSample_keeps (s : State) : SbRead s (adcSample s) ∧ (adcSample s).i3c = s.i3c := ⟨⟨⟨rfl, rfl⟩, rfl, rfl⟩, rfl⟩

theorem whenAdcSample_keeps (b : Bool) (s : State) : SbRead s (s.when b adcSample) ∧ (s.when b adcSample).i3c = s.i3c := by
  cases b
  · exact ⟨⟨⟨rfl, rfl⟩, rfl, rfl⟩, rfl⟩
  · exact adcSample_keeps s

theorem i3cReadByte_keeps (s : State) : SbRead s (i3cReadByte s).2 ∧ (i3cReadByte s).2.i3c.sel = (s.i3c.sel + 1) % 256 := by
  obtain ⟨hread, hi⟩ := whenAdcSample_keeps (s.i3c.sel == 0x08 || s.i3c.sel == 0x0A)
    { s with i3c := { s.i3c with sel := (s.i3c.sel + 1) % 256 } }
  unfold i3cReadByte
  dsimp only
  generalize State.when _ _ _ = u at *
  have hsel : u.i3c.sel = (s.i3c.sel + 1) % 256 := by rw [hi]
  obtain ⟨⟨hregs, hout⟩, hm, hl⟩ := hread
  split
  case h_1 => exact ⟨⟨⟨hregs, hout⟩, hm, hl⟩, hsel⟩
  case h_2 => split <;> exact ⟨⟨⟨hregs, hout⟩, hm, hl⟩, hsel⟩

theorem i3cReadN_keeps (n : Nat) : ∀ s : State, SbRead s (i3cReadN n s).2 ∧ (i3cReadN n s).1.length = n ∧
    (i3cReadN n s).2.i3c.sel % 256 = (s.i3c.sel + n) % 256 := by
  induction n with
  | zero => exact fun s => ⟨⟨⟨rfl, rfl⟩, rfl, rfl⟩, rfl, rfl⟩
  | succ n ih =>
    intro s
    obtain ⟨hread, hsel⟩ := i3cReadByte_keeps s
    obtain ⟨hread', hlen', hsel'⟩ := ih (i3cReadByte s).2
    exact ⟨hread.trans hread', congrArg (· + 1) hlen', hsel'.trans (by omega)⟩

theorem i3cPrivateRead_of_addressed {a : Nat} (n : Nat) (hlow : s.pwr.lowAt = none) (haddr : s.i3c.addr = some a) :
    i3cPrivateRead n s = ((i3cReadN n s).2.say (.i3cAck true)).say (.i3c (i3cReadN n s).1) := by
  simp [i3cPrivateRead, i3cAlive_of_power hlow, haddr]

/-- The status register is one byte and no wide one. -/
theorem i3cReadByte_of_status (h : s.i3c.sel = 2) :
    i3cReadByte s = (sbSts s, { s with i3c := { s.i3c with sel := 3 } }) := by
  unfold i3cReadByte
  rw [h]
  rfl

/-- VIN is read low byte first; the high byte is latched with the low one. -/
theorem i3cReadN_of_vin (h : s.i3c.sel = 6) (hvin : s.pwr.vin < 65536) :
    (i3cReadN 2 s).1 = [s.pwr.vin % 256, s.pwr.vin / 256] ∧ (i3cReadN 2 s).2.i3c.sel = 8 ∧
      (i3cReadN 2 s).2.pwr = s.pwr ∧ (i3cReadN 2 s).2.out = s.out := by
  have hlo : i3cReadByte s = (s.pwr.vin % 256,
      { s with i3c := { s.i3c with sel := 7, hi := tput 0 s.i3c.hi 7 (s.pwr.vin / 256 % 256) } }) := by
    have hmin : min s.pwr.vin 0xFFFF = s.pwr.vin := by omega
    unfold i3cReadByte
    rw [h]
    change (min s.pwr.vin 0xFFFF % 256, { s with i3c := { s.i3c with
      sel := 7, hi := tput 0 s.i3c.hi 7 (min s.pwr.vin 0xFFFF / 256 % 256) } }) = _
    rw [hmin]
  have hhi (m : Tbl Nat) : i3cReadByte { s with i3c := { s.i3c with sel := 7, hi := m } } =
      (tget 0 m 7, { s with i3c := { s.i3c with sel := 8, hi := m } }) := rfl
  have hread : i3cReadN 2 s = ([s.pwr.vin % 256, s.pwr.vin / 256],
      { s with i3c := { s.i3c with sel := 8, hi := tput 0 s.i3c.hi 7 (s.pwr.vin / 256 % 256) } }) := by
    simp only [i3cReadN, hlo, hhi, tget_tput_same]
    rw [Nat.mod_eq_of_lt (by omega : s.pwr.vin / 256 < 256)]
  rw [hread]
  exact ⟨rfl, rfl, rfl, rfl⟩

theorem say_say_out (a b : Out) : ((s.say a).say b).out = s.out ++ [a, b] := List.append_assoc s.out [a] [b]

/-- The common commands that the target knows (18 R351, Table 18.4). -/
def sbCommands : List Nat := [0x00, 0x01, 0x06, 0x80, 0x81, 0x88, 0x8D, 0x8E, 0x8F, 0x90, 0x94]

/-- An answer to a common command leaves all but the target. -/
structure CccAnswer (ack : Bool) (s t : State) : Prop where
  pwr : t.pwr = s.pwr
  regs : t.regs = s.regs
  mode : t.mode = s.mode
  ack : .i3cAck ack ∈ t.out

theorem i3cSet_answers (ok : Bool) (f : I3c → I3c) (s : State) : CccAnswer ok s (i3cSet ok f s) := by
  cases ok <;> exact ⟨rfl, rfl, rfl, List.mem_append_right _ (List.mem_singleton.mpr rfl)⟩

theorem i3cGet_answers (bytes : List Nat) (s : State) : CccAnswer s.i3c.addr.isSome s (i3cGet bytes s) := by
  unfold i3cGet
  split
  case isTrue h =>
    rw [h]
    exact ⟨rfl, rfl, rfl, List.mem_append_left _ (List.mem_append_right _ (List.mem_singleton.mpr rfl))⟩
  case isFalse h =>
    rw [Bool.eq_false_iff.mpr h]
    exact ⟨rfl, rfl, rfl, List.mem_append_right _ (List.mem_singleton.mpr rfl)⟩

theorem say_answers (ok : Bool) (s : State) : CccAnswer ok s (s.say (.i3cAck ok)) :=
  ⟨rfl, rfl, rfl, List.mem_append_right _ (List.mem_singleton.mpr rfl)⟩

/-- Code 07h takes an address when there is none; a known code is acknowledged with an address, and no other code is. -/
def cccAck (code : Nat) (s : State) : Bool :=
  if code = 0x07 then s.i3c.addr.isNone else s.i3c.addr.isSome && sbCommands.contains code

theorem cccAck_of_known {code : Nat} (hne : code ≠ 0x07) (hin : code ∈ sbCommands) : cccAck code s = s.i3c.addr.isSome := by
  simp [cccAck, hne, hin]

theorem i3cCcc_answers (code arg : Nat) (hlow : s.pwr.lowAt = none) : CccAnswer (cccAck code s) s (i3cCcc code arg s) := by
  unfold i3cCcc
  rw [if_neg (by simp [i3cAlive_of_power hlow])]
  split
  case h_1 =>
    have hack : cccAck 0x07 s = !s.i3c.addr.isSome := (Option.not_isSome _).symm
    rw [hack]
    exact i3cSet_answers _ _ s
  case h_13 h07 _ _ _ _ _ _ _ _ _ _ _ =>
    have hack : cccAck code s = false := by simp_all [cccAck, sbCommands]
    rw [hack]
    exact say_answers false s
  all_goals rw [cccAck_of_known (by decide) (by decide)]
  case h_8 | h_9 | h_10 | h_11 | h_12 => exact i3cGet_answers _ s
  all_goals exact i3cSet_answers s.i3c.addr.isSome _ s

theorem i3cCcc_of_low {n : Nat} (code arg : Nat) (h : s.pwr.lowAt = some n) : i3cCcc code arg s = s :=
  if_pos (by simp [i3cAlive_of_low h])

theorem i3cCcc_of_no_address {code : Nat} (arg : Nat) (hlow : s.pwr.lowAt = none) (haddr : s.i3c.addr = none) (hne : code ≠ 0x07) :
    i3cCcc code arg s = s.say (.i3cAck false) := by
  unfold i3cCcc
  rw [if_neg (by simp [i3cAlive_of_power hlow])]
  split
  case h_1 => exact absurd rfl hne
  all_goals simp [i3cSet, i3cGet, haddr]

/-- The provisioned ID of a maker, a serial number and the places of the parts. The kernel would unfold sums of the numbers 2^32 and
2^33 to their successors: with the places as variables it has none to unfold. -/
def pidOf (maker : BitVec 15) (serial : BitVec 64) (a b c : Nat) : Nat := maker.toNat * a + b + serial.toNat % c

theorem pidOf_eq (maker : BitVec 15) (serial : BitVec 64) (a b c : Nat) :
    pidOf maker serial a b c = maker.toNat * a + b + serial.toNat % c := rfl

theorem i3cPid_eq_pidOf : i3cPid = pidOf Config.mipiId Config.serial (2 ^ 33) (2 ^ 32) (2 ^ 32) := rfl

theorem getPid_answers {b : Nat} (a : Nat) (hlow : s.pwr.lowAt = none) (haddr : s.i3c.addr = some b) :
    i3cCcc 0x8D a s = (s.say (.i3cAck true)).say
      (.i3c (beBytes 6 (Config.mipiId.toNat * 2 ^ 33 + 2 ^ 32 + Config.serial.toNat % 2 ^ 32))) := by
  rw [← pidOf_eq, ← i3cPid_eq_pidOf]
  unfold i3cCcc
  dsimp only
  rw [if_neg (by simp [i3cAlive_of_power hlow])]
  exact if_pos (by simp [haddr])

theorem readStatus {a : Nat} (hlow : s.pwr.lowAt = none) (haddr : s.i3c.addr = some a) (hsel : s.i3c.sel = 2) :
    i3cPrivateRead 1 s = ({ s with i3c := { s.i3c with sel := 3 } }.say (.i3cAck true)).say (.i3c [sbSts s]) := by
  rw [i3cPrivateRead_of_addressed 1 hlow haddr, i3cReadN, i3cReadByte_of_status hsel]
  rfl

/-- Settles O55: each access by the bytes it moves, the selection by induction over them. -/
theorem sidebandTarget : Obligations.SidebandTarget := by
  unfold Obligations.SidebandTarget
  refine ⟨?_, ?_, ?_, ?_, ?_, ?_, ?_, ?_, ?_, ?_, ?_, ?_, ?_, ?_, ?_, ?_, ?_⟩
  · intro s code a hlow
    obtain ⟨hp, hr, hm, hack⟩ := i3cCcc_answers code a hlow
    exact ⟨_, rfl, hp, hr, hm, hack⟩
  · intro s reg a bytes hlow haddr
    obtain ⟨⟨hregs, hout⟩, hsel, hkept⟩ := eachWriteByte_keeps bytes ({ s with i3c := { s.i3c with sel := reg % 256 } }.say (.i3cAck true))
      (Nat.mod_lt _ (by decide))
    refine ⟨_, congrArg (done s) (i3cPrivateWrite_of_addressed reg bytes hlow haddr), hsel.trans (Nat.mod_add_mod _ _ _), hregs, hout,
      fun hk => hkept fun k hlt => ?_⟩
    have := hk k hlt
    rwa [← Nat.mod_add_mod] at this
  · intro s n a hlow haddr
    have hrun := i3cPrivateRead_of_addressed n hlow haddr
    obtain ⟨⟨⟨hregs, hout⟩, hm, hl⟩, hlen, hsel⟩ := i3cReadN_keeps n s
    generalize i3cReadN n s = r at *
    refine ⟨_, r.1, congrArg (done s) hrun, hlen, ?_, hsel, hregs, hm, hl⟩
    rw [← hout]
    exact say_say_out (s := r.2) (.i3cAck true) (.i3c r.1)
  · intro s reg n bytes hlow haddr
    have hlive := i3cAlive_of_power hlow
    exact ⟨⟨_, congrArg (done s) (show i3cPrivateWrite reg bytes s = s.say (.i3cAck false) by simp [i3cPrivateWrite, hlive, haddr]),
        rfl, rfl, rfl⟩,
      ⟨_, congrArg (done s) (show i3cPrivateRead n s = s.say (.i3cAck false) by simp [i3cPrivateRead, hlive, haddr]), rfl, rfl, rfl⟩⟩
  · intro s v hlow
    obtain ⟨⟨hregs, hout⟩, hi, hl⟩ := sbLatchClr_keeps v s
    refine ⟨_, congrArg (done s) (if_pos (i3cAlive_of_power hlow)), hregs, hout, congrArg I3c.latchErr hi, hl.trans ?_⟩
    exact congrArg (s.pwr.latched && ·) (congrArg I3c.latchErr hi).symm
  · intro s a hlow haddr
    exact ⟨_, congrArg (done s) (show i3cCcc 0x07 a s = { s with i3c := { s.i3c with addr := some a } }.say (.i3cAck true) by
      simp [i3cCcc, i3cAlive_of_power hlow, i3cSet, haddr]), rfl, rfl⟩
  · intro s a b hlow haddr
    exact ⟨_, congrArg (done s) (show i3cCcc 0x06 a s = { s with i3c := { s.i3c with addr := none } }.say (.i3cAck true) by
      simp [i3cCcc, i3cAlive_of_power hlow, i3cSet, haddr]), rfl, rfl⟩
  · intro s a b hlow haddr
    exact ⟨_, congrArg (done s) (getPid_answers a hlow haddr), rfl, say_say_out _ _⟩
  · intro s a b hlow haddr hodd
    exact ⟨_, congrArg (done s) (show i3cCcc 0x80 a s = { s with i3c := { s.i3c with ibi := true } }.say (.i3cAck true) by
      simp [i3cCcc, i3cAlive_of_power hlow, i3cSet, haddr, bit, hodd]), rfl, rfl⟩
  · intro s code a hlow haddr hne
    exact ⟨_, congrArg (done s) (i3cCcc_of_no_address a hlow haddr hne), rfl, rfl⟩
  · intro s n code a reg m v bytes hlow
    have hdead := i3cAlive_of_low hlow
    exact ⟨⟨_, congrArg (done s) (i3cCcc_of_low code a hlow), rfl, rfl⟩,
      ⟨_, congrArg (done s) (show i3cPrivateWrite reg bytes s = s by simp [i3cPrivateWrite, hdead]), rfl, rfl, rfl⟩,
      ⟨_, congrArg (done s) (show i3cPrivateRead m s = s by simp [i3cPrivateRead, hdead]), rfl, rfl, rfl⟩,
      ⟨_, congrArg (done s) (if_neg (by simp [hdead])), rfl, rfl⟩⟩
  · intro s hlow hl hvin hm hpath hov hcold
    have hclear : clearsLatch 0xC3 s = true := by simp [clearsLatch, hl, hvin]
    have hmay : mayStart (unlatched s) = true := mayStart_of_good hm hpath rfl hov hcold hvin
    have hrun : (if i3cAlive s then sbLatchClr 0xC3 s else s) = startPath s.rst.cause (unlatched s) := by
      rw [if_pos (i3cAlive_of_power hlow), sbLatchClr_of_good hclear, if_pos hmay]
    obtain ⟨hmode, hpwr⟩ := startPath_begins s.rst.cause (unlatched s)
    have hi := (startPath_of_mayStart s.rst.cause hmay).2
    exact ⟨_, congrArg (done s) hrun, congrArg Pwr.latched hpwr, congrArg Pwr.fails hpwr, hmode, congrArg Pwr.path hpwr,
      congrArg I3c.latchErr hi⟩
  · intro s v hlow hbad
    have hclear : clearsLatch v s = false := by
      rcases hbad with h | h | h
      · exact clearsLatch_false_of_value h s
      · simp [clearsLatch, h]
      · simp [clearsLatch, h]
    exact ⟨_, congrArg (done s) ((if_pos (i3cAlive_of_power hlow)).trans (sbLatchClr_of_bad hclear)), rfl, rfl, rfl⟩
  · intro s reg a hlow haddr
    exact ⟨_, congrArg (done s) (i3cPrivateWrite_of_addressed reg [] hlow haddr), rfl, rfl, rfl⟩
  · intro s a v hlow haddr hv
    exact ⟨_, congrArg (done s) ((i3cPrivateWrite_of_addressed 0x0F [v] hlow haddr).trans (sbLatchClr_of_bad
      (clearsLatch_false_of_value hv _))), rfl, rfl⟩
  · intro s a hlow haddr hsel
    have hout := say_say_out (s := { s with i3c := { s.i3c with sel := 3 } }) (.i3cAck true) (.i3c [sbSts s])
    unfold sbSts at hout
    exact ⟨_, congrArg (done s) (readStatus hlow haddr hsel), rfl, hout⟩
  · intro s a hlow haddr hsel hvin
    have hrun := i3cPrivateRead_of_addressed 2 hlow haddr
    obtain ⟨hl, hsel', hp, hout⟩ := i3cReadN_of_vin hsel hvin
    generalize i3cReadN 2 s = r at *
    refine ⟨_, congrArg (done s) hrun, hsel', ?_, hp⟩
    rw [← hout, ← hl]
    exact say_say_out (s := r.2) (.i3cAck true) (.i3c r.1)

end Sys2Proof.Machine
end

section
/-! SUPPORT. A state that shows what O54 leaves open: the read of a counter whose memory word was struck. -/
namespace Sys2Proof.Machine

/-- A module in RUN whose event queue of module events raises its vector at the first event, and whose first Canopy counter has been
struck since its last read. -/
def struckCounter : State :=
  let s := State.reset |> wr (.evq 128) F.MQ_EVQ_VEC_INT_EN 1 |> wr (.evq 128) F.MQ_EVQ_CFG_INT_FIRST 1
  { s with
    mode := .run
    time := 1
    mq := { s.mq with mgmtUp := [0], msixTab := [(vecKey 0 0, 0)] }
    tel := { s.tel with struck := [ctrKey 1024 0] } }

/-- What left the module up to the state that a step reaches. -/
def Ans.outCount : Ans → Nat
  | .next t => t.out.length
  | _ => 0

/-- The read finds the parity error and raises its source, whose event raises the vector: a message goes out beside the data. -/
theorem outCount_bindWindowRead_struckCounter :
    Ans.outCount (exec (.bindWindowRead ⟨0, false⟩ ((Page.cnp 0).base + 0x840) 4) struckCounter) = 2 := by decide

/-- Refutes O54: a read of one word puts two items out where the word is a counter that was struck and the event of its fault source
raises a vector; the statement counts the words read alone. -/
theorem not_registerPages : ¬ Obligations.RegisterPages := by
  rintro ⟨-, -, -, -, -, -, -, -, hread, -⟩
  obtain ⟨t, ht, hout, -⟩ := hread struckCounter 0 ((Page.cnp 0).base + 0x840) 4 (by decide) (fun h => absurd h (by decide)) (by decide)
  have hcount := outCount_bindWindowRead_struckCounter
  rw [ht, Ans.outCount, hout] at hcount
  exact absurd hcount (by decide)

end Sys2Proof.Machine
end

section
/-! SUPPORT. A decision of a tile's scheduler in which one cell waits (05 R95, R97). -/
namespace Sys2Proof.Machine
variable {s t : State}

theorem count_core (pg : Page) (code n : Nat) (e : Attr) (s : State) : (count pg code n e s).core = s.core := by
  obtain ⟨x, hx⟩ := count_tel_only pg code n e s
  rw [hx]

theorem allocCell_cells (c : Cell) (s : State) :
    (allocCell c s).core.cells = s.core.cells ++ [{ c with id := s.core.nextId, arr := s.time }] := by
  unfold allocCell noteAlloc
  dsimp only
  rw [count_core, wr_core]

/-- The names and stages of the cells, in order. -/
def cellStages (s : State) : List (Nat × Stage) := s.core.cells.map fun x => (x.id, x.stage)

theorem cellStages_congr (h : t.core.cells = s.core.cells) : cellStages t = cellStages s := by rw [cellStages, h, cellStages]

theorem modFirst_ids {f : Cell → Cell} (hf : ∀ c, (f c).id = c.id ∧ (f c).stage = c.stage) (id : Nat) (l : List Cell) :
    (modFirst (fun c => c.id == id) f l).map (fun x => (x.id, x.stage)) = l.map fun x => (x.id, x.stage) := by
  induction l with
  | nil => rfl
  | cons c l ih =>
    unfold modFirst
    split
    · simp [hf c]
    · simp [ih]

theorem cellStages_stampZero (id : Nat) (s : State) : cellStages (stampZero id s) = cellStages s :=
  modFirst_ids (fun c => by split <;> exact ⟨rfl, rfl⟩) id s.core.cells

theorem modCell_cells (id : Nat) (f : Cell → Cell) (s : State) :
    (modCell id f s).core.cells = modFirst (fun c => c.id == id) f s.core.cells := rfl

theorem modCell_nextId (id : Nat) (f : Cell → Cell) (s : State) : (modCell id f s).core.nextId = s.core.nextId := rfl

/-- A lone cell that is stamped, with the stamps that it has then. -/
theorem stamp_lone {c : Cell} (h : s.core.cells = [c]) : ∃ l, (stamp c.id s).core.cells = [{ c with stamps := l }] := by
  have hmod : (stamp c.id s).core.cells = [if c.tagged then
      { c with stamps := c.stamps ++ [clocksSince s.draw.2 c.stamps (s.draw.1 % 13)] } else c] := by
    change modFirst _ _ s.core.cells = _
    rw [h, modFirst, if_pos (beq_self_eq_true c.id)]
    rfl
  rw [hmod]
  split
  · exact ⟨_, rfl⟩
  · exact ⟨c.stamps, rfl⟩

theorem stamp_nextId (id : Nat) (s : State) : (stamp id s).core.nextId = s.core.nextId := rfl

theorem postedGo_cells (stage : Nat) (c : Cell) (s : State) :
    (postedGo stage c s).core.cells = s.core.cells ∧ (postedGo stage c s).core.nextId = s.core.nextId := by
  unfold postedGo
  split <;> exact ⟨rfl, rfl⟩

/-- A lone cell that goes to an output of its tile moves, and its copy waits for it. -/
theorem cellStages_moveCell_lone {c : Cell} {p tile : Nat} (h : s.core.cells = [c]) (hinp : c.inp = .link p) (hallow : c.allow = .ing p)
    (hout : tileOf c.out = tile) : cellStages (moveCell tile c s) = [(c.id, .moving s.core.nextId), (s.core.nextId, .copy c.id)] := by
  have hb : c.barrierStage = 0 := by simp [Cell.barrierStage, hinp, hallow]
  obtain ⟨l, hl⟩ := stamp_lone h
  have hcell : cellOf (stamp c.id s) c.id = some { c with stamps := l } := by simp [cellOf, hl]
  have hnext := stamp_nextId c.id s
  unfold moveCell
  dsimp only
  rw [hb, show s.when (0 == 0) (stamp c.id) = stamp c.id s from rfl, hcell, Option.getD_some]
  generalize stamp c.id s = u at *
  dsimp only
  rw [if_pos hout]
  refine (when_keeps cellStages (cellStages_stampZero _) _ _).trans ?_
  rw [cellStages, allocCell_cells, modCell_cells, modCell_nextId, (postedGo_cells _ _ _).1, (postedGo_cells _ _ _).2]
  simp [modFirst, hl, hnext]

theorem movePtrs_cells (s0 : State) (tile : Nat) (acc : List MReq) (s : State) : (movePtrs s0 tile acc s).core.cells = s.core.cells := by
  unfold movePtrs
  refine each_keeps (fun u => u.core.cells) (fun r _ u => ?_) s
  rfl

/-- A cell of a port waits alone for an output of its tile that has room for it. -/
structure WaitsAlone (s : State) (p : Nat) (c : Cell) : Prop where
  cells : s.core.cells = [c]
  starve : s.core.starve = []
  rot : s.core.rot = []
  inp : c.inp = .link p
  allow : c.allow = .ing p
  stage : c.stage = .voq
  bad : c.bad = false
  hdr : c.hdrBad = false
  out : c.out < 512
  tc : c.tc < 4
  oc : c.oc = 3
  here : tileOf c.out = c.tile
  path : 1 ≤ linkPaths s p
  outPath : 1 ≤ linkPaths s c.out
  room : (canAllocate s c.tile (.egr c.out) c.tc).isSome = true
  limit : 1 ≤ rdf s (.cnp c.tile) F.CNP_SCHED_CFG_LOCAL_STARVE

/-- The request that such a cell makes. -/
def loneReq (p : Nat) (c : Cell) : MReq := ⟨.link p, c.out, c.tc, 3 * c.tc, 1⟩

section
variable {p : Nat} {c : Cell} (h : WaitsAlone s p c)
include h

theorem eligHeads_lone : eligHeads s c.tile = [c] := by
  have hbarrier : barrierOk s c.barrierStage c = true := by simp [barrierOk, h.oc]
  simp [eligHeads, voqHeads, h.cells, h.stage, h.bad, h.hdr, hbarrier, Nat.not_le.mpr h.out]

theorem requestable_lone : requestable s c.tile c.out c.tc = true := by simp [requestable, h.here, h.room]

theorem starved_lone : starved s c.tile (.link p) c.out = false := by
  have := h.limit
  simp [starved, h.starve, tget]
  omega

theorem requestsOf_lone : requestsOf s c.tile = [loneReq p c] := by
  have hcap : min 1 (capIn s c.tile (.link p)) = 1 := Nat.min_eq_left h.path
  simp [requestsOf, eligHeads_lone h, requestable_lone h, h.inp, starved_lone h, h.cells, h.stage, hcap, loneReq]

theorem pickCell_lone : pickCell s c.tile (.link p) c.out = some c := by
  have htc := h.tc
  have hclass : ([3, 2, 1, 0].find? fun tc => [c].any (·.tc == tc)) = some c.tc := by
    generalize hk : c.tc = k at htc
    interval_cases k <;> simp [hk]
  simp only [pickCell, eligHeads_lone h, List.filter_cons, h.inp, requestable_lone h, decide_true, beq_self_eq_true, Bool.and_self, if_true,
    List.filter_nil, hclass, h.rot]
  simp [tget, List.findSome?, List.range, List.range.loop, h.oc]

theorem grants_lone : grants c.tile [loneReq p c] ⟨s, [], [], 0, []⟩ = [loneReq p c] := by
  have hin : 0 < capIn s c.tile (.link p) := h.path
  have hne : linkPaths s c.out ≠ 0 := Nat.pos_iff_ne_zero.mp h.outPath
  have hout : capOut s c.tile c.out = linkPaths s c.out := if_pos h.here
  have hleft : min 1 (linkPaths s c.out) = 1 := Nat.min_eq_left h.outPath
  simp [grants, loneReq, tget, hin, sortKey, insKey, hout, hleft, hne]

theorem moveN_lone : ∃ u g, moveN c.tile (.link p) c.out 1 ⟨s, [], [], 0, []⟩ = (1, ⟨moveCell c.tile c s, u, g, 0, []⟩) := by
  have hin : 0 < capIn s c.tile (.link p) := h.path
  have hout : 0 < capOut s c.tile c.out := by rw [capOut, if_pos h.here]; exact h.outPath
  have hnone : ¬ (capIn s c.tile (.link p) ≤ 0 ∨ capOut s c.tile c.out ≤ 0) := by omega
  refine ⟨tput 0 (tput 0 [] (inKey (.link p)) 1) (outKey c.tile c.out) 1, [((Inp.link p).idx, c.out)], ?_⟩
  change (if capIn s c.tile (.link p) ≤ 0 ∨ capOut s c.tile c.out ≤ 0 then _ else _) = _
  rw [if_neg hnone]
  dsimp only
  rw [pickCell_lone h]
  rfl

theorem iteration_lone : (iteration true c.tile [loneReq p c] ⟨s, [], [], 0, []⟩).s.core.cells = (moveCell c.tile c s).core.cells := by
  obtain ⟨u, g, hmove⟩ := moveN_lone h
  have haccept : acceptOf true c.tile (.link p) [loneReq p c] ⟨s, [], [], 0, []⟩ =
      ⟨{ moveCell c.tile c s with core := { (moveCell c.tile c s).core with
        aptr := tput 0 (moveCell c.tile c s).core.aptr (aKey c.tile (.link p)) ((c.out + 1) % 1024) } }, u, g, 0, [loneReq p c]⟩ := by
    simp [acceptOf, loneReq, sortKey, insKey, hmove, State.when]
  unfold iteration
  rw [grants_lone h]
  change (movePtrs s c.tile _ (acceptOf true c.tile (.link p) [loneReq p c] ⟨s, [], [], 0, []⟩).s).core.cells = _
  rw [haccept, movePtrs_cells]

end

/-- Nothing is granted a move where no cell waits. -/
theorem moveN_of_none_waits (tile out n : Nat) (i : Inp) (m : Match) (h : ∀ x ∈ m.s.core.cells, x.stage ≠ .voq) :
    moveN tile i out n m = (0, m) := by
  have hvoq : (m.s.core.cells.filter fun x => x.tile == tile && decide (x.stage = .voq)) = [] := by
    simp only [List.filter_eq_nil_iff, Bool.and_eq_true, decide_eq_true_eq, not_and]
    exact fun x hx _ => h x hx
  have hpick : pickCell m.s tile i out = none := by simp [pickCell, eligHeads, voqHeads, hvoq]
  cases n with
  | zero => rfl
  | succ n =>
    unfold moveN
    dsimp only
    rw [hpick, ite_self]

theorem acceptOf_of_none_waits (tile : Nat) (i : Inp) (gs : List MReq) (m : Match) (h : ∀ x ∈ m.s.core.cells, x.stage ≠ .voq) :
    acceptOf false tile i gs m = m := by
  unfold acceptOf
  dsimp only
  generalize sortKey _ _ = l
  induction l with
  | nil => rfl
  | cons r l ih =>
    rw [List.foldl_cons, moveN_of_none_waits tile r.out r.n i m h]
    exact ih

theorem iteration_of_none_waits (tile : Nat) (reqs : List MReq) (m : Match) (h : ∀ x ∈ m.s.core.cells, x.stage ≠ .voq) :
    iteration false tile reqs m = m := by
  unfold iteration
  generalize grants tile reqs m = gs
  change List.foldl _ m (gs.map (·.inp)).dedup = m
  generalize (gs.map (·.inp)).dedup = l
  induction l with
  | nil => rfl
  | cons i l ih =>
    rw [List.foldl_cons, acceptOf_of_none_waits tile i gs m h]
    exact ih

theorem spoilHeads_nil (tile : Nat) (s : State) : spoilHeads tile [] s = s := by simp [spoilHeads]

theorem repeatsFirst_of_none (tile : Nat) (h : s.core.repeats = []) : repeatsFirst tile s = ⟨s, [], [], 0, []⟩ := by
  have hcore : { s.core with repeats := [] } = s.core := by rw [← h]
  simp [repeatsFirst, h, hcore]

theorem agentsFirst_lone (tile p : Nat) (c : Cell) (m : Match) : agentsFirst tile [loneReq p c] m = m := rfl

theorem agentsLast_lone (tile p : Nat) (c : Cell) (m : Match) : agentsLast tile [loneReq p c] m = m := rfl

/-- Settles O21: the one request is granted and accepted in the first iteration, and the others find no cell that waits. -/
theorem schedulerMatchesLoneCell : Obligations.SchedulerMatchesLoneCell := by
  unfold Obligations.SchedulerMatchesLoneCell
  intro s p c hdue hlive hrun hcells hrep hstarve _ _ hrot hinp hallow hstage hbad hhdr hout htc hoc hhere hpath houtPath _ hroom hlimit
  have h : WaitsAlone s p c :=
    ⟨hcells, hstarve, hrot, hinp, hallow, hstage, hbad, hhdr, hout, htc, hoc, hhere, hpath, houtPath, hroom, hlimit⟩
  have hports : [loneReq p c].filter (fun r => !r.inp.isAgent) = [loneReq p c] := rfl
  have hmoved := cellStages_moveCell_lone hcells hinp hallow hhere
  have hfirst := iteration_lone h
  have hnone : ∀ x ∈ (iteration true c.tile [loneReq p c] ⟨s, [], [], 0, []⟩).s.core.cells, x.stage ≠ .voq := by
    intro x hx hv
    rw [hfirst] at hx
    have hin := List.mem_map_of_mem (f := fun x : Cell => (x.id, x.stage)) hx
    rw [cellStages] at hmoved
    rw [hmoved] at hin
    simp [hv] at hin
  refine ⟨_, congrArg (done s) (dueThen_of_noneDue _ hdue), ?_⟩
  have hcells' : (schedDecision c.tile [] s).core.cells = (moveCell c.tile c s).core.cells := by
    unfold schedDecision
    rw [if_neg (by simp [hlive, hrun])]
    dsimp only
    rw [spoilHeads_nil, requestsOf_lone h, hports, repeatsFirst_of_none c.tile hrep, agentsFirst_lone,
      iteration_of_none_waits _ _ _ hnone, iteration_of_none_waits _ _ _ hnone, agentsLast_lone]
    exact hfirst
  rw [settled_core, hcells']
  exact hmoved

end Sys2Proof.Machine
end

section
/-! SUPPORT. Cells that close, that are confirmed at their egress and that arrive over a bundle (05 R84, R92, R97, R98, R107). -/
namespace Sys2Proof.Machine
variable {s t : State}

/-! ### Cells through a record of Skylight and through the credits returned -/

theorem skyDrop_core (reason : Nat) (s : State) : (skyDrop reason s).core = s.core := by
  have htold (u : State) : (if u.tel.dropRun then u
      else post 128 0x0031 [(16, reason), (20, skyDropVal u)] { u with tel := { u.tel with dropRun := true } }).core = u.core := by
    split
    · rfl
    · rw [post_core]
  exact (htold _).trans (bump_core ..)

theorem skyIssue_core (bytes : List Nat) (s : State) : (skyIssue bytes s).core = s.core := by
  unfold skyIssue
  dsimp only
  split_ifs
  · rfl
  · rw [post_core, wr_core]
  · rw [wr_core, say_core]

theorem skySettle_core (s : State) : (skySettle s).core = s.core := by
  unfold skySettle
  dsimp only
  split
  · rfl
  · exact each_keeps State.core (fun w _ u => skyDrop_core 0 { u with time := w.time }) _

theorem skyRecord_core (tile kind : Nat) (wasted discarded : Bool) (c : Cell) (s : State) :
    (skyRecord tile kind wasted discarded c s).core = s.core := by
  unfold skyRecord
  dsimp only
  split_ifs
  · exact skySettle_core s
  · rw [skyDrop_core, skySettle_core]
  · rw [skyIssue_core]
    exact skySettle_core s
  · exact skySettle_core s

theorem mirror_core (point id : Nat) (s : State) : (mirror point id s).core = s.core := by
  unfold mirror
  split
  · rfl
  · split
    · exact skyRecord_core ..
    · rfl

theorem returnCredits_core (lead : Nat) (s : State) : (returnCredits lead s).core = s.core := by
  unfold returnCredits
  dsimp only
  split_ifs
  · rfl
  · exact (each_keeps State.core (fun p _ u => say_core u _) _).trans (setLink_core ..)

theorem returnOwed_core (tile : Nat) (s : State) : (returnOwed tile s).core = s.core :=
  each_keeps State.core (fun l _ u => returnCredits_core l u) s

/-! ### Lone cells -/

theorem cellOf_lone {c : Cell} (h : s.core.cells = [c]) : cellOf s c.id = some c := by simp [cellOf, h]

theorem toTail_lone {c : Cell} (f : Cell → Cell) (h : s.core.cells = [c]) : (toTail c.id f s).core.cells = [f c] := by
  unfold toTail
  rw [cellOf_lone h]
  change dropFirst _ s.core.cells ++ _ = _
  rw [h, dropFirst, if_pos (beq_self_eq_true c.id)]
  rfl

/-- The cell that joins its VOQ: the same one, at that stage. -/
theorem linkVoq_lone {c : Cell} (h : s.core.cells = [c]) : cellStages (linkVoq c.id s) = [(c.id, .voq)] := by
  unfold linkVoq
  rw [cellOf_lone h]
  dsimp only
  split
  all_goals exact congrArg (List.map fun x : Cell => (x.id, x.stage)) (toTail_lone _ (by exact h))

theorem closeOpen_lone {p : Nat} {c : Cell} (h : s.core.cells = [c]) (hinp : c.inp = .link p) (hopen : c.isOpen = true)
    (hstage : c.stage = .opened) : cellStages (closeOpen p s) = [(c.id, .voq)] := by
  have hfound : openedOf s p = some c := by simp [openedOf, h, hinp, hopen]
  have hclosed : (modCell c.id (fun c => { c with isOpen := false }) s).core.cells = [{ c with isOpen := false }] := by
    rw [modCell_cells, h, modFirst, if_pos (beq_self_eq_true c.id)]
  obtain ⟨l, hl⟩ := stamp_lone hclosed
  unfold closeOpen
  rw [hfound]
  dsimp only
  rw [cellEligible, if_pos hstage, cellStages_congr (congrArg Core.cells (mirror_core ..))]
  exact linkVoq_lone (c := { c with isOpen := false, stamps := l }) hl

/-! ### A transfer that is confirmed -/

/-- What a copy for the egress of a link takes from the cell that it was made of, when the transfer is good. -/
def Cell.confirmed (c d : Cell) (o : Nat) : Cell :=
  { d with
    allow := .egr o, fwds := c.fwds, homes := c.homes, rsps := c.rsps, tags := c.tags, sizes := c.sizes, slots := c.slots
    words := c.words, xor := c.xor, pois := c.pois }

theorem joinQueue_core (id : Nat) (d : Cell) (s : State) :
    (joinQueue id d s).core = (toTail id (fun _ => { d with stage := .egress }) s).core := by
  unfold joinQueue
  dsimp only
  split <;> rfl

theorem owe_core (lead : Nat) (l : List Nat) (s : State) : (owe lead l s).core = s.core := modLink_core ..

theorem grpDone_cells (g : Nat) (s : State) :
    (grpDone g s).core.cells = s.core.cells ∧ (grpDone g s).core.doneHeld = s.core.doneHeld := by
  unfold grpDone
  split
  · exact ⟨rfl, rfl⟩
  · split
    · exact ⟨rfl, rfl⟩
    · rw [owe_core]
      exact ⟨rfl, rfl⟩

/-- A cell that is freed leaves what else there is, when no message waits for a cell. -/
theorem freeCell_cells {c : Cell} {l : List Cell} (h : s.core.cells = c :: l) (hl : ∀ x ∈ l, x.inUse = true) :
    (freeCell c.id s).core.cells = l ∧ (freeCell c.id s).core.doneHeld = s.core.doneHeld := by
  have hfound : cellOf s c.id = some c := by simp [cellOf, h]
  have hdrop : dropFirst (fun x : Cell => x.id == c.id) s.core.cells = l := by
    rw [h, dropFirst, if_pos (beq_self_eq_true c.id)]
  have hwait (u : State) (hu : u.core.cells = l ∧ u.core.doneHeld = s.core.doneHeld) :
      (returnOwed c.tile (u.each (u.core.cells.filter fun x => !x.inUse && x.tile == c.tile) takeWaiting)).core.cells = l ∧
      (returnOwed c.tile (u.each (u.core.cells.filter fun x => !x.inUse && x.tile == c.tile) takeWaiting)).core.doneHeld =
        s.core.doneHeld := by
    have hnone : (u.core.cells.filter fun x => !x.inUse && x.tile == c.tile) = [] := by
      simp only [hu.1, List.filter_eq_nil_iff, Bool.and_eq_true, Bool.not_eq_true', not_and]
      exact fun x hx hn => absurd (hl x hx) (by simp [hn])
    rw [hnone, returnOwed_core]
    exact hu
  unfold freeCell
  rw [hfound]
  refine hwait _ ?_
  split
  · rw [(grpDone_cells _ _).1, (grpDone_cells _ _).2, hdrop]
    exact ⟨rfl, rfl⟩
  · rw [owe_core, hdrop]
    exact ⟨rfl, rfl⟩
  · exact ⟨hdrop, rfl⟩

/-- A copy joins its egress queue: it is the same cell at that stage, behind the cells that are no part of it. -/
theorem joinQueue_pair {c d : Cell} (d' : Cell) (h : s.core.cells = [c, d]) (hne : c.id ≠ d.id) :
    (joinQueue d.id d' s).core = { s.core with cells := [c, { d' with stage := .egress }] } := by
  have hfound : cellOf s d.id = some d := by simp [cellOf, h, hne]
  rw [joinQueue_core]
  unfold toTail
  rw [hfound]
  simp [h, dropFirst, hne]

theorem stamp_pair {c d : Cell} (h : s.core.cells = [c, d]) (hne : c.id ≠ d.id) :
    ∃ l, (stamp d.id s).core = { s.core with cells := [c, { d with stamps := l }] } := by
  have hcore : (stamp d.id s).core = { s.core with cells := (stamp d.id s).core.cells } := rfl
  have hmod : (stamp d.id s).core.cells = [c, if d.tagged then
      { d with stamps := d.stamps ++ [clocksSince s.draw.2 d.stamps (s.draw.1 % 13)] } else d] := by
    change modFirst _ _ s.core.cells = _
    rw [h, modFirst, if_neg (by simpa using hne), modFirst, if_pos (beq_self_eq_true d.id)]
    rfl
  rw [hcore, hmod]
  split
  · exact ⟨_, rfl⟩
  · exact ⟨d.stamps, rfl⟩

theorem unsure_congr {c : Cell} (h : t.core.grps = s.core.grps) : unsure t c = unsure s c := by
  unfold unsure grpOf
  rw [h]

/-- The state before a move is confirmed, with the cell no longer among those held. -/
def letGo (c : Cell) (s : State) : State := { s with core := { s.core with doneHeld := s.core.doneHeld.filter (· != c.id) } }

theorem confirmMove_pair {c d : Cell} {o : Nat} (h : s.core.cells = [c, d]) (hne : c.id ≠ d.id) (hegr : d.allow = .egr o)
    (hsure : unsure s c = false) (hkept : dropsAtHost s d = false) :
    (confirmMove c d.id s).core.cells.map (fun x => (x.id, x.stage, x.fwds)) = [(d.id, .egress, c.fwds)] ∧
      (confirmMove c d.id s).core.doneHeld = s.core.doneHeld.filter (· != c.id) := by
  have hfound : cellOf (letGo c s) d.id = some d := by simp [letGo, cellOf, h, hne]
  have hjoin := joinQueue_pair (s := letGo c s) (c.confirmed d o) h hne
  obtain ⟨l, hl⟩ := stamp_pair (congrArg Core.cells hjoin) hne
  have hcore := (mirror_core 1 d.id _).trans hl
  rw [hjoin] at hcore
  have hmove : confirmMove c d.id s = freeCell c.id (mirror 1 d.id (stamp d.id (joinQueue d.id (c.confirmed d o) (letGo c s)))) := by
    have hdrop : dropsAtHost (letGo c s) (c.confirmed d o) = false := hkept
    have hunsure : unsure (mirror 1 d.id (stamp d.id (joinQueue d.id (c.confirmed d o) (letGo c s)))) c = false :=
      (unsure_congr (congrArg Core.grps hcore :)).trans hsure
    unfold confirmMove
    change (let u := match cellOf (letGo c s) d.id with
      | none => letGo c s
      | some d => _
      if unsure u c then _ else freeCell c.id u) = _
    simp only [hfound, hegr]
    have hwhen : (mirror 1 d.id (stamp d.id (joinQueue d.id (c.confirmed d o) (letGo c s)))).when
        (dropsAtHost (letGo c s) (c.confirmed d o)) (discardCell d.id) =
        mirror 1 d.id (stamp d.id (joinQueue d.id (c.confirmed d o) (letGo c s))) := by
      rw [hdrop]
      rfl
    refine (if_neg (c := unsure (State.when _ _ _) c = true) fun htrue => ?_).trans (congrArg (freeCell c.id) hwhen)
    exact Bool.false_ne_true (hunsure.symm.trans ((congrArg (unsure · c) hwhen).symm.trans htrue))
  obtain ⟨hcells, hheld⟩ := freeCell_cells (congrArg Core.cells hcore) (by simp [Cell.inUse])
  exact ⟨congrArg (List.map fun x : Cell => (x.id, x.stage, x.fwds)) ((congrArg (fun x : State => x.core.cells) hmove).trans hcells),
    (congrArg (fun x : State => x.core.doneHeld) hmove).trans (hheld.trans (congrArg Core.doneHeld hcore))⟩

theorem confirmHeld_of_none (h : s.core.doneHeld = []) : confirmHeld s = s := by
  unfold confirmHeld
  rw [h]
  rfl

theorem transferGood_pair {c d : Cell} {o : Nat} (h : s.core.cells = [c, d]) (hne : c.id ≠ d.id) (hbad : c.bad = false)
    (hmoving : c.stage = .moving d.id) (hcopy : d.stage = .copy c.id) (hegr : d.allow = .egr o) (hsure : unsure s c = false)
    (hkept : dropsAtHost s d = false) :
    (transferGood c.id s).core.cells.map (fun x => (x.id, x.stage, x.fwds)) = [(d.id, .egress, c.fwds)] ∧
      (transferGood c.id s).core.doneHeld = s.core.doneHeld.filter (· != c.id) := by
  have hfound : cellOf s c.id = some c := by simp [cellOf, h]
  have hfree : heldBehind s c d.id = false := by simp [heldBehind, h, hcopy]
  unfold transferGood
  rw [hfound]
  dsimp only
  rw [hmoving]
  dsimp only
  rw [if_neg (by simp [hbad, hfree])]
  exact confirmMove_pair h hne hegr hsure hkept

/-! ### Arrivals -/

/-- The arrival that is due and is confirmed is linked, and the number after it is due. -/
theorem linkArrivals_lone {tile peer : Nat} {c : Cell} (h : s.core.cells = [c]) (htile : c.tile = tile) (hallow : c.allow = .arr peer)
    (hstage : c.stage = .unlinked) (hdue : tget 0 s.core.bseqRx (8 * tile + peer) = c.bseq) (hlast : c.bseq < 1023) :
    cellStages (linkArrivals tile peer 1 s) = [(c.id, .voq)] ∧
      tget 0 (linkArrivals tile peer 1 s).core.bseqRx (8 * tile + peer) = c.bseq + 1 := by
  have harr : arrivals s peer tile = [c] := by simp [arrivals, h, htile, hallow]
  obtain ⟨l, hl⟩ := stamp_lone h
  have htail := toTail_lone (fun x => { x with stage := .voq }) hl
  unfold linkArrivals
  dsimp only
  rw [harr]
  split
  case h_1 hnone => simp [hdue, hstage] at hnone
  case h_2 x hsome =>
    obtain rfl : x = c := List.mem_singleton.mp (List.mem_of_find?_eq_some hsome)
    rw [if_pos hstage, linkArrivals]
    refine ⟨congrArg (List.map fun x : Cell => (x.id, x.stage)) htail, (tget_tput_same ..).trans ?_⟩
    rw [hdue]
    omega

/-- Settles O20: each by the cells that it leaves. -/
theorem cellsMove : Obligations.CellsMove := by
  unfold Obligations.CellsMove
  refine ⟨?_, ?_, ?_⟩
  · intro s p c hdue hlive hcells hinp hopen hstage
    refine ⟨_, congrArg (done s) ((dueThen_of_noneDue _ hdue).trans (if_neg (by simp [hlive]))), ?_⟩
    exact closeOpen_lone hcells hinp hopen hstage
  · intro s c d o rx hdue hlive hcells hne hbad hmoving hcopy hegr hheld hsure hkept hrx
    have hfound : cellOf s c.id = some c := by simp [cellOf, hcells]
    have hrun : cellTransferDone c.id rx s = confirmHeld (transferGood c.id s) := by
      unfold cellTransferDone
      rw [if_neg (by simp [hlive]), hfound]
      exact if_pos hrx
    obtain ⟨hmoved, hnone⟩ := transferGood_pair hcells hne hbad hmoving hcopy hegr hsure hkept
    rw [hheld] at hnone
    exact ⟨_, congrArg (done s) ((dueThen_of_noneDue _ hdue).trans (hrun.trans (confirmHeld_of_none hnone))), hmoved⟩
  · intro s tile peer c hdue hlive hcells htile hallow hstage hnext hlast hsent
    have hlink := linkArrivals_lone hcells htile hallow hstage hnext hlast
    have hrun : bundleArrival tile peer s = linkArrivals tile peer 1 s := by
      unfold bundleArrival
      rw [if_neg (by simp [hlive]), hsent, hnext, show (c.bseq + 1 + 1024 - c.bseq) % 1024 = 1 from by omega]
    obtain ⟨hstages, hrx⟩ := hlink
    generalize linkArrivals tile peer 1 s = u at *
    exact ⟨_, congrArg (done s) ((dueThen_of_noneDue _ hdue).trans hrun), hstages, hrx⟩

end Sys2Proof.Machine
end

section
/-! SUPPORT. A good flit with one message, from its first symbol to the cell that holds the message (04 R69, R70; 05 R83, R84). -/
namespace Sys2Proof.Machine
variable {s t : State}

/-! ### Up to the judgement -/

/-- A field of a register in which a reception counts nothing before its judgement. -/
abbrev RxFld (f : Fld) : Prop :=
  AsideFld f ∧ f.off % 4 = 0 ∧ f.off < 0x1000 ∧ f.lo < 32 ∧ F.LNK_FEC_CNT_FEC_CORR.off ≠ f.off ∧ F.LNK_STOMP_CNT_LATE_MARK.off ≠ f.off

/-- What a reception leaves up to its judgement, when no cell is there. -/
structure RxKept (s t : State) : Prop where
  core : t.core = s.core
  maps : t.maps = s.maps
  rd : ∀ pg f, AsidePage pg → RxFld f → rd t pg f = rd s pg f

namespace RxKept

theorem refl (s : State) : RxKept s s := ⟨rfl, rfl, fun _ _ _ _ => rfl⟩

theorem trans {u : State} (h : RxKept s t) (g : RxKept t u) : RxKept s u :=
  ⟨g.core.trans h.core, g.maps.trans h.maps, fun pg f hp hf => (g.rd pg f hp hf).trans (h.rd pg f hp hf)⟩

theorem ports (x : Ports) (s : State) : RxKept s (setPorts x s) := ⟨rfl, rfl, fun _ _ _ _ => rfl⟩

theorem modLink (p : Nat) (f : LinkS → LinkS) (s : State) : RxKept s (modLink p f s) := ports _ s

theorem wr {pg : Page} {f : Fld} (v : Nat) (s : State) (hf : f.off = F.LNK_FEC_CNT_FEC_CORR.off ∨ f.off = F.LNK_STOMP_CNT_LATE_MARK.off)
    (hlo : f.lo < 32) : RxKept s (wr pg f v s) := by
  refine ⟨rfl, rfl, fun pg' g _ hg => ?_⟩
  obtain ⟨-, hoff, hlt, hglo, hfec, hstomp⟩ := hg
  have hne : f.off ≠ g.off := by rcases hf with h | h <;> rw [h] <;> assumption
  have hplace : f.off % 4 = 0 ∧ f.off < 0x1000 := by rcases hf with h | h <;> rw [h] <;> decide
  exact rd_wr_off v s ⟨hplace.1, hplace.2, hlo⟩ ⟨hoff, hlt, hglo⟩ hne

theorem of_cellStep (h : CellStep s t) (hcore : t.core = s.core) : RxKept s t :=
  ⟨hcore, h.maps, fun pg f hp hf => h.beside.aside.rd pg f hp hf.1⟩

end RxKept

theorem openedOf_of_none {p : Nat} (h : s.core.cells = []) : openedOf s p = none := by simp [openedOf, h]

theorem closeOpen_of_none {p : Nat} (h : s.core.cells = []) : closeOpen p s = s := by
  unfold closeOpen
  rw [openedOf_of_none h]

theorem endFlit_core (p : Nat) (s : State) : (endFlit p s).core = s.core := by
  unfold endFlit
  split
  · rfl
  · rw [returnOwed_core, modLink_core]

theorem rxKept_endFlit (p : Nat) (s : State) : RxKept s (endFlit p s) := .of_cellStep (CellStep.endFlit p s) (endFlit_core p s)

theorem rxKept_markGrp (g : Nat) (h : s.core.cells = []) : RxKept s (markGrp g s) := by
  have hcells (f : Cell → Cell) : { s.core with cells := s.core.cells.map f } = s.core := by
    rw [h, List.map_nil, ← h]
  have houts : markGrp g s = bumpBy (.lnk (((grpOf s g).map (·.lead)).getD 0)) F.LNK_STOMP_CNT_LATE_MARK 0 s := by
    unfold markGrp
    dsimp only
    rw [hcells, h]
    rfl
  rw [houts]
  exact .wr _ s (.inr rfl) (by decide)

theorem rxKept_dropHalf (p : Nat) (h : s.core.cells = []) : RxKept s (dropHalf p s) := by
  unfold dropHalf
  split
  · exact .refl s
  · rw [closeOpen_of_none (by exact h)]
    exact (RxKept.modLink ..).trans ((rxKept_markGrp _ (by exact h)).trans (rxKept_endFlit ..))

theorem rxKept_tagDraw (p : Nat) (s : State) : RxKept s (tagDraw p s).2 := by
  obtain ⟨x, hx⟩ := tagDraw_ports_only p s
  rw [hx]
  exact .ports x s

theorem rxKept_heardFlit (p : Nat) (f : Flit) (s : State) : RxKept s (heardFlit p f s) :=
  (RxKept.wr _ s (.inl rfl) (by decide)).trans (.modLink ..)

theorem asidePage_lnk (p : Nat) : AsidePage (.lnk p) := by
  have hevq : (Page.evq 128).base ≠ (Page.lnk p).base := by
    simp only [Page.base, portBase, tileBase, if_true]
    omega
  refine ⟨hevq, ?_, fun n => ⟨?_, ?_⟩⟩ <;> simp only [Page.base, portBase, tilePage, tileBase] <;> omega

/-- A flit judged good: the number after its own is due. -/
def judgedGood (p : Nat) (f : Flit) (s : State) : State :=
  wr (.lnk p) F.LNK_SEQ_STS_NEXT_RX ((rd s (.lnk p) F.LNK_SEQ_STS_NEXT_RX + 1) % 1024) (heardFlit p f s)

theorem rd_heardFlit_next (p : Nat) (f : Flit) (s : State) :
    rd (heardFlit p f s) (.lnk p) F.LNK_SEQ_STS_NEXT_RX = rd s (.lnk p) F.LNK_SEQ_STS_NEXT_RX :=
  (rxKept_heardFlit p f s).rd _ _ (asidePage_lnk p) (by decide)

theorem rxJudge_of_good {p : Nat} {f : Flit} (hphase : f.phase = 0) (hcrc1 : f.crc1 = true) (hcrc2 : f.crc2 = true)
    (hfec : f.fecFail = false) (hseq : f.seq % 1024 = rd s (.lnk p) F.LNK_SEQ_STS_NEXT_RX) :
    rxJudge p f s = (.good, judgedGood p f s) := by
  have hnext := rd_heardFlit_next p f s
  have hzero : (rd s (.lnk p) F.LNK_SEQ_STS_NEXT_RX + 1024 - f.seq % 1024) % 1024 = 0 := by rw [hseq]; omega
  have hgood : rxSeq p f (heardFlit p f s) = (.good, judgedGood p f s) := by
    unfold rxSeq
    dsimp only
    rw [hnext, if_pos hzero]
    rfl
  unfold rxJudge
  dsimp only
  rw [hphase, hcrc1, hcrc2, hfec, if_neg (by decide), if_neg (by simp), if_neg (by simp), if_neg (by simp), if_neg (by simp)]
  exact hgood

theorem countMsg_tel_only (p : Nat) (m : RxMsg) (s : State) : ∃ x, countMsg p m s = { s with tel := x } := by
  obtain ⟨x, hx⟩ := count_tel_only (.ing p) 0x01 1 { Attr.none with pa := some m.part, po := some p, t := some m.tc, o := some m.oc } s
  obtain ⟨y, hy⟩ := count_tel_only (.ing p) 0x02 m.slots { Attr.none with pa := some m.part, po := some p, t := some m.tc, o := some m.oc }
    { s with tel := x }
  exact ⟨y, by rw [countMsg, hx]; exact hy⟩

/-- The state in which the messages of a good flit are used. -/
def rxReady (p : Nat) (f : Flit) (x : Ports) (y : Tel) (s : State) : State := { judgedGood p f s with ports := x, tel := y }

theorem restoreTc_congr (h : t.maps = s.maps) : restoreTc t = restoreTc s := by
  funext p m
  unfold restoreTc
  rw [h]

theorem eachCountMsg_tel_only (p : Nat) (l : List RxMsg) (s : State) : ∃ x, s.each l (countMsg p) = { s with tel := x } :=
  each_tel_only (countMsg_tel_only p) l s

/-- A good whole flit comes to the use of its messages. -/
theorem flitReceive_of_good {p draw : Nat} {f : Flit} (hcan : canReceive s p = true) (hcells : s.core.cells = []) (hphase : f.phase = 0)
    (hcrc1 : f.crc1 = true) (hcrc2 : f.crc2 = true) (hfec : f.fecFail = false)
    (hseq : f.seq % 1024 = rd s (.lnk p) F.LNK_SEQ_STS_NEXT_RX) :
    ∃ u x y t0 keep, RxKept s u ∧ flitReceive p f draw s = rxCells .good p (f.seq % 1024) t0 none keep
      (placed { f with msgs := f.msgs.map (restoreTc s p) }) (rxReady p f x y u) := by
  have hkept : RxKept s (tagDraw p (dropHalf p s)).2 := (rxKept_dropHalf p hcells).trans (rxKept_tagDraw ..)
  have hwhen : s.when (f.phase != 2) (dropHalf p) = dropHalf p s := by rw [hphase]; rfl
  have hjudge := rxJudge_of_good hphase hcrc1 hcrc2 hfec
    (hseq.trans (hkept.rd (.lnk p) F.LNK_SEQ_STS_NEXT_RX (asidePage_lnk p) (by decide)).symm)
  generalize hu : (tagDraw p (dropHalf p s)).2 = u at hkept hjudge
  obtain ⟨x, hx⟩ := takeAgain_ports_only p (f.seq % 1024) f (judgedGood p f u)
  have hmaps : (setPorts x (judgedGood p f u)).maps = s.maps := hkept.maps
  obtain ⟨y, hy⟩ := eachCountMsg_tel_only p ((newMsgs (setPorts x (judgedGood p f u)) p (f.seq % 1024) .good
    (takeAgain p (f.seq % 1024) f (judgedGood p f u)).1 (placed { f with msgs := f.msgs.map (restoreTc s p) })).filter isRspMsg)
    (setPorts x (judgedGood p f u))
  refine ⟨u, x, y, rxT0 (tagDraw p (dropHalf p s)).1 draw u, (takeAgain p (f.seq % 1024) f (judgedGood p f u)).1, hkept, ?_⟩
  unfold flitReceive
  rw [hcan, if_neg nofun]
  dsimp only
  rw [hwhen, if_neg (by rw [hphase]; decide), hu, hjudge]
  dsimp only
  rw [hx, restoreTc_congr hmaps, hy]
  rfl

/-! ### A flit of a trunk for a port of this module (04 R78, R79) -/

theorem cfgSame_of_rxKept (h : RxKept s t) : CfgSame s t where
  role p := h.rd _ _ (asidePage_phy p) (by decide)
  width p := h.rd _ _ (asidePage_phy p) (by decide)
  hpart p := h.rd _ _ (asidePage_phy p) (by decide)
  run p := h.rd _ _ (asidePage_phy p) (by decide)

theorem cfgSame_judgedGood (p : Nat) (f : Flit) (s : State) : CfgSame s (judgedGood p f s) :=
  (cfgSame_of_rxKept (rxKept_heardFlit p f s)).trans
    ⟨fun _ => rd_wr_off _ _ (by decide) (by decide) (by decide), fun _ => rd_wr_off _ _ (by decide) (by decide) (by decide),
      fun _ => rd_wr_off _ _ (by decide) (by decide) (by decide), fun _ => rd_wr_off _ _ (by decide) (by decide) (by decide)⟩

theorem modid_judgedGood (p : Nat) (f : Flit) (s : State) : modid (judgedGood p f s) = modid s :=
  (rd_wr_off _ _ (by decide) (by decide) (by decide)).trans
    ((rxKept_heardFlit p f s).rd .trnk F.TRNK_MOD_CFG_MODID (asidePage_of_base (by decide) (by decide)) (by decide))

/-- A flit that is delivered is so wherever the roles, the run states and the module's number are the same. -/
theorem trunkJudge_of_deliver {h : DWord} (hcfg : CfgSame s t) (hmod : modid t = modid s) {x : Nat}
    (hdeliver : trunkJudge s h = .deliver x) : trunkJudge t h = .deliver x := by
  have hhas : hasModid t = hasModid s := by rw [hasModid, hmod, hasModid]
  unfold trunkJudge at hdeliver ⊢
  rw [hhas, hmod, hcfg.isLead, hcfg.roleOf, hcfg.linkRun]
  split_ifs at hdeliver ⊢ with h1 h2 h3 h4 h5
  · split at hdeliver <;> cases hdeliver
  · exact hdeliver

/-- A message as it goes on toward the port that its routing header names. -/
def toPort (h : DWord) (m : RxMsg) : RxMsg :=
  { m with out := hdrPort h, part := hdrPart h, tc := hdrTc h, dmod := 0, dport := 0 }

theorem trunkFlitReceive_of_good {p clk : Nat} {f : Flit} {h : DWord} (w : Upset) (hcan : canReceive s p = true) (hcells : s.core.cells = [])
    (hphase : f.phase = 0) (hcrc1 : f.crc1 = true) (hcrc2 : f.crc2 = true) (hfec : f.fecFail = false)
    (hseq : f.seq % 1024 = rd s (.lnk p) F.LNK_SEQ_STS_NEXT_RX) (hdeliver : trunkJudge s h = .deliver (hdrPort h)) :
    ∃ u x y t0 keep, RxKept s u ∧ trunkFlitReceive p h f ⟨none, w, clk⟩ s = rxCells .good p (f.seq % 1024) t0 (some h) keep
      ((placed f).map fun q => { q with m := toPort h q.m }) (rxReady p f x y u) := by
  have hkept : RxKept s (tagDraw p (dropHalf p s)).2 := (rxKept_dropHalf p hcells).trans (rxKept_tagDraw ..)
  have hwhen : s.when (f.phase != 2) (dropHalf p) = dropHalf p s := by rw [hphase]; rfl
  have hdraw : (if f.phase = 2 then (false, dropHalf p s) else tagDraw p (dropHalf p s)) = tagDraw p (dropHalf p s) :=
    if_neg (by rw [hphase]; decide)
  have hjudge := rxJudge_of_good hphase hcrc1 hcrc2 hfec
    (hseq.trans (hkept.rd (.lnk p) F.LNK_SEQ_STS_NEXT_RX (asidePage_lnk p) (by decide)).symm)
  generalize hu : (tagDraw p (dropHalf p s)).2 = u at hkept hjudge
  obtain ⟨x, hx⟩ := takeAgain_ports_only p (f.seq % 1024) f (judgedGood p f u)
  have hact : trunkJudge (setPorts x (judgedGood p f u)) h = .deliver (hdrPort h) :=
    trunkJudge_of_deliver (t := setPorts x (judgedGood p f u)) (((cfgSame_of_rxKept hkept).trans (cfgSame_judgedGood p f u)).trans (CfgSame.of_regs rfl))
      ((modid_judgedGood p f u).trans (hkept.rd .trnk F.TRNK_MOD_CFG_MODID (asidePage_of_base (by decide) (by decide)) (by decide))) hdeliver
  obtain ⟨y, hy⟩ := eachCountMsg_tel_only p (newMsgs (setPorts x (judgedGood p f u)) p (f.seq % 1024) .good
    (takeAgain p (f.seq % 1024) f (judgedGood p f u)).1 (placed f)) (setPorts x (judgedGood p f u))
  refine ⟨u, x, y, rxT0 (tagDraw p (dropHalf p s)).1 clk u, (takeAgain p (f.seq % 1024) f (judgedGood p f u)).1.map (toPort h), hkept, ?_⟩
  unfold trunkFlitReceive
  rw [hcan, if_neg nofun]
  dsimp only
  rw [hwhen, hdraw, hu, hjudge]
  dsimp only
  rw [hx, if_neg nofun, hact]
  dsimp only
  rw [hy]
  rfl

/-! ### The one cell of a message -/

/-- What of a message its cell shows. -/
def Cell.carries (c : Cell) (m : RxMsg) : Prop := (c.out, c.part, c.tc, c.oc, c.tags) = (m.out, m.part, m.tc, m.oc, [m.tag])

/-- One cell is there, which holds a message. -/
def HoldsOne (m : RxMsg) (s : State) : Prop := ∃ c, s.core.cells = [c] ∧ c.carries m

theorem HoldsOne.congr {m : RxMsg} (h : HoldsOne m s) (hcells : t.core.cells = s.core.cells) : HoldsOne m t := by
  obtain ⟨c, hc, hm⟩ := h
  exact ⟨c, hcells.trans hc, hm⟩

theorem takeCell_of_none (c : Cell) (h : s.core.cells = []) :
    ∃ i a r g, (takeCell c s).core.cells = [{ c with id := i, arr := a, tc3r := r, stage := g }] := by
  unfold takeCell
  split
  · have hcells : (useCredit c s).core.cells = [] := by
      unfold useCredit
      split
      · rw [modLink_core, h]
      · exact h
    rw [allocCell_cells, hcells]
    exact ⟨_, _, _, c.stage, rfl⟩
  · exact ⟨s.core.nextId, s.time, c.tc3r, .waiting, by rw [h]; rfl⟩

theorem holdsOne_openCell (p : Nat) (x : RxInfo) (q : Placed) (h : s.core.cells = []) : HoldsOne q.m (openCell p x [q] s) := by
  unfold openCell
  dsimp only
  obtain ⟨i, a, r, g, hc⟩ := takeCell_of_none _ h
  exact ⟨_, hc, rfl⟩

theorem holdsOne_linkVoq {m : RxMsg} {c : Cell} (h : s.core.cells = [c]) (hm : c.carries m) : HoldsOne m (linkVoq c.id s) := by
  unfold linkVoq
  rw [cellOf_lone h]
  dsimp only
  split
  all_goals exact ⟨_, toTail_lone _ (by exact h), hm⟩

theorem holdsOne_cellEligible {m : RxMsg} {c : Cell} (h : s.core.cells = [c]) (hm : c.carries m) : HoldsOne m (cellEligible c s) := by
  unfold cellEligible
  split
  · obtain ⟨l, hl⟩ := stamp_lone h
    exact (holdsOne_linkVoq (c := { c with stamps := l }) hl hm).congr (congrArg Core.cells (mirror_core ..))
  · exact ⟨c, h, hm⟩

theorem openedOf_lone {p : Nat} {c d : Cell} (h : s.core.cells = [c]) (hd : openedOf s p = some d) : d = c :=
  List.mem_singleton.mp (h ▸ List.mem_of_find?_eq_some hd)

theorem holdsOne_closeOpen {m : RxMsg} (p : Nat) (h : HoldsOne m s) : HoldsOne m (closeOpen p s) := by
  obtain ⟨c, hc, hm⟩ := h
  unfold closeOpen
  split
  case h_1 => exact ⟨c, hc, hm⟩
  case h_2 d hd =>
    obtain rfl := openedOf_lone hc hd
    have hclosed : (modCell d.id (fun c => { c with isOpen := false }) s).core.cells = [{ d with isOpen := false }] := by
      rw [modCell_cells, hc, modFirst, if_pos (beq_self_eq_true d.id)]
    unfold cellEligible
    split
    · obtain ⟨l, hl⟩ := stamp_lone hclosed
      exact (holdsOne_linkVoq (c := { d with isOpen := false, stamps := l }) hl hm).congr (congrArg Core.cells (mirror_core ..))
    · exact ⟨_, hclosed, hm⟩

theorem holdsOne_buildCells (p : Nat) (x : RxInfo) (q : Placed) (hq : q.m.slots ≤ 15) (h : s.core.cells = []) :
    HoldsOne q.m (buildCells p x [q] s) := by
  have hcut : [q].flatMap cutMsg = [q] := by simp [cutMsg, hq]
  have hfill : fillOpen p x [q] s = ([q], s) := by rw [fillOpen, openedOf_of_none h]
  have hopen := holdsOne_openCell p x q h
  have hcut2 (u : State) (hu : HoldsOne q.m u) : HoldsOne q.m (match openedOf u p with
      | some c => if cutThrough u p then cellEligible c u else u
      | none => u) := by
    obtain ⟨c, hc, hm⟩ := hu
    split
    case h_1 d hd =>
      obtain rfl := openedOf_lone hc hd
      split
      · exact holdsOne_cellEligible hc hm
      · exact ⟨d, hc, hm⟩
    case h_2 => exact ⟨c, hc, hm⟩
  have hclose (b : Bool) (u : State) (hu : HoldsOne q.m u) : HoldsOne q.m (u.when b (closeOpen p)) := by
    cases b
    · exact hu
    · exact holdsOne_closeOpen p hu
  unfold buildCells
  rw [hcut, hfill]
  dsimp only
  refine hclose _ _ (hcut2 _ ?_)
  rw [h]
  change HoldsOne q.m (openCell p x [q] (closeOpen p s))
  rw [closeOpen_of_none h]
  exact hopen

/-! ### What the use of a message leaves -/

theorem cellStep_modCell (id : Nat) (f : Cell → Cell) (s : State) : CellStep s (modCell id f s) := CellStep.core _ s

theorem cellStep_cellEligible (c : Cell) (s : State) : CellStep s (cellEligible c s) := by
  unfold cellEligible
  split
  · exact (CellStep.stamp ..).trans ((CellStep.linkVoq ..).trans (CellStep.mirror ..))
  · exact .refl s

theorem cellStep_closeOpen (p : Nat) (s : State) : CellStep s (closeOpen p s) := by
  unfold closeOpen
  split
  · exact .refl s
  · exact (cellStep_modCell ..).trans (cellStep_cellEligible ..)

theorem cellStep_openCell (p : Nat) (x : RxInfo) (q : Placed) (s : State) : CellStep s (openCell p x [q] s) := CellStep.takeCell ..

theorem cellStep_buildCells (p : Nat) (x : RxInfo) (q : Placed) (hq : q.m.slots ≤ 15) (h : s.core.cells = []) :
    CellStep s (buildCells p x [q] s) := by
  have hcut : [q].flatMap cutMsg = [q] := by simp [cutMsg, hq]
  have hfill : fillOpen p x [q] s = ([q], s) := by rw [fillOpen, openedOf_of_none h]
  have hthrough (u : State) : CellStep u (match openedOf u p with
      | some c => if cutThrough u p then cellEligible c u else u
      | none => u) := by
    split
    · split
      · exact cellStep_cellEligible ..
      · exact .refl u
    · exact .refl u
  unfold buildCells
  rw [hcut, hfill]
  dsimp only
  refine CellStep.trans ?_ ((hthrough _).trans (.when _ _ (cellStep_closeOpen ..)))
  rw [h]
  change CellStep s (openCell p x [q] (closeOpen p s))
  rw [closeOpen_of_none h]
  exact cellStep_openCell ..

theorem markedGrp_of_none {p seq : Nat} (h : s.core.grps = []) : markedGrp s p seq = none := by simp [markedGrp, h]

/-- The message of a good flit is in one cell, and nothing is touched but cells, links and records. -/
theorem rxCells_of_good {p seq : Nat} (t0 : Option Nat) (hdr : Option DWord) (keep : List RxMsg) {q : Placed} (hq : q.m.slots ≤ 15)
    (hcells : s.core.cells = []) (hgrps : s.core.grps = []) :
    HoldsOne q.m (rxCells .good p seq t0 hdr keep [q] s) ∧ CellStep s (rxCells .good p seq t0 hdr keep [q] s) := by
  have hend (g : Nat) (u : State) (hu : HoldsOne q.m u ∧ CellStep s u) :
      HoldsOne q.m (returnOwed (tileOf p) (grpDone g (endFlit p u))) ∧ CellStep s (returnOwed (tileOf p) (grpDone g (endFlit p u))) := by
    refine ⟨hu.1.congr ?_, hu.2.trans ((CellStep.endFlit ..).trans ((CellStep.grpDone ..).trans (CellStep.returnOwed ..)))⟩
    rw [returnOwed_core, (grpDone_cells _ _).1, endFlit_core]
  have huse (x : RxInfo) (u : State) (hu : u.core.cells = []) (hkept : CellStep s u) :
      HoldsOne q.m (useMsgs p x [q] u) ∧ CellStep s (useMsgs p x [q] u) := by
    unfold useMsgs
    dsimp only
    have hspent (n : Nat) (v : State) (hv : v.core.cells = []) : (spend p n v).core.cells = [] := by rw [spend, modLink_core, hv]
    exact ⟨holdsOne_buildCells p x q hq (hspent _ _ hu), hkept.trans ((CellStep.core _ u).trans ((CellStep.spend ..).trans
      (cellStep_buildCells p x q hq (hspent _ _ hu))))⟩
  unfold rxCells
  dsimp only
  rw [markedGrp_of_none hgrps]
  exact hend _ _ (huse _ _ hcells (CellStep.core _ s))

end Sys2Proof.Machine
end

section
/-! SUPPORT. Acknowledgements and replays of a link that has no cell in the tile (04 R70, R72). -/
namespace Sys2Proof.Machine
variable {s t : State}

theorem restoreTc_keeps (s : State) (p : Nat) (m : RxMsg) : (restoreTc s p m).slots = m.slots ∧ (restoreTc s p m).out = m.out ∧
    (restoreTc s p m).part = m.part ∧ (restoreTc s p m).oc = m.oc ∧ (restoreTc s p m).tag = m.tag := by
  unfold restoreTc
  split
  · exact ⟨rfl, rfl, rfl, rfl, rfl⟩
  · split <;> exact ⟨rfl, rfl, rfl, rfl, rfl⟩

theorem rd_rxReady_next {p : Nat} {f : Flit} {x : Ports} {y : Tel} (s : State) :
    rd (rxReady p f x y s) (.lnk p) F.LNK_SEQ_STS_NEXT_RX = (rd s (.lnk p) F.LNK_SEQ_STS_NEXT_RX + 1) % 1024 :=
  rd_wr_of_lt (f := F.LNK_SEQ_STS_NEXT_RX) _ (Nat.mod_lt _ (by decide))

theorem flitReceive_one {p draw : Nat} {f : Flit} {m : RxMsg} (hcan : canReceive s p = true) (hcells : s.core.cells = [])
    (hgrps : s.core.grps = []) (hphase : f.phase = 0) (hcrc1 : f.crc1 = true) (hcrc2 : f.crc2 = true) (hfec : f.fecFail = false)
    (hseq : f.seq % 1024 = rd s (.lnk p) F.LNK_SEQ_STS_NEXT_RX) (hmsgs : f.msgs = [m]) (hslots : m.slots ≤ 15) :
    rd (flitReceive p f draw s) (.lnk p) F.LNK_SEQ_STS_NEXT_RX = (rd s (.lnk p) F.LNK_SEQ_STS_NEXT_RX + 1) % 1024 ∧
      HoldsOne (restoreTc s p m) (flitReceive p f draw s) := by
  obtain ⟨u, x, y, t0, keep, hkept, hrun⟩ := flitReceive_of_good (draw := draw) hcan hcells hphase hcrc1 hcrc2 hfec hseq
  have hplaced : placed { f with msgs := f.msgs.map (restoreTc s p) } = [⟨0, restoreTc s p m⟩] := by
    unfold placed
    rw [hmsgs, if_neg (by rw [hphase]; decide)]
    rfl
  have hcore : (rxReady p f x y u).core = s.core := hkept.core
  obtain ⟨hholds, hstep⟩ := rxCells_of_good (p := p) (seq := f.seq % 1024) t0 none keep (q := ⟨0, restoreTc s p m⟩)
    ((restoreTc_keeps s p m).1.trans_le hslots) ((congrArg Core.cells hcore).trans hcells) ((congrArg Core.grps hcore).trans hgrps)
  rw [hrun, hplaced]
  refine ⟨?_, hholds⟩
  rw [hstep.beside.aside.rd _ _ (asidePage_lnk p) (by decide), rd_rxReady_next,
    hkept.rd _ _ (asidePage_lnk p) (by decide)]

/-- The credits of a list of classes are added to a link's. -/
theorem tget_addCredits (l : List (Nat × Nat)) (c : Tbl Nat) (k : Nat) :
    tget 0 (l.foldl (fun t x => tput 0 t x.1 (tget 0 t x.1 + x.2)) c) k = tget 0 c k + ((l.filter fun x => x.1 == k).map (·.2)).sum := by
  induction l generalizing c with
  | nil => rfl
  | cons x l ih =>
    rw [List.foldl_cons, ih]
    by_cases hk : x.1 = k
    · subst hk
      simp [tget_tput_same, Nat.add_assoc]
    · simp [tget_tput_other _ _ _ _ hk, hk]

theorem sum_credits_from (credits : List Nat) (k : Nat) : ∀ a, ((((List.range' a credits.length).zip credits).filter
    fun x => x.1 == k).map (·.2)).sum = if a ≤ k then credits.getD (k - a) 0 else 0 := by
  induction credits with
  | nil => simp
  | cons x l ih =>
    intro a
    rw [List.length_cons, List.range'_succ, List.zip_cons_cons, List.filter_cons]
    obtain h | rfl | h := Nat.lt_trichotomy a k
    · obtain ⟨n, rfl⟩ := Nat.exists_eq_add_of_lt h
      rw [if_neg (by simp; omega), ih, if_pos (by omega), if_pos (by omega), show a + n + 1 - a = n + 1 by omega,
        show a + n + 1 - (a + 1) = n by omega, List.getD_cons_succ]
    · rw [if_pos (beq_self_eq_true a), List.map_cons, List.sum_cons, ih, if_neg (by omega), if_pos (Nat.le_refl a), Nat.sub_self]
      rfl
    · rw [if_neg (by simp; omega), ih, if_neg (by omega), if_neg (by omega)]

/-- Each class stands once in the credits that come with an acknowledgement. -/
theorem sum_credits_of_class (credits : List Nat) (k : Nat) :
    ((((List.range credits.length).zip credits).filter fun x => x.1 == k).map (·.2)).sum = credits.getD k 0 := by
  rw [List.range_eq_range', sum_credits_from, if_pos (Nat.zero_le k), Nat.sub_zero]

theorem freeCell_of_none {i : Nat} (h : s.core.cells = []) : freeCell i s = s := by
  unfold freeCell
  simp [cellOf, h]

theorem eachFreeCell_of_none (l : List Nat) (h : s.core.cells = []) : s.each l freeCell = s := by
  induction l with
  | nil => rfl
  | cons i l ih =>
    change (freeCell i s).each l freeCell = s
    rw [freeCell_of_none h]
    exact ih

/-- What a replay that finds no cell leaves of its link and of the registers. -/
structure ReplayKept (p : Nat) (s t : State) : Prop where
  replays : (linkOf t p).replays = (linkOf s p).replays
  phase : (linkOf t p).phase = (linkOf s p).phase
  ackFrom : (linkOf t p).ackFrom = (linkOf s p).ackFrom
  tick : t.tick = s.tick
  rd : ∀ pg f, f.off % 4 = 0 ∧ f.off < 0x1000 ∧ f.lo < 32 → F.LNK_STS_REPLAYING.off ≠ f.off → rd t pg f = rd s pg f

theorem resend_of_none {p : Nat} {reads : List (Nat × CellRead)} (h : s.core.cells = []) (seen : List Nat) (es : List REnt) :
    resend p reads seen es s = wr (.lnk p) F.LNK_STS_REPLAYING 0 (modLink p (fun l => { l with resume := none }) s) := by
  induction es with
  | nil => rfl
  | cons e es ih =>
    unfold resend
    rw [show cellOf s e.cell = none by simp [cellOf, h]]
    exact ih

theorem replayKept_startReplay {p : Nat} {reads : List (Nat × CellRead)} (es : List REnt) (h : s.core.cells = []) :
    ReplayKept p s (startReplay p reads es s) := by
  unfold startReplay
  split
  · exact ⟨rfl, rfl, rfl, rfl, fun _ _ _ _ => rfl⟩
  · split
    · refine ⟨?_, ?_, ?_, rfl, fun pg f hf hne => ?_⟩
      case refine_4 => rw [startExit, rd_modLink, rd_wr_off _ _ (by decide) hf hne, rd_modLink]
      all_goals simp [startExit]
    · rw [resend_of_none h]
      refine ⟨?_, ?_, ?_, rfl, fun pg f hf hne => rd_wr_off _ _ (by decide) hf hne⟩
      all_goals simp

/-- A replay below the limit, whose fault source is masked. -/
theorem replayFrom_of_few {p : Nat} (reads : List (Nat × CellRead)) (es : List REnt) (hcells : s.core.cells = [])
    (hfew : (linkOf s p).replays < rd s (.lnk p) F.LNK_REPLAY_CFG_LIM) (hmask : srcMasked s (portSrcNo p 1) = true) :
    (linkOf (replayFrom p reads es s) p).replays = (linkOf s p).replays + 1 ∧
      (linkOf (replayFrom p reads es s) p).phase = (linkOf s p).phase ∧
      (linkOf (replayFrom p reads es s) p).ackFrom = (linkOf s p).ackFrom ∧
      (replayFrom p reads es s).tick = s.tick ∧
      rd (replayFrom p reads es s) (.lnk p) F.LNK_REPLAY_CNT_REPLAYS = min (rd s (.lnk p) F.LNK_REPLAY_CNT_REPLAYS + 1) 0xFFFF := by
  obtain ⟨hrep, hphase, hack, htick, hrd⟩ := replayKept_startReplay (p := p) (reads := reads) es
    (s := modLink p (fun l => { l with replays := l.replays + 1, swapHeld := none }) (bump (.lnk p) F.LNK_REPLAY_CNT_REPLAYS s)) hcells
  have hrun : replayFrom p reads es s = startReplay p reads es
      (modLink p (fun l => { l with replays := l.replays + 1, swapHeld := none }) (bump (.lnk p) F.LNK_REPLAY_CNT_REPLAYS s)) := by
    refine (if_neg (Nat.not_le.mpr hfew)).trans (raise_of_masked none ?_)
    refine (srcMasked_congr _ fun pg => ?_).trans hmask
    rw [hrd pg _ (by decide) (by decide), rd_modLink, bump, bumpBy, rd_wr_off _ _ (by decide) (by decide) (by decide)]
  rw [hrun]
  refine ⟨hrep.trans ?_, hphase.trans ?_, hack.trans ?_, htick, (hrd _ _ (by decide) (by decide)).trans ?_⟩
  · simp
  · simp
  · simp
  · rw [rd_modLink, rd_bump_same]
    rfl

theorem flitAcknowledge_of_none {p seq : Nat} {credits : List Nat} (hup : linkUp s p = true) (hcells : s.core.cells = []) :
    (∀ k, tget 0 (linkOf (flitAcknowledge p seq credits s) p).credit k = tget 0 (linkOf s p).credit k + credits.getD k 0) ∧
      (linkOf (flitAcknowledge p seq credits s) p).replay =
        (linkOf s p).replay.filter (fun e => !decide ((seq + 1024 - e.seq) % 1024 < 512)) ∧
      (∀ q, q ≠ p → linkOf (flitAcknowledge p seq credits s) q = linkOf s q) := by
  have hfold (k : Nat) : tget 0 (((List.range credits.length).zip credits).foldl (fun t x => tput 0 t x.1 (tget 0 t x.1 + x.2))
      (linkOf s p).credit) k = tget 0 (linkOf s p).credit k + credits.getD k 0 := by
    rw [tget_addCredits, sum_credits_of_class]
  unfold flitAcknowledge
  rw [hup, if_neg nofun]
  dsimp only
  rw [eachFreeCell_of_none _ (by exact hcells)]
  have hlink (ids : List Nat) (l : LinkS) : linkOf (postedDone ids (setLink p l s)) p = l := tget_tput_same ..
  refine ⟨fun k => ?_, ?_, fun q hq => tget_tput_other _ _ _ _ hq.symm⟩
  · rw [hlink]
    split <;> exact hfold k
  · rw [hlink]
    split <;> rfl

/-- Settles O17: the good flit by the cell that its message comes to, the others by what an acknowledgement and a replay change of the
link. -/
theorem linkReceiveAndReplay : Obligations.LinkReceiveAndReplay := by
  unfold Obligations.LinkReceiveAndReplay
  refine ⟨?_, ?_, ?_, ?_⟩
  · intro s p draw f m hdue hcan hcells hgrps hphase hcrc1 hcrc2 hfec hseq _ hmsgs hslots
    obtain ⟨hnext, c, hc, hm⟩ := flitReceive_one (draw := draw) hcan hcells hgrps hphase hcrc1 hcrc2 hfec hseq hmsgs hslots
    obtain ⟨-, hout, hpart, hoc, htag⟩ := restoreTc_keeps s p m
    generalize hu : flitReceive p f draw s = u at *
    refine ⟨_, congrArg (done s) ((dueThen_of_noneDue _ hdue).trans hu), hnext, ?_⟩
    rw [settled_core, hc]
    refine congrArg (· :: []) (hm.trans ?_)
    rw [hout, hpart, hoc, htag]
  · intro s p seq credits hdue hlive hup hcells
    have h := flitAcknowledge_of_none (seq := seq) (credits := credits) hup hcells
    generalize hu : flitAcknowledge p seq credits s = u at *
    exact ⟨_, congrArg (done s) ((dueThen_of_noneDue _ hdue).trans ((if_neg (by simp [hlive])).trans hu)), h⟩
  · intro s p seq reads hdue hcan hcells hany hfew hmask
    have hup : (linkOf s p).phase = .l0 := by simp_all [canReceive, linkUp]
    have hsome : ((linkOf s p).replay.filter fun e => decide ((e.seq + 1024 - seq % 1024) % 1024 < 512)).isEmpty = false := by
      simpa [List.isEmpty_iff] using hany
    obtain ⟨hrep, hphase, -, -, hcnt⟩ := replayFrom_of_few (p := p) reads
      ((linkOf s p).replay.filter fun e => decide ((e.seq + 1024 - seq % 1024) % 1024 < 512)) hcells hfew hmask
    have hrun : replayRequest p ⟨seq, reads⟩ s = replayFrom p reads
        ((linkOf s p).replay.filter fun e => decide ((e.seq + 1024 - seq % 1024) % 1024 < 512)) s := by
      unfold replayRequest
      rw [hcan, if_neg nofun]
      dsimp only
      rw [hsome, if_neg nofun]
    generalize replayFrom _ _ _ s = u at *
    exact ⟨_, congrArg (done s) ((dueThen_of_noneDue _ hdue).trans hrun), hrep, hcnt, hphase.trans hup⟩
  · intro s p n reads hdue hlive hup hcells hclk hack hsome hfew hmask
    have hphase : (linkOf s p).phase = .l0 := by simpa [linkUp] using hup
    have hlink : linkOf (advanceTo (n + rd s (.lnk p) F.LNK_REPLAY_CFG_TMO) s) p = linkOf s p := linkOf_advanceTo ..
    obtain ⟨hrep, -, hfrom, htick, -⟩ := replayFrom_of_few (p := p) reads (linkOf s p).replay
      (s := modLink p (fun l => { l with ackFrom := some (advanceTo (n + rd s (.lnk p) F.LNK_REPLAY_CFG_TMO) s).tick })
        (advanceTo (n + rd s (.lnk p) F.LNK_REPLAY_CFG_TMO) s))
      (by rw [modLink_core, advanceTo_core, hcells]) (by simpa using hfew)
      ((srcMasked_congr _ fun pg => by rw [rd_modLink, rd_advanceTo]).trans hmask)
    have hrun : replayTimerExpire ⟨p, reads⟩ s = replayFrom p reads (linkOf s p).replay
        (modLink p (fun l => { l with ackFrom := some (advanceTo (n + rd s (.lnk p) F.LNK_REPLAY_CFG_TMO) s).tick })
          (advanceTo (n + rd s (.lnk p) F.LNK_REPLAY_CFG_TMO) s)) := by
      unfold replayTimerExpire
      dsimp only
      rw [hack]
      dsimp only
      rw [if_neg (by simp [hphase, hsome]), atDue_none hdue (.inr hclk)]
      unfold replayTimerEnd
      dsimp only
      rw [hlink, if_neg (by simp [hphase, hsome])]
    rw [linkOf_modLink_same, hlink] at hrep hfrom
    have hat : (advanceTo (n + rd s (.lnk p) F.LNK_REPLAY_CFG_TMO) s).tick = max s.tick (n + rd s (.lnk p) F.LNK_REPLAY_CFG_TMO) :=
      advanceTo_tick _ hclk
    rw [modLink_tick] at htick
    generalize replayFrom _ _ _ _ = u at *
    refine ⟨_, congrArg (done s) ((if_neg (by simp [hlive])).trans hrun), htick.trans hat, hrep, hfrom.trans ?_⟩
    exact congrArg some htick.symm

end Sys2Proof.Machine
end

section
/-! SUPPORT. A cell at the head of the queue of TC3 as it leaves, and injections as they are armed (04 R68, R73, R80; 09 R177). -/
namespace Sys2Proof.Machine
variable {s t : State}

/-! ### A cell that is sent -/

theorem cellOf_modCell {f : Cell → Cell} (hf : ∀ c, (f c).id = c.id) (id : Nat) (s : State) :
    cellOf (modCell id f s) id = (cellOf s id).map f := by
  have hlist (l : List Cell) : (modFirst (fun c : Cell => c.id == id) f l).find? (fun c => c.id == id) =
      (l.find? fun c => c.id == id).map f := by
    induction l with
    | nil => rfl
    | cons c l ih =>
      unfold modFirst
      split
      case isTrue hc => simp [hf, hc]
      case isFalse hc => simp [hc, ih]
  exact hlist s.core.cells

theorem countSlot_tel_only (p cls : Nat) (s : State) : ∃ x, countSlot p cls s = { s with tel := x } := by
  obtain ⟨x, hx⟩ := addCtr_tel_only (ctrKey (512 + p) 0) 1 s
  obtain ⟨y, hy⟩ := addCtr_tel_only (ctrKey (512 + p) (cls - 0x40)) 1 { s with tel := x }
  exact ⟨y, by rw [countSlot, hx]; exact hy⟩

/-- The check codes of a flit are those of its words, in the layout of its link. -/
theorem checkCodes_congr {p k : Nat} {c : Cell} (g : Stage) (hmode : rd t (.lnk p) F.LNK_STS_MODE = rd s (.lnk p) F.LNK_STS_MODE)
    (hrole : roleOf t p = roleOf s p) : checkCodes t p { c with stage := g } k = checkCodes s p c k := by
  unfold checkCodes pieceData inPiece pieceUnits pieces wholeFlits
  rw [hmode, hrole]

/-- The entry for replay of a whole cell that leaves. -/
def wholeEntry (p : Nat) (c : Cell) (s : State) : REnt :=
  ⟨rd s (.lnk p) F.LNK_SEQ_STS_NEXT_TX, c.id, 0, false, false, c.pois || false, false⟩

/-- The link of a whole cell that leaves, with no injection. -/
def launchedLink (p n : Nat) (c : Cell) (s : State) : LinkS :=
  { linkOf s p with
    replay := (linkOf s p).replay ++ [wholeEntry p c s]
    credit := tput 0 (linkOf s p).credit c.oc (tget 0 (linkOf s p).credit c.oc - 1)
    inj := none
    busyTx := true
    sending := onWireAdd s p (rd s (.lnk p) F.LNK_SEQ_STS_NEXT_TX) n
    ackFrom := if (linkOf s p).replay.isEmpty then some s.tick else (linkOf s p).ackFrom }

/-- The state in which a whole cell is entered for replay. -/
def entered (p n : Nat) (c : Cell) (s : State) : State :=
  setLink p (launchedLink p n c s) s |> wr (.lnk p) F.LNK_SEQ_STS_NEXT_TX ((rd s (.lnk p) F.LNK_SEQ_STS_NEXT_TX + 1) % 1024)
    |> modCell c.id fun c => { c with stage := .sent }

/-- A new flit of a link on which nothing is injected is entered for replay, counted and sent. -/
theorem launch_of_plain {p n : Nat} {c : Cell} (hinj : (linkOf s p).inj = none) (hcell : cellOf s c.id = some c) :
    launch p ⟨c.id, 0, n, none, false⟩ s = sayFlit p (wholeEntry p c s) none c.pois
      ((entered p n c s).each (List.range (slotUnits (entered p n c s) p n)) fun _ => countSlot p 0x41) := by
  unfold launch
  dsimp only
  rw [hcell, hinj]
  simp only [Option.map_none, reduceCtorEq, false_and, or_self, if_false, Option.map_some, Option.getD_some, Option.any_some,
    Option.isSome_none, Bool.or_self, Bool.not_false, Bool.and_true, decide_false, State.when, if_true, Bool.false_eq_true]
  rfl

/-- What of a cell that leaves shows on its link. -/
structure Launched (p : Nat) (c : Cell) (s t : State) : Prop where
  credit : tget 0 (linkOf t p).credit c.oc = tget 0 (linkOf s p).credit c.oc - 1
  next : rd t (.lnk p) F.LNK_SEQ_STS_NEXT_TX = (rd s (.lnk p) F.LNK_SEQ_STS_NEXT_TX + 1) % 1024
  sent : .sentFlit p (rd s (.lnk p) F.LNK_SEQ_STS_NEXT_TX) c.id 0 none c.pois (checkCodes s p c 0) ∈ t.out

theorem Launched.later {p : Nat} {c : Cell} {u : State} (h : Launched p c s t) (hstep : CellStep t u) : Launched p c s u :=
  ⟨(congrArg (fun l => tget 0 (LinkS.credit l) c.oc) (hstep.link p)).trans h.credit,
    (hstep.beside.aside.rd _ _ (asidePage_lnk p) (by decide)).trans h.next, hstep.beside.aside.out.subset h.sent⟩

theorem launched_launch {p n : Nat} {c : Cell} (hinj : (linkOf s p).inj = none) (hcell : cellOf s c.id = some c) :
    Launched p c s (launch p ⟨c.id, 0, n, none, false⟩ s) := by
  rw [launch_of_plain hinj hcell]
  obtain ⟨x, hx⟩ := each_tel_only (fun (_ : Nat) => countSlot_tel_only p 0x41) (List.range (slotUnits (entered p n c s) p n)) (entered p n c s)
  have hfound : cellOf (entered p n c s) c.id = some { c with stage := .sent } := by
    refine (cellOf_modCell (f := fun c => { c with stage := .sent }) (fun _ => rfl) ..).trans ?_
    exact congrArg (Option.map _) hcell
  have hcodes : checkCodes (entered p n c s) p { c with stage := .sent } 0 = checkCodes s p c 0 :=
    checkCodes_congr _ (rd_wr_off _ _ (by decide) (by decide) (by decide)) (rd_wr_off _ _ (by decide) (by decide) (by decide))
  rw [hx]
  refine ⟨?_, ?_, ?_⟩
  · exact (congrArg (fun l => tget 0 (LinkS.credit l) c.oc) (tget_tput_same LinkS.reset (launchedLink p n c s) s.ports.links p)).trans
      (tget_tput_same ..)
  · exact rd_wr_of_lt (f := F.LNK_SEQ_STS_NEXT_TX) _ (Nat.mod_lt _ (by decide))
  · refine List.mem_append_right _ (List.mem_singleton.mpr ?_)
    change Out.sentFlit p _ c.id 0 none c.pois _ = Out.sentFlit p _ c.id 0 none c.pois
      (((cellOf (entered p n c s) c.id).map fun k => checkCodes (entered p n c s) p k 0).getD [])
    rw [hfound, Option.map_some, Option.getD_some, hcodes]
    rfl

theorem cellStep_tagRecord (p id : Nat) (s : State) : CellStep s (tagRecord p id s) := by
  unfold tagRecord
  dsimp only
  split
  · exact CellStep.stamp ..
  · exact (CellStep.stamp ..).trans (.when _ _ (CellStep.skyRecord ..))

/-- What is looked at of a state in which a cell leaves. -/
theorem Launched.congr {p : Nat} {c : Cell} {u : State} (h : Launched p c t u) (hlink : linkOf t p = linkOf s p)
    (hrd : ∀ pg f, f.off % 4 = 0 ∧ f.off < 0x1000 ∧ f.lo < 32 → F.LNK_STOMP_CNT_STOMP_TX.off ≠ f.off → rd t pg f = rd s pg f) :
    Launched p c s u := by
  have hnext := hrd (.lnk p) F.LNK_SEQ_STS_NEXT_TX (by decide) (by decide)
  have hcodes : checkCodes t p c 0 = checkCodes s p c 0 :=
    checkCodes_congr c.stage (hrd _ _ (by decide) (by decide)) (hrd _ _ (by decide) (by decide))
  obtain ⟨hc, hn, ho⟩ := h
  rw [hlink] at hc
  rw [hnext] at hn ho
  rw [hcodes] at ho
  exact ⟨hc, hn, ho⟩

/-- The rotation of an egress queue goes on past the subclass of a cell of TC3 that is served. -/
def turned (p : Nat) (c : Cell) (s : State) : State :=
  { s with egr := { s.egr with rot := tput 0 s.egr.rot (queueKey p c.queue) ((c.oc + 1) % 8) } }

/-- The state in which the one flit of a cell is launched. -/
def beforeLaunch (p : Nat) (c : Cell) (s : State) : State :=
  turned p c s |> bumpBy (.lnk p) F.LNK_STOMP_CNT_STOMP_TX 0 |> bumpBy (.lnk p) F.LNK_STOMP_CNT_REBUILD_FAIL 0 |> postedGo 2 c

theorem postedGo_cases (stage : Nat) (c : Cell) (s : State) : ∃ x, postedGo stage c s = { s with core := x } ∧ x.cells = s.core.cells := by
  unfold postedGo
  split <;> exact ⟨_, rfl, rfl⟩

/-- A cell of TC3 that is read as it was written leaves as one flit. -/
theorem sendCell_of_clean {p : Nat} {c : Cell} (hrole : roleOf s p ≠ 3) (hwhole : wholeFlits s p = true) (htc : c.tc = 3) :
    sendCell p c ⟨[], 0, false⟩ s =
      tagRecord p c.id ((launch p ⟨c.id, 0, c.slots, none, false⟩ (beforeLaunch p c s)).each c.rsps sayRsp) := by
  have hserved : served p c s = turned p c s := if_pos (if_pos htc)
  have hpatch : trunkPatch p c (turned p c s) = turned p c s := if_pos (.inl hrole)
  have hflits : flitsOf (turned p c s) p c [] false = [⟨c.id, 0, c.slots, none, false⟩] := by
    have hpieces : pieces (turned p c s) p c = [c.slots] := if_pos hwhole
    unfold flitsOf
    rw [hpieces]
    rfl
  have hclean (u : State) : noteRead c ⟨[], 0, false⟩ u = u := rfl
  unfold sendCell
  dsimp only
  rw [if_neg (by decide), hserved, hpatch]
  rw [show judgeRead ⟨[], 0, false⟩ = .clean from rfl, if_neg (by decide), show (ReadRes.clean == ReadRes.lost) = false from rfl, hflits]
  exact hclean _

theorem rd_bumpBy_off {pg pg' : Page} {f g : Fld} (n : Nat) (s : State) (hf : f.off % 4 = 0 ∧ f.off < 0x1000 ∧ f.lo < 32)
    (hg : g.off % 4 = 0 ∧ g.off < 0x1000 ∧ g.lo < 32) (h : f.off ≠ g.off) : rd (bumpBy pg f n s) pg' g = rd s pg' g :=
  rd_wr_off _ s hf hg h

theorem beforeLaunch_keeps (p : Nat) (c : Cell) (s : State) : (beforeLaunch p c s).ports = s.ports ∧
    (beforeLaunch p c s).core.cells = s.core.cells ∧ ∀ pg f, f.off % 4 = 0 ∧ f.off < 0x1000 ∧ f.lo < 32 →
      F.LNK_STOMP_CNT_STOMP_TX.off ≠ f.off → rd (beforeLaunch p c s) pg f = rd s pg f := by
  unfold beforeLaunch
  generalize hv : turned p c s = v
  have hkept : v.ports = s.ports ∧ v.core = s.core ∧ v.regs = s.regs := by rw [← hv]; exact ⟨rfl, rfl, rfl⟩
  obtain ⟨hports, hcore, hregs⟩ := hkept
  obtain ⟨x, hx, hcells⟩ := postedGo_cases 2 c (bumpBy (.lnk p) F.LNK_STOMP_CNT_REBUILD_FAIL 0 (bumpBy (.lnk p) F.LNK_STOMP_CNT_STOMP_TX 0 v))
  refine ⟨?_, ?_, fun pg f hf hne => ?_⟩
  · rw [hx]
    exact hports
  · rw [hx]
    exact hcells.trans (congrArg Core.cells hcore)
  · have hsame : rd (postedGo 2 c (bumpBy (.lnk p) F.LNK_STOMP_CNT_REBUILD_FAIL 0 (bumpBy (.lnk p) F.LNK_STOMP_CNT_STOMP_TX 0 v))) pg f =
        rd (bumpBy (.lnk p) F.LNK_STOMP_CNT_REBUILD_FAIL 0 (bumpBy (.lnk p) F.LNK_STOMP_CNT_STOMP_TX 0 v)) pg f := by rw [hx]; rfl
    rw [hsame, rd_bumpBy_off (f := F.LNK_STOMP_CNT_REBUILD_FAIL) _ _ (by decide) hf hne, rd_bumpBy_off _ _ (by decide) hf hne, rd_congr hregs]

theorem launched_sendCell {p : Nat} {c : Cell} (hrole : roleOf s p ≠ 3) (hwhole : wholeFlits s p = true) (htc : c.tc = 3)
    (hinj : (linkOf s p).inj = none) (hcell : cellOf s c.id = some c) : Launched p c s (sendCell p c ⟨[], 0, false⟩ s) := by
  obtain ⟨hports, hcells, hrd⟩ := beforeLaunch_keeps p c s
  rw [sendCell_of_clean hrole hwhole htc]
  generalize beforeLaunch p c s = v at *
  have hlink : linkOf v p = linkOf s p := linkOf_congr hports p
  have hfound : cellOf v c.id = some c := by
    rw [cellOf, hcells]
    exact hcell
  have hlaunched := launched_launch (n := c.slots) (by rw [hlink]; exact hinj) hfound
  have hsaid : CellStep (launch p ⟨c.id, 0, c.slots, none, false⟩ v) ((launch p ⟨c.id, 0, c.slots, none, false⟩ v).each c.rsps sayRsp) :=
    .each c.rsps (fun r u => CellStep.say _ u) _
  exact ((hlaunched.later hsaid).later (cellStep_tagRecord ..)).congr hlink hrd

/-! ### Injections -/

/-- The settings of an injection as a value of LNK_INJ_CTL spells them. -/
def putInjection (p v : Nat) (s : State) : State :=
  s |> wr (.lnk p) F.LNK_INJ_CTL_KIND (F.LNK_INJ_CTL_KIND.of v) |> wr (.lnk p) F.LNK_INJ_CTL_N (F.LNK_INJ_CTL_N.of v)
    |> wr (.lnk p) F.LNK_INJ_CTL_BYTE (F.LNK_INJ_CTL_BYTE.of v)

theorem putFields_injection {p v : Nat} (hn : 1 ≤ F.LNK_INJ_CTL_N.of v) (s : State) :
    putFields (.lnk p) v allBits [F.LNK_INJ_CTL_KIND, F.LNK_INJ_CTL_N, F.LNK_INJ_CTL_BYTE] s = (false, putInjection p v s) := by
  simp only [putFields]
  rw [putField_rw_good v _ rfl (by decide) (by decide) (Nat.zero_le _) (of_le_max (by decide) v),
    putField_rw_good v _ rfl (by decide) (by decide) hn (of_le_max (by decide) v),
    putField_rw_good v _ rfl (by decide) (by decide) (Nat.zero_le _) (of_le_max (by decide) v)]
  rfl

/-- What is injected is what the value spells. -/
theorem rd_putInjection (p v : Nat) (s : State) :
    (rd (putInjection p v s) (.lnk p) F.LNK_INJ_CTL_KIND, rd (putInjection p v s) (.lnk p) F.LNK_INJ_CTL_N,
      rd (putInjection p v s) (.lnk p) F.LNK_INJ_CTL_BYTE) =
    (F.LNK_INJ_CTL_KIND.of v, F.LNK_INJ_CTL_N.of v, F.LNK_INJ_CTL_BYTE.of v) := by
  unfold putInjection
  rw [rd_wr_place _ _ (by decide), rd_wr_place _ _ (by decide), rd_wr_same, of_mod, rd_wr_place _ _ (by decide), rd_wr_same, of_mod,
    rd_wr_same, of_mod]

/-- The state in which an injection is armed. -/
def armedInjection (p v : Nat) (s : State) : State :=
  putInjection p v s |> wr (.lnk p) F.LNK_INJ_CTL_ARM 1 |> modLink p fun l => { l with
    inj := some (F.LNK_INJ_CTL_KIND.of v, F.LNK_INJ_CTL_N.of v, F.LNK_INJ_CTL_BYTE.of v), swapHeld := none }

theorem injWrite_of_good {p v : Nat} (hmember : memberOf s p = none) (harm : F.LNK_INJ_CTL_ARM.of (v &&& allBits) = 1)
    (hmode : s.mode = .maintenance) (hup : linkUp s p = true) (hn : 1 ≤ F.LNK_INJ_CTL_N.of v) :
    injWrite p v allBits s = armedInjection p v s := by
  have hm : (putInjection p v s).mode = .maintenance := hmode
  have hu : linkUp (putInjection p v s) p = true := hup
  unfold injWrite
  dsimp only
  rw [hmember, if_neg nofun, putFields_injection hn]
  dsimp only
  rw [harm, if_neg (by decide), if_neg (by simp [hm, hu]), rd_putInjection]
  rfl

theorem armBit_of_word {v : Word} (h : F.LNK_INJ_CTL_ARM.of v.toNat = 1) : F.LNK_INJ_CTL_ARM.of (v.toNat &&& allBits) = 1 := by
  have hall : v.toNat &&& allBits = v.toNat := by
    rw [show allBits = 2 ^ 32 - 1 from rfl, Nat.and_two_pow_sub_one_eq_mod]
    exact Nat.mod_eq_of_lt v.isLt
  rw [hall]
  exact h

theorem armedInjection_armed (p v : Nat) (s : State) : rd (armedInjection p v s) (.lnk p) F.LNK_INJ_CTL_ARM = 1 ∧
    (linkOf (armedInjection p v s) p).inj = some (F.LNK_INJ_CTL_KIND.of v, F.LNK_INJ_CTL_N.of v, F.LNK_INJ_CTL_BYTE.of v) := by
  unfold armedInjection
  rw [rd_modLink, rd_wr_same, linkOf_modLink_same]
  exact ⟨rfl, rfl⟩

/-- Settles O19: the cell that leaves by its launch, the flit of a trunk by the cell that it becomes, injections by what they write. -/
theorem linkSendTrunkAndInject : Obligations.LinkSendTrunkAndInject := by
  unfold Obligations.LinkSendTrunkAndInject
  refine ⟨?_, ?_, ?_, ?_⟩
  · intro s p c hdue hlive hlead hselect hwire hrole hwhole hup hhead hcell htc hinj
    have hsend := launched_sendCell hrole hwhole htc hinj hcell
    have hrun : egressSelect p ⟨[], 0, false⟩ s = sendCell p c ⟨[], 0, false⟩ s := by
      have hnot : (frozen s || linkDown s p || !isLead s p) = false := by
        have hphase : (linkOf s p).phase = .l0 := by simpa [linkUp] using hup
        have hused : (roleOf s p == 0) = false := by
          rw [isLead, Bool.and_eq_true] at hlead
          simpa using hlead.1
        simp [hlive, hlead, linkDown, hused, hphase]
      unfold egressSelect
      rw [hnot, if_neg nofun, hselect, hwire, if_neg nofun]
      dsimp only [selectCell]
      rw [hhead]
    obtain ⟨hc, hn, ho⟩ := hsend
    generalize sendCell p c ⟨[], 0, false⟩ s = u at *
    exact ⟨_, congrArg (done s) ((dueThen_of_noneDue _ hdue).trans hrun), hc, hn, ho⟩
  · intro s p h f m u clk hdue hcan hcells hgrps hphase hcrc1 hcrc2 hfec hseq _ hmsgs hslots hdeliver
    obtain ⟨v, x, y, t0, keep, hkept, hrun⟩ := trunkFlitReceive_of_good (clk := clk) u hcan hcells hphase hcrc1 hcrc2 hfec hseq hdeliver
    have hplaced : (placed f).map (fun q => { q with m := toPort h q.m }) = [⟨0, toPort h m⟩] := by
      unfold placed
      rw [hmsgs, if_neg (by rw [hphase]; decide)]
      rfl
    have hcore : (rxReady p f x y v).core = s.core := hkept.core
    obtain ⟨⟨c, hc, hm⟩, -⟩ := rxCells_of_good (p := p) (seq := f.seq % 1024) t0 (some h) keep (q := ⟨0, toPort h m⟩) hslots
      ((congrArg Core.cells hcore).trans hcells) ((congrArg Core.grps hcore).trans hgrps)
    rw [hplaced] at hrun
    generalize rxCells _ _ _ _ _ _ _ _ = w at *
    refine ⟨_, congrArg (done s) ((dueThen_of_noneDue _ hdue).trans hrun), ?_⟩
    rw [settled_core, hc]
    exact congrArg (fun k : Nat × Nat × Nat × Nat × List Nat => [(k.1, k.2.1, k.2.2.1)]) hm
  · intro s p v htakes hmember harm hmode hup hn
    have hrun : regGate (.lnk p) (injWrite p v.toNat allBits) s = armedInjection p v.toNat s :=
      (regGate_of_takes _ htakes).trans (injWrite_of_good hmember (armBit_of_word harm) hmode hup hn)
    obtain ⟨harmed, hinj⟩ := armedInjection_armed p v.toNat s
    generalize armedInjection p v.toNat s = u at *
    refine ⟨_, congrArg (done s) hrun, ?_, ?_⟩
    · rw [rd_settled]
      exact harmed
    · rw [linkOf_settled]
      exact hinj
  · intro s c p v hacts hp hmember harm hmode hup hn
    have hinjected := injWrite_of_good hmember (armBit_of_word harm) hmode hup hn
    have hgate : frozen s = false := by simp [frozen, hmode]
    have hrun : byCore (inject c 0 p v) s = finish c 0x47 St.ok (armedInjection p v.toNat s) := by
      rw [byCore_of_coreActs _ hacts]
      unfold inject
      rw [if_pos rfl, if_neg (by simp [hmember]; omega)]
      dsimp only
      rw [if_neg (by simp [hmode, hup]), mirrorGate_of_not_frozen _ hgate, hinjected]
    obtain ⟨harmed, hinj⟩ := armedInjection_armed p v.toNat s
    generalize armedInjection p v.toNat s = u at *
    refine ⟨_, congrArg (done s) hrun, ?_, ?_⟩
    · rw [rd_settled, finish, rd_complete_off c _ _ _ _ (by decide) (asidePage_lnk p).1]
      exact harmed
    · rw [linkOf_settled, linkOf_congr (finish_ports ..)]
      exact hinj

end Sys2Proof.Machine
end

section
/-! SUPPORT. Virtual ports: what a note to the host, unbinding and slot power leave of them (06 R125, R126). -/
namespace Sys2Proof.Machine
variable {s t : State}

theorem vpOf_congr (h : t.maps.vps = s.maps.vps) (part vp : Nat) : vpOf t part vp = vpOf s part vp := by rw [vpOf, h, vpOf]

theorem vpOf_setVp (part vp : Nat) (v : Vp) (s : State) : vpOf (setVp part vp v s) part vp = v := tget_tput_same ..

/-- A port notes what it tells the host in slot status. -/
def Vp.noted (code : Nat) (p : Vp) : Vp := { p with sts := p.sts ||| 2 ^ vpNoteBit code }

theorem vpOf_vpNote (part vp code : Nat) (s : State) : vpOf (vpNote part vp code s) part vp = (vpOf s part vp).noted code :=
  vpOf_setVp ..

theorem vpOf_finish (c : Ctx) (op st part vp : Nat) (s : State) : vpOf (finish c op st s) part vp = vpOf s part vp :=
  vpOf_congr (by simp) part vp

theorem vpOf_settled (q : List Instr) (part vp : Nat) (s : State) : vpOf (settled q s) part vp = vpOf s part vp := rfl

theorem vpOf_advanceTo (n part vp : Nat) (s : State) : vpOf (advanceTo n s) part vp = vpOf s part vp :=
  vpOf_congr (by rw [advanceTo_maps]) part vp

theorem completeO_maps (c : Option Ctx) (op st r0 : Nat) (s : State) : (completeO c op st r0 s).maps = s.maps := by
  unfold completeO
  split
  · exact complete_maps ..
  · rfl

theorem vpOf_completeO (c : Option Ctx) (op st r0 part vp : Nat) (s : State) :
    vpOf (completeO c op st r0 s) part vp = vpOf s part vp :=
  vpOf_congr (by rw [completeO_maps]) part vp

/-- Two states agree on the ports, and on the entries of the table. -/
structure VpStep (s t : State) : Prop where
  ports : t.ports = s.ports
  binds : t.maps.binds = s.maps.binds
  regs : t.regs = s.regs

theorem vpStep_vpNote (part vp code : Nat) (s : State) : VpStep s (vpNote part vp code s) := ⟨rfl, rfl, rfl⟩

theorem VpStep.when {f : State → State} (b : Bool) {s t : State} (hs : VpStep s t) (h : ∀ u, VpStep u (f u)) : VpStep s (t.when b f) := by
  cases b
  · exact hs
  · exact ⟨(h t).ports.trans hs.ports, (h t).binds.trans hs.binds, (h t).regs.trans hs.regs⟩

/-- What a note changes of a port is its status alone. -/
theorem vp_when_noted (b : Bool) (part vp code : Nat) (s : State) :
    ∃ n, vpOf (s.when b (vpNote part vp code)) part vp = { vpOf s part vp with sts := n } := by
  cases b
  · exact ⟨_, rfl⟩
  · exact ⟨_, vpOf_vpNote ..⟩

/-- An unbound port keeps its power. -/
theorem vpOf_unbindVp (part vp : Nat) (s : State) :
    ∃ n, vpOf (unbindVp part vp s) part vp =
      { vpOf s part vp with lead := none, rm := none, lost := false, add := none, sts := n } := by
  obtain ⟨n, hn⟩ := vp_when_noted ((vpOf s part vp).lead.any (present s)) part vp 6
    (setVp part vp { vpOf s part vp with lead := none, rm := none, lost := false, add := none } s)
  refine ⟨n, ?_⟩
  unfold unbindVp
  dsimp only
  rw [vpOf_completeO, vpOf_setVp] at *
  exact hn

theorem rd_completeO_off (c : Option Ctx) (op st r0 : Nat) {pg : Page} {f : Fld} (hf : OffQueue f)
    (hpg : (Page.evq 128).base ≠ pg.base) (s : State) : rd (completeO c op st r0 s) pg f = rd s pg f := by
  cases c with
  | none => rfl
  | some c => exact rd_complete_off c op st r0 0 hf hpg s

theorem rd_unbindVp_off {pg : Page} {f : Fld} (hf : OffQueue f) (hpg : (Page.evq 128).base ≠ pg.base) (part vp : Nat) (s : State) :
    rd (unbindVp part vp s) pg f = rd s pg f := by
  unfold unbindVp
  dsimp only
  rw [rd_completeO_off _ _ _ _ hf hpg]
  unfold State.when
  split <;> rfl

/-- A device is put at a free virtual port. -/
theorem hpAdd_binds {c : Ctx} {part vp lead : Nat} (h0 : vp ≠ 0) (h64 : vp < 64) (hpart : part < 128) (hlead : lead < 512)
    (hrole : roleOf s lead = 2) (his : isLead s lead = true) (hfree : vpOfLead s lead = none) (htgt : isTarget s lead = false)
    (hnone : (vpOf s part vp).lead = none) :
    (vpOf (hpAdd c part vp lead s) part vp).lead = some lead ∧ (vpOf (hpAdd c part vp lead s) part vp).rm = none ∧
      (hpAdd c part vp lead s).maps.binds = s.maps.binds ∧ (hpAdd c part vp lead s).ports = s.ports := by
  let p : Vp :=
    { vpOf s part vp with lead := some lead, lost := false, rm := none, add := if present s lead then none else some c }
  have hrun : hpAdd c part vp lead s = (((setVp part vp p s).when (present s lead) (vpNote part vp 3)).when
      ((vpOf s part vp).pwr && linkUp s lead) (vpNote part vp 2)).when (present s lead) (finish c 0x30 St.ok) := by
    unfold hpAdd
    rw [if_neg (by omega), if_neg (by simp [hrole, his]), if_neg (by simp [hfree, htgt, hnone])]
  have hvp : vpOf (setVp part vp p s) part vp = p := vpOf_setVp ..
  have hnotes : VpStep s (((setVp part vp p s).when (present s lead) (vpNote part vp 3)).when
      ((vpOf s part vp).pwr && linkUp s lead) (vpNote part vp 2)) :=
    .when _ (.when _ ⟨rfl, rfl, rfl⟩ (vpStep_vpNote part vp 3)) (vpStep_vpNote part vp 2)
  obtain ⟨a, ha⟩ := vp_when_noted (present s lead) part vp 3 (setVp part vp p s)
  obtain ⟨b, hb⟩ := vp_when_noted ((vpOf s part vp).pwr && linkUp s lead) part vp 2
    ((setVp part vp p s).when (present s lead) (vpNote part vp 3))
  rw [hrun]
  generalize ((setVp part vp p s).when (present s lead) (vpNote part vp 3)).when
      ((vpOf s part vp).pwr && linkUp s lead) (vpNote part vp 2) = u at *
  rw [ha, hvp] at hb
  have hend : vpOf (u.when (present s lead) (finish c 0x30 St.ok)) part vp = vpOf u part vp := by
    unfold State.when
    split
    · exact vpOf_finish ..
    · rfl
  have hmaps : (u.when (present s lead) (finish c 0x30 St.ok)).maps = u.maps := by
    unfold State.when
    split
    · exact finish_maps ..
    · rfl
  have hports : (u.when (present s lead) (finish c 0x30 St.ok)).ports = u.ports := by
    unfold State.when
    split
    · exact finish_ports ..
    · rfl
  rw [hend, hb, hmaps, hports]
  exact ⟨rfl, rfl, hnotes.binds, hnotes.ports⟩

/-- The removal of a powered device presses the attention button and waits. -/
theorem hpRemove_waits {c : Ctx} {part vp tmo lead : Nat} (h0 : vp ≠ 0) (h64 : vp < 64) (hpart : part < 128)
    (hlead : (vpOf s part vp).lead = some lead) (hrm : (vpOf s part vp).rm = none) (hpwr : (vpOf s part vp).pwr = true) :
    hpRemove c part vp tmo s =
      vpNote part vp 4 (setVp part vp { vpOf s part vp with rm := some (c, s.tick + tmo) } s) := by
  unfold hpRemove
  rw [if_neg (by simp [hlead]; omega), if_neg (by simp [hrm]), if_neg (by simp [hpwr])]

/-- The port of a device whose slot power has gone off for a removal. -/
def powerOff (part vp l : Nat) (s : State) : State :=
  wr (.phy l) F.PHY_LINK_CTL_PERST 1 (vpNote part vp 5 (setVp part vp { vpOf s part vp with pwr := false } s))

/-- Slot power off ends a removal that waits. -/
theorem slotPower_off {c : Ctx} {part vp n lead : Nat} (h0 : vp ≠ 0) (h64 : vp < 64)
    (hlead : (vpOf s part vp).lead = some lead) (hrm : (vpOf s part vp).rm = some (c, n)) :
    slotPower part vp false s = finish c 0x31 St.ok (unbindVp part vp
      ((powerOff part vp lead s).when ((vpOf s part vp).pwr && linkUp (powerOff part vp lead s) lead) (vpNote part vp 1))) := by
  unfold slotPower
  rw [if_neg (by omega)]
  dsimp only
  split
  next h => exact absurd (h.symm.trans hlead) (by simp)
  next l h =>
    obtain rfl := Option.some.inj (h.symm.trans hlead)
    split
    next c' m h' =>
      obtain ⟨rfl, -⟩ := Prod.mk.inj (Option.some.inj (h'.symm.trans hrm))
      rfl
    next h' => exact absurd (h'.symm.trans hrm) (by simp)

theorem slotPower_unbinds {c : Ctx} {part vp n lead : Nat} (h0 : vp ≠ 0) (h64 : vp < 64)
    (hlead : (vpOf s part vp).lead = some lead) (hrm : (vpOf s part vp).rm = some (c, n)) :
    (vpOf (slotPower part vp false s) part vp).lead = none ∧ (vpOf (slotPower part vp false s) part vp).pwr = false ∧
      rd (slotPower part vp false s) (.phy lead) F.PHY_LINK_CTL_PERST = 1 := by
  have hpg : (Page.evq 128).base ≠ (Page.phy lead).base := (asidePage_phy lead).1
  have hoff : OffQueue F.PHY_LINK_CTL_PERST := by decide
  have hvp : vpOf (powerOff part vp lead s) part vp = ({ vpOf s part vp with pwr := false } : Vp).noted 5 := by
    change vpOf (vpNote part vp 5 (setVp part vp _ s)) part vp = _
    rw [vpOf_vpNote, vpOf_setVp]
  have hperst : rd (powerOff part vp lead s) (.phy lead) F.PHY_LINK_CTL_PERST = 1 := rd_wr_same ..
  rw [slotPower_off h0 h64 hlead hrm]
  generalize powerOff part vp lead s = u at *
  obtain ⟨a, ha⟩ := vp_when_noted ((vpOf s part vp).pwr && linkUp u lead) part vp 1 u
  have hrd : rd (u.when ((vpOf s part vp).pwr && linkUp u lead) (vpNote part vp 1)) (.phy lead) F.PHY_LINK_CTL_PERST = 1 := by
    unfold State.when
    split
    · exact hperst
    · exact hperst
  generalize u.when ((vpOf s part vp).pwr && linkUp u lead) (vpNote part vp 1) = v at *
  obtain ⟨b, hb⟩ := vpOf_unbindVp part vp v
  refine ⟨?_, ?_, ?_⟩
  · rw [vpOf_finish, hb]
  · rw [vpOf_finish, hb, ha, hvp]
    rfl
  · exact (rd_complete_off c _ _ 0 0 hoff hpg _).trans ((rd_unbindVp_off hoff hpg part vp v).trans hrd)

/-- An HP_REMOVE that waits too long is told so. -/
def removeGaveUp (c : Ctx) (part vp : Nat) (s : State) : State :=
  finish c 0x31 St.hostHeld (setVp part vp { vpOf s part vp with rm := none } s)

theorem hpRemoveTimeout_of_waits {c : Ctx} {part vp n : Nat} (hby : NoneDueBy n s) (hrm : (vpOf s part vp).rm = some (c, n))
    (hclk : clockRuns s = true) : hpRemoveTimeout part vp s = removeGaveUp c part vp (advanceTo n s) := by
  have hthen : (vpOf (advanceTo n s) part vp).rm = some (c, n) := by
    rw [vpOf_advanceTo]
    exact hrm
  simp only [hpRemoveTimeout, hrm]
  rw [atDue_none hby (.inr hclk), if_pos hthen]
  rfl

/-- Settles O28: a device is put at a port, asked out of it, kept by its host, and let go with its power. -/
theorem hotPlug : Obligations.HotPlug := by
  unfold Obligations.HotPlug
  refine ⟨?_, ?_, ?_, ?_⟩
  · intro s c part vp lead hdue hcore h0 h64 hpart hl hrole his hfree htgt hnone
    refine ⟨_, congrArg (done s) ((dueThen_of_noneDue _ hdue).trans (byCore_of_coreActs _ hcore)), ?_⟩
    obtain ⟨hlead, hrm, hbinds, hports⟩ := hpAdd_binds (c := c) h0 h64 hpart hl hrole his hfree htgt hnone
    generalize hpAdd c part vp lead s = u at *
    rw [vpOf_settled]
    exact ⟨hlead, hrm, hbinds, hports⟩
  · intro s c part vp tmo lead hdue hcore h0 h64 hpart hlead hrm hpwr
    refine ⟨_, congrArg (done s) ((dueThen_of_noneDue _ hdue).trans ((byCore_of_coreActs _ hcore).trans
      (hpRemove_waits h0 h64 hpart hlead hrm hpwr))), ?_⟩
    rw [vpOf_settled, vpOf_vpNote, vpOf_setVp]
    exact ⟨rfl, rfl, rfl⟩
  · intro s c part vp n hby hrm hclk
    refine ⟨_, congrArg (done s) (hpRemoveTimeout_of_waits hby hrm hclk), ?_⟩
    have hvp : vpOf (removeGaveUp c part vp (advanceTo n s)) part vp = { vpOf s part vp with rm := none } := by
      rw [removeGaveUp, vpOf_finish, vpOf_setVp, vpOf_advanceTo]
    have htick : (removeGaveUp c part vp (advanceTo n s)).tick = max s.tick n := by
      rw [removeGaveUp, finish_tick, setVp_tick, advanceTo_tick n hclk]
    generalize removeGaveUp c part vp (advanceTo n s) = u at *
    rw [vpOf_settled, hvp]
    exact ⟨rfl, htick, rfl⟩
  · intro s c part vp n lead hdue hfr h0 h64 hlead hrm
    refine ⟨_, congrArg (done s) (dueThen_unfrozen _ hdue hfr), ?_⟩
    obtain ⟨hl, hp, hrd⟩ := slotPower_unbinds h0 h64 hlead hrm
    generalize slotPower part vp false s = u at *
    rw [vpOf_settled, rd_settled]
    exact ⟨hl, hp, hrd⟩

end Sys2Proof.Machine
end

section
/-! SUPPORT. What a failed access leaves of the requests that are held and of the table (06 R120, R124), and the decoder (06 R110). -/
namespace Sys2Proof.Machine
variable {s t u : State}

/-- Two states agree on the clock and on all of the maps but the requests that are sent on and what faults log. -/
structure FaultStep (s t : State) : Prop where
  tick : t.tick = s.tick
  maps : t.maps = { s.maps with
    fwds := t.maps.fwds, nextId := t.maps.nextId, faultSlot := t.maps.faultSlot, urLog := t.maps.urLog, caLog := t.maps.caLog }

namespace FaultStep

theorem refl (s : State) : FaultStep s s := ⟨rfl, rfl⟩

theorem trans (h : FaultStep s t) (g : FaultStep t u) : FaultStep s u := by
  refine ⟨g.tick.trans h.tick, ?_⟩
  rw [g.maps, h.maps]

theorem of_same (ht : t.tick = s.tick) (hm : t.maps = s.maps) : FaultStep s t := ⟨ht, by rw [hm]⟩

theorem held (h : FaultStep s t) : t.maps.held = s.maps.held := by rw [h.maps]

theorem ioWait (h : FaultStep s t) : t.maps.ioWait = s.maps.ioWait := by rw [h.maps]

theorem each {α : Type} (l : List α) {f : α → State → State} (h : ∀ a s, FaultStep s (f a s)) (s : State) :
    FaultStep s (s.each l f) := by
  induction l generalizing s with
  | nil => exact refl s
  | cons a l ih => exact (h a s).trans (ih (f a s))

theorem linkMessage (e : Entry) (m : LMsg) (s : State) : FaultStep s (linkMessage e m s) :=
  of_same (CellStep.linkMessage e m s).beside.aside.tick (CellStep.linkMessage e m s).maps

theorem forwardTo (own : Bool) (tc dmod dport dpart : Nat) (f : Fwd) (s : State) :
    FaultStep s (forwardTo own tc dmod dport dpart f s) := by
  have hname (g : Fwd) (n : Nat) :
      FaultStep s { s with maps := { s.maps with fwds := s.maps.fwds ++ [g], nextId := n } } := ⟨rfl, rfl⟩
  unfold Machine.forwardTo
  dsimp only
  split
  · split
    case h_6 => exact hname ..
    all_goals exact (hname ..).trans (linkMessage ..)
  · exact (hname ..).trans (linkMessage ..)

theorem home (h : Home) (s : State) : FaultStep s { s with home := h } := ⟨rfl, rfl⟩

theorem alcFound (n : Nat) (l : LineId) (part : Nat) (s : State) : FaultStep s (alcFound n l part s) := by
  have hlose (b : Bool) (k : List LineId) (v : State) :
      FaultStep v (v.when b (State.each k fun y => loseResv y .lostError fun _ => false)) := by
    cases b
    · exact refl v
    · exact each k (fun y v => home _ v) v
  unfold Machine.alcFound
  split
  · exact refl s
  · dsimp only
    split
    · exact (home _ s).trans ((hlose _ _ _).trans (of_same (bumpBy_tick ..) (bumpBy_maps ..)))
    · exact (home _ s).trans ((hlose _ _ _).trans (of_same (bump_tick ..) (bump_maps ..)))

theorem alcWriteback (n : Nat) (l : LineId) (s : State) : FaultStep s (alcWriteback n l s) := by
  unfold Machine.alcWriteback
  split
  · exact refl s
  · dsimp only
    split
    · exact refl s
    · exact (alcFound ..).trans ((home _ _).trans (forwardTo ..))

theorem startDrain (part : Nat) (why : DrainFor) (s : State) : FaultStep s (startDrain part why s) := by
  have h := each ((s.home.alc.filter fun a => a.fill == part && a.dirty).filter fun a => usable s a.line.out)
    (fun (a : AlcL) v => alcWriteback a.tile a.line v) s
  exact h.trans ⟨rfl, rfl⟩

theorem post (q typ : Nat) (l : List (Nat × Nat)) (s : State) : FaultStep s (post q typ l s) :=
  of_same (post_tick ..) (post_maps ..)

theorem faultSlot (l : List (Nat × Nat)) (s : State) : FaultStep s { s with maps := { s.maps with faultSlot := l } } := ⟨rfl, rfl⟩

theorem accessFault (part kind reqKind level idx off : Nat) (s : State) :
    FaultStep s (accessFault part kind reqKind level idx off s) := by
  have hcount (f : Fld) : FaultStep s (bump (.pmd part) f s) := of_same (bump_tick ..) (bump_maps ..)
  have hreport (v : State) (x : Nat × Nat) (l : List (Nat × Nat)) (pay : List (Nat × Nat)) (hv : FaultStep s v) :
      FaultStep s (if v.maps.faultSlot.contains x then v
        else Machine.startDrain part .error (Machine.post part 1 pay { v with maps := { v.maps with faultSlot := l } })) := by
    split
    · exact hv
    · exact hv.trans ((faultSlot l v).trans ((post ..).trans (startDrain ..)))
  unfold Machine.accessFault postError
  dsimp only
  split <;> exact hreport _ _ _ _ (hcount _)

theorem respond (part lead : Nat) (fromVp : Option Nat) (tag : Nat) (k : Rsp) (data : Nat) (poison : Bool) (md : MetaVal)
    (s : State) : FaultStep s (respond part lead fromVp tag k data poison md s) := by
  unfold Machine.respond
  split
  · exact refl s
  · exact ⟨rfl, rfl⟩

theorem failReply (part lead : Nat) (fromVp : Option Nat) (kind : Nat) (errmode : Bool) (r : Req) (s : State) :
    FaultStep s (failReply part lead fromVp kind errmode r s) := by
  unfold Machine.failReply
  dsimp only
  split
  · exact respond ..
  · exact respond ..
  · exact respond ..
  · exact respond ..
  · exact respond ..
  · split <;> exact ⟨rfl, rfl⟩
  · split <;> exact ⟨rfl, rfl⟩
  all_goals exact respond ..

theorem count (pg : Page) (code n : Nat) (e : Attr) (s : State) : FaultStep s (count pg code n e s) := by
  obtain ⟨x, hx⟩ := count_tel_only pg code n e s
  rw [hx]
  exact ⟨rfl, rfl⟩

theorem failReq (part lead : Nat) (fromVp : Option Nat) (kind idx : Nat) (errmode : Bool) (off : Nat) (r : Req) (s : State) :
    FaultStep s (failReq part lead fromVp kind idx errmode off r s) :=
  (accessFault ..).trans ((count ..).trans (failReply ..))

theorem failHeld (kind : Nat) (h : Held) (s : State) : FaultStep s (failHeld kind h s) := failReq ..

end FaultStep

/-- A request held too long under a stopped entry is no longer held. -/
theorem holdEnd_of_lone {h : Held} {i : Nat} (hheld : s.maps.held = [h]) (hio : s.maps.ioWait = []) (hbind : h.bind = some i)
    (hstop : (bindOf s i).stopped = true) : (holdEnd h.id s).maps.held = [] ∧ (holdEnd h.id s).tick = s.tick := by
  have hrun : (bindOf s i).running = false := by simp [Binding.running, hstop]
  let u := failHeld FK.hold h { s with maps := { s.maps with held := s.maps.held.filter (·.id != h.id) } }
  have hend : holdEnd h.id s = settle u := by
    have hfind : (s.maps.held.find? fun x => x.id == h.id) = some h := by rw [hheld, List.find?_cons_of_pos (by simp)]
    unfold holdEnd
    simp only [hfind, hbind, hrun, Bool.and_false, Bool.false_eq_true, if_false]
    rfl
  have hstep := FaultStep.failHeld FK.hold h { s with maps := { s.maps with held := s.maps.held.filter (·.id != h.id) } }
  have hnone : u.maps.held = [] := hstep.held.trans (by simp [hheld])
  have hwait : u.maps.ioWait = [] := hstep.ioWait.trans hio
  rw [hend, settle_of_none_held hwait hnone]
  exact ⟨hnone, hstep.tick⟩

theorem holdTimeout_of_lone {h : Held} {n : Nat} (hby : NoneDueBy n s) (hfr : frozen s = false) (hclk : clockRuns s = true)
    (hheld : s.maps.held = [h]) (hdl : h.deadline = some n) :
    unfrozen (holdTimeout h.id) s = unfrozen (holdEnd h.id) (advanceTo n s) := by
  have hrun : holdTimeout h.id s = atDue n (unfrozen (holdEnd h.id)) s := by
    unfold holdTimeout
    rw [hheld, List.find?_cons_of_pos (by simp)]
    simp only [hdl, Option.getD_some]
  simp only [unfrozen, hfr, Bool.false_eq_true, if_false, hrun]
  exact atDue_none hby (.inr hclk) _

/-- The host tells what has become of its offer of an extent. -/
theorem dcResponse_accepts {idx : Nat} (h : s.maps.offers.contains idx = true) :
    (dcResponse idx true s).maps =
      { s.maps with offers := s.maps.offers.filter (· != idx), extents := s.maps.extents ++ [idx] } := by
  unfold dcResponse
  rw [if_neg (by rw [h]; decide)]
  simp [State.when]

/-- The host releases an extent of its own. -/
theorem releaseDynamicCapacity_of_free {part off len idx : Nat} {b : Binding} (hw : s.maps.waits = []) (hp : s.maps.pend = [])
    (hfind : (s.maps.binds.find? fun e =>
      e.2.valid && e.2.hasOff && e.2.part == part && e.2.base == off && e.2.bytes == len) = some (idx, b)) :
    releaseDynamicCapacity part off len s = bindPend ⟨idx, .remove, none, 0, true, 0⟩ s := by
  unfold releaseDynamicCapacity
  simp only [hfind, hw, hp, List.find?_nil, List.any_nil, Bool.false_eq_true, if_false]

/-- The decoder of a PMD that is committed at an address. -/
def committed (part base : Nat) (s : State) : State :=
  s |> decFail part 0 |> wr (.pmd part) F.PMD_STS_DEC_COMMIT 1 |> wr (.pmd part) F.PMD_BASE_HI_BASE (base / 2 ^ 32)

/-- The decoder of a PMD that is not, for its values. -/
def uncommitted (part : Nat) (s : State) : State :=
  s |> decFail part 1 |> wr (.pmd part) F.PMD_STS_DEC_COMMIT 0 |> wr (.pmd part) F.PMD_STS_DEC_ERR 1

theorem decoderCommit_good {part base : Nat} (halign : base % 2 ^ 40 = 0) (hlt : base < 2 ^ 64) :
    decoderCommit part base (rd s (.pmd part) F.PMD_CFG_CAP * 2 ^ 21) 1 s = committed part base s := by
  unfold decoderCommit
  dsimp only
  rw [if_neg (by simp; omega)]
  rfl

theorem decoderCommit_bad {part base size ways : Nat} (h : base % 2 ^ 40 ≠ 0 ∨ ways ≠ 1) :
    decoderCommit part base size ways s = uncommitted part s := by
  unfold decoderCommit
  dsimp only
  rw [if_pos (by tauto)]
  rfl

/-- Settles O27: extents that the host takes and gives, a request held too long, and the one decoder. -/
theorem dynamicCapacityAndDecoder : Obligations.DynamicCapacityAndDecoder := by
  unfold Obligations.DynamicCapacityAndDecoder
  refine ⟨?_, ?_, ?_, ?_, ?_⟩
  · intro s idx hdue hfr hoff
    refine ⟨_, congrArg (done s) (dueThen_unfrozen _ hdue hfr), ?_⟩
    rw [settled_maps, dcResponse_accepts hoff]
    exact ⟨rfl, by simp, rfl, rfl⟩
  · intro s part off len idx b hdue hfr hw hp hfind
    refine ⟨_, congrArg (done s) ((dueThen_unfrozen _ hdue hfr).trans (releaseDynamicCapacity_of_free hw hp hfind)), ?_, rfl⟩
    rw [settled_maps]
    simp [bindPend, hp]
  · intro s h n i hby hfr hclk hheld hio hdl hbind hstop _ _ _
    have hfr' : frozen (advanceTo n s) = false := by simpa [frozen] using hfr
    have hrun := (holdTimeout_of_lone hby hfr hclk hheld hdl).trans (if_neg (by simp [hfr']))
    obtain ⟨hnone, htick⟩ := holdEnd_of_lone (s := advanceTo n s) (h := h) (i := i) (by rw [advanceTo_maps]; exact hheld)
      (by rw [advanceTo_maps]; exact hio) hbind (by rw [bindOf, advanceTo_maps]; exact hstop)
    rw [advanceTo_tick n hclk] at htick
    refine ⟨_, congrArg (done s) hrun, ?_⟩
    generalize holdEnd h.id (advanceTo n s) = u at *
    exact ⟨htick, hnone⟩
  · intro s part base hdue hfr halign hlt
    refine ⟨_, congrArg (done s) ((dueThen_unfrozen _ hdue hfr).trans (decoderCommit_good halign hlt)), ?_, ?_, rfl⟩
    · rw [rd_settled, committed, rd_wr_off _ _ (by decide) (by decide) (by decide), rd_wr_same]
      rfl
    · rw [rd_settled, committed, rd_wr_of_lt (f := F.PMD_BASE_HI_BASE)]
      change base / 2 ^ 32 < 2 ^ 32
      omega
  · intro s part base size ways hdue hfr h
    refine ⟨_, congrArg (done s) ((dueThen_unfrozen _ hdue hfr).trans (decoderCommit_bad h)), ?_, ?_, rfl⟩
    · rw [rd_settled, uncommitted, rd_wr_place _ _ (by decide), rd_wr_same]
      rfl
    · rw [rd_settled, uncommitted, rd_wr_same]
      rfl

end Sys2Proof.Machine
end

section
/-! SUPPORT. Changes of the binding table: what is dispatched, and what is visible at its Tc (06 R113, R117, R122, R123). -/
namespace Sys2Proof.Machine
variable {s t : State}

theorem bindOf_congr (h : t.maps.binds = s.maps.binds) (i : Nat) : bindOf t i = bindOf s i := by rw [bindOf, h, bindOf]

theorem bindOf_settled (q : List Instr) (i : Nat) (s : State) : bindOf (settled q s) i = bindOf s i := rfl

theorem bindOf_setBind_same (i : Nat) (b : Binding) (s : State) : bindOf (setBind i b s) i = b := tget_tput_same ..

theorem bindOf_setBind_other {i j : Nat} (b : Binding) (s : State) (h : j ≠ i) : bindOf (setBind i b s) j = bindOf s j :=
  tget_tput_other _ _ _ _ h.symm

theorem countTc_tel_only (part : Nat) (s : State) : ∃ x, countTc part s = { s with tel := x } :=
  each_tel_only (fun a => count_tel_only (.bindT a) 0x19 1 _) _ s

theorem completeO_tick (c : Option Ctx) (op st r0 : Nat) (s : State) : (completeO c op st r0 s).tick = s.tick := by
  unfold completeO
  split
  · exact complete_tick ..
  · rfl

/-! ### What is dispatched -/

theorem bindPend_pend (p : BPend) (s : State) : (bindPend p s).maps.pend = s.maps.pend ++ [{ p with since := s.tick }] := rfl

theorem bindDel_of_stopped {idx tmo : Nat} (c : Ctx) (h0 : 0 < tmo) (hlt : tmo < 2 ^ 32) (hv : (bindOf s idx).valid = true)
    (hb : bindBusy s idx = false) (hp : partSt s (bindOf s idx).part = 2) :
    bindDel c idx tmo s = bindPend ⟨idx, .remove, some c, 0x21, false, 0⟩ s := by
  unfold bindDel bindDelDo
  dsimp only
  rw [if_neg (by omega), if_neg (by simp [hv]), if_neg (by simp [hb]), if_neg (by omega), if_pos hp]

/-- A deletion that asks the host of a running partition for the extent. -/
def askedBack (c : Ctx) (idx tmo : Nat) (s : State) : State :=
  State.say (.dcAsk (bindOf s idx).part idx)
    { s with maps := { s.maps with
      waits := s.maps.waits ++ [⟨idx, true, some c, some (s.tick + tmo), false, s.tick, bindOf s idx⟩] } }

theorem bindDel_of_running {idx tmo : Nat} (c : Ctx) (h0 : 0 < tmo) (hlt : tmo < 2 ^ 32) (hv : (bindOf s idx).valid = true)
    (hb : bindBusy s idx = false) (hp : partSt s (bindOf s idx).part = 0) (hk : (bindOf s idx).kind = 0) :
    bindDel c idx tmo s = askedBack c idx tmo s := by
  unfold bindDel bindDelDo
  dsimp only
  rw [if_neg (by omega), if_neg (by simp [hv]), if_neg (by simp [hb]), if_neg (by omega), if_neg (by omega), if_neg (by omega)]
  rfl

theorem bindRun_of_free {idx op : Nat} (c : Ctx) (what : BChange) (hv : (bindOf s idx).valid = true)
    (hb : bindBusy s idx = false) : bindRun c op idx what s = bindPend ⟨idx, what, some c, op, false, 0⟩ s := by
  unfold bindRun
  rw [if_neg (by simp [hv]), if_neg (by simp [hb])]

/-! ### What is visible at its Tc -/

/-- The change of an entry that is dispatched alone. -/
theorem bindTc_of_lone {p : BPend} (hpend : s.maps.pend = [p]) (hv : (bindOf s p.idx).valid = true ∨ ∃ b, p.what = .place b) :
    bindTc p.idx s = bindChange p { s with maps := { s.maps with pend := [] } } := by
  have hfind : (s.maps.pend.find? fun q => q.idx == p.idx) = some p := by rw [hpend, List.find?_cons_of_pos (by simp)]
  have hrest : dropFirst (fun q => q.idx == p.idx) s.maps.pend = [] := by rw [hpend, dropFirst, if_pos (by simp)]
  have hv' : (bindOf { s with maps := { s.maps with pend := [] } } p.idx).valid = true ∨ ∃ b, p.what = .place b := hv
  unfold bindTc
  simp only [hfind, hrest]
  generalize ({ s with maps := { s.maps with pend := [] } } : State) = u at *
  split
  · rfl
  next hno =>
    rcases hv' with hv' | ⟨b, hb⟩
    · rw [if_pos hv']
    · exact absurd hb (hno b)

/-- An entry is placed at an index that held none. -/
theorem placeTc_binds {p : BPend} (b : Binding) (hv : (bindOf s p.idx).valid = false) :
    (placeTc p b s).maps.binds = (setBind p.idx { b with gen := 0 } s).maps.binds ∧
      (placeTc p b s).maps.pend = s.maps.pend := by
  unfold placeTc
  dsimp only
  rw [if_neg (by simp [hv]), completeO_maps]
  unfold State.when
  split <;> exact ⟨rfl, rfl⟩

/-- Nothing is held, and nothing waits at an ingress or for an end. -/
structure NoneWaiting (s : State) : Prop where
  held : s.maps.held = []
  ioWait : s.maps.ioWait = []
  waits : s.maps.waits = []

/-- An entry is removed that nothing is held for. -/
theorem removeTc_binds {p : BPend} (hdrain : p.drain = false) (h : NoneWaiting s) :
    (removeTc p s).maps.binds = (setBind p.idx Binding.empty s).maps.binds := by
  obtain ⟨hheld, hio, hwaits⟩ := h
  unfold removeTc
  simp only [hheld, hwaits, hdrain, List.filter_nil, List.map_nil, Bool.false_eq_true, if_false, Bool.false_and,
    failHeldOf, State.each, List.any_nil, Bool.not_false, List.foldl_nil]
  rw [settle_of_none_held (by exact hio) rfl]
  rw [delCheck_of_none_waits (by rw [State.when, if_pos rfl, completeO_maps]; rfl)]
  rw [State.when, if_pos rfl, completeO_maps]
  rfl

/-- An entry that leaves RUN. -/
theorem stopTc_binds {p : BPend} (hrun : (bindOf s p.idx).stopped = false) :
    (stopTc p s).maps.binds = (setBind p.idx { bindOf s p.idx with stopped := true, qstop := false } s).maps.binds ∧
      (stopTc p s).maps.waits = s.maps.waits ++ [⟨p.idx, false, p.ctx, none, false, s.tick, bindOf s p.idx⟩] := by
  unfold stopTc
  dsimp only
  rw [if_neg (by simp [hrun])]
  exact ⟨rfl, rfl⟩

theorem bindChange_remove {p : BPend} (hw : p.what = .remove) (s : State) :
    ∃ x, bindChange p s = removeTc p { s with tel := x } := by
  obtain ⟨x, hx⟩ := countTc_tel_only (bindOf s p.idx).part s
  refine ⟨x, ?_⟩
  simp only [bindChange, hw, hx]

theorem bindChange_stop {p : BPend} (hw : p.what = .stop) (s : State) :
    ∃ x, bindChange p s = stopTc p { s with tel := x } := by
  obtain ⟨x, hx⟩ := countTc_tel_only (bindOf s p.idx).part s
  refine ⟨x, ?_⟩
  simp only [bindChange, hw, hx]

theorem bindChange_place {p : BPend} {b : Binding} (hw : p.what = .place b) (s : State) :
    ∃ x, bindChange p s = placeTc p b { s with tel := x } := by
  obtain ⟨x, hx⟩ := countTc_tel_only b.part s
  refine ⟨x, ?_⟩
  simp only [bindChange, hw, hx]

theorem bindTc_remove {p : BPend} (hpend : s.maps.pend = [p]) (hv : (bindOf s p.idx).valid = true) (hw : p.what = .remove)
    (hd : p.drain = false) (h : NoneWaiting s) :
    (bindTc p.idx s).maps.binds = (setBind p.idx Binding.empty s).maps.binds := by
  obtain ⟨x, hx⟩ := bindChange_remove hw { s with maps := { s.maps with pend := [] } }
  rw [bindTc_of_lone hpend (.inl hv), hx]
  exact removeTc_binds hd ⟨h.held, h.ioWait, h.waits⟩

theorem bindTc_stop {p : BPend} (hpend : s.maps.pend = [p]) (hv : (bindOf s p.idx).valid = true) (hw : p.what = .stop)
    (hrun : (bindOf s p.idx).stopped = false) :
    (bindTc p.idx s).maps.binds = (setBind p.idx { bindOf s p.idx with stopped := true, qstop := false } s).maps.binds ∧
      (bindTc p.idx s).maps.waits = s.maps.waits ++ [⟨p.idx, false, p.ctx, none, false, s.tick, bindOf s p.idx⟩] := by
  obtain ⟨x, hx⟩ := bindChange_stop hw { s with maps := { s.maps with pend := [] } }
  rw [bindTc_of_lone hpend (.inl hv), hx]
  exact stopTc_binds hrun

theorem bindTc_place {p : BPend} {b : Binding} (hpend : s.maps.pend = [p]) (hw : p.what = .place b)
    (hv : (bindOf s p.idx).valid = false) :
    (bindTc p.idx s).maps.binds = (setBind p.idx { b with gen := 0 } s).maps.binds ∧ (bindTc p.idx s).maps.pend = [] := by
  obtain ⟨x, hx⟩ := bindChange_place hw { s with maps := { s.maps with pend := [] } }
  rw [bindTc_of_lone hpend (.inr ⟨b, hw⟩), hx]
  exact placeTc_binds b hv

/-! ### What ends -/

/-- A deletion that the host has held too long. -/
theorem bindDelTimeout_of_waits {idx n : Nat} {w : BWait} (hby : NoneDueBy n s) (hclk : clockRuns s = true)
    (hfind : (s.maps.waits.find? fun w => w.idx == idx && w.del && w.deadline.isSome) = some w) (hn : w.deadline = some n) :
    bindDelTimeout idx s = completeO w.ctx 0x21 St.hostHeld 0
      { advanceTo n s with maps := { s.maps with waits := s.maps.waits.filter (· ≠ w) } } := by
  have hmem : s.maps.waits.contains w = true := by simpa using List.mem_of_find?_eq_some hfind
  unfold bindDelTimeout
  simp only [hfind, hn, Option.getD_some]
  rw [atDue_none hby (.inr hclk)]
  simp only [advanceTo_maps]
  rw [if_pos hmem]

/-- An entry that is stopped once what came before its Tc is done. -/
theorem bindStopped_of_idle {idx : Nat} {w : BWait} (hfind : (s.maps.waits.find? fun w => w.idx == idx && !w.del) = some w)
    (hidle : bindIdle s idx (some w.tc) = true) :
    bindStopped idx s = completeO w.ctx 0x22 St.ok 0 (setBind idx { bindOf s idx with qstop := true }
      { s with maps := { s.maps with waits := s.maps.waits.filter (· ≠ w) } }) := by
  unfold bindStopped
  simp only [hfind]
  rw [if_pos hidle]

/-- Settles O26: an entry is deleted, stopped and started. -/
theorem bindingChanges : Obligations.BindingChanges := by
  unfold Obligations.BindingChanges
  refine ⟨?_, ?_, ?_, ?_, ?_, ?_, ?_, ?_⟩
  · intro s c idx tmo hdue hcore h0 hlt hv hb hp
    exact ⟨_, congrArg (done s) ((dueThen_of_noneDue _ hdue).trans ((byCore_of_coreActs _ hcore).trans
      (bindDel_of_stopped c h0 hlt hv hb hp))), rfl, rfl⟩
  · intro s c idx tmo hdue hcore h0 hlt hv hb hp hk
    exact ⟨_, congrArg (done s) ((dueThen_of_noneDue _ hdue).trans ((byCore_of_coreActs _ hcore).trans
      (bindDel_of_running c h0 hlt hv hb hp hk))), rfl, rfl⟩
  · intro s idx op n c hdue hfr hpend hheld hwaits hio hv
    refine ⟨_, congrArg (done s) (dueThen_unfrozen _ hdue hfr), ?_⟩
    have hbinds := bindTc_remove hpend hv rfl rfl ⟨hheld, hio, hwaits⟩
    generalize bindTc idx s = u at *
    refine ⟨?_, fun j hj => ?_⟩
    · rw [bindOf_settled, bindOf_congr hbinds, bindOf_setBind_same]
      rfl
    · rw [bindOf_settled, bindOf_congr hbinds, bindOf_setBind_other _ _ hj]
  · intro s idx n w hby hclk hfind hn
    refine ⟨_, congrArg (done s) (bindDelTimeout_of_waits hby hclk hfind hn), ?_, ?_, ?_⟩
    · rw [settled_tick, completeO_tick]
      exact advanceTo_tick n hclk
    · rw [settled_maps, completeO_maps]
    · rw [settled_maps, completeO_maps]
  · intro s c idx hdue hcore hv hb
    exact ⟨_, congrArg (done s) ((dueThen_of_noneDue _ hdue).trans ((byCore_of_coreActs _ hcore).trans
      (bindRun_of_free c .stop hv hb))), rfl, rfl⟩
  · intro s idx op n c hdue hfr hpend hv hrun
    refine ⟨_, congrArg (done s) (dueThen_unfrozen _ hdue hfr), ?_⟩
    obtain ⟨hbinds, hwaits⟩ := bindTc_stop hpend hv rfl hrun
    generalize bindTc idx s = u at *
    rw [bindOf_settled, bindOf_congr hbinds, bindOf_setBind_same]
    refine ⟨rfl, rfl, ⟨idx, false, some c, none, false, s.tick, bindOf s idx⟩, ?_, rfl, rfl⟩
    rw [settled_maps, hwaits]
    exact List.mem_append_right _ (List.mem_singleton_self _)
  · intro s idx w hdue hfind hidle
    refine ⟨_, congrArg (done s) ((dueThen_of_noneDue _ hdue).trans (bindStopped_of_idle hfind hidle)), ?_, ?_⟩
    · rw [bindOf_settled, bindOf_congr (congrArg Maps.binds (completeO_maps ..)), bindOf_setBind_same]
    · rw [settled_maps, completeO_maps]
      rfl
  · intro s c idx hdue hcore hv hb
    exact ⟨_, congrArg (done s) ((dueThen_of_noneDue _ hdue).trans ((byCore_of_coreActs _ hcore).trans
      (bindRun_of_free c .start hv hb))), rfl, rfl⟩

end Sys2Proof.Machine
end

section
/-! SUPPORT. A free index of the binding table, and the entry that is placed at it (06 R113, R117). -/
namespace Sys2Proof.Machine
variable {s t : State}

/-- Consecutive numbers below a bound differ also when they are counted round it. -/
theorem nodup_round (a : Nat) {n N : Nat} (h : n ≤ N) : ((List.range n).map fun k => (a + k) % N).Nodup := by
  refine List.Nodup.map_on (fun x hx y hy he => ?_) List.nodup_range
  rw [List.mem_range] at hx hy
  have hmod : x ≡ y [MOD N] := Nat.ModEq.add_left_cancel' a he
  exact Nat.ModEq.eq_of_lt_of_lt hmod (by omega) (by omega)

/-- A search through one number more than are in use finds a free one. -/
theorem find_round_free (a : Nat) {used : List Nat} {N : Nat} (h : used.length < N) :
    ∃ i, (((List.range (used.length + 1)).map fun k => (a + k) % N).find? fun i => !used.contains i) = some i ∧
      i < N ∧ i ∉ used := by
  cases hfind : (((List.range (used.length + 1)).map fun k => (a + k) % N).find? fun i => !used.contains i) with
  | none =>
    have hsub : ((List.range (used.length + 1)).map fun k => (a + k) % N) ⊆ used := by
      intro i hi
      have hin := List.find?_eq_none.1 hfind i hi
      simpa using hin
    have hlen := ((nodup_round a (n := used.length + 1) h).subperm hsub).length_le
    simp at hlen
  | some i =>
    refine ⟨i, rfl, ?_, by simpa using List.find?_some hfind⟩
    obtain ⟨k, -, rfl⟩ := List.mem_map.1 (List.mem_of_find?_eq_some hfind)
    exact Nat.mod_lt _ (by omega)

/-- An index that no valid entry has holds no valid entry. -/
theorem bindOf_not_valid {i : Nat} (h : i ∉ (s.maps.binds.filter fun e => e.2.valid).map (·.1)) : (bindOf s i).valid = false := by
  unfold bindOf tget
  cases hfind : s.maps.binds.find? fun e => e.1 == i with
  | none => rfl
  | some e =>
    have hkey : e.1 = i := by simpa using List.find?_some hfind
    by_contra hv
    refine h (List.mem_map.2 ⟨e, List.mem_filter.2 ⟨List.mem_of_find?_eq_some hfind, ?_⟩, hkey⟩)
    simpa using hv

theorem freeIdx_of_room (hp : s.maps.pend = []) (hw : s.maps.waits = [])
    (hroom : (s.maps.binds.filter fun e => e.2.valid).length < 262144) :
    ∃ i, freeIdx s = some i ∧ i < 262144 ∧ (bindOf s i).valid = false := by
  have hused : usedIdx s = (s.maps.binds.filter fun e => e.2.valid).map (·.1) := by simp [usedIdx, hp, hw]
  obtain ⟨i, hfind, hlt, hfree⟩ := find_round_free (Config.freeIndex s.free) (used := usedIdx s) (N := 262144) (by simpa [hused] using hroom)
  refine ⟨i, ?_, hlt, bindOf_not_valid (hused ▸ hfree)⟩
  unfold freeIdx
  dsimp only
  rw [if_neg (by omega), hfind]

/-- Settles O25: a new entry takes a free index, and is visible at its Tc. -/
theorem bindAddAccepted : Obligations.BindAddAccepted := by
  unfold Obligations.BindAddAccepted
  refine ⟨?_, ?_⟩
  · intro s c q0 q1 q2 q3 hdue hcore hquiet hpart hjudge hroom
    obtain ⟨-, -, -, -, hw, hp, -⟩ := hquiet
    obtain ⟨i, hfree, hlt, hnone⟩ := freeIdx_of_room hp hw hroom
    have hrun : bindAdd c false 0 q0 q1 q2 q3 s = bindPend
        ⟨i, .place (.ofWords q0.toNat q1.toNat q2.toNat q3.toNat), some c, 0x20, false, 0⟩ { s with free := s.free + 1 } := by
      unfold bindAdd bindNew
      simp only [Bool.false_eq_true, if_false, hjudge, hfree]
      rw [if_neg hpart]
    refine ⟨_, congrArg (done s) ((dueThen_of_noneDue _ hdue).trans ((byCore_of_coreActs _ hcore).trans hrun)), rfl, i, hlt, hnone, ?_⟩
    rw [settled_maps, bindPend_pend]
    change s.maps.pend ++ _ = _
    rw [hp]
    rfl
  · intro s idx op n c b hdue hfr hpend hv
    refine ⟨_, congrArg (done s) (dueThen_unfrozen _ hdue hfr), ?_⟩
    obtain ⟨hbinds, hnone⟩ := bindTc_place hpend rfl hv
    generalize bindTc idx s = u at *
    refine ⟨?_, hnone, fun j hj => ?_⟩
    · rw [bindOf_settled, bindOf_congr hbinds, bindOf_setBind_same]
    · rw [bindOf_settled, bindOf_congr hbinds, bindOf_setBind_other _ _ hj]

end Sys2Proof.Machine
end

section
/-! SUPPORT. A read with a local entry goes from its link to the entry's target (06 R114, R118, R119). -/
namespace Sys2Proof.Machine
variable {s t u : State}

/-- Two states agree on what the way of a request through its entry depends on. -/
structure LookupStep (s t : State) : Prop where
  cfg : CfgSame s t
  fwds : t.maps.fwds = s.maps.fwds
  ports : t.ports = s.ports
  home : t.home = s.home
  wab : t.wab = s.wab
  parts : t.parts = s.parts
  rd : ∀ pg f, (∀ lead, (Page.ing lead).base ≠ pg.base) → f.off * 8 + f.lo < 0x8000 → rd t pg f = rd s pg f

namespace LookupStep

theorem refl (s : State) : LookupStep s s := ⟨.refl s, rfl, rfl, rfl, rfl, rfl, fun _ _ _ _ => rfl⟩

theorem trans (h : LookupStep s t) (g : LookupStep t u) : LookupStep s u :=
  ⟨h.cfg.trans g.cfg, g.fwds.trans h.fwds, g.ports.trans h.ports, g.home.trans h.home, g.wab.trans h.wab,
    g.parts.trans h.parts, fun pg f hp hf => (g.rd pg f hp hf).trans (h.rd pg f hp hf)⟩

theorem ing_base_ne_phy (lead p : Nat) : (Page.ing lead).base ≠ (Page.phy p).base := by
  simp only [Page.base, portBase, tileBase]
  omega

theorem bump_ing (lead : Nat) {f : Fld} (hf : f.off * 8 + f.lo < 0x8000) (s : State) : LookupStep s (bump (.ing lead) f s) :=
  ⟨.wr _ s hf (ing_base_ne_phy lead), rfl, rfl, rfl, rfl, rfl,
    fun _ _ hp hg => rd_wr_page s _ (hp lead) hf hg⟩

theorem count (pg : Page) (code n : Nat) (e : Attr) (s : State) : LookupStep s (count pg code n e s) := by
  obtain ⟨x, hx⟩ := count_tel_only pg code n e s
  rw [hx]
  exact ⟨.of_regs rfl, rfl, rfl, rfl, rfl, rfl, fun _ _ _ _ => rfl⟩

theorem cacheTouch (lead idx : Nat) (s : State) : LookupStep s (cacheTouch lead idx s) := ⟨.of_regs rfl, rfl, rfl, rfl, rfl, rfl, fun _ _ _ _ => rfl⟩

theorem usable (h : LookupStep s t) (out : Nat) : usable t out = usable s out := by
  have hphase : ∀ p, (linkOf t p).phase = (linkOf s p).phase := fun p => by rw [linkOf_congr h.ports]
  rw [h.cfg.usable hphase]

end LookupStep

/-- A lookup that no upset meets gives the entry of the table. -/
theorem lookup_found {lead tile part off idx : Nat} {b : Binding} {r : Req} (h : lookupOff s part off = some (idx, b)) :
    ∃ v, lookup Upset.none lead tile part off r s = (some (idx, b), v) ∧ LookupStep s v := by
  have hseen := LookupStep.count (.ing lead) 0x03 1 { reqAttr part lead off r with t := none, o := none } s
  unfold lookup lookupIn
  rw [h]
  dsimp only
  generalize count (.ing lead) 0x03 1 { reqAttr part lead off r with t := none, o := none } s = v at *
  split
  · exact ⟨_, rfl, hseen.trans (.cacheTouch ..)⟩
  next hmiss =>
    have hcached : (tget [] v.maps.cache lead).contains idx = false := by simpa [Upset.none] using hmiss
    simp only [hcached, State.when, Bool.false_eq_true, if_false]
    rw [readReplica_of_good (n := tile) (rep := Upset.none.rep) rfl]
    exact ⟨_, rfl, hseen.trans ((LookupStep.bump_ing lead (by decide) v).trans ((LookupStep.count ..).trans (.cacheTouch ..)))⟩

/-- What a request leaves behind that is sent on. -/
theorem forwardTo_fwds (own : Bool) (tc dmod dport dpart : Nat) (f : Fwd) (s : State) :
    (forwardTo own tc dmod dport dpart f s).maps.fwds = s.maps.fwds ++ [{ f with id := s.maps.nextId, own := own, tc := tc }] := by
  unfold forwardTo
  dsimp only
  split
  · split
    case h_6 => rfl
    all_goals rw [(CellStep.linkMessage ..).maps]
  · rw [(CellStep.linkMessage ..).maps]

/-- A read of an unshared local line that no entry of the WAB or of the ALC concerns is sent to its target. -/
theorem direct_of_read {h : Held} {idx off : Nat} {b : Binding} {r : Req} (hop : r.op = .memRd) (hk : b.kind = 0)
    (hsh : b.shared = false) (hup : usable s b.out = true) (halc : s.home.alc = []) (hloq : s.home.loq = [])
    (hents : s.wab.ents = []) :
    direct Upset.none h idx b none r off s =
      forward false b.tc 0 0 (hostFwd h idx none (partSt s h.part != 0) b.stopped r b.out b.ld (b.dpaOf off))
        (strike (hostTile s h.part) Upset.none s) := by
  have hcached (n : Nat) (l : LineId) : atHome (strike (hostTile s h.part) Upset.none s) n l = false := by
    simp [atHome, strike, halc, hloq]
  have hnone (n : Nat) (l : LineId) : wabAt (strike (hostTile s h.part) Upset.none s) n h.part l = none := by
    simp [wabAt, strike, hents]
  have hup' : usable (strike (hostTile s h.part) Upset.none s) b.out = true := hup
  have hlead : b.lead (strike (hostTile s h.part) Upset.none s) = some b.out := by simp [Binding.lead, hk]
  have hwr : r.op.isMemWrite = false := by simp [hop, ReqOp.isMemWrite]
  unfold direct
  simp only [hcached, hnone, hlead, hk, hsh, hop, ReqOp.isMemWrite, hup', State.when, Option.isSome_none, Bool.false_eq_true, if_false,
    if_true, true_or, Nat.zero_ne_one, Bool.false_and]

/-- A host's request takes the next name at its ingress. -/
def named (x : Tel) (s : State) : State := { s with tel := x, maps := { s.maps with nextId := s.maps.nextId + 1 } }

theorem hostRequest_arrives {p : Nat} (r : Req) (u : Upset) (hrecv : canReceive s p = true) (hrole : roleOf s p = 1) :
    ∃ x, hostRequest p r u s = takeIn u (Held.arrive s.maps.nextId p (hpartOf s p) none r none) (named x s) := by
  obtain ⟨x, hx⟩ := countReq_tel_only p (hpartOf s p) r s
  refine ⟨x, ?_⟩
  simp [hostRequest, hrecv, hrole, hx, arrive, named]

/-- A CXL.mem request that hits an entry in RUN with the right takes its way. -/
theorem memAccess_of_found {h : Held} {idx off : Nat} {b : Binding} (hoff : pmdOff s h.part h.req = off) (hno : off ≠ noOff)
    (hcap : off < rd s (.pmd h.part) F.PMD_CFG_CAP * 2 ^ 21) (hfound : lookupOff s h.part off = some (idx, b))
    (hstop : b.stopped = false) (hallow : h.req.allowed b = true) :
    ∃ v, memAccess Upset.none h s = direct Upset.none h idx b none h.req off v ∧ LookupStep s v := by
  obtain ⟨v, hv, hstep⟩ := lookup_found (lead := h.lead) (tile := h.tile) (r := h.req) hfound
  refine ⟨v, ?_, hstep⟩
  unfold memAccess
  simp only [hoff, hv, hstop, hallow, Bool.false_and, Bool.not_true, Bool.false_eq_true, if_false]
  rw [if_neg (by omega)]

/-- Settles O22: the lookup gives the entry, and the read leaves for the entry's target. -/
theorem hostReadForwarded : Obligations.HostReadForwarded := by
  unfold Obligations.HostReadForwarded
  intro s p idx r b hdue hrecv hquiet hrole hreset hrun hop hspace hcap hoff hfound hstop hallow hk hsh hup
  obtain ⟨-, -, -, hfwds, -, -, hents, -, hloq, halc, -⟩ := hquiet
  obtain ⟨x, hreq⟩ := hostRequest_arrives r Upset.none hrecv hrole
  have htake := takeIn_of_mem (s := named x s) (u := Upset.none) (h := Held.arrive s.maps.nextId p (hpartOf s p) none r none) hreset hrun
    (by simp [Held.arrive, hop, ReqOp.isIo]) rfl rfl hspace
  obtain ⟨v, hmem, hstep⟩ := memAccess_of_found (s := named x s) (h := Held.arrive s.maps.nextId p (hpartOf s p) none r none)
    rfl hoff hcap hfound hstop hallow
  have hway := direct_of_read (s := v) (h := Held.arrive s.maps.nextId p (hpartOf s p) none r none) (idx := idx)
    (off := pmdOff s (hpartOf s p) r) hop hk hsh ((hstep.usable b.out).trans hup) (hstep.home ▸ halc) (hstep.home ▸ hloq)
    (hstep.wab ▸ hents)
  refine ⟨_, congrArg (done s) ((dueThen_of_noneDue _ hdue).trans (hreq.trans (htake.trans (hmem.trans hway)))), ?_⟩
  have hv : v.maps.fwds = [] := hstep.fwds.trans hfwds
  rw [settled_maps, forward, forwardTo_fwds]
  change (v.maps.fwds ++ _).map _ = _ ∧ (v.maps.fwds ++ _).map _ = _
  rw [hv]
  exact ⟨rfl, rfl⟩

end Sys2Proof.Machine
end

section
/-! SUPPORT. The answer of a target on its way to the link that asked (06 R114, Table 6.4; 05 R91). -/
namespace Sys2Proof.Machine
variable {s t u : State}

/-! ### A message of one cell, where no other cell is -/

/-- Where a cell goes, and the responses that it carries. -/
def Cell.load (c : Cell) : Nat × Nat × Nat × List RspRec := (c.out, c.tile, c.tc, c.rsps)

/-- The only cell carries this. -/
def LoneLoad (x : Nat × Nat × Nat × List RspRec) (s : State) : Prop := ∃ c, s.core.cells = [c] ∧ c.load = x

theorem LoneLoad.congr {x : Nat × Nat × Nat × List RspRec} (h : LoneLoad x s) (hcells : t.core.cells = s.core.cells) : LoneLoad x t := by
  obtain ⟨c, hc, hx⟩ := h
  exact ⟨c, hcells.trans hc, hx⟩

theorem loneLoad_takeCell (c : Cell) (h : s.core.cells = []) : LoneLoad c.load (takeCell c s) := by
  obtain ⟨i, a, r, g, hc⟩ := takeCell_of_none c h
  exact ⟨_, hc, rfl⟩

theorem loneLoad_linkVoq {x : Nat × Nat × Nat × List RspRec} {c : Cell} (h : s.core.cells = [c]) (hx : c.load = x) :
    LoneLoad x (linkVoq c.id s) := by
  unfold linkVoq
  rw [cellOf_lone h]
  dsimp only
  split
  all_goals exact ⟨_, toTail_lone _ (by exact h), hx⟩

/-- A cell that is in use waits in its queue with what it carries. -/
theorem loneLoad_queued {x : Nat × Nat × Nat × List RspRec} {id : Nat} (h : LoneLoad x s) (hin : (cellOf s id).any (·.inUse) = true) :
    LoneLoad x (mirror 0 id (linkVoq id (stamp id s))) := by
  obtain ⟨c, hc, hx⟩ := h
  obtain ⟨d, hd, -⟩ := (Option.any_eq_true _ _).1 hin
  obtain rfl : d = c := List.mem_singleton.mp (hc ▸ List.mem_of_find?_eq_some hd)
  obtain rfl : d.id = id := by simpa using List.find?_some hd
  obtain ⟨l, hl⟩ := stamp_lone hc
  exact (loneLoad_linkVoq (c := { d with stamps := l }) hl hx).congr (congrArg Core.cells (mirror_core ..))

theorem loneLoad_ownCells {e : Entry} {m : LMsg} {n units : Nat} (hu : units ≤ 15) (h : s.core.cells = []) :
    LoneLoad (m.out, e.tile, m.tc, m.rsp.toList) (ownCells e m (n + 1) units s) := by
  have htake := loneLoad_takeCell (s := { s with free := s.free + 1 }) (m.cell e (min 15 units) (decide (units ≤ 15)) s) h
  have hload : (m.cell e (min 15 units) (decide (units ≤ 15)) s).load = (m.out, e.tile, m.tc, m.rsp.toList) := by
    simp [LMsg.cell, Cell.load, hu]
  rw [hload] at htake
  unfold ownCells
  dsimp only
  rw [if_pos hu]
  split
  next hin => exact loneLoad_queued htake hin
  next => exact htake

theorem loneLoad_linkMessage {e : Entry} {m : LMsg} (hu : m.units ≤ 14) (h : s.core.cells = []) :
    LoneLoad (m.out, e.tile, m.tc, m.rsp.toList) (linkMessage e m s) := by
  have hn : m.units / 15 + 1 = 0 + 1 := by omega
  have hspent (l : Nat) : (spend l 1 s).core.cells = [] := by rw [spend, modLink_core, h]
  unfold linkMessage
  rw [h, List.find?_nil]
  dsimp only
  rw [hn]
  split
  · split
    · exact (loneLoad_ownCells (by omega) (hspent _)).congr (congrArg Core.cells (endFlit_core ..))
    · exact loneLoad_ownCells (by omega) h
  · exact loneLoad_ownCells (by omega) h

/-! ### What the requester's link is told -/

/-- What is said of a read that its target has answered. -/
def readTold (f : Fwd) (d : Nat) (poison : Bool) (s : State) : List Out :=
  (cplId s f).toList.map (Out.cplFrom f.lead f.req.tag) ++ [.rsp f.lead f.req.tag .drs d poison f.req.md]

theorem hostEnd_of_read {f : Fwd} {d : Nat} {poison : Bool} (hdrop : f.dropped = false) (hjob : f.job = none) (hvp : f.fromVp = none)
    (hop : f.req.op = .memRd) (hreset : resetting s f.part = false) :
    hostEnd f (.ok d poison) s = { s with out := s.out ++ readTold f d poison s } := by
  have hopen (o : List Out) : resetting { s with out := o } f.part = false := hreset
  unfold hostEnd readTold
  simp only [hdrop, hvp, hjob, hop, Option.isSome_none, Bool.false_and, Bool.false_eq_true, if_false, answer]
  cases cplId s f with
  | none => simp [respond, hreset, State.say]
  | some id => simp [respond, State.say, hopen]

/-- Of what is said of a read, the response alone crosses in a cell. -/
theorem splitRsps_readTold (f : Fwd) (d : Nat) (poison : Bool) (s : State) :
    splitRsps f.lead (readTold f d poison s) =
      ([⟨f.lead, f.req.tag, .drs, d, poison, f.req.md⟩], (cplId s f).toList.map (Out.cplFrom f.lead f.req.tag)) := by
  unfold readTold
  cases cplId s f <;> simp [splitRsps]

theorem robDrain_of_none_sent (h : s.maps.fwds = []) (n : Nat) : robDrain n s = s := by
  cases n with
  | zero => rfl
  | succ n =>
    have hnone : (s.core.rob.findSome? fun x =>
        ((s.maps.fwds.find? fun f => f.id == x.1).filter (oldestOf s)).map fun f => (f, x.2)) = none := by
      rw [List.findSome?_eq_none_iff]
      intro x _
      rw [h]
      rfl
    unfold robDrain
    rw [hnone]

/-- Nothing waits for something else to end. -/
structure NothingWaits (s : State) : Prop where
  found : s.home.found = []
  loq : s.home.loq = []
  ioWait : s.maps.ioWait = []
  held : s.maps.held = []
  waits : s.maps.waits = []
  dbg : s.dbg.waiting = none

theorem NothingWaits.afterRetire (h : NothingWaits s) : afterRetire s = s := by
  unfold Machine.afterRetire
  rw [alcReport_of_none h.found, wakeLoq_of_empty h.loq, settle_of_none_held h.ioWait h.held, dbgWake_of_none_waits h.dbg,
    delCheck_of_none_waits h.waits]

theorem NothingWaits.step (h : NothingWaits s) (g : CellStep s t) : NothingWaits t :=
  ⟨g.home ▸ h.found, g.home ▸ h.loq, g.maps ▸ h.ioWait, g.maps ▸ h.held, g.maps ▸ h.waits, g.beside.dbg ▸ h.dbg⟩

/-- The state once the only forward has left the list. -/
def unsent (s : State) : State := { s with maps := { s.maps with fwds := [] } }

theorem dropFwd_lone {f : Fwd} (hf : s.maps.fwds = [f]) (hcells : s.core.cells = []) : dropFwd f.id s = unsent s := by
  unfold dropFwd
  simp only [hcells, List.filter_nil, State.each, List.foldl_nil, hf]
  simp [unsent]

/-- The way of the response to a host's forward. -/
def Fwd.way (f : Fwd) : RspWay := ⟨.link f.out, f.part, f.tc, f.id, f.lead, f.req⟩

/-- The only forward, of a host, is answered: what is said of it goes its way. -/
theorem targetResponse_lone {f : Fwd} {d : LineData} (hrecv : canReceive s f.out = true) (hw : NothingWaits s) (hf : s.maps.fwds = [f])
    (hcells : s.core.cells = []) (hag : f.agent = .host) (hjob : f.job = none)
    (hkept : CellStep (unsent s) (carried f.way (hostEnd f (.ok d.toNat false)) (unsent s))) :
    targetResponse f.out f.id true d false s = carried f.way (hostEnd f (.ok d.toNat false)) (unsent s) := by
  have hold : oldestOf s f = true := by simp [oldestOf, hag, Agent.unit]
  have hnow : fwdEndNow f (.ok d.toNat false) s = carried f.way (hostEnd f (.ok d.toNat false)) (unsent s) := by
    unfold fwdEndNow
    rw [dropFwd_lone hf hcells, hag]
    simp only [reduceCtorEq, if_false, hjob]
    rfl
  have hnone : (carried f.way (hostEnd f (.ok d.toNat false)) (unsent s)).maps.fwds = [] := congrArg Maps.fwds hkept.maps
  have hend : fwdEnd f (.ok d.toNat false) s = carried f.way (hostEnd f (.ok d.toNat false)) (unsent s) := by
    unfold fwdEnd
    rw [if_pos hold]
    dsimp only
    rw [hnow, robDrain_of_none_sent hnone]
  have hwaits : NothingWaits (unsent s) := ⟨hw.found, hw.loq, hw.ioWait, hw.held, hw.waits, hw.dbg⟩
  unfold targetResponse
  rw [if_neg (by simp [hrecv]), hf, List.find?_cons_of_pos (by simp)]
  simp only [if_true]
  rw [hend, (hwaits.step hkept).afterRetire]

/-- What is said in the tile of the requester's link. -/
theorem carried_near {w : RspWay} {g : State → State} (h : 512 ≤ w.lead ∨ tileOf w.lead = w.ent.tile) : carried w g s = g s := if_pos h

/-- A read's answer toward a link of another tile takes one cell. -/
theorem carried_far {f : Fwd} {d : Nat} {poison : Bool} {g : State → State} (h512 : f.lead < 512) (htile : tileOf f.lead ≠ tileOf f.out)
    (hg : g s = { s with out := s.out ++ readTold f d poison s }) :
    carried f.way g s = rspCell f.way ⟨f.lead, f.req.tag, .drs, d, poison, f.req.md⟩
      { s with out := s.out ++ (cplId s f).toList.map (Out.cplFrom f.lead f.req.tag) } := by
  have hfar : ¬(512 ≤ f.way.lead ∨ tileOf f.way.lead = f.way.ent.tile) := by
    rintro (h | h)
    · exact absurd h (Nat.not_le.2 h512)
    · exact htile h
  unfold carried
  dsimp only
  rw [if_neg hfar, hg]
  simp only [List.drop_left]
  rw [show f.way.lead = f.lead from rfl, splitRsps_readTold]
  rfl

theorem cellStep_out (o : List Out) (h : s.out <+: o) : CellStep s { s with out := o } := by
  obtain ⟨l, rfl⟩ := h
  exact ⟨⟨{ Aside.refl s with out := List.prefix_append .. }, rfl, rfl, rfl, rfl⟩, rfl, rfl, rfl, fun _ => rfl⟩

/-- Settles O24: the answer is said on the link that asked, or crosses to its tile in a cell of the request's class. -/
theorem targetAnswers : Obligations.TargetAnswers := by
  unfold Obligations.TargetAnswers
  refine ⟨?_, ?_⟩
  · intro s f data hdue hrecv hfound hdbg hf hcells _ hio hheld hwaits hloq hag hdrop hjob hvp hop hreset hnear
    have hend : carried f.way (hostEnd f (.ok data.toNat false)) (unsent s) =
        { unsent s with out := s.out ++ readTold f data.toNat false (unsent s) } :=
      (carried_near hnear).trans (hostEnd_of_read hdrop hjob hvp hop hreset)
    have hkept : CellStep (unsent s) (carried f.way (hostEnd f (.ok data.toNat false)) (unsent s)) := by
      rw [hend]
      exact cellStep_out _ (List.prefix_append ..)
    refine ⟨_, congrArg (done s) ((dueThen_of_noneDue _ hdue).trans ((targetResponse_lone hrecv
      ⟨hfound, hloq, hio, hheld, hwaits, hdbg⟩ hf hcells hag hjob hkept).trans hend)), rfl, ?_⟩
    change _ ∈ s.out ++ readTold ..
    simp [readTold]
  · intro s f data hdue hrecv hfound hdbg hf hcells _ hio hheld hwaits hloq hag hdrop hjob hvp hop hreset h512 htile
    have hend := carried_far (s := unsent s) h512 htile (hostEnd_of_read (d := data.toNat) (poison := false) hdrop hjob hvp hop hreset)
    have hkept : CellStep (unsent s) (carried f.way (hostEnd f (.ok data.toNat false)) (unsent s)) := by
      rw [hend]
      exact (cellStep_out _ (List.prefix_append ..)).trans (CellStep.linkMessage ..)
    refine ⟨_, congrArg (done s) ((dueThen_of_noneDue _ hdue).trans ((targetResponse_lone hrecv
      ⟨hfound, hloq, hio, hheld, hwaits, hdbg⟩ hf hcells hag hjob hkept))), congrArg Maps.fwds hkept.maps, ?_⟩
    obtain ⟨c, hc, hload⟩ : LoneLoad (f.lead, tileOf f.out, f.tc, [⟨f.lead, f.req.tag, .drs, data.toNat, false, f.req.md⟩])
        (carried f.way (hostEnd f (.ok data.toNat false)) (unsent s)) := by
      rw [hend]
      exact loneLoad_linkMessage (by decide : (5 : Nat) ≤ 14) hcells
    rw [settled_core, hc]
    exact congrArg (fun x => [x]) hload

end Sys2Proof.Machine
end

section
/-! SUPPORT. A state that shows what O30 leaves open: a part of an earlier CXL.io request that waits at its home for a STRANDED entry. -/
namespace Sys2Proof.Machine

/-- A read of the whole fence word. -/
def fenceReq : Req := ⟨.ioRead, .bar0, 0x1F000, 8, 0, 0, 0, .any, 0, 0, none, false, false, false, false⟩

/-- A part of a CXL.io request of partition 0 on link 0, with the earlier name, that waits at the home of tile 0. -/
def waitingPart : LoqE :=
  { LoqE.start 0 0 0 none ⟨0, 0, 0⟩ 0 0 .io fenceReq false false (some 0) with stage := .waitWab }

/-- A STRANDED entry of the line. -/
def strandedLine : WabE := ⟨0, 0, 0, 0, 0, 0, 0, 0, 0, true, 0, 0, 0, false, false, 0, false⟩

/-- The drain of a fence whose cut is done, the fence that waits for it, and the part that it came after. -/
def fencedBehind : State :=
  { State.reset with
    maps := { State.reset.maps with ioWait := [⟨1, 0, 0, none, fenceReq, .drain [0], true⟩] }
    wab := { State.reset.wab with drains := [⟨0, 0, 0, [], .fence⟩], ents := [strandedLine] }
    home := { State.reset.home with loq := [waitingPart] } }

/-- How many requests wait at their ingress in the state that a step reaches. -/
def Ans.ioWaits : Ans → Nat
  | .next t => t.maps.ioWait.length
  | _ => 0

/-- The drain ends, but the fence keeps waiting behind the part. -/
theorem ioWaits_drainComplete_fencedBehind : Ans.ioWaits (exec (.drainComplete 0) fencedBehind) = 1 := by decide

/-- Refutes O30: the fence of a drain that has ended keeps waiting while a part of an earlier CXL.io request of its partition on its link
waits at a home for the entry of its line; the clause on the drain's end asks nothing of the homes. -/
theorem not_drainsAndFence : ¬ Obligations.DrainsAndFence := by
  rintro ⟨-, -, hdrain, -⟩
  obtain ⟨t, ht, -, hwait, -⟩ := hdrain fencedBehind ⟨0, 0, 0, [], .fence⟩ ⟨1, 0, 0, none, fenceReq, .drain [0], true⟩ (by decide) (by decide)
    rfl (by decide) rfl rfl rfl rfl rfl (by decide)
  have hcount := ioWaits_drainComplete_fencedBehind
  rw [ht, Ans.ioWaits, hwait] at hcount
  exact absurd hcount (by decide)

end Sys2Proof.Machine
end

section
/-! SUPPORT. A lone entry of the WAB: how it is taken, acknowledged, stranded, reissued and discarded (07 R128-R137). -/
namespace Sys2Proof.Machine
variable {s t u : State}

/-! ### What an end, a loss and what follows them leave -/

/-- Two states agree on the clock, on requests and homes, and on the entries of the WAB. -/
structure LossStep (s t : State) : Prop where
  tick : t.tick = s.tick
  maps : t.maps = s.maps
  home : t.home = s.home
  dbg : t.dbg = s.dbg
  ents : t.wab.ents = s.wab.ents

namespace LossStep

theorem refl (s : State) : LossStep s s := ⟨rfl, rfl, rfl, rfl, rfl⟩

theorem trans (h : LossStep s t) (g : LossStep t u) : LossStep s u :=
  ⟨g.tick.trans h.tick, g.maps.trans h.maps, g.home.trans h.home, g.dbg.trans h.dbg, g.ents.trans h.ents⟩

theorem each {α : Type} (l : List α) {f : α → State → State} (h : ∀ a s, LossStep s (f a s)) (s : State) : LossStep s (s.each l f) := by
  induction l generalizing s with
  | nil => exact refl s
  | cons a l ih => exact (h a s).trans (ih (f a s))

theorem setNote (i : Nat) (x : LossNote) (s : State) : LossStep s (setNote i x s) := ⟨rfl, rfl, rfl, rfl, rfl⟩

theorem post (q typ : Nat) (l : List (Nat × Nat)) (s : State) : LossStep s (post q typ l s) :=
  ⟨post_tick .., post_maps .., post_home .., post_dbg .., by rw [post_wab]⟩

theorem count (pg : Page) (code n : Nat) (e : Attr) (s : State) : LossStep s (count pg code n e s) := by
  obtain ⟨x, hx⟩ := count_tel_only pg code n e s
  rw [hx]
  exact ⟨rfl, rfl, rfl, rfl, rfl⟩

theorem startDrain (part : Nat) (why : DrainFor) (halc : s.home.alc = []) : LossStep s (startDrain part why s) := by
  rw [startDrain_of_no_lines part why halc]
  exact ⟨rfl, rfl, rfl, rfl, rfl⟩

theorem postError (part typ : Nat) (l : List (Nat × Nat)) (halc : s.home.alc = []) : LossStep s (postError part typ l s) :=
  (post ..).trans (startDrain part .error (by rw [post_home]; exact halc))

theorem noteLoss (part idx : Nat) (halc : s.home.alc = []) : LossStep s (noteLoss part idx s) := by
  unfold Machine.noteLoss
  dsimp only
  split
  · exact setNote ..
  · exact (setNote ..).trans (postError _ _ _ halc)

end LossStep

/-- An entry that stands alone becomes STRANDED, and nothing but its loss is noted. -/
theorem strand_lone {e : WabE} {p : WabE → Bool} (hents : s.wab.ents = [e]) (hp : p e = true) (hs : e.stranded = false)
    (halc : s.home.alc = []) :
    LossStep { s with wab := { s.wab with ents := [{ e with stranded := true }] } } (strand false p s) := by
  unfold strand
  simp only [hents, List.filter_cons_of_pos, hp, hs, Bool.not_false, Bool.and_true, List.filter_nil, List.map_cons, List.map_nil, Bool.not_true,
    Bool.false_eq_true, if_false, State.each, List.foldl_cons, List.foldl_nil, List.dedup_cons_of_notMem, List.dedup_nil, List.not_mem_nil,
    not_false_eq_true]
  have hc := LossStep.count (.wabT e.tile) 0x23 1 { Attr.none with pa := some e.part, po := some e.out }
    { s with wab := { s.wab with ents := [{ e with stranded := true }] } }
  exact hc.trans (.noteLoss _ _ (by rw [hc.home]; exact halc))

theorem NothingWaits.loss (h : NothingWaits s) (g : LossStep s t) : NothingWaits t :=
  ⟨g.home ▸ h.found, g.home ▸ h.loq, g.maps ▸ h.ioWait, g.maps ▸ h.held, g.maps ▸ h.waits, g.dbg ▸ h.dbg⟩

/-! ### A target acknowledges -/

theorem wabEnt_lone {e : WabE} (hents : s.wab.ents = [e]) : wabEnt s e.tile e.id = some e := by simp [wabEnt, hents]

theorem modWab_lone {e : WabE} (g : WabE → WabE) (hents : s.wab.ents = [e]) :
    modWab e.tile e.id g s = { s with wab := { s.wab with ents := [g e] } } := by
  simp [modWab, hents, modFirst]

/-- An entry without its one forward, as its target has answered. -/
def WabE.answered (ok : Bool) (e : WabE) : WabE := { e with outs := e.outs - 1, err := e.err || !ok }

theorem wabAcked_good {e : WabE} (hents : s.wab.ents = [e]) (hs : e.stranded = false) (herr : e.err = false) (houts : e.outs = 1)
    (hre : e.re = 0) (hdet : e.det = false) :
    wabAcked e.tile e.id false true s = { s with wab := { s.wab with ents := [] } } := by
  unfold wabAcked
  rw [wabEnt_lone hents]
  simp only [Bool.false_eq_true, if_false]
  rw [modWab_lone _ hents, if_pos (by simp [herr, hdet, houts, hre])]
  unfold wabRetire wabEnt
  simp [hs]

theorem wabAcked_bad {e : WabE} (hents : s.wab.ents = [e]) (hs : e.stranded = false) (halc : s.home.alc = []) :
    LossStep { s with wab := { s.wab with ents := [{ e.answered false with stranded := true }] } } (wabAcked e.tile e.id false false s) := by
  unfold wabAcked
  rw [wabEnt_lone hents]
  simp only [Bool.false_eq_true, if_false, Bool.false_and]
  rw [modWab_lone _ hents]
  exact strand_lone (s := { s with wab := { s.wab with ents := [e.answered false] } }) (e := e.answered false) rfl
    (by simp [WabE.answered]) hs halc

/-- The only forward, of an entry, is answered. -/
theorem wabTargetAck_lone {e : WabE} {f : Fwd} (ok : Bool) (hrecv : canReceive s f.out = true) (hf : s.maps.fwds = [f])
    (hag : f.agent = .wab e.tile e.id) (hown : f.own = false) (hun : unanswered s f = true) (hcells : s.core.cells = [])
    (hend : NothingWaits (wabAcked e.tile e.id false ok (unsent s)))
    (hnone : (wabAcked e.tile e.id false ok (unsent s)).maps.fwds = []) :
    wabTargetAck e.tile e.id ok s = wabAcked e.tile e.id false ok (unsent s) := by
  have hfind : (s.maps.fwds.find? fun f => decide (f.agent = .wab e.tile e.id) && unanswered s f) = some f := by
    rw [hf, List.find?_cons_of_pos (by simp [hag, hun])]
  have hold : oldestOf s f = true := by simp [oldestOf, hown]
  have hnow : fwdEndNow f (if ok then .ok 0 false else .err) s = wabAcked e.tile e.id false ok (unsent s) := by
    unfold fwdEndNow
    rw [dropFwd_lone hf hcells, hag, hown]
    cases ok <;> rfl
  have hfwd : fwdEnd f (if ok then .ok 0 false else .err) s = wabAcked e.tile e.id false ok (unsent s) := by
    unfold fwdEnd
    rw [if_pos hold]
    dsimp only
    rw [hnow, robDrain_of_none_sent hnone]
  unfold wabTargetAck
  simp only [hfind]
  rw [if_neg (by simp [hrecv]), hfwd, hend.afterRetire]

/-! ### An entry waits too long -/

theorem delDone_kept (w : BWait) (s : State) :
    (delDone w s).tick = s.tick ∧ (delDone w s).wab = s.wab ∧ (delDone w s).maps.fwds = s.maps.fwds := by
  have hwab (c : Option Ctx) (v : State) : (completeO c 0x21 St.ok 0 v).wab = v.wab := by
    unfold completeO
    split
    · exact complete_wab ..
    · rfl
  unfold delDone
  split
  · dsimp only
    unfold State.when
    split
    · rw [post_tick, post_wab, post_maps, completeO_tick, hwab, completeO_maps]
      exact ⟨rfl, rfl, rfl⟩
    · rw [completeO_tick, hwab, completeO_maps]
      exact ⟨rfl, rfl, rfl⟩
  · exact ⟨rfl, rfl, rfl⟩

theorem delCheck_kept (s : State) :
    (delCheck s).tick = s.tick ∧ (delCheck s).wab = s.wab ∧ (delCheck s).maps.fwds = s.maps.fwds :=
  ⟨each_keeps State.tick (fun w _ u => (delDone_kept w u).1) s, each_keeps State.wab (fun w _ u => (delDone_kept w u).2.1) s,
    each_keeps (fun u => u.maps.fwds) (fun w _ u => (delDone_kept w u).2.2) s⟩

/-- An entry whose acknowledgement does not come in time. -/
theorem wabAckTimeout_lone {e : WabE} (hby : NoneDueBy e.deadline s) (hfr : frozen s = false) (hclk : clockRuns s = true)
    (hents : s.wab.ents = [e]) (hs : e.stranded = false) (hio : s.maps.ioWait = []) (hheld : s.maps.held = []) (hloq : s.home.loq = [])
    (halc : s.home.alc = []) (hfound : s.home.found = []) (hdbg : s.dbg.waiting = none) :
    (wabAckTimeout e.tile e.id s).tick = max s.tick e.deadline ∧
      (wabAckTimeout e.tile e.id s).wab.ents = [{ e with stranded := true }] ∧
      (wabAckTimeout e.tile e.id s).maps.fwds = s.maps.fwds := by
  have hfr' : frozen (advanceTo e.deadline s) = false := by simpa [frozen] using hfr
  have hrun : wabAckTimeout e.tile e.id s =
      afterRetire (strand false (fun x => x.tile == e.tile && x.id == e.id) (advanceTo e.deadline s)) := by
    unfold wabAckTimeout
    rw [wabEnt_lone hents]
    dsimp only
    rw [if_neg (by simp [hs, hfr]), atDue_none hby (.inr hclk), unfrozen, if_neg (by simp [hfr'])]
  have hloss := strand_lone (s := advanceTo e.deadline s) (p := fun x => x.tile == e.tile && x.id == e.id) (by rw [advanceTo_wab]; exact hents)
    (by simp) hs (by rw [advanceTo_home]; exact halc)
  have htick := advanceTo_tick e.deadline hclk
  have hmaps := advanceTo_maps (s := s) e.deadline
  have hhome := advanceTo_home (s := s) e.deadline
  have hdbg' := advanceTo_dbg (s := s) e.deadline
  rw [hrun]
  generalize advanceTo e.deadline s = v at *
  obtain ⟨h1, h2, h3, h4, h5⟩ := hloss
  generalize strand false (fun x => x.tile == e.tile && x.id == e.id) v = u at *
  obtain ⟨d1, d2, d3⟩ := delCheck_kept u
  have hret : afterRetire u = delCheck u := by
    unfold afterRetire
    rw [alcReport_of_none (by rw [h3]; exact hhome ▸ hfound), wakeLoq_of_empty (by rw [h3]; exact hhome ▸ hloq),
      settle_of_none_held (by rw [h2]; exact hmaps ▸ hio) (by rw [h2]; exact hmaps ▸ hheld),
      dbgWake_of_none_waits (by rw [h4]; exact hdbg' ▸ hdbg)]
  rw [hret, d1, d2, d3]
  exact ⟨h1.trans htick, h5, by rw [h2]; exact congrArg Maps.fwds hmaps⟩

/-! ### An entry is reissued -/

theorem forwardTo_home (own : Bool) (tc dmod dport dpart : Nat) (f : Fwd) (s : State) :
    (forwardTo own tc dmod dport dpart f s).home = s.home := by
  unfold forwardTo
  dsimp only
  split
  · split
    case h_6 => rfl
    all_goals rw [(CellStep.linkMessage ..).home]
  · rw [(CellStep.linkMessage ..).home]

/-- An entry as its reissue leaves it. -/
def WabE.reissued (tmo : Nat) (e : WabE) : WabE := { e with re := e.re + 1, err := false, det := false, deadline := tmo }

/-- The request of a reissue. -/
def WabE.again (e : WabE) : Req :=
  lineReq (if e.mask = fullMask then .memWr else .memWrPtl) (lineAt e.out e.ld e.dpa) e.data.toNat e.mask e.lost

theorem wabSend_lone {e : WabE} (hents : s.wab.ents = [e]) (hbad : s.wab.bad = []) (halc : s.home.alc = []) :
    (wabSend e.tile e.id s).wab.ents = [e.reissued (s.tick + rd s .wabM F.WAB_CFG_ACK_TMO)] ∧
      ∃ f : Fwd, (wabSend e.tile e.id s).maps.fwds = s.maps.fwds ++ [f] ∧ f.agent = .wab e.tile e.id ∧ f.out = e.out ∧ f.req = e.again := by
  have hread : wabRead e.tile e.id s = s := by simp [wabRead, hbad]
  let v : State := bump (.wabT e.tile) F.WAB_CNT_REISSUE
    { s with wab := { s.wab with ents := [e.reissued (s.tick + rd s .wabM F.WAB_CFG_ACK_TMO)] } }
  let f : Fwd := lineFwd (.wab e.tile e.id) e.part (some e.bind) (lineAt e.out e.ld e.dpa) e.again
  have hrun : wabSend e.tile e.id s =
      if e.lost then postError e.part 0x0004 [(20, e.bind), (24, max 1 (strandedOf (forward true (bindOf v e.bind).tc 0 0 f v) e.bind))]
        (forward true (bindOf v e.bind).tc 0 0 f v) else forward true (bindOf v e.bind).tc 0 0 f v := by
    unfold wabSend
    dsimp only
    rw [hread, wabEnt_lone hents]
    dsimp only
    rw [modWab_lone _ hents]
    rfl
  have hwab := (Beside.forwardTo true (bindOf v e.bind).tc 0 0 f.part f v).wab
  have hfwds := forwardTo_fwds true (bindOf v e.bind).tc 0 0 f.part f v
  have hhome := forwardTo_home true (bindOf v e.bind).tc 0 0 f.part f v
  rw [hrun, forward]
  generalize forwardTo true (bindOf v e.bind).tc 0 0 f.part f v = u at *
  have hloss : LossStep u (if e.lost then postError e.part 0x0004 [(20, e.bind), (24, max 1 (strandedOf u e.bind))] u else u) := by
    split
    · exact .postError _ _ _ (hhome ▸ halc)
    · exact .refl u
  rw [hloss.ents, hloss.maps, hwab]
  exact ⟨rfl, _, hfwds, rfl, rfl, rfl⟩

theorem wabReissue_lone {e : WabE} (hfr : frozen s = false) (hup : linkUp s e.out = true) (hrun : linkRun s e.out = true)
    (hents : s.wab.ents = [e]) (hs : e.stranded = true) (hdet : e.det = true) :
    wabReissue e.out s = wabSend e.tile e.id s := by
  unfold wabReissue
  rw [if_neg (by simp [reissueOk, hup, hrun, hfr]), hents]
  simp [hs, hdet, State.each]

/-! ### Stranded entries are given up -/

theorem wabDiscard_valid {part idx : Nat} (c : Ctx) (hpart : part < 128) (hidx : idx < 2 ^ 18) (hio : s.maps.ioWait = []) (hheld : s.maps.held = [])
    (hwaits : s.maps.waits = []) (hloq : s.home.loq = []) (hfound : s.home.found = []) (hdbg : s.dbg.waiting = none) :
    (wabDiscard c part idx s).maps = s.maps ∧
      (wabDiscard c part idx s).wab.ents = s.wab.ents.filter (fun e =>
        !(e.part == part && (idx == 0x3FFFF || e.bind == idx) && e.stranded && e.re == 0)) := by
  have hnote (l : List WabE) (b : Nat) (v : State) : LossStep v (post part 0x0006 [(20, b), (24, (l.filter fun e => e.bind == b).length)]
      (if strandedOf v b = 0 then setNote b { noteOf v b with recov := 0 } v else v)) := by
    split
    · exact (LossStep.setNote ..).trans (.post ..)
    · exact .post ..
  unfold wabDiscard
  rw [if_neg (by omega)]
  dsimp only
  let v : State := { s with wab := { s.wab with ents := s.wab.ents.filter fun e =>
    !(e.part == part && (idx == noIdx || e.bind == idx) && e.stranded && e.re == 0) } }
  have hw : NothingWaits v := ⟨hfound, hloq, hio, hheld, hwaits, hdbg⟩
  let hit := s.wab.ents.filter fun e => e.part == part && (idx == noIdx || e.bind == idx) && e.stranded && e.re == 0
  have hloss := LossStep.each (hit.map (·.bind)).dedup (hnote hit) v
  rw [complete_maps, complete_wab, (hw.loss hloss).afterRetire, hloss.maps, hloss.ents]
  exact ⟨rfl, rfl⟩

/-! ### A write takes an entry -/

/-- The entry that a write of a line takes. -/
def freshEntry (n : Nat) (l : LineId) (f : Fwd) (s : State) : WabE where
  id := s.wab.nextId
  tile := n
  part := f.part
  bind := f.bind.getD 0
  out := l.out
  ld := l.ld
  dpa := l.line * 64
  mask := f.req.wmask
  data := BitVec.ofNat 512 f.req.data
  stranded := false
  outs := 1
  re := 0
  deadline := s.tick + rd s .wabM F.WAB_CFG_ACK_TMO
  err := false
  lost := false
  born := s.tick
  det := false

/-- The WAB with nothing but the entry that a write has taken. -/
def holding (n : Nat) (l : LineId) (f : Fwd) (x : Tel) (s : State) : State :=
  { s with tel := x, wab := { s.wab with ents := [freshEntry n l f s], nextId := s.wab.nextId + 1 } }

/-- A write that meets no entry, with room in every limit, takes one, and its forward goes out. -/
theorem wabTake_of_none {n : Nat} {b : Binding} {l : LineId} {f : Fwd} (hents : s.wab.ents = [])
    (hlim : 0 < rd s (.pmd f.part) F.PMD_WAB_CFG_LIMIT) (hea : eaWithheld s f.part = false) (hup : usable s l.out = true) :
    ∃ x, wabTake n b l f s = some (forward false b.tc 0 0 { f with agent := .wab n s.wab.nextId }
      (holding n l f x s)) := by
  have hat : wabAt s n f.part l = none := by simp [wabAt, hents]
  have hlim16 : 16 ≤ tgtLimit s l.out := le_max_left ..
  have hroom : (decide (65536 ≤ 0) || decide (rd s (.pmd f.part) F.PMD_WAB_CFG_LIMIT ≤ 0) || decide (tgtLimit s l.out ≤ 0) || false) = false := by
    simp; omega
  obtain ⟨x, hx⟩ := count_tel_only (.wabT n) 0x20 1 (wabAttr f.part l.out (b.offOf f.dpa))
    { s with wab := { s.wab with ents := [freshEntry n l f s], nextId := s.wab.nextId + 1 } }
  refine ⟨x, ?_⟩
  unfold wabTake
  simp only [hat, hents, List.filter_nil, List.length_nil, hea]
  rw [hroom]
  simp only [Bool.false_eq_true, if_false, hup, if_true, List.nil_append]
  exact congrArg (fun v => some (forward false b.tc 0 0 { f with agent := .wab n s.wab.nextId } v)) hx

/-- A write of a whole unshared local line that no entry of the ALC concerns is taken. -/
theorem direct_of_write {h : Held} {idx off : Nat} {b : Binding} {r : Req} (hop : r.op = .memWr) (hk : b.kind = 0)
    (hsh : b.shared = false) (hrun : b.stopped = false) (hearly : b.earlyAck = true) (hdl : h.deadline = none)
    (hup : usable s b.out = true) (halc : s.home.alc = []) (hloq : s.home.loq = []) (hents : s.wab.ents = [])
    (hlim : 0 < rd s (.pmd h.part) F.PMD_WAB_CFG_LIMIT) (hea : eaWithheld s h.part = false) :
    ∃ v f, direct Upset.none h idx b none r off s =
        respond h.part h.lead h.fromVp r.tag .ndr 0 false r.md (forward false b.tc 0 0 f v) ∧
      v.parts = s.parts ∧ v.maps = s.maps ∧ f.agent = .wab (hostTile s h.part) s.wab.nextId ∧ f.req = r ∧
      v.wab.ents = [freshEntry (hostTile s h.part) (lineAt b.out b.ld (b.dpaOf off))
        (hostFwd h idx none (partSt s h.part != 0) b.stopped r b.out b.ld (b.dpaOf off)) s] := by
  let v : State := strike (hostTile s h.part) Upset.none s
  have hcached (n : Nat) (l : LineId) : atHome (strike (hostTile s h.part) Upset.none s) n l = false := by
    simp [atHome, strike, halc, hloq]
  have hel : eaEligible b r = true := by simp [eaEligible, hop, ReqOp.isMemWrite, Binding.running, hrun, hearly, hk]
  obtain ⟨x, hx⟩ := wabTake_of_none (s := v) (n := hostTile s h.part) (b := b) (l := lineAt b.out b.ld (b.dpaOf off))
    (f := hostFwd h idx none (partSt s h.part != 0) b.stopped r b.out b.ld (b.dpaOf off)) hents hlim hea hup
  refine ⟨holding (hostTile s h.part) (lineAt b.out b.ld (b.dpaOf off))
    (hostFwd h idx none (partSt s h.part != 0) b.stopped r b.out b.ld (b.dpaOf off)) x v, { hostFwd h idx none (partSt s h.part != 0) b.stopped r b.out b.ld (b.dpaOf off) with
    agent := .wab (hostTile s h.part) v.wab.nextId }, ?_, rfl, rfl, rfl, rfl, rfl⟩
  unfold direct
  simp only [hcached, hk, hsh, hop, Bool.false_eq_true, if_false, Nat.zero_ne_one, reduceCtorEq, or_self, hel, hdl, Option.isNone_none,
    Bool.and_self, if_true, answer]
  rw [hx]

theorem ing_base_ne_pmd (lead part : Nat) : (Page.ing lead).base ≠ (Page.pmd part).base := by
  simp only [Page.base, portBase, tileBase]
  omega

theorem ing_base_ne_wabM (lead : Nat) : (Page.ing lead).base ≠ Page.wabM.base := by
  simp only [Page.base, portBase, tileBase]
  omega

/-- Settles O29: an eligible write takes an entry, which retires, is stranded, reissued or given up. -/
theorem earlyAckedWrites : Obligations.EarlyAckedWrites := by
  unfold Obligations.EarlyAckedWrites
  refine ⟨?_, ?_, ?_, ?_, ?_, ?_⟩
  · intro s p idx r b hdue hrecv hquiet hrole hreset hrun hop hspace hcap hoff hfound _ hstop hearly hallow hk hsh hup hlim hea
    obtain ⟨-, -, -, hfwds, -, -, hents, hdrains, hloq, halc, -⟩ := hquiet
    obtain ⟨x, hreq⟩ := hostRequest_arrives r Upset.none hrecv hrole
    have htake := takeIn_of_mem (s := named x s) (u := Upset.none) (h := Held.arrive s.maps.nextId p (hpartOf s p) none r none) hreset hrun
      (by simp [Held.arrive, hop, ReqOp.isIo]) rfl rfl hspace
    obtain ⟨v, hmem, hstep⟩ := memAccess_of_found (s := named x s) (h := Held.arrive s.maps.nextId p (hpartOf s p) none r none)
      rfl hoff hcap hfound hstop hallow
    have hlim' : 0 < rd v (.pmd (hpartOf s p)) F.PMD_WAB_CFG_LIMIT := by
      rw [hstep.rd _ _ (ing_base_ne_pmd · (hpartOf s p)) (by decide)]
      exact hlim
    have hea' : eaWithheld v (hpartOf s p) = false := by
      have hoff : rdb v .wabM F.WAB_MOD_STS_EA_OFF = false := by
        rw [rdb, hstep.rd _ _ ing_base_ne_wabM (by decide)]
        exact hea
      have hdr : v.wab.drains = [] := hstep.wab ▸ hdrains
      simp [eaWithheld, hoff, hdr]
    obtain ⟨w, f, hway, hparts, hmaps, hag, hfr, hw⟩ := direct_of_write (s := v)
      (h := Held.arrive s.maps.nextId p (hpartOf s p) none r none) (idx := idx) (off := pmdOff s (hpartOf s p) r) hop hk hsh hstop hearly rfl
      ((hstep.usable b.out).trans hup) (hstep.home ▸ halc) (hstep.home ▸ hloq) (hstep.wab ▸ hents) hlim' hea'
    refine ⟨_, congrArg (done s) ((dueThen_of_noneDue _ hdue).trans (hreq.trans (htake.trans (hmem.trans hway)))), ?_⟩
    have hsent := Beside.forwardTo false b.tc 0 0 f.part f w
    have hnow := forwardTo_fwds false b.tc 0 0 f.part f w
    have hnone : w.maps.fwds = [] := by rw [hmaps, hstep.fwds]; exact hfwds
    have hreset' : resetting (forward false b.tc 0 0 f w) (hpartOf s p) = false := by
      rw [resetting, partOf, forward, hsent.aside.parts, hparts, hstep.parts]
      exact hreset
    change resetting (forward false b.tc 0 0 f w) (Held.arrive s.maps.nextId p (hpartOf s p) none r none).part = false at hreset'
    rw [respond, if_neg (by simp [hreset'])]
    rw [forward] at *
    generalize forwardTo false b.tc 0 0 f.part f w = u at *
    rw [settled_wab, settled_maps, say_wab, say_maps, hsent.wab, hw, hnow, hnone]
    refine ⟨?_, rfl, ?_, List.mem_append_right _ (List.mem_singleton_self _)⟩
    · simp [freshEntry, hostFwd, Req.wmask, hop]
    · simp [hag, hfr, freshEntry]
  · intro s e f hdue hrecv hents hf hag hown hun halc hfound hdbg hcells hio hheld hwaits hloq hs herr houts hre hdet
    have hend := wabAcked_good (s := unsent s) hents hs herr houts hre hdet
    refine ⟨_, congrArg (done s) ((dueThen_of_noneDue _ hdue).trans ((wabTargetAck_lone true hrecv hf hag hown hun hcells
      (by rw [hend]; exact ⟨hfound, hloq, hio, hheld, hwaits, hdbg⟩) (by rw [hend]; rfl)).trans hend)), rfl, rfl, rfl⟩
  · intro s e f hdue hrecv hents hf hag hown hun halc hfound hdbg hcells hio hheld hwaits hloq hs herr houts hre hdet
    have hloss := wabAcked_bad (s := unsent s) hents hs halc
    have hw : NothingWaits { unsent s with wab := { s.wab with ents := [{ e.answered false with stranded := true }] } } :=
      ⟨hfound, hloq, hio, hheld, hwaits, hdbg⟩
    refine ⟨_, congrArg (done s) ((dueThen_of_noneDue _ hdue).trans (wabTargetAck_lone false hrecv hf hag hown hun hcells
      (hw.loss hloss) (congrArg Maps.fwds hloss.maps))), ?_, congrArg Maps.fwds hloss.maps⟩
    rw [settled_wab, hloss.ents]
    simp [WabE.answered, houts]
  · intro s e hby hfr hclk hents hs hio hheld hloq halc hfound hdbg
    obtain ⟨h1, h2, h3⟩ := wabAckTimeout_lone hby hfr hclk hents hs hio hheld hloq halc hfound hdbg
    refine ⟨_, rfl, ?_⟩
    generalize wabAckTimeout e.tile e.id s = u at *
    exact ⟨h1, h2, h3⟩
  · intro s e hdue hfr hup hrun hents hs hdet hbad halc
    obtain ⟨h1, f, h2, hag, hout, hreq⟩ := wabSend_lone hents hbad halc
    refine ⟨_, congrArg (done s) ((dueThen_of_noneDue _ hdue).trans (wabReissue_lone hfr hup hrun hents hs hdet)), ?_⟩
    generalize wabSend e.tile e.id s = u at *
    refine ⟨h1, ?_⟩
    rw [settled_maps, h2, List.map_append, List.map_singleton, hag, hout, hreq]
    rfl
  · intro s c part idx hdue hcore hpart hidx hio hheld hwaits hloq hfound hdbg
    obtain ⟨h1, h2⟩ := wabDiscard_valid c hpart hidx hio hheld hwaits hloq hfound hdbg
    refine ⟨_, congrArg (done s) ((dueThen_of_noneDue _ hdue).trans (byCore_of_coreActs _ hcore)), ?_⟩
    generalize wabDiscard c part idx s = u at *
    exact ⟨h1, h2⟩

end Sys2Proof.Machine
end

section
/-! SUPPORT. A state that shows what O32 leaves open: a deletion that completes, with its event, while a snoop's answer is held. -/
namespace Sys2Proof.Machine

/-- A snoop of partition 0 on link 0. -/
def openSnoop : Snoop := ⟨0, 0, 0, 0, 0, ⟨0, 0, 0⟩, .inv, 0, false, none, 0, false, none⟩

/-- A module in which the event queue of partition 0 raises its vector at the first event, with a snoop behind a writeback of its line, and with
a deletion of the module's own under whose entry nothing is outstanding any more. -/
def endedDeletion : State :=
  let s := State.reset |> wr (.evq 0) F.MQ_EVQ_VEC_INT_EN 1 |> wr (.evq 0) F.MQ_EVQ_CFG_INT_FIRST 1
    |> wr (.phy 0) F.BLK_CTL_RUN 0 |> modLink 0 (fun l => { l with phase := .l0 })
  { s with
    mq := { s.mq with mgmtUp := [0], msixTab := [(vecKey 0 0, 0)] }
    home := { s.home with snoops := [openSnoop], wbs := [(0, ⟨0, 0, 0⟩)] }
    maps := { s.maps with waits := [⟨0, true, none, none, true, 0, Binding.empty⟩] } }

/-- The answer is held, and the deletion's event raises the vector. -/
theorem outCount_birsp_endedDeletion : Ans.outCount (exec (.birsp 0 0 false) endedDeletion) = 1 := by decide

/-- Refutes O32: with a snoop's answer a deletion that nothing holds up any more completes too, and its event can raise a vector; the clause
on an answer that is held asks nothing of the deletions that wait. -/
theorem not_snoopsAndGroups : ¬ Obligations.SnoopsAndGroups := by
  rintro ⟨-, hheld, -⟩
  obtain ⟨t, ht, -, -, hout⟩ := hheld endedDeletion openSnoop false (by decide) (by decide) rfl rfl rfl (by decide)
  have hcount := outCount_birsp_endedDeletion
  rw [show exec (.birsp 0 0 false) endedDeletion = .next t from ht, Ans.outCount, hout] at hcount
  exact absurd hcount (by decide)

end Sys2Proof.Machine
end

section
/-! SUPPORT. A state that shows what O33 leaves open: two cells of one name. -/
namespace Sys2Proof.Machine

/-- A conditional write of partition 0 on link 64, at its home in tile 0. -/
def farCond : LoqE :=
  { LoqE.start 0 0 64 none ⟨0, 0, 0⟩ 0 0 .cond ⟨.swap, .bar4, 0, 8, 0, 0, 0, .any, 0, 0, none, false, false, false, false⟩ false false none with
    stage := .queued }

/-- A cell of the home's agent on its way to link 64, with the tag that the answer takes. -/
def answerCell : Cell := { Cell.blank with srck := true, src := 1, out := 64, oc := 2, tags := [0] }

/-- The conditional write without a reservation, where a cell toward another output has the name of the one that takes the answer. -/
def doubledCell : State :=
  { State.reset with
    home := { State.reset.home with loq := [farCond] }
    core := { State.reset.core with cells := [Cell.blank, answerCell] } }

/-- What has left the module, and the outputs of the cells with a response, in the state that a step reaches. -/
def Ans.answers : Ans → List Out × List Nat
  | .next t => (t.out, (t.core.cells.filter fun c => !c.rsps.isEmpty).map (·.out))
  | _ => ([], [])

/-- The answer comes to stand in the cell toward the other output. -/
theorem answers_conditionalWrite_doubledCell : Ans.answers (exec (.conditionalWrite 0) doubledCell) = ([], [0]) := by decide

/-- Refutes O33: the answer of a conditional write goes into the first cell with the name of the cell that it belongs to, and nothing in the
clause keeps a cell toward another output from having that name. -/
theorem not_atomicsAndReservations : ¬ Obligations.AtomicsAndReservations := by
  rintro ⟨-, -, -, -, hcond⟩
  obtain ⟨t, ht, -, -, hans⟩ := hcond doubledCell farCond (by decide) (by decide) rfl rfl rfl rfl (by decide) rfl rfl rfl (by decide) (by decide)
  have hgot := answers_conditionalWrite_doubledCell
  rw [show exec (.conditionalWrite 0) doubledCell = .next t from ht, Ans.answers] at hgot
  obtain ⟨hout, hcells⟩ := Prod.mk.inj hgot
  rcases hans with hsaid | ⟨-, c, hc, hto, hrsp⟩
  · simp [hout] at hsaid
  · have hmem : c.out ∈ (t.core.cells.filter fun c => !c.rsps.isEmpty).map (·.out) :=
      List.mem_map_of_mem (List.mem_filter.2 ⟨hc, by cases h : c.rsps <;> simp_all⟩)
    rw [hcells, List.mem_singleton, hto] at hmem
    exact absurd hmem (by decide)

end Sys2Proof.Machine
end

section
/-! SUPPORT. A request alone in its home's queue, and a message alone on the Halo ring (08 R152-R156, R174). -/
namespace Sys2Proof.Machine
variable {s t u : State}

theorem delDone_home (w : BWait) (s : State) : (delDone w s).home = s.home := by
  have hhome (c : Option Ctx) (v : State) : (completeO c 0x21 St.ok 0 v).home = v.home := by
    unfold completeO
    split
    · exact complete_home ..
    · rfl
  unfold delDone
  split
  · dsimp only
    unfold State.when
    split
    · rw [post_home, hhome]
    · rw [hhome]
  · rfl

theorem delCheck_home (s : State) : (delCheck s).home = s.home := each_keeps State.home (fun w _ u => delDone_home w u) s

theorem rd_delCheck_off {pg : Page} {f : Fld} (hf : OffQueue f) (hpg : ∀ q, (Page.evq q).base ≠ pg.base) (s : State) :
    rd (delCheck s) pg f = rd s pg f := by
  have hlow : f.off * 8 + f.lo < 0x8000 := by
    obtain ⟨h4, hoff, hlo, -⟩ := hf
    omega
  refine each_keeps (fun u => rd u pg f) (fun w _ u => ?_) s
  unfold delDone
  split
  · dsimp only
    unfold State.when
    split
    · rw [rd_post _ _ _ _ (hpg _) hlow, rd_completeO_off _ _ _ _ hf (hpg 128)]
      rfl
    · rw [rd_completeO_off _ _ _ _ hf (hpg 128)]
      rfl
  · rfl

theorem evq_base_ne_halo (q n : Nat) : (Page.evq q).base ≠ (Page.halo n).base := by
  simp only [Page.base, tilePage, tileBase]
  split <;> omega

/-! ### One request in the queue -/

theorem loqOf_lone {e : LoqE} (h : s.home.loq = [e]) : loqOf s e.id = some e := by simp [loqOf, h]

theorem modLoq_lone {e : LoqE} (g : LoqE → LoqE) (h : s.home.loq = [e]) :
    modLoq e.id g s = { s with home := { s.home with loq := [g e] } } := by
  simp [modLoq, h, modFirst]

theorem atHead_lone {e : LoqE} (h : s.home.loq = [e]) (hst : e.stage = .queued) (hwb : wbackOut s e.tile e.line = false) :
    atHead s e = true := by
  simp [atHead, h, hst, hwb]

/-! ### A request enters -/

theorem mem_foldl_voq (l acc : List Cell) {c : Cell}
    (h : c ∈ l.foldl (fun acc c => if acc.any (·.sameVoq c) then acc else acc ++ [c]) acc) : c ∈ acc ∨ c ∈ l := by
  induction l generalizing acc with
  | nil => exact .inl h
  | cons x l ih =>
    rcases ih _ h with h | h
    · dsimp only at h
      split at h
      · exact .inl h
      · rcases List.mem_append.1 h with h | h
        · exact .inl h
        · exact .inr (by simp [List.mem_singleton.1 h])
    · exact .inr (List.mem_cons_of_mem _ h)

theorem mem_cells_of_voqHeads {n : Nat} {c : Cell} (h : c ∈ voqHeads s n) : c ∈ s.core.cells := by
  rcases mem_foldl_voq _ _ h with h | h
  · exact absurd h List.not_mem_nil
  · exact (List.mem_filter.1 h).1

theorem homeCell_of_none {e : LoqE} (h : ∀ c ∈ s.core.cells, e.id ∉ c.homes) : homeCell s e = none := by
  unfold homeCell
  rw [List.find?_eq_none]
  intro c hc hin
  refine h c (mem_cells_of_voqHeads hc) ?_
  simp only [Bool.and_eq_true, List.contains_iff_mem] at hin
  exact hin.1.1.1

/-- A request that no cell carries takes its entry. -/
theorem loqEntry_lone {e : LoqE} {a : HomeArr} (hfr : frozen s = false) (hcells : ∀ c ∈ s.core.cells, e.id ∉ c.homes)
    (hloq : s.home.loq = [e]) (hst : e.stage = .travel) (hmerge : tryMerge e s = none) :
    loqEntry e.id a s = loqTake a.clk e a.upset s := by
  have hcell := homeCell_of_none hcells
  have hnone : (s.core.cells.any fun c => c.homes.contains e.id) = false := by
    rw [List.any_eq_false]
    intro c hc
    simpa using hcells c hc
  have hroom : loqRoom s e = true := by
    unfold loqRoom
    dsimp only
    rw [hloq]
    split <;> simp [hst]
  unfold loqEntry
  rw [loqOf_lone hloq]
  simp only [hfr, hst, hcell, hnone, bne_self_eq_false, Bool.or_self, Bool.false_eq_true, if_false, Option.isNone_none, Option.isSome_none,
    Bool.and_false, Bool.false_and, readHome, State.when, loqOf_lone hloq, Option.getD_some, hmerge, hroom, if_true]

/-- What a request's entry changes of the homes, where no upset is met. -/
theorem predictor_kept (e : LoqE) (s : State) :
    (predictor e false s).home.loq = s.home.loq ∧ (predictor e false s).home.halo = s.home.halo ∧
      (predictor e false s).home.nextId = s.home.nextId ∧ (predictor e false s).maps = s.maps := by
  unfold predictor
  dsimp only
  simp only [Bool.false_eq_true, if_false]
  split <;> exact ⟨rfl, rfl, rfl, rfl⟩

theorem loqTake_lone {e : LoqE} (clk : Nat) (hloq : s.home.loq = [e]) :
    ∃ v : State, loqTake clk e Upset.none s = v.when e.isWb (wbTaken e.tile e.lead e.line) ∧
      v.home.loq = [{ e with stage := .queued, order := loqOrder s clk e }] ∧ v.home.halo = s.home.halo ∧
      v.home.nextId = s.home.nextId ∧ v.maps = s.maps := by
  let w : State := { s with home := { s.home with useSeq := s.home.useSeq + 1, loq := [{ e with stage := .queued, order := loqOrder s clk e }] } }
  obtain ⟨x, hx⟩ := count_tel_only (.homeT e.tile) 0x28 1 { Attr.none with pa := some e.part } w
  refine ⟨predictor e false { w with tel := x }, ?_, ?_⟩
  · unfold loqTake
    dsimp only
    rw [modLoq_lone (s := { s with home := { s.home with useSeq := s.home.useSeq + 1 } }) _ hloq, countHome]
    exact congrArg (fun v : State => (predictor e false v).when e.isWb (wbTaken e.tile e.lead e.line)) hx
  · obtain ⟨h1, h2, h3, h4⟩ := predictor_kept e { w with tel := x }
    rw [h1, h2, h3, h4]
    exact ⟨rfl, rfl, rfl, rfl⟩

theorem tryMerge_of_not_wb {e : LoqE} (h : e.isWb = false) : tryMerge e s = none := by
  unfold tryMerge
  split
  · rfl
  · rw [h]
    rfl

theorem tryMerge_of_no_snoop {e : LoqE} (h : s.home.snoops = []) : tryMerge e s = none := by
  unfold tryMerge
  rw [h]
  rfl

/-! ### A message alone on the ring -/

/-- The ring once its only message has arrived. -/
def haloGone (s : State) : State := { s with home := { s.home with halo := [] } }

theorem haloOf_lone {m : HaloE} (h : s.home.halo = [m]) : haloOf s m.id = some m := by simp [haloOf, h]

theorem haloBehind_lone {m : HaloE} (way : List (Nat × Bool)) (h : s.home.halo = [m]) : haloBehind s m way = false := by
  simp [haloBehind, h]

theorem haloStep_arrives {m : HaloE} (act : HaloE → State → State) (hfr : frozen s = false) (h : s.home.halo = [m])
    (hway : (haloWay s m.src m.dst).isSome = true) : haloStep m.id none act s = act m (haloGone s) := by
  obtain ⟨way, hw⟩ := Option.isSome_iff_exists.1 hway
  have hdrop : haloDrop m.id s = haloGone s := by simp [haloDrop, haloGone, h]
  unfold haloStep
  rw [haloOf_lone h]
  dsimp only
  rw [hw]
  dsimp only
  rw [if_neg (by simp [hfr, haloBehind_lone way h]), hdrop]

theorem haloStep_fails {m : HaloE} {k x : Nat} {up : Bool} (act : HaloE → State → State) (hfr : frozen s = false) (h : s.home.halo = [m])
    (hway : (haloWay s m.src m.dst).bind (fun w => w[k]?) = some (x, up)) :
    haloStep m.id (some k) act s = haloFail m (x, up) s := by
  obtain ⟨way, hw, hk⟩ := Option.bind_eq_some_iff.1 hway
  unfold haloStep
  rw [haloOf_lone h]
  dsimp only
  rw [hw]
  dsimp only
  rw [if_neg (by simp [hfr, haloBehind_lone way h]), hk]

/-! ### A message fails its check -/

/-- Failures in a row of a message on a link. -/
def failsOn (m : HaloE) (x : Nat) (up : Bool) : Nat := if x = m.src ∧ up = m.up then m.fails + 1 else 1

/-- The only message is held at the station whose link it failed on. -/
def heldAt (m : HaloE) (x : Nat) (up : Bool) (s : State) : State :=
  bump (.halo x) F.HALO_CNT_RETRY { s with home := { s.home with halo := [{ m with src := x, fails := failsOn m x up, up := up }] } }

theorem haloFail_held {m : HaloE} {x : Nat} {up : Bool} (h : s.home.halo = [m])
    (hlim : failsOn m x up < rd s (.halo x) F.HALO_CFG_LIM) (hmask : srcMasked s (tileSrcNo x 14) = true) :
    haloFail m (x, up) s = heldAt m x up s := by
  have hlim' : failsOn m x up < rd (bump (.halo x) F.HALO_CNT_RETRY s) (.halo x) F.HALO_CFG_LIM := by
    rw [bump, rd_bumpBy_off _ _ (by decide) (by decide) (by decide)]
    exact hlim
  have hmask' : srcMasked (bump (.halo x) F.HALO_CNT_RETRY s) (tileSrcNo x 14) = true :=
    (srcMasked_congr _ fun pg => rd_bumpBy_off _ _ (by decide) (by decide) (by decide)).trans hmask
  unfold haloFail
  dsimp only
  rw [if_pos (by exact hlim')]
  rw [List.map_singleton, raiseSame_one, show raiseAs none (tileSrcNo x 14) none none 0 _ = raise (tileSrcNo x 14) none none _ from rfl,
    raise_of_masked none hmask']
  change ({ bump (.halo x) F.HALO_CNT_RETRY s with home := { s.home with halo := modFirst _ _ s.home.halo } } : State) = _
  rw [h]
  simp only [modFirst, beq_self_eq_true, if_true]
  rfl

/-! ### Snoops and answers -/

theorem membersAt_congr (hcfg : CfgSame s t) (hmem : t.home.sgMem = s.home.sgMem) (hfenced : t.home.sgFenced = s.home.sgFenced)
    (n g : Nat) (x : Option Nat) (own : Nat) : membersAt t n g x own = membersAt s n g x own := by
  unfold membersAt sgMembers fencedOut
  rw [hcfg.hostLead, hmem, hfenced]

/-- What a station asks of the hosts of its tile. -/
theorem snoopTile_kept (n loq : Nat) (line : LineId) (kind : SnoopKind) (ms : List (Nat × Nat)) (s : State) :
    (snoopTile n loq line kind ms s).home.loq = s.home.loq ∧ (snoopTile n loq line kind ms s).home.halo = s.home.halo ∧
      (snoopTile n loq line kind ms s).home.snoops.map (fun n => (n.part, n.lead)) =
        s.home.snoops.map (fun n => (n.part, n.lead)) ++ ms := by
  unfold snoopTile
  refine ⟨each_keeps (fun u => u.home.loq) (fun _ _ _ => by rfl) s, each_keeps (fun u => u.home.halo) (fun _ _ _ => by rfl) s, ?_⟩
  induction ms generalizing s with
  | nil => simp [State.each]
  | cons m ms ih =>
    refine (ih _).trans ?_
    simp [State.say]

theorem haloAll_kept (src : Nat) (m : HaloMsg) (s : State) :
    (haloAll src m s).home.loq = s.home.loq ∧ (haloAll src m s).home.snoops = s.home.snoops ∧
      (haloAll src m s).home.halo.map (fun m => (m.src, m.dst, m.msg)) =
        s.home.halo.map (fun m => (m.src, m.dst, m.msg)) ++ ((List.range 8).filter (· != src)).map fun d => (src, d, m) := by
  unfold haloAll
  refine ⟨each_keeps (fun u => u.home.loq) (fun _ _ _ => by rfl) s, each_keeps (fun u => u.home.snoops) (fun _ _ _ => by rfl) s, ?_⟩
  generalize (List.range 8).filter (· != src) = ds
  induction ds generalizing s with
  | nil => simp [State.each]
  | cons d ds ih =>
    refine (ih _).trans ?_
    simp [haloPut]

theorem filter_bne_eq (n : Nat) : (List.range 8).filter (· != n) = (List.range 8).filter (· ≠ n) :=
  List.filter_congr fun x _ => by by_cases h : x = n <;> simp [h]

/-- Some station is not the home's own. -/
theorem stations_ne_nil (n : Nat) : (List.range 8).filter (· != n) ≠ [] := by
  intro h
  have hall := List.filter_eq_nil_iff.1 h
  have h0 := hall 0 (by decide)
  have h1 := hall 1 (by decide)
  simp only [bne_iff_ne, ne_eq, not_not] at h0 h1
  omega

/-- A request whose snoop has gone out. -/
def LoqE.asked (ms : List (Nat × Nat)) (e : LoqE) : LoqE :=
  { e with stage := .snooping, stations := (List.range 8).filter (· != e.tile), localDone := ms.isEmpty, snooped := ms.map (·.1) }

theorem checkSnoops_waits {e : LoqE} (h : s.home.loq = [e]) (hwait : ¬(e.stage = .snooping ∧ e.stations.isEmpty ∧ e.localDone)) :
    checkSnoops e.id s = s := by
  unfold checkSnoops
  rw [loqOf_lone h]
  dsimp only
  rw [if_neg hwait]

/-- The snoop of a request goes out to the other stations and on its own tile, and the home waits for the answers. -/
theorem broadcast_lone {e : LoqE} (kind : SnoopKind) (excl : Option Nat) (hloq : s.home.loq = [e]) :
    (checkSnoops e.id (broadcast e.id kind excl s)).home.loq = [e.asked (membersAt s e.tile e.group excl e.part)] ∧
      (checkSnoops e.id (broadcast e.id kind excl s)).home.halo.map (fun m => (m.src, m.dst, m.msg)) =
        s.home.halo.map (fun m => (m.src, m.dst, m.msg)) ++
          ((List.range 8).filter (· != e.tile)).map (fun d => (e.tile, d, HaloMsg.bcast e.id e.line e.group kind excl)) ∧
      (checkSnoops e.id (broadcast e.id kind excl s)).home.snoops.map (fun n => (n.part, n.lead)) =
        s.home.snoops.map (fun n => (n.part, n.lead)) ++ membersAt s e.tile e.group excl e.part := by
  obtain ⟨x, hx⟩ := count_tel_only (.homeT e.tile) 0x29 1 { Attr.none with pa := some e.part } (bump (.homeT e.tile) F.HOME_BC_CNT_BCAST s)
  let v : State := { bump (.homeT e.tile) F.HOME_BC_CNT_BCAST s with tel := x }
  let ms := membersAt s e.tile e.group excl e.part
  obtain ⟨a1, a2, a3⟩ := haloAll_kept e.tile (.bcast e.id e.line e.group kind excl) v
  obtain ⟨b1, b2, b3⟩ := snoopTile_kept e.tile e.id e.line kind ms (haloAll e.tile (.bcast e.id e.line e.group kind excl) v)
  have hrun : broadcast e.id kind excl s = modLoq e.id (LoqE.asked ms)
      (snoopTile e.tile e.id e.line kind ms (haloAll e.tile (.bcast e.id e.line e.group kind excl) v)) := by
    unfold broadcast
    rw [loqOf_lone hloq]
    dsimp only
    rw [countHome, hx]
    rfl
  generalize snoopTile e.tile e.id e.line kind ms (haloAll e.tile (.bcast e.id e.line e.group kind excl) v) = w at *
  have hw : w.home.loq = [e] := b1.trans (a1.trans hloq)
  have hlone : (broadcast e.id kind excl s).home.loq = [e.asked ms] := by rw [hrun, modLoq_lone _ hw]
  have hwaits : checkSnoops e.id (broadcast e.id kind excl s) = broadcast e.id kind excl s :=
    checkSnoops_waits (e := e.asked ms) hlone fun h => stations_ne_nil e.tile (List.isEmpty_iff.1 h.2.1)
  rw [hwaits]
  refine ⟨hlone, ?_, ?_⟩
  · rw [hrun, modLoq_lone _ hw]
    exact (congrArg (List.map _) b2).trans a3
  · rw [hrun, modLoq_lone _ hw]
    exact b3.trans (by rw [a2]; rfl)

/-- A read of a shared line that the ALC does not hold. -/
theorem loqService_of_read {e : LoqE} (hfr : frozen s = false) (hloq : s.home.loq = [e]) (hst : e.stage = .queued) (hk : e.kind = .mem)
    (halc : s.home.alc = []) (hgrp : e.group < 4096) (hop : e.req.op = .memRd) (hmd : e.req.md = .any) :
    loqService e.id Upset.none s = checkSnoops e.id (broadcast e.id .inv (some e.part) (strike e.tile Upset.none s)) := by
  have hhead := atHead_lone hloq hst (by simp [wbackOut, halc])
  have hat : alcAt (strike e.tile Upset.none s) e.tile e.line = none := by simp [alcAt, strike, halc]
  have hup (v : State) : loqUpset e Upset.none v = v := rfl
  unfold loqService
  rw [loqOf_lone hloq]
  dsimp only
  rw [if_neg (by simp [hfr, hhead, hk]), hup]
  unfold serveMem
  rw [hat]
  dsimp only
  rw [if_neg (by simp only [noGroup]; omega)]
  simp [hk, snoopKindOf, hop, hmd]

/-- The message of a broadcast reaches a station. -/
theorem haloBcast_arrives {e : LoqE} {m : HaloE} {k : SnoopKind} {x : Option Nat} (hfr : frozen s = false) (h : s.home.halo = [m])
    (hway : (haloWay s m.src m.dst).isSome = true) (hmsg : m.msg = .bcast e.id e.line e.group k x) (hloq : s.home.loq = [e]) :
    haloBcast m.id none s = stationDone m.dst e.id (snoopTile m.dst e.id e.line k (membersAt s m.dst e.group x e.part) (haloGone s)) := by
  obtain ⟨id, src, dst, msg, fails, up⟩ := m
  obtain rfl : msg = _ := hmsg
  have hgone : loqOf (haloGone s) e.id = some e := loqOf_lone (s := haloGone s) hloq
  unfold haloBcast
  rw [haloOf_lone (m := ⟨id, src, dst, .bcast e.id e.line e.group k x, fails, up⟩) h]
  dsimp only
  rw [haloStep_arrives (m := ⟨id, src, dst, .bcast e.id e.line e.group k x, fails, up⟩) _ hfr h hway]
  dsimp only
  have hms : membersAt (haloGone s) dst e.group x e.part = membersAt s dst e.group x e.part :=
    membersAt_congr (s := s) (t := haloGone s) (.of_regs rfl) rfl rfl ..
  rw [hgone, Option.map_some, Option.getD_some, hms]

/-- A station that asks no host answers for the request of another. -/
theorem stationDone_of_none {e : LoqE} {n : Nat} (hloq : s.home.loq = [e]) (hn : n ≠ e.tile) (hsn : s.home.snoops = []) :
    stationDone n e.id s = { s with home := { s.home with
      halo := s.home.halo ++ [⟨s.home.nextId, n, e.tile, .resp e.id n [], 0, true⟩], nextId := s.home.nextId + 1 } } := by
  have hopen : openAt s n e.id = [] := by simp [openAt, hsn]
  unfold stationDone
  rw [loqOf_lone hloq]
  dsimp only
  rw [hopen, if_neg (by decide), if_neg hn, hsn]
  simp only [List.filter_nil, List.filterMap_nil, haloPut]

/-- A station waits for the one host that it has asked. -/
theorem stationDone_waits {e : LoqE} {n : Nat} {q : Snoop} (hloq : s.home.loq = [e]) (hsn : s.home.snoops = [q]) (hq : q.tile = n)
    (hid : q.loq = e.id) (hgot : q.got = none) : stationDone n e.id s = s := by
  have hopen : openAt s n e.id = [q] := by simp [openAt, hsn, hq, hid, hgot]
  unfold stationDone
  rw [loqOf_lone hloq]
  dsimp only
  rw [hopen]
  rfl

/-- The snoop of one host. -/
def askOne (n loq : Nat) (line : LineId) (k : SnoopKind) (p l : Nat) (s : State) : Snoop where
  id := s.home.nextId
  tile := n
  part := p
  lead := l
  loq := loq
  line := line
  kind := k
  deadline := s.tick + rd s .homeM F.HOME_CFG_SNP_TMO
  conflict := false
  heldRsp := none
  wbMerged := false
  wbLeft := 0
  got := none

theorem snoopTile_one (n loq : Nat) (line : LineId) (k : SnoopKind) (p l : Nat) (s : State) :
    snoopTile n loq line k [(p, l)] s = State.say (.bisnp l s.home.nextId k line) { s with home := { s.home with
      snoops := s.home.snoops ++ [askOne n loq line k p l s], nextId := s.home.nextId + 1 } } := rfl

/-! ### An answer reaches the home -/

/-- A request with one station less to hear of. -/
def LoqE.heard (st : Nat) (e : LoqE) : LoqE := { e with stations := e.stations.filter (· != st) }

theorem haloResp_arrives {e : LoqE} {m : HaloE} {st : Nat} (hfr : frozen s = false) (h : s.home.halo = [m])
    (hway : (haloWay s m.src m.dst).isSome = true) (hmsg : m.msg = .resp e.id st []) (hloq : s.home.loq = [e]) :
    haloResp m.id none s = checkSnoops e.id { s with home := { s.home with halo := [], loq := [e.heard st] } } := by
  obtain ⟨id, src, dst, msg, fails, up⟩ := m
  obtain rfl : msg = _ := hmsg
  unfold haloResp
  rw [haloOf_lone (m := ⟨id, src, dst, .resp e.id st [], fails, up⟩) h]
  dsimp only
  rw [haloStep_arrives (m := ⟨id, src, dst, .resp e.id st [], fails, up⟩) _ hfr h hway]
  dsimp only
  rw [modLoq_lone (s := haloGone s) _ hloq]
  simp only [timeouts, List.filter_nil, List.map_nil, List.append_nil]
  rfl

/-- The target's line is read for a request once all have answered. -/
theorem checkSnoops_reads {e : LoqE} (hloq : s.home.loq = [e]) (hst : e.stage = .snooping) (hall : e.stations = []) (hloc : e.localDone = true)
    (hto : e.timedOut = []) (hk : e.kind = .mem) (hop : e.req.op = .memRd) (halc : s.home.alc = []) (hents : s.wab.ents = [])
    (hup : usable s e.line.out = true) :
    ∃ h : Home, h.loq = [{ e with stage := .reading }] ∧ h.halo = s.home.halo ∧
      checkSnoops e.id s = forward true 3 0 0 (loqFwd (.home e.tile e.id) e (lineReq .memRd e.line 0 0 false)) { s with home := h } := by
  have hwait : wbackOut s e.tile e.line = false := by simp [wbackOut, halc]
  have hat : alcAt s e.tile e.line = none := by simp [alcAt, halc]
  have hafter : checkSnoops e.id s = serveRead e.id s := by
    unfold checkSnoops
    rw [loqOf_lone hloq]
    dsimp only
    rw [if_pos ⟨hst, by simp [hall], hloc⟩]
    unfold afterSnoops
    rw [loqOf_lone hloq]
    simp only [hto, hwait, hk, hat, hop, ReqOp.isMemWrite, List.isEmpty_nil, Bool.not_true, Bool.false_eq_true, if_false, Option.isSome_none]
  let own : Bool := e.req.op == .memInv || (e.req.op == .memRd && e.req.md == .any)
  let v : State := s.when own (loseResv e.line .lostStore fun _ => false)
  have hv : ∃ h : Home, v = { s with home := h } ∧ h.loq = [e] ∧ h.halo = s.home.halo := by
    by_cases ho : own = true
    · exact ⟨(loseResv e.line .lostStore (fun _ => false) s).home, if_pos ho, hloq, rfl⟩
    · exact ⟨s.home, if_neg ho, hloq, rfl⟩
  have hread : serveRead e.id s = targetRead e.id false v := by
    obtain ⟨h, hh, -, -⟩ := hv
    have hline : wabLine v e.tile e.line = [] := by rw [hh, wabLine, hents, List.filter_nil]
    unfold serveRead
    rw [loqOf_lone hloq]
    dsimp only
    rw [if_neg (by simp [hop])]
    change (match wabLine v e.tile e.line with | [] => _ | x :: rest => _) = _
    rw [hline]
  obtain ⟨h, hh, hl, hhalo⟩ := hv
  refine ⟨{ h with loq := [{ e with stage := .reading }] }, rfl, hhalo, ?_⟩
  rw [hafter, hread, hh]
  have hup' : usable { s with home := h } e.line.out = true := hup
  unfold targetRead
  rw [loqOf_lone (s := { s with home := h }) hl]
  dsimp only
  rw [if_neg (by rw [hup']; decide), modLoq_lone (s := { s with home := h }) _ hl]
  rfl

/-- Settles O31: a request enters its home's queue, is broadcast, is answered by the stations, and is read at its target. -/
theorem homeOrderAndHalo : Obligations.HomeOrderAndHalo := by
  unfold Obligations.HomeOrderAndHalo
  refine ⟨?_, ?_, ?_, ?_, ?_, ?_, ?_, ?_⟩
  · intro s e clk r hdue hfr hcells hloq hst hwb
    obtain ⟨v, hv, h1, h2, -, h4⟩ := loqTake_lone clk hloq
    rw [hwb] at hv
    exact ⟨_, congrArg (done s) ((dueThen_of_noneDue _ hdue).trans
      ((loqEntry_lone hfr hcells hloq hst (tryMerge_of_not_wb hwb)).trans hv)), h1, h2, h4⟩
  · intro s e clk r hdue hfr hcells hloq hst hwb hsn
    obtain ⟨v, hv, h1, h2, h3, -⟩ := loqTake_lone clk hloq
    rw [hwb] at hv
    refine ⟨_, congrArg (done s) ((dueThen_of_noneDue _ hdue).trans
      ((loqEntry_lone hfr hcells hloq hst (tryMerge_of_no_snoop hsn)).trans hv)), h1, ?_⟩
    change v.home.halo ++ [⟨v.home.nextId, e.tile, tileOf e.lead, .wback e.lead e.line, 0, true⟩] = _
    rw [h2, h3]
  · intro s e hdue hfr hloq hst hk halc _ hgrp hop hmd
    obtain ⟨h1, h2, h3⟩ := broadcast_lone (s := strike e.tile Upset.none s) .inv (some e.part) hloq
    have hms : membersAt (strike e.tile Upset.none s) e.tile e.group (some e.part) e.part =
        membersAt s e.tile e.group (some e.part) e.part := membersAt_congr (s := s) (t := strike e.tile Upset.none s) (.of_regs rfl) rfl rfl ..
    rw [hms] at h1 h3
    refine ⟨_, congrArg (done s) ((dueThen_of_noneDue _ hdue).trans (congrArg delCheck
      (loqService_of_read hfr hloq hst hk halc hgrp hop hmd))), ?_⟩
    generalize checkSnoops e.id (broadcast e.id .inv (some e.part) (strike e.tile Upset.none s)) = u at *
    rw [settled_home, delCheck_home, h1, h2, h3, ← filter_bne_eq]
    exact ⟨rfl, rfl, rfl⟩
  · intro s e m k x hdue hfr hhalo hway hmsg hloq hdst hsn hms
    refine ⟨_, congrArg (done s) ((dueThen_of_noneDue _ hdue).trans (haloBcast_arrives hfr hhalo hway hmsg hloq)), ?_⟩
    rw [hms, show snoopTile m.dst e.id e.line k [] (haloGone s) = haloGone s from rfl, stationDone_of_none (s := haloGone s) hloq hdst hsn]
    exact ⟨hloq, hsn, rfl⟩
  · intro s e m k x p l hdue hfr hhalo hway hmsg hloq _ hsn hms
    have hasked : (snoopTile m.dst e.id e.line k [(p, l)] (haloGone s)).home.snoops = [askOne m.dst e.id e.line k p l s] := by
      rw [snoopTile_one]
      change s.home.snoops ++ [_] = _
      rw [hsn]
      rfl
    refine ⟨_, congrArg (done s) ((dueThen_of_noneDue _ hdue).trans (haloBcast_arrives hfr hhalo hway hmsg hloq)), ?_⟩
    rw [hms, stationDone_waits (n := m.dst) (by exact hloq) hasked rfl rfl rfl, settled_home, hasked]
    exact ⟨hloq, rfl, rfl, rfl⟩
  · intro s m loq st l k x up hdue hfr hhalo hmsg hway hlim hmask
    obtain ⟨id, src, dst, msg, fails, up'⟩ := m
    obtain rfl : msg = _ := hmsg
    have hrun : haloResp id (some k) s = heldAt ⟨id, src, dst, .resp loq st l, fails, up'⟩ x up s := by
      unfold haloResp
      rw [haloOf_lone (m := ⟨id, src, dst, .resp loq st l, fails, up'⟩) hhalo]
      exact (haloStep_fails (m := ⟨id, src, dst, .resp loq st l, fails, up'⟩) _ hfr hhalo hway).trans (haloFail_held hhalo hlim hmask)
    refine ⟨_, congrArg (done s) ((dueThen_of_noneDue _ hdue).trans (congrArg delCheck hrun)), ?_⟩
    rw [settled_home, delCheck_home, rd_settled, rd_delCheck_off (by decide) (evq_base_ne_halo · x), heldAt, bump, rd_bumpBy_same]
    exact ⟨rfl, rfl, rfl⟩
  · intro s e m st hdue hfr hhalo hway hmsg hloq hloc
    have hwaits := checkSnoops_waits (s := { s with home := { s.home with halo := [], loq := [e.heard st] } }) (e := e.heard st) rfl
      (fun h => by simpa [LoqE.heard, hloc] using h.2.2)
    refine ⟨_, congrArg (done s) ((dueThen_of_noneDue _ hdue).trans (congrArg delCheck
      ((haloResp_arrives hfr hhalo hway hmsg hloq).trans hwaits))), ?_⟩
    rw [settled_home, delCheck_home]
    exact ⟨rfl, rfl⟩
  · intro s e m st hdue hfr hhalo hway hmsg hloq hst hloc hstage hto hk hop halc hents hup
    obtain ⟨h, hl, hh, hreads⟩ := checkSnoops_reads (s := { s with home := { s.home with halo := [], loq := [e.heard st] } })
      (e := e.heard st) rfl hstage (by simp [LoqE.heard, hst]) hloc hto hk hop halc hents hup
    refine ⟨_, congrArg (done s) ((dueThen_of_noneDue _ hdue).trans (congrArg delCheck
      ((haloResp_arrives hfr hhalo hway hmsg hloq).trans hreads))), ?_⟩
    rw [settled_home, settled_maps, delCheck_home, (delCheck_kept _).2.2, forward, forwardTo_home, forwardTo_fwds, hl, hh]
    refine ⟨rfl, rfl, ?_⟩
    rw [List.map_append]
    rfl

end Sys2Proof.Machine
end

section
/-! SUPPORT. A state that shows what O36 leaves open: the cell of a writeback that Skylight mirrors. -/
namespace Sys2Proof.Machine

/-- A dirty line of partition 0. -/
def dirtyLine : AlcL := ⟨0, ⟨0, 0, 0⟩, true, true, false, false, 0, 0, 0, 0, false, false⟩

/-- A module that mirrors every cell into the ring of endpoint 0, with partition 0 in RUN and a dirty line of it, whose target is up. -/
def mirroredStop : State :=
  let s := State.reset |> wr .tel F.TEL_SKY_CFG_EN 1 |> wr .tel F.TEL_SKY_CFG_MIR_EN 1 |> wr .tel F.TEL_SKY_CFG_POINT 0
    |> wr .tel F.TEL_SKY_CFG_MAX 1 |> wr (.part 0) F.PART_STS_STATE 0 |> wr (.phy 0) F.PHY_LINK_CFG_ROLE 2 |> wr (.phy 0) F.BLK_CTL_RUN 0
    |> modLink 0 (fun l => { l with phase := .l0 })
  { s with flt := { s.flt with cores := [(0, ⟨true, 0⟩)] }, mq := { s.mq with mgmtUp := [0] }, home := { s.home with alc := [dirtyLine] } }

/-- The stop's drain writes the line back, and the record of its cell goes out. -/
theorem outCount_partStop_mirroredStop : Ans.outCount (exec (.partStop ⟨0, 0, 0, 0, 0⟩ 0) mirroredStop) = 1 := by decide

/-- Refutes O36: the stop of a partition drains its dirty lines, and Skylight can mirror the cell of such a writeback, whose record leaves the
module; the clause on the stop has nothing go out. -/
theorem not_partitionStopAndRestart : ¬ Obligations.PartitionStopAndRestart := by
  rintro ⟨hstop, -⟩
  obtain ⟨t, ht, -, -, -, -, hout, -⟩ := hstop mirroredStop ⟨0, 0, 0, 0, 0⟩ 0 (by decide) (by decide) (by decide) (by decide) (by decide) (by decide)
    (by decide)
  have hcount := outCount_partStop_mirroredStop
  rw [ht, Ans.outCount, hout] at hcount
  exact absurd hcount (by decide)

end Sys2Proof.Machine
end

section
/-! SUPPORT. What the steps of a partition reset leave alone: its registers, the table, other partitions and the requests of others
(10 R199-R201). -/
namespace Sys2Proof.Machine
variable {s t u : State}

/-- The fields of a queue's page that completions write. -/
abbrev cplFlds : List Fld := [F.MQ_Q_STS_CQ_PAUSED, F.MQ_Q_STS_DMA_ERR, F.MQ_Q_CQ_TAIL, F.MQ_QSEQ_CPL_LAST]

/-- A register of a PART page that no completion, event or cell writes. -/
abbrev PartFld (f : Fld) : Prop := AsideFld f ∧ ∀ g ∈ cplFlds, g.off * 8 + g.lo ≠ f.off * 8 + f.lo

/-- A completion writes only its own fields, on whatever page. -/
theorem rd_complete_partFld (c : Ctx) (op st a b : Nat) {pg : Page} {f : Fld} (hf : PartFld f) (hpg : (Page.evq 128).base ≠ pg.base)
    (s : State) : rd (complete c op st a b s) pg f = rd s pg f := by
  obtain ⟨⟨hlow, -⟩, hne⟩ := hf
  have hwr : ∀ (g : Fld) (v : Nat) (u : State), g ∈ cplFlds → rd (wr (.mq c.ep c.q) g v u) pg f = rd u pg f := by
    intro g v u hg
    have hg' : g.off * 8 + g.lo < 0x8000 := by
      revert g
      decide
    exact rd_wr_place v u ⟨hg', hlow, hne g hg⟩
  have hpost : ∀ typ l (u : State), rd (post 128 typ l u) pg f = rd u pg f := fun typ l u => rd_post u 128 typ l hpg hlow
  have hput : ∀ cpl (u : State), cpl.ctx = c → rd (cqPut cpl u) pg f = rd u pg f := by
    rintro cpl u rfl
    unfold cqPut State.when
    dsimp only
    split <;> simp [hwr]
  have hout : ∀ cpl (u : State), cpl.ctx = c → rd (cplOut cpl u) pg f = rd u pg f := by
    rintro cpl u rfl
    have hmq : ∀ (v : State) (m : Mq), rd { v with mq := m } pg f = rd v pg f := fun _ _ => rfl
    unfold cplOut cqWrite qHalt
    dsimp only
    split_ifs <;> simp [hpost, hput, hmq, hwr]
  unfold complete
  dsimp only
  split
  · exact hpost ..
  · exact hout _ _ rfl

/-- Two states agree on partitions, entries and what is held, and on the requests of hosts. -/
structure ResetStep (s t : State) : Prop where
  parts : t.parts = s.parts
  binds : t.maps.binds = s.maps.binds
  held : t.maps.held = s.maps.held
  ioWait : t.maps.ioWait = s.maps.ioWait
  fwds : ∃ l, t.maps.fwds = s.maps.fwds ++ l ∧ ∀ f ∈ l, f.agent ≠ .host
  sched : t.sched = s.sched
  slots : t.home.slots.map (·.part) = s.home.slots.map (·.part)
  ents : t.wab.ents = s.wab.ents
  rd : ∀ p f, PartFld f → rd t (.part p) f = rd s (.part p) f

namespace ResetStep

theorem no_new_fwds (l : List Fwd) : ∃ m, l = l ++ m ∧ ∀ f ∈ m, f.agent ≠ .host := ⟨[], (List.append_nil l).symm, by simp⟩

theorem of_same (hparts : t.parts = s.parts) (hmaps : t.maps = s.maps) (hsched : t.sched = s.sched) (hhome : t.home = s.home)
    (hwab : t.wab = s.wab) (hrd : ∀ p f, PartFld f → Machine.rd t (.part p) f = Machine.rd s (.part p) f) : ResetStep s t :=
  ⟨hparts, by rw [hmaps], by rw [hmaps], by rw [hmaps], hmaps ▸ no_new_fwds _, hsched, by rw [hhome], by rw [hwab], hrd⟩

theorem refl (s : State) : ResetStep s s := of_same rfl rfl rfl rfl rfl fun _ _ _ => rfl

theorem trans (h : ResetStep s t) (g : ResetStep t u) : ResetStep s u := by
  obtain ⟨l, hl, hno⟩ := h.fwds
  obtain ⟨m, hm, hno'⟩ := g.fwds
  refine ⟨g.parts.trans h.parts, g.binds.trans h.binds, g.held.trans h.held, g.ioWait.trans h.ioWait, ⟨l ++ m, ?_, ?_⟩,
    g.sched.trans h.sched, g.slots.trans h.slots, g.ents.trans h.ents, fun p f hf => (g.rd p f hf).trans (h.rd p f hf)⟩
  · rw [hm, hl, List.append_assoc]
  · intro f hf
    rcases List.mem_append.1 hf with hf | hf
    · exact hno f hf
    · exact hno' f hf

theorem each {α : Type} (l : List α) {f : α → State → State} (h : ∀ a s, ResetStep s (f a s)) (s : State) : ResetStep s (s.each l f) := by
  induction l generalizing s with
  | nil => exact refl s
  | cons a l ih => exact (h a s).trans (ih (f a s))

theorem part_base_aside (p : Nat) : AsidePage (.part p) := by
  have hbase : (Page.part p).base = 0x02000000 + p * 0x10000 := rfl
  have hevq : (Page.evq 128).base = 0xC000 := rfl
  have htel : Page.tel.base = 0x7000 := rfl
  have hcell (n : Nat) : (Page.cell n).base = 0x01000000 + n * 0x00200000 + 0x00100000 + 0x1000 := rfl
  have hhome (n : Nat) : (Page.homeT n).base = 0x01000000 + n * 0x00200000 + 0x00100000 + 0x4000 := rfl
  refine ⟨?_, ?_, fun n => ⟨?_, ?_⟩⟩
  · rw [hevq, hbase]
    omega
  · rw [htel, hbase]
    omega
  · rw [hcell, hbase]
    omega
  · rw [hhome, hbase]
    omega

theorem of_cellStep (h : CellStep s t) : ResetStep s t :=
  of_same h.beside.aside.parts h.maps h.beside.aside.sched h.home h.beside.wab
    fun p f hf => h.beside.aside.rd _ f (part_base_aside p) hf.1

theorem complete (c : Ctx) (op st a b : Nat) (s : State) : ResetStep s (complete c op st a b s) :=
  of_same (complete_parts ..) (complete_maps ..) (complete_sched ..) (complete_home ..) (complete_wab ..)
    fun p _ hf => rd_complete_partFld c op st a b hf (part_base_aside p).1 s

theorem ownerDone (e : SchedEnt) (st r0 : Nat) (s : State) : ResetStep s (ownerDone e st r0 s) := by
  unfold Machine.ownerDone
  split
  · exact complete ..
  · obtain ⟨g, o, h⟩ := glrSend_glr_only _ G.rstRsp _ s
    unfold glrRstRsp
    rw [h]
    exact of_same rfl rfl rfl rfl rfl fun _ _ _ => rfl
  · exact refl s

/-! ### Writebacks -/

/-- Writebacks of the ALC add only forwards of its own, and lose reservations in place. -/
theorem forwardTo (own : Bool) (tc dmod dport dpart : Nat) {f : Fwd} (hf : f.agent ≠ .host) (s : State) :
    ResetStep s (forwardTo own tc dmod dport dpart f s) := by
  have hb := Beside.forwardTo own tc dmod dport dpart f s
  have hm := FaultStep.forwardTo own tc dmod dport dpart f s
  exact ⟨hb.aside.parts, by rw [hm.maps], hm.held, hm.ioWait, ⟨_, forwardTo_fwds .., by simpa using hf⟩, hb.aside.sched,
    by rw [forwardTo_home], by rw [hb.wab], fun p f hf => hb.aside.rd _ f (part_base_aside p) hf.1⟩

theorem forward (own : Bool) (tc dmod dport : Nat) {f : Fwd} (hf : f.agent ≠ .host) (s : State) :
    ResetStep s (forward own tc dmod dport f s) := forwardTo _ _ _ _ _ hf s

theorem home {h : Home} (s : State) (hslots : h.slots.map (·.part) = s.home.slots.map (·.part)) : ResetStep s { s with home := h } :=
  ⟨rfl, rfl, rfl, rfl, no_new_fwds _, rfl, hslots, rfl, fun _ _ _ => rfl⟩

theorem loseResv (l : LineId) (st : ResvSt) (keep : Resv → Bool) (s : State) : ResetStep s (loseResv l st keep s) := by
  refine home s ?_
  rw [List.map_map]
  refine List.map_congr_left fun r _ => ?_
  dsimp only [Function.comp]
  split <;> rfl

theorem bumpBy_homeT {f : Fld} (n k : Nat) (s : State) (hf : f.off * 8 + f.lo < 0x8000) : ResetStep s (bumpBy (.homeT n) f k s) :=
  of_same rfl rfl rfl rfl rfl fun p _ hg => rd_wr_page s _ ((part_base_aside p).2.2 n).2 hf hg.1.1

theorem alcFound (n : Nat) (l : LineId) (part : Nat) (s : State) : ResetStep s (alcFound n l part s) := by
  have hlose (b : Bool) (k : List LineId) (v : State) :
      ResetStep v (v.when b (State.each k fun y => Machine.loseResv y .lostError fun _ => false)) := by
    cases b
    · exact refl v
    · exact each k (fun y v => loseResv y _ _ v) v
  unfold Machine.alcFound
  split
  · exact refl s
  · dsimp only
    split
    · exact (home s (by rfl)).trans ((hlose _ _ _).trans (bumpBy_homeT _ _ _ (by decide)))
    · exact (home s (by rfl)).trans ((hlose _ _ _).trans (bumpBy_homeT (f := F.HOME_ALC_PAR_CORR) _ 1 _ (by decide)))

theorem alcWriteback (n : Nat) (l : LineId) (s : State) : ResetStep s (alcWriteback n l s) := by
  unfold Machine.alcWriteback
  split
  · exact refl s
  · dsimp only
    split
    · exact refl s
    · exact (alcFound ..).trans ((home _ (by rfl)).trans (forward _ _ _ _ (by simp [lineFwd]) _))

theorem wab {w : Wab} (s : State) (hents : w.ents = s.wab.ents) : ResetStep s { s with wab := w } :=
  ⟨rfl, rfl, rfl, rfl, no_new_fwds _, rfl, rfl, hents, fun _ _ _ => rfl⟩

theorem startDrain (part : Nat) (why : DrainFor) (s : State) : ResetStep s (startDrain part why s) := by
  have hdrains (v : State) (l : List Drain) (n : Nat) :
      ResetStep v { v with wab := { v.wab with drains := l, nextId := n } } := wab v rfl
  unfold Machine.startDrain
  dsimp only
  exact (each _ (fun (a : AlcL) v => alcWriteback a.tile a.line v) s).trans (hdrains ..)

theorem say (o : Out) (s : State) : ResetStep s (s.say o) := of_same rfl rfl rfl rfl rfl fun _ _ _ => rfl

end ResetStep

/-! ### The steps of a reset -/

theorem partOf_congr (h : t.parts = s.parts) (p : Nat) : partOf t p = partOf s p := by rw [partOf, h, partOf]

theorem partOf_modPart_same (p : Nat) (f : PartS → PartS) (s : State) : partOf (modPart p f s) p = f (partOf s p) := tget_tput_same ..

theorem partOf_modPart_other {p q : Nat} (f : PartS → PartS) (s : State) (h : q ≠ p) : partOf (modPart p f s) q = partOf s q :=
  tget_tput_other _ _ _ _ h.symm

/-- The reset is counted by its cause. -/
def resetCounted (part cause : Nat) (s : State) : State :=
  (s |> restartFirst part |> countReset part cause).when (cause == 1) (wr (.part part) F.PART_CTL_RESET 1)

/-- The partition's reset runs, and its reservations are gone. -/
def resetMarked (part : Nat) (ctx : Option Ctx) (s : State) : State :=
  s |> wr (.part part) F.PART_STS_RESETTING 1
    |> modPart part (fun p => { p with
        resetAt := some s.tick, resetCtx := ctx.toList, intoStop := p.intoStop || partSt s part == 1
        snoops := (s.home.snoops.filter fun n => n.part == part && n.got.isNone).map (·.id) })
    |> dropReservations part

/-- What the partition holds is dropped. -/
def resetDropped (part : Nat) (s : State) : State :=
  { s with
    maps := { s.maps with
      held := s.maps.held.filter fun h => h.part != part
      ioWait := s.maps.ioWait.filter fun w => w.part != part
      fwds := s.maps.fwds.map fun f => if f.part == part && decide (f.agent = .host) then { f with dropped := true } else f }
    home := { s.home with loq := s.home.loq.map fun e => if e.part == part && e.lead < 512 then { e with dropRsp := true } else e }
    sched := s.sched.filter fun e => decide (e.act ≠ .restart part) }

/-- The drain of the reset begins, and what stands toward the host and the devices is given up. -/
def resetDrained (part host : Nat) (s : State) : State :=
  let s := startDrain part .reset s
  let s := s.each ((s.core.cells.filter fun c => c.out == host && c.part == part && decide (c.stage = .egress)).map (·.id)) discardCell
  s.each ((List.range' 1 63).filterMap fun v => let w := vpOf s part v; if w.pwr then w.lead else none) fun l => State.say (.hotReset l)

/-- The outcome of a restart that was armed. -/
def armedCancelled (ent : Option SchedEnt) (s : State) : State :=
  match ent with
  | some e => ownerDone e St.cancelled 0 s
  | none => s

theorem ResetStep.resetDrained (part host : Nat) (s : State) : ResetStep s (resetDrained part host s) := by
  unfold Machine.resetDrained
  dsimp only
  exact (startDrain ..).trans ((each _ (fun id v => of_cellStep (CellStep.discardCell id v)) _).trans (each _ (fun _ v => say _ v) _))

theorem ResetStep.armedCancelled (ent : Option SchedEnt) (s : State) : ResetStep s (armedCancelled ent s) := by
  unfold Machine.armedCancelled
  split
  · exact ownerDone ..
  · exact refl s

/-- Two states agree on what a reset keeps. -/
structure ResetKeeps (s t : State) : Prop where
  parts : t.parts = s.parts
  binds : t.maps.binds = s.maps.binds
  ents : t.wab.ents = s.wab.ents

/-- A restart that comes before the reset leaves what the reset is about. -/
theorem restartFirst_kept (part : Nat) (s : State) :
    ResetKeeps s (restartFirst part s) ∧
      rd (restartFirst part s) (.part part) F.PART_RST_CNT_MGR = rd s (.part part) F.PART_RST_CNT_MGR := by
  unfold restartFirst
  split
  next e _ =>
    split
    · have h := ResetStep.ownerDone e St.ok 0 (setPartSt part 0 { s with sched := s.sched.filter fun x => x.idx != e.idx })
      refine ⟨⟨h.parts, h.binds, h.ents⟩, (h.rd part _ (by decide)).trans ?_⟩
      exact rd_wr_off (f := F.PART_STS_STATE) 0 { s with sched := s.sched.filter fun x => x.idx != e.idx } (by decide) (by decide) (by decide)
    · exact ⟨⟨rfl, rfl, rfl⟩, rfl⟩
  · exact ⟨⟨rfl, rfl, rfl⟩, rfl⟩

theorem resetCounted_kept (part cause : Nat) (s : State) : ResetKeeps s (resetCounted part cause s) := by
  obtain ⟨⟨h1, h2, h3⟩, -⟩ := restartFirst_kept part s
  have hcount (v : State) : ResetKeeps v (countReset part cause v) := by
    unfold countReset
    dsimp only
    split <;> exact ⟨rfl, rfl, rfl⟩
  obtain ⟨c1, c2, c3⟩ := hcount (restartFirst part s)
  unfold resetCounted State.when
  split <;> exact ⟨c1.trans h1, c2.trans h2, c3.trans h3⟩

theorem rd_countReset_cause (part : Nat) {cause : Nat} (hc : cause < 16) (s : State) :
    rd (countReset part cause s) (.part part) F.PART_STS_RST_CAUSE = cause := by
  have hset : rd (wr (.part part) F.PART_STS_RST_CAUSE cause s) (.part part) F.PART_STS_RST_CAUSE = cause :=
    rd_wr_of_lt (f := F.PART_STS_RST_CAUSE) s hc
  unfold countReset
  dsimp only
  split
  all_goals
    rw [bump, rd_bumpBy_off _ _ (by decide) (by decide) (by decide)]
    exact hset

theorem rd_resetCounted_cause (part : Nat) {cause : Nat} (hc : cause < 16) (s : State) :
    rd (resetCounted part cause s) (.part part) F.PART_STS_RST_CAUSE = cause := by
  have h := rd_countReset_cause part hc (restartFirst part s)
  unfold resetCounted State.when
  split
  · exact (rd_wr_off 1 _ (by decide) (by decide) (by decide)).trans h
  · exact h

theorem rd_resetCounted_ctl (part : Nat) (s : State) : rd (resetCounted part 1 s) (.part part) F.PART_CTL_RESET = 1 :=
  rd_wr_of_lt (f := F.PART_CTL_RESET) _ (by decide)

theorem rd_resetCounted_mgr (part : Nat) (s : State) : rd (resetCounted part 1 s) (.part part) F.PART_RST_CNT_MGR =
    min (rd s (.part part) F.PART_RST_CNT_MGR + 1) 255 := by
  obtain ⟨-, h⟩ := restartFirst_kept part s
  have hcount : rd (countReset part 1 (restartFirst part s)) (.part part) F.PART_RST_CNT_MGR =
      min (rd (wr (.part part) F.PART_STS_RST_CAUSE 1 (restartFirst part s)) (.part part) F.PART_RST_CNT_MGR + 1) 255 :=
    rd_bumpBy_same (s := wr (.part part) F.PART_STS_RST_CAUSE 1 (restartFirst part s)) (.part part) F.PART_RST_CNT_MGR 1
  rw [rd_wr_off _ _ (by decide) (by decide) (by decide), h] at hcount
  exact (rd_wr_off 1 _ (by decide) (by decide) (by decide)).trans hcount

/-- A reset that begins, in its stages. -/
theorem partResetStart_fresh {part : Nat} (cause : Nat) (ctx : Option Ctx) (h : resetting s part = false) :
    ∃ host ent, partResetStart part cause ctx s =
      resetDrained part host (armedCancelled ent (resetDropped part (resetMarked part ctx (resetCounted part cause s)))) := by
  have hnot : resetting (resetCounted part cause s) part = false := by
    rw [resetting, partOf_congr (resetCounted_kept part cause s).parts]
    exact h
  refine ⟨(hostLead (resetCounted part cause s) part).getD 512, restartEnt (resetCounted part cause s) part, ?_⟩
  unfold partResetStart
  dsimp only
  change (if resetting (resetCounted part cause s) part then _ else _) = _
  rw [if_neg (by simp [hnot])]
  rfl

/-- What a partition reset that begins has done. -/
structure ResetBegun (part : Nat) (ctx : Option Ctx) (s t : State) : Prop where
  running : resetting t part = true
  ctxs : (partOf t part).resetCtx = ctx.toList
  marked : rd t (.part part) F.PART_STS_RESETTING = 1
  held : ∀ h ∈ t.maps.held, h.part ≠ part
  ioWait : ∀ w ∈ t.maps.ioWait, w.part ≠ part
  fwds : ∀ f ∈ t.maps.fwds, f.part = part → f.agent = .host → f.dropped = true
  sched : ∀ e ∈ t.sched, e.act ≠ .restart part
  slots : ∀ r ∈ t.home.slots, r.part ≠ part
  others : ∀ q, q ≠ part → partOf t q = partOf s q
  binds : t.maps.binds = s.maps.binds
  ents : t.wab.ents = s.wab.ents

/-- The state of a reset before its drain begins. -/
def resetCleared (part cause : Nat) (ctx : Option Ctx) (s : State) : State :=
  resetDropped part (resetMarked part ctx (resetCounted part cause s))

theorem resetBegun_resetCleared (part cause : Nat) (ctx : Option Ctx) (s : State) : ResetBegun part ctx s (resetCleared part cause ctx s) := by
  obtain ⟨hparts, hbinds, hents⟩ := resetCounted_kept part cause s
  obtain ⟨f, hrun, hat, hctx⟩ : ∃ f : PartS → PartS, (resetCleared part cause ctx s).parts = (modPart part f (resetCounted part cause s)).parts ∧
      (∀ p, (f p).resetAt.isSome = true) ∧ ∀ p, (f p).resetCtx = ctx.toList := 
    ⟨fun p => { p with
        resetAt := some (resetCounted part cause s).tick, resetCtx := ctx.toList
        intoStop := p.intoStop || partSt (resetCounted part cause s) part == 1
        snoops := ((resetCounted part cause s).home.snoops.filter fun n => n.part == part && n.got.isNone).map (·.id) },
      rfl, fun _ => rfl, fun _ => rfl⟩
  refine ⟨?_, ?_, ?_, ?_, ?_, ?_, ?_, ?_, ?_, hbinds, hents⟩
  · rw [resetting, partOf_congr hrun, partOf_modPart_same, hat]
  · rw [partOf_congr hrun, partOf_modPart_same, hctx]
  · exact rd_wr_of_lt (pg := .part part) (f := F.PART_STS_RESETTING) (v := 1) (resetCounted part cause s) (by decide)
  · intro h hh
    simpa using (List.mem_filter.1 hh).2
  · intro w hw
    simpa using (List.mem_filter.1 hw).2
  · intro f hf hfp hag
    obtain ⟨g, -, rfl⟩ := List.mem_map.1 hf
    by_cases hg : (g.part == part && decide (g.agent = .host)) = true
    · rw [if_pos hg]
    · rw [if_neg hg] at hfp hag
      exact absurd (by simp [hfp, hag]) hg
  · intro e he
    simpa using (List.mem_filter.1 he).2
  · intro r hr
    simpa using (List.mem_filter.1 hr).2
  · intro q hq
    rw [partOf_congr hrun, partOf_modPart_other _ _ hq, partOf_congr hparts]

theorem ResetBegun.step {part : Nat} {ctx : Option Ctx} (h : ResetBegun part ctx s t) (g : ResetStep t u) : ResetBegun part ctx s u := by
  obtain ⟨l, hl, hno⟩ := g.fwds
  refine ⟨?_, ?_, (g.rd part _ (by decide)).trans h.marked, g.held ▸ h.held, g.ioWait ▸ h.ioWait, ?_, g.sched ▸ h.sched, ?_, ?_,
    g.binds.trans h.binds, g.ents.trans h.ents⟩
  · rw [resetting, partOf_congr g.parts]
    exact h.running
  · rw [partOf_congr g.parts]
    exact h.ctxs
  · intro f hf hp hag
    rw [hl] at hf
    rcases List.mem_append.1 hf with hf | hf
    · exact h.fwds f hf hp hag
    · exact absurd hag (hno f hf)
  · intro r hr
    have hmem : r.part ∈ t.home.slots.map (·.part) := g.slots ▸ List.mem_map_of_mem hr
    obtain ⟨r', hr', he⟩ := List.mem_map.1 hmem
    exact he ▸ h.slots r' hr'
  · intro q hq
    rw [partOf_congr g.parts]
    exact h.others q hq

/-- A reset that begins drops what the partition holds, and leaves its counted registers. -/
theorem partResetStart_begun {part : Nat} (cause : Nat) (ctx : Option Ctx) (h : resetting s part = false) :
    ResetBegun part ctx s (partResetStart part cause ctx s) ∧
      ∀ f, PartFld f → f.off * 8 + f.lo ≠ F.PART_STS_RESETTING.off * 8 + F.PART_STS_RESETTING.lo →
        rd (partResetStart part cause ctx s) (.part part) f = rd (resetCounted part cause s) (.part part) f := by
  obtain ⟨host, ent, hrun⟩ := partResetStart_fresh cause ctx h
  have hstep := (ResetStep.armedCancelled ent (resetCleared part cause ctx s)).trans (.resetDrained part host _)
  rw [hrun]
  refine ⟨(resetBegun_resetCleared part cause ctx s).step hstep, fun f hf hne => (hstep.rd part f hf).trans ?_⟩
  exact rd_wr_place (f := F.PART_STS_RESETTING) 1 (resetCounted part cause s) ⟨by decide, hf.1.1, hne.symm⟩

/-! ### The end of a reset -/

/-- Two states agree on partitions, entries, the WAB and the homes, and on the partitions' registers. -/
structure EndStep (s t : State) : Prop where
  parts : t.parts = s.parts
  binds : t.maps.binds = s.maps.binds
  wab : t.wab = s.wab
  home : t.home = s.home
  rd : ∀ pg f, (∃ p, pg = .part p ∨ pg = .pmd p) → PartFld f → rd t pg f = rd s pg f

namespace EndStep

theorem refl (s : State) : EndStep s s := ⟨rfl, rfl, rfl, rfl, fun _ _ _ _ => rfl⟩

theorem trans (h : EndStep s t) (g : EndStep t u) : EndStep s u :=
  ⟨g.parts.trans h.parts, g.binds.trans h.binds, g.wab.trans h.wab, g.home.trans h.home,
    fun pg f hp hf => (g.rd pg f hp hf).trans (h.rd pg f hp hf)⟩

theorem each {α : Type} {l : List α} {f : α → State → State} (h : ∀ a ∈ l, ∀ s, EndStep s (f a s)) (s : State) : EndStep s (s.each l f) := by
  induction l generalizing s with
  | nil => exact refl s
  | cons a l ih => exact (h a List.mem_cons_self s).trans (ih (fun b hb => h b (List.mem_cons_of_mem a hb)) (f a s))

theorem own_base {pg : Page} (h : ∃ p, pg = .part p ∨ pg = .pmd p) :
    0x02000000 ≤ pg.base ∧ (pg.base % 0x10000 = 0 ∨ pg.base % 0x10000 = 0x1000) := by
  obtain ⟨p, rfl | rfl⟩ := h <;> simp only [Page.base] <;> omega

theorem evq_base_ne {pg : Page} (q : Nat) (h : ∃ p, pg = .part p ∨ pg = .pmd p) : (Page.evq q).base ≠ pg.base := by
  have hown := own_base h
  simp only [Page.base.eq_def (.evq q)]
  split <;> omega

theorem finish (c : Ctx) (op st : Nat) (s : State) : EndStep s (finish c op st s) :=
  ⟨finish_parts .., by rw [finish_maps], finish_wab .., finish_home ..,
    fun _ _ hp hf => rd_complete_partFld c op st 0 0 hf (evq_base_ne 128 hp) s⟩

theorem post (q typ : Nat) (l : List (Nat × Nat)) (s : State) : EndStep s (post q typ l s) :=
  ⟨post_parts .., by rw [post_maps], post_wab .., post_home .., fun _ _ hp hf => rd_post s q typ l (evq_base_ne q hp) hf.1.1⟩

theorem modSrc (n : Nat) (f : SrcS → SrcS) (s : State) : EndStep s (modSrc n f s) := ⟨rfl, rfl, rfl, rfl, fun _ _ _ _ => rfl⟩

theorem autoClear (n : Nat) (s : State) : EndStep s (autoClear n s) := by
  have hclear (b : Bool) (f : SrcS → SrcS) : EndStep s (if b = true then Machine.modSrc n f s else s) := by
    split
    · exact modSrc ..
    · exact refl s
  unfold Machine.autoClear
  dsimp only
  split <;> exact hclear ..

theorem closeHandling (p : Handling → Bool) (n : Nat) (s : State) : EndStep s (closeHandling p n s) := by
  unfold Machine.closeHandling
  split
  · exact (modSrc ..).trans (autoClear ..)
  · exact refl s

theorem errPartFld_low (i : Nat) : (errPartFld i).off * 8 + (errPartFld i).lo < 0x8000 := by
  unfold errPartFld
  split <;> decide

theorem setErrPart {pg : Page} (hpg : pg.base < 0x02000000) (j : Nat) (b : Bool) (s : State) : EndStep s (setErrPart pg j b s) := by
  refine ⟨rfl, rfl, rfl, rfl, fun q f hq hf => rd_wr_page s _ ?_ (errPartFld_low _) hf.1.1⟩
  have hown := own_base hq
  omega

theorem partSources_low : ∀ x ∈ partSources, x.2.base < 0x02000000 := by decide

theorem closePartition (part : Nat) (s : State) : EndStep s (closePartition part s) := by
  refine each (fun x hx v => ?_) s
  split
  · exact (setErrPart (partSources_low x hx) ..).trans ((closeHandling ..).trans (autoClear ..))
  · exact refl v

end EndStep

/-- A mask without a partition's bit. -/
theorem bit_cleared (v i : Nat) : bit (if bit v i then v - 2 ^ i else v) i = false := by
  by_cases h : bit v i
  · rw [if_pos h]
    have hodd : v / 2 ^ i % 2 = 1 := by simpa [bit] using h
    have hsub : (v - 2 ^ i) / 2 ^ i = v / 2 ^ i - 1 := by
      simpa using Nat.sub_mul_div v (2 ^ i) 1
    simp only [bit, hsub, beq_eq_false_iff_ne]
    omega
  · rw [if_neg h]
    simpa using h

/-- What a table gives is its default or the value of an entry of it. -/
theorem tget_cases {α : Type} (d : α) (m : Tbl α) (i : Nat) : tget d m i = d ∨ ∃ e ∈ m, tget d m i = e.2 := by
  unfold tget
  cases h : m.find? (fun e => e.1 == i) with
  | none => exact .inl rfl
  | some e => exact .inr ⟨e, List.mem_of_find?_eq_some h, rfl⟩

/-- No group's fence-outs hold a partition whose fences have been cleared. -/
theorem bit_clearFences (part g : Nat) (s : State) : bit (tget 0 (clearFences part s).home.sgFenced g) part = false := by
  rcases tget_cases 0 (clearFences part s).home.sgFenced g with h | ⟨e, he, h⟩
  · rw [h, bit, Nat.zero_div]
    rfl
  · rw [h]
    obtain ⟨e', -, rfl⟩ := List.mem_map.1 (List.mem_filter.1 he).1
    exact bit_cleared ..

/-- The reset of one virtual port. -/
def vpReset (part v : Nat) (s : State) : State :=
  let p := vpOf s part v
  let s := setVp part v { Vp.reset with lead := p.lead, rm := p.rm, lost := p.lost, add := p.add } s
  match p.lead with
  | some l => s.when (!p.pwr) (wr (.phy l) F.PHY_LINK_CTL_PERST 0)
  | none => s

theorem vpReset_keeps {β : Type} (φ : State → β) (hvp : ∀ part v w x, φ (setVp part v w x) = φ x)
    (hperst : ∀ l x, φ (wr (.phy l) F.PHY_LINK_CTL_PERST 0 x) = φ x) (part v : Nat) (s : State) : φ (vpReset part v s) = φ s := by
  unfold vpReset
  dsimp only
  split
  · exact (when_keeps φ (hperst _) _ _).trans (hvp ..)
  · exact hvp ..

/-- The decoder, the fence and the extents of a partition after its reset. -/
def pmdCleared (part : Nat) (s : State) : State :=
  let ext := (s.maps.binds.filter fun e => e.2.valid && e.2.hasOff && e.2.part == part).map (·.1)
  let mine (i : Nat) : Bool := (bindOf s i).part == part
  let s := s |> wr (.pmd part) F.PMD_STS_DEC_COMMIT 0 |> wr (.pmd part) F.PMD_STS_DEC_ERR 0
  { s with
    wab := { s.wab with fseq := tput 0 s.wab.fseq part 0, lastFence := tput 0 s.wab.lastFence part 0 }
    maps := { s.maps with
      urLog := tput 0 s.maps.urLog part 0, caLog := tput 0 s.maps.caLog part 0
      decFail := tput 0 s.maps.decFail part 0
      offers := s.maps.offers.filter fun i => !mine i
      extents := (s.maps.extents.filter fun i => !mine i) ++ ext } }

/-- What is left after the reset of a partition's decoder and devices. -/
structure PmdDone (part : Nat) (s t : State) : Prop where
  parts : t.parts = s.parts
  binds : t.maps.binds = s.maps.binds
  home : t.home = s.home
  fseq : tget 0 t.wab.fseq part = 0
  commit : rd t (.pmd part) F.PMD_STS_DEC_COMMIT = 0
  st : partSt t part = partSt s part

theorem pmdDone_pmdReset (part : Nat) (s : State) : PmdDone part s (pmdReset part s) := by
  have hkeeps {β : Type} (φ : State → β) (hvp : ∀ part v w x, φ (setVp part v w x) = φ x)
      (hperst : ∀ l x, φ (wr (.phy l) F.PHY_LINK_CTL_PERST 0 x) = φ x) : φ (pmdReset part s) = φ (pmdCleared part s) :=
    each_keeps φ (fun v _ u => vpReset_keeps φ hvp hperst part v u) _
  have hrd (pg : Page) {f : Fld} (hf : f.off * 8 + f.lo < 0x8000)
      (hne : F.PHY_LINK_CTL_PERST.off * 8 + F.PHY_LINK_CTL_PERST.lo ≠ f.off * 8 + f.lo) :
      rd (pmdReset part s) pg f = rd (pmdCleared part s) pg f :=
    hkeeps (fun x => rd x pg f) (fun _ _ _ _ => rfl) fun l x => rd_wr_place 0 x ⟨by decide, hf, hne⟩
  refine ⟨hkeeps (·.parts) (fun _ _ _ _ => rfl) fun _ _ => rfl, hkeeps (·.maps.binds) (fun _ _ _ _ => rfl) fun _ _ => rfl,
    hkeeps (·.home) (fun _ _ _ _ => rfl) fun _ _ => rfl, ?_, ?_, ?_⟩
  · have hwab := hkeeps (·.wab) (fun _ _ _ _ => rfl) fun _ _ => rfl
    rw [hwab]
    exact tget_tput_same 0 0 s.wab.fseq part
  · rw [hrd _ (by decide) (by decide)]
    change rd (wr (.pmd part) F.PMD_STS_DEC_ERR 0 (wr (.pmd part) F.PMD_STS_DEC_COMMIT 0 s)) (.pmd part) F.PMD_STS_DEC_COMMIT = 0
    rw [rd_wr_place _ _ (by decide)]
    exact rd_wr_of_lt (f := F.PMD_STS_DEC_COMMIT) s (by decide)
  · rw [partSt, hrd _ (by decide) (by decide)]
    change rd (wr (.pmd part) F.PMD_STS_DEC_ERR 0 (wr (.pmd part) F.PMD_STS_DEC_COMMIT 0 s)) (.part part) F.PART_STS_STATE = _
    rw [rd_wr_place _ _ (by decide), rd_wr_place _ _ (by decide)]
    rfl

/-- A partition that is no longer reset. -/
def resetCleaned (part : Nat) (s : State) : State :=
  s |> wr (.part part) F.PART_STS_RESETTING 0 |> wr (.part part) F.PART_CTL_RESET 0
    |> modPart part (fun p => { p with resetAt := none, resetCtx := [], intoStop := false, snoops := [] })

/-- The reset of a partition that ends, before it is told. -/
def resetEnded (part : Nat) (s : State) : State := s |> clearFences part |> pmdReset part |> resetCleaned part

/-- What the end of a reset has done. -/
structure ResetOver (part : Nat) (s t : State) : Prop where
  ended : resetting t part = false
  marked : rd t (.part part) F.PART_STS_RESETTING = 0
  ctl : rd t (.part part) F.PART_CTL_RESET = 0
  commit : rd t (.pmd part) F.PMD_STS_DEC_COMMIT = 0
  st : partSt t part = partSt s part
  fseq : tget 0 t.wab.fseq part = 0
  binds : t.maps.binds = s.maps.binds
  fenced : ∀ g, bit (tget 0 t.home.sgFenced g) part = false

theorem rd_resetCleaned (part : Nat) (pg : Page) {f : Fld} (hf : f.off * 8 + f.lo < 0x8000)
    (h1 : F.PART_CTL_RESET.off * 8 + F.PART_CTL_RESET.lo ≠ f.off * 8 + f.lo)
    (h2 : F.PART_STS_RESETTING.off * 8 + F.PART_STS_RESETTING.lo ≠ f.off * 8 + f.lo) :
    rd (resetCleaned part s) pg f = rd s pg f :=
  (rd_wr_place 0 (wr (.part part) F.PART_STS_RESETTING 0 s) ⟨by decide, hf, h1⟩).trans (rd_wr_place 0 s ⟨by decide, hf, h2⟩)

theorem resetOver_resetEnded (part : Nat) (s : State) : ResetOver part s (resetEnded part s) := by
  obtain ⟨-, hbinds, hhome, hfseq, hcommit, hst⟩ := pmdDone_pmdReset part (clearFences part s)
  have hfenced (g : Nat) := bit_clearFences part g s
  unfold resetEnded
  simp only [← hhome] at hfenced
  generalize pmdReset part (clearFences part s) = v at *
  refine ⟨?_, ?_, ?_, (rd_resetCleaned part _ (by decide) (by decide) (by decide)).trans hcommit,
    (rd_resetCleaned part _ (by decide) (by decide) (by decide)).trans hst, hfseq, hbinds, hfenced⟩
  · rw [resetting, resetCleaned, partOf_modPart_same]
    rfl
  · exact (rd_wr_place (f := F.PART_CTL_RESET) 0 (wr (.part part) F.PART_STS_RESETTING 0 v) (by decide)).trans
      (rd_wr_of_lt (f := F.PART_STS_RESETTING) _ (by decide))
  · exact rd_wr_of_lt (v := 0) (f := F.PART_CTL_RESET) (wr (.part part) F.PART_STS_RESETTING 0 v) (by decide)

theorem ResetOver.step {part : Nat} (h : ResetOver part s t) (g : EndStep t u) : ResetOver part s u := by
  have hpart {f : Fld} (hf : PartFld f) : rd u (.part part) f = rd t (.part part) f := g.rd _ f ⟨part, .inl rfl⟩ hf
  exact ⟨by rw [resetting, partOf_congr g.parts]; exact h.ended, (hpart (by decide)).trans h.marked, (hpart (by decide)).trans h.ctl,
    (g.rd _ _ ⟨part, .inr rfl⟩ (by decide)).trans h.commit, (hpart (by decide)).trans h.st, g.wab ▸ h.fseq, g.binds.trans h.binds,
    g.home ▸ h.fenced⟩

/-- The reset that ends is told, and its commands complete. -/
def resetTold (part cause : Nat) (ctxs : List Ctx) (s : State) : State :=
  s |> closePartition part |> post part 0x0009 [(16, cause)] |> State.each ctxs fun c => finish c 0x12 St.ok

theorem EndStep.resetTold (part cause : Nat) (ctxs : List Ctx) (s : State) : EndStep s (resetTold part cause ctxs s) :=
  (closePartition ..).trans ((post ..).trans (EndStep.each (fun c _ v => finish c 0x12 St.ok v) _))

/-- A reset that has nothing left to wait for, of a partition that does not stop, ends. -/
theorem partResetDone_over {part : Nat} (hreset : resetting s part = true) (hdone : resetDone s part = true)
    (hstop : (partOf s part).intoStop = false) (hst : partSt s part ≠ 1) : ResetOver part s (partResetDone part s) := by
  obtain ⟨v, hv, hrun⟩ : ∃ v, v = resetTold part (rd s (.part part) F.PART_STS_RST_CAUSE) (partOf s part).resetCtx (resetEnded part s) ∧
      partResetDone part s = v.when ((partOf s part).intoStop || partSt v part == 1) (partStopped part St.ok) := by
    refine ⟨_, rfl, ?_⟩
    unfold partResetDone
    rw [if_neg (by simp [hreset, hdone])]
    rfl
  have hover : ResetOver part s v := hv ▸ (resetOver_resetEnded part s).step (EndStep.resetTold ..)
  rw [hrun, hstop, hover.st, Bool.false_or, beq_eq_false_iff_ne.2 hst]
  exact hover

/-! ### The steps -/

theorem partResetStart_bound (part cause : Nat) (ctx : Option Ctx) (h : resetting s part = false) (hc : cause < 16) :
    rd (partResetStart part cause ctx s) (.part part) F.PART_STS_RST_CAUSE = cause :=
  ((partResetStart_begun cause ctx h).2 _ (by decide) (by decide)).trans (rd_resetCounted_cause part hc s)

/-- Settles O37: a reset is begun once by its causes, what is left of the begin only adds writebacks of its own, and the end writes its
registers before it is told, where no one of the tellings touches them. -/
theorem partitionReset : Obligations.PartitionReset := by
  refine ⟨fun s c p hcore hdue hfr hp hnot => ?_, fun s p hdue htakes hnot => ?_, fun s lead hdue hrcv hrole hnot => ?_,
    fun s p hdue hfr hreset hdrains hloq hsnoops hinto hst => ?_⟩
  · have hrun : dueThen (byCore (partResetCmd c p)) s = partResetStart p 1 (some c) s := by
      rw [dueThen_of_noneDue _ hdue, byCore_of_coreActs _ hcore, partResetCmd, mirrorGate_of_not_frozen _ hfr, partReset,
        if_neg (by omega)]
    obtain ⟨h, hrd⟩ := partResetStart_begun 1 (some c) hnot
    have hmgr := (hrd F.PART_RST_CNT_MGR (by decide) (by decide)).trans (rd_resetCounted_mgr p s)
    have hcause := partResetStart_bound p 1 (some c) hnot (by decide)
    refine ⟨_, congrArg (done s) hrun, ?_⟩
    generalize partResetStart p 1 (some c) s = u at *
    exact ⟨h.running, h.ctxs, h.marked, hcause, hmgr, h.held, h.ioWait, h.fwds, h.sched, h.slots, h.others, h.binds, h.ents⟩
  · have hrun : dueThen (regGate (.part p) (partCtlWrite p 1 allBits)) s = partResetStart p 1 none s := by
      rw [dueThen_of_noneDue _ hdue, regGate_of_takes _ htakes, partCtlWrite, if_neg (by decide)]
    obtain ⟨h, hrd⟩ := partResetStart_begun 1 none hnot
    have hctl := (hrd F.PART_CTL_RESET (by decide) (by decide)).trans (rd_resetCounted_ctl p s)
    have hcause := partResetStart_bound p 1 none hnot (by decide)
    refine ⟨_, congrArg (done s) hrun, ?_⟩
    generalize partResetStart p 1 none s = u at *
    exact ⟨h.running, h.ctxs, hctl, hcause, h.binds⟩
  · obtain ⟨⟨⟨hup, hfr⟩, -⟩, hwarm⟩ : ((linkUp s lead = true ∧ frozen s = false) ∧ rd s (.phy lead) F.BLK_CTL_RUN ≠ 2) ∧
        s.rst.warmAt = none := by simpa [canReceive, hrole] using hrcv
    have hrun : dueThen (hotReset lead) s = partResetStart (hpartOf s lead) 2 none s := by
      rw [dueThen_of_noneDue _ hdue, hotReset, if_pos ⟨hrole, hup, by simp [hfr], hwarm⟩]
    obtain ⟨h, -⟩ := partResetStart_begun 2 none hnot
    have hcause := partResetStart_bound (hpartOf s lead) 2 none hnot (by decide)
    refine ⟨_, congrArg (done s) hrun, ?_⟩
    generalize partResetStart (hpartOf s lead) 2 none s = u at *
    exact ⟨h.running, hcause, h.binds⟩
  · have hdone : resetDone s p = true := by
      have hd : s.wab.drains.any (fun d => d.part == p && decide (d.why = .reset)) = false :=
        List.any_eq_false.2 fun d hd => by simp [hdrains d hd]
      have hl : s.home.loq.any (fun e => e.part == p) = false := List.any_eq_false.2 fun e he => by simpa using hloq e he
      simp [resetDone, hd, hl, hsnoops]
    have hrun := dueThen_unfrozen (partResetDone p) hdue hfr
    have h := partResetDone_over hreset hdone hinto hst
    refine ⟨_, congrArg (done s) hrun, ?_⟩
    generalize partResetDone p s = u at *
    exact ⟨h.ended, h.marked, h.ctl, h.commit, h.st, h.fseq, h.binds, h.fenced⟩

end Sys2Proof.Machine
end

section
/-! SUPPORT. Doorbells, starts and the loss of an endpoint (11 R206-R217). -/
namespace Sys2Proof.Machine
variable {s t u : State}

theorem MqStill.of_steady (h : t.mq.steady = s.mq.steady) : MqStill s t := by
  have hpart {α : Type} (f : Mq → α) : f t.mq.steady = f s.mq.steady := congrArg f h
  exact ⟨hpart Mq.flying, hpart Mq.rr, hpart Mq.lost, hpart Mq.mgmtUp, hpart Mq.dumpBuf, hpart Mq.due, hpart Mq.ordWait, hpart Mq.parked,
    hpart Mq.cache, hpart Mq.gens, hpart Mq.msixTab⟩

/-! ### Doorbells -/

theorem mq_base_ne (ep q : Nat) : (Page.evq 128).base ≠ (Page.mq ep q).base := by
  have hevq : (Page.evq 128).base = 0xC000 := rfl
  have hmq : (Page.mq ep q).base = 0x00100000 + (64 * ep + q) * 0x1000 := rfl
  rw [hevq, hmq]
  omega

theorem whenRun_of_run {ep q : Nat} (f : State → State) (h : qRun s ep q = true) : whenRun ep q f s = f s := if_pos h

theorem whenRun_of_stopped {ep q : Nat} (f : State → State) (h : qRun s ep q = false) :
    whenRun ep q f s = wr (.mq ep q) F.MQ_Q_STS_DB_ERR 1 s := if_neg (by simp [h])

/-- A doorbell that is ignored is announced, and the queue is as before. -/
theorem dbErr_kept (ep q : Nat) (s : State) : rd (dbErr ep q s) (.mq ep q) F.MQ_Q_STS_DB_ERR = 1 ∧
    rd (dbErr ep q s) (.mq ep q) F.MQ_Q_SQ_TAIL = rd s (.mq ep q) F.MQ_Q_SQ_TAIL ∧ MqStill s (dbErr ep q s) := by
  have hpost {f : Fld} (hf : f.off * 8 + f.lo < 0x8000) :
      rd (dbErr ep q s) (.mq ep q) f = rd (wr (.mq ep q) F.MQ_Q_STS_DB_ERR 1 s) (.mq ep q) f :=
    rd_post _ 128 0x0D _ (mq_base_ne ep q) hf
  exact ⟨(hpost (by decide)).trans (rd_wr_of_lt (f := F.MQ_Q_STS_DB_ERR) s (by decide)),
    (hpost (by decide)).trans (rd_wr_place 1 s (by decide)), (MqStill.wr ..).trans (.post ..)⟩

/-- The bits of a tail of a ring of up to 4,096 entries. -/
theorem ring_lt {n v : Nat} (hlog : n ≤ 12) (h : v < 2 * 2 ^ n) : v < 2 ^ 13 := by
  have : 2 ^ n ≤ 2 ^ 12 := Nat.pow_le_pow_right (by decide) hlog
  omega

/-! ### Room in a completion ring -/

/-- A completion that goes out on its ring, before its vector. -/
def cqSaid (c : Cpl) (s : State) : State :=
  let ep := c.ctx.ep
  let q := c.ctx.q
  let pg := Page.mq ep q
  let n := cqN s ep q
  let i := rd s pg F.MQ_Q_CQ_TAIL
  let ph := decide (i < n)
  let h := rd s pg F.MQ_Q_SQ_HEAD
  s |> State.say (.cpl ep q i ph h c (cplAddr s ep q i) (c.image ph h))
    |> wr pg F.MQ_Q_CQ_TAIL ((i + 1) % (2 * n)) |> wr pg F.MQ_QSEQ_CPL_LAST c.ctx.seq

theorem rd_cqSaid (c : Cpl) (pg : Page) {f : Fld} (hf : f.off * 8 + f.lo < 0x8000)
    (h1 : F.MQ_Q_CQ_TAIL.off * 8 + F.MQ_Q_CQ_TAIL.lo ≠ f.off * 8 + f.lo)
    (h2 : F.MQ_QSEQ_CPL_LAST.off * 8 + F.MQ_QSEQ_CPL_LAST.lo ≠ f.off * 8 + f.lo) : rd (cqSaid c s) pg f = rd s pg f := by
  unfold cqSaid
  dsimp only
  rw [rd_wr_place _ _ ⟨by decide, hf, h2⟩, rd_wr_place _ _ ⟨by decide, hf, h1⟩]
  rfl

theorem cqPut_eq (c : Cpl) (s : State) : cqPut c s =
    (cqSaid c s).when (rdb (cqSaid c s) (.mq c.ctx.ep c.ctx.q) F.MQ_Q_VEC_INT_EN)
      (raiseVec c.ctx.ep (rd (cqSaid c s) (.mq c.ctx.ep c.ctx.q) F.MQ_Q_VEC_VEC)) := rfl

/-- A completion that is put on its ring leaves what its queues hold. -/
theorem heldOf_cqPut (c : Cpl) (ep q : Nat) (s : State) : heldOf (cqPut c s) ep q = heldOf s ep q := by
  rw [cqPut_eq]
  exact when_keeps (fun u => heldOf u ep q) (fun u => raiseVec_heldOf (s := u) ..) _ _

theorem rd_cqPut_head (c : Cpl) (s : State) (pg : Page) : rd (cqPut c s) pg F.MQ_Q_CQ_HEAD = rd s pg F.MQ_Q_CQ_HEAD := by
  rw [cqPut_eq]
  exact (when_keeps (fun u => rd u pg F.MQ_Q_CQ_HEAD) (fun u => rd_raiseVec (s := u) ..) _ _).trans
    (rd_cqSaid c pg (by decide) (by decide) (by decide))

/-- A completion for which no error is announced is put on its ring. -/
theorem cqWrite_of_good {c : Cpl} {l : List Cpl} (h : tget none s.mq.cplErr (qkey c.ctx.ep c.ctx.q) = none) :
    ∃ e, cqWrite c l s = cqPut c (setHeld c.ctx.ep c.ctx.q l { s with mq := { s.mq with cplErr := e } }) := by
  unfold cqWrite
  dsimp only
  rw [h, if_neg nofun]
  exact ⟨_, rfl⟩

/-- Room in the ring of a queue that holds one completion lets it out. -/
theorem cqRoom_lone {ep q : Nat} {x : Cpl} (hheld : heldOf s ep q = [x])
    (hdma : rdb s (.mq ep q) F.MQ_Q_STS_DMA_ERR = false) (hroom : cqFull s ep q = false) :
    cqRoom ep q s = wr (.mq ep q) F.MQ_Q_STS_CQ_PAUSED 0 (cqWrite x [] s) := by
  have hlen : (heldOf s ep q).length = 1 := by rw [hheld, List.length_singleton]
  unfold cqRoom
  rw [if_neg (by simp [hdma]), hlen]
  unfold cqDrain
  rw [hheld]
  simp only [hroom, hdma, Bool.or_false, Bool.false_eq_true, if_false]
  rfl

/-- What room does for a queue that holds one completion. -/
theorem cqRoom_told {x : Cpl} (hheld : heldOf s x.ctx.ep x.ctx.q = [x]) (hdma : rdb s (.mq x.ctx.ep x.ctx.q) F.MQ_Q_STS_DMA_ERR = false)
    (herr : tget none s.mq.cplErr (qkey x.ctx.ep x.ctx.q) = none) (hroom : cqFull s x.ctx.ep x.ctx.q = false) :
    rd (cqRoom x.ctx.ep x.ctx.q s) (.mq x.ctx.ep x.ctx.q) F.MQ_Q_CQ_HEAD = rd s (.mq x.ctx.ep x.ctx.q) F.MQ_Q_CQ_HEAD ∧
      heldOf (cqRoom x.ctx.ep x.ctx.q s) x.ctx.ep x.ctx.q = [] ∧
      rd (cqRoom x.ctx.ep x.ctx.q s) (.mq x.ctx.ep x.ctx.q) F.MQ_Q_STS_CQ_PAUSED = 0 ∧
      ∃ i ph hd addr image, .cpl x.ctx.ep x.ctx.q i ph hd x addr image ∈ (cqRoom x.ctx.ep x.ctx.q s).out.drop s.out.length := by
  obtain ⟨e, hw⟩ := cqWrite_of_good (l := []) herr
  rw [cqRoom_lone hheld hdma hroom, hw]
  generalize hu : setHeld x.ctx.ep x.ctx.q [] { s with mq := { s.mq with cplErr := e } } = u
  have hempty : heldOf u x.ctx.ep x.ctx.q = [] := hu ▸ tget_tput_same [] [] s.mq.heldCpl _
  have hrd (f : Fld) : rd u (.mq x.ctx.ep x.ctx.q) f = rd s (.mq x.ctx.ep x.ctx.q) f := hu ▸ rfl
  have hout : u.out = s.out := hu ▸ rfl
  refine ⟨?_, (heldOf_cqPut ..).trans hempty, rd_wr_of_lt (f := F.MQ_Q_STS_CQ_PAUSED) _ (by decide), ?_⟩
  · rw [rd_wr_place _ _ (by decide), rd_cqPut_head, hrd]
  · obtain ⟨i, ph, hd, addr, image, l, hl⟩ := cqPut_out_begins u x
    refine ⟨i, ph, hd, addr, image, ?_⟩
    change _ ∈ (cqPut x u).out.drop _
    rw [← hl, hout, List.append_assoc, List.drop_left]
    simp

/-- The ring has room once its head moves on to an entry that has been written. -/
theorem ring_room {n v h t : Nat} (hv : v < 2 * n) (hh : h < 2 * n) (ht : t < 2 * n) (hne : v ≠ h)
    (hle : (v + 2 * n - h) % (2 * n) ≤ (t + 2 * n - h) % (2 * n)) (hfull : (t + 2 * n - h) % (2 * n) ≤ n) :
    (t + 2 * n - v) % (2 * n) < n := by
  have hmod {a b : Nat} (ha : a < 2 * n) (hb : b < 2 * n) :
      (a + 2 * n - b) % (2 * n) = if b ≤ a then a - b else a + 2 * n - b := by
    split
    · rw [show a + 2 * n - b = a - b + 2 * n by omega, Nat.add_mod_right, Nat.mod_eq_of_lt (by omega)]
    · exact Nat.mod_eq_of_lt (by omega)
  rw [hmod hv hh, hmod ht hh] at hle
  rw [hmod ht hh] at hfull
  rw [hmod ht hv]
  split_ifs at * <;> omega

/-! ### The pages of an endpoint -/

/-- A table without some of its keys. -/
theorem tget_filter_key {α : Type} (d : α) (m : Tbl α) (p : Nat → Bool) (i : Nat) :
    tget d (m.filter fun e => p e.1) i = if p i then tget d m i else d := by
  induction m with
  | nil => simp [tget]
  | cons e m ih =>
    by_cases hi : e.1 = i
    · subst hi
      cases hp : p e.1
      · simpa [hp] using ih
      · simp [hp, tget_cons]
    · cases hp : p e.1
      · simpa [hp, tget_cons, hi] using ih
      · simpa [hp, tget_cons, hi] using ih

/-- A page that is of a queue of an endpoint. -/
def ofEndpoint (ep : Nat) (pg : Page) : Bool :=
  decide (0x100 + 64 * ep ≤ pg.base / 0x1000) && decide (pg.base / 0x1000 < 0x100 + 64 * (ep + 1))

theorem ofEndpoint_mq (ep e q : Nat) : ofEndpoint ep (.mq e q) = (decide (64 * ep ≤ 64 * e + q) && decide (64 * e + q < 64 * (ep + 1))) := by
  have hbase : (Page.mq e q).base / 0x1000 = 0x100 + (64 * e + q) := by
    have : (Page.mq e q).base = 0x00100000 + (64 * e + q) * 0x1000 := rfl
    omega
  rw [ofEndpoint, hbase]
  congr 1 <;> simp only [decide_eq_decide] <;> omega

/-- The pages of the queues of an endpoint are as after a reset, and no other page changes. -/
theorem rd_resetQueuePages (ep : Nat) (pg : Page) {f : Fld} (hf : f.off * 8 + f.lo < 0x8000) :
    rd (resetQueuePages ep s) pg f = if ofEndpoint ep pg then resetVal pg f else rd s pg f := by
  have hkey : fkey pg f / 8 / 0x1000 = pg.base / 0x1000 := by
    have := base_mod pg
    unfold fkey
    omega
  refine (tget_filter_key (resetVal pg f) s.regs (fun k => !(decide (0x100 + 64 * ep ≤ k / 8 / 0x1000) &&
    decide (k / 8 / 0x1000 < 0x100 + 64 * (ep + 1)))) (fkey pg f)).trans ?_
  rw [hkey, ← ofEndpoint]
  cases ofEndpoint ep pg <;> rfl

theorem rd_resetEndpoint (ep : Nat) (pg : Page) {f : Fld} (hf : f.off * 8 + f.lo < 0x8000) :
    rd (resetEndpoint ep s) pg f = if ofEndpoint ep pg then resetVal pg f else rd s pg f :=
  rd_resetQueuePages (s := setMq _ s) ep pg hf

/-- The fields of a queue's page stand in its first registers. -/
theorem mq_fields_low (e q : Nat) : ∀ f ∈ (Page.mq e q).fields, f.off * 8 + f.lo < 0x8000 := by
  change ∀ f ∈ fieldsHdr ++ fieldsMq, _
  decide

/-- Commands of an endpoint that is reset report to no queue of it. -/
theorem orphans_resetEndpoint (ep : Nat) (s : State) : ∀ f ∈ (resetEndpoint ep s).mq.flying, f.ctx.ep = ep → f.orphan = true := by
  intro f hf hep
  obtain ⟨g, -, rfl⟩ := List.mem_map.1 hf
  by_cases hg : g.ctx.ep = ep
  · rw [if_pos hg]
  · rw [if_neg hg] at hep
    exact absurd hep hg

/-! ### The steps -/

/-- A queue that starts has empty rings. -/
theorem queueRunWrite_starts {ep q v : Nat} (hrun : rd s (.mq ep q) F.BLK_CTL_RUN = 2) (hv : F.BLK_CTL_RUN.of v = 0)
    (hvalid : queueValid s ep q = true) : queueRunWrite ep ep q v 0xFFFFFFFF s =
      (s |> wr (.mq ep q) F.BLK_CTL_RUN 0 |> wr (.mq ep q) F.MQ_Q_SQ_HEAD 0 |> wr (.mq ep q) F.MQ_Q_SQ_TAIL 0
        |> wr (.mq ep q) F.MQ_Q_CQ_HEAD 0 |> wr (.mq ep q) F.MQ_Q_CQ_TAIL 0) := by
  have hmerge : F.BLK_CTL_RUN.merge (rd s (.mq ep q) F.BLK_CTL_RUN) v 0xFFFFFFFF = 0 := by
    rw [Fld.merge, hv, hrun]
    decide
  have hnot : qRun s ep q = false := by rw [qRun, hrun]; rfl
  unfold queueRunWrite
  rw [if_neg (by simp [ownsQueue]), if_neg (by decide)]
  dsimp only
  rw [hmerge, if_neg (by simp), if_neg (by simp [hnot]), if_neg (by simp [hvalid])]

/-- The rings of a queue that has started are empty. -/
theorem queueStarted_rings (ep q : Nat) (s : State) :
    let t := s |> wr (.mq ep q) F.BLK_CTL_RUN 0 |> wr (.mq ep q) F.MQ_Q_SQ_HEAD 0 |> wr (.mq ep q) F.MQ_Q_SQ_TAIL 0
      |> wr (.mq ep q) F.MQ_Q_CQ_HEAD 0 |> wr (.mq ep q) F.MQ_Q_CQ_TAIL 0
    rd t (.mq ep q) F.BLK_CTL_RUN = 0 ∧ rd t (.mq ep q) F.MQ_Q_SQ_HEAD = 0 ∧ rd t (.mq ep q) F.MQ_Q_SQ_TAIL = 0 ∧
      rd t (.mq ep q) F.MQ_Q_CQ_HEAD = 0 ∧ rd t (.mq ep q) F.MQ_Q_CQ_TAIL = 0 := by
  have hother {f g : Fld} (u : State)
      (h : f.off * 8 + f.lo < 0x8000 ∧ g.off * 8 + g.lo < 0x8000 ∧ f.off * 8 + f.lo ≠ g.off * 8 + g.lo) :
      rd (wr (.mq ep q) f 0 u) (.mq ep q) g = rd u (.mq ep q) g := rd_wr_place 0 u h
  have hsame (f : Fld) (u : State) : rd (wr (.mq ep q) f 0 u) (.mq ep q) f = 0 := rd_wr_of_lt u (Nat.two_pow_pos _)
  dsimp only
  refine ⟨?_, ?_, ?_, ?_, hsame ..⟩
  · rw [hother _ (by decide), hother _ (by decide), hother _ (by decide), hother _ (by decide), hsame]
  · rw [hother _ (by decide), hother _ (by decide), hother _ (by decide), hsame]
  · rw [hother _ (by decide), hother _ (by decide), hsame]
  · rw [hother _ (by decide), hsame]

/-- The loss of an endpoint's link. -/
theorem mgmtLinkLoss_of_new {ep : Nat} (h : ep ∉ s.mq.lost) : ∃ u, u.mq = (resetEndpoint ep
    (setMq { s.mq with mgmtUp := s.mq.mgmtUp.filter (· != ep), lost := s.mq.lost ++ [ep] } s)).mq ∧
      mgmtLinkLoss ep s = raise (5 + ep) none none u := by
  refine ⟨_, rfl, ?_⟩
  unfold mgmtLinkLoss
  dsimp only
  rw [if_neg (by simpa using h)]

/-- Settles O38: a doorbell that the rule takes writes its own field, another is announced; a queue that starts writes its pointers alone;
an endpoint that is reset drops its pages and names by their numbers. -/
theorem queuesAndDoorbells : Obligations.QueuesAndDoorbells := by
  refine ⟨fun s ep q v n hrun hlog hn hv h1 h2 => ?_, fun s ep q v hrun hbad => ?_, fun s ep q v hstop => ?_,
    fun s ep q v n x hrun hlog hn hv hheld hctx hdma herr hne hh ht hle hfull => ?_, fun s ep q hrun => ?_,
    fun s ep q v htakes hrun hv h1 h2 h3 h4 => ?_, fun s ep q v htakes hep => ?_, fun s ep hep => ?_, fun s ep hep hlost => ?_,
    fun s ep hup href hmg => ?_⟩
  · subst hn
    have hok : sqTailOk s ep q v = true := by simp [sqTailOk, ringDiff, hv, h1, h2]
    have hst : sqTailDoorbell ep q v s = wr (.mq ep q) F.MQ_Q_SQ_TAIL v s := by
      rw [sqTailDoorbell, whenRun_of_run _ hrun, if_pos hok]
    refine ⟨_, congrArg (done s) hst, ?_, rfl, rfl⟩
    rw [rd_settled]
    exact rd_wr_of_lt (f := F.MQ_Q_SQ_TAIL) s (ring_lt hlog hv)
  · have hok : sqTailOk s ep q v = false := by
      rcases hbad with h | h
      · simp [sqTailOk, Nat.not_lt.2 h]
      · simp [sqTailOk, ringDiff, Nat.not_le.2 h]
    have hst : sqTailDoorbell ep q v s = dbErr ep q s := by
      rw [sqTailDoorbell, whenRun_of_run _ hrun, if_neg (by simp [hok])]
    obtain ⟨herr, htail, hmq⟩ := dbErr_kept ep q s
    exact ⟨_, congrArg (done s) hst, herr, htail, hmq.flying⟩
  · refine ⟨_, congrArg (done s) (whenRun_of_stopped _ hstop), ?_, ?_, rfl⟩
    · rw [rd_settled]
      exact rd_wr_of_lt (f := F.MQ_Q_STS_DB_ERR) s (by decide)
    · rw [rd_settled]
      exact rd_wr_place 1 s (by decide)
  · obtain ⟨rfl, rfl⟩ := Prod.mk.inj hctx
    subst hn
    have hok : cqHeadOk s x.ctx.ep x.ctx.q v = true := by simp [cqHeadOk, ringDiff, hv, hle]
    have hst : cqHeadDoorbell x.ctx.ep x.ctx.q v s = cqRoom x.ctx.ep x.ctx.q (wr (.mq x.ctx.ep x.ctx.q) F.MQ_Q_CQ_HEAD v s) := by
      rw [cqHeadDoorbell, whenRun_of_run _ hrun]
      rw [if_neg (by simp [hok]), if_neg hne]
    have hhead : rd (wr (.mq x.ctx.ep x.ctx.q) F.MQ_Q_CQ_HEAD v s) (.mq x.ctx.ep x.ctx.q) F.MQ_Q_CQ_HEAD = v :=
      rd_wr_of_lt (f := F.MQ_Q_CQ_HEAD) s (ring_lt hlog hv)
    have hroom : cqFull (wr (.mq x.ctx.ep x.ctx.q) F.MQ_Q_CQ_HEAD v s) x.ctx.ep x.ctx.q = false := by
      have hn : cqN (wr (.mq x.ctx.ep x.ctx.q) F.MQ_Q_CQ_HEAD v s) x.ctx.ep x.ctx.q = cqN s x.ctx.ep x.ctx.q :=
        congrArg (2 ^ ·) (rd_wr_place v s (by decide))
      have htail : rd (wr (.mq x.ctx.ep x.ctx.q) F.MQ_Q_CQ_HEAD v s) (.mq x.ctx.ep x.ctx.q) F.MQ_Q_CQ_TAIL =
          rd s (.mq x.ctx.ep x.ctx.q) F.MQ_Q_CQ_TAIL := rd_wr_place v s (by decide)
      rw [cqFull, hhead, hn, htail]
      simpa [ringDiff] using ring_room hv hh ht hne hle hfull
    have hheld' : heldOf (wr (.mq x.ctx.ep x.ctx.q) F.MQ_Q_CQ_HEAD v s) x.ctx.ep x.ctx.q = [x] := hheld
    obtain ⟨h1, h2, h3, h4⟩ := cqRoom_told hheld'
      ((congrArg (· != 0) (rd_wr_place v s (by decide))).trans hdma) herr hroom
    refine ⟨_, congrArg (done s) hst, ?_⟩
    generalize cqRoom x.ctx.ep x.ctx.q _ = w at *
    exact ⟨h1.trans hhead, h2, h3, h4⟩
  · refine ⟨_, congrArg (done s) (whenRun_of_run _ hrun), ?_, ?_, rfl, rfl, rfl⟩
    · change (ep, q) ∉ s.mq.ordWait.filter (· != (ep, q))
      simp
    · exact tget_tput_same [] [] s.mq.cache (qkey ep q)
  · have hvalid : queueValid s ep q = true := by simp [queueValid, *]
    refine ⟨_, congrArg (done s) ((regGate_of_takes _ htakes).trans (queueRunWrite_starts hrun hv hvalid)), ?_⟩
    simp only [rd_settled]
    obtain ⟨h0, hsh, hst, hch, hct⟩ := queueStarted_rings ep q s
    exact ⟨h0, hsh, hst, hch, hct, rfl⟩
  · have hst : regGate (.mq ep q) (queueRunWrite (1 - ep) ep q v.toNat 0xFFFFFFFF) s = reject (.mq ep q) s := by
      rw [regGate_of_takes _ htakes, queueRunWrite, if_pos]
      have : 1 - ep ≠ ep := by omega
      have : 1 - ep ≠ 2 := by omega
      simp [ownsQueue, *]
    refine ⟨_, congrArg (done s) hst, ?_, ?_, rfl⟩
    · rw [rd_settled]
      exact rd_reject (s := s) _
    · rw [rd_settled]
      exact (rd_bumpBy_off (f := F.BLK_STS_CFG_REJECT_CNT) 1 (wr (.mq ep q) F.BLK_STS_CFG_REJECT 1 s) (by decide) (by decide)
        (by decide)).trans (rd_wr_place 1 s (by decide))
  · refine ⟨_, rfl, fun q hq => ?_, orphans_resetEndpoint ep s, fun x hx => ?_, fun q hq f hf => ?_, rfl, rfl⟩
    · rw [rd_settled, rd_resetEndpoint ep _ (by decide), ofEndpoint_mq, if_pos (by simp; omega)]
      rfl
    · simpa using (List.mem_filter.1 hx).2
    · rw [rd_settled, rd_resetEndpoint ep _ (mq_fields_low _ _ f hf), ofEndpoint_mq, if_neg (by simp; omega)]
  · obtain ⟨u, hu, hst⟩ := mgmtLinkLoss_of_new hlost
    have hstill := MqStill.of_steady (Aside.raise u (by omega : 5 + ep < 0x200)).mq
    refine ⟨_, congrArg (done s) hst, ?_⟩
    generalize raise (5 + ep) none none u = w at *
    refine ⟨?_, ?_, ?_⟩
    · change ep ∈ w.mq.lost
      rw [hstill.lost, hu]
      exact List.mem_append_right _ (List.mem_singleton_self _)
    · change ep ∉ w.mq.mgmtUp
      rw [hstill.mgmtUp, hu]
      change ep ∉ s.mq.mgmtUp.filter (· != ep)
      simp
    · change ∀ f ∈ w.mq.flying, _
      rw [hstill.flying, hu]
      exact orphans_resetEndpoint ep _
  · have hst : mgmtLinkUp ep s = setMq { s.mq with mgmtUp := s.mq.mgmtUp ++ [ep], lost := s.mq.lost.filter (· != ep) } s := by
      have hmay : mayTrainMgmt s = true := by
        obtain ⟨h1, h2⟩ : s.mode ≠ .off ∧ s.mode ≠ .precharge := by
          constructor <;> intro h <;> rw [h] at hup <;> exact absurd hup nofun
        simp [mayTrainMgmt, h1, h2, href]
      rw [mgmtLinkUp, if_neg (by simp [hmay, mgUp, hmg])]
    refine ⟨_, congrArg (done s) hst, List.mem_append_right _ (List.mem_singleton_self _), ?_, rfl⟩
    change ep ∉ s.mq.lost.filter (· != ep)
    simp

end Sys2Proof.Machine
end

section
/-! SUPPORT. A state that shows what O39 leaves open: a register that holds more than its field. -/
namespace Sys2Proof.Machine

/-- RESULT0 of the completions that went out. -/
def Ans.results : Ans → List Nat
  | .next t => t.out.filterMap fun o => match o with | .cpl _ _ _ _ _ c _ _ => some c.r0 | _ => none
  | _ => []

/-- A REG_READ of endpoint 0's queue 0. -/
def readCtx : Ctx := ⟨0, 0, 0, 0, 0⟩

/-- A module in STANDBY with a REG_READ in flight, whose state holds 2^20 for PART_CFG.QTMO of partition 0, a field of 20 bits. -/
def wideTimeout : State :=
  let s := State.reset
  { s with
    mode := .standby, regs := [(fkey (.part 0) F.PART_CFG_QTMO, 0x100000)], ftm := { s.ftm with slotDone := 0, epochDone := 0 }
    flt := { s.flt with cores := [(0, ⟨true, 0⟩)] }, mq := { s.mq with flying := [⟨readCtx, 5, false, false⟩] } }

/-- The register is read through its field, of which nothing is left. -/
theorem results_regRead_wideTimeout : Ans.results (exec (.regRead readCtx ⟨(Page.part 0).base + 0x44, false⟩) wideTimeout) = [0] := by
  decide

theorem results_of_completed {s t : State} {c : Ctx} {op st r0 r1 : Nat} (h : Completed s t c op st r0 r1) : r0 ∈ Ans.results (.next t) := by
  obtain ⟨i, ph, hd, time, addr, image, h⟩ := h
  exact List.mem_filterMap.2 ⟨_, List.mem_of_mem_drop h, rfl⟩

/-- Refutes O39: a state may hold for a register more than its field has room for; a read returns the field's bits, where the clause on
REG_READ has the whole value returned. -/
theorem not_queueCommands : ¬ Obligations.QueueCommands := by
  rintro ⟨-, -, -, -, -, -, -, -, hread, -⟩
  obtain ⟨t, ht, hdone, -⟩ := hread wideTimeout readCtx 0 (by decide) (by decide) (by decide) (by decide) (by decide)
  have hres := results_of_completed hdone
  rw [← ht, results_regRead_wideTimeout] at hres
  exact absurd hres (by decide)

end Sys2Proof.Machine
end

section
/-! SUPPORT. A state that shows what O40 leaves open: a number of events that is more than its register holds. -/
namespace Sys2Proof.Machine

/-- How many events queue 0 holds. -/
def Ans.held : Ans → Nat
  | .next t => (evList t 0).length
  | _ => 0

/-- An event of queue 0. -/
def oldEvent : Event := ⟨0, 0, 0, false, 0, []⟩

/-- A module with a full event queue of one entry, whose state holds 2^34 for NEXT_SEQ, a field of 32 bits. -/
def wideSeq : State :=
  let s := State.reset
  { s with
    regs := [(fkey (.evq 0) F.MQ_EVQ_CFG_CAP, 1), (fkey (.evq 0) F.MQ_EVQ_NEXT_SEQ, 0x400000000)]
    mq := { s.mq with evqs := [(0, [oldEvent])] } }

/-- The post that met the full queue counts as none of this tick, and the consume frees it with the other. -/
theorem held_consume_wideSeq : Ans.held (exec (.evqConsumeDoorbell ⟨0, 0⟩ (0x400000000 + 2 ^ 32 - 1)) (post 0 1 [] wideSeq)) = 0 := by decide

/-- Refutes O40: a state may hold for NEXT_SEQ more than its field has room for; the posts of a tick are then counted as none, and the
consume that the clause on a full queue is about frees the new event too. -/
theorem not_eventQueues : ¬ Obligations.EventQueues := by
  rintro ⟨-, -, hfull, -⟩
  obtain ⟨t, ht, hlist, -⟩ := hfull wideSeq 0 0 1 [] oldEvent [] (by decide) (by decide) (by decide) (by decide)
  have hheld := held_consume_wideSeq
  rw [show exec (.evqConsumeDoorbell ⟨0, 0⟩ (0x400000000 + 2 ^ 32 - 1)) (post 0 1 [] wideSeq) = .next t from ht, Ans.held, hlist] at hheld
  exact absurd hheld (by decide)

end Sys2Proof.Machine
end

section
/-! SUPPORT. A state that shows what O43 leaves open: a cold reset among the commands that waited for the new active core. -/
namespace Sys2Proof.Machine

/-- The live activation that is in progress. -/
def Ans.activates : Ans → Bool
  | .next t => t.flt.fw.isSome
  | _ => false

/-- A REG_WRITE of MOD_RESET: COLD, with its key. -/
def coldWrite : SqEntry :=
  ⟨6, false, false, false, 0, 0, [0x40, 0, 0, 0, 0, 0xC0, 0, 0x80, 0xFF, 0xFF, 0xFF, 0xFF]⟩

/-- A live activation whose standby core boots. -/
def bootingJob : FwJob := ⟨⟨0, 0, 0, 0, 0⟩, 3, 0, 0, ⟨1, 0, 0, 0⟩⟩

/-- A module in STANDBY in step 3 of a live activation, with a cold reset waiting for the new active core. -/
def parkedReset : State :=
  let s := State.reset |> wr (.mq 0 0) F.MQ_Q_CFG_SCOPE_MOD 1
  { s with
    mode := .standby
    flt := { s.flt with cores := [(0, ⟨true, 0⟩)], fw := some bootingJob }
    mq := { s.mq with flying := [⟨⟨0, 0, 0, 0, 0⟩, 6, false, false⟩], parked := [(⟨0, 0, 0, 0, 0⟩, coldWrite)] } }

/-- The new active core executes the cold reset, and no live activation is left. -/
theorem activates_fwStandbyReady_parkedReset : Ans.activates (exec .fwStandbyReady parkedReset) = false := by decide

/-- Refutes O43: the commands that waited for the new active core are executed in the step in which it takes over, and one of them can be a
cold reset, which leaves nothing of the live activation that the clause on FW_STANDBY_READY has go on. -/
theorem not_coresAndFirmware : ¬ Obligations.CoresAndFirmware := by
  rintro ⟨-, -, -, -, -, -, -, hready, -⟩
  obtain ⟨t, ht, -, hfw, -⟩ := hready parkedReset bootingJob (by decide) (by decide) (by decide) (by decide) (by decide)
  have hnone := activates_fwStandbyReady_parkedReset
  rw [ht, Ans.activates, hfw] at hnone
  exact absurd hnone (by decide)

end Sys2Proof.Machine
end

section
/-! SUPPORT. What the struck counter of O54 shows of O44. -/
namespace Sys2Proof.Machine

/-- The read of a counter that was struck raises its source, whose event raises the vector. -/
theorem outCount_ctrLoRead_struckCounter :
    Ans.outCount (exec (.ctrLoRead ((Page.cnp 0).base / 0x1000) 0 false) struckCounter) = 2 := by decide

/-- Refutes O44: a counter that was struck is found so by its read, and the event of its fault source raises a vector, which goes out
beside the data; the clause on the read of a low half has the data go out alone. -/
theorem not_telemetry : ¬ Obligations.Telemetry := by
  rintro ⟨-, hread, -⟩
  obtain ⟨t, ht, -, hout, -⟩ := hread struckCounter ((Page.cnp 0).base / 0x1000) 0 1024 (.cnp 0) (by decide) (by decide) (by decide)
    (by decide) (by decide)
  have hcount := outCount_ctrLoRead_struckCounter
  rw [ht, Ans.outCount, hout] at hcount
  exact absurd hcount (by decide)

end Sys2Proof.Machine
end

section
/-! SUPPORT. The collector: what an assertion of a module or tile source against no partition does (12 R229-R236), and writes to the registers
of sources (12 R241, 17 R326, R329). -/
namespace Sys2Proof.Machine
variable {s t u : State}

/-! ### Events -/

/-- A queue that gets room for one more keeps its newest events. -/
theorem evList_evOverwrite (q n : Nat) (s : State) : evList (evOverwrite q n s) q = (evList s q).drop ((evList s q).length - n) := by
  have hover (o : Option EvOver) : evList (setOver q o s) q = evList s q := rfl
  unfold evOverwrite
  dsimp only
  split
  next h => rw [Nat.sub_eq_zero_of_le h, List.drop_zero]
  next h =>
    unfold evTrim
    dsimp only
    rw [hover, if_neg h]
    exact tget_tput_same ..

/-- A post adds its event last. -/
theorem evList_post (q typ : Nat) (pay : List (Nat × Nat)) (s : State) : evList (post q typ pay s) q =
    (evList s q).drop ((evList s q).length - (rd s (.evq q) F.MQ_EVQ_CFG_CAP - 1)) ++
      [⟨rd s (.evq q) F.MQ_EVQ_NEXT_SEQ, typ, q, false, s.time, pay⟩] := by
  have hput (u : State) (l : List Event) (k : Nat) : evList (wr (.evq q) F.MQ_EVQ_NEXT_SEQ k (setEv q l u)) q = l := tget_tput_same ..
  unfold post postC
  dsimp only
  split
  · refine (when_keeps (fun u => evList u q) (fun u => evInterrupt_evList (s := u) ..) _ _).trans ?_
    exact (hput _ _ (rd s (.evq q) F.MQ_EVQ_NEXT_SEQ + 1)).trans (by rw [evList_evOverwrite, evOverwrite_time])
  · exact (hput _ _ (rd s (.evq q) F.MQ_EVQ_NEXT_SEQ + 1)).trans (by rw [evList_evOverwrite, evOverwrite_time])

/-- A post leaves the size of its queue. -/
theorem rd_post_cap (q typ : Nat) (pay : List (Nat × Nat)) (s : State) :
    rd (post q typ pay s) (.evq q) F.MQ_EVQ_CFG_CAP = rd s (.evq q) F.MQ_EVQ_CFG_CAP := by
  have htrim (n : Nat) (u : State) : rd (evTrim q n u) (.evq q) F.MQ_EVQ_CFG_CAP = rd u (.evq q) F.MQ_EVQ_CFG_CAP := by
    unfold evTrim
    dsimp only
    split
    · rfl
    · exact rd_wr_place _ _ (by decide)
  have hover (n : Nat) : rd (evOverwrite q n s) (.evq q) F.MQ_EVQ_CFG_CAP = rd s (.evq q) F.MQ_EVQ_CFG_CAP := by
    unfold evOverwrite
    dsimp only
    split
    · rfl
    · exact htrim _ _
  unfold post postC
  dsimp only
  split
  · refine (when_keeps (fun u => rd u (.evq q) F.MQ_EVQ_CFG_CAP) (fun u => rd_evInterrupt (s := u) ..) _ _).trans ?_
    exact (rd_wr_place _ _ (by decide)).trans (hover _)
  · exact (rd_wr_place _ _ (by decide)).trans (hover _)

/-- An event that has just been posted outlasts one more post to a queue of two entries or more. -/
theorem mem_evList_post {q : Nat} (typ : Nat) (pay : List (Nat × Nat)) {l : List Event} {e : Event} (h : evList s q = l ++ [e])
    (hcap : 2 ≤ rd s (.evq q) F.MQ_EVQ_CFG_CAP) : e ∈ evList (post q typ pay s) q := by
  rw [evList_post, h, List.length_append, List.length_singleton, List.drop_append_of_le_length (by omega)]
  simp

/-! ### The records of the sources -/

theorem srcOf_setSrc_same (n : Nat) (x : SrcS) (s : State) : srcOf (setSrc n x s) n = x := tget_tput_same ..

theorem srcOf_setSrc_other {n m : Nat} (x : SrcS) (s : State) (h : m ≠ n) : srcOf (setSrc n x s) m = srcOf s m :=
  tget_tput_other _ _ _ _ h.symm

theorem srcOf_congr (h : t.flt.srcs = s.flt.srcs) (n : Nat) : srcOf t n = srcOf s n := by rw [srcOf, h, srcOf]

/-- The record of a source whose handling opens, with the link concerned. -/
def SrcS.openedAt (r : Nat) (link : Option Nat) (tick : Nat) (x : SrcS) : SrcS :=
  let ap := if r = React.partition ∨ (r = React.port ∧ link = none) then React.corrected else r
  { x with sticky := true, cnt := min (x.cnt + 1) 0xFFFFFFFF, asOpen := true, opens := x.opens ++ [⟨ap, link, none, tick⟩] }

/-- What an assertion is asked to find, to be heard while no FATAL handling runs. -/
structure Heard (n : Nat) (i : SrcInfo) (x : Page × Nat) (s : State) : Prop where
  module : n < 0x200
  info : srcInfo n = some i
  page : srcPage n = some x
  unmasked : srcMasked s n = false
  pair : (srcOf s n).pair ≠ 2
  up : s.mode.isUp = true
  calm : s.flt.fatal = none

theorem fresh_pair (n : Nat) (x : SrcS) : (x.fresh n).pair = x.pair := by
  unfold SrcS.fresh
  split <;> rfl

theorem fresh_cnt (n : Nat) (x : SrcS) : (x.fresh n).cnt = x.cnt := by
  unfold SrcS.fresh
  split <;> rfl

theorem fresh_opens (n : Nat) (x : SrcS) : (x.fresh n).opens = x.opens := by
  unfold SrcS.fresh
  split <;> rfl

theorem fresh_sticky (n : Nat) (x : SrcS) : (x.fresh n).sticky = x.sticky := by
  unfold SrcS.fresh
  split <;> rfl

/-- The domain that FAULT names for a source that is raised against no partition. -/
def faultDomain (r : Nat) (i : SrcInfo) : Nat := if r = React.fatal then 3 else if i.domain = 1 then 1 else 0

/-- Handling of a source opens, with the link concerned. -/
def openLinked (n r : Nat) (i : SrcInfo) (link : Option Nat) (s : State) : State :=
  let y := (srcOf s n).fresh s.tick
  let dom := faultDomain r i
  let who := if dom = 2 then 0 else if dom = 1 then (n - 0x200) / 4 else 0
  s |> setSrc n (y.openedAt r link s.tick)
    |> post 128 0x10 [(16, n), (18, r), (19, dom), (20, who), (22, 0), (24, min (y.cnt + 1) 0xFFFFFFFF)]

/-- The collector's way for an assertion that it hears. -/
theorem raise_of_heard {n : Nat} {i : SrcInfo} {x : Page × Nat} (h : Heard n i x s) (link : Option Nat) :
    raise n none link s =
      let r := reactOf s n
      let y := (srcOf s n).fresh s.tick
      if r != React.fatal && y.sticky then s |> setSrc n { y with merged := y.merged ++ [(none, link, 0)] } |> countMerge n
      else
        let u := openLinked n r i link s
        react r n none link (u.when (i.deg && r != React.fatal && decide (u.mode = .run)) (setMode .degraded)) := by
  obtain ⟨hn, hi, hp, hmask, hpair, hup, hcalm⟩ := h
  have hoff : (s.mode == .off) = false := beq_eq_false_iff_ne.2 fun e => by rw [e] at hup; exact absurd hup nofun
  have hpre : (s.mode == .precharge) = false := beq_eq_false_iff_ne.2 fun e => by rw [e] at hup; exact absurd hup nofun
  have hpair' : (((srcOf s n).fresh s.tick).pair == 2) = false := by rw [fresh_pair]; exact beq_eq_false_iff_ne.2 hpair
  unfold raise raiseAs openLinked SrcS.openedAt faultDomain
  rw [hi, hp]
  dsimp only
  rw [if_neg (by omega), ← SrcS.fresh]
  simp only [Option.isSome_none, Bool.and_false, Bool.false_eq_true, if_false, Bool.not_false, State.when, and_true, if_true,
    Nat.not_le.mpr hn, Option.getD_none, hmask, hoff, hpre, hcalm, hpair', Bool.or_self, ite_self]

theorem when_keeps' {β : Type} {φ : State → β} {f : State → State} (h : φ (f s) = φ s) (b : Bool) : φ (s.when b f) = φ s := by
  cases b
  · rfl
  · exact h

/-- What an event and a mode leave, a module that degrades leaves. -/
theorem degrade_keeps {β : Type} (φ : State → β) (hpost : ∀ l v, φ (post 128 0x11 l v) = φ v)
    (hmode : ∀ v : State, φ { v with mode := .degraded } = φ v) (b : Bool) (u : State) :
    φ (u.when (b && decide (u.mode = .run)) (setMode .degraded)) = φ u := by
  by_cases h : u.mode = .run
  · refine when_keeps' ?_ _
    rw [setMode_degraded_of_run h, hpost, hmode]
  · simp [h, State.when]

/-- What an event leaves, the opening of a handling leaves, but for the records of the sources. -/
theorem openLinked_keeps {β : Type} (φ : State → β) (hpost : ∀ l v, φ (post 128 0x10 l v) = φ v)
    (hset : ∀ n x v, φ (setSrc n x v) = φ v) (n r : Nat) (i : SrcInfo) (link : Option Nat) (s : State) :
    φ (openLinked n r i link s) = φ s := by
  unfold openLinked
  rw [hpost, hset]

theorem srcOf_openLinked_same (n r : Nat) (i : SrcInfo) (link : Option Nat) (s : State) :
    srcOf (openLinked n r i link s) n = ((srcOf s n).fresh s.tick).openedAt r link s.tick := by
  unfold openLinked
  exact (srcOf_congr (congrArg Flt.srcs (post_flt ..)) n).trans (srcOf_setSrc_same ..)

theorem srcOf_openLinked_other {n m : Nat} (r : Nat) (i : SrcInfo) (link : Option Nat) (s : State) (h : m ≠ n) :
    srcOf (openLinked n r i link s) m = srcOf s m := by
  unfold openLinked
  exact (srcOf_congr (congrArg Flt.srcs (post_flt ..)) m).trans (srcOf_setSrc_other _ _ h)

theorem react_none_of_counted {r : Nat} (n : Nat) (link : Option Nat) (u : State) (h : r = 0 ∨ r = 1) : react r n none link u = u := by
  rcases h with rfl | rfl <;> rfl

/-- An assertion of a source that is not sticky yet, and whose reaction is only to count, opens its handling. -/
theorem raise_counted {n : Nat} {i : SrcInfo} {x : Page × Nat} (h : Heard n i x s) (link : Option Nat) (hst : (srcOf s n).sticky = false)
    (hr : reactOf s n = 0 ∨ reactOf s n = 1) : ∃ b, raise n none link s =
      (openLinked n (reactOf s n) i link s).when (b && decide ((openLinked n (reactOf s n) i link s).mode = .run)) (setMode .degraded) := by
  refine ⟨i.deg && reactOf s n != React.fatal, ?_⟩
  rw [raise_of_heard h link]
  dsimp only
  rw [fresh_sticky, hst, Bool.and_false, if_neg nofun, react_none_of_counted _ _ _ hr]

/-- An assertion of a sticky source merges. -/
theorem raise_merged {n : Nat} {i : SrcInfo} {x : Page × Nat} (h : Heard n i x s) (link : Option Nat) (hst : (srcOf s n).sticky = true)
    (hr : reactOf s n = 0 ∨ reactOf s n = 1) : ∃ y, y.cnt = (srcOf s n).cnt ∧ raise n none link s = countMerge n (setSrc n y s) := by
  have hnot : (reactOf s n != React.fatal) = true := by rcases hr with hr | hr <;> rw [hr] <;> rfl
  refine ⟨{ (srcOf s n).fresh s.tick with merged := ((srcOf s n).fresh s.tick).merged ++ [(none, link, 0)] }, ?_, ?_⟩
  · exact fresh_cnt ..
  · rw [raise_of_heard h link]
    dsimp only
    rw [fresh_sticky, hst, hnot, if_pos (by decide)]

/-- An assertion of a source whose reaction is FATAL starts FATAL handling. -/
theorem raise_fatal {n : Nat} {i : SrcInfo} {x : Page × Nat} (h : Heard n i x s) (link : Option Nat) (hr : reactOf s n = 4) :
    raise n none link s = fatalStart n (openLinked n 4 i link s) := by
  rw [raise_of_heard h link, hr]
  dsimp only
  rw [show (4 != React.fatal) = false from rfl, Bool.false_and, if_neg nofun, Bool.and_false, Bool.false_and]
  rfl

/-- FAULT of a handling that opens is in the queue once the step is done. -/
theorem fault_posted {n : Nat} (r : Nat) (i : SrcInfo) (link : Option Nat) (b : Bool) (hcap : 2 ≤ rd s (.evq 128) F.MQ_EVQ_CFG_CAP) :
    ∃ e ∈ evList ((openLinked n r i link s).when (b && decide ((openLinked n r i link s).mode = .run)) (setMode .degraded)) 128,
      e.typ = 0x10 ∧ e.seq = rd s (.evq 128) F.MQ_EVQ_NEXT_SEQ ∧ (16, n) ∈ e.payload := by
  obtain ⟨l, e, hl, he⟩ : ∃ l e, evList (openLinked n r i link s) 128 = l ++ [e] ∧
      (e.typ = 0x10 ∧ e.seq = rd s (.evq 128) F.MQ_EVQ_NEXT_SEQ ∧ (16, n) ∈ e.payload) :=
    ⟨_, _, evList_post .., rfl, rfl, List.mem_cons_self⟩
  have hcap' : 2 ≤ rd (openLinked n r i link s) (.evq 128) F.MQ_EVQ_CFG_CAP := by
    rw [openLinked, rd_post_cap]
    exact hcap
  refine ⟨e, ?_, he⟩
  generalize openLinked n r i link s = u at *
  by_cases h : b = true ∧ u.mode = .run
  · rw [h.1, decide_eq_true h.2]
    change e ∈ evList (setMode .degraded u) 128
    rw [setMode_degraded_of_run h.2]
    exact mem_evList_post _ _ (s := { u with mode := .degraded }) hl hcap'
  · have hno : (b && decide (u.mode = .run)) = false := by
      cases b
      · rfl
      · exact decide_eq_false fun hrun => h ⟨rfl, hrun⟩
    rw [hno]
    change e ∈ evList u 128
    rw [hl]
    exact List.mem_append_right _ (List.mem_singleton_self e)

/-! ### Wires -/

theorem tget_map {α : Type} (d : α) (m : Tbl α) (g : α → α) (i : Nat) :
    tget d (m.map fun e => (e.1, g e.2)) i = tget d m i ∨ tget d (m.map fun e => (e.1, g e.2)) i = g (tget d m i) := by
  induction m with
  | nil => exact .inl rfl
  | cons e m ih =>
    rw [List.map_cons, tget_cons, tget_cons]
    split
    · exact .inr rfl
    · exact ih

/-- No step of the collector mends a pair or breaks one. -/
structure SamePairs (s t : State) : Prop where
  pair : ∀ m, (srcOf t m).pair = (srcOf s m).pair

namespace SamePairs

theorem trans (h : SamePairs s t) (g : SamePairs t u) : SamePairs s u := ⟨fun m => (g.pair m).trans (h.pair m)⟩

theorem of_srcs (h : t.flt.srcs = s.flt.srcs) : SamePairs s t := ⟨fun m => by rw [srcOf_congr h]⟩

theorem setSrc {n : Nat} {x : SrcS} (s : State) (h : x.pair = (srcOf s n).pair) : SamePairs s (setSrc n x s) := by
  refine ⟨fun m => ?_⟩
  by_cases hm : m = n
  · rw [hm, srcOf_setSrc_same, h]
  · rw [srcOf_setSrc_other _ _ hm]

theorem fatalStart (n : Nat) (s : State) : SamePairs s (fatalStart n s) := by
  refine ⟨fun m => ?_⟩
  have hsrc : srcOf (Machine.fatalStart n s) m = tget SrcS.reset
      (s.flt.srcs.map fun e => (e.1, { e.2 with opens := e.2.opens.filter Handling.stays })) m := by rw [srcOf, fatalStart_flt]
  rw [hsrc]
  rcases tget_map SrcS.reset s.flt.srcs (fun x => { x with opens := x.opens.filter Handling.stays }) m with h | h <;> rw [h]
  · rfl
  · rfl

theorem countMerge (n : Nat) (s : State) : SamePairs s (countMerge n s) := of_srcs (by rw [countMerge_flt])

theorem react (r n : Nat) (s : State) : SamePairs s (react r n none none s) := by
  unfold Machine.react
  split_ifs
  · exact of_srcs rfl
  · exact of_srcs rfl
  · exact fatalStart n s
  · exact of_srcs rfl

theorem openSource (n r : Nat) (i : SrcInfo) (wire : Nat) (s : State) : SamePairs s (openSource n r i wire s) := by
  have hset := setSrc (x := ((srcOf s n).fresh s.tick).opening r s.tick) s (fresh_pair ..)
  have hpost (l : List (Nat × Nat)) (v : State) : SamePairs v (post 128 0x10 l v) := of_srcs (congrArg Flt.srcs (post_flt ..))
  have hdegrade (b : Bool) (v : State) : SamePairs v (v.when (b && decide (v.mode = .run)) (setMode .degraded)) :=
    of_srcs (congrArg Flt.srcs (degrade_keeps (·.flt) (fun l v => post_flt (s := v) ..) (fun _ => rfl) b v))
  exact hset.trans ((hpost ..).trans ((hdegrade ..).trans (react ..)))

theorem raiseAs {n : Nat} (wire : Nat) (s : State) (hn : n < 0x200) : SamePairs s (raiseAs none n none none wire s) := by
  obtain h | ⟨i, -, h⟩ := raiseAs_cases none wire s hn
  · rw [h]
    exact of_srcs rfl
  · rw [h]
    unfold assertSource
    dsimp only
    split_ifs
    · exact of_srcs rfl
    · exact (setSrc s (by exact fresh_pair ..)).trans (countMerge ..)
    · exact (setSrc s (by exact fresh_pair ..)).trans (countMerge ..)
    · exact openSource ..

end SamePairs

theorem wireSource_lt {n : Nat} {i : SrcInfo} (h : srcInfo n = some i) : wireSource n < 0x200 := by
  have hn : n < 0xA00 := by
    by_contra hn
    rw [srcInfo, if_neg (by omega), if_neg (by omega), if_neg (by omega)] at h
    exact absurd h nofun
  unfold wireSource tileSrcNo
  split_ifs <;> omega

/-- A wire that breaks reads as such, whatever its die's WIRE source orders. -/
theorem pair_wireBroken {n : Nat} {i : SrcInfo} (hi : srcInfo n = some i) (hpair : (srcOf s n).pair ≠ 2) :
    (srcOf (wireBroken n s) n).pair = 2 := by
  unfold wireBroken
  rw [if_neg (by simp [hi, hpair])]
  refine ((SamePairs.raiseAs n (modSrc n _ s) (wireSource_lt hi)).pair n).trans ?_
  rw [modSrc, srcOf_setSrc_same]

/-! ### The registers of sources -/

/-- An offset of a page. -/
theorem pageAt_off {pg : Page} (hpg : pageAt (pg.base / 0x1000) = some pg) (hbase : pg.base % 0x1000 = 0) {k : Nat} (hk : k < 0x1000) :
    pageAt ((pg.base + k) / 0x1000) = some pg ∧ (pg.base + k) % 0x1000 = k := by
  have hdiv : (pg.base + k) / 0x1000 = pg.base / 0x1000 := by omega
  rw [hdiv]
  exact ⟨hpg, by omega⟩

/-- The bits of the sources of the pages (17 Table 17.11). -/
def srcBitSets : List (List Nat) :=
  [[0, 3, 4, 5, 6, 15], [1, 2], [7, 8, 9], [10, 11], [12, 13], [14], [0, 1, 2], [3, 4, 5, 6, 17, 18], [7, 8], [9, 10], [11, 12, 13],
    [14, 15, 16], [0], [1, 2, 3], []]

theorem srcBits_mem (pg : Page) : pg.srcBits ∈ srcBitSets := by
  cases pg <;> simp [Page.srcBits, srcBitSets]

/-- A write of one source's bit. -/
theorem srcBits_pick {pg : Page} {k : Nat} (h : k ∈ pg.srcBits) : k < 32 ∧
    pg.srcBits.filter (fun j => bit ((BitVec.ofNat 32 (2 ^ k)).toNat &&& allBits) j) = [k] ∧
    (BitVec.ofNat 32 (2 ^ k)).toNat &&& (pg.srcBits.map (2 ^ ·)).sum = 2 ^ k := by
  have hall : ∀ l ∈ srcBitSets, ∀ k ∈ l, k < 32 ∧ l.filter (fun j => bit ((BitVec.ofNat 32 (2 ^ k)).toNat &&& allBits) j) = [k] ∧
      (BitVec.ofNat 32 (2 ^ k)).toNat &&& (l.map (2 ^ ·)).sum = 2 ^ k := by decide
  exact hall _ (srcBits_mem pg) _ h

/-- The mask of a page takes a bit whose source does not have REACT FATAL. -/
theorem maskWrite_of_mild {pg : Page} {k : Nat} (h : k ∈ pg.srcBits) (hr : reactOf s (pg.srcNum k) ≠ 4) :
    maskWrite pg (BitVec.ofNat 32 (2 ^ k)).toNat allBits s = wr pg F.ERR_MASK_MASK (2 ^ k) s := by
  obtain ⟨hk, hpick, hown⟩ := srcBits_pick h
  have hany : (pg.srcBits.any fun j => bit ((BitVec.ofNat 32 (2 ^ k)).toNat &&& allBits) j && reactOf s (pg.srcNum j) == React.fatal) =
      false := by
    rw [List.any_eq_false]
    intro j hj
    by_cases hb : bit ((BitVec.ofNat 32 (2 ^ k)).toNat &&& allBits) j = true
    · have : j ∈ [k] := hpick ▸ List.mem_filter.2 ⟨hj, hb⟩
      rw [List.mem_singleton.1 this]
      simp [hr, React.fatal]
    · rw [Bool.eq_false_iff.2 hb, Bool.false_and]
      nofun
  have hof : F.ERR_MASK_MASK.of (BitVec.ofNat 32 (2 ^ k)).toNat = (BitVec.ofNat 32 (2 ^ k)).toNat := by
    have hlt := (BitVec.ofNat 32 (2 ^ k)).isLt
    generalize (BitVec.ofNat 32 (2 ^ k)).toNat = v at hlt
    change v / 2 ^ 0 % 2 ^ 32 = v
    rw [pow_zero, Nat.div_one, Nat.mod_eq_of_lt hlt]
  unfold maskWrite
  rw [hany, if_neg nofun, merge_allBits _ _ (by decide), hof, hown]

/-- The mask of a page discards a bit whose source has REACT FATAL. -/
theorem maskWrite_of_fatal {pg : Page} {k : Nat} (h : k ∈ pg.srcBits) (hr : reactOf s (pg.srcNum k) = 4) :
    maskWrite pg (BitVec.ofNat 32 (2 ^ k)).toNat allBits s = reject pg s := by
  obtain ⟨-, hpick, -⟩ := srcBits_pick h
  have hany : (pg.srcBits.any fun j => bit ((BitVec.ofNat 32 (2 ^ k)).toNat &&& allBits) j && reactOf s (pg.srcNum j) == React.fatal) =
      true := by
    have hb : k ∈ pg.srcBits.filter (fun j => bit ((BitVec.ofNat 32 (2 ^ k)).toNat &&& allBits) j) := hpick ▸ List.mem_singleton_self k
    exact List.any_eq_true.2 ⟨k, h, by rw [(List.mem_filter.1 hb).2, hr]; rfl⟩
  unfold maskWrite
  rw [hany, if_pos rfl]

/-- A write of one source's sticky bit clears it alone. -/
theorem stickyWrite_one {pg : Page} {k : Nat} (h : k ∈ pg.srcBits) :
    stickyWrite pg (BitVec.ofNat 32 (2 ^ k)).toNat allBits s = clearSticky (pg.srcNum k) s := by
  obtain ⟨-, hpick, -⟩ := srcBits_pick h
  unfold stickyWrite
  rw [hpick]
  rfl

/-- A write of ERR_INJECT in MAINTENANCE asserts the source that it names. -/
theorem injectWrite_one {pg : Page} {k : Nat} {i : SrcInfo} (h : k ∈ pg.srcBits) (hi : srcInfo (pg.srcNum k) = some i)
    (hmode : s.mode = .maintenance) (hr : reactOf s (pg.srcNum k) ≠ 4) :
    injectWrite pg (BitVec.ofNat 32 (2 ^ k)).toNat allBits s = raise (pg.srcNum k) none none s := by
  obtain ⟨-, hpick, -⟩ := srcBits_pick h
  have hsrc : injectSource (pg.srcNum k) false s = (none, raise (pg.srcNum k) none none s) := by
    unfold injectSource
    rw [hi]
    dsimp only
    rw [if_neg (by simp [hmode]), if_neg fun hf => hr hf.1, if_neg nofun]
  unfold injectWrite
  rw [hpick]
  simp [hsrc, State.each, State.when]

/-- A write of a reaction to FLT_SRC writes REACT alone. -/
theorem fltSrcWrite_react {r : Nat} (hr : r < 8) (s : State) :
    fltSrcWrite (BitVec.ofNat 32 r).toNat allBits s = reactWrite r s := by
  have hall : ∀ r < 8, bit ((BitVec.ofNat 32 r).toNat &&& allBits) 31 = false ∧ F.FLT_SRC_REACT.of (BitVec.ofNat 32 r).toNat = r := by decide
  obtain ⟨hbit, hof⟩ := hall r hr
  unfold fltSrcWrite
  rw [hbit]
  dsimp only
  rw [if_neg (by decide), merge_allBits _ _ (by decide), hof]
  rfl

/-- A reaction that its source allows is taken. -/
theorem reactWrite_allowed {n r : Nat} {i : SrcInfo} (hn : n = rd s .flt F.FLT_SRC_IDX_SRC) (hi : srcInfo n = some i)
    (h : bit i.allowed r = true) : (reactWrite r s).flt =
      (setSrc n { srcOf s n with react := if r = i.react then none else some r } s).flt := by
  subst hn
  unfold reactWrite
  dsimp only
  rw [hi]
  dsimp only
  rw [if_neg (by simp [h])]
  split
  · exact when_keeps (·.flt) (f := wr _ _ _) (fun _ => rfl) _ _
  · rfl

theorem reactWrite_refused {n r : Nat} {i : SrcInfo} (hn : n = rd s .flt F.FLT_SRC_IDX_SRC) (hi : srcInfo n = some i)
    (h : bit i.allowed r = false) : reactWrite r s = reject .flt s := by
  subst hn
  unfold reactWrite
  dsimp only
  rw [hi]
  dsimp only
  rw [if_pos (by simp [h])]

/-- The reaction of a source is that of its record, or its own. -/
theorem reactOf_of_srcOf {n r : Nat} {i : SrcInfo} (hi : srcInfo n = some i)
    (h : (srcOf t n).react = if r = i.react then none else some r) : reactOf t n = r := by
  unfold reactOf
  rw [h, hi]
  split
  next he => exact he.symm
  · rfl

/-- What an assertion does that opens a handling which only counts. -/
structure Counted (n : Nat) (s t : State) : Prop where
  sticky : (srcOf t n).sticky = true
  opens : (srcOf t n).opens.length = (srcOf s n).opens.length + 1
  cnt : (srcOf t n).cnt = min ((srcOf s n).cnt + 1) 0xFFFFFFFF
  others : ∀ m, m ≠ n → srcOf t m = srcOf s m
  maps : t.maps = s.maps
  ports : t.ports = s.ports
  wab : t.wab = s.wab

theorem counted_of_heard {n : Nat} {i : SrcInfo} {x : Page × Nat} (h : Heard n i x s) (link : Option Nat) (hst : (srcOf s n).sticky = false)
    (hr : reactOf s n = 0 ∨ reactOf s n = 1) : Counted n s (raise n none link s) := by
  obtain ⟨b, hrun⟩ := raise_counted h link hst hr
  have hkeep {β : Type} (φ : State → β) (hpost : ∀ q l v, φ (post 128 q l v) = φ v) (hset : ∀ n x v, φ (setSrc n x v) = φ v)
      (hmode : ∀ v : State, φ { v with mode := .degraded } = φ v) : φ (raise n none link s) = φ s := by
    rw [hrun, degrade_keeps φ (hpost 0x11) hmode, openLinked_keeps φ (hpost 0x10) hset]
  have hflt : (raise n none link s).flt = (openLinked n (reactOf s n) i link s).flt := by
    rw [hrun]
    exact degrade_keeps (·.flt) (fun l v => post_flt (s := v) ..) (fun _ => rfl) b _
  have hsame : srcOf (raise n none link s) n = ((srcOf s n).fresh s.tick).openedAt (reactOf s n) link s.tick :=
    (srcOf_congr (congrArg Flt.srcs hflt) n).trans (srcOf_openLinked_same ..)
  refine ⟨?_, ?_, ?_, fun m hm => (srcOf_congr (congrArg Flt.srcs hflt) m).trans (srcOf_openLinked_other _ _ _ _ hm),
    hkeep (·.maps) (fun q l v => post_maps (s := v) ..) (fun _ _ _ => rfl) fun _ => rfl,
    hkeep (·.ports) (fun q l v => post_ports (s := v) ..) (fun _ _ _ => rfl) fun _ => rfl,
    hkeep (·.wab) (fun q l v => post_wab (s := v) ..) (fun _ _ _ => rfl) fun _ => rfl⟩
  · rw [hsame]
    rfl
  · rw [hsame, SrcS.openedAt, List.length_append, fresh_opens]
    rfl
  · rw [hsame, SrcS.openedAt, fresh_cnt]

theorem relockNow_wab (reason : Nat) (s : State) : (relockNow reason s).wab = s.wab := by
  unfold relockNow
  split
  · rfl
  · rw [post_wab]

theorem relockNow_locked (reason : Nat) (s : State) : (relockNow reason s).dbg.unlocked = false := by
  unfold relockNow
  split
  next h => simpa using h
  · rw [post_dbg]

/-- FATAL handling has started for a source. -/
theorem fatalStart_begun (n : Nat) (u : State) :
    (fatalStart n u).flt.fatal = some ⟨u.tick, u.time, n, u.mode.code, none, false⟩ ∧ (fatalStart n u).wab.wait = some u.tick ∧
      (fatalStart n u).flt.emberHeld = true ∧ (fatalStart n u).dbg.unlocked = false ∧ .order 1 n ∈ (fatalStart n u).out := by
  obtain ⟨v, hwait, hv⟩ : ∃ v : State, v.wab.wait = some u.tick ∧ fatalStart n u = alcFlush ((relockNow 2 v).say (.order 1 n)) :=
    ⟨_, rfl, rfl⟩
  have hflt := fatalStart_flt n u
  have h := Beside.alcFlush ((relockNow 2 v).say (.order 1 n))
  refine ⟨by rw [hflt], ?_, by rw [hflt]; rfl, ?_, ?_⟩
  · rw [hv, h.wab]
    exact (congrArg Wab.wait (relockNow_wab 2 v)).trans hwait
  · rw [hv, h.dbg]
    exact relockNow_locked 2 v
  · rw [hv]
    exact h.aside.out.subset (List.mem_append_right _ (List.mem_singleton_self _))

/-! ### The steps -/

theorem errInject_page {pg : Page} (hpg : pageAt (pg.base / 0x1000) = some pg) (hbase : pg.base % 0x1000 = 0) (v m : Nat) (s : State) :
    errInject (pg.base + 0x18) v m s = regGate pg (fun s => if s.mode ≠ .maintenance then reject pg s else injectWrite pg v m s) s := by
  obtain ⟨hat, hoff⟩ := pageAt_off hpg hbase (show 0x18 < 0x1000 by decide)
  unfold errInject
  rw [hat]
  dsimp only
  rw [hoff]
  rfl

theorem errStickyClear_page {pg : Page} (hpg : pageAt (pg.base / 0x1000) = some pg) (hbase : pg.base % 0x1000 = 0) (v m : Nat) (s : State) :
    errStickyClear (pg.base + 0x10) v m s = regGate pg (stickyWrite pg v m) s := by
  obtain ⟨hat, hoff⟩ := pageAt_off hpg hbase (show 0x10 < 0x1000 by decide)
  unfold errStickyClear
  rw [hat]
  dsimp only
  rw [hoff]
  rfl

theorem errMaskWrite_page {pg : Page} (hpg : pageAt (pg.base / 0x1000) = some pg) (hbase : pg.base % 0x1000 = 0) (v m : Nat) (s : State) :
    errMaskWrite (pg.base + 0x14) v m s = regGate pg (maskWrite pg v m) s := by
  obtain ⟨hat, hoff⟩ := pageAt_off hpg hbase (show 0x14 < 0x1000 by decide)
  unfold errMaskWrite
  rw [hat]
  dsimp only
  rw [hoff]
  rfl

/-- The page of the collector takes writes before power and when frozen. -/
theorem takes_flt (s : State) : Takes s .flt := ⟨.inr rfl, by simp [holdsWrites, Page.scope]⟩

/-- Settles O41: the collector's way of an assertion that it hears is one case analysis, and the registers of a page's sources write one bit
each. -/
theorem faultCollection : Obligations.FaultCollection := by
  refine ⟨fun s n l i x hn hi hp hmask hpair hup hcalm hst hr hcap => ?_, fun s n l i x hn hi hp hmask hpair hup hcalm hst hr => ?_,
    fun s n l _ hmask => ?_, fun s n l i x hn hi hp hmask hpair hup hcalm hr => ?_, fun s n i hi hpair => ?_,
    fun s n hpair hdrive => ?_, fun s n d hpair hdrive hclk => ?_, fun s pg v hpg hbase htakes hmode => ?_,
    fun s pg k n i hpg hbase hmode hk hn hlt hi hp hmask hpair hcalm hst hr => ?_, fun s pg k hpg hbase htakes hk has => ?_,
    fun s pg k hpg hbase htakes hk has hopen => ?_, fun s pg k hpg hbase htakes hk hr => ?_,
    fun s pg k hpg hbase htakes hk hr => ?_, fun s n r i hr hn hi hall => ?_, fun s n r i hr hn hi hall => ?_⟩
  · have h : Heard n i x s := ⟨hn, hi, hp, hmask, hpair, hup, hcalm⟩
    have hc := counted_of_heard h (some l) hst hr
    obtain ⟨b, hrun⟩ := raise_counted h (some l) hst hr
    have hev := fault_posted (n := n) (reactOf s n) i (some l) b hcap
    rw [← hrun] at hev
    exact ⟨_, rfl, hc.sticky, hc.opens, hc.cnt, hc.others, hev, hc.maps, hc.ports, hc.wab⟩
  · obtain ⟨y, hy, hrun⟩ := raise_merged ⟨hn, hi, hp, hmask, hpair, hup, hcalm⟩ (some l) hst hr
    have hmerge : countMerge n (setSrc n y s) = bump x.1 F.ERR_MERGE_CNT_MERGES (setSrc n y s) := by
      unfold countMerge
      rw [hp]
    refine ⟨_, congrArg (done s) (hrun.trans hmerge), ?_, ?_, rfl, rfl⟩
    · exact (congrArg SrcS.cnt (srcOf_setSrc_same n y s)).trans hy
    · exact rd_bumpBy_same (s := setSrc n y s) x.1 F.ERR_MERGE_CNT_MERGES 1
  · exact ⟨_, congrArg (done s) (raise_of_masked (some l) hmask), rfl, rfl, rfl, rfl⟩
  · have hrun := raise_fatal ⟨hn, hi, hp, hmask, hpair, hup, hcalm⟩ (some l) hr
    obtain ⟨hf, hw, he, hd, ho⟩ := fatalStart_begun n (openLinked n 4 i (some l) s)
    have hkeep {β : Type} (φ : State → β) (hpost : ∀ l v, φ (post 128 0x10 l v) = φ v) (hset : ∀ n x v, φ (setSrc n x v) = φ v) :
        φ (openLinked n 4 i (some l) s) = φ s := openLinked_keeps φ hpost hset ..
    have htick := hkeep (·.tick) (fun l v => post_tick (s := v) ..) fun _ _ _ => rfl
    have htime := hkeep (·.time) (fun l v => post_time (s := v) ..) fun _ _ _ => rfl
    have hmode := hkeep (·.mode) (fun l v => post_mode (s := v) ..) fun _ _ _ => rfl
    rw [htick, htime, hmode] at hf
    rw [htick] at hw
    exact ⟨_, congrArg (done s) hrun, hf, hw, he, hd, ho⟩
  · exact ⟨_, rfl, pair_wireBroken hi hpair⟩
  · have hrun : wireRestored n s = modSrc n (fun x => { x with pair := 0, drive := none }) s := by
      unfold wireRestored
      dsimp only
      rw [if_pos hpair, hdrive]
    refine ⟨_, congrArg (done s) hrun, ?_, fun m hm => srcOf_setSrc_other _ s hm, rfl⟩
    refine (srcOf_setSrc_same n _ s).trans ?_
    rw [← hdrive]
  · have hrun : wireRestored n s = modSrc n (fun x => { x with pair := 0, drive := none }) (advanceTo d s) := by
      unfold wireRestored
      dsimp only
      rw [if_pos hpair, hdrive]
      exact if_neg fun h => h.2 hclk
    refine ⟨_, congrArg (done s) hrun, advanceTo_tick d hclk, ?_⟩
    exact (srcOf_setSrc_same n _ (advanceTo d s)).trans (by rw [srcOf_congr (congrArg Flt.srcs (advanceTo_flt (s := s) d))])
  · have hrun : errInject (pg.base + 0x18) v.toNat allBits s = reject pg s := by
      rw [errInject_page hpg hbase, regGate_of_takes _ htakes, if_pos hmode]
    refine ⟨_, congrArg (done s) hrun, ?_, rfl, rfl⟩
    rw [rd_settled]
    exact rd_reject (s := s) pg
  · subst hn
    have hup : s.mode.isUp = true := by rw [hmode]; rfl
    have htakes : Takes s pg := ⟨.inl hup, by simp [holdsWrites, frozen, hmode]⟩
    have hmild : reactOf s (pg.srcNum k) ≠ 4 := by rcases hr with hr | hr <;> rw [hr] <;> decide
    have hrun : errInject (pg.base + 0x18) (BitVec.ofNat 32 (2 ^ k)).toNat allBits s = raise (pg.srcNum k) none none s := by
      rw [errInject_page hpg hbase, regGate_of_takes _ htakes, if_neg (by simp [hmode]), injectWrite_one hk hi hmode hmild]
    have hc := counted_of_heard ⟨hlt, hi, hp, hmask, hpair, hup, hcalm⟩ none hst hr
    exact ⟨_, congrArg (done s) hrun, hc.sticky, hc.cnt, hc.maps⟩
  · have hrun : errStickyClear (pg.base + 0x10) (BitVec.ofNat 32 (2 ^ k)).toNat allBits s =
        setSrc (pg.srcNum k) { srcOf s (pg.srcNum k) with sticky := false } s := by
      rw [errStickyClear_page hpg hbase, regGate_of_takes _ htakes, stickyWrite_one hk, clearSticky]
      dsimp only
      rw [if_neg fun h => has h.1, if_neg fun h => has h.1]
    exact ⟨_, congrArg (done s) hrun, srcOf_setSrc_same _ _ s, fun m hm => srcOf_setSrc_other _ s hm, rfl⟩
  · have hrun : errStickyClear (pg.base + 0x10) (BitVec.ofNat 32 (2 ^ k)).toNat allBits s = s := by
      rw [errStickyClear_page hpg hbase, regGate_of_takes _ htakes, stickyWrite_one hk, clearSticky]
      dsimp only
      rw [if_pos ⟨has, hopen⟩]
    exact ⟨_, congrArg (done s) hrun, rfl, rfl⟩
  · have hrun : errMaskWrite (pg.base + 0x14) (BitVec.ofNat 32 (2 ^ k)).toNat allBits s = wr pg F.ERR_MASK_MASK (2 ^ k) s := by
      rw [errMaskWrite_page hpg hbase, regGate_of_takes _ htakes, maskWrite_of_mild hk hr]
    refine ⟨_, congrArg (done s) hrun, ?_, rfl⟩
    rw [rd_settled]
    exact rd_wr_of_lt (f := F.ERR_MASK_MASK) s (Nat.pow_lt_pow_right (by decide) (srcBits_pick hk).1)
  · have hrun : errMaskWrite (pg.base + 0x14) (BitVec.ofNat 32 (2 ^ k)).toNat allBits s = reject pg s := by
      rw [errMaskWrite_page hpg hbase, regGate_of_takes _ htakes, maskWrite_of_fatal hk hr]
    refine ⟨_, congrArg (done s) hrun, ?_, ?_⟩
    · rw [rd_settled]
      exact (rd_bumpBy_off (f := F.BLK_STS_CFG_REJECT_CNT) 1 (wr pg F.BLK_STS_CFG_REJECT 1 s) (by decide) (by decide) (by decide)).trans
        (rd_wr_place 1 s (by decide))
    · rw [rd_settled]
      exact rd_reject (s := s) pg
  · have hrun : regGate .flt (fltSrcWrite (BitVec.ofNat 32 r).toNat allBits) s = reactWrite r s := by
      rw [regGate_of_takes _ (takes_flt s), fltSrcWrite_react hr]
    have hsrcs := congrArg Flt.srcs (reactWrite_allowed hn hi hall)
    refine ⟨_, congrArg (done s) hrun, reactOf_of_srcOf hi ?_, fun m hm => ?_⟩
    · exact congrArg SrcS.react ((srcOf_congr hsrcs n).trans (srcOf_setSrc_same n _ s))
    · exact (srcOf_congr hsrcs m).trans (srcOf_setSrc_other _ s hm)
  · have hrun : regGate .flt (fltSrcWrite (BitVec.ofNat 32 r).toNat allBits) s = reject .flt s := by
      rw [regGate_of_takes _ (takes_flt s), fltSrcWrite_react hr, reactWrite_refused hn hi hall]
    refine ⟨_, congrArg (done s) hrun, rfl, ?_⟩
    rw [rd_settled]
    exact rd_reject (s := s) .flt

end Sys2Proof.Machine
end

section
/-! SUPPORT. The end of FATAL handling, dumps and their destinations (12 R237, R242-R245). -/
namespace Sys2Proof.Machine
variable {s t u : State}

/-! ### The freeze -/

/-- What disarming, a mode and an event leave, a change of the mode leaves. -/
theorem setMode_keeps {β : Type} (φ : State → β) (hports : ∀ p v, φ { v with ports := p } = φ v)
    (harm : ∀ l v, φ (wr (.lnk l) F.LNK_INJ_CTL_ARM 0 v) = φ v) (hmode : ∀ m (v : State), φ { v with mode := m } = φ v)
    (hpost : ∀ l v, φ (post 128 0x11 l v) = φ v) (m : Mode) (s : State) : φ (setMode m s) = φ s := by
  have hdisarm (v : State) : φ (disarmAll v) = φ v := each_keeps φ (fun e _ w => (harm ..).trans (hports _ w)) v
  unfold setMode
  split
  · rfl
  · exact (when_keeps φ (hpost _) _ _).trans ((hmode ..).trans (when_keeps φ hdisarm _ _))

theorem setMode_flt (m : Mode) (s : State) : (setMode m s).flt = s.flt :=
  setMode_keeps (·.flt) (fun _ _ => rfl) (fun _ _ => rfl) (fun _ _ => rfl) (fun _ _ => post_flt ..) m s

theorem setMode_wab (m : Mode) (s : State) : (setMode m s).wab = s.wab :=
  setMode_keeps (·.wab) (fun _ _ => rfl) (fun _ _ => rfl) (fun _ _ => rfl) (fun _ _ => post_wab ..) m s

/-- A change of the mode says no less than was said. -/
theorem setMode_out (m : Mode) (s : State) : s.out <+: (setMode m s).out := by
  have hdisarm (v : State) : (disarmAll v).out = v.out := each_keeps (·.out) (fun _ _ _ => by rfl) v
  unfold setMode
  split
  · exact List.prefix_rfl
  · refine when_out_extends _ ?_ (CellStep.post ..).beside.aside.out
    exact (when_keeps (·.out) hdisarm _ s).symm ▸ List.prefix_rfl

/-- What the start of a dump leaves alone. -/
structure DumpStarted (s t : State) : Prop where
  mode : t.mode = s.mode
  fatal : t.flt.fatal = s.flt.fatal
  wab : t.wab = s.wab
  out : t.out = s.out

theorem dumpStart_kept (trigger mode tFault : Nat) (ranOut : Bool) (except : Option Nat) (s : State) :
    DumpStarted s (dumpStart trigger mode tFault ranOut except s) := by
  unfold dumpStart
  split <;> exact ⟨rfl, rfl, rfl, rfl⟩

/-- A dump starts while a core is left to write it. -/
theorem dumpStart_dump (trigger mode tFault : Nat) (ranOut : Bool) (except : Option Nat) (h : coreLeft s = true) :
    ∃ d, (dumpStart trigger mode tFault ranOut except s).flt.dump = some d ∧ d.trigger = trigger ∧ d.done = false ∧
      d.tFault = tFault := by
  unfold dumpStart
  rw [if_neg (by simp [h])]
  exact ⟨_, rfl, rfl, rfl, rfl⟩

/-- FATAL handling whose drain has ended, as it freezes. -/
def frozenNow (f : Fatal) (s : State) : State :=
  { s with
      flt := { s.flt with fatal := some { f with frozen := some s.time } }
      wab := { s.wab with wait := none } }
    |> State.say (.order 2 f.src) |> setMode .fatalHold

theorem fatalFreeze_of_drained {f : Fatal} (hf : s.flt.fatal = some f) (hopen : f.frozen = none) (hup : s.mode.isUp = true)
    (hdrained : fatalDrained s f = true) :
    fatalFreeze s = dumpStart 0 f.mode f.time f.ranOut (sourceTile f.src) (frozenNow f s) := by
  unfold fatalFreeze
  rw [hf]
  dsimp only
  rw [if_neg (by simp [hopen, hup, hdrained])]
  rfl

/-! ### Dumps -/

/-- The dump that is written, with its sections placed. -/
def dumpOver (s : State) (d : Dump) : Dump := { dumpFill s d with done := true }

/-- A dump that is complete is shown at its destination. -/
theorem dumpDone_of_open {d : Dump} (hd : s.flt.dump = some d) (hopen : d.done = false) : ∃ tr l u,
    u.flt.dump = some (dumpOver s d) ∧ u.wab = s.wab ∧ u.rst = s.rst ∧
    dumpDone s = post 128 0x14 l
      (wr .flt F.FLT_DUMP_STS_DONE 1 (wr .flt F.FLT_DUMP_STS_TRUNC tr (wr .flt F.FLT_DUMP_STS_DEST d.dest u))) := by
  unfold dumpDone
  rw [hd]
  dsimp only
  rw [if_neg (by simp [hopen])]
  refine ⟨_, _, _, ?_, ?_, ?_, rfl⟩
  · exact (when_keeps (·.flt.dump) (f := State.say _) (fun _ => rfl) _ _).trans
      (when_keeps (·.flt.dump) (f := State.say _) (fun _ => rfl) _ _)
  · exact (when_keeps (·.wab) (f := State.say _) (fun _ => rfl) _ _).trans (when_keeps (·.wab) (f := State.say _) (fun _ => rfl) _ _)
  · exact (when_keeps (·.rst) (f := State.say _) (fun _ => rfl) _ _).trans (when_keeps (·.rst) (f := State.say _) (fun _ => rfl) _ _)

/-! ### Completions after an access of the management DMA -/

theorem completed_of_said {c : Ctx} {op st r0 r1 : Nat} (hout : s.out <+: u.out) (h : Completed u t c op st r0 r1) :
    Completed s t c op st r0 r1 := by
  obtain ⟨i, ph, hd, time, addr, image, hmem⟩ := h
  exact ⟨i, ph, hd, time, addr, image, (List.drop_sublist_drop_left _ hout.length_le).subset hmem⟩

/-- A completion that goes out follows what was said before it. -/
theorem out_complete_of_hears {c : Ctx} (op st r0 r1 : Nat) (h : Hears s c) : s.out <+: (complete c op st r0 r1 s).out := by
  obtain ⟨w, heq, hw⟩ := complete_of_hears op st r0 r1 h
  obtain ⟨i, ph, hd, addr, image, hl⟩ := cqPut_out_begins w ⟨c, op, st, false, r0, r1, s.time⟩
  rw [heq, ← hw]
  exact (List.prefix_append _ _).trans hl

/-- A completion leaves where dumps may go. -/
theorem dumpBuf_complete (c : Ctx) (op st r0 r1 : Nat) (s : State) : (complete c op st r0 r1 s).mq.dumpBuf = s.mq.dumpBuf := by
  unfold complete
  dsimp only
  split
  · exact (MqStill.post ..).dumpBuf
  · exact (MqStill.cplOut ..).dumpBuf

/-! ### The segment -/

/-- A dump that the segment holds where it can be read. -/
theorem segDump_found {d : Dump} (hfrozen : frozen s = false) (hsegs : s.flt.segDumps = [d]) (hen : rd s .flt F.FLT_DSEG_CFG_EN = 1)
    (hlead : d.lead = rd s .flt F.FLT_DSEG_CFG_LEAD) (hld : d.ld = rd s .flt F.FLT_DSEG_CFG_LD) (haddr : d.addr = dsegBase s)
    (hsize : d.total ≤ 2 ^ (21 + rd s .flt F.FLT_DSEG_CFG_SIZE)) (hup : linkUp s d.lead = true) : segDump s d.seq = some d := by
  have hreach : dsegReach s d = true := by simp [dsegReach, hup, hfrozen]
  unfold segDump
  rw [if_neg (by rw [hen]; decide), hsegs]
  simp [← hlead, ← hld, ← haddr, hsize, hreach]

/-- No dump is read where the segment is off or holds none of the number. -/
theorem segDump_absent {num : Nat} (h : rd s .flt F.FLT_DSEG_CFG_EN = 0 ∨ (s.flt.segDumps.all fun d => d.seq != num) = true) :
    segDump s num = none := by
  unfold segDump
  rcases h with hoff | hother
  · exact if_pos hoff
  · split
    · rfl
    · refine List.find?_eq_none.2 fun d hd => ?_
      have hne : d.seq ≠ num := by simpa using List.all_eq_true.1 hother d hd
      simp [hne]

/-- What a fetch of a dump writes to the manager's buffer. -/
def fetched (c : Ctx) (buf n : Nat) (d : Dump) (s : State) : State := s.say (.dma c.ep buf n (d.words.take ((n + 3) / 4)))

/-- The settings of the segment as a value of FLT_DSEG_CFG spells them. -/
def putSegment (v : Nat) (s : State) : State :=
  s |> wr .flt F.FLT_DSEG_CFG_EN (F.FLT_DSEG_CFG_EN.of v) |> wr .flt F.FLT_DSEG_CFG_LEAD (F.FLT_DSEG_CFG_LEAD.of v)
    |> wr .flt F.FLT_DSEG_CFG_LD (F.FLT_DSEG_CFG_LD.of v)
    |> wr .flt F.FLT_DSEG_CFG_SIZE (F.FLT_DSEG_CFG_SIZE.clamp (F.FLT_DSEG_CFG_SIZE.of v))

theorem putReg_segment (v : Nat) (s : State) : putReg .flt F.FLT_DSEG_CFG_EN.off v allBits s = putSegment v s := by
  have hfields : Page.flt.regFields F.FLT_DSEG_CFG_EN.off =
      [F.FLT_DSEG_CFG_EN, F.FLT_DSEG_CFG_LEAD, F.FLT_DSEG_CFG_LD, F.FLT_DSEG_CFG_SIZE] := rfl
  rw [putReg, hfields, putSome]
  simp only [putFields]
  rw [putField_rw_good v _ rfl (by decide) (by decide) (Nat.zero_le _) (of_le_max (by decide) v),
    putField_rw_good v _ rfl (by decide) (by decide) (Nat.zero_le _) (of_le_max (by decide) v),
    putField_rw_good v _ rfl (by decide) (by decide) (Nat.zero_le _) (of_le_max (by decide) v),
    putField_rw_clamped v _ rfl (by decide) (by decide) (bad_of_clamped rfl rfl (by decide))]
  rfl

/-- The size of a segment is capped. -/
theorem clamp_segmentSize (x : Nat) : F.FLT_DSEG_CFG_SIZE.clamp x = min 19 x := by
  change (if x < 0 ∧ true then 0 else if 19 < x ∧ true then 19 else x) = _
  rw [if_neg (fun h => Nat.not_lt_zero _ h.1)]
  rcases Nat.lt_or_ge 19 x with h | h
  · rw [if_pos ⟨h, rfl⟩, min_eq_left h.le]
  · rw [if_neg (fun h' => absurd h'.1 (by omega)), min_eq_right h]

theorem rd_putSegment (v : Nat) (s : State) : rd (putSegment v s) .flt F.FLT_DSEG_CFG_EN = F.FLT_DSEG_CFG_EN.of v ∧
    rd (putSegment v s) .flt F.FLT_DSEG_CFG_LEAD = F.FLT_DSEG_CFG_LEAD.of v ∧
    rd (putSegment v s) .flt F.FLT_DSEG_CFG_SIZE = min 19 (F.FLT_DSEG_CFG_SIZE.of v) := by
  unfold putSegment
  refine ⟨?_, ?_, ?_⟩
  · rw [rd_wr_place _ _ (by decide), rd_wr_place _ _ (by decide), rd_wr_place _ _ (by decide), rd_wr_same, of_mod]
  · rw [rd_wr_place _ _ (by decide), rd_wr_place _ _ (by decide), rd_wr_same, of_mod]
  · rw [rd_wr_same, clamp_segmentSize]
    exact Nat.mod_eq_of_lt (lt_of_le_of_lt (min_le_left _ _) (by decide))

/-- A binding of the segment's device that begins where the segment does overlaps it. -/
theorem dsegOverlaps_of_base {i : Nat} {b : Binding} {lead ld : Nat} (size : Nat) (hmem : (i, b) ∈ s.maps.binds) (hvalid : b.valid = true)
    (hkind : b.kind = 0) (hout : b.out = lead) (hld : b.ld = ld) (hbase : b.dpaBase = dsegBase s) : dsegOverlaps s lead ld size = true := by
  have hlen : 0 < 2 ^ (21 + size) := Nat.two_pow_pos _
  have hbytes : 0 < b.bytes := Nat.two_pow_pos _
  refine List.any_eq_true.2 ⟨_, hmem, ?_⟩
  simp only [hvalid, hkind, hout, hld, hbase, beq_self_eq_true, Bool.true_or, Bool.and_self, Bool.true_and, Bool.and_eq_true,
    decide_eq_true_eq]
  omega

/-! ### The module watchdog -/

/-- The module watchdog as it runs out: EMBER is held. -/
def wdogFired (s : State) : State := { holdEmber s with flt := { (holdEmber s).flt with wdogOut := true } }

/-! ### The steps -/

/-- Settles O42: the freeze is three writes and the start of a dump; a dump that ends is shown at its destination; the segment's register
takes what does not overlap a binding. -/
theorem fatalHoldAndDumps : Obligations.FatalHoldAndDumps := by
  refine ⟨fun s f hf hopen hup hdrained => ?_, fun s d hd hopen hwarm => ?_, fun s c buf len hcore hears => ?_,
    fun s c num buf len good hcore hears hfatal hno => ?_,
    fun s c d buf len hcore hears hfrozen hfatal hsegs hen hlead hld haddr hsize hup hmg => ?_,
    fun s c num buf len good f hcore hf hopen => ?_, fun s v hv hbinds => ?_,
    fun s v i b hv hmem hvalid hkind hout hld hbase => ?_, fun s hwd hup hclk => ?_⟩
  · have hrun := fatalFreeze_of_drained hf hopen hup hdrained
    have hwab : (frozenNow f s).wab = { s.wab with wait := none } := setMode_wab ..
    have hkept := dumpStart_kept 0 f.mode f.time f.ranOut (sourceTile f.src) (frozenNow f s)
    refine ⟨_, congrArg (done s) hrun, hkept.mode.trans (setMode_mode ..), hkept.fatal.trans (congrArg Flt.fatal (setMode_flt ..)),
      (congrArg Wab.wait hkept.wab).trans (congrArg Wab.wait hwab),
      (congrArg Wab.ents hkept.wab).trans (hwab ▸ rfl), ?_, fun hleft => ?_⟩
    · change .order 2 f.src ∈ (dumpStart 0 f.mode f.time f.ranOut (sourceTile f.src) (frozenNow f s)).out
      rw [hkept.out]
      exact (setMode_out ..).subset (List.mem_append_right _ (List.mem_singleton_self _))
    · exact dumpStart_dump 0 f.mode f.time f.ranOut (sourceTile f.src)
        ((congrArg (fun x : Flt => x.cores.any fun e => e.2.alive) (setMode_flt ..)).trans hleft)
  · obtain ⟨tr, l, u, hdump, hwab, hrst, hrun⟩ := dumpDone_of_open hd hopen
    have hwarm' : warmHeldGo (dumpDone s) = dumpDone s := by
      have hnone : (dumpDone s).rst.warmHeld = none := by
        rw [hrun, post_rst]
        exact (congrArg Rst.warmHeld hrst).trans hwarm
      unfold warmHeldGo
      rw [hnone]
    refine ⟨_, congrArg (done s) hwarm', ?_⟩
    rw [hrun]
    refine ⟨?_, ?_, ?_, ?_⟩
    · rw [rd_settled, rd_post _ 128 0x14 l (by decide) (by decide)]
      exact rd_wr_of_lt (f := F.FLT_DUMP_STS_DONE) (v := 1) _ (by decide)
    · rw [rd_settled, rd_post _ 128 0x14 l (by decide) (by decide), rd_wr_place _ _ (by decide), rd_wr_place _ _ (by decide), rd_wr_same]
      rfl
    · rw [settled_flt, post_flt]
      exact congrArg (Option.map _) hdump
    · rw [settled_wab, post_wab]
      exact hwab
  · refine ⟨_, congrArg (done s) (byCore_of_coreActs (dumpBufSet c buf len) hcore), ?_, ?_⟩
    · rw [settled_mq, dumpBufSet, finish, dumpBuf_complete]
      exact tget_tput_same none (some (buf, len)) s.mq.dumpBuf c.ep
    · exact completed_of_hears (u := { s with mq := { s.mq with dumpBuf := tput none s.mq.dumpBuf c.ep (some (buf, len)) } }) 0x52 0 0 0
        rfl hears
  · have hrun : byCore (dumpFetch c num buf len good) s = finish c 0x53 St.noEntry s := by
      rw [byCore_of_coreActs _ hcore, dumpFetch, if_neg (by simp [hfatal]), segDump_absent hno]
    exact ⟨_, congrArg (done s) hrun, completed_of_hears (u := s) 0x53 0x1E 0 0 rfl hears⟩
  · have hrun : byCore (dumpFetch c d.seq buf len true) s =
        complete c 0x53 St.ok (min len d.total) 0 (fetched c buf (min len d.total) d s) := by
      rw [byCore_of_coreActs _ hcore, dumpFetch, if_neg (by simp [hfatal]), segDump_found hfrozen hsegs hen hlead hld haddr hsize hup]
      dsimp only
      rw [if_neg (by simp [hmg])]
      rfl
    have hears' : Hears (fetched c buf (min len d.total) d s) c := hears
    refine ⟨_, congrArg (done s) hrun, ?_, ?_⟩
    · exact completed_of_said (List.prefix_append _ _) (completed_of_hears 0x53 0 _ 0 rfl hears')
    · exact (out_complete_of_hears 0x53 0 _ 0 hears').subset (List.mem_append_right _ (List.mem_singleton_self _))
  · have hrun : byCore (dumpFetch c num buf len good) s = s := by
      rw [byCore_of_coreActs _ hcore, dumpFetch, if_pos (by simp [hf, hopen])]
    exact ⟨_, congrArg (done s) hrun, rfl, rfl, rfl⟩
  · have hfree (lead ld size : Nat) : dsegOverlaps s lead ld size = false := by simp [dsegOverlaps, hbinds]
    have hrun : regGate .flt (dsegWrite v.toNat allBits) s = putSegment v.toNat s := by
      rw [regGate_of_takes _ (takes_flt s), dsegWrite]
      dsimp only
      rw [if_neg (by simp [hfree]), putReg_segment]
    obtain ⟨hsEn, hsLead, hsSize⟩ := rd_putSegment v.toNat s
    exact ⟨_, congrArg (done s) hrun, hsEn.trans hv, hsLead, hsSize⟩
  · have hover (size : Nat) : dsegOverlaps s (F.FLT_DSEG_CFG_LEAD.of v.toNat) (F.FLT_DSEG_CFG_LD.of v.toNat) size = true :=
      dsegOverlaps_of_base size hmem hvalid hkind hout hld hbase
    have hrun : regGate .flt (dsegWrite v.toNat allBits) s = reject .flt s := by
      rw [regGate_of_takes _ (takes_flt s), dsegWrite]
      dsimp only
      refine if_pos ?_
      rw [merge_allBits _ _ (by decide), merge_allBits _ _ (by decide), merge_allBits _ _ (by decide)]
      exact ⟨hv, hover _⟩
    refine ⟨_, congrArg (done s) hrun, ?_, ?_⟩
    · rw [rd_settled]
      exact rd_reject _ .flt
    · rw [rd_settled, reject, bump, rd_bumpBy_off _ _ (by decide) (by decide) (by decide), rd_wr_place _ _ (by decide)]
  · have hrun : moduleWatchdogExpire s = wdogFired (advanceTo (s.flt.wdogFed + rd s .flt F.FLT_WDOG_MOD_TMO) s) := by
      rw [moduleWatchdogExpire, if_neg (by simp [hwd, hup]), atTick, if_neg (by simp [hclk])]
      rfl
    have htick := advanceTo_tick (s.flt.wdogFed + rd s .flt F.FLT_WDOG_MOD_TMO) hclk
    have hmode : (advanceTo (s.flt.wdogFed + rd s .flt F.FLT_WDOG_MOD_TMO) s).mode = s.mode := advanceTo_mode ..
    have hregs : (advanceTo (s.flt.wdogFed + rd s .flt F.FLT_WDOG_MOD_TMO) s).regs = s.regs := advanceTo_regs ..
    generalize advanceTo (s.flt.wdogFed + rd s .flt F.FLT_WDOG_MOD_TMO) s = u at *
    exact ⟨_, congrArg (done s) hrun, htick, rfl, rfl, hmode, hregs⟩

end Sys2Proof.Machine
end

section
/-! SUPPORT. What no event, reaction, completion or block's work of a boundary moves: the count, the marks of the boundaries, the number of
the next snapshot, and an empty table (02 R38). -/
namespace Sys2Proof.Machine
variable {s t u : State}

/-- Two states agree on the count, on the boundaries acted on and on the number of the next snapshot; what has nothing scheduled
goes on to have nothing. -/
structure Paced (s t : State) : Prop where
  time : t.time = s.time
  slot : t.ftm.slotDone = s.ftm.slotDone
  epoch : t.ftm.epochDone = s.ftm.epochDone
  snap : t.tel.snapSeq = s.tel.snapSeq
  sched : s.sched = [] → t.sched = []

namespace Paced

theorem of_kept (htime : t.time = s.time) (hftm : t.ftm = s.ftm) (htel : t.tel.snapSeq = s.tel.snapSeq) (hsched : t.sched = s.sched) :
    Paced s t := ⟨htime, by rw [hftm], by rw [hftm], htel, fun h => hsched.trans h⟩

theorem refl (s : State) : Paced s s := of_kept rfl rfl rfl rfl

theorem trans (h : Paced s t) (g : Paced t u) : Paced s u :=
  ⟨g.time.trans h.time, g.slot.trans h.slot, g.epoch.trans h.epoch, g.snap.trans h.snap, fun hs => g.sched (h.sched hs)⟩

/-- A step after what moves nothing of all this. -/
theorem after (g : Paced t u) (htime : t.time = s.time) (hftm : t.ftm = s.ftm) (htel : t.tel.snapSeq = s.tel.snapSeq)
    (hsched : t.sched = s.sched) : Paced s u := (of_kept htime hftm htel hsched).trans g

theorem of_aside (h : Aside s t) : Paced s t := of_kept h.time h.ftm h.snap h.sched

theorem ite {c : Prop} [Decidable c] (h : Paced s t) (g : Paced s u) : Paced s (if c then t else u) := by
  split
  · exact h
  · exact g

theorem when {f : State → State} (b : Bool) (h : ∀ s, Paced s (f s)) (s : State) : Paced s (s.when b f) := by
  cases b
  · exact refl s
  · exact h s

theorem each {α : Type} (l : List α) {f : α → State → State} (h : ∀ a s, Paced s (f a s)) (s : State) : Paced s (s.each l f) := by
  induction l generalizing s with
  | nil => exact refl s
  | cons a l ih => exact (h a s).trans (ih (f a s))

theorem unfrozen {f : State → State} (h : ∀ s, Paced s (f s)) (s : State) : Paced s (unfrozen f s) := by
  unfold Machine.unfrozen
  split
  · exact refl s
  · exact h s

theorem wr (pg : Page) (f : Fld) (v : Nat) (s : State) : Paced s (wr pg f v s) := of_kept rfl rfl rfl rfl

theorem say (o : Out) (s : State) : Paced s (s.say o) := of_kept rfl rfl rfl rfl

theorem post (q typ : Nat) (l : List (Nat × Nat)) (s : State) : Paced s (post q typ l s) :=
  of_kept (post_time ..) (post_ftm ..) (by rw [post_tel]) (post_sched ..)

theorem complete (c : Ctx) (op st a b : Nat) (s : State) : Paced s (complete c op st a b s) :=
  of_kept (complete_time ..) (complete_ftm ..) (by rw [complete_tel]) (complete_sched ..)

theorem glrSend (dst typ : Nat) (body : List Nat) (s : State) : Paced s (glrSend dst typ body s) := by
  obtain ⟨g, o, h⟩ := glrSend_glr_only dst typ body s
  rw [h]
  exact of_kept rfl rfl rfl rfl

theorem ownerDone (e : SchedEnt) (st r : Nat) (s : State) : Paced s (ownerDone e st r s) := by
  unfold Machine.ownerDone
  split
  · exact complete ..
  · exact glrSend ..
  · exact refl s

/-! ### Reactions of the collector (12 R229-R236) -/

theorem setSrc (n : Nat) (x : SrcS) (s : State) : Paced s (setSrc n x s) := of_kept rfl rfl rfl rfl

theorem countMerge (n : Nat) (s : State) : Paced s (countMerge n s) := of_aside (Aside.countMerge n s)

theorem startDrain (part : Nat) (why : DrainFor) (s : State) : Paced s (startDrain part why s) :=
  (each _ (fun (a : AlcL) v => of_aside (Beside.alcWriteback a.tile a.line v).aside) s).trans (of_kept rfl rfl rfl rfl)

theorem dropped (m : Maps) (h : Home) (p : SchedEnt → Bool) (s : State) :
    Paced s { s with maps := m, home := h, sched := s.sched.filter p } := ⟨rfl, rfl, rfl, rfl, fun hs => by rw [hs]; rfl⟩

theorem restartFirst (part : Nat) (s : State) : Paced s (restartFirst part s) := by
  unfold Machine.restartFirst
  split
  · split
    · exact (dropped s.maps s.home _ s).trans ((wr ..).trans (ownerDone ..))
    · exact refl s
  · exact refl s

theorem countReset (part cause : Nat) (s : State) : Paced s (countReset part cause s) := by
  unfold Machine.countReset
  dsimp only
  split <;> exact (wr ..).trans (wr ..)

theorem partResetStart (part cause : Nat) (ctx : Option Ctx) (s : State) : Paced s (partResetStart part cause ctx s) := by
  have hbegun : Paced s ((Machine.countReset part cause (Machine.restartFirst part s)).when (cause == 1)
      (Machine.wr (.part part) F.PART_CTL_RESET 1)) :=
    (restartFirst ..).trans ((countReset ..).trans (when _ (fun u => wr _ _ _ u) _))
  unfold Machine.partResetStart
  dsimp only
  refine hbegun.trans ?_
  generalize (Machine.countReset part cause (Machine.restartFirst part s)).when _ _ = u
  split
  · exact of_kept rfl rfl rfl rfl
  · refine Paced.trans ?_ ((startDrain part .reset _).trans ((each _ (fun i v => of_aside (CellStep.discardCell i v).beside.aside) _).trans
      (each _ (fun l v => say _ v) _)))
    have hmarked (f : PartS → PartS) :
        Paced u (dropReservations part (modPart part f (Machine.wr (.part part) F.PART_STS_RESETTING 1 u))) :=
      of_kept rfl rfl rfl rfl
    split
    · exact ((hmarked _).trans (dropped ..)).trans (ownerDone ..)
    · exact (hmarked _).trans (dropped ..)

theorem completeO (c : Option Ctx) (op st r : Nat) (s : State) : Paced s (completeO c op st r s) := by
  cases c with
  | none => exact refl s
  | some c => exact complete ..

theorem endScan (p r : Nat) (s : State) : Paced s (endScan p r s) := by
  unfold Machine.endScan
  split
  · exact refl s
  · exact after (completeO ..) rfl rfl rfl rfl

theorem setPhase (lead : Nat) (ph : Phase) (s : State) : Paced s (setPhase lead ph s) := by
  have hlink (f : LinkS → LinkS) (u : State) : Paced u (modLink lead f u) := of_kept rfl rfl rfl rfl
  have hresv (p : Resv → Bool) (u : State) : Paced u (loseResvIf p .lostError u) := of_kept rfl rfl rfl rfl
  have hmoved (f : LinkS → LinkS) (b c : Bool) (n : Nat) (p : Resv → Bool) :
      Paced s ((s |> modLink lead f |> wrb (.phy lead) F.PHY_LINK_STS_UP b |> Machine.wr (.phy lead) F.PHY_LINK_STS_TX_STATE n
        |> Machine.wr (.phy lead) F.PHY_LINK_STS_RX_STATE n).when c (loseResvIf p .lostError)) :=
    (hlink ..).trans ((wr ..).trans ((wr ..).trans ((wr ..).trans (when _ (hresv _) _))))
  unfold Machine.setPhase
  exact ite (hmoved ..) ((hmoved ..).trans (each _ (fun p u => endScan p 3 u) _))

theorem laneReadmit (lead : Nat) (s : State) : Paced s (laneReadmit lead s) := by
  have hlane (n : Nat) (x : LaneS) (u : State) : Paced u (setLane n x u) := of_kept rfl rfl rfl rfl
  exact ite (refl s) ((wr ..).trans ((wr ..).trans (each _ (fun n u => hlane n _ u) _)))

theorem enterRecovery (lead : Nat) (s : State) : Paced s (enterRecovery lead s) := by
  have hlink (f : LinkS → LinkS) (u : State) : Paced u (modLink lead f u) := of_kept rfl rfl rfl rfl
  exact ite ((setPhase ..).trans ((laneReadmit ..).trans ((wr ..).trans (hlink ..)))) (refl s)

theorem react (r n : Nat) (part link : Option Nat) (s : State) : Paced s (react r n part link s) := by
  unfold Machine.react
  split_ifs
  · split
    · exact enterRecovery ..
    · exact refl s
  · split
    · exact (startDrain ..).trans (partResetStart ..)
    · exact refl s
  · exact of_aside (Aside.fatalStart n s)
  · exact refl s

theorem degrade (b : Bool) (s : State) : Paced s (s.when (b && decide (s.mode = .run)) (setMode .degraded)) := of_aside (Aside.degrade b s)

/-- A source that asserts, against whatever partition and link. -/
theorem raiseAs (force : Option Nat) (n : Nat) (part link : Option Nat) (wire : Nat) (s : State) :
    Paced s (raiseAs force n part link wire s) := by
  have hmark (b : Bool) (pg : Page) (j : Nat) (v : State) : Paced v (v.when b (setErrPart pg j true)) :=
    when b (fun u => wr _ _ _ u) v
  unfold Machine.raiseAs
  split
  · next info pg _ _ _ =>
    refine ite (refl s) ((hmark (info.domain == 2 && part.isSome) pg (part.getD 0) s).trans ?_)
    dsimp only
    generalize s.when _ _ = v
    have hmerged (b : Bool) (x : SrcS) : Paced v (Machine.countMerge n (v.when b (Machine.setSrc n x))) :=
      (when b (fun u => setSrc n x u) v).trans (countMerge ..)
    have hopened (x : SrcS) (l : List (Nat × Nat)) (b : Bool) (r : Nat) (k : Option Nat) : Paced v (Machine.react r n part k
        ((Machine.post 128 0x10 l (Machine.setSrc n x v)).when (b && decide ((Machine.post 128 0x10 l (Machine.setSrc n x v)).mode = .run))
          (setMode .degraded))) :=
      (setSrc ..).trans ((post ..).trans ((degrade ..).trans (react ..)))
    exact ite (refl v) (ite ((setSrc ..).trans (countMerge ..)) (ite (hmerged ..) (hopened ..)))
  · exact refl s

theorem raise (n : Nat) (part link : Option Nat) (s : State) : Paced s (raise n part link s) := raiseAs ..

/-! ### What the blocks do once an epoch (02 R38) -/

theorem ctrFail (k : Nat) (s : State) : Paced s (ctrFail k s) := by
  have hrestart : Paced s (ctrRestart k s) := of_kept rfl rfl rfl rfl
  exact hrestart.trans (raise ..)

theorem setFtm {f : Ftm} (hslot : f.slotDone = s.ftm.slotDone) (hepoch : f.epochDone = s.ftm.epochDone) :
    Paced s (setFtm f s) := ⟨rfl, hslot, hepoch, rfl, id⟩

theorem settleMiss (s : State) : Paced s (settleMiss s) := by
  refine when _ (fun u => ?_) s
  exact (wr ..).trans (setFtm (s := bump .ftm F.FTM_SRC_CNT_FSYNC_MISS u) rfl rfl)

theorem ftmEpoch (s : State) : Paced s (ftmEpoch s) := by
  unfold Machine.ftmEpoch
  refine ite (refl s) (Paced.trans (when _ (fun u => ?_) s) (when _ (fun u => ?_) _))
  · exact (settleMiss u).trans (ite (setFtm rfl rfl) (setFtm rfl rfl))
  · exact setFtm rfl rfl

theorem timeCheck (s : State) : Paced s (timeCheck s) := when _ (fun u => say _ u) s

theorem autoClear (n : Nat) (s : State) : Paced s (autoClear n s) := by
  have hclear (b : Bool) (f : SrcS → SrcS) : Paced s (if b = true then modSrc n f s else s) := ite (setSrc ..) (refl s)
  unfold Machine.autoClear
  dsimp only
  split <;> exact hclear ..

theorem closeEpoch (s : State) : Paced s (closeEpoch s) :=
  each _ (fun _ u => ite ((setSrc ..).trans (autoClear ..)) (refl u)) s

theorem predDecay (s : State) : Paced s (predDecay s) := ite (of_kept rfl rfl rfl rfl) (of_kept rfl rfl rfl rfl)

theorem alcDrop (n : Nat) (l : LineId) (s : State) : Paced s (alcDrop n l s) := by
  have hmod (f : AlcL → AlcL) (u : State) : Paced u (modAlc n l f u) := of_kept rfl rfl rfl rfl
  unfold Machine.alcDrop
  split
  · exact refl s
  · have hback := hmod (fun a => { a with drop := true }) (bump (.homeT n) F.HOME_ALC_CNT_EVICTS s)
    exact (wr (.homeT n) F.HOME_ALC_CNT_EVICTS _ s).trans (ite (hmod ..) (ite (hback.trans (of_aside (Beside.alcWriteback ..).aside))
      (of_kept rfl rfl rfl rfl)))

theorem coldDrop (s : State) : Paced s (coldDrop s) := each _ (fun (a : AlcL) u => alcDrop a.tile a.line u) s

theorem alcReport (s : State) : Paced s (alcReport s) := by
  have hfound (h : Home) (u : State) : Paced u { u with home := h } := of_kept rfl rfl rfl rfl
  refine (each _ (fun x u => ?_) s).trans (hfound _ _)
  obtain ⟨_, part⟩ := x
  cases part <;> exact raise ..

theorem modWab (n id : Nat) (f : WabE → WabE) (s : State) : Paced s (modWab n id f s) := of_kept rfl rfl rfl rfl

theorem wabRead (n id : Nat) (s : State) : Paced s (wabRead n id s) := by
  have hbad (l : List (Nat × Nat × Nat)) : Paced s { s with wab := { s.wab with bad := l } } := of_kept rfl rfl rfl rfl
  unfold Machine.wabRead
  split
  · exact refl s
  · refine (hbad _).trans (ite ((wr ..).trans (raise ..)) ?_)
    exact (each _ (fun e u => modWab _ _ _ u) _).trans ((wr ..).trans (each _ (fun p u => raise _ _ _ u) _))

theorem wabSend (n id : Nat) (s : State) : Paced s (wabSend n id s) := by
  unfold Machine.wabSend
  refine (wabRead n id s).trans ?_
  dsimp only
  generalize Machine.wabRead n id s = u
  have hsent (f : WabE → WabE) (tc : Nat) (x : Fwd) :
      Paced u (u |> Machine.modWab n id f |> bump (.wabT n) F.WAB_CNT_REISSUE |> forward true tc 0 0 x) :=
    (modWab ..).trans ((wr ..).trans (of_aside (Beside.forwardTo ..).aside))
  split
  · exact refl u
  · exact ite ((hsent ..).trans ((post ..).trans (startDrain ..))) (hsent ..)

theorem wabErrReissue (s : State) : Paced s (wabErrReissue s) := each _ (fun _ u => wabSend _ _ u) s

theorem lossRearm (s : State) : Paced s (lossRearm s) := by
  have hnote (i : Nat) (x : LossNote) (u : State) : Paced u (setNote i x u) := of_kept rfl rfl rfl rfl
  exact each _ (fun x u => ite (hnote ..) (ite (hnote ..) (ite (hnote ..) (refl u)))) s

theorem dueDone (ep : Bool) (s : State) : Paced s (dueDone ep s) := by
  have hleft (l : List Due) : Paced s { s with mq := { s.mq with due := l } } := of_kept rfl rfl rfl rfl
  exact (hleft _).trans (each _ (fun (d : Due) u => complete _ _ _ _ _ u) _)

theorem glrEpoch (s : State) : Paced s (glrEpoch s) := by
  have hglr (g : Glr) (u : State) : Paced u (setGlr g u) := of_kept rfl rfl rfl rfl
  have hput (f : GFrame) (u : State) : Paced u (glrPut f u) := by
    obtain ⟨q, b, o, h⟩ := glrPut_ring f u
    rw [h]
    exact of_kept rfl rfl rfl rfl
  exact (hglr _ s).trans ((when _ (fun u => wr _ _ _ u) _).trans ((hglr _ _).trans (each _ hput _)))

end Paced

end Sys2Proof.Machine
end

section
/-! SUPPORT. A refill-slot boundary and an epoch boundary, part by part (02 R38). -/
namespace Sys2Proof.Machine
variable {s t u : State}

/-! ### The samples and the effects of a slot -/

namespace Paced

theorem sampleLane (lane : Nat) (s : State) : Paced s (sampleLane lane s) := of_kept rfl rfl rfl rfl

theorem sampleIdle (lead : Nat) (s : State) : Paced s (sampleIdle lead s) := by
  have hlink (l : LinkS) : Paced s (setLink lead l s) := of_kept rfl rfl rfl rfl
  exact (hlink _).trans (when _ (fun u => wr _ _ _ u) _)

theorem sampleLink (lead : Nat) (s : State) : Paced s (sampleLink lead s) := of_kept rfl rfl rfl rfl

theorem samplePorts (s : State) : Paced s (samplePorts s) :=
  (each _ sampleLane s).trans ((each _ sampleIdle _).trans (each _ sampleLink _))

theorem slotSample (i v : Nat) (s : State) : Paced s (slotSample i v s) := (unfrozen samplePorts s).trans (of_kept rfl rfl rfl rfl)

end Paced

/-- What the effects of a slot leave alone, beside the marks and the tokens. -/
structure SlotStep (s t : State) : Prop where
  paced : Paced s t
  tok : t.trail.tokUsed = s.trail.tokUsed
  peak : rd t .pwr F.PWR_SLOT_MEAS_PEAK_I = rd s .pwr F.PWR_SLOT_MEAS_PEAK_I

namespace SlotStep

theorem of_kept (htime : t.time = s.time) (hftm : t.ftm = s.ftm) (htel : t.tel.snapSeq = s.tel.snapSeq) (hsched : t.sched = s.sched)
    (htrail : t.trail = s.trail) (hregs : t.regs = s.regs) : SlotStep s t :=
  ⟨.of_kept htime hftm htel hsched, by rw [htrail], by rw [rd, hregs, rd]⟩

theorem refl (s : State) : SlotStep s s := of_kept rfl rfl rfl rfl rfl rfl

theorem trans (h : SlotStep s t) (g : SlotStep t u) : SlotStep s u :=
  ⟨h.paced.trans g.paced, g.tok.trans h.tok, g.peak.trans h.peak⟩

theorem ite {c : Prop} [Decidable c] (h : SlotStep s t) (g : SlotStep s u) : SlotStep s (if c then t else u) := by
  split
  · exact h
  · exact g

theorem when {f : State → State} (b : Bool) (h : ∀ s, SlotStep s (f s)) (s : State) : SlotStep s (s.when b f) := ite (h s) (refl s)

theorem each {α : Type} (l : List α) {f : α → State → State} (h : ∀ a s, SlotStep s (f a s)) (s : State) :
    SlotStep s (s.each l f) := by
  induction l generalizing s with
  | nil => exact refl s
  | cons a l ih => exact (h a s).trans (ih (f a s))

theorem unfrozen {f : State → State} (h : ∀ s, SlotStep s (f s)) (s : State) : SlotStep s (unfrozen f s) := ite (refl s) (h s)

theorem wr {pg : Page} {f : Fld} (v : Nat) (s : State)
    (h : f.off * 8 + f.lo < 0x8000 ∧ F.PWR_SLOT_MEAS_PEAK_I.off * 8 + F.PWR_SLOT_MEAS_PEAK_I.lo < 0x8000 ∧
      f.off * 8 + f.lo ≠ F.PWR_SLOT_MEAS_PEAK_I.off * 8 + F.PWR_SLOT_MEAS_PEAK_I.lo) : SlotStep s (wr pg f v s) :=
  ⟨Paced.wr .., rfl, rd_wr_place v s h⟩

theorem egressBoundary (s : State) : SlotStep s (egressBoundary s) := by
  have hegr (e : Egr) (u : State) : SlotStep u { u with egr := e } := of_kept rfl rfl rfl rfl rfl rfl
  have hquantum (k v : Nat) (u : State) : SlotStep u (quantumInForce k v u) := (hegr _ u).trans (when _ (fun w => hegr _ w) _)
  have hshaper (k : Nat) (x : Bool × Nat × Nat × Nat) (u : State) : SlotStep u (shaperInForce k x u) := (hegr _ u).trans (hegr _ _)
  refine (each _ (fun e u => ?_) s).trans ((each _ (fun e u => ?_) _).trans (each _ (fun e u => hegr _ u) _))
  · obtain ⟨k, _ | ⟨v, n⟩⟩ := e
    · exact refl u
    · exact ite (refl u) (hquantum ..)
  · obtain ⟨k, _ | x⟩ := e
    · exact refl u
    · exact ite (refl u) (hshaper ..)

theorem curveBoundary (s : State) : SlotStep s (curveBoundary s) := by
  unfold Machine.curveBoundary
  split
  · exact ite (refl s) (of_kept rfl rfl rfl rfl rfl rfl)
  · exact refl s

theorem eaBoundary (s : State) : SlotStep s (eaBoundary s) := when _ (fun u => wr _ u (by decide)) s

theorem skyBoundary (s : State) : SlotStep s (skyBoundary s) := by
  have htel (x : Tel) (h : x.snapSeq = s.tel.snapSeq) : SlotStep s { s with tel := x } := of_kept rfl rfl h rfl rfl rfl
  unfold Machine.skyBoundary skyRing
  split
  · have hmoved := htel { s.tel with skySlot := [], skyPend := none } rfl
    exact ite (htel _ rfl) (hmoved.trans ((wr _ _ (by decide)).trans (wr _ _ (by decide))))
  · exact htel _ rfl

theorem emberBoundary (s : State) : SlotStep s (emberBoundary s) := ite (of_kept rfl rfl rfl rfl rfl rfl) (refl s)

theorem narrowWiden (lead : Nat) (s : State) : SlotStep s (narrowWiden lead s) := ite (of_kept rfl rfl rfl rfl rfl rfl) (refl s)

end SlotStep

/-- A replica without a bad word is read as it stands. -/
theorem readReplica_clean (k idx : Nat) (part : Option Nat) (s : State) : readReplica k idx part [] s = (true, s) := by
  cases part <;> simp [readReplica, badWords, raiseSame, State.each, State.when]

theorem scrubTiles_clean (idx : Nat) (l : List Nat) (s : State) : scrubTiles idx [] l s = s := by
  induction l with
  | nil => rfl
  | cons k l ih =>
    unfold scrubTiles
    dsimp only
    rw [readReplica_clean]
    exact ih

theorem SlotStep.bindScrub (s : State) : SlotStep s (bindScrub [] s) := by
  unfold Machine.bindScrub
  dsimp only
  rw [scrubTiles_clean]
  exact of_kept rfl rfl rfl rfl rfl rfl

theorem SlotStep.dueDone (ep : Bool) (s : State) : SlotStep s (dueDone ep s) := by
  have hmq (m : Mq) : SlotStep s { s with mq := m } := of_kept rfl rfl rfl rfl rfl rfl
  refine (hmq _).trans (each _ (fun (d : Due) u => ?_) _)
  exact ⟨Paced.complete .., congrArg Trail.tokUsed (complete_trail ..), rd_complete_partFld _ _ _ _ _ (by decide) (by decide) u⟩

/-- The effects of a slot as far as the mark. -/
def slotActed (s : State) : State :=
  s |> rweApply false |> unfrozen egressBoundary |> curveBoundary |> eaBoundary |> skyBoundary |> slotBudgets |> emberBoundary
    |> unfrozen (fun s => s.each (leads s) narrowWiden) |> unfrozen (fun s => s.when s.mode.isUp (bindScrub []))

/-- The effects of a slot come to nothing in what is paced but the mark, and spend no token. -/
theorem slotActed_kept (s : State) : Paced s (slotActed s) ∧ (slotActed s).trail.tokUsed = 0 ∧
    rd (slotActed s) .pwr F.PWR_SLOT_MEAS_PEAK_I = rd s .pwr F.PWR_SLOT_MEAS_PEAK_I := by
  have hrwe : SlotStep s (rweApply false s) := .of_kept rfl rfl rfl rfl rfl rfl
  have hbefore : SlotStep s (s |> rweApply false |> unfrozen egressBoundary |> curveBoundary |> eaBoundary |> skyBoundary) :=
    hrwe.trans ((SlotStep.unfrozen .egressBoundary _).trans ((SlotStep.curveBoundary _).trans
      ((SlotStep.eaBoundary _).trans (.skyBoundary _))))
  have hafter (u : State) : SlotStep u (u |> emberBoundary |> unfrozen (fun s => s.each (leads s) narrowWiden)
      |> unfrozen (fun s => s.when s.mode.isUp (bindScrub []))) :=
    (SlotStep.emberBoundary u).trans ((SlotStep.unfrozen (fun v => .each _ .narrowWiden v) _).trans
      (.unfrozen (fun v => .when _ .bindScrub v) _))
  have hbudgets (u : State) : Paced u (slotBudgets u) := .of_kept rfl rfl rfl rfl
  have hacted := hafter (slotBudgets (s |> rweApply false |> unfrozen egressBoundary |> curveBoundary |> eaBoundary |> skyBoundary))
  exact ⟨hbefore.paced.trans ((hbudgets _).trans hacted.paced), hacted.tok, hacted.peak.trans hbefore.peak⟩

/-- A slot that is marked has its tokens again, and the peak of its sample. -/
theorem slotEffect_kept (s : State) : (slotEffect [] s).time = s.time ∧ (slotEffect [] s).ftm.slotDone = s.time ∧
    (slotEffect [] s).ftm.epochDone = s.ftm.epochDone ∧ (slotEffect [] s).tel.snapSeq = s.tel.snapSeq ∧
    (s.sched = [] → (slotEffect [] s).sched = []) ∧ (slotEffect [] s).trail.tokUsed = 0 ∧
    rd (slotEffect [] s) .pwr F.PWR_SLOT_MEAS_PEAK_I = rd s .pwr F.PWR_SLOT_MEAS_PEAK_I := by
  obtain ⟨hacted, htok, hpeak⟩ := slotActed_kept s
  have hdue := SlotStep.dueDone false (slotMark (slotActed s))
  have heq : slotEffect [] s = dueDone false (slotMark (slotActed s)) := rfl
  rw [heq]
  generalize dueDone false (slotMark (slotActed s)) = u at hdue
  generalize slotActed s = v at *
  exact ⟨hdue.paced.time.trans hacted.time, hdue.paced.slot.trans hacted.time, hdue.paced.epoch.trans hacted.epoch,
    hdue.paced.snap.trans hacted.snap, fun h => hdue.paced.sched (hacted.sched h), hdue.tok.trans htok, hdue.peak.trans hpeak⟩

/-- With nothing scheduled nothing takes effect. -/
theorem fireDue_of_nothing (h : s.sched = []) : fireDue s.sched.length s = s := by rw [h]; rfl

/-- The boundary of a slot alone. -/
theorem boundary_of_slot (perr : CtrStrikes) (i v : Nat) (h : NoneHeld s) (hsched : s.sched = []) (hslot : s.time % 2 ^ 7 = 0)
    (hdone : s.ftm.slotDone ≠ s.time) (hep : (s.time % 2 ^ 17 == 0 && s.ftm.epochDone != s.time) = false) :
    boundary perr (some (i, v)) [] s = slotEffect [] (slotSample i v s) := by
  have hsl : (s.time % 2 ^ 7 == 0 && s.ftm.slotDone != s.time) = true := by
    rw [hslot]
    simpa using hdone
  have hw := noneWaits_of_noneHeld h
  have hnothing : (slotEffect [] (slotSample i v s)).sched = [] := (slotEffect_kept _).2.2.2.2.1 ((Paced.slotSample i v s).sched hsched)
  obtain ⟨-, -, hsky⟩ := h
  unfold boundary
  dsimp only
  rw [hep, hsl, parDue_none hw, spdmDue_none hw, skySettle_none (s := s) (by simp [hsky])]
  simp only [State.when, if_true, Bool.false_eq_true, if_false, Bool.false_or]
  exact fireDue_of_nothing hnothing

/-! ### An epoch boundary -/

/-- The count stands, with the number of the next snapshot, and the table stays empty. -/
structure Timed (s t : State) : Prop where
  time : t.time = s.time
  snap : t.tel.snapSeq = s.tel.snapSeq
  sched : s.sched = [] → t.sched = []

theorem Paced.timed (h : Paced s t) : Timed s t := ⟨h.time, h.snap, h.sched⟩

/-- The snapshot of an epoch takes the next number; the count stands, and the table stays empty. -/
structure Snapped (s t : State) : Prop where
  time : t.time = s.time
  snap : t.tel.snapSeq = s.tel.snapSeq + 1
  sched : s.sched = [] → t.sched = []

theorem Snapped.trans (h : Snapped s t) (g : Timed t u) : Snapped s u :=
  ⟨g.time.trans h.time, g.snap.trans h.snap, fun hs => g.sched (h.sched hs)⟩

theorem Snapped.after (h : Paced s t) (g : Snapped t u) : Snapped s u :=
  ⟨g.time.trans h.time, g.snap.trans (by rw [h.snap]), fun hs => g.sched (h.sched hs)⟩

theorem snapped_snapLatch (x : CtrStrikes) (h : s.mode = .standby) : Snapped s (snapLatch x s) := by
  have hfrozen : (frozen s || s.mode == .off || s.mode == .precharge) = false := by simp [frozen, h]
  have hfailed := Paced.each (x.latch ++ s.tel.struck.filter fun k => !x.latch.contains k) Paced.ctrFail s
  have hlater (l : List Nat) (u : State) : Paced u { u with tel := { u.tel with struck := l } } := .of_kept rfl rfl rfl rfl
  have hctr (k v : Nat) (u : State) : Paced u (setCtr k v u) := .of_kept rfl rfl rfl rfl
  unfold snapLatch
  dsimp only
  rw [hfrozen, if_neg Bool.false_ne_true]
  generalize State.each (x.latch ++ s.tel.struck.filter fun k => !x.latch.contains k) ctrFail s = u at *
  have htaken (n : Snap) : Snapped u (wr .tel F.TEL_STS_COLLECTING 1
      { u with tel := { u.tel with snapNow := some n, snapSeq := u.tel.snapSeq + 1, skips := 0, perr := [], early := [] } }) :=
    ⟨rfl, rfl, id⟩
  split
  · have hskipped (l : List Nat) : Snapped s { s with tel := { s.tel with
        snapSeq := s.tel.snapSeq + 1, skips := s.tel.skips + 1, early := [], struck := l } } := ⟨rfl, rfl, id⟩
    exact (hskipped _).trans ((Paced.wr ..).trans (.post ..)).timed
  · refine .after hfailed ?_
    generalize hw : wr .tel F.TEL_STS_COLLECTING 1 _ = w
    have hsnapped : Snapped u w := hw ▸ htaken _
    generalize hb : w.each (List.range 16384) _ = b
    have hbanks : Paced w b := by
      rw [← hb]
      refine .each _ (fun n v => ?_) w
      split
      · exact .refl v
      · exact .ite ((Paced.wr ..).trans (.each _ (fun i w => hctr _ _ w) _)) (.refl v)
    exact (hsnapped.trans hbanks.timed).trans (hlater _ b).timed

/-- A load of the count leaves the mode, and all that is paced but the count and the marks. -/
theorem ftmLoad_kept (value via : Nat) (s : State) : (ftmLoad value via s).time = value % 2 ^ 64 ∧ (ftmLoad value via s).mode = s.mode ∧
    (ftmLoad value via s).tel = s.tel ∧ (ftmLoad value via s).sched = s.sched := by
  have hmiss {β : Type} (φ : State → β) (hφ : ∀ u, φ (u |> bump .ftm F.FTM_SRC_CNT_FSYNC_MISS
      |> setFtm { u.ftm with prov := none, fsRun := u.ftm.fsRun + 1 }) = φ u) : φ (settleMiss s) = φ s := when_keeps φ hφ _ s
  have hmode := hmiss State.mode fun _ => rfl
  have htel := hmiss State.tel fun _ => rfl
  have hsched := hmiss State.sched fun _ => rfl
  have hset (f : Fld) (x b : Bool) (v : State) : (v.when b (wrb .ftm f x)).time = v.time ∧ (v.when b (wrb .ftm f x)).mode = v.mode ∧
      (v.when b (wrb .ftm f x)).tel = v.tel ∧ (v.when b (wrb .ftm f x)).sched = v.sched := by
    cases b <;> exact ⟨rfl, rfl, rfl, rfl⟩
  unfold ftmLoad
  dsimp only
  generalize settleMiss s = m at *
  split
  · simp [hset, sendTime, hmode, htel, hsched]
  · simp [hset, sendTime, hmode, htel, hsched]

/-- A TIME_SET that loads at an epoch boundary loads another one. -/
theorem loadSet_kept (h : s.time % 2 ^ 17 = 0) : (loadSet s).time % 2 ^ 17 = 0 ∧ (loadSet s).mode = s.mode ∧
    (loadSet s).tel.snapSeq = s.tel.snapSeq ∧ (s.sched = [] → (loadSet s).sched = []) := by
  unfold loadSet
  split
  · next x _ =>
    obtain ⟨htime, hmode, htel, hsched⟩ := ftmLoad_kept (x.e * epochTicks) 2 s
    refine ⟨?_, hmode, by rw [htel], hsched.trans⟩
    have hticks : epochTicks = 2 ^ 17 := rfl
    rw [htime, hticks]
    omega
  · exact ⟨h, rfl, rfl, id⟩

theorem timed_slotEffect (i v : Nat) (s : State) : Timed s (slotEffect [] (slotSample i v s)) := by
  have hsampled := Paced.slotSample i v s
  generalize slotSample i v s = u at *
  obtain ⟨htime, -, -, hsnap, hsched, -, -⟩ := slotEffect_kept u
  exact ⟨htime.trans hsampled.time, hsnap.trans hsampled.snap, fun h => hsched (hsampled.sched h)⟩

/-- The slot that ends with an epoch. -/
theorem timed_slot (s : State) (b : Bool) : Timed s ((s.when b fun s =>
    let (i, s) := s.draw
    let (v, s) := s.draw
    slotSample (i % 1024) (v % 2048) s).when b (slotEffect [])) := by
  cases b with
  | false => exact (Paced.refl s).timed
  | true =>
    simp only [State.when, if_true, State.draw]
    have hkept := timed_slotEffect (Config.freeNat s.free % 1024) (Config.freeNat (s.free + 1) % 2048) { s with free := s.free + 1 + 1 }
    exact ⟨hkept.time, hkept.snap, hkept.sched⟩

/-- What the blocks do once an epoch moves nothing that is paced. -/
theorem paced_epochActions (s : State) : Paced s (epochActions s) :=
  (Paced.ftmEpoch s).trans ((Paced.timeCheck _).trans ((Paced.closeEpoch _).trans ((Paced.unfrozen .predDecay _).trans
    ((Paced.unfrozen .coldDrop _).trans ((Paced.alcReport _).trans ((Paced.unfrozen .lossRearm _).trans
      ((Paced.unfrozen .wabErrReissue _).trans ((Paced.glrEpoch _).trans (.dueDone true _)))))))))

/-- The boundary of an epoch is marked, with its snapshot. -/
theorem boundary_of_epoch (perr : CtrStrikes) (h : NoneHeld s) (hmode : s.mode = .standby) (hsched : s.sched = [])
    (htime : s.time % 2 ^ 17 = 0) (hdone : s.ftm.epochDone ≠ s.time) :
    (boundary perr none [] s).time % 2 ^ 17 = 0 ∧ (boundary perr none [] s).ftm.epochDone = (boundary perr none [] s).time ∧
      (boundary perr none [] s).tel.snapSeq = s.tel.snapSeq + 1 := by
  have hep : (s.time % 2 ^ 17 == 0 && s.ftm.epochDone != s.time) = true := by
    rw [htime]
    simpa using hdone
  have hw := noneWaits_of_noneHeld h
  obtain ⟨-, -, hsky⟩ := h
  obtain ⟨hload, hloadMode, hloadSnap, hloadSched⟩ := loadSet_kept htime
  have hsnap := snapped_snapLatch perr (hloadMode.trans hmode)
  unfold boundary
  dsimp only
  rw [hep, parDue_none hw, spdmDue_none hw, skySettle_none (s := s) (by simp [hsky])]
  have htrue (f : State → State) (v : State) : v.when true f = f v := rfl
  simp only [htrue, Bool.true_or]
  have hslot := hsnap.trans (timed_slot (snapLatch perr (loadSet s)) (s.time % 2 ^ 7 == 0 && s.ftm.slotDone != s.time))
  generalize ((snapLatch perr (loadSet s)).when _ _).when _ (slotEffect []) = v at *
  have hfired : fireDue (epochMark (rweApply true v)).sched.length (epochMark (rweApply true v)) = epochMark (rweApply true v) :=
    fireDue_of_nothing (hslot.sched (hloadSched hsched))
  rw [hfired]
  have hacted := paced_epochActions (epochMark (rweApply true v))
  generalize epochActions (epochMark (rweApply true v)) = u at *
  have hu : u.time = v.time := hacted.time
  refine ⟨?_, hacted.epoch.trans hu.symm, hacted.snap.trans (hslot.snap.trans (by rw [hloadSnap]))⟩
  rw [hu, hslot.time]
  exact hload

end Sys2Proof.Machine
end

section
/-! SUPPORT. The way to a boundary (02 R38). -/
namespace Sys2Proof.Machine
variable {s t u : State}

/-- The count goes on to the next multiple, or stays at one that has not been acted on. -/
theorem advanceToMultiple_reaches {p done : Nat} (hp : 0 < p) (hclk : clockRuns s = true) (htop : s.time + p < 2 ^ 64)
    (hdone : done ≤ s.time ∨ done = 2 ^ 64) : ∃ n m, advanceToMultiple p done s = { s with time := n, tick := m } ∧ n % p = 0 ∧
      done ≠ n ∧ (n = s.time ∨ n = s.time + (p - s.time % p)) := by
  have hlt : s.time % p < p := Nat.mod_lt _ hp
  unfold advanceToMultiple
  split
  · next h => exact ⟨s.time, s.tick, rfl, h.1, h.2, .inl rfl⟩
  · have hwrap : (s.time + (p - s.time % p)) % 2 ^ 64 = s.time + (p - s.time % p) := Nat.mod_eq_of_lt (by omega)
    refine ⟨s.time + (p - s.time % p), s.tick + (p - s.time % p), ?_, ?_, by omega, .inr rfl⟩
    · rw [passTicks_of_clock _ hclk, hwrap]
    · have hdiv := Nat.div_add_mod s.time p
      have hnext : s.time + (p - s.time % p) = p * (s.time / p + 1) := by
        rw [Nat.mul_add]
        omega
      rw [hnext, Nat.mul_mod_right]

/-- No point of the curve reaches its time while none is armed. -/
theorem firstReach_none {l : List (Option Nat)} (h : ∀ x ∈ l, x = none) : firstReach l = none := by
  have hnone : ∀ x ∈ l.zipIdx, x.1 = none := fun x hx => h _ (List.mem_zipIdx' hx |>.2 ▸ List.getElem_mem _)
  unfold firstReach
  generalize l.zipIdx = k at hnone ⊢
  induction k with
  | nil => rfl
  | cons x k ih =>
    rw [List.foldl_cons, hnone x List.mem_cons_self]
    exact ih fun y hy => hnone y (List.mem_cons_of_mem _ hy)

/-- Periods in which no point can trip change the power controller alone. -/
theorem periodRun_quiet (r : CurRun) (h : s.pwr.path ≠ .closed ∨ ∀ x ∈ s.pwr.curve, x.1 = false) :
    ∃ p, periodRun r s = setPwr p s ∧ p.path = s.pwr.path ∧ p.curve = s.pwr.curve := by
  have hnone (i : Nat) : (if s.pwr.brk == 1 && !s.pwr.stTest && decide (s.pwr.path = .closed) then
      firstReach ((pointTimers s).map fun x => pointReach s.pwr.measFb i r.n x.1 x.2) else none) = none := by
    rcases h with hopen | hoff
    · rw [if_neg (by simp [hopen])]
    · have hreach : firstReach ((pointTimers s).map fun x => pointReach s.pwr.measFb i r.n x.1 x.2) = none := by
        refine firstReach_none fun y hy => ?_
        obtain ⟨x, hx, rfl⟩ := List.mem_map.1 hy
        have hpoint : x.1.1 = false := hoff x.1 (List.of_mem_zip hx).1
        simp [pointReach, hpoint]
      rw [hreach, ite_self]
  unfold periodRun
  dsimp only
  rw [hnone]
  split
  · exact ⟨s.pwr, rfl, rfl, rfl⟩
  · exact ⟨_, rfl, rfl, rfl⟩

theorem each_periodRun_quiet (l : List CurRun) (h : s.pwr.path ≠ .closed ∨ ∀ x ∈ s.pwr.curve, x.1 = false) :
    ∃ p, s.each l periodRun = setPwr p s := by
  induction l generalizing s with
  | nil => exact ⟨s.pwr, rfl⟩
  | cons r l ih =>
    obtain ⟨p, hrun, hpath, hcurve⟩ := periodRun_quiet r h
    obtain ⟨q, hrest⟩ := ih (s := setPwr p s) (by rwa [← hpath, ← hcurve] at h)
    exact ⟨q, (congrArg (State.each l periodRun) hrun).trans hrest⟩

theorem periodRuns_quiet (l : List CurRun) (h : l = [] ∨ s.pwr.path ≠ .closed ∨ ∀ x ∈ s.pwr.curve, x.1 = false) :
    ∃ p, periodRuns l s = setPwr p s := by
  unfold periodRuns
  cases s.pwr.lowAt.isNone with
  | false => exact ⟨s.pwr, rfl⟩
  | true =>
    rcases h with rfl | h
    · exact ⟨s.pwr, rfl⟩
    · exact each_periodRun_quiet l h

/-- The peak that a sample shows. -/
theorem rd_slotSample_peak (i v : Nat) (s : State) : rd (slotSample i v s) .pwr F.PWR_SLOT_MEAS_PEAK_I = min i 1023 := by
  unfold slotSample
  rw [rd_wr_place _ _ (by decide)]
  exact rd_wr_of_lt (f := F.PWR_SLOT_MEAS_PEAK_I) _ (lt_of_le_of_lt (min_le_right _ _) (by decide))

/-- Settles O5: the count goes on to the boundary, which marks itself; what else falls in its tick moves neither the count nor the mark. -/
theorem boundaries : Obligations.Boundaries := by
  refine ⟨fun s peakI vmin runs hheld hruns hclk hpend hsched _ htop hslot hroom hepoch => ?_,
    fun s hheld hclk hmode _ _ _ _ _ _ hpend hsched htop hepoch => ?_⟩
  · obtain ⟨n, m, hgo, hn, hfresh, hway⟩ := advanceToMultiple_reaches (p := 2 ^ 7) (by decide) hclk (by omega) hslot
    obtain ⟨p, hquiet⟩ := periodRuns_quiet (s := { s with time := n, tick := m }) runs hruns
    have hep : (n % 2 ^ 17 == 0 && s.ftm.epochDone != n) = false := by
      rcases hway with rfl | hn'
      · by_cases h : s.time % 2 ^ 17 = 0
        · simp [hepoch h]
        · rw [beq_false_of_ne h, Bool.false_and]
      · rw [beq_false_of_ne (by omega), Bool.false_and]
    have hrun : refillSlotBoundary ⟨peakI, runs⟩ vmin [] s =
        slotEffect [] (slotSample peakI vmin (setPwr p { s with time := n, tick := m })) := by
      rw [refillSlotBoundary, if_neg (by simp [hclk]), tcsUntil, tcsDue_of_no_pend _ hpend, hgo, hquiet]
      exact boundary_of_slot _ _ _ hheld hsched hn hfresh hep
    refine ⟨_, congrArg (done s) hrun, ?_⟩
    obtain ⟨htime, hmark, -, -, -, htok, hpeak⟩ := slotEffect_kept (slotSample peakI vmin (setPwr p { s with time := n, tick := m }))
    have hsample : (slotSample peakI vmin (setPwr p { s with time := n, tick := m })).time = n := (Paced.slotSample ..).time
    have hpk := rd_slotSample_peak peakI vmin (setPwr p { s with time := n, tick := m })
    generalize slotSample peakI vmin (setPwr p { s with time := n, tick := m }) = v at *
    generalize slotEffect [] v = u at *
    refine ⟨?_, hmark.trans htime.symm, htok, hpeak.trans hpk⟩
    rw [settled_time, htime, hsample]
    exact hn
  · obtain ⟨n, m, hgo, hn, hfresh, -⟩ := advanceToMultiple_reaches (p := 2 ^ 17) (by decide) hclk htop hepoch
    have hrun : epochBoundary ⟨[], []⟩ s = boundary ⟨[], []⟩ none [] { s with time := n, tick := m } := by
      rw [epochBoundary, if_neg (by simp [hclk]), tcsUntil, tcsDue_of_no_pend _ hpend, hgo]
    obtain ⟨htime, hmark, hsnap⟩ := boundary_of_epoch (s := { s with time := n, tick := m }) ⟨[], []⟩ hheld hmode hsched hn hfresh
    generalize boundary ⟨[], []⟩ none [] { s with time := n, tick := m } = u at *
    exact ⟨_, congrArg (done s) hrun, htime, hmark, hsnap⟩

end Sys2Proof.Machine
end
